-- ==== Sys2Proof/Word.lean ====
section
/-! DEFINITION. The word types of the Cleren 9616 and their plainest arithmetic (00_scope.md R8, R547). -/

namespace Sys2Proof

/-- One byte. -/
abbrev Byte := BitVec 8
/-- One register, 32 bits wide (R8). -/
abbrev Word := BitVec 32
/-- One graver register or signal value. -/
abbrev W64 := BitVec 64

/-- Every status byte of the device is one of these values (R547). -/
inductive Status where
  | ok | busy | denied | absent | fault | retry | stale
  deriving DecidableEq, Repr

/-- The value of a status byte (R547). -/
def Status.code : Status → Nat
  | .ok => 0 | .busy => 1 | .denied => 2 | .absent => 3 | .fault => 4 | .retry => 5 | .stale => 6

end Sys2Proof
end

