-- ==== Sys2Proof/Syntax.lean ====
section
/-! DEFINITION. The commands of the Cleren 9616: one constructor per row of opcode_table.json, with the row's operands,
and the types of those operands. The table gives the rows no bits, so a command has no encoding. -/

namespace Sys2Proof

/-- How far the flash lets a start come within the command: to its end, only to the early stage, or not to the early
stage, when the start hangs and only START_WATCHDOG ends it (R58). -/
inductive Reach where
  | full | early | none
  deriving DecidableEq, Repr

/-- The surroundings of a start: what the straps, the tamper inputs, the flash, the hold-up supply and the comparator
tests answer during it (R37, R45, R360, R496). -/
structure StartEnv where
  bootSel : Fin 4
  tamper  : BitVec 6
  flashAnswers : Bool
  huMv    : Nat
  cmpFail : BitVec 4
  upTo    : Reach
  deriving DecidableEq, Repr

/-- Who makes a register access (R11, R33, R512): the host over PCIe or xSPI, a control core, or a peer over the Almoith
link. -/
inductive Initiator where
  | pcie | xspi | core (n : Fin 4) | link
  deriving DecidableEq, Repr

/-- The host interfaces (R66). -/
inductive Iface where
  | pcie | xspi
  deriving DecidableEq, Repr

/-- The path of a read (R14, R512, R519). -/
inductive View where
  | bar0 | bar2 | xspiPlain | xspiPop | core (n : Fin 4)
  deriving DecidableEq, Repr

/-- The power and reset domains (R24). -/
inductive Domain where
  | aon | fld | fab | grv | ctl | cip | sds | mram
  deriving DecidableEq, Repr

/-- A Sync or Follow_Up as received: its sequence, whether a Follow_Up is to come, the precise origin timestamp and
the correction field [ns], and the raw capture of the ingress timestamp [ns of the local clock] (R82, R84, R90). -/
structure SyncMsg where
  seq     : Nat
  twoStep : Bool
  origin  : Int
  corr    : Int
  ingress : Int
  deriving DecidableEq, Repr

/-- A Pdelay_Req as received: its sequence, the port identity of the requester (clock identity and port number), and the raw
capture of its ingress timestamp [ns of the local clock] (R82, R90). -/
structure PdelayReq where
  seq     : Nat
  from_   : BitVec 80
  ingress : Nat
  deriving DecidableEq, Repr

/-- A Pdelay_Resp with its Follow_Up: the sequence, and the peer's two timestamps with the raw capture of the response's
ingress timestamp [ns]; none when a timestamp was lost (R82, R96). -/
structure PdelayMsg where
  seq : Nat
  ts  : Option (Int × Int × Int)
  deriving DecidableEq, Repr

/-- An Announce that a port of a domain holds: the grandmaster's IEEE 802.1AS values, the steps to it, and the path trace
(R82, R84, R99). -/
structure Announce where
  port     : Fin 32
  prio1    : Byte
  clkClass : Byte
  accuracy : Byte
  variance : BitVec 16
  prio2    : Byte
  identity : BitVec 64
  steps    : BitVec 16
  path     : List (BitVec 64)
  deriving DecidableEq, Repr

/-- A pulsed stipple output: an STP_OUT pin or a side-band output (R103). -/
inductive StpOut where
  | pin (n : Fin 4) | sbs (n : Fin 256)
  deriving DecidableEq, Repr

/-- A memory error met in a cell time (R158). -/
inductive MemError where
  | cellCorrected
  | cellUncorrectable (cell : Nat)
  | link (cell : Nat)
  | queue (q : Nat)
  | frame (f : Nat)
  | freeList (cell : Nat) (lost : List Nat)
  deriving DecidableEq, Repr

/-- A table entry found with bad parity (R196, R197): the table, the pipeline and the index. -/
structure TableUpset where
  table : Fin 16
  pipe  : Fin 2
  index : Nat
  deriving DecidableEq, Repr

/-- A consumer stalled on a pop (R154). -/
inductive Waiter where
  | gv (e : Fin 16) (c : Fin 8)
  | cc (n : Fin 4) (slot : Fin 16)
  deriving DecidableEq, Repr

/-- A received pause or PFC frame: the quanta per class; a pause frame sets every class (R211). -/
inductive PauseMsg where
  | pause (quanta : Nat)
  | pfc (enable : BitVec 8) (quanta : List Nat)
  deriving DecidableEq, Repr

/-- A wake burst on a segment: the length of the burst and of the silence after it [µs], and the 48 bits of the wake word
that follow, if any (R231, R232). -/
structure WakeBurst where
  burst   : Nat
  silence : Nat
  word    : Option (BitVec 48)
  deriving DecidableEq, Repr

/-- The CAN formats (R238). -/
inductive CanFmt where
  | cc | fd | xl
  deriving DecidableEq, Repr

/-- A CAN frame (R238–R248). -/
structure CanFrame where
  fmt  : CanFmt
  id   : Nat
  ide  : Bool
  rtr  : Bool
  brs  : Bool
  esi  : Bool
  sec  : Bool
  sdt  : Nat
  vcid : Nat
  af   : Nat
  data : List Byte
  deriving DecidableEq, Repr

/-- A frame received on a CAN bus, and the time since the sample point of its SOF [ns] (R241). -/
structure CanRx where
  frame : CanFrame
  ago   : Nat
  deriving DecidableEq, Repr

/-- What of a frame has gone out on a CAN bus (R243): its SOF only, or all of it. -/
inductive CanSent where
  | sof | all
  deriving DecidableEq, Repr

/-- A CAN channel that has sent its slot's SOF, or the whole frame (R243). -/
structure CanTx where
  ch   : Fin 96
  part : CanSent
  deriving DecidableEq, Repr

/-- A header received on a LIN bus, and the time since the falling edge of its break [ns] (R263). -/
structure LinHdr where
  id  : Fin 64
  ago : Nat
  deriving DecidableEq, Repr

/-- A writer of side-band outputs (R267). -/
inductive SbsWriter where
  | stipple | phy | transceiver | sleep
  deriving DecidableEq, Repr

/-- The level that a writer gives a side-band output (R267). -/
structure SbsValue where
  who   : SbsWriter
  level : Bool
  deriving DecidableEq, Repr

/-- Where an error on a CAN channel was met (ISO 11898-1, R242): as transmitter, as receiver, with the further cases the
counters distinguish; `txDominantAfterFlag` meets a transmitter whose attempt has ended already. -/
inductive CanErr where
  | tx | rx | rxDominantAfterFlag | txDominantAfterFlag | txNoCounter | collide
  deriving DecidableEq, Repr

/-- A guarded field channel (R256). -/
inductive FieldCh where
  | can (n : Fin 96) | lin (n : Fin 32)
  deriving DecidableEq, Repr

/-- The outcome of a LIN response slot (R263). -/
inductive LinResp where
  | data (b : List Byte)
  | checksum | framing | none | collision
  deriving DecidableEq, Repr

/-- What disturbs a slice (R355–R361): nothing; a mismatch, in the rerun too or not, with the cause shown in
CTL_CCn_RERUN less one (0 signature, 1 pass-B invariant, 2 replay address, 3 DTCM error); comparators that disagree; an
uncorrectable error of the instruction memory; a corrected error of a memory. -/
inductive SliceUpset where
  | clean
  | corrected
  | mismatch (again : Bool) (cause : Fin 4)
  | comparator
  | itcm
  deriving DecidableEq, Repr

/-- An upset that a graver engine meets (R321, R339, R340): a corrected error of IMEM or DMEM; an uncorrectable error of
DMEM or a parity error of the registers in a context; an uncorrectable error of IMEM. -/
inductive GvUpset where
  | corrected
  | context (c : Fin 8)
  | imem
  deriving DecidableEq, Repr

/-- A dispatch of a graver engine, with the upset that it meets first, if any (R317, R339). -/
structure GvDispatch where
  eng   : Fin 16
  upset : Option GvUpset
  deriving DecidableEq, Repr

/-- A user of the vault mailbox (R393). -/
inductive MboxUser where
  | pcie | xspi | core (n : Fin 4)
  deriving DecidableEq, Repr

/-- How the two lanes of a pair compare, and what the known-answer tests answer after a disagreement (R404–R406). -/
inductive LaneCheck where
  | agree
  | differ (katPass : Bool) (again : Bool)
  deriving DecidableEq, Repr

/-- A secure association that MKA installs (R416). -/
structure SaInstall where
  tx    : Bool
  sc    : Fin 12
  an    : Fin 4
  slot  : Fin 64
  ssci  : Nat
  sci   : Nat
  nextPn : Nat
  key   : List Byte
  salt  : List Byte
  deriving DecidableEq, Repr

/-- What the MAC finds at the end of a frame (R205, R214): a good FCS, a wrong one, or fragments that do not assemble. -/
inductive RxEnd where
  | good | badFcs | assembly
  deriving DecidableEq, Repr

/-- Where a proof beacon came from (R461). -/
inductive BeaconSrc where
  | eth (port : Fin 32) (b : List Byte)
  | can (ch : Fin 96) (id : Nat) (b : List Byte)
  deriving DecidableEq, Repr

/-- One sample of the four junction sensors [0.5 °C] (R494). -/
structure TempSample where
  t0 : Int
  t1 : Int
  t2 : Int
  t3 : Int
  deriving DecidableEq, Repr

/-- Who freezes, thaws or clears the recorder (R508). -/
inductive RecUser where
  | host (i : Iface) | link | diag
  deriving DecidableEq, Repr


/-- The commands of the device, in the order of opcode_table.json. -/
inductive Instr where
  /-- POWER_ON_RESET (R45): PORST_N rises or VDD_AON returns above its POR threshold; the device latches the straps and runs the full start sequence of plate copies. -/
  | powerOnReset (env : StartEnv)
  /-- WARM_RESET (R38): WRST_N low, the hardground reset request, a life-cycle transition or an escalation gates transmitters, finishes MRAM writes, resets and runs a full start. -/
  | warmReset (pin : Bool) (env : StartEnv)
  /-- SYS_RST_REQ (R36): A write of REQ with key 0xA5C3 to SYS_RST_REQ requests a WRST when the HOST section grants the reset permission, and is otherwise ignored and counted. -/
  | sysRstReq (who : Initiator) (v : Word)
  /-- DOMAIN_RESET (R39): A domain fault or fence holds the domain fail-silent and rereads its plate sections to compare them with the recorded digests. -/
  | domainReset (d : Domain)
  /-- DOMAIN_RELOAD_DONE (R39): The reread of a reset domain's sections completes; the domain is released when every digest agrees, and otherwise the device escalates to a WRST with cause FENCE. -/
  | domainReloadDone (d : Domain)
  /-- WAKE_START (R48): A wake latched in SLEEP raises the rails and restarts the device through the shortened wake path or, failing its conditions, as a POR start from step 3. -/
  | wakeStart (env : StartEnv)
  /-- START_WATCHDOG (R58): The start watchdog expires before the full stage and the start fails with TIMEOUT, ending early-only or halted. -/
  | startWatchdog
  /-- TAMPER_HOLD_CLEARED (R390): The tamper input that stopped a start at TAMPER_HOLD clears and the start resumes at step 5 after the response level has been applied. -/
  | tamperHoldCleared (env : StartEnv)
  /-- OPEN (R67): The staging command OPEN selects the target copy, clears any pending request and erases the flash covering the plate length. -/
  | openStage (who : Iface) (copyB : Bool)
  /-- STAGE_WRITE (R67): The staging command WRITE programs the 4 KiB in SYS_STAGE_BUF at the given offset of the staged copy. -/
  | stageWrite (who : Iface)
  /-- CLOSE (R67): The staging command CLOSE reads the staged copy back, checks header, TLVs and digests, and on success writes the staging page with START_STAGED. -/
  | closeStage (who : Iface)
  /-- ABORT (R67): The staging command ABORT closes the session without writing a request. -/
  | abortStage (who : Iface)
  /-- RECOVER_START (R67): In the halted or recovery state the command RECOVER_START starts at once with the closed copy first. -/
  | recoverStart (who : Iface) (env : StartEnv)
  /-- STAGE_COMMAND_DONE (R67): A staging command finishes its flash work and its status byte replaces BUSY in SYS_STAGE_STAT. -/
  | stageCommandDone
  /-- START_RECORD_RETRY (R63): A start-record MRAM write refused by the hold-up check is retried every 10 ms until it succeeds. -/
  | startRecordRetry
  /-- SYNC (R84): A valid Sync arrives on a domain's slave port, moves the domain state and corrects the domain clock. -/
  | sync (d : Fin 4) (port : Fin 32) (m : SyncMsg)
  /-- FOLLOW_UP (R82): A Follow_Up message completes a two-step Sync on a gPTP port. -/
  | followUp (d : Fin 4) (port : Fin 32) (m : SyncMsg)
  /-- PDELAY_REQ (R82): A Pdelay_Req message is received and answered for peer-to-peer delay measurement. -/
  | pdelayReq (d : Fin 4) (port : Fin 32) (m : PdelayReq)
  /-- PDELAY_RESP (R82): A Pdelay_Resp message is received and updates the measured path delay, or the exchange is discarded when a timestamp was lost. -/
  | pdelayResp (d : Fin 4) (port : Fin 32) (m : PdelayMsg)
  /-- SYNC_INTERVAL (R82): The Sync interval of a master port expires and the device sends a two-step Sync with Follow_Up. -/
  | syncInterval (d : Fin 4) (port : Fin 32) (ns : Fin 4)
  /-- PDELAY_REQ_INTERVAL (R82): The Pdelay request interval of a port expires and a new Pdelay exchange starts. -/
  | pdelayReqInterval (d : Fin 4) (port : Fin 32)
  /-- BMCA (R84): The BMCA selects this or another device as grandmaster of a domain and the domain enters or leaves GM. -/
  | bmca (d : Fin 4) (l : List Announce)
  /-- SYNC_RECEIPT_TIMEOUT (R84): No valid Sync arrives within syncReceiptTimeout Sync intervals; the domain moves to FREE or HOLDOVER and domain 0 may fail over. -/
  | syncReceiptTimeout (d : Fin 4)
  /-- HOLDOVER_LIMIT (R84): The holdover limit passes and the domain moves from HOLDOVER to FREE. -/
  | holdoverLimit (d : Fin 4)
  /-- TIMESTAMP_DRAIN (R93): The completion writer moves a transmit timestamp from a port FIFO into its completion record, and the FIFO refills from the pool. -/
  | timestampDrain (port : Fin 32)
  /-- PPS_OUT (R97): A whole second of the selected domain begins and PPS_OUT rises. -/
  | ppsOut
  /-- PPS_OUT_WIDTH (R97): The PPS_OUT high time ends and the pin falls. -/
  | ppsOutWidth
  /-- PPS_IN (R98): A rising edge on PPS_IN is timestamped and, with PPS_DISCIPLINE, steers domain 0, or is rejected and counted. -/
  | ppsIn
  /-- NOP_ACTION (R103): A stipple instant with action NOP fires and the entry counts as launched. -/
  | nopAction (e : Fin 4096)
  /-- LAUNCH_FRAME (R103): A stipple instant releases prepared frames at the head of a stipple-reserved queue, or skips or waits under the late policy. -/
  | launchFrame (e : Fin 4096)
  /-- LAUNCH_PDU (R103): A stipple instant releases the PDU packed by a reserved graver engine, or skips or waits under the late policy. -/
  | launchPdu (e : Fin 4096)
  /-- GATE (R217): A stipple instant forces a port's transmission gates or returns them to the Qbv list. -/
  | gate (e : Fin 4096)
  /-- SNAPSHOT (R118): A stipple instant raises a snapshot latch of a set on a reserved graver engine. -/
  | snapshot (e : Fin 4096)
  /-- OUTPUT (R103): A stipple instant drives an STP_OUT pin or an SBS output low, high, toggled or pulsed. -/
  | output (e : Fin 4096)
  /-- PLCA_BEACON (R227): A stipple instant fixes when a coordinator segment's BEACON starts a cycle. -/
  | plcaBeacon (e : Fin 4096)
  /-- ENGINE_EVENT (R103): A stipple instant raises an STP event on one of GV0 to GV3. -/
  | engineEvent (e : Fin 4096)
  /-- OUTPUT_PULSE_END (R103): The width of a pulsed stipple output ends and the output returns. -/
  | outputPulseEnd (o : StpOut)
  /-- PREPARATION_EVENT (R110): At instant minus lead the scheduler raises a PREP event for a LAUNCH_PDU entry on a reserved graver engine. -/
  | preparationEvent (e : Fin 4096) (gv : Fin 4)
  /-- GUARD_WINDOW (R109): The guard window before a launch instant opens and the port starts no new frame from other queues. -/
  | guardWindow (e : Fin 4096)
  /-- LATE_LIMIT (R113): The late limit after an instant ends with the instance still not ready, and the instance is skipped. -/
  | lateLimit (e : Fin 4096)
  /-- CELL_TIME (R129): A cell time begins: the rotor advances, writes are assigned to banks and reads are matched in the reserved and two request-grant-accept rounds. -/
  | cellTime (err : Option MemError)
  /-- FRAME_RECEIVED (R205): A MAC receives a frame, filters and counts it, and passes its header into ingress staging and lookup. -/
  | frameReceived (port : Fin 32) (bytes : List Byte) (rx : RxEnd)
  /-- LOOKUP_RESULT (R161): A header leaves the lookup pipeline and its destination queues, class and copies go to the queue manager for admission. -/
  | lookupResult (node : Fin 11) (upset : Option TableUpset)
  /-- ENQUEUE (R140): A frame's tail cell is written and the frame is linked, committing the enqueue and waking the first waiter. -/
  | enqueue (node : Fin 11)
  /-- TRANSMISSION_END (R207): A port finishes a frame, frees its read cells and picks its next frame in scheduling order. -/
  | transmissionEnd (port : Fin 32)
  /-- QM_FLUSH (R150): A write of a queue number to QM_FLUSH empties the queue, or is refused while BUSY or without permission. -/
  | qmFlush (who : Initiator) (v : Word)
  /-- FLUSH_DONE (R150): The last background cell return of every flush in progress completes and QM_FLUSH_STAT.BUSY clears. -/
  | flushDone
  /-- POP_TIMEOUT (R154): The timeout of a stalled pop expires with the queue still empty and the consumer receives empty. -/
  | popTimeout (w : Waiter)
  /-- SCRAPER (R156): An audit period ends and the scraper marks referenced cells, recovering leaked cells and removing double-listed ones. -/
  | scraper
  /-- LEARN (R169): A source learn is committed in the pipeline's FDB, or refused for a full bucket or the rate limit. -/
  | learn (p : Fin 2)
  /-- BURNISHER (R173): A sweep period ends and the burnisher visits every learned entry to clear HIT, set AGE or remove it. -/
  | burnisher
  /-- SCRUB (R197): The 100 ms scrub pass removes every table entry with bad parity. -/
  | scrub (bad : List TableUpset)
  /-- RESTORE (R197): A removed plate entry is reread from the plate, checked against its digest and rewritten, or a fault record is written. -/
  | restore
  /-- POLICER_REFILL (R183): Every 1 µs each policer's committed and excess buckets gain their rates. -/
  | policerRefill
  /-- STREAM_GUARD_WINDOW (R185): A stream guard window ends and a count above the limit contains the stream or restarts its release timer. -/
  | streamGuardWindow (p : Fin 2) (st : Fin 8192)
  /-- STREAM_GUARD_RELEASE (R185): A contained stream's release timer expires and the guard returns to OPEN. -/
  | streamGuardRelease (p : Fin 2) (st : Fin 8192)
  /-- CONTAINMENT_WINDOW (R190): A containment unit's window ends and its level rises or falls from the score. -/
  | containmentWindow (u : Fin 33)
  /-- LINK_CHANGE (R204): A port's in-band word or PCS reports link or speed, and the link goes up or down. -/
  | linkChange (port : Fin 16) (up : Bool) (speed : Option (Fin 5))
  /-- PAUSE_RECEIVED (R211): A received pause or PFC frame pauses the port or classes from the next frame. -/
  | pauseReceived (port : Fin 16) (m : PauseMsg)
  /-- PAUSE_EXPIRY (R211): The pause time of a received pause or PFC frame runs out and the class resumes. -/
  | pauseExpiry (port : Fin 16) (cls : Fin 8)
  /-- PAUSE_REPEAT (R210): Half the pause time passes with the count at or above XON and the MAC repeats the pause frame. -/
  | pauseRepeat (port : Fin 16) (cls : Fin 8)
  /-- VERIFY_TIMER (R213): The verify time passes and the port sends another verify mPacket or marks verification failed after three. -/
  | verifyTimer (port : Fin 16)
  /-- VERIFY_RESPONSE (R213): A verify response arrives and preemption becomes active. -/
  | verifyResponse (port : Fin 16)
  /-- GATE_CONTROL_ENTRY (R215): The current gate control list interval ends and the next entry's gate states apply. -/
  | gateControlEntry (port : Fin 16)
  /-- FRER_RESET_TIMER (R223): No frame has passed a recover entry for its reset time and its history is cleared. -/
  | frerResetTimer (e : Fin 512)
  /-- PLCA_CYCLE (R227): A coordinator cycle ends and a new cycle starts with a BEACON, or the medium is held for an aligned BEACON. -/
  | plcaCycle (sg : Fin 16)
  /-- TO_TIMER (R226): An unused transmit opportunity's TO timer expires and the opportunity passes to the next node. -/
  | toTimer (sg : Fin 16)
  /-- BEACON_RECEIVED (R226): A follower receives a BEACON and its PLCA cycle starts. -/
  | beaconReceived (sg : Fin 16)
  /-- BEACON_TIMEOUT (R226): A follower sees no BEACON for 4 000 bit times and falls back to CSMA/CD. -/
  | beaconTimeout (sg : Fin 16)
  /-- COLLISION (R229): A collision on a CSMA/CD segment sends a jam and starts back-off, or drops the frame after 16 attempts or a late collision. -/
  | collision (sg : Fin 16) (late : Bool)
  /-- BACKOFF (R229): The back-off after a collision expires and the frame is retried. -/
  | backoff (sg : Fin 16)
  /-- LOW_POWER_EXIT (R230): A segment completes its exit from low-power mode and starts a cycle or waits for a BEACON. -/
  | lowPowerExit (sg : Fin 16)
  /-- WAKE_PATTERN (R232): A segment's detector receives a wake burst and word, and latches a wake or counts a non-match. -/
  | wakePattern (sg : Fin 16) (pat : WakeBurst)
  /-- RESET_RELEASE_DELAY (R234): The reset-release delay after a PHY reset release ends and the port's MDIO script starts. -/
  | resetReleaseDelay (port : Fin 16)
  /-- MDIO_SCRIPT_ACCESS (R234): One MDIO script access of the bring-up sequencer completes; at the script end the transmitter is ungated. -/
  | mdioScriptAccess (port : Fin 16)
  /-- CLAUSE_22_WRITE (R235): A host MDIO command performs a Clause 22 register write. -/
  | clause22Write (who : Initiator) (port : Fin 16) (v : Word)
  /-- CLAUSE_22_READ (R235): A host MDIO command performs a Clause 22 register read. -/
  | clause22Read (who : Initiator) (port : Fin 16) (v : Word)
  /-- CLAUSE_45_WRITE (R235): A host MDIO command performs a Clause 45 register write. -/
  | clause45Write (who : Initiator) (port : Fin 16) (v : Word)
  /-- CLAUSE_45_READ (R235): A host MDIO command performs a Clause 45 register read. -/
  | clause45Read (who : Initiator) (port : Fin 16) (v : Word)
  /-- MDIO_COMMAND_DONE (R235): A host MDIO command completes and BUSY clears with read data in MDIO_DATA. -/
  | mdioCommandDone (bus : Fin 2) (data : BitVec 16)
  /-- CAN_FRAME_RECEIVED (R241): A CAN frame ends without error, is filtered and passed to the field complex within 1 µs, or discarded. -/
  | canFrameReceived (ch : Fin 96) (r : CanRx)
  /-- CANCELLATION (R250): A guard channel sees a guarded identifier it did not send and destroys the frame with an active error flag. -/
  | cancellation (ch : Fin 96) (f : CanFrame)
  /-- CAN_FRAME_SENT (R243): A CAN frame completes on the bus and leaves the transmit slot. -/
  | canFrameSent (x : CanTx)
  /-- ARBITRATION_LOST (R244): The slot's frame loses arbitration and is offered again at the next bus idle. -/
  | arbitrationLost (ch : Fin 96)
  /-- CAN_ERROR (R242): An error on a CAN channel updates its error counters and state, may drop the frame at its retry limit, and may enter bus-off. -/
  | canError (ch : Fin 96) (k : CanErr)
  /-- BUS_OFF_RECOVERY_DELAY (R242): The recovery delay after bus-off ends and counting of recessive runs begins. -/
  | busOffRecoveryDelay (ch : Fin 96)
  /-- BUS_OFF_RECOVERY (R242): The 128th run of 11 recessive bits is counted and the channel returns to error active. -/
  | busOffRecovery (ch : Fin 96)
  /-- INTEGRATION (R242): A channel sees 11 consecutive recessive bits after enable or recovery and may send and receive. -/
  | integration (ch : Fin 96)
  /-- CANCEL_RELEASE (R255): The cancel release timer expires and the cancellation loop returns to QUIET. -/
  | cancelRelease (ch : Fin 96)
  /-- BABBLE_WINDOW (R256): A channel's babble window ends and a violation contains the channel or restarts its release timer. -/
  | babbleWindow (ch : FieldCh) (load : Nat)
  /-- BABBLE_RELEASE (R257): A contained channel's release timer expires and the guard returns to OPEN. -/
  | babbleRelease (ch : FieldCh)
  /-- LIN_SLOT (R261): A commander schedule slot starts and its header is sent, or a pending table switch or stipple extra slot applies. -/
  | linSlot (ch : Fin 32)
  /-- SCHEDULE_SWITCH (R261): A graver engine or control core requests a switch of a commander's schedule table at the end of the running slot. -/
  | scheduleSwitch (ch : Fin 32) (table : Fin 16)
  /-- LIN_HEADER (R263): A responder receives a header and sends its response buffer entry, receives, or ignores the ID. -/
  | linHeader (ch : Fin 32) (h : LinHdr)
  /-- LIN_RESPONSE (R263): A LIN response is received and passed on, or an error or missing response is counted. -/
  | linResponse (ch : Fin 32) (r : LinResp)
  /-- LIN_WAKE (R271): In STANDBY a dominant level of 150 µs to 5 ms on a LIN channel latches a wake with its PN mask. -/
  | linWake (ch : Fin 32) (us : Nat)
  /-- SBS_INPUT_SCAN (R265): Every 100 µs the input chain is loaded, shifted, checked, debounced and published. -/
  | sbsInputScan (bits : BitVec 256)
  /-- SBS_OUTPUT_UPDATE (R267): An output change starts a 256-bit output update with a strobe, or queues it behind a running update. -/
  | sbsOutputUpdate (o : Fin 256) (v : SbsValue)
  /-- SBS_UPDATE_END (R267): An output update ends and any update waiting behind it starts. -/
  | sbsUpdateEnd
  /-- SBS_REFRESH (R267): Every 100 µs all outputs are refreshed. -/
  | sbsRefresh
  /-- PDU_DUE (R290): A cyclic PDU's instant or an on-change PDU's period passes and the PDU falls due for packing. -/
  | pduDue (p : Fin 8192)
  /-- MINIMUM_GAP (R291): The minimum gap after a PDU instance ends with a change pending and the PDU falls due. -/
  | minimumGap (p : Fin 8192)
  /-- MAXIMUM_BATCHING_DELAY (R303): An outbound carrier's oldest message has waited the maximum batching delay and a CARRIER event is raised. -/
  | maximumBatchingDelay (k : Fin 64)
  /-- DISPATCH (R317): A graver engine dispatches a pending event to its lowest free context at the kind's vector. -/
  | dispatch (x : GvDispatch)
  /-- STALL_END (R337): A stalled graver context's store, fetch, cipher, queue or write access completes and the context becomes ready. -/
  | stallEnd (e : Fin 16) (c : Fin 8)
  /-- ENGINE_TIMER (R335): An engine timer armed by TARM expires and raises a TIMER event. -/
  | engineTimer (e : Fin 16) (t : Fin 16)
  /-- ENGINE_RELOAD (R340): A fenced engine's image is checked and reloaded and the engine runs again, or a GRV domain fault follows. -/
  | engineReload (e : Fin 16)
  /-- NOP (R326): Graver instruction NOP does nothing. -/
  | nop (e : Fin 16) (c : Fin 8) (w : BitVec 26)
  /-- ADD (R326): Graver instruction ADD writes A + B to D. -/
  | add (e : Fin 16) (c : Fin 8) (w : BitVec 26)
  /-- SUB (R326): Graver instruction SUB writes A − B to D. -/
  | sub (e : Fin 16) (c : Fin 8) (w : BitVec 26)
  /-- AND (R326): Graver instruction AND writes A and B to D. -/
  | andOp (e : Fin 16) (c : Fin 8) (w : BitVec 26)
  /-- OR (R326): Graver instruction OR writes A or B to D. -/
  | orOp (e : Fin 16) (c : Fin 8) (w : BitVec 26)
  /-- XOR (R326): Graver instruction XOR writes A xor B to D. -/
  | xorOp (e : Fin 16) (c : Fin 8) (w : BitVec 26)
  /-- SHL (R326): Graver instruction SHL shifts A left by B[5:0]. -/
  | shl (e : Fin 16) (c : Fin 8) (w : BitVec 26)
  /-- SHR (R326): Graver instruction SHR shifts A right logically by B[5:0]. -/
  | shr (e : Fin 16) (c : Fin 8) (w : BitVec 26)
  /-- SAR (R326): Graver instruction SAR shifts A right arithmetically by B[5:0]. -/
  | sar (e : Fin 16) (c : Fin 8) (w : BitVec 26)
  /-- MUL (R326): Graver instruction MUL writes the low 64 bits of A × B. -/
  | mul (e : Fin 16) (c : Fin 8) (w : BitVec 26)
  /-- SLT (R326): Graver instruction SLT sets D when A < B signed. -/
  | slt (e : Fin 16) (c : Fin 8) (w : BitVec 26)
  /-- SLTU (R326): Graver instruction SLTU sets D when A < B unsigned. -/
  | sltu (e : Fin 16) (c : Fin 8) (w : BitVec 26)
  /-- ADDI (R326): Graver instruction ADDI adds the sign-extended immediate to A. -/
  | addi (e : Fin 16) (c : Fin 8) (w : BitVec 26)
  /-- ANDI (R326): Graver instruction ANDI ands A with the zero-extended immediate. -/
  | andi (e : Fin 16) (c : Fin 8) (w : BitVec 26)
  /-- ORI (R326): Graver instruction ORI ors A with the zero-extended immediate. -/
  | ori (e : Fin 16) (c : Fin 8) (w : BitVec 26)
  /-- XORI (R326): Graver instruction XORI xors A with the zero-extended immediate. -/
  | xori (e : Fin 16) (c : Fin 8) (w : BitVec 26)
  /-- SHLI (R326): Graver instruction SHLI shifts A left by the immediate. -/
  | shli (e : Fin 16) (c : Fin 8) (w : BitVec 26)
  /-- SHRI (R326): Graver instruction SHRI shifts A right logically by the immediate. -/
  | shri (e : Fin 16) (c : Fin 8) (w : BitVec 26)
  /-- SARI (R326): Graver instruction SARI shifts A right arithmetically by the immediate. -/
  | sari (e : Fin 16) (c : Fin 8) (w : BitVec 26)
  /-- LSH (R326): Graver instruction LSH shifts D left by 16 and inserts a 16-bit immediate. -/
  | lsh (e : Fin 16) (c : Fin 8) (w : BitVec 26)
  /-- BFX (R327): Graver instruction BFX extracts a bit field of A, zero- or sign-extended, or faults on a bad range. -/
  | bfx (e : Fin 16) (c : Fin 8) (w : BitVec 26)
  /-- BFI (R327): Graver instruction BFI inserts the low bits of A into a bit field of D, or faults on a bad range. -/
  | bfi (e : Fin 16) (c : Fin 8) (w : BitVec 26)
  /-- BSW (R326): Graver instruction BSW reverses the low 2^n bytes of A. -/
  | bsw (e : Fin 16) (c : Fin 8) (w : BitVec 26)
  /-- BEQ (R326): Graver instruction BEQ branches when D equals A. -/
  | beq (e : Fin 16) (c : Fin 8) (w : BitVec 26)
  /-- BNE (R326): Graver instruction BNE branches when D differs from A. -/
  | bne (e : Fin 16) (c : Fin 8) (w : BitVec 26)
  /-- BLT (R326): Graver instruction BLT branches when D < A signed. -/
  | blt (e : Fin 16) (c : Fin 8) (w : BitVec 26)
  /-- BGE (R326): Graver instruction BGE branches when D ≥ A signed. -/
  | bge (e : Fin 16) (c : Fin 8) (w : BitVec 26)
  /-- BLTU (R326): Graver instruction BLTU branches when D < A unsigned. -/
  | bltu (e : Fin 16) (c : Fin 8) (w : BitVec 26)
  /-- BGEU (R326): Graver instruction BGEU branches when D ≥ A unsigned. -/
  | bgeu (e : Fin 16) (c : Fin 8) (w : BitVec 26)
  /-- JMP (R326): Graver instruction JMP jumps to the target address. -/
  | jmp (e : Fin 16) (c : Fin 8) (w : BitVec 26)
  /-- CALL (R326): Graver instruction CALL writes the return address to g15 and jumps. -/
  | call (e : Fin 16) (c : Fin 8) (w : BitVec 26)
  /-- JR (R328): Graver instruction JR jumps to A[13:0], faulting when the target lies outside the image. -/
  | jr (e : Fin 16) (c : Fin 8) (w : BitVec 26)
  /-- LD (R327): Graver instruction LD loads from DMEM, faulting on misalignment or range. -/
  | ld (e : Fin 16) (c : Fin 8) (w : BitVec 26)
  /-- ST (R327): Graver instruction ST stores to DMEM, faulting on misalignment or range. -/
  | st (e : Fin 16) (c : Fin 8) (w : BitVec 26)
  /-- FLD (R327): Graver instruction FLD loads from a frame slot, fetching a buffered cell through FN7 when needed. -/
  | fld (e : Fin 16) (c : Fin 8) (w : BitVec 26)
  /-- FST (R327): Graver instruction FST stores into a local frame in a slot. -/
  | fst (e : Fin 16) (c : Fin 8) (w : BitVec 26)
  /-- TLD (R329): Graver instruction TLD reads 8 bytes of a SIGNAL or GRAVER_CODE table record. -/
  | tld (e : Fin 16) (c : Fin 8) (w : BitVec 26)
  /-- SGET (R330): Graver instruction SGET reads a field of a signal store entry. -/
  | sget (e : Fin 16) (c : Fin 8) (w : BitVec 26)
  /-- SPUT (R331): Graver instruction SPUT stages a signal write in the context's commit group. -/
  | sput (e : Fin 16) (c : Fin 8) (w : BitVec 26)
  /-- COMMIT (R331): Graver instruction COMMIT applies the commit group to the signal store in one tick. -/
  | commit (e : Fin 16) (c : Fin 8) (w : BitVec 26)
  /-- UNPACK (R332): Graver instruction UNPACK checks a receive PDU's length and E2E fields and stages its signal writes. -/
  | unpack (e : Fin 16) (c : Fin 8) (w : BitVec 26)
  /-- PACK (R332): Graver instruction PACK builds a transmit PDU from the store with its fill, update bits, counter and CRC, or suppresses it. -/
  | pack (e : Fin 16) (c : Fin 8) (w : BitVec 26)
  /-- SECV (R299): Graver instruction SECV verifies a secured PDU's freshness and tag through the cipher queue. -/
  | secv (e : Fin 16) (c : Fin 8) (w : BitVec 26)
  /-- SECG (R297): Graver instruction SECG adds freshness and a CMAC tag to a PDU through the cipher queue. -/
  | secg (e : Fin 16) (c : Fin 8) (w : BitVec 26)
  /-- POP (R334): Graver instruction POP pops an inter-engine queue into a slot, waiting at most B ticks. -/
  | pop (e : Fin 16) (c : Fin 8) (w : BitVec 26)
  /-- PUSH (R334): Graver instruction PUSH links a slot's frame into a permitted queue, or returns refused. -/
  | push (e : Fin 16) (c : Fin 8) (w : BitVec 26)
  /-- FNEW (R334): Graver instruction FNEW creates a local frame in a slot from the bulk or reserved pool. -/
  | fnew (e : Fin 16) (c : Fin 8) (w : BitVec 26)
  /-- FREL (R326): Graver instruction FREL releases the frame in a slot. -/
  | frel (e : Fin 16) (c : Fin 8) (w : BitVec 26)
  /-- FGET (R333): Graver instruction FGET reads a descriptor field of a slot's frame. -/
  | fget (e : Fin 16) (c : Fin 8) (w : BitVec 26)
  /-- FPUT (R333): Graver instruction FPUT writes a permitted descriptor field of a slot's frame. -/
  | fput (e : Fin 16) (c : Fin 8) (w : BitVec 26)
  /-- CIPH (R338): Graver instruction CIPH submits a cipher request descriptor from DMEM and returns its status byte. -/
  | ciph (e : Fin 16) (c : Fin 8) (w : BitVec 26)
  /-- ACFADD (R303): Graver instruction ACFADD adds a slot's frame to an outbound carrier, closing the AVTPDU when due. -/
  | acfadd (e : Fin 16) (c : Fin 8) (w : BitVec 26)
  /-- TIME (R326): Graver instruction TIME reads short time, local time or domain-0 state and error. -/
  | timeOp (e : Fin 16) (c : Fin 8) (w : BitVec 26)
  /-- TARM (R335): Graver instruction TARM arms, rearms or disarms an engine timer. -/
  | tarm (e : Fin 16) (c : Fin 8) (w : BitVec 26)
  /-- RAISE (R335): Graver instruction RAISE queues a MSG event to another engine, or returns full. -/
  | raise (e : Fin 16) (c : Fin 8) (w : BitVec 26)
  /-- HOOK (R336): Graver instruction HOOK calls a hook within its budget. -/
  | hook (e : Fin 16) (c : Fin 8) (w : BitVec 26)
  /-- HRET (R336): Graver instruction HRET returns from a hook. -/
  | hret (e : Fin 16) (c : Fin 8) (w : BitVec 26)
  /-- LATCH (R118): Graver instruction LATCH latches a snapshot set into its non-current bank, or is not taken when that bank is pinned. -/
  | latch (e : Fin 16) (c : Fin 8) (w : BitVec 26)
  /-- CNT (R326): Graver instruction CNT increments a user counter of the engine. -/
  | cnt (e : Fin 16) (c : Fin 8) (w : BitVec 26)
  /-- END (R336): Graver instruction END ends the handler, releases slot frames and frees the context. -/
  | endHandler (e : Fin 16) (c : Fin 8) (w : BitVec 26)
  /-- WINDOW (R348): A control-core window of the cyclic schedule begins for its slot. -/
  | window (core : Fin 4) (w : Fin 128)
  /-- SLICE (R351): A slice runs from a checkpoint through pass A and pass B, compares signatures and commits or reruns. -/
  | slice (core : Fin 4) (u : SliceUpset)
  /-- CORE_RELOAD (R362): A fenced core's images are checked, reloaded and tested, and its slots restart, or a CTL domain fault follows. -/
  | coreReload (core : Fin 4) (testOk : Bool)
  /-- RV32IMC_INSTRUCTION (R352): A control core retires one RV32IMC instruction in pass A or its transformed form in pass B. -/
  | rv32imcInstruction (core : Fin 4)
  /-- WFI (R350): A task executes WFI, ending its slice and entering the wait lists of its masked queues. -/
  | wfi (core : Fin 4)
  /-- ECALL (R351): A task executes ECALL and its slice ends. -/
  | ecall (core : Fin 4)
  /-- WAIT_END (R350): A frame is linked into a masked queue or the wait timeout expires, ending a control-core wait. -/
  | waitEnd (core : Fin 4) (slot : Fin 16)
  /-- POP_K (R346): A core's load of POP_k pops its queue into a free holder without waiting. -/
  | popK (core : Fin 4) (k : Fin 8)
  /-- PUSH_H (R346): A core's store to PUSH_h links the holder's frame into the named queue, or is refused. -/
  | pushH (core : Fin 4) (h : Fin 16) (v : Word)
  /-- REL_H (R346): A core's store to REL_h releases the holder's frame. -/
  | relH (core : Fin 4) (h : Fin 16)
  /-- KEY_UPDATE (R384): The vault checks a key update message, writes the inactive copy and commit record, and returns a signed receipt. -/
  | keyUpdate (who : MboxUser) (args : List Byte)
  /-- KEY_DERIVE (R378): The vault derives a key into an empty volatile slot under SP 800-108. -/
  | keyDerive (who : MboxUser) (args : List Byte)
  /-- ECDH (R379): The vault performs ECDH with a fresh key pair and derives an AES key into a volatile slot. -/
  | ecdh (who : MboxUser) (args : List Byte)
  /-- VS_ZEROISE (R393): The vault zeroises one or all volatile slots. -/
  | vsZeroise (who : MboxUser) (args : List Byte)
  /-- SLOT_INFO (R393): The vault returns a slot's attributes, use figures, counter, copy and state. -/
  | slotInfo (who : MboxUser) (args : List Byte)
  /-- GET_IDENTITY (R372): The vault returns the UID, identity public key and part of the certificate chain. -/
  | getIdentity (who : MboxUser) (args : List Byte)
  /-- SIGN_CHALLENGE (R373): The vault signs a 32-byte challenge with the identity key. -/
  | signChallenge (who : MboxUser) (args : List Byte)
  /-- LC_REQUEST (R366): The vault checks a signed life-cycle request and carries out the transition. -/
  | lcRequest (who : MboxUser) (args : List Byte)
  /-- DEBUG_TOKEN (R370): The vault checks a debug token and opens debug on its cores, or refuses it and counts refusals. -/
  | debugToken (who : MboxUser) (args : List Byte)
  /-- CERT_INSTALL (R372): In MANUFACTURE the vault stores a certificate chain whose device key matches the identity key. -/
  | certInstall (who : MboxUser) (args : List Byte) (formed : Bool)
  /-- LC_ENTER_MFG (R371): A BLANK device generates its identity key pair and enters MANUFACTURE. -/
  | lcEnterMfg (who : MboxUser)
  /-- LC_SCRAP (R366): A BLANK or MANUFACTURE device enters SCRAPPED without a signature. -/
  | lcScrap (who : MboxUser)
  /-- TAMPER_DETECTION (R388): A tamper source becomes active and the vault applies its response level. -/
  | tamperDetection (src : Fin 6)
  /-- L2_RELEASE (R389): A source stays inactive for the release time and L2 is released. -/
  | l2Release
  /-- CTR (R403): A cipher request in CTR mode is run and duplicate-checked on its pair. -/
  | ctr (pair : Fin 4)
  /-- GCM_ENCRYPT (R403): A cipher request for GCM encryption is run and checked. -/
  | gcmEncrypt (pair : Fin 4)
  /-- GCM_DECRYPT_AND_VERIFY (R403): A cipher request for GCM decryption and verification is run and checked. -/
  | gcmDecryptAndVerify (pair : Fin 4)
  /-- GMAC_GENERATE (R403): A cipher request generates a GMAC tag over AAD. -/
  | gmacGenerate (pair : Fin 4)
  /-- GMAC_VERIFY (R403): A cipher request verifies a GMAC tag. -/
  | gmacVerify (pair : Fin 4)
  /-- CMAC_GENERATE (R403): A cipher request generates a CMAC tag. -/
  | cmacGenerate (pair : Fin 4)
  /-- CMAC_VERIFY (R403): A cipher request verifies a CMAC tag. -/
  | cmacVerify (pair : Fin 4)
  /-- CBC_ENCRYPT (R403): A cipher request encrypts in CBC mode with an inverse check. -/
  | cbcEncrypt (pair : Fin 4)
  /-- CBC_DECRYPT (R403): A cipher request decrypts in CBC mode. -/
  | cbcDecrypt (pair : Fin 4)
  /-- XTS_ENCRYPT (R403): A cipher request encrypts in XTS mode with an inverse check. -/
  | xtsEncrypt (pair : Fin 4)
  /-- XTS_DECRYPT (R403): A cipher request decrypts in XTS mode with an inverse check. -/
  | xtsDecrypt (pair : Fin 4)
  /-- KEY_WRAP (R403): A cipher request wraps supplied data under RFC 3394. -/
  | keyWrap (pair : Fin 4)
  /-- KEY_UNWRAP (R403): A cipher request unwraps supplied data under RFC 3394. -/
  | keyUnwrap (pair : Fin 4)
  /-- SHA_256 (R403): A cipher request computes a SHA-256 digest. -/
  | sha256 (pair : Fin 4)
  /-- HMAC_SHA_256_GENERATE (R403): A cipher request generates an HMAC-SHA-256 tag. -/
  | hmacSha256Generate (pair : Fin 4)
  /-- HMAC_SHA_256_VERIFY (R403): A cipher request verifies an HMAC-SHA-256 tag. -/
  | hmacSha256Verify (pair : Fin 4)
  /-- CHECKING_BEFORE_RELEASE (R404): A pair finishes a request, compares its two lanes and releases the result with its status, or starts mismatch recovery. -/
  | checkingBeforeRelease (pair : Fin 4) (c : LaneCheck)
  /-- FRAME_JOB (R412): A bulk pair takes a frame from a cipher queue, applies its template and re-enters the result through FN10, or drops it. -/
  | frameJob (pair : Fin 4) (c : LaneCheck)
  /-- SAK_INSTALLATION (R416): MKA installs a new SAK in a volatile slot and writes a transmit or receive SA entry. -/
  | sakInstallation (port : Fin 16) (sa : SaInstall)
  /-- SA_SWITCH (R417): A port's transmit SA changes and applies from the next frame. -/
  | saSwitch (port : Fin 16) (an : Fin 4)
  /-- IDLE (R421): No core window is ready, no engine event pends and the cipher queue is empty, and the device enters IDLE. -/
  | idle
  /-- IDLE_RESUME (R420): A window, a graver event or a stipple preparation brings the clock-gated domains back to ACTIVE within 2 µs. -/
  | idleResume
  /-- STANDBY_RESUME (R420): A wake in STANDBY resumes forwarding within 200 µs and broadcasts the wake. -/
  | standbyResume
  /-- ROUND_START (R429): The originator's T_CYCLE passes with no round running and it sends a circuit-1 token. -/
  | roundStart
  /-- TOKEN (R428): A consent-ring TOKEN is accepted, updated with this member's bits and forwarded, or ends a circuit at the originator. -/
  | token (port : Fin 32) (msg : List Byte)
  /-- COMMIT_POINT (R430): T_COMMIT after the deciding token passes and the member puts the candidate groups to sleep. -/
  | commitPoint
  /-- WAKE_IN (R440): A wake input holds its level for its filter time and latches a wake reason for its groups. -/
  | wakeIn (i : Fin 8)
  /-- AON_TIMER (R431): The AON timer period passes and latches a wake reason for its groups. -/
  | aonTimer
  /-- WAKE (R434): An Almoith WAKE message removes its groups from the asleep mask and wakes them on this device. -/
  | wake (port : Fin 32) (msg : List Byte)
  /-- WAKE_REPEAT (R434): 10 ms pass after a WAKE and it is sent again, twice in all. -/
  | wakeRepeat
  /-- WAKE_OUT_PULSE_END (R440): A wake output's pulse width ends and the output returns low. -/
  | wakeOutPulseEnd (o : Fin 4)
  /-- FALSE_WAKE (R437): T_FALSE expires before any confirmation and the group stops being demanded, counting a false wake. -/
  | falseWake (g : Fin 32)
  /-- RING_LOSS (R439): T_RING expires without a token; the ring is marked lost and any round is vetoed. -/
  | ringLoss
  /-- REGENERATION (R439): The wait of member index × 1 ms ends without an acceptable token and the member originates a new token. -/
  | regeneration
  /-- SLP_HOST_DEMAND (R423): A host write to SLP_HOST_DEMAND changes its group demands, or is refused without the sleep permission. -/
  | slpHostDemand (who : Initiator) (v : Word)
  /-- BEACON (R462): An observer receives a proof beacon of one of its nodes and classifies the node. -/
  | beacon (src : BeaconSrc)
  /-- BEACON_INTERVAL (R461): The beacon interval passes and the device sends its proof beacon in Ethernet and CAN form. -/
  | beaconInterval
  /-- NODE_SILENCE (R462): No beacon of a node arrives within interval × miss count and the node becomes SILENT. -/
  | nodeSilence (n : Fin 4096)
  /-- PROOF_PERIOD (R465): T_PROOF passes and PROOF sends a ROSTER_DIGEST on each ring link. -/
  | proofPeriod
  /-- ROSTER_DIGEST (R465): A received ROSTER_DIGEST is compared and ROSTER_RANGE requests are sent for differing digests. -/
  | rosterDigest (port : Fin 32) (msg : List Byte)
  /-- ROSTER_RANGE (R466): A ROSTER_RANGE request is answered, or an answer's digests or leaf records are compared and merged. -/
  | rosterRange (port : Fin 32) (msg : List Byte)
  /-- REMOTE_READ (R454): An owner answers a REMOTE_READ from its own store. -/
  | remoteRead (port : Fin 32) (msg : List Byte)
  /-- REMOTE_READ_RSP (R453): A REMOTE_READ_RSP commits the owner's value into the local copy, or is discarded. -/
  | remoteReadRsp (port : Fin 32) (msg : List Byte)
  /-- REMOTE_WRITE (R455): An owner applies a REMOTE_WRITE as a device-initiated commit and answers, or answers again or DENIED. -/
  | remoteWrite (port : Fin 32) (msg : List Byte)
  /-- REMOTE_RETRY (R456): T_RR expires without an answer and the request is retransmitted or fails. -/
  | remoteRetry (id : Nat)
  /-- SNAPSHOT_MESSAGE (R458): The collector receives a SNAPSHOT fragment and places a complete part in its host queue. -/
  | snapshotMessage (port : Fin 32) (msg : List Byte)
  /-- SNAPSHOT_REASSEMBLY (R458): A part still incomplete 10 ms after its first fragment is discarded. -/
  | snapshotReassembly (sender : Fin 4096) (set : Fin 64) (seq : Nat)
  /-- TUNNEL (R460): A TUNNEL message delivers a frame to routes of source kind 3, to DIAG, or is refused. -/
  | tunnel (port : Fin 32) (msg : List Byte)
  /-- TIME_HEALTH (R462): A received TIME_HEALTH body is kept per peer. -/
  | timeHealth (port : Fin 32) (msg : List Byte)
  /-- TIME_HEALTH_INTERVAL (R462): Each second the TIME service sends TIME_HEALTH on each ring link. -/
  | timeHealthInterval
  /-- RESYNC_END (R449): 10 s after losing replay state the device stops setting RESYNC. -/
  | resyncEnd
  /-- PCIE_RESET (R472): PCIE_PERST_N resets the endpoint and the PCIe host-queue DMA state and releases PCIe stash entries. -/
  | pcieReset
  /-- FUNCTION_LEVEL_RESET (R472): A function-level reset resets the endpoint and the PCIe host-queue DMA state. -/
  | functionLevelReset
  /-- SEND_TAIL (R481): A doorbell write of a new send tail passes send descriptors to the device. -/
  | sendTail (who : Initiator) (q : Fin 64) (v : Word)
  /-- RECEIVE_TAIL (R481): A doorbell write of a new receive tail passes receive descriptors to the device. -/
  | receiveTail (who : Initiator) (q : Fin 64) (v : Word)
  /-- COMPLETION_HEAD (R481): A doorbell write of a new completion head frees completion records. -/
  | completionHead (who : Initiator) (q : Fin 64) (v : Word)
  /-- SEND_DESCRIPTOR (R482): The endpoint reads a send buffer, enters the frame through FN8 and writes its completion record. -/
  | sendDescriptor (q : Fin 64) (desc : List Byte) (buf : List Byte)
  /-- RECEIVE_DESCRIPTOR (R482): The endpoint writes a queued frame with its descriptor into a receive buffer and completes it. -/
  | receiveDescriptor (q : Fin 64) (desc : List Byte)
  /-- HST_HQNN_WAIT (R483): A write to HST_HQnn_WAIT arms or disarms a completion wait. -/
  | hstHqnnWait (who : Initiator) (q : Fin 64) (v : Word)
  /-- COMPLETION_WAIT (R483): A completion record or the wait timeout ends an armed completion wait and raises the queue's vector. -/
  | completionWait (q : Fin 64)
  /-- HST_HQNN_POP (R484): A read of HST_HQnn_POP pops the head frame into a stash entry, or repeats the stashed item. -/
  | hstHqnnPop (via : View) (q : Fin 64)
  /-- HST_HQNN_ACK (R485): A write to HST_HQnn_ACK releases the stashed item and frees its cells. -/
  | hstHqnnAck (who : Initiator) (q : Fin 64)
  /-- T_STASH (R485): A stashed item's T_STASH expires and it is freed as an unclaimed pop. -/
  | tStash (e : Fin 16)
  /-- RDID (R478): The xSPI command RDID returns SYS_ID and the interface version. -/
  | rdid
  /-- RDSR (R478): The xSPI command RDSR returns the latest write's status and the refused-write count. -/
  | rdsr
  /-- READ (R477): The xSPI command READ returns a status byte and data from the addressed window. -/
  | read (addr : Nat) (n : Nat)
  /-- WRITE (R479): The xSPI command WRITE posts data to the addressed window. -/
  | write (addr : Nat) (data : List Byte)
  /-- WRITE_APPLIED (R479): A posted xSPI write is applied within 200 ns, or refused and recorded. -/
  | writeApplied
  /-- RSTEN (R478): The xSPI command RSTEN enables a following RST. -/
  | rsten
  /-- RST (R478): The xSPI command RST after RSTEN resets the target state and xSPI stash entries. -/
  | rst
  /-- SIGNAL_VALUE_READ (R475): A read of a signal value in the signal window returns the copy and may start a remote fetch. -/
  | signalValueRead (via : View) (i : Fin 65536)
  /-- SIGNAL_VALUE_WRITE (R476): A host write of a signal value is applied, forwarded to its owner, or refused. -/
  | signalValueWrite (who : Initiator) (i : Fin 65536) (v : BitVec 64) (meets : Bool)
  /-- PDU_REQUEST (R474): A write in the PDU request range requests a request-mode PDU. -/
  | pduRequest (who : Initiator) (p : Fin 8192)
  /-- RC_READ (R550): A 4-byte read with side effect returns RC fields and clears them. -/
  | rcRead (via : View) (addr : Nat)
  /-- REGISTER_WRITE (R516): A write to a register with no row of its own writes its writable fields or is refused and recorded. -/
  | registerWrite (who : Initiator) (addr : Nat) (v : Word) (en : BitVec 4)
  /-- BROWN_OUT (R491): VDD_CORE stays below 0.650 V for more than 1 µs and the device gates fail-silent and asserts FAULT_N. -/
  | brownOut (mv : Nat)
  /-- BROWN_OUT_RECOVERY (R491): VDD_CORE stays above 0.720 V for 1 ms after a brown-out and the reset request issues a WRST with PROTECT. -/
  | brownOutRecovery
  /-- DROOP (R492): VDD_CORE falls below 0.700 V or 0.675 V and the stretched domains step to a slower clock. -/
  | droop (mv : Nat)
  /-- DROOP_HALF_CHECK (R492): 100 ns after entering HALF with VDD_CORE still below 0.700 V the clock steps to QUARTER. -/
  | droopHalfCheck (mv : Nat)
  /-- DROOP_RELEASE (R492): VDD_CORE stays at or above 0.720 V for 1 µs and the stretched domains return to full clock. -/
  | droopRelease
  /-- THERMAL_SAMPLE (R495): The 1 ms junction sample raises the shedding level, enters OVERTEMP, or starts a release hold. -/
  | thermalSample (t : TempSample)
  /-- RELEASE_HOLD (R495): A thermal release hold completes and the level falls by one, or OVERTEMP is left through the reset request. -/
  | releaseHold
  /-- MRAM_RETRY (R498): A refused MRAM operation is retried every 1 ms until its hold-up check passes. -/
  | mramRetry
  /-- MRAM_COMPLETION (R500): A started MRAM operation completes under the hardground functions, valid mark included. -/
  | mramCompletion
  /-- WATCHDOG_PERIOD (R502): A watchdog period passes and WDT_OUT changes between driven low and released. -/
  | watchdogPeriod
  /-- PWR_HEARTBEAT (R502): A write to PWR_HEARTBEAT with key 0x5AF0 records a core's heartbeat. -/
  | pwrHeartbeat (who : Initiator) (v : Word)
  /-- HEARTBEAT_WINDOW (R502): A heartbeat window ends with a bit missing; the device gates fail-silent, stops WDT_OUT and resets with WDOG. -/
  | heartbeatWindow
  /-- OPERATING_SECONDS (R503): A second passes outside SLEEP and OFF and the operating-seconds count advances. -/
  | operatingSeconds
  /-- RECORDER_FLUSH (R507): Every 600 operating seconds the recorder image is written to the other MRAM area, page by page and mark last. -/
  | recorderFlush
  /-- FLUSH_RETRY (R507): A paused periodic flush retries its page after 10 ms. -/
  | flushRetry
  /-- FREEZE (R508): A freeze fixes the recorder image that readers see, or returns BUSY while frozen. -/
  | freeze (who : RecUser)
  /-- THAW (R508): A thaw merges the shadow into the recorder image. -/
  | thaw (who : RecUser)
  /-- CLEAR (R508): A clear zeroes the named recorder categories and writes record 0x0C00, or returns BUSY while frozen. -/
  | clear (who : RecUser) (cats : BitVec 4) (key : BitVec 8)
  /-- AUTOMATIC_THAW (R508): 2 s after a freeze the shadow is merged automatically. -/
  | automaticThaw
  /-- DIAGNOSTIC_READ (R509): A diagnostic request PDU reads part of the recorder image into a response PDU. -/
  | diagnosticRead (pdu : Fin 8192) (req : List Byte)
  /-- HALT (R525): The debug command halt stops a core at its next checkpoint and suspends counterproof. -/
  | halt (who : Initiator) (core : Fin 4) (v : Word)
  /-- STEP (R525): The debug command step runs one instruction of a halted core. -/
  | stepCore (who : Initiator) (core : Fin 4) (v : Word)
  /-- RESUME (R525): The debug command resume lets a halted core run again. -/
  | resume (who : Initiator) (core : Fin 4) (v : Word)
  /-- DBG_CCN_BP (R363): A write to DBG_CCn_BP sets the breakpoint; enabling it suspends counterproof on the core. -/
  | dbgCcnBp (who : Initiator) (core : Fin 4) (v : Word)
  /-- BP_HIT (R525): A core reaches its breakpoint address and halts with BP_HIT set. -/
  | bpHit (core : Fin 4)
  /-- HOLD_UP_GAUGE_SAMPLE (R496): Every 10 µs the gauge samples HU_SENSE, takes the lowest of the last four samples as V_S and recomputes the stored energy E shown in PWR_HOLDUP. -/
  | holdUpGaugeSample (mv : Nat)
  /-- WAKE_INPUT_INACTIVE (R423): A wake input whose record has KEEP set leaves its active level, and its demand for the groups of its PN mask ends. -/
  | wakeInputInactive (i : Fin 8)
  /-- TAMPER_SOURCE_INACTIVE (R389): A tamper source that was active becomes inactive, clears its ACTIVE bit and starts the L2 release time. -/
  | tamperSourceInactive (src : Fin 6)
  /-- PCIE_LINK_CHANGE (R470): The PCIe link trains up, changes speed or width, or goes down, and HST_STAT shows the new link state. -/
  | pcieLinkChange (speed : Fin 5) (width : Fin 3)
  /-- SUPPLIES_REMOVED (R420): PORST_N falls or the supplies, VDD_AON included, are removed, and the device enters OFF, losing every non-MRAM state and any open staging session. -/
  | suppliesRemoved
  /-- SIGNALING_MESSAGE (R82): A gPTP Signaling message with a message interval request TLV is received and changes the port's Sync or Pdelay intervals. -/
  | signalingMessage (port : Fin 32) (d : Fin 4) (sync : Option Int) (pdelay : Option Int)
  deriving DecidableEq, Repr

end Sys2Proof
end

