-- ==== Sys2Proof/Decode.lean ====
section
/-! DEFINITION. The decoder over the opcode table. The table gives its rows no bits (every row's `fields` is empty), so no
word spells a command. -/

namespace Sys2Proof

/-- The command that a word of the opcode table spells: none, since no row has bits. -/
def decodeTableWord (_nbits _w : Nat) : Option Instr := none

end Sys2Proof
end

