-- ==== Sys2Proof/Config.lean ====
section
/-! DEFINITION. What the manual leaves open: free values without a body (nothing can evaluate them or prove a value of
them), and the constants one part is made with. Each is named in a row of notes/assumptions. -/

namespace Sys2Proof.Config

/-- Free values taken one after the other: `State.free` counts those used (log entry 3). -/
opaque freeNat : Nat → Nat
/-- The random bytes that the vault draws for keys and signatures (log entry 4). -/
opaque randomByte : Nat → Nat
/-- The 128-bit unique identifier fused into the part, as four words (R372, log entry 5). -/
opaque uidWord : Nat → Nat
/-- Result of a vendor-internal test or key that the manual names and does not give (log entry 6). -/
opaque vendorByte : Nat → Nat → Nat
/-- The number, above the 65 536 entries of stage 1, of the trie entry that the walk of an address reads in a later stage:
the manual does not say where the blocks lie (log entry 7). Arguments: table 3 or 4, stage from 1 on, the address bits
resolved before the entry with those of the stage. -/
opaque trieEntry : Nat → Nat → Nat → Nat
/-- The device's IEEE 802.1AS clock identity, as a number: the manual does not give it (log entry 78). -/
opaque clockIdentity : BitVec 64
/-- The length field of a send completion record, by its descriptor index: the manual states a length only for a received
frame (R481, R482, log entry 82). -/
opaque sendLength : Nat → Nat
/-- The bytes of an AES-CMAC under the two keys of an XTS slot, by the slot's bytes, the data and the byte's number: the
manual lets such a slot be derived from and be given a check value, and defines no CMAC for it (log entry 89). -/
opaque xtsMac : List Byte → List Byte → Nat → Byte

end Sys2Proof.Config
end

