-- ==== Sys2Proof/Machine/Bits.lean ====
section
/-! DEFINITION. Bit fields, byte order and sign helpers on numbers and byte lists. Integer fields of the plate, of the
windows and of the messages are little-endian unless a rule says otherwise (R50, R523). -/

namespace Sys2Proof.Machine

/-- Bits lo .. lo+w-1 of v. -/
def bits (v lo w : Nat) : Nat := v / 2 ^ lo % 2 ^ w
/-- Bit n of v. -/
def bit (v n : Nat) : Bool := v / 2 ^ n % 2 == 1
/-- v with bits lo .. lo+w-1 replaced by x. -/
def putBits (v lo w x : Nat) : Nat := v - bits v lo w * 2 ^ lo + x % 2 ^ w * 2 ^ lo
/-- v with bit n set to b. -/
def putBit (v n : Nat) (b : Bool) : Nat := putBits v n 1 (if b then 1 else 0)
/-- The two's complement reading of the low w bits of v. -/
def sext (w v : Nat) : Int := if v % 2 ^ w < 2 ^ (w - 1) then (v % 2 ^ w : Nat) else (v % 2 ^ w : Nat) - (2 ^ w : Nat)
/-- The low w bits of the two's complement of v. -/
def twos (w : Nat) (v : Int) : Nat := (v % (2 ^ w : Nat)).toNat
/-- The number of a truth value. -/
def b2n (b : Bool) : Nat := if b then 1 else 0
/-- The byte at offset i, 0 beyond the end. -/
def byteAt (l : List Byte) (i : Nat) : Nat := match l[i]? with | some b => b.toNat | none => 0
/-- n bytes from offset i; bytes beyond the end read 0. -/
def slice (l : List Byte) (i n : Nat) : List Byte := (List.range n).map fun k => BitVec.ofNat 8 (byteAt l (i + k))
/-- The little-endian number in a byte list. -/
def leNat : List Byte → Nat
  | [] => 0
  | b :: r => b.toNat + 256 * leNat r
/-- The big-endian number in a byte list. -/
def beNat (l : List Byte) : Nat := l.foldl (fun a b => 256 * a + b.toNat) 0
/-- n little-endian bytes of v. -/
def leBytes : Nat → Nat → List Byte
  | 0, _ => []
  | n + 1, v => BitVec.ofNat 8 v :: leBytes n (v / 256)
/-- n big-endian bytes of v. -/
def beBytes (n v : Nat) : List Byte := (leBytes n v).reverse
/-- The little-endian number of w bytes at offset i. -/
def leAt (l : List Byte) (i w : Nat) : Nat := leNat (slice l i w)
/-- The big-endian number of w bytes at offset i. -/
def beAt (l : List Byte) (i w : Nat) : Nat := beNat (slice l i w)
/-- l with the bytes p written from offset i (l is extended by zeros where it is shorter). -/
def spliceAt (l : List Byte) (i : Nat) (p : List Byte) : List Byte :=
  slice l 0 i ++ p ++ l.drop (i + p.length)
/-- l padded with zeros to a multiple of n. -/
def padTo (n : Nat) (l : List Byte) : List Byte := l ++ List.replicate ((n - l.length % n) % n) 0
/-- n zero bytes. -/
def zeros (n : Nat) : List Byte := List.replicate n 0
/-- Bytewise exclusive or of two lists, as long as the shorter. -/
def xorBytes (a b : List Byte) : List Byte := List.zipWith (· ^^^ ·) a b
/-- Bitwise operations on numbers below 2^w. -/
def nand2 (a b : Nat) : Nat := a &&& b
/-- a with the bits of b cleared. -/
def clearBits (a b : Nat) : Nat := a - (a &&& b)
/-- The bytes written in a list of numbers. -/
def ofNats (l : List Nat) : List Byte := l.map (BitVec.ofNat 8)
/-- Keep l no longer than n, dropping the oldest (last) entries. -/
def capList {α : Type} (n : Nat) (l : List α) : List α := l.take n
/-- The smallest element satisfying p in lo .. lo+n-1. -/
def firstIn (lo : Nat) (p : Nat → Bool) : Nat → Option Nat
  | 0 => none
  | n + 1 => if p lo then some lo else firstIn (lo + 1) p n
/-- The set bits of v below n, in rising order. -/
def bitList (v n : Nat) : List Nat := (List.range n).filter (bit v)
/-- The number with exactly the bits of l set. -/
def ofBits (l : List Nat) : Nat := l.foldl (fun a b => if bit a b then a else a + 2 ^ b) 0
/-- Number of one bits among the low n bits. -/
def popCount (v n : Nat) : Nat := (bitList v n).length
/-- `min` of a nonempty list with a start value. -/
def minList (d : Nat) (l : List Nat) : Nat := l.foldl min d
/-- Ceiling division. -/
def cdiv (a b : Nat) : Nat := (a + b - 1) / b

end Sys2Proof.Machine
end

