-- ==== Sys2Proof/Machine/Crypto.lean ====
section
/-! DEFINITION. The cryptographic functions that the chapters name: AES and its modes, SHA-256, HMAC, SP 800-108, RFC 3394
and ECDSA and ECDH over P-256 (R378, R379, R384, R403). -/

namespace Sys2Proof.Machine

/-! ### AES (FIPS 197) -/

/-- Multiplication in GF(2⁸) modulo x⁸ + x⁴ + x³ + x + 1. -/
def gmul (a b : Nat) : Nat :=
  ((List.range 8).foldl (fun (t : Nat × Nat) i =>
    let r := if bit b i then t.1 ^^^ t.2 else t.1
    let d := t.2 * 2
    (r, if 256 ≤ d then (d - 256) ^^^ 0x1B else d)) (0, a % 256)).1

/-- The inverse in GF(2⁸), 0 for 0: the 254th power. -/
def ginv (a : Nat) : Nat :=
  let sq (x : Nat) : Nat := gmul x x
  let a2 := sq a; let a4 := sq a2; let a8 := sq a4; let a16 := sq a8
  let a32 := sq a16; let a64 := sq a32; let a128 := sq a64
  gmul a2 (gmul a4 (gmul a8 (gmul a16 (gmul a32 (gmul a64 a128)))))

/-- Rotate a byte left. -/
def rol8 (x n : Nat) : Nat := (x * 2 ^ n % 256) + x / 2 ^ (8 - n)
/-- The S-box. -/
def sbox (x : Nat) : Nat := let i := ginv x; i ^^^ rol8 i 1 ^^^ rol8 i 2 ^^^ rol8 i 3 ^^^ rol8 i 4 ^^^ 0x63
/-- The inverse S-box. -/
def sboxInv (x : Nat) : Nat := ginv (rol8 x 1 ^^^ rol8 x 3 ^^^ rol8 x 6 ^^^ 5)

/-- Numbers of a byte list. -/
def natsOf (l : List Byte) : List Nat := l.map (·.toNat)

/-- The next word of the key schedule: prev is the last word, old the one nk words back. -/
def keyWord (nk i : Nat) (rcon : Nat) (prev old : List Nat) : List Nat :=
  let t := if i % nk = 0 then
      (List.zipWith (· ^^^ ·) ((prev.drop 1 ++ prev.take 1).map sbox) [rcon, 0, 0, 0])
    else if 6 < nk ∧ i % nk = 4 then prev.map sbox else prev
  List.zipWith (· ^^^ ·) old t

/-- The expanded key as words, oldest first. -/
def keyExpand (key : List Byte) : List (List Nat) :=
  let nk := key.length / 4
  let w0 := (List.range nk).map fun i => natsOf (slice key (4 * i) 4)
  ((List.range (4 * (nk + 7) - nk)).foldl (fun (a : List (List Nat) × Nat) j =>
    let i := nk + j
    let w := keyWord nk i a.2 (a.1.getD (i - 1) []) (a.1.getD (i - nk) [])
    (a.1 ++ [w], if i % nk = 0 then gmul a.2 2 else a.2)) (w0, 1)).1

/-- The round keys. -/
def roundKeys (key : List Byte) : List (List Nat) :=
  let w := keyExpand key
  (List.range (w.length / 4)).map fun r => ((w.drop (4 * r)).take 4).flatten

/-- Exclusive or of number lists. -/
def xorN (a b : List Nat) : List Nat := List.zipWith (· ^^^ ·) a b
/-- The rows shifted (column-major state); k is 1 to shift left, 3 to shift right. -/
def shiftRows (k : Nat) (st : List Nat) : List Nat :=
  (List.range 16).map fun i => st.getD ((i + 4 * (k * (i % 4))) % 16) 0
/-- The columns mixed with a coefficient row. -/
def mixCols (m : List Nat) (st : List Nat) : List Nat :=
  (List.range 16).map fun i =>
    (List.range 4).foldl (fun a j => a ^^^ gmul (m.getD ((j + 4 - i % 4) % 4) 0) (st.getD (4 * (i / 4) + j) 0)) 0

/-- Encrypt one block. -/
def aesEnc (key blk : List Byte) : List Byte :=
  let rk := roundKeys key
  let n := rk.length - 1
  let st := xorN (natsOf blk) (rk.getD 0 [])
  let st := (List.range (n - 1)).foldl (fun st r =>
    xorN (mixCols [2, 3, 1, 1] (shiftRows 1 (st.map sbox))) (rk.getD (r + 1) [])) st
  ofNats (xorN (shiftRows 1 (st.map sbox)) (rk.getD n []))

/-- Decrypt one block. -/
def aesDec (key blk : List Byte) : List Byte :=
  let rk := roundKeys key
  let n := rk.length - 1
  let st := xorN (natsOf blk) (rk.getD n [])
  let st := (List.range (n - 1)).foldl (fun st r =>
    mixCols [14, 11, 13, 9] (xorN ((shiftRows 3 st).map sboxInv) (rk.getD (n - 1 - r) []))) st
  ofNats (xorN ((shiftRows 3 st).map sboxInv) (rk.getD 0 []))

/-! ### Modes -/

/-- The list in pieces of 16 bytes; the last may be shorter. -/
def blocks (l : List Byte) : List (List Byte) := (List.range (cdiv l.length 16)).map fun i => (l.drop (16 * i)).take 16

/-- A 128-bit number as a block, first byte highest. -/
def blkOf (v : Nat) : List Byte := beBytes 16 v
/-- Add n to the last w bits of a counter block. -/
def ctrAdd (w : Nat) (blk : List Byte) (n : Nat) : List Byte :=
  let v := beNat blk
  blkOf (v / 2 ^ w * 2 ^ w + (v + n) % 2 ^ w)

/-- Counter mode with a counter of w bits. -/
def ctrMode (w : Nat) (key iv data : List Byte) : List Byte :=
  ((List.range (cdiv data.length 16)).map fun i =>
    xorBytes ((data.drop (16 * i)).take 16) (aesEnc key (ctrAdd w iv i))).flatten

/-- CBC encryption of whole blocks. -/
def cbcEnc (key iv data : List Byte) : List Byte :=
  ((blocks data).foldl (fun (a : List Byte × List Byte) b =>
    let c := aesEnc key (xorBytes b a.2)
    (a.1 ++ c, c)) ([], iv)).1

/-- CBC decryption of whole blocks. -/
def cbcDec (key iv data : List Byte) : List Byte :=
  ((blocks data).foldl (fun (a : List Byte × List Byte) b => (a.1 ++ xorBytes (aesDec key b) a.2, b)) ([], iv)).1

/-- Doubling in GF(2¹²⁸) as CMAC uses it (SP 800-38B). -/
def dbl128 (v : Nat) : Nat := (v * 2 % 2 ^ 128) ^^^ (if bit v 127 then 0x87 else 0)

/-- AES-CMAC, all 16 bytes; under the two keys of an XTS slot a free value (R378, R386, log entry 89). -/
def cmac (key data : List Byte) : List Byte :=
  if key.length = 64 then (List.range 16).map (Config.xtsMac key data)
  else
  let k1 := dbl128 (beNat (aesEnc key (zeros 16)))
  let k2 := dbl128 k1
  let n := max 1 (cdiv data.length 16)
  let last := data.drop (16 * (n - 1))
  let m := if last.length = 16 then xorBytes last (blkOf k1)
           else xorBytes (last ++ [0x80] ++ zeros (15 - last.length)) (blkOf k2)
  let x := ((blocks data).take (n - 1)).foldl (fun x b => aesEnc key (xorBytes x b)) (zeros 16)
  aesEnc key (xorBytes x m)

/-- Multiplication in the field of GCM (SP 800-38D): bit 127 of the number is the first bit. -/
def gcmMul (x y : Nat) : Nat :=
  ((List.range 128).foldl (fun (t : Nat × Nat) i =>
    let z := if bit x (127 - i) then t.1 ^^^ t.2 else t.1
    (z, if bit t.2 0 then t.2 / 2 ^^^ (0xE1 * 2 ^ 120) else t.2 / 2)) (0, y)).1

/-- GHASH of padded parts. -/
def ghash (h : Nat) (l : List Byte) : Nat := (blocks l).foldl (fun y b => gcmMul (y ^^^ beNat b) h) 0

/-- The pre-counter block of a GCM IV. -/
def gcmJ0 (h : Nat) (iv : List Byte) : List Byte :=
  if iv.length = 12 then iv ++ ofNats [0, 0, 0, 1] else blkOf (ghash h (padTo 16 iv ++ zeros 8 ++ beBytes 8 (8 * iv.length)))

/-- The GCM tag over AAD and ciphertext. -/
def gcmTag (key iv aad ct : List Byte) : List Byte :=
  let h := beNat (aesEnc key (zeros 16))
  let s := ghash h (padTo 16 aad ++ padTo 16 ct ++ beBytes 8 (8 * aad.length) ++ beBytes 8 (8 * ct.length))
  xorBytes (aesEnc key (gcmJ0 h iv)) (blkOf s)

/-- GCM encryption or decryption of the data. -/
def gcmCrypt (key iv data : List Byte) : List Byte :=
  let h := beNat (aesEnc key (zeros 16))
  ctrMode 32 key (ctrAdd 32 (gcmJ0 h iv) 1) data

/-- The XTS tweak of block i (IEEE 1619): doublings of the encrypted unit number, little-endian. -/
def xtsTweak (key2 : List Byte) (iv : List Byte) : Nat → Nat
  | 0 => leNat (aesEnc key2 iv)
  | i + 1 => let t := xtsTweak key2 iv i; (t * 2 % 2 ^ 128) ^^^ (if bit t 127 then 0x87 else 0)

/-- XTS over whole blocks with the first and second half of the key; enc selects the direction. -/
def xts (enc : Bool) (key iv data : List Byte) : List Byte :=
  let n := key.length / 2
  let k1 := key.take n
  let k2 := key.drop n
  ((List.range (cdiv data.length 16)).map fun i =>
    let t := leBytes 16 (xtsTweak k2 iv i)
    let b := xorBytes ((data.drop (16 * i)).take 16) t
    xorBytes (if enc then aesEnc k1 b else aesDec k1 b) t).flatten

/-! ### RFC 3394 -/

/-- Key wrap of n ≥ 2 semiblocks under an 8-byte initial value. -/
def keyWrapIv (key iv data : List Byte) : List Byte :=
  let n := data.length / 8
  let r0 := (List.range n).map fun i => slice data (8 * i) 8
  let (a, r) := (List.range (6 * n)).foldl (fun (s : List Byte × List (List Byte)) k =>
    let i := k % n
    let b := aesEnc key (s.1 ++ s.2.getD i [])
    (xorBytes (b.take 8) (beBytes 8 (k + 1)), s.2.set i (b.drop 8))) (iv, r0)
  a ++ r.flatten

/-- Key unwrap: the integrity value and the recovered data. -/
def keyUnwrapIv (key data : List Byte) : List Byte × List Byte :=
  let n := data.length / 8 - 1
  let r0 := (List.range n).map fun i => slice data (8 * i + 8) 8
  let (a, r) := (List.range (6 * n)).foldl (fun (s : List Byte × List (List Byte)) j =>
    let k := 6 * n - 1 - j
    let i := k % n
    let b := aesDec key (xorBytes s.1 (beBytes 8 (k + 1)) ++ s.2.getD i [])
    (b.take 8, s.2.set i (b.drop 8))) (slice data 0 8, r0)
  (a, r.flatten)

/-- The default initial value of RFC 3394. -/
def wrapIv : List Byte := List.replicate 8 0xA6

/-- Key wrap under the default initial value. -/
def keyWrap (key data : List Byte) : List Byte := keyWrapIv key wrapIv data

/-- Key unwrap: none when the integrity check fails. -/
def keyUnwrap (key data : List Byte) : Option (List Byte) :=
  if (keyUnwrapIv key data).1 = wrapIv then some (keyUnwrapIv key data).2 else none

/-! ### SHA-256 (FIPS 180-4) -/

/-- The integer root of n to the power k, by bisection over `bits` bits. -/
def iroot (k n : Nat) : Nat → Nat → Nat
  | 0, r => r
  | b + 1, r => let c := r + 2 ^ b; iroot k n b (if c ^ k ≤ n then c else r)

/-- The first 64 primes. -/
def primes64 : List Nat :=
  [2, 3, 5, 7, 11, 13, 17, 19, 23, 29, 31, 37, 41, 43, 47, 53, 59, 61, 67, 71, 73, 79, 83, 89, 97, 101, 103, 107, 109, 113,
   127, 131] ++
  [137, 139, 149, 151, 157, 163, 167, 173, 179, 181, 191, 193, 197, 199, 211, 223, 227, 229, 233, 239, 241, 251, 257, 263,
   269, 271, 277, 281, 283, 293, 307, 311]

/-- The round constants: the first 32 bits of the fractional parts of the cube roots of the primes. -/
def shaK : List Nat := primes64.map fun p => iroot 3 (p * 2 ^ 96) 36 0 % 2 ^ 32
/-- The initial hash: the same of the square roots of the first 8 primes. -/
def shaH : List Nat := (primes64.take 8).map fun p => iroot 2 (p * 2 ^ 64) 36 0 % 2 ^ 32

/-- Rotate a 32-bit word right. -/
def rotr (x n : Nat) : Nat := x / 2 ^ n + x * 2 ^ (32 - n) % 2 ^ 32
/-- The message schedule of one block. -/
def shaW (blk : List Byte) : List Nat :=
  (List.range 48).foldl (fun w _ =>
    let g (i : Nat) : Nat := w.getD (w.length - i) 0
    let s0 := rotr (g 15) 7 ^^^ rotr (g 15) 18 ^^^ (g 15 / 8)
    let s1 := rotr (g 2) 17 ^^^ rotr (g 2) 19 ^^^ (g 2 / 1024)
    w ++ [(g 16 + s0 + g 7 + s1) % 2 ^ 32]) ((List.range 16).map fun i => beAt blk (4 * i) 4)

/-- One round. -/
def shaRound (st : List Nat) (kw : Nat) : List Nat := match st with
  | [a, b, c, d, e, f, g, h] =>
    let s1 := rotr e 6 ^^^ rotr e 11 ^^^ rotr e 25
    let ch := (e &&& f) ^^^ ((2 ^ 32 - 1 - e) &&& g)
    let t1 := h + s1 + ch + kw
    let s0 := rotr a 2 ^^^ rotr a 13 ^^^ rotr a 22
    let mj := (a &&& b) ^^^ (a &&& c) ^^^ (b &&& c)
    [(t1 + s0 + mj) % 2 ^ 32, a, b, c, (d + t1) % 2 ^ 32, e, f, g]
  | l => l

/-- One block into the hash. -/
def shaBlock (h : List Nat) (blk : List Byte) : List Nat :=
  let st := (List.zipWith (· + ·) shaK (shaW blk)).foldl shaRound h
  (List.zipWith (· + ·) h st).map (· % 2 ^ 32)

/-- SHA-256. -/
def sha256 (m : List Byte) : List Byte :=
  let p := m ++ [0x80] ++ zeros ((119 - m.length % 64) % 64) ++ beBytes 8 (8 * m.length)
  let h := (List.range (p.length / 64)).foldl (fun h i => shaBlock h (slice p (64 * i) 64)) shaH
  (h.map (beBytes 4)).flatten

/-- HMAC-SHA-256. -/
def hmac (key m : List Byte) : List Byte :=
  let k := if 64 < key.length then sha256 key else key
  let k := k ++ zeros (64 - k.length)
  sha256 (k.map (· ^^^ 0x5C) ++ sha256 (k.map (· ^^^ 0x36) ++ m))

/-- The counter mode KDF of SP 800-108 with a PRF: blocks of counter (32 bits, big-endian), label, 0x00, context and
length in bits (32 bits, big-endian), cut to n bytes. -/
def kdfCtr (prf : List Byte → List Byte) (size : Nat) (label context : List Byte) (n : Nat) : List Byte :=
  (((List.range (cdiv n size)).map fun i =>
    prf (beBytes 4 (i + 1) ++ label ++ [0] ++ context ++ beBytes 4 (8 * n))).flatten).take n

/-! ### P-256 (FIPS 186-5) -/

/-- The field prime. -/
def pP : Nat := 2 ^ 256 - 2 ^ 224 + 2 ^ 192 + 2 ^ 96 - 1
/-- The order of the base point. -/
def pN : Nat := 0xFFFFFFFF00000000FFFFFFFFFFFFFFFFBCE6FAADA7179E84F3B9CAC2FC632551
/-- The curve coefficient b. -/
def pB : Nat := 0x5AC635D8AA3A93E7B3EBBD55769886BC651D06B0CC53B0F63BCE3C3E27D2604B
/-- The base point. -/
def pG : Nat × Nat :=
  (0x6B17D1F2E12C4247F8BCE6E563A440F277037D812DEB33A0F4A13945D898C296,
   0x4FE342E2FE1A7F9B8EE7EB4A7C0F9E162BCE33576B315ECECBB6406837BF51F5)

/-- a to the power e modulo m, over the bits of e. -/
def powMod (a e m : Nat) : Nat :=
  (List.range 256).reverse.foldl (fun r i => let r := r * r % m; if bit e i then r * a % m else r) 1
/-- The inverse modulo a prime. -/
def invMod (a m : Nat) : Nat := powMod a (m - 2) m

/-- Addition on the curve; none is the point at infinity. -/
def ecAdd (a b : Option (Nat × Nat)) : Option (Nat × Nat) := match a, b with
  | none, x => x
  | x, none => x
  | some (x1, y1), some (x2, y2) =>
    if x1 = x2 ∧ (y1 + y2) % pP = 0 then none
    else
      let l := if x1 = x2 then (3 * x1 * x1 + (pP - 3)) * invMod (2 * y1 % pP) pP % pP
               else (y2 + pP - y1) * invMod ((x2 + pP - x1) % pP) pP % pP
      let x3 := (l * l + 2 * pP - x1 - x2) % pP
      some (x3, (l * (x1 + pP - x3) + pP - y1) % pP)

/-- Scalar multiplication. -/
def ecMul (k : Nat) (p : Option (Nat × Nat)) : Option (Nat × Nat) :=
  (List.range 256).reverse.foldl (fun r i => let r := ecAdd r r; if bit k i then ecAdd r p else r) none

/-- A point of the curve as the interfaces carry it (R371): 0x04, then x and y, 32 bytes each. -/
def ecPoint (b : List Byte) : Option (Nat × Nat) :=
  let x := beAt b 1 32
  let y := beAt b 33 32
  if byteAt b 0 = 4 ∧ x < pP ∧ y < pP ∧ y * y % pP = (x * x * x + (pP - 3) * x + pB) % pP ∧ b.length = 65 then some (x, y) else none

/-- The bytes of a point. -/
def ecBytes (p : Option (Nat × Nat)) : List Byte := match p with
  | none => zeros 65
  | some (x, y) => ofNats [4] ++ beBytes 32 x ++ beBytes 32 y

/-- The public key of a private key. -/
def ecPublic (d : Nat) : List Byte := ecBytes (ecMul d (some pG))

/-- ECDSA verification over a SHA-256 digest; the signature is r, then s, 32 bytes each. -/
def ecdsaVerify (pub digest sig : List Byte) : Bool :=
  let r := beAt sig 0 32
  let s := beAt sig 32 32
  match ecPoint pub with
  | none => false
  | some q =>
    if r = 0 ∨ pN ≤ r ∨ s = 0 ∨ pN ≤ s ∨ sig.length ≠ 64 then false
    else
      let w := invMod s pN
      match ecAdd (ecMul (beNat digest * w % pN) (some pG)) (ecMul (r * w % pN) (some q)) with
      | none => false
      | some (x, _) => x % pN == r

/-- ECDSA signature with the per-message secret k. -/
def ecdsaSign (d k : Nat) (digest : List Byte) : List Byte :=
  match ecMul k (some pG) with
  | none => zeros 64
  | some (x, _) =>
    let r := x % pN
    beBytes 32 r ++ beBytes 32 (invMod k pN * (beNat digest + r * d) % pN)

/-- The shared secret of ECDH: the x coordinate. -/
def ecdhSecret (d : Nat) (pub : List Byte) : Option (List Byte) :=
  (ecPoint pub).bind fun q => (ecMul d (some q)).map fun p => beBytes 32 p.1

end Sys2Proof.Machine
end

