-- ==== Sys2Proof/Machine/Crc.lean ====
section
/-! DEFINITION. Cyclic redundancy checks, bit by bit (R68, R166, R205, R206, R231, R294). -/

namespace Sys2Proof.Machine

/-- The low w bits of v reversed. -/
def reflect (w v : Nat) : Nat := (List.range w).foldl (fun a i => 2 * a + v / 2 ^ i % 2) 0

/-- One bit of a CRC of width w with polynomial poly, most significant bit first. -/
def crcBit (w poly crc : Nat) (b : Bool) : Nat :=
  let top := bit crc (w - 1) != b
  let c := crc * 2 % 2 ^ w
  if top then c ^^^ poly else c

/-- One byte of a CRC; `refl` takes the byte's least significant bit first. -/
def crcByte (w poly : Nat) (refl : Bool) (crc : Nat) (b : Byte) : Nat :=
  (List.range 8).foldl (fun c i => crcBit w poly c (bit b.toNat (if refl then i else 7 - i))) crc

/-- A CRC of width w with its polynomial, initial value, reflection and final exclusive or. -/
def crc (w poly init : Nat) (refl : Bool) (xorOut : Nat) (l : List Byte) : Nat :=
  let c := l.foldl (crcByte w poly refl) init
  (if refl then reflect w c else c) ^^^ xorOut

/-- The CRC-32 of IEEE 802.3 (R68, R205). -/
def crc32 (l : List Byte) : Nat := crc 32 0x04C11DB7 0xFFFFFFFF true 0xFFFFFFFF l

/-- The CRC-16 of profile 2 of R294, used by the FDB (R166). -/
def crc16 (l : List Byte) : Nat := crc 16 0x1021 0xFFFF false 0 l

/-- The CRC-8 of the wake word (R231). -/
def crc8Wake (l : List Byte) : Nat := crc 8 0x2F 0xFF false 0xFF l

/-- The FCS of an Ethernet frame, as it stands after the last data byte (R205). -/
def fcsBytes (l : List Byte) : List Byte := leBytes 4 (crc32 l)

end Sys2Proof.Machine
end

