-- ==== Sys2Proof/Machine/Layout.lean ====
section
/-! DEFINITION. Names of the plate's record tables: section type (R56) times 16 plus the part of the section. -/

namespace Sys2Proof.Machine.C

/-- SYSTEM (R58). -/
def system := 0x010
/-- CLOCK_POWER (R510). -/
def clockPower := 0x020
/-- TIME header, domain and port records (R99). -/
def timeHdr := 0x030
/-- TIME domain record. -/
def timeDom := 0x031
/-- TIME port record. -/
def timePort := 0x032
/-- STIPPLE period record (R122). -/
def stpPeriod := 0x041
/-- STIPPLE entry (R102). -/
def stpEntry := 0x042
/-- QUEUE header (R159). -/
def queueHdr := 0x050
/-- QUEUE profile record. -/
def queueProf := 0x051
/-- QUEUE queue record. -/
def queueRec := 0x052
/-- LOOKUP_L2 header (R198). -/
def l2Hdr := 0x060
/-- LOOKUP_L2 port record. -/
def l2Port := 0x061
/-- LOOKUP_L2 VLAN record. -/
def l2Vlan := 0x062
/-- LOOKUP_L2 multicast group. -/
def l2Group := 0x063
/-- LOOKUP_L2 static FDB entry. -/
def l2Fdb := 0x064
/-- LOOKUP_L3 header (R199). -/
def l3Hdr := 0x070
/-- LOOKUP_L3 next hop. -/
def l3Hop := 0x071
/-- LOOKUP_L3 IPv4 route. -/
def l3V4 := 0x072
/-- LOOKUP_L3 IPv6 route. -/
def l3V6 := 0x073
/-- STREAM_POLICE header (R200). -/
def spHdr := 0x080
/-- STREAM_POLICE stream, pipeline A; +1 pipeline B. -/
def spStream := 0x081
/-- STREAM_POLICE policer, pipeline A; +1 pipeline B. -/
def spPolicer := 0x083
/-- STREAM_POLICE containment unit. -/
def spUnit := 0x085
/-- ACL rule, pipeline A; +1 pipeline B (R201). -/
def aclRule := 0x091
/-- MIRROR session (R202). -/
def mirror := 0x0A1
/-- ETH_PORT header (R236). -/
def ethHdr := 0x0B0
/-- ETH_PORT port record. -/
def ethPort := 0x0B1
/-- ETH_PORT hash map. -/
def ethHash := 0x0B2
/-- ETH_PORT gate control entry. -/
def ethGate := 0x0B3
/-- ETH_PORT FRER record. -/
def ethFrer := 0x0B4
/-- ETH_PORT MDIO script entry. -/
def ethMdio := 0x0B5
/-- T1S segment record (R237). -/
def t1s := 0x0C1
/-- CAN header (R273). -/
def canHdr := 0x0D0
/-- CAN channel record. -/
def canCh := 0x0D1
/-- CAN filter and guard entries. -/
def canEnt := 0x0D2
/-- CAN selective-wake decoder. -/
def canDec := 0x0D3
/-- LIN channel record (R274). -/
def linCh := 0x0E1
/-- LIN slot entries. -/
def linSlot := 0x0E2
/-- SBS (R275). -/
def sbs := 0x0F0
/-- SBS input record. -/
def sbsIn := 0x0F1
/-- SBS output record. -/
def sbsOut := 0x0F2
/-- SIGNAL header (R312). -/
def sigHdr := 0x100
/-- SIGNAL channel map. -/
def sigChan := 0x101
/-- SIGNAL signal definition. -/
def sigDef := 0x102
/-- SIGNAL PDU. -/
def sigPdu := 0x103
/-- SIGNAL mapping. -/
def sigMap := 0x104
/-- SIGNAL frame route. -/
def sigRoute := 0x105
/-- SIGNAL carrier. -/
def sigCarrier := 0x106
/-- SIGNAL header template. -/
def sigTempl := 0x107
/-- SIGNAL end-to-end record. -/
def sigE2e := 0x108
/-- SIGNAL authentication record. -/
def sigAuth := 0x109
/-- SIGNAL snapshot set. -/
def sigSnap := 0x10A
/-- SIGNAL snapshot member. -/
def sigMember := 0x10B
/-- GRAVER_CODE header (R342). -/
def grvHdr := 0x110
/-- GRAVER_CODE engine image map. -/
def grvMap := 0x111
/-- GRAVER_CODE image. -/
def grvImg := 0x112
/-- GRAVER_CODE table or hook. -/
def grvTbl := 0x113
/-- GRAVER_CODE hook. -/
def grvHook := 0x114
/-- CTL_IMAGE header (R364). -/
def ctlHdr := 0x120
/-- CTL_IMAGE core record. -/
def ctlCore := 0x121
/-- CTL_IMAGE window. -/
def ctlWin := 0x122
/-- CTL_IMAGE slot record. -/
def ctlSlot := 0x123
/-- CTL_IMAGE image. -/
def ctlImg := 0x124
/-- KEY_POLICY (R395). -/
def keyPol := 0x130
/-- MACSEC port record (R419). -/
def msPort := 0x141
/-- MACSEC frame-job template. -/
def msJob := 0x142
/-- SLEEP_PN header (R443). -/
def slpHdr := 0x150
/-- SLEEP_PN group record. -/
def slpGroup := 0x151
/-- SLEEP_PN wake input record. -/
def slpWakeIn := 0x152
/-- SLEEP_PN wake output record. -/
def slpWakeOut := 0x153
/-- SLEEP_PN ring order. -/
def slpRing := 0x154
/-- ALMOITH header (R468). -/
def almHdr := 0x160
/-- ALMOITH peer record. -/
def almPeer := 0x161
/-- ROSTER record (R469). -/
def roster := 0x171
/-- HOST header (R488). -/
def hostHdr := 0x180
/-- HOST interface record. -/
def hostIf := 0x181
/-- HOST queue record. -/
def hostQ := 0x182
/-- RECORDER (R511). -/
def recorder := 0x190

end Sys2Proof.Machine.C
end

