-- ==== Sys2Proof/Machine/Regs.lean ====
section
/-! DEFINITION. The register map: every register of BAR0 with its fields, taken from the field tables of the chapters
(17_register_map.md R513, R526; access types R11, reset classes R12). -/

namespace Sys2Proof.Machine

/-- Access types that occur in the field tables (R11). -/
inductive Acc where
  | ro | rw | w1c | rc | wo
  deriving DecidableEq, Repr

/-- One field of a register: its bits, what it resets to and which reset class restores it (R8, R11, R12). `warm` is the
class WRST; otherwise the class is POR. -/
structure Field where
  addr  : Nat
  step  : Nat
  step2 : Nat
  lo    : Nat
  w     : Nat
  acc   : Acc
  warm  : Bool
  reset : Nat
  deriving DecidableEq, Repr

/-- The same field of unit n. -/
def Field.u (f : Field) (n : Nat) : Field := { f with addr := f.addr + n * f.step }
/-- The same field of unit n, sub-unit m. -/
def Field.uu (f : Field) (n m : Nat) : Field := { f with addr := f.addr + n * f.step + m * f.step2 }
/-- The key of a field in the register table. -/
def Field.key (f : Field) : Nat := f.addr * 32 + f.lo

/-- One register: its units and its fields (R526). -/
structure RegD where
  addr : Nat
  n1 : Nat
  s1 : Nat
  n2 : Nat
  s2 : Nat
  fields : List Field
  deriving Repr

namespace F

def SYS_ID_PART : Field := ⟨0x0, 0, 0, 16, 16, .ro, false, 38422⟩
def SYS_ID_REV : Field := ⟨0x0, 0, 0, 0, 8, .ro, false, 162⟩
def SYS_RST_CAUSE_PROTECT : Field := ⟨0x4, 0, 0, 7, 1, .ro, false, 0⟩
def SYS_RST_CAUSE_WAKE : Field := ⟨0x4, 0, 0, 6, 1, .ro, false, 0⟩
def SYS_RST_CAUSE_FENCE : Field := ⟨0x4, 0, 0, 5, 1, .ro, false, 0⟩
def SYS_RST_CAUSE_LIFECYCLE : Field := ⟨0x4, 0, 0, 4, 1, .ro, false, 0⟩
def SYS_RST_CAUSE_WDOG : Field := ⟨0x4, 0, 0, 3, 1, .ro, false, 0⟩
def SYS_RST_CAUSE_HOST_REQ : Field := ⟨0x4, 0, 0, 2, 1, .ro, false, 0⟩
def SYS_RST_CAUSE_WRST_PIN : Field := ⟨0x4, 0, 0, 1, 1, .ro, false, 0⟩
def SYS_RST_CAUSE_POR : Field := ⟨0x4, 0, 0, 0, 1, .ro, false, 1⟩
def SYS_STRAP_BOOT_SEL : Field := ⟨0x8, 0, 0, 0, 2, .ro, false, 0⟩
def SYS_BOOT_STAT_FAIL_COPY : Field := ⟨0xc, 0, 0, 16, 2, .ro, true, 3⟩
def SYS_BOOT_STAT_FAIL_CODE : Field := ⟨0xc, 0, 0, 8, 8, .ro, true, 0⟩
def SYS_BOOT_STAT_STAGED_TRY : Field := ⟨0xc, 0, 0, 7, 1, .ro, true, 0⟩
def SYS_BOOT_STAT_FALLBACK : Field := ⟨0xc, 0, 0, 6, 1, .ro, true, 0⟩
def SYS_BOOT_STAT_COPY : Field := ⟨0xc, 0, 0, 4, 2, .ro, true, 3⟩
def SYS_BOOT_STAT_STAGE : Field := ⟨0xc, 0, 0, 0, 4, .ro, true, 0⟩
def SYS_PLATE_STATE_STATE : Field := ⟨0x10, 0, 0, 0, 32, .ro, true, 0⟩
def SYS_PLATE_COMPAT_FROM : Field := ⟨0x14, 0, 0, 0, 32, .ro, true, 0⟩
def SYS_FLOOR_FLOOR : Field := ⟨0x18, 0, 0, 0, 32, .ro, false, 0⟩
def SYS_BOOT_TIME_FULL_T : Field := ⟨0x1c, 0, 0, 16, 16, .ro, true, 0⟩
def SYS_BOOT_TIME_EARLY_T : Field := ⟨0x1c, 0, 0, 0, 16, .ro, true, 0⟩
def SYS_LOCK_LOCK : Field := ⟨0x20, 0, 0, 0, 1, .ro, true, 0⟩
def SYS_RST_REQ_KEY : Field := ⟨0x24, 0, 0, 16, 16, .wo, false, 0⟩
def SYS_RST_REQ_REQ : Field := ⟨0x24, 0, 0, 0, 1, .wo, false, 0⟩
def SYS_STAGE_CTRL_COPY : Field := ⟨0x30, 0, 0, 4, 2, .wo, false, 0⟩
def SYS_STAGE_CTRL_CMD : Field := ⟨0x30, 0, 0, 0, 4, .wo, false, 0⟩
def SYS_STAGE_ARG_ARG : Field := ⟨0x34, 0, 0, 0, 32, .rw, true, 0⟩
def SYS_STAGE_STAT_VERIFY_CODE : Field := ⟨0x38, 0, 0, 16, 8, .ro, true, 0⟩
def SYS_STAGE_STAT_PENDING : Field := ⟨0x38, 0, 0, 12, 1, .ro, true, 0⟩
def SYS_STAGE_STAT_COPY : Field := ⟨0x38, 0, 0, 9, 1, .ro, true, 0⟩
def SYS_STAGE_STAT_SESSION : Field := ⟨0x38, 0, 0, 8, 1, .ro, true, 0⟩
def SYS_STAGE_STAT_STATUS : Field := ⟨0x38, 0, 0, 0, 8, .ro, true, 0⟩
def TIME_LOCAL_LO_NS : Field := ⟨0x20000, 0, 0, 0, 32, .ro, true, 0⟩
def TIME_LOCAL_HI_NS : Field := ⟨0x20004, 0, 0, 0, 32, .ro, true, 0⟩
def TIME_SHORT_LO_NS : Field := ⟨0x20008, 0, 0, 0, 32, .ro, true, 0⟩
def TIME_SHORT_HI_NS : Field := ⟨0x2000c, 0, 0, 0, 32, .ro, true, 0⟩
def TIME_Dn_STAT_SOURCE : Field := ⟨0x20040, 32, 0, 14, 2, .ro, true, 0⟩
def TIME_Dn_STAT_SLAVE_PORT : Field := ⟨0x20040, 32, 0, 8, 6, .ro, true, 63⟩
def TIME_Dn_STAT_EN : Field := ⟨0x20040, 32, 0, 3, 1, .ro, true, 0⟩
def TIME_Dn_STAT_STATE : Field := ⟨0x20040, 32, 0, 0, 3, .ro, true, 0⟩
def TIME_Dn_NS_NS : Field := ⟨0x20044, 32, 0, 0, 32, .ro, true, 0⟩
def TIME_Dn_SEC_LO_SEC : Field := ⟨0x20048, 32, 0, 0, 32, .ro, true, 0⟩
def TIME_Dn_SEC_HI_SEC : Field := ⟨0x2004c, 32, 0, 0, 16, .ro, true, 0⟩
def TIME_Dn_RATE_PPB : Field := ⟨0x20050, 32, 0, 0, 32, .ro, true, 0⟩
def TIME_Dn_ERR_ERR : Field := ⟨0x20054, 32, 0, 0, 32, .ro, true, 4294967295⟩
def TIME_Dn_CNT_STEPS : Field := ⟨0x20058, 32, 0, 16, 16, .rc, true, 0⟩
def TIME_Dn_CNT_HOLDS : Field := ⟨0x20058, 32, 0, 0, 16, .rc, true, 0⟩
def TIME_PPS_IN_LO_NS : Field := ⟨0x200c0, 0, 0, 0, 32, .ro, true, 0⟩
def TIME_PPS_IN_HI_NS : Field := ⟨0x200c4, 0, 0, 0, 32, .ro, true, 0⟩
def TIME_PPS_STAT_REJECT : Field := ⟨0x200c8, 0, 0, 16, 16, .rc, true, 0⟩
def TIME_PPS_STAT_ACCEPT : Field := ⟨0x200c8, 0, 0, 0, 16, .rc, true, 0⟩
def TIME_TSPOOL_STAT_HIGH : Field := ⟨0x20100, 0, 0, 16, 9, .rc, true, 0⟩
def TIME_TSPOOL_STAT_USED : Field := ⟨0x20100, 0, 0, 0, 9, .ro, true, 0⟩
def TIME_PORTpp_TSF_POOL : Field := ⟨0x20200, 4, 0, 16, 9, .ro, true, 0⟩
def TIME_PORTpp_TSF_FIFO : Field := ⟨0x20200, 4, 0, 0, 7, .ro, true, 0⟩
def TIME_PORTpp_TSLOST_COUNT : Field := ⟨0x20280, 4, 0, 0, 32, .rc, true, 0⟩
def STP_STAT_SUSP : Field := ⟨0x30000, 0, 0, 16, 16, .ro, true, 0⟩
def STP_STAT_ENABLED : Field := ⟨0x30000, 0, 0, 0, 13, .ro, true, 0⟩
def STP_LATE_CNT_COUNT : Field := ⟨0x30004, 0, 0, 0, 32, .rc, true, 0⟩
def STP_SKIP_CNT_COUNT : Field := ⟨0x30008, 0, 0, 0, 32, .rc, true, 0⟩
def STP_DEFER_CNT_COUNT : Field := ⟨0x3000c, 0, 0, 0, 32, .rc, true, 0⟩
def STP_REFUSE_CNT_COUNT : Field := ⟨0x30010, 0, 0, 0, 32, .rc, true, 0⟩
def STP_SNAP_STAT_OVERRUN : Field := ⟨0x30020, 0, 0, 16, 16, .rc, true, 0⟩
def STP_SNAP_STAT_LATCHED : Field := ⟨0x30020, 0, 0, 0, 16, .rc, true, 0⟩
def STP_LATE_MAX_NS : Field := ⟨0x30024, 0, 0, 0, 32, .rc, true, 0⟩
def QM_BULK_FREE_FREE : Field := ⟨0x40000, 0, 0, 0, 17, .ro, true, 122880⟩
def QM_RSV_FREE_FREE : Field := ⟨0x40004, 0, 0, 0, 14, .ro, true, 8192⟩
def QM_BULK_LOW_LOW : Field := ⟨0x40008, 0, 0, 0, 17, .rc, true, 122880⟩
def QM_DESC_FREE_FREE : Field := ⟨0x4000c, 0, 0, 0, 18, .ro, true, 131072⟩
def QM_QE_FREE_FREE : Field := ⟨0x40010, 0, 0, 0, 19, .ro, true, 262144⟩
def QM_FLUSH_QUEUE : Field := ⟨0x40020, 0, 0, 0, 10, .wo, false, 0⟩
def QM_FLUSH_STAT_BUSY : Field := ⟨0x40024, 0, 0, 31, 1, .ro, true, 0⟩
def QM_FLUSH_STAT_REFUSED : Field := ⟨0x40024, 0, 0, 16, 8, .rc, true, 0⟩
def QM_FLUSH_STAT_QUEUE : Field := ⟨0x40024, 0, 0, 0, 10, .ro, true, 0⟩
def QM_DROP_THR_COUNT : Field := ⟨0x40030, 0, 0, 0, 32, .rc, true, 0⟩
def QM_DROP_POOL_COUNT : Field := ⟨0x40034, 0, 0, 0, 32, .rc, true, 0⟩
def QM_EVICT_CNT_COUNT : Field := ⟨0x40038, 0, 0, 0, 32, .rc, true, 0⟩
def QM_POP_TIMEOUT_COUNT : Field := ⟨0x40040, 0, 0, 0, 32, .rc, true, 0⟩
def QM_LEAK_CNT_DOUBLE : Field := ⟨0x40050, 0, 0, 16, 16, .rc, true, 0⟩
def QM_LEAK_CNT_LEAK : Field := ⟨0x40050, 0, 0, 0, 16, .rc, true, 0⟩
def QM_AUDIT_STAT_PASSES : Field := ⟨0x40054, 0, 0, 16, 16, .ro, true, 0⟩
def QM_AUDIT_STAT_UNMARKED : Field := ⟨0x40054, 0, 0, 0, 16, .ro, true, 0⟩
def QM_PAR_ERR_MEM : Field := ⟨0x40058, 0, 0, 30, 2, .ro, true, 0⟩
def QM_PAR_ERR_COUNT : Field := ⟨0x40058, 0, 0, 18, 8, .rc, true, 0⟩
def QM_PAR_ERR_INDEX : Field := ⟨0x40058, 0, 0, 0, 18, .ro, true, 0⟩
def QM_ECC_CORR_COUNT : Field := ⟨0x4005c, 0, 0, 0, 32, .rc, true, 0⟩
def QM_CFG_AUDIT_MS : Field := ⟨0x40080, 0, 0, 16, 7, .ro, true, 10⟩
def QM_CFG_MARGIN : Field := ⟨0x40080, 0, 0, 0, 13, .ro, true, 0⟩
def QM_PROFn_ALPHA : Field := ⟨0x40100, 4, 0, 16, 3, .ro, true, 0⟩
def QM_PROFn_MIN : Field := ⟨0x40100, 4, 0, 0, 11, .ro, true, 0⟩
def FAB_STAT_CLK_DIV : Field := ⟨0x50000, 0, 0, 4, 2, .ro, true, 0⟩
def FAB_STAT_ROTOR : Field := ⟨0x50000, 0, 0, 0, 4, .ro, true, 0⟩
def FAB_RSV_CNT_COUNT : Field := ⟨0x50010, 0, 0, 0, 32, .ro, true, 0⟩
def FAB_CT_CNT_COUNT : Field := ⟨0x50014, 0, 0, 0, 32, .ro, true, 0⟩
def FAB_STOMP_CNT_COUNT : Field := ⟨0x50018, 0, 0, 0, 32, .rc, true, 0⟩
def FAB_STAGE_DROP_COUNT : Field := ⟨0x5001c, 0, 0, 0, 32, .rc, true, 0⟩
def FAB_FNn_WR_CELLS : Field := ⟨0x50100, 8, 0, 0, 32, .ro, true, 0⟩
def FAB_FNn_RD_CELLS : Field := ⟨0x50104, 8, 0, 0, 32, .ro, true, 0⟩
def FAB_FNn_MISS_COUNT : Field := ⟨0x50180, 4, 0, 0, 32, .rc, true, 0⟩
def LKP_CFG_SWEEP_S : Field := ⟨0x60000, 0, 0, 0, 12, .ro, true, 0⟩
def LKP_BURN_STAT_AGE_PASSES : Field := ⟨0x60004, 0, 0, 16, 16, .ro, true, 0⟩
def LKP_BURN_STAT_SCRUB_PASSES : Field := ⟨0x60004, 0, 0, 0, 16, .ro, true, 0⟩
def LKP_PAR_ERR_TABLE : Field := ⟨0x60008, 0, 0, 28, 4, .ro, true, 0⟩
def LKP_PAR_ERR_PIPE : Field := ⟨0x60008, 0, 0, 27, 1, .ro, true, 0⟩
def LKP_PAR_ERR_COUNT : Field := ⟨0x60008, 0, 0, 20, 7, .rc, true, 0⟩
def LKP_PAR_ERR_INDEX : Field := ⟨0x60008, 0, 0, 0, 20, .ro, true, 0⟩
def LKP_RESTORE_PENDING : Field := ⟨0x6000c, 0, 0, 16, 16, .ro, true, 0⟩
def LKP_RESTORE_DONE : Field := ⟨0x6000c, 0, 0, 0, 16, .rc, true, 0⟩
def LKP_Pp_FDB_USED : Field := ⟨0x60100, 128, 0, 0, 17, .ro, true, 0⟩
def LKP_Pp_LEARN_COUNT : Field := ⟨0x60104, 128, 0, 0, 32, .rc, true, 0⟩
def LKP_Pp_LEARN_FAIL_FULL : Field := ⟨0x60108, 128, 0, 16, 16, .rc, true, 0⟩
def LKP_Pp_LEARN_FAIL_RATE : Field := ⟨0x60108, 128, 0, 0, 16, .rc, true, 0⟩
def LKP_Pp_AGED_COUNT : Field := ⟨0x6010c, 128, 0, 0, 32, .rc, true, 0⟩
def LKP_Pp_MOVE_REFUSED : Field := ⟨0x60110, 128, 0, 16, 16, .rc, true, 0⟩
def LKP_Pp_MOVE_MOVED : Field := ⟨0x60110, 128, 0, 0, 16, .rc, true, 0⟩
def LKP_Pp_FLOOD_COUNT : Field := ⟨0x60114, 128, 0, 0, 32, .rc, true, 0⟩
def LKP_Pp_DROPc_COUNT : Field := ⟨0x60120, 128, 4, 0, 32, .rc, true, 0⟩
def LKP_CONTu_CHANGES : Field := ⟨0x60300, 4, 0, 16, 16, .rc, true, 0⟩
def LKP_CONTu_QUIET : Field := ⟨0x60300, 4, 0, 8, 8, .ro, true, 0⟩
def LKP_CONTu_LEVEL : Field := ⟨0x60300, 4, 0, 0, 2, .ro, true, 0⟩
def LKP_GUARD_RELEASES : Field := ⟨0x60400, 0, 0, 16, 16, .rc, true, 0⟩
def LKP_GUARD_CONTAINS : Field := ⟨0x60400, 0, 0, 0, 16, .rc, true, 0⟩
def LKP_GUARD_NOW_CONTAINED : Field := ⟨0x60404, 0, 0, 0, 15, .ro, true, 0⟩
def MIR_SESSn_STAT_ACTIVE : Field := ⟨0x70000, 16, 0, 31, 1, .ro, true, 0⟩
def MIR_SESSn_STAT_REASON : Field := ⟨0x70000, 16, 0, 28, 3, .ro, true, 1⟩
def MIR_SESSn_STAT_TRUNC : Field := ⟨0x70000, 16, 0, 8, 8, .ro, true, 0⟩
def MIR_SESSn_STAT_DEST : Field := ⟨0x70000, 16, 0, 0, 8, .ro, true, 0⟩
def MIR_SESSn_COPY_COUNT : Field := ⟨0x70004, 16, 0, 0, 32, .ro, true, 0⟩
def MIR_SESSn_DROP_COUNT : Field := ⟨0x70008, 16, 0, 0, 32, .rc, true, 0⟩
def MIR_SAMPLE_Pp_COUNT : Field := ⟨0x70100, 8, 0, 0, 32, .ro, true, 0⟩
def MIR_SAMPLE_DROP_Pp_COUNT : Field := ⟨0x70104, 8, 0, 0, 32, .rc, true, 0⟩
def ETH_PORTpp_STAT_LINK : Field := ⟨0x80000, 4096, 0, 31, 1, .ro, true, 0⟩
def ETH_PORTpp_STAT_SPEED : Field := ⟨0x80000, 4096, 0, 28, 3, .ro, true, 7⟩
def ETH_PORTpp_STAT_VERIFY : Field := ⟨0x80000, 4096, 0, 26, 2, .ro, true, 0⟩
def ETH_PORTpp_STAT_PREEMPT_ACTIVE : Field := ⟨0x80000, 4096, 0, 25, 1, .ro, true, 0⟩
def ETH_PORTpp_STAT_PAUSED : Field := ⟨0x80000, 4096, 0, 24, 1, .ro, true, 0⟩
def ETH_PORTpp_STAT_PFC_PAUSED : Field := ⟨0x80000, 4096, 0, 16, 8, .ro, true, 0⟩
def ETH_PORTpp_STAT_XOFF : Field := ⟨0x80000, 4096, 0, 8, 8, .ro, true, 0⟩
def ETH_PORTpp_STAT_GATES : Field := ⟨0x80000, 4096, 0, 0, 8, .ro, true, 255⟩
def ETH_PORTpp_RX_FRAMES_COUNT : Field := ⟨0x80010, 4096, 0, 0, 32, .ro, true, 0⟩
def ETH_PORTpp_RX_ERR_FCS : Field := ⟨0x80014, 4096, 0, 16, 16, .rc, true, 0⟩
def ETH_PORTpp_RX_ERR_LENGTH : Field := ⟨0x80014, 4096, 0, 0, 16, .rc, true, 0⟩
def ETH_PORTpp_RX_FILT_HASH : Field := ⟨0x80018, 4096, 0, 16, 16, .rc, true, 0⟩
def ETH_PORTpp_RX_FILT_ASM : Field := ⟨0x80018, 4096, 0, 0, 16, .rc, true, 0⟩
def ETH_PORTpp_TX_FRAMES_COUNT : Field := ⟨0x80020, 4096, 0, 0, 32, .ro, true, 0⟩
def ETH_PORTpp_TX_DROP_LINKDOWN : Field := ⟨0x80024, 4096, 0, 16, 16, .rc, true, 0⟩
def ETH_PORTpp_TX_DROP_OVERSIZE : Field := ⟨0x80024, 4096, 0, 0, 16, .rc, true, 0⟩
def ETH_PORTpp_PAUSE_RX : Field := ⟨0x80028, 4096, 0, 16, 16, .rc, true, 0⟩
def ETH_PORTpp_PAUSE_TX : Field := ⟨0x80028, 4096, 0, 0, 16, .rc, true, 0⟩
def ETH_PORTpp_QBV_OVERRUN : Field := ⟨0x80030, 4096, 0, 16, 16, .rc, true, 0⟩
def ETH_PORTpp_QBV_ENTRY : Field := ⟨0x80030, 4096, 0, 0, 9, .ro, true, 0⟩
def ETH_PORTpp_MDIO_CMD_BUSY : Field := ⟨0x80f00, 4096, 0, 31, 1, .ro, true, 0⟩
def ETH_PORTpp_MDIO_CMD_ERR : Field := ⟨0x80f00, 4096, 0, 30, 1, .ro, true, 0⟩
def ETH_PORTpp_MDIO_CMD_OP : Field := ⟨0x80f00, 4096, 0, 28, 2, .rw, true, 0⟩
def ETH_PORTpp_MDIO_CMD_DEVAD : Field := ⟨0x80f00, 4096, 0, 16, 5, .rw, true, 0⟩
def ETH_PORTpp_MDIO_CMD_REG : Field := ⟨0x80f00, 4096, 0, 0, 16, .rw, true, 0⟩
def ETH_PORTpp_MDIO_DATA_DATA : Field := ⟨0x80f04, 4096, 0, 0, 16, .rw, true, 0⟩
def T1S_SGnn_STAT_MODE : Field := ⟨0x90000, 2048, 0, 30, 2, .ro, true, 0⟩
def T1S_SGnn_STAT_PLCA_ACTIVE : Field := ⟨0x90000, 2048, 0, 29, 1, .ro, true, 0⟩
def T1S_SGnn_STAT_LOWPOWER : Field := ⟨0x90000, 2048, 0, 28, 1, .ro, true, 0⟩
def T1S_SGnn_STAT_HOLD : Field := ⟨0x90000, 2048, 0, 27, 1, .ro, true, 0⟩
def T1S_SGnn_STAT_NODE_ID : Field := ⟨0x90000, 2048, 0, 16, 5, .ro, true, 0⟩
def T1S_SGnn_STAT_NODE_COUNT : Field := ⟨0x90000, 2048, 0, 8, 6, .ro, true, 0⟩
def T1S_SGnn_RX_FRAMES_COUNT : Field := ⟨0x90010, 2048, 0, 0, 32, .ro, true, 0⟩
def T1S_SGnn_TX_FRAMES_COUNT : Field := ⟨0x90014, 2048, 0, 0, 32, .ro, true, 0⟩
def T1S_SGnn_ERR_FCS : Field := ⟨0x90018, 2048, 0, 16, 16, .rc, true, 0⟩
def T1S_SGnn_ERR_LENGTH : Field := ⟨0x90018, 2048, 0, 8, 8, .rc, true, 0⟩
def T1S_SGnn_ERR_LINKDOWN : Field := ⟨0x90018, 2048, 0, 0, 8, .rc, true, 0⟩
def T1S_SGnn_COLL_COLLISIONS : Field := ⟨0x9001c, 2048, 0, 16, 16, .rc, true, 0⟩
def T1S_SGnn_COLL_LATE : Field := ⟨0x9001c, 2048, 0, 8, 8, .rc, true, 0⟩
def T1S_SGnn_COLL_EXCESS : Field := ⟨0x9001c, 2048, 0, 0, 8, .rc, true, 0⟩
def T1S_SGnn_PLCA_FALLBACK : Field := ⟨0x90020, 2048, 0, 16, 16, .rc, true, 0⟩
def T1S_SGnn_PLCA_CYCLES : Field := ⟨0x90020, 2048, 0, 0, 16, .ro, true, 0⟩
def T1S_SGnn_ALIGN_LATE : Field := ⟨0x90024, 2048, 0, 16, 16, .rc, true, 0⟩
def T1S_SGnn_ALIGN_ALIGNED : Field := ⟨0x90024, 2048, 0, 0, 16, .rc, true, 0⟩
def T1S_SGnn_WAKE_TX : Field := ⟨0x90028, 2048, 0, 16, 16, .rc, true, 0⟩
def T1S_SGnn_WAKE_MATCH : Field := ⟨0x90028, 2048, 0, 8, 8, .rc, false, 0⟩
def T1S_SGnn_WAKE_NOMATCH : Field := ⟨0x90028, 2048, 0, 0, 8, .rc, false, 0⟩
def FLD_CANnn_STAT_STATE : Field := ⟨0xa0000, 1024, 0, 29, 3, .ro, true, 0⟩
def FLD_CANnn_STAT_CANCELLING : Field := ⟨0xa0000, 1024, 0, 28, 1, .ro, true, 0⟩
def FLD_CANnn_STAT_CONTAINED : Field := ⟨0xa0000, 1024, 0, 27, 1, .ro, true, 0⟩
def FLD_CANnn_STAT_XCVR_ERR : Field := ⟨0xa0000, 1024, 0, 26, 1, .ro, true, 0⟩
def FLD_CANnn_STAT_REC : Field := ⟨0xa0000, 1024, 0, 16, 8, .ro, true, 0⟩
def FLD_CANnn_STAT_TEC : Field := ⟨0xa0000, 1024, 0, 0, 9, .ro, true, 0⟩
def FLD_CANnn_RX_COUNT : Field := ⟨0xa0004, 1024, 0, 0, 32, .ro, true, 0⟩
def FLD_CANnn_TX_COUNT : Field := ⟨0xa0008, 1024, 0, 0, 32, .ro, true, 0⟩
def FLD_CANnn_ERR_ERRORS : Field := ⟨0xa000c, 1024, 0, 16, 16, .rc, true, 0⟩
def FLD_CANnn_ERR_BUSOFF : Field := ⟨0xa000c, 1024, 0, 8, 8, .rc, true, 0⟩
def FLD_CANnn_ERR_RETRY_DROP : Field := ⟨0xa000c, 1024, 0, 0, 8, .rc, true, 0⟩
def FLD_CANnn_DROP_FILTERED : Field := ⟨0xa0010, 1024, 0, 16, 16, .rc, true, 0⟩
def FLD_CANnn_DROP_OVERFLOW : Field := ⟨0xa0010, 1024, 0, 0, 16, .rc, true, 0⟩
def FLD_CANnn_GUARD_CANCEL : Field := ⟨0xa0014, 1024, 0, 16, 16, .rc, true, 0⟩
def FLD_CANnn_GUARD_XL_DROP : Field := ⟨0xa0014, 1024, 0, 8, 8, .rc, true, 0⟩
def FLD_CANnn_GUARD_COLLIDE : Field := ⟨0xa0014, 1024, 0, 4, 4, .rc, true, 0⟩
def FLD_CANnn_GUARD_MISSED : Field := ⟨0xa0014, 1024, 0, 0, 4, .rc, true, 0⟩
def FLD_CANnn_BABBLE_DROPPED : Field := ⟨0xa0018, 1024, 0, 16, 16, .rc, true, 0⟩
def FLD_CANnn_BABBLE_CONTAINS : Field := ⟨0xa0018, 1024, 0, 0, 16, .rc, true, 0⟩
def FLD_CANnn_LOAD_FRAMES : Field := ⟨0xa001c, 1024, 0, 16, 16, .ro, true, 0⟩
def FLD_CANnn_LOAD_LOAD : Field := ⟨0xa001c, 1024, 0, 0, 10, .ro, true, 0⟩
def FLD_LINnn_STAT_MODE : Field := ⟨0xb8000, 256, 0, 30, 2, .ro, true, 0⟩
def FLD_LINnn_STAT_ASLEEP : Field := ⟨0xb8000, 256, 0, 29, 1, .ro, true, 0⟩
def FLD_LINnn_STAT_CONTAINED : Field := ⟨0xb8000, 256, 0, 28, 1, .ro, true, 0⟩
def FLD_LINnn_STAT_XCVR_ERR : Field := ⟨0xb8000, 256, 0, 27, 1, .ro, true, 0⟩
def FLD_LINnn_STAT_TABLE : Field := ⟨0xb8000, 256, 0, 20, 4, .ro, true, 0⟩
def FLD_LINnn_STAT_SLOT : Field := ⟨0xb8000, 256, 0, 14, 6, .ro, true, 0⟩
def FLD_LINnn_FRAMES_COUNT : Field := ⟨0xb8004, 256, 0, 0, 32, .ro, true, 0⟩
def FLD_LINnn_ERR_NORESP : Field := ⟨0xb8008, 256, 0, 24, 8, .rc, true, 0⟩
def FLD_LINnn_ERR_CHECKSUM : Field := ⟨0xb8008, 256, 0, 16, 8, .rc, true, 0⟩
def FLD_LINnn_ERR_FRAMING : Field := ⟨0xb8008, 256, 0, 8, 8, .rc, true, 0⟩
def FLD_LINnn_ERR_COLLISION : Field := ⟨0xb8008, 256, 0, 0, 8, .rc, true, 0⟩
def FLD_LINnn_BABBLE_DROPPED : Field := ⟨0xb800c, 256, 0, 16, 16, .rc, true, 0⟩
def FLD_LINnn_BABBLE_CONTAINS : Field := ⟨0xb800c, 256, 0, 0, 16, .rc, true, 0⟩
def FLD_SBS_STAT_FAULT : Field := ⟨0xbb000, 0, 0, 31, 1, .ro, true, 0⟩
def FLD_SBS_STAT_BAD : Field := ⟨0xbb000, 0, 0, 16, 8, .rc, true, 0⟩
def FLD_SBS_STAT_SCANS : Field := ⟨0xbb000, 0, 0, 0, 16, .ro, true, 0⟩
def FLD_SBS_INn_IN : Field := ⟨0xbb010, 4, 0, 0, 32, .ro, true, 0⟩
def FLD_SBS_OUTn_OUT : Field := ⟨0xbb030, 4, 0, 0, 32, .ro, true, 0⟩
def FLD_WAKE_STAT_MATCH : Field := ⟨0xbb050, 0, 0, 16, 16, .rc, true, 0⟩
def FLD_WAKE_STAT_LAST : Field := ⟨0xbb050, 0, 0, 8, 8, .ro, true, 0⟩
def SIG_COUNT_SIGNALS : Field := ⟨0xd0000, 0, 0, 0, 17, .ro, true, 0⟩
def SIG_PDU_COUNT_FRAME_ROUTES : Field := ⟨0xd0004, 0, 0, 16, 13, .ro, true, 0⟩
def SIG_PDU_COUNT_PDUS : Field := ⟨0xd0004, 0, 0, 0, 14, .ro, true, 0⟩
def SIG_E2E_ERR_CRC : Field := ⟨0xd0010, 0, 0, 16, 16, .rc, true, 0⟩
def SIG_E2E_ERR_REPEAT : Field := ⟨0xd0010, 0, 0, 0, 16, .rc, true, 0⟩
def SIG_E2E_GAP_COUNT : Field := ⟨0xd0014, 0, 0, 0, 32, .rc, true, 0⟩
def SIG_AUTH_ERR_VERIFY : Field := ⟨0xd0018, 0, 0, 16, 16, .rc, true, 0⟩
def SIG_AUTH_ERR_KEY : Field := ⟨0xd0018, 0, 0, 8, 8, .rc, true, 0⟩
def SIG_AUTH_ERR_SYNC : Field := ⟨0xd0018, 0, 0, 0, 8, .rc, true, 0⟩
def SIG_CLAMP_COUNT : Field := ⟨0xd001c, 0, 0, 0, 32, .rc, true, 0⟩
def SIG_STALE_READ_COUNT : Field := ⟨0xd0020, 0, 0, 0, 32, .rc, true, 0⟩
def SIG_HOST_BUSY_COUNT : Field := ⟨0xd0024, 0, 0, 0, 32, .rc, true, 0⟩
def SIG_MERGED_COUNT : Field := ⟨0xd0028, 0, 0, 0, 32, .rc, true, 0⟩
def SIG_RX_DISCARD_UNKNOWN : Field := ⟨0xd002c, 0, 0, 16, 16, .rc, true, 0⟩
def SIG_RX_DISCARD_LENGTH : Field := ⟨0xd002c, 0, 0, 0, 16, .rc, true, 0⟩
def SIG_ROUTE_DROP_FORMAT : Field := ⟨0xd0030, 0, 0, 16, 16, .rc, true, 0⟩
def SIG_ROUTE_DROP_TUNNEL : Field := ⟨0xd0030, 0, 0, 8, 8, .rc, true, 0⟩
def SIG_ROUTE_DROP_EXCESS : Field := ⟨0xd0030, 0, 0, 0, 8, .rc, true, 0⟩
def SIG_ACF_STAT_SENT : Field := ⟨0xd0040, 0, 0, 16, 16, .ro, true, 0⟩
def SIG_ACF_STAT_GAP : Field := ⟨0xd0040, 0, 0, 8, 8, .rc, true, 0⟩
def SIG_ACF_STAT_SKIPPED : Field := ⟨0xd0040, 0, 0, 0, 8, .rc, true, 0⟩
def SIG_LATE_MAX_NS : Field := ⟨0xd0044, 0, 0, 0, 32, .rc, true, 0⟩
def SIG_LOADn_PEAK : Field := ⟨0xd0100, 4, 0, 8, 8, .rc, true, 0⟩
def SIG_LOADn_DECLARED : Field := ⟨0xd0100, 4, 0, 0, 8, .ro, true, 0⟩
def GRV_GVn_STAT_STATE : Field := ⟨0xc0000, 256, 0, 30, 2, .ro, true, 0⟩
def GRV_GVn_STAT_IMAGE : Field := ⟨0xc0000, 256, 0, 16, 8, .ro, true, 255⟩
def GRV_GVn_STAT_BUSY : Field := ⟨0xc0000, 256, 0, 8, 8, .ro, true, 0⟩
def GRV_GVn_STAT_STALLED : Field := ⟨0xc0000, 256, 0, 0, 8, .ro, true, 0⟩
def GRV_GVn_EVENTS_COUNT : Field := ⟨0xc0004, 256, 0, 0, 32, .ro, true, 0⟩
def GRV_GVn_FAULT_CODE : Field := ⟨0xc0008, 256, 0, 28, 4, .ro, true, 0⟩
def GRV_GVn_FAULT_CTX : Field := ⟨0xc0008, 256, 0, 25, 3, .ro, true, 0⟩
def GRV_GVn_FAULT_KIND : Field := ⟨0xc0008, 256, 0, 20, 4, .ro, true, 0⟩
def GRV_GVn_FAULT_PC : Field := ⟨0xc0008, 256, 0, 0, 14, .ro, true, 0⟩
def GRV_GVn_FCNT_FAULTS : Field := ⟨0xc000c, 256, 0, 16, 16, .rc, true, 0⟩
def GRV_GVn_FCNT_FENCES : Field := ⟨0xc000c, 256, 0, 8, 8, .rc, true, 0⟩
def GRV_GVn_MISC_ENDREL : Field := ⟨0xc0010, 256, 0, 16, 16, .rc, true, 0⟩
def GRV_GVn_MISC_NOVEC : Field := ⟨0xc0010, 256, 0, 8, 8, .rc, true, 0⟩
def GRV_GVn_MISC_MSGFULL : Field := ⟨0xc0010, 256, 0, 0, 8, .rc, true, 0⟩
def GRV_GVn_ECC_CORR : Field := ⟨0xc0014, 256, 0, 16, 16, .rc, true, 0⟩
def GRV_GVn_PEND_HIGH : Field := ⟨0xc0018, 256, 0, 16, 16, .rc, true, 0⟩
def GRV_GVn_PEND_MSG : Field := ⟨0xc0018, 256, 0, 0, 6, .ro, true, 0⟩
def GRV_CFG_BUDGET : Field := ⟨0xc1000, 0, 0, 16, 16, .ro, true, 0⟩
def GRV_CFG_FAULT_LIMIT : Field := ⟨0xc1000, 0, 0, 8, 8, .ro, true, 0⟩
def GRV_CFG_HOOKS : Field := ⟨0xc1000, 0, 0, 0, 8, .ro, true, 0⟩
def CTL_CCn_STAT_STATE : Field := ⟨0xe0000, 256, 0, 29, 3, .ro, true, 0⟩
def CTL_CCn_STAT_UNVERIFIED : Field := ⟨0xe0000, 256, 0, 28, 1, .ro, true, 0⟩
def CTL_CCn_STAT_DEBUG : Field := ⟨0xe0000, 256, 0, 27, 1, .ro, true, 0⟩
def CTL_CCn_STAT_SELFTEST_FAIL : Field := ⟨0xe0000, 256, 0, 26, 1, .ro, true, 0⟩
def CTL_CCn_STAT_SLOT : Field := ⟨0xe0000, 256, 0, 16, 4, .ro, true, 0⟩
def CTL_CCn_STAT_WINDOW : Field := ⟨0xe0000, 256, 0, 0, 5, .ro, true, 0⟩
def CTL_CCn_COMMITS_COUNT : Field := ⟨0xe0004, 256, 0, 0, 32, .ro, true, 0⟩
def CTL_CCn_RERUN_RERUNS : Field := ⟨0xe0008, 256, 0, 16, 16, .rc, true, 0⟩
def CTL_CCn_RERUN_SLOT : Field := ⟨0xe0008, 256, 0, 4, 4, .ro, true, 0⟩
def CTL_CCn_RERUN_CAUSE : Field := ⟨0xe0008, 256, 0, 0, 4, .ro, true, 0⟩
def CTL_CCn_FENCE_FENCES : Field := ⟨0xe000c, 256, 0, 24, 8, .rc, true, 0⟩
def CTL_CCn_FENCE_SLOT : Field := ⟨0xe000c, 256, 0, 16, 4, .ro, true, 0⟩
def CTL_CCn_FENCE_CAUSE : Field := ⟨0xe000c, 256, 0, 0, 4, .ro, true, 0⟩
def CTL_CCn_SLICE_MAX_CYCLES : Field := ⟨0xe0010, 256, 0, 0, 32, .rc, true, 0⟩
def CTL_CCn_SKIP_COUNT : Field := ⟨0xe0014, 256, 0, 0, 32, .rc, true, 0⟩
def CTL_CCn_ECC_CORR : Field := ⟨0xe0018, 256, 0, 16, 16, .rc, true, 0⟩
def CTL_CCn_ECC_HELD : Field := ⟨0xe0018, 256, 0, 0, 5, .ro, true, 0⟩
def CTL_CCn_CFG_SLOTS : Field := ⟨0xe0020, 256, 0, 24, 5, .ro, true, 0⟩
def CTL_CCn_CFG_MAJOR_US : Field := ⟨0xe0020, 256, 0, 0, 20, .ro, true, 0⟩
def CTL_SELFTEST_TESTED : Field := ⟨0xe1000, 0, 0, 4, 4, .ro, true, 0⟩
def CTL_SELFTEST_PASSED : Field := ⟨0xe1000, 0, 0, 0, 4, .ro, true, 0⟩
def CTL_DEBUG_OPEN : Field := ⟨0xe1004, 0, 0, 0, 4, .ro, true, 0⟩
def KEY_LC_PENDING : Field := ⟨0x100000, 0, 0, 4, 4, .ro, false, 0⟩
def KEY_LC_STATE : Field := ⟨0x100000, 0, 0, 0, 4, .ro, false, 0⟩
def KEY_UIDn_UID : Field := ⟨0x100010, 4, 0, 0, 32, .ro, false, 0⟩
def KEY_TAMPER_STAT_LEVEL : Field := ⟨0x100020, 0, 0, 30, 2, .ro, false, 0⟩
def KEY_TAMPER_STAT_LATCHED : Field := ⟨0x100020, 0, 0, 16, 6, .ro, false, 0⟩
def KEY_TAMPER_STAT_ACTIVE : Field := ⟨0x100020, 0, 0, 0, 6, .ro, false, 0⟩
def KEY_TAMPER_CNT_DETECT : Field := ⟨0x100024, 0, 0, 16, 16, .rc, false, 0⟩
def KEY_TAMPER_CNT_RELEASE : Field := ⟨0x100024, 0, 0, 0, 16, .rc, false, 0⟩
def KEY_USE_DENIED_COUNT : Field := ⟨0x100028, 0, 0, 0, 32, .rc, true, 0⟩
def KEY_UPD_CNT_REFUSED : Field := ⟨0x10002c, 0, 0, 16, 16, .rc, true, 0⟩
def KEY_UPD_CNT_DONE : Field := ⟨0x10002c, 0, 0, 0, 16, .rc, true, 0⟩
def KEY_SLOTS_BLOCKED : Field := ⟨0x100030, 0, 0, 24, 8, .ro, true, 0⟩
def KEY_SLOTS_VOLATILE : Field := ⟨0x100030, 0, 0, 16, 8, .ro, true, 0⟩
def KEY_SLOTS_PERSISTENT : Field := ⟨0x100030, 0, 0, 0, 9, .ro, true, 0⟩
def KEY_CMD_LENGTH : Field := ⟨0x100100, 0, 0, 16, 16, .wo, false, 0⟩
def KEY_CMD_CODE : Field := ⟨0x100100, 0, 0, 0, 8, .wo, false, 0⟩
def KEY_CMD_STAT_LENGTH : Field := ⟨0x100104, 0, 0, 16, 16, .ro, true, 0⟩
def KEY_CMD_STAT_CODE : Field := ⟨0x100104, 0, 0, 8, 8, .ro, true, 0⟩
def KEY_CMD_STAT_STATUS : Field := ⟨0x100104, 0, 0, 0, 8, .ro, true, 0⟩
def CIP_STAT_BULK_Q : Field := ⟨0xf0000, 0, 0, 16, 9, .ro, true, 0⟩
def CIP_STAT_RSV_Q : Field := ⟨0xf0000, 0, 0, 8, 8, .ro, true, 0⟩
def CIP_STAT_PAIRS : Field := ⟨0xf0000, 0, 0, 0, 8, .ro, true, 0⟩
def CIP_PAIRn_REQ_COUNT : Field := ⟨0xf0010, 16, 0, 0, 32, .ro, true, 0⟩
def CIP_PAIRn_ERR_MISMATCH : Field := ⟨0xf0014, 16, 0, 16, 16, .rc, true, 0⟩
def CIP_PAIRn_ERR_KAT_FAIL : Field := ⟨0xf0014, 16, 0, 8, 8, .rc, true, 0⟩
def CIP_PAIRn_ERR_FAULTS : Field := ⟨0xf0014, 16, 0, 0, 8, .rc, true, 0⟩
def CIP_DENIED_DENIED : Field := ⟨0xf0050, 0, 0, 16, 16, .rc, true, 0⟩
def CIP_DENIED_ABSENT : Field := ⟨0xf0050, 0, 0, 0, 16, .rc, true, 0⟩
def CIP_VERIFY_FAIL_COUNT : Field := ⟨0xf0054, 0, 0, 0, 32, .rc, true, 0⟩
def CIP_JOB_DROP_VERIFY : Field := ⟨0xf0058, 0, 0, 16, 16, .rc, true, 0⟩
def CIP_JOB_DROP_OTHER : Field := ⟨0xf0058, 0, 0, 0, 16, .rc, true, 0⟩
def CIP_WINw_CMD_GO : Field := ⟨0xf0100, 16, 0, 0, 1, .wo, false, 0⟩
def CIP_WINw_STAT_REFUSED : Field := ⟨0xf0104, 16, 0, 8, 8, .rc, true, 0⟩
def CIP_WINw_STAT_STATUS : Field := ⟨0xf0104, 16, 0, 0, 8, .ro, true, 0⟩
def CIP_MSpp_STAT_EN : Field := ⟨0xfc000, 256, 0, 31, 1, .ro, true, 0⟩
def CIP_MSpp_STAT_TX_SA : Field := ⟨0xfc000, 256, 0, 30, 1, .ro, true, 0⟩
def CIP_MSpp_STAT_TX_AN : Field := ⟨0xfc000, 256, 0, 28, 2, .ro, true, 0⟩
def CIP_MSpp_STAT_RX_SAS : Field := ⟨0xfc000, 256, 0, 0, 6, .ro, true, 0⟩
def CIP_MSpp_TX_COUNT : Field := ⟨0xfc004, 256, 0, 0, 32, .ro, true, 0⟩
def CIP_MSpp_TXDROP_NO_SA : Field := ⟨0xfc008, 256, 0, 16, 16, .rc, true, 0⟩
def CIP_MSpp_TXDROP_PN_EXH : Field := ⟨0xfc008, 256, 0, 8, 8, .rc, true, 0⟩
def CIP_MSpp_TXDROP_OVERSIZE : Field := ⟨0xfc008, 256, 0, 0, 8, .rc, true, 0⟩
def CIP_MSpp_RX_COUNT : Field := ⟨0xfc00c, 256, 0, 0, 32, .ro, true, 0⟩
def CIP_MSpp_RXERR_ICV : Field := ⟨0xfc010, 256, 0, 16, 16, .rc, true, 0⟩
def CIP_MSpp_RXERR_REPLAY : Field := ⟨0xfc010, 256, 0, 8, 8, .rc, true, 0⟩
def CIP_MSpp_RXERR_NO_SA : Field := ⟨0xfc010, 256, 0, 0, 8, .rc, true, 0⟩
def SLP_STAT_MEMBER : Field := ⟨0x110000, 0, 0, 24, 6, .ro, true, 0⟩
def SLP_STAT_RING : Field := ⟨0x110000, 0, 0, 16, 2, .ro, true, 0⟩
def SLP_STAT_ORIGINATOR : Field := ⟨0x110000, 0, 0, 8, 1, .ro, true, 0⟩
def SLP_STAT_NET_STATE : Field := ⟨0x110000, 0, 0, 0, 2, .ro, true, 0⟩
def SLP_GROUP_AWAKE_AWAKE : Field := ⟨0x110004, 0, 0, 0, 32, .ro, true, 0⟩
def SLP_DEMAND_DEMAND : Field := ⟨0x110008, 0, 0, 0, 32, .ro, true, 0⟩
def SLP_HOST_DEMAND_DEMAND : Field := ⟨0x11000c, 0, 0, 0, 32, .rw, true, 0⟩
def SLP_CONFIRMING_GROUPS : Field := ⟨0x110010, 0, 0, 0, 32, .ro, true, 0⟩
def SLP_RING_EPOCH_EPOCH : Field := ⟨0x110014, 0, 0, 0, 32, .ro, true, 0⟩
def SLP_RING_POS_ROUND : Field := ⟨0x110018, 0, 0, 16, 16, .ro, true, 0⟩
def SLP_RING_POS_VETO : Field := ⟨0x110018, 0, 0, 2, 1, .ro, true, 0⟩
def SLP_RING_POS_CIRCUIT : Field := ⟨0x110018, 0, 0, 0, 2, .ro, true, 0⟩
def SLP_WAKE_LATCH_LATE : Field := ⟨0x110020, 0, 0, 30, 1, .w1c, false, 0⟩
def SLP_WAKE_LATCH_SIGNAL : Field := ⟨0x110020, 0, 0, 29, 1, .w1c, false, 0⟩
def SLP_WAKE_LATCH_HOST : Field := ⟨0x110020, 0, 0, 28, 1, .w1c, false, 0⟩
def SLP_WAKE_LATCH_LINK : Field := ⟨0x110020, 0, 0, 27, 1, .w1c, false, 0⟩
def SLP_WAKE_LATCH_LIN : Field := ⟨0x110020, 0, 0, 26, 1, .w1c, false, 0⟩
def SLP_WAKE_LATCH_CAN_SEL : Field := ⟨0x110020, 0, 0, 25, 1, .w1c, false, 0⟩
def SLP_WAKE_LATCH_TIMER : Field := ⟨0x110020, 0, 0, 24, 1, .w1c, false, 0⟩
def SLP_WAKE_LATCH_T1S : Field := ⟨0x110020, 0, 0, 8, 16, .w1c, false, 0⟩
def SLP_WAKE_LATCH_WAKE_IN : Field := ⟨0x110020, 0, 0, 0, 8, .w1c, false, 0⟩
def SLP_WAKE_GROUPS_GROUPS : Field := ⟨0x110024, 0, 0, 0, 32, .w1c, false, 0⟩
def SLP_WAKE_CNT_WAKES : Field := ⟨0x110030, 0, 0, 16, 16, .rc, false, 0⟩
def SLP_WAKE_CNT_LATE : Field := ⟨0x110030, 0, 0, 0, 16, .rc, false, 0⟩
def SLP_ROUND_CNT_COMMITS : Field := ⟨0x110034, 0, 0, 16, 16, .rc, true, 0⟩
def SLP_ROUND_CNT_VETOES : Field := ⟨0x110034, 0, 0, 0, 16, .rc, true, 0⟩
def SLP_FALSE_CNT_FALSE : Field := ⟨0x110038, 0, 0, 16, 16, .rc, false, 0⟩
def SLP_FALSE_CNT_CONFIRMED : Field := ⟨0x110038, 0, 0, 0, 16, .rc, false, 0⟩
def SLP_RING_CNT_LOSS : Field := ⟨0x11003c, 0, 0, 16, 16, .rc, true, 0⟩
def SLP_RING_CNT_REGEN : Field := ⟨0x11003c, 0, 0, 8, 8, .rc, true, 0⟩
def SLP_RING_CNT_DISCARD : Field := ⟨0x11003c, 0, 0, 0, 8, .rc, true, 0⟩
def PRF_STAT_ROOT_EQUAL : Field := ⟨0x120000, 0, 0, 16, 1, .ro, true, 0⟩
def PRF_STAT_NODES : Field := ⟨0x120000, 0, 0, 0, 13, .ro, true, 0⟩
def PRF_EPOCH_EPOCH : Field := ⟨0x120004, 0, 0, 0, 32, .ro, true, 0⟩
def PRF_CNT_A_MATCH : Field := ⟨0x120008, 0, 0, 16, 13, .ro, true, 0⟩
def PRF_CNT_A_COMPATIBLE : Field := ⟨0x120008, 0, 0, 0, 13, .ro, true, 0⟩
def PRF_CNT_B_MISMATCH : Field := ⟨0x12000c, 0, 0, 16, 13, .ro, true, 0⟩
def PRF_CNT_B_SILENT : Field := ⟨0x12000c, 0, 0, 0, 13, .ro, true, 0⟩
def PRF_CHANGES_COUNT : Field := ⟨0x120010, 0, 0, 0, 32, .rc, true, 0⟩
def PRF_DESCENT_DIFFER : Field := ⟨0x120014, 0, 0, 16, 16, .rc, true, 0⟩
def PRF_DESCENT_RANGES : Field := ⟨0x120014, 0, 0, 0, 16, .rc, true, 0⟩
def PRF_MERGE_ACCEPTED : Field := ⟨0x120018, 0, 0, 16, 16, .rc, true, 0⟩
def PRF_MERGE_IGNORED : Field := ⟨0x120018, 0, 0, 0, 16, .rc, true, 0⟩
def PRF_LINK_AUTH_TAG : Field := ⟨0x120020, 0, 0, 16, 16, .rc, true, 0⟩
def PRF_LINK_AUTH_REPLAY : Field := ⟨0x120020, 0, 0, 0, 16, .rc, true, 0⟩
def PRF_LINK_DROP_FORMAT : Field := ⟨0x120024, 0, 0, 16, 16, .rc, true, 0⟩
def PRF_LINK_DROP_EPOCH : Field := ⟨0x120024, 0, 0, 0, 16, .rc, true, 0⟩
def PRF_RR_READS : Field := ⟨0x120030, 0, 0, 16, 16, .rc, true, 0⟩
def PRF_RR_RETRIES : Field := ⟨0x120030, 0, 0, 8, 8, .rc, true, 0⟩
def PRF_RR_FAILS : Field := ⟨0x120030, 0, 0, 0, 8, .rc, true, 0⟩
def PRF_RW_WRITES : Field := ⟨0x120034, 0, 0, 16, 16, .rc, true, 0⟩
def PRF_RW_RETRIES : Field := ⟨0x120034, 0, 0, 8, 8, .rc, true, 0⟩
def PRF_RW_FAILS : Field := ⟨0x120034, 0, 0, 0, 8, .rc, true, 0⟩
def PRF_TUNNEL_SENT : Field := ⟨0x120038, 0, 0, 16, 16, .ro, true, 0⟩
def PRF_TUNNEL_REFUSED : Field := ⟨0x120038, 0, 0, 0, 16, .rc, true, 0⟩
def PRF_SNAP_SENT : Field := ⟨0x12003c, 0, 0, 16, 16, .ro, true, 0⟩
def PRF_SNAP_INCOMPLETE : Field := ⟨0x12003c, 0, 0, 0, 16, .rc, true, 0⟩
def HST_STAT_PCIE_LINK : Field := ⟨0x130000, 0, 0, 31, 1, .ro, true, 0⟩
def HST_STAT_PCIE_SPEED : Field := ⟨0x130000, 0, 0, 28, 3, .ro, true, 0⟩
def HST_STAT_PCIE_WIDTH : Field := ⟨0x130000, 0, 0, 26, 2, .ro, true, 0⟩
def HST_STAT_XSPI_EN : Field := ⟨0x130000, 0, 0, 25, 1, .ro, true, 0⟩
def HST_PERMi_PERM : Field := ⟨0x130004, 4, 0, 0, 9, .ro, true, 0⟩
def HST_WSTATi_STATUS : Field := ⟨0x130010, 4, 0, 24, 8, .ro, true, 0⟩
def HST_WSTATi_COUNT : Field := ⟨0x130010, 4, 0, 16, 8, .rc, true, 0⟩
def HST_WSTATi_ADDR : Field := ⟨0x130010, 4, 0, 0, 16, .ro, true, 0⟩
def HST_IRQ_VECTOR : Field := ⟨0x130020, 0, 0, 8, 6, .ro, true, 0⟩
def HST_IRQ_REMOTE : Field := ⟨0x130020, 0, 0, 3, 1, .w1c, true, 0⟩
def HST_IRQ_UNCLAIMED : Field := ⟨0x130020, 0, 0, 2, 1, .w1c, true, 0⟩
def HST_IRQ_WSTAT : Field := ⟨0x130020, 0, 0, 1, 1, .w1c, true, 0⟩
def HST_IRQ_STAGE : Field := ⟨0x130020, 0, 0, 0, 1, .w1c, true, 0⟩
def HST_STASH_STAT_UNCLAIMED : Field := ⟨0x130024, 0, 0, 24, 8, .rc, true, 0⟩
def HST_STASH_STAT_REPEATS : Field := ⟨0x130024, 0, 0, 16, 8, .rc, true, 0⟩
def HST_STASH_STAT_USED_XSPI : Field := ⟨0x130024, 0, 0, 8, 8, .ro, true, 0⟩
def HST_STASH_STAT_USED_PCIE : Field := ⟨0x130024, 0, 0, 0, 8, .ro, true, 0⟩
def HST_XSPI_TPAGE_PAGE : Field := ⟨0x130028, 0, 0, 0, 3, .rw, true, 0⟩
def HST_SNAP_PAGE_PAGE : Field := ⟨0x13002c, 0, 0, 0, 4, .rw, true, 0⟩
def HST_HQnn_CTRL_EN : Field := ⟨0x131000, 64, 0, 31, 1, .rw, true, 0⟩
def HST_HQnn_CTRL_MODE : Field := ⟨0x131000, 64, 0, 30, 1, .rw, true, 0⟩
def HST_HQnn_CTRL_RING_LOG2 : Field := ⟨0x131000, 64, 0, 16, 4, .rw, true, 0⟩
def HST_HQnn_CTRL_VECTOR : Field := ⟨0x131000, 64, 0, 8, 6, .ro, true, 0⟩
def HST_HQnn_CTRL_TO_INT : Field := ⟨0x131000, 64, 0, 1, 1, .rw, true, 0⟩
def HST_HQnn_CTRL_CPL_INT : Field := ⟨0x131000, 64, 0, 0, 1, .rw, true, 0⟩
def HST_HQnn_BASE_LO_ADDR : Field := ⟨0x131004, 64, 0, 12, 20, .rw, true, 0⟩
def HST_HQnn_BASE_HI_ADDR : Field := ⟨0x131008, 64, 0, 0, 32, .rw, true, 0⟩
def HST_HQnn_DOORBELL_RING : Field := ⟨0x13100c, 64, 0, 30, 2, .wo, false, 0⟩
def HST_HQnn_DOORBELL_INDEX : Field := ⟨0x13100c, 64, 0, 0, 11, .wo, false, 0⟩
def HST_HQnn_PTRS_CPL_TAIL : Field := ⟨0x131010, 64, 0, 20, 11, .ro, true, 0⟩
def HST_HQnn_PTRS_RECV_HEAD : Field := ⟨0x131010, 64, 0, 10, 10, .ro, true, 0⟩
def HST_HQnn_PTRS_SEND_HEAD : Field := ⟨0x131010, 64, 0, 0, 10, .ro, true, 0⟩
def HST_HQnn_WAIT_TICKS : Field := ⟨0x131014, 64, 0, 0, 32, .rw, true, 0⟩
def HST_HQnn_STAT_CPL_FULL : Field := ⟨0x131018, 64, 0, 31, 1, .ro, true, 0⟩
def HST_HQnn_STAT_WAIT_ARMED : Field := ⟨0x131018, 64, 0, 30, 1, .ro, true, 0⟩
def HST_HQnn_STAT_LAST_WAIT : Field := ⟨0x131018, 64, 0, 28, 2, .ro, true, 0⟩
def HST_HQnn_CNT_SENT : Field := ⟨0x13101c, 64, 0, 16, 16, .rc, true, 0⟩
def HST_HQnn_CNT_TRUNC : Field := ⟨0x13101c, 64, 0, 8, 8, .rc, true, 0⟩
def HST_HQnn_CNT_REFUSED : Field := ⟨0x13101c, 64, 0, 0, 8, .rc, true, 0⟩
def HST_HQnn_POP_ITEM : Field := ⟨0x131020, 64, 0, 0, 32, .ro, true, 0⟩
def HST_HQnn_ACK_ACK : Field := ⟨0x131024, 64, 0, 0, 32, .wo, false, 0⟩
def PWR_STAT_DROOP : Field := ⟨0x10000, 0, 0, 30, 2, .ro, true, 0⟩
def PWR_STAT_THERM : Field := ⟨0x10000, 0, 0, 27, 3, .ro, true, 0⟩
def PWR_STAT_BROWNOUT : Field := ⟨0x10000, 0, 0, 26, 1, .ro, false, 0⟩
def PWR_STAT_SILENT : Field := ⟨0x10000, 0, 0, 25, 1, .ro, false, 0⟩
def PWR_STAT_FAULT : Field := ⟨0x10000, 0, 0, 24, 1, .ro, false, 0⟩
def PWR_DROOP_CNT_HALF : Field := ⟨0x10004, 0, 0, 16, 16, .rc, true, 0⟩
def PWR_DROOP_CNT_QUARTER : Field := ⟨0x10004, 0, 0, 0, 16, .rc, true, 0⟩
def PWR_VCORE_MIN_MV : Field := ⟨0x10008, 0, 0, 0, 16, .rc, true, 65535⟩
def PWR_TEMPn_MAX : Field := ⟨0x10010, 4, 0, 16, 16, .rc, true, 0⟩
def PWR_TEMPn_NOW : Field := ⟨0x10010, 4, 0, 0, 16, .ro, true, 0⟩
def PWR_SHED_CNT_COUNT : Field := ⟨0x10020, 0, 0, 0, 32, .rc, true, 0⟩
def PWR_HOLDUP_ENERGY : Field := ⟨0x10024, 0, 0, 12, 20, .ro, true, 0⟩
def PWR_HOLDUP_SENSE : Field := ⟨0x10024, 0, 0, 0, 12, .ro, true, 0⟩
def PWR_NVM_CNT_DONE : Field := ⟨0x10028, 0, 0, 16, 16, .rc, true, 0⟩
def PWR_NVM_CNT_REFUSED : Field := ⟨0x10028, 0, 0, 0, 16, .rc, true, 0⟩
def PWR_HEARTBEAT_KEY : Field := ⟨0x10030, 0, 0, 16, 16, .wo, false, 0⟩
def PWR_HEARTBEAT_CORE : Field := ⟨0x10030, 0, 0, 0, 4, .wo, false, 0⟩
def REC_STAT_FROZEN : Field := ⟨0x140000, 0, 0, 31, 1, .ro, true, 0⟩
def REC_STAT_FLUSHING : Field := ⟨0x140000, 0, 0, 30, 1, .ro, true, 0⟩
def REC_STAT_IMAGE : Field := ⟨0x140000, 0, 0, 29, 1, .ro, true, 0⟩
def REC_STAT_LOG : Field := ⟨0x140000, 0, 0, 0, 13, .ro, true, 0⟩
def REC_SEQ_SEQ : Field := ⟨0x140004, 0, 0, 0, 32, .ro, true, 0⟩
def REC_OPTIME_SECONDS : Field := ⟨0x140008, 0, 0, 0, 32, .ro, false, 0⟩
def REC_OPHOURS_HOURS : Field := ⟨0x14000c, 0, 0, 0, 32, .ro, false, 0⟩
def REC_PCYCLE_COUNT : Field := ⟨0x140010, 0, 0, 0, 32, .ro, false, 0⟩
def REC_CMD_KEY : Field := ⟨0x140020, 0, 0, 24, 8, .wo, false, 0⟩
def REC_CMD_CATEGORIES : Field := ⟨0x140020, 0, 0, 8, 4, .wo, false, 0⟩
def REC_CMD_CMD : Field := ⟨0x140020, 0, 0, 0, 2, .wo, false, 0⟩
def REC_CMD_STAT_FREEZE_LEFT : Field := ⟨0x140024, 0, 0, 8, 11, .ro, true, 0⟩
def REC_CMD_STAT_STATUS : Field := ⟨0x140024, 0, 0, 0, 8, .ro, true, 0⟩
def REC_FLUSH_CNT_DONE : Field := ⟨0x140028, 0, 0, 16, 16, .rc, true, 0⟩
def REC_FLUSH_CNT_RETRY : Field := ⟨0x140028, 0, 0, 8, 8, .rc, true, 0⟩
def REC_FLUSH_CNT_ABANDONED : Field := ⟨0x140028, 0, 0, 0, 8, .rc, false, 0⟩
def DBG_CCn_CTRL_KEY : Field := ⟨0x150000, 256, 0, 16, 16, .wo, false, 0⟩
def DBG_CCn_CTRL_CMD : Field := ⟨0x150000, 256, 0, 0, 2, .wo, false, 0⟩
def DBG_CCn_STAT_HALTED : Field := ⟨0x150004, 256, 0, 31, 1, .ro, true, 0⟩
def DBG_CCn_STAT_BP_HIT : Field := ⟨0x150004, 256, 0, 30, 1, .w1c, true, 0⟩
def DBG_CCn_STAT_PENDING : Field := ⟨0x150004, 256, 0, 29, 1, .ro, true, 0⟩
def DBG_CCn_PC_PC : Field := ⟨0x150008, 256, 0, 0, 32, .ro, true, 0⟩
def DBG_CCn_BP_ADDR : Field := ⟨0x15000c, 256, 0, 1, 31, .rw, true, 0⟩
def DBG_CCn_BP_EN : Field := ⟨0x15000c, 256, 0, 0, 1, .rw, true, 0⟩
def DBG_CCn_SEL_SPACE : Field := ⟨0x150010, 256, 0, 28, 4, .rw, true, 0⟩
def DBG_CCn_SEL_INDEX : Field := ⟨0x150010, 256, 0, 0, 28, .rw, true, 0⟩
def DBG_CCn_DATA_DATA : Field := ⟨0x150014, 256, 0, 0, 32, .ro, true, 0⟩

end F

/-- The registers of block SYS. -/
def regsSys : List RegD := [
  ⟨0x0, 1, 0, 1, 0, [F.SYS_ID_PART, F.SYS_ID_REV]⟩,
  ⟨0x4, 1, 0, 1, 0, [F.SYS_RST_CAUSE_PROTECT, F.SYS_RST_CAUSE_WAKE, F.SYS_RST_CAUSE_FENCE, F.SYS_RST_CAUSE_LIFECYCLE, F.SYS_RST_CAUSE_WDOG, F.SYS_RST_CAUSE_HOST_REQ, F.SYS_RST_CAUSE_WRST_PIN, F.SYS_RST_CAUSE_POR]⟩,
  ⟨0x8, 1, 0, 1, 0, [F.SYS_STRAP_BOOT_SEL]⟩,
  ⟨0xc, 1, 0, 1, 0, [F.SYS_BOOT_STAT_FAIL_COPY, F.SYS_BOOT_STAT_FAIL_CODE, F.SYS_BOOT_STAT_STAGED_TRY, F.SYS_BOOT_STAT_FALLBACK, F.SYS_BOOT_STAT_COPY, F.SYS_BOOT_STAT_STAGE]⟩,
  ⟨0x10, 1, 0, 1, 0, [F.SYS_PLATE_STATE_STATE]⟩,
  ⟨0x14, 1, 0, 1, 0, [F.SYS_PLATE_COMPAT_FROM]⟩,
  ⟨0x18, 1, 0, 1, 0, [F.SYS_FLOOR_FLOOR]⟩,
  ⟨0x1c, 1, 0, 1, 0, [F.SYS_BOOT_TIME_FULL_T, F.SYS_BOOT_TIME_EARLY_T]⟩,
  ⟨0x20, 1, 0, 1, 0, [F.SYS_LOCK_LOCK]⟩,
  ⟨0x24, 1, 0, 1, 0, [F.SYS_RST_REQ_KEY, F.SYS_RST_REQ_REQ]⟩,
  ⟨0x30, 1, 0, 1, 0, [F.SYS_STAGE_CTRL_COPY, F.SYS_STAGE_CTRL_CMD]⟩,
  ⟨0x34, 1, 0, 1, 0, [F.SYS_STAGE_ARG_ARG]⟩,
  ⟨0x38, 1, 0, 1, 0, [F.SYS_STAGE_STAT_VERIFY_CODE, F.SYS_STAGE_STAT_PENDING, F.SYS_STAGE_STAT_COPY, F.SYS_STAGE_STAT_SESSION, F.SYS_STAGE_STAT_STATUS]⟩]

/-- The registers of block TIME. -/
def regsTime : List RegD := [
  ⟨0x20000, 1, 0, 1, 0, [F.TIME_LOCAL_LO_NS]⟩,
  ⟨0x20004, 1, 0, 1, 0, [F.TIME_LOCAL_HI_NS]⟩,
  ⟨0x20008, 1, 0, 1, 0, [F.TIME_SHORT_LO_NS]⟩,
  ⟨0x2000c, 1, 0, 1, 0, [F.TIME_SHORT_HI_NS]⟩,
  ⟨0x20040, 4, 32, 1, 0, [F.TIME_Dn_STAT_SOURCE, F.TIME_Dn_STAT_SLAVE_PORT, F.TIME_Dn_STAT_EN, F.TIME_Dn_STAT_STATE]⟩,
  ⟨0x20044, 4, 32, 1, 0, [F.TIME_Dn_NS_NS]⟩,
  ⟨0x20048, 4, 32, 1, 0, [F.TIME_Dn_SEC_LO_SEC]⟩,
  ⟨0x2004c, 4, 32, 1, 0, [F.TIME_Dn_SEC_HI_SEC]⟩,
  ⟨0x20050, 4, 32, 1, 0, [F.TIME_Dn_RATE_PPB]⟩,
  ⟨0x20054, 4, 32, 1, 0, [F.TIME_Dn_ERR_ERR]⟩,
  ⟨0x20058, 4, 32, 1, 0, [F.TIME_Dn_CNT_STEPS, F.TIME_Dn_CNT_HOLDS]⟩,
  ⟨0x200c0, 1, 0, 1, 0, [F.TIME_PPS_IN_LO_NS]⟩,
  ⟨0x200c4, 1, 0, 1, 0, [F.TIME_PPS_IN_HI_NS]⟩,
  ⟨0x200c8, 1, 0, 1, 0, [F.TIME_PPS_STAT_REJECT, F.TIME_PPS_STAT_ACCEPT]⟩,
  ⟨0x20100, 1, 0, 1, 0, [F.TIME_TSPOOL_STAT_HIGH, F.TIME_TSPOOL_STAT_USED]⟩,
  ⟨0x20200, 32, 4, 1, 0, [F.TIME_PORTpp_TSF_POOL, F.TIME_PORTpp_TSF_FIFO]⟩,
  ⟨0x20280, 32, 4, 1, 0, [F.TIME_PORTpp_TSLOST_COUNT]⟩]

/-- The registers of block STP. -/
def regsStp : List RegD := [
  ⟨0x30000, 1, 0, 1, 0, [F.STP_STAT_SUSP, F.STP_STAT_ENABLED]⟩,
  ⟨0x30004, 1, 0, 1, 0, [F.STP_LATE_CNT_COUNT]⟩,
  ⟨0x30008, 1, 0, 1, 0, [F.STP_SKIP_CNT_COUNT]⟩,
  ⟨0x3000c, 1, 0, 1, 0, [F.STP_DEFER_CNT_COUNT]⟩,
  ⟨0x30010, 1, 0, 1, 0, [F.STP_REFUSE_CNT_COUNT]⟩,
  ⟨0x30020, 1, 0, 1, 0, [F.STP_SNAP_STAT_OVERRUN, F.STP_SNAP_STAT_LATCHED]⟩,
  ⟨0x30024, 1, 0, 1, 0, [F.STP_LATE_MAX_NS]⟩]

/-- The registers of block QM. -/
def regsQm : List RegD := [
  ⟨0x40000, 1, 0, 1, 0, [F.QM_BULK_FREE_FREE]⟩,
  ⟨0x40004, 1, 0, 1, 0, [F.QM_RSV_FREE_FREE]⟩,
  ⟨0x40008, 1, 0, 1, 0, [F.QM_BULK_LOW_LOW]⟩,
  ⟨0x4000c, 1, 0, 1, 0, [F.QM_DESC_FREE_FREE]⟩,
  ⟨0x40010, 1, 0, 1, 0, [F.QM_QE_FREE_FREE]⟩,
  ⟨0x40020, 1, 0, 1, 0, [F.QM_FLUSH_QUEUE]⟩,
  ⟨0x40024, 1, 0, 1, 0, [F.QM_FLUSH_STAT_BUSY, F.QM_FLUSH_STAT_REFUSED, F.QM_FLUSH_STAT_QUEUE]⟩,
  ⟨0x40030, 1, 0, 1, 0, [F.QM_DROP_THR_COUNT]⟩,
  ⟨0x40034, 1, 0, 1, 0, [F.QM_DROP_POOL_COUNT]⟩,
  ⟨0x40038, 1, 0, 1, 0, [F.QM_EVICT_CNT_COUNT]⟩,
  ⟨0x40040, 1, 0, 1, 0, [F.QM_POP_TIMEOUT_COUNT]⟩,
  ⟨0x40050, 1, 0, 1, 0, [F.QM_LEAK_CNT_DOUBLE, F.QM_LEAK_CNT_LEAK]⟩,
  ⟨0x40054, 1, 0, 1, 0, [F.QM_AUDIT_STAT_PASSES, F.QM_AUDIT_STAT_UNMARKED]⟩,
  ⟨0x40058, 1, 0, 1, 0, [F.QM_PAR_ERR_MEM, F.QM_PAR_ERR_COUNT, F.QM_PAR_ERR_INDEX]⟩,
  ⟨0x4005c, 1, 0, 1, 0, [F.QM_ECC_CORR_COUNT]⟩,
  ⟨0x40080, 1, 0, 1, 0, [F.QM_CFG_AUDIT_MS, F.QM_CFG_MARGIN]⟩,
  ⟨0x40100, 16, 4, 1, 0, [F.QM_PROFn_ALPHA, F.QM_PROFn_MIN]⟩]

/-- The registers of block FAB. -/
def regsFab : List RegD := [
  ⟨0x50000, 1, 0, 1, 0, [F.FAB_STAT_CLK_DIV, F.FAB_STAT_ROTOR]⟩,
  ⟨0x50010, 1, 0, 1, 0, [F.FAB_RSV_CNT_COUNT]⟩,
  ⟨0x50014, 1, 0, 1, 0, [F.FAB_CT_CNT_COUNT]⟩,
  ⟨0x50018, 1, 0, 1, 0, [F.FAB_STOMP_CNT_COUNT]⟩,
  ⟨0x5001c, 1, 0, 1, 0, [F.FAB_STAGE_DROP_COUNT]⟩,
  ⟨0x50100, 11, 8, 1, 0, [F.FAB_FNn_WR_CELLS]⟩,
  ⟨0x50104, 11, 8, 1, 0, [F.FAB_FNn_RD_CELLS]⟩,
  ⟨0x50180, 11, 4, 1, 0, [F.FAB_FNn_MISS_COUNT]⟩]

/-- The registers of block LKP. -/
def regsLkp : List RegD := [
  ⟨0x60000, 1, 0, 1, 0, [F.LKP_CFG_SWEEP_S]⟩,
  ⟨0x60004, 1, 0, 1, 0, [F.LKP_BURN_STAT_AGE_PASSES, F.LKP_BURN_STAT_SCRUB_PASSES]⟩,
  ⟨0x60008, 1, 0, 1, 0, [F.LKP_PAR_ERR_TABLE, F.LKP_PAR_ERR_PIPE, F.LKP_PAR_ERR_COUNT, F.LKP_PAR_ERR_INDEX]⟩,
  ⟨0x6000c, 1, 0, 1, 0, [F.LKP_RESTORE_PENDING, F.LKP_RESTORE_DONE]⟩,
  ⟨0x60100, 2, 128, 1, 0, [F.LKP_Pp_FDB_USED]⟩,
  ⟨0x60104, 2, 128, 1, 0, [F.LKP_Pp_LEARN_COUNT]⟩,
  ⟨0x60108, 2, 128, 1, 0, [F.LKP_Pp_LEARN_FAIL_FULL, F.LKP_Pp_LEARN_FAIL_RATE]⟩,
  ⟨0x6010c, 2, 128, 1, 0, [F.LKP_Pp_AGED_COUNT]⟩,
  ⟨0x60110, 2, 128, 1, 0, [F.LKP_Pp_MOVE_REFUSED, F.LKP_Pp_MOVE_MOVED]⟩,
  ⟨0x60114, 2, 128, 1, 0, [F.LKP_Pp_FLOOD_COUNT]⟩,
  ⟨0x60120, 2, 128, 16, 4, [F.LKP_Pp_DROPc_COUNT]⟩,
  ⟨0x60300, 33, 4, 1, 0, [F.LKP_CONTu_CHANGES, F.LKP_CONTu_QUIET, F.LKP_CONTu_LEVEL]⟩,
  ⟨0x60400, 1, 0, 1, 0, [F.LKP_GUARD_RELEASES, F.LKP_GUARD_CONTAINS]⟩,
  ⟨0x60404, 1, 0, 1, 0, [F.LKP_GUARD_NOW_CONTAINED]⟩]

/-- The registers of block MIR. -/
def regsMir : List RegD := [
  ⟨0x70000, 4, 16, 1, 0, [F.MIR_SESSn_STAT_ACTIVE, F.MIR_SESSn_STAT_REASON, F.MIR_SESSn_STAT_TRUNC, F.MIR_SESSn_STAT_DEST]⟩,
  ⟨0x70004, 4, 16, 1, 0, [F.MIR_SESSn_COPY_COUNT]⟩,
  ⟨0x70008, 4, 16, 1, 0, [F.MIR_SESSn_DROP_COUNT]⟩,
  ⟨0x70100, 2, 8, 1, 0, [F.MIR_SAMPLE_Pp_COUNT]⟩,
  ⟨0x70104, 2, 8, 1, 0, [F.MIR_SAMPLE_DROP_Pp_COUNT]⟩]

/-- The registers of block ETH. -/
def regsEth : List RegD := [
  ⟨0x80000, 16, 4096, 1, 0, [F.ETH_PORTpp_STAT_LINK, F.ETH_PORTpp_STAT_SPEED, F.ETH_PORTpp_STAT_VERIFY, F.ETH_PORTpp_STAT_PREEMPT_ACTIVE, F.ETH_PORTpp_STAT_PAUSED, F.ETH_PORTpp_STAT_PFC_PAUSED, F.ETH_PORTpp_STAT_XOFF, F.ETH_PORTpp_STAT_GATES]⟩,
  ⟨0x80010, 16, 4096, 1, 0, [F.ETH_PORTpp_RX_FRAMES_COUNT]⟩,
  ⟨0x80014, 16, 4096, 1, 0, [F.ETH_PORTpp_RX_ERR_FCS, F.ETH_PORTpp_RX_ERR_LENGTH]⟩,
  ⟨0x80018, 16, 4096, 1, 0, [F.ETH_PORTpp_RX_FILT_HASH, F.ETH_PORTpp_RX_FILT_ASM]⟩,
  ⟨0x80020, 16, 4096, 1, 0, [F.ETH_PORTpp_TX_FRAMES_COUNT]⟩,
  ⟨0x80024, 16, 4096, 1, 0, [F.ETH_PORTpp_TX_DROP_LINKDOWN, F.ETH_PORTpp_TX_DROP_OVERSIZE]⟩,
  ⟨0x80028, 16, 4096, 1, 0, [F.ETH_PORTpp_PAUSE_RX, F.ETH_PORTpp_PAUSE_TX]⟩,
  ⟨0x80030, 16, 4096, 1, 0, [F.ETH_PORTpp_QBV_OVERRUN, F.ETH_PORTpp_QBV_ENTRY]⟩,
  ⟨0x80f00, 16, 4096, 1, 0, [F.ETH_PORTpp_MDIO_CMD_BUSY, F.ETH_PORTpp_MDIO_CMD_ERR, F.ETH_PORTpp_MDIO_CMD_OP, F.ETH_PORTpp_MDIO_CMD_DEVAD, F.ETH_PORTpp_MDIO_CMD_REG]⟩,
  ⟨0x80f04, 16, 4096, 1, 0, [F.ETH_PORTpp_MDIO_DATA_DATA]⟩]

/-- The registers of block T1S. -/
def regsT1s : List RegD := [
  ⟨0x90000, 16, 2048, 1, 0, [F.T1S_SGnn_STAT_MODE, F.T1S_SGnn_STAT_PLCA_ACTIVE, F.T1S_SGnn_STAT_LOWPOWER, F.T1S_SGnn_STAT_HOLD, F.T1S_SGnn_STAT_NODE_ID, F.T1S_SGnn_STAT_NODE_COUNT]⟩,
  ⟨0x90010, 16, 2048, 1, 0, [F.T1S_SGnn_RX_FRAMES_COUNT]⟩,
  ⟨0x90014, 16, 2048, 1, 0, [F.T1S_SGnn_TX_FRAMES_COUNT]⟩,
  ⟨0x90018, 16, 2048, 1, 0, [F.T1S_SGnn_ERR_FCS, F.T1S_SGnn_ERR_LENGTH, F.T1S_SGnn_ERR_LINKDOWN]⟩,
  ⟨0x9001c, 16, 2048, 1, 0, [F.T1S_SGnn_COLL_COLLISIONS, F.T1S_SGnn_COLL_LATE, F.T1S_SGnn_COLL_EXCESS]⟩,
  ⟨0x90020, 16, 2048, 1, 0, [F.T1S_SGnn_PLCA_FALLBACK, F.T1S_SGnn_PLCA_CYCLES]⟩,
  ⟨0x90024, 16, 2048, 1, 0, [F.T1S_SGnn_ALIGN_LATE, F.T1S_SGnn_ALIGN_ALIGNED]⟩,
  ⟨0x90028, 16, 2048, 1, 0, [F.T1S_SGnn_WAKE_TX, F.T1S_SGnn_WAKE_MATCH, F.T1S_SGnn_WAKE_NOMATCH]⟩]

/-- The registers of block FLD. -/
def regsFld : List RegD := [
  ⟨0xa0000, 96, 1024, 1, 0, [F.FLD_CANnn_STAT_STATE, F.FLD_CANnn_STAT_CANCELLING, F.FLD_CANnn_STAT_CONTAINED, F.FLD_CANnn_STAT_XCVR_ERR, F.FLD_CANnn_STAT_REC, F.FLD_CANnn_STAT_TEC]⟩,
  ⟨0xa0004, 96, 1024, 1, 0, [F.FLD_CANnn_RX_COUNT]⟩,
  ⟨0xa0008, 96, 1024, 1, 0, [F.FLD_CANnn_TX_COUNT]⟩,
  ⟨0xa000c, 96, 1024, 1, 0, [F.FLD_CANnn_ERR_ERRORS, F.FLD_CANnn_ERR_BUSOFF, F.FLD_CANnn_ERR_RETRY_DROP]⟩,
  ⟨0xa0010, 96, 1024, 1, 0, [F.FLD_CANnn_DROP_FILTERED, F.FLD_CANnn_DROP_OVERFLOW]⟩,
  ⟨0xa0014, 96, 1024, 1, 0, [F.FLD_CANnn_GUARD_CANCEL, F.FLD_CANnn_GUARD_XL_DROP, F.FLD_CANnn_GUARD_COLLIDE, F.FLD_CANnn_GUARD_MISSED]⟩,
  ⟨0xa0018, 96, 1024, 1, 0, [F.FLD_CANnn_BABBLE_DROPPED, F.FLD_CANnn_BABBLE_CONTAINS]⟩,
  ⟨0xa001c, 96, 1024, 1, 0, [F.FLD_CANnn_LOAD_FRAMES, F.FLD_CANnn_LOAD_LOAD]⟩,
  ⟨0xb8000, 32, 256, 1, 0, [F.FLD_LINnn_STAT_MODE, F.FLD_LINnn_STAT_ASLEEP, F.FLD_LINnn_STAT_CONTAINED, F.FLD_LINnn_STAT_XCVR_ERR, F.FLD_LINnn_STAT_TABLE, F.FLD_LINnn_STAT_SLOT]⟩,
  ⟨0xb8004, 32, 256, 1, 0, [F.FLD_LINnn_FRAMES_COUNT]⟩,
  ⟨0xb8008, 32, 256, 1, 0, [F.FLD_LINnn_ERR_NORESP, F.FLD_LINnn_ERR_CHECKSUM, F.FLD_LINnn_ERR_FRAMING, F.FLD_LINnn_ERR_COLLISION]⟩,
  ⟨0xb800c, 32, 256, 1, 0, [F.FLD_LINnn_BABBLE_DROPPED, F.FLD_LINnn_BABBLE_CONTAINS]⟩,
  ⟨0xbb000, 1, 0, 1, 0, [F.FLD_SBS_STAT_FAULT, F.FLD_SBS_STAT_BAD, F.FLD_SBS_STAT_SCANS]⟩,
  ⟨0xbb010, 8, 4, 1, 0, [F.FLD_SBS_INn_IN]⟩,
  ⟨0xbb030, 8, 4, 1, 0, [F.FLD_SBS_OUTn_OUT]⟩,
  ⟨0xbb050, 1, 0, 1, 0, [F.FLD_WAKE_STAT_MATCH, F.FLD_WAKE_STAT_LAST]⟩]

/-- The registers of block SIG. -/
def regsSig : List RegD := [
  ⟨0xd0000, 1, 0, 1, 0, [F.SIG_COUNT_SIGNALS]⟩,
  ⟨0xd0004, 1, 0, 1, 0, [F.SIG_PDU_COUNT_FRAME_ROUTES, F.SIG_PDU_COUNT_PDUS]⟩,
  ⟨0xd0010, 1, 0, 1, 0, [F.SIG_E2E_ERR_CRC, F.SIG_E2E_ERR_REPEAT]⟩,
  ⟨0xd0014, 1, 0, 1, 0, [F.SIG_E2E_GAP_COUNT]⟩,
  ⟨0xd0018, 1, 0, 1, 0, [F.SIG_AUTH_ERR_VERIFY, F.SIG_AUTH_ERR_KEY, F.SIG_AUTH_ERR_SYNC]⟩,
  ⟨0xd001c, 1, 0, 1, 0, [F.SIG_CLAMP_COUNT]⟩,
  ⟨0xd0020, 1, 0, 1, 0, [F.SIG_STALE_READ_COUNT]⟩,
  ⟨0xd0024, 1, 0, 1, 0, [F.SIG_HOST_BUSY_COUNT]⟩,
  ⟨0xd0028, 1, 0, 1, 0, [F.SIG_MERGED_COUNT]⟩,
  ⟨0xd002c, 1, 0, 1, 0, [F.SIG_RX_DISCARD_UNKNOWN, F.SIG_RX_DISCARD_LENGTH]⟩,
  ⟨0xd0030, 1, 0, 1, 0, [F.SIG_ROUTE_DROP_FORMAT, F.SIG_ROUTE_DROP_TUNNEL, F.SIG_ROUTE_DROP_EXCESS]⟩,
  ⟨0xd0040, 1, 0, 1, 0, [F.SIG_ACF_STAT_SENT, F.SIG_ACF_STAT_GAP, F.SIG_ACF_STAT_SKIPPED]⟩,
  ⟨0xd0044, 1, 0, 1, 0, [F.SIG_LATE_MAX_NS]⟩,
  ⟨0xd0100, 16, 4, 1, 0, [F.SIG_LOADn_PEAK, F.SIG_LOADn_DECLARED]⟩]

/-- The registers of block GRV. -/
def regsGrv : List RegD := [
  ⟨0xc0000, 16, 256, 1, 0, [F.GRV_GVn_STAT_STATE, F.GRV_GVn_STAT_IMAGE, F.GRV_GVn_STAT_BUSY, F.GRV_GVn_STAT_STALLED]⟩,
  ⟨0xc0004, 16, 256, 1, 0, [F.GRV_GVn_EVENTS_COUNT]⟩,
  ⟨0xc0008, 16, 256, 1, 0, [F.GRV_GVn_FAULT_CODE, F.GRV_GVn_FAULT_CTX, F.GRV_GVn_FAULT_KIND, F.GRV_GVn_FAULT_PC]⟩,
  ⟨0xc000c, 16, 256, 1, 0, [F.GRV_GVn_FCNT_FAULTS, F.GRV_GVn_FCNT_FENCES]⟩,
  ⟨0xc0010, 16, 256, 1, 0, [F.GRV_GVn_MISC_ENDREL, F.GRV_GVn_MISC_NOVEC, F.GRV_GVn_MISC_MSGFULL]⟩,
  ⟨0xc0014, 16, 256, 1, 0, [F.GRV_GVn_ECC_CORR]⟩,
  ⟨0xc0018, 16, 256, 1, 0, [F.GRV_GVn_PEND_HIGH, F.GRV_GVn_PEND_MSG]⟩,
  ⟨0xc1000, 1, 0, 1, 0, [F.GRV_CFG_BUDGET, F.GRV_CFG_FAULT_LIMIT, F.GRV_CFG_HOOKS]⟩]

/-- The registers of block CTL. -/
def regsCtl : List RegD := [
  ⟨0xe0000, 4, 256, 1, 0, [F.CTL_CCn_STAT_STATE, F.CTL_CCn_STAT_UNVERIFIED, F.CTL_CCn_STAT_DEBUG, F.CTL_CCn_STAT_SELFTEST_FAIL, F.CTL_CCn_STAT_SLOT, F.CTL_CCn_STAT_WINDOW]⟩,
  ⟨0xe0004, 4, 256, 1, 0, [F.CTL_CCn_COMMITS_COUNT]⟩,
  ⟨0xe0008, 4, 256, 1, 0, [F.CTL_CCn_RERUN_RERUNS, F.CTL_CCn_RERUN_SLOT, F.CTL_CCn_RERUN_CAUSE]⟩,
  ⟨0xe000c, 4, 256, 1, 0, [F.CTL_CCn_FENCE_FENCES, F.CTL_CCn_FENCE_SLOT, F.CTL_CCn_FENCE_CAUSE]⟩,
  ⟨0xe0010, 4, 256, 1, 0, [F.CTL_CCn_SLICE_MAX_CYCLES]⟩,
  ⟨0xe0014, 4, 256, 1, 0, [F.CTL_CCn_SKIP_COUNT]⟩,
  ⟨0xe0018, 4, 256, 1, 0, [F.CTL_CCn_ECC_CORR, F.CTL_CCn_ECC_HELD]⟩,
  ⟨0xe0020, 4, 256, 1, 0, [F.CTL_CCn_CFG_SLOTS, F.CTL_CCn_CFG_MAJOR_US]⟩,
  ⟨0xe1000, 1, 0, 1, 0, [F.CTL_SELFTEST_TESTED, F.CTL_SELFTEST_PASSED]⟩,
  ⟨0xe1004, 1, 0, 1, 0, [F.CTL_DEBUG_OPEN]⟩]

/-- The registers of block KEY. -/
def regsKey : List RegD := [
  ⟨0x100000, 1, 0, 1, 0, [F.KEY_LC_PENDING, F.KEY_LC_STATE]⟩,
  ⟨0x100010, 4, 4, 1, 0, [F.KEY_UIDn_UID]⟩,
  ⟨0x100020, 1, 0, 1, 0, [F.KEY_TAMPER_STAT_LEVEL, F.KEY_TAMPER_STAT_LATCHED, F.KEY_TAMPER_STAT_ACTIVE]⟩,
  ⟨0x100024, 1, 0, 1, 0, [F.KEY_TAMPER_CNT_DETECT, F.KEY_TAMPER_CNT_RELEASE]⟩,
  ⟨0x100028, 1, 0, 1, 0, [F.KEY_USE_DENIED_COUNT]⟩,
  ⟨0x10002c, 1, 0, 1, 0, [F.KEY_UPD_CNT_REFUSED, F.KEY_UPD_CNT_DONE]⟩,
  ⟨0x100030, 1, 0, 1, 0, [F.KEY_SLOTS_BLOCKED, F.KEY_SLOTS_VOLATILE, F.KEY_SLOTS_PERSISTENT]⟩,
  ⟨0x100100, 1, 0, 1, 0, [F.KEY_CMD_LENGTH, F.KEY_CMD_CODE]⟩,
  ⟨0x100104, 1, 0, 1, 0, [F.KEY_CMD_STAT_LENGTH, F.KEY_CMD_STAT_CODE, F.KEY_CMD_STAT_STATUS]⟩]

/-- The registers of block CIP. -/
def regsCip : List RegD := [
  ⟨0xf0000, 1, 0, 1, 0, [F.CIP_STAT_BULK_Q, F.CIP_STAT_RSV_Q, F.CIP_STAT_PAIRS]⟩,
  ⟨0xf0010, 4, 16, 1, 0, [F.CIP_PAIRn_REQ_COUNT]⟩,
  ⟨0xf0014, 4, 16, 1, 0, [F.CIP_PAIRn_ERR_MISMATCH, F.CIP_PAIRn_ERR_KAT_FAIL, F.CIP_PAIRn_ERR_FAULTS]⟩,
  ⟨0xf0050, 1, 0, 1, 0, [F.CIP_DENIED_DENIED, F.CIP_DENIED_ABSENT]⟩,
  ⟨0xf0054, 1, 0, 1, 0, [F.CIP_VERIFY_FAIL_COUNT]⟩,
  ⟨0xf0058, 1, 0, 1, 0, [F.CIP_JOB_DROP_VERIFY, F.CIP_JOB_DROP_OTHER]⟩,
  ⟨0xf0100, 5, 16, 1, 0, [F.CIP_WINw_CMD_GO]⟩,
  ⟨0xf0104, 5, 16, 1, 0, [F.CIP_WINw_STAT_REFUSED, F.CIP_WINw_STAT_STATUS]⟩,
  ⟨0xfc000, 16, 256, 1, 0, [F.CIP_MSpp_STAT_EN, F.CIP_MSpp_STAT_TX_SA, F.CIP_MSpp_STAT_TX_AN, F.CIP_MSpp_STAT_RX_SAS]⟩,
  ⟨0xfc004, 16, 256, 1, 0, [F.CIP_MSpp_TX_COUNT]⟩,
  ⟨0xfc008, 16, 256, 1, 0, [F.CIP_MSpp_TXDROP_NO_SA, F.CIP_MSpp_TXDROP_PN_EXH, F.CIP_MSpp_TXDROP_OVERSIZE]⟩,
  ⟨0xfc00c, 16, 256, 1, 0, [F.CIP_MSpp_RX_COUNT]⟩,
  ⟨0xfc010, 16, 256, 1, 0, [F.CIP_MSpp_RXERR_ICV, F.CIP_MSpp_RXERR_REPLAY, F.CIP_MSpp_RXERR_NO_SA]⟩]

/-- The registers of block SLP. -/
def regsSlp : List RegD := [
  ⟨0x110000, 1, 0, 1, 0, [F.SLP_STAT_MEMBER, F.SLP_STAT_RING, F.SLP_STAT_ORIGINATOR, F.SLP_STAT_NET_STATE]⟩,
  ⟨0x110004, 1, 0, 1, 0, [F.SLP_GROUP_AWAKE_AWAKE]⟩,
  ⟨0x110008, 1, 0, 1, 0, [F.SLP_DEMAND_DEMAND]⟩,
  ⟨0x11000c, 1, 0, 1, 0, [F.SLP_HOST_DEMAND_DEMAND]⟩,
  ⟨0x110010, 1, 0, 1, 0, [F.SLP_CONFIRMING_GROUPS]⟩,
  ⟨0x110014, 1, 0, 1, 0, [F.SLP_RING_EPOCH_EPOCH]⟩,
  ⟨0x110018, 1, 0, 1, 0, [F.SLP_RING_POS_ROUND, F.SLP_RING_POS_VETO, F.SLP_RING_POS_CIRCUIT]⟩,
  ⟨0x110020, 1, 0, 1, 0, [F.SLP_WAKE_LATCH_LATE, F.SLP_WAKE_LATCH_SIGNAL, F.SLP_WAKE_LATCH_HOST, F.SLP_WAKE_LATCH_LINK, F.SLP_WAKE_LATCH_LIN, F.SLP_WAKE_LATCH_CAN_SEL, F.SLP_WAKE_LATCH_TIMER, F.SLP_WAKE_LATCH_T1S, F.SLP_WAKE_LATCH_WAKE_IN]⟩,
  ⟨0x110024, 1, 0, 1, 0, [F.SLP_WAKE_GROUPS_GROUPS]⟩,
  ⟨0x110030, 1, 0, 1, 0, [F.SLP_WAKE_CNT_WAKES, F.SLP_WAKE_CNT_LATE]⟩,
  ⟨0x110034, 1, 0, 1, 0, [F.SLP_ROUND_CNT_COMMITS, F.SLP_ROUND_CNT_VETOES]⟩,
  ⟨0x110038, 1, 0, 1, 0, [F.SLP_FALSE_CNT_FALSE, F.SLP_FALSE_CNT_CONFIRMED]⟩,
  ⟨0x11003c, 1, 0, 1, 0, [F.SLP_RING_CNT_LOSS, F.SLP_RING_CNT_REGEN, F.SLP_RING_CNT_DISCARD]⟩]

/-- The registers of block PRF. -/
def regsPrf : List RegD := [
  ⟨0x120000, 1, 0, 1, 0, [F.PRF_STAT_ROOT_EQUAL, F.PRF_STAT_NODES]⟩,
  ⟨0x120004, 1, 0, 1, 0, [F.PRF_EPOCH_EPOCH]⟩,
  ⟨0x120008, 1, 0, 1, 0, [F.PRF_CNT_A_MATCH, F.PRF_CNT_A_COMPATIBLE]⟩,
  ⟨0x12000c, 1, 0, 1, 0, [F.PRF_CNT_B_MISMATCH, F.PRF_CNT_B_SILENT]⟩,
  ⟨0x120010, 1, 0, 1, 0, [F.PRF_CHANGES_COUNT]⟩,
  ⟨0x120014, 1, 0, 1, 0, [F.PRF_DESCENT_DIFFER, F.PRF_DESCENT_RANGES]⟩,
  ⟨0x120018, 1, 0, 1, 0, [F.PRF_MERGE_ACCEPTED, F.PRF_MERGE_IGNORED]⟩,
  ⟨0x120020, 1, 0, 1, 0, [F.PRF_LINK_AUTH_TAG, F.PRF_LINK_AUTH_REPLAY]⟩,
  ⟨0x120024, 1, 0, 1, 0, [F.PRF_LINK_DROP_FORMAT, F.PRF_LINK_DROP_EPOCH]⟩,
  ⟨0x120030, 1, 0, 1, 0, [F.PRF_RR_READS, F.PRF_RR_RETRIES, F.PRF_RR_FAILS]⟩,
  ⟨0x120034, 1, 0, 1, 0, [F.PRF_RW_WRITES, F.PRF_RW_RETRIES, F.PRF_RW_FAILS]⟩,
  ⟨0x120038, 1, 0, 1, 0, [F.PRF_TUNNEL_SENT, F.PRF_TUNNEL_REFUSED]⟩,
  ⟨0x12003c, 1, 0, 1, 0, [F.PRF_SNAP_SENT, F.PRF_SNAP_INCOMPLETE]⟩]

/-- The registers of block HST. -/
def regsHst : List RegD := [
  ⟨0x130000, 1, 0, 1, 0, [F.HST_STAT_PCIE_LINK, F.HST_STAT_PCIE_SPEED, F.HST_STAT_PCIE_WIDTH, F.HST_STAT_XSPI_EN]⟩,
  ⟨0x130004, 2, 4, 1, 0, [F.HST_PERMi_PERM]⟩,
  ⟨0x130010, 2, 4, 1, 0, [F.HST_WSTATi_STATUS, F.HST_WSTATi_COUNT, F.HST_WSTATi_ADDR]⟩,
  ⟨0x130020, 1, 0, 1, 0, [F.HST_IRQ_VECTOR, F.HST_IRQ_REMOTE, F.HST_IRQ_UNCLAIMED, F.HST_IRQ_WSTAT, F.HST_IRQ_STAGE]⟩,
  ⟨0x130024, 1, 0, 1, 0, [F.HST_STASH_STAT_UNCLAIMED, F.HST_STASH_STAT_REPEATS, F.HST_STASH_STAT_USED_XSPI, F.HST_STASH_STAT_USED_PCIE]⟩,
  ⟨0x130028, 1, 0, 1, 0, [F.HST_XSPI_TPAGE_PAGE]⟩,
  ⟨0x13002c, 1, 0, 1, 0, [F.HST_SNAP_PAGE_PAGE]⟩,
  ⟨0x131000, 64, 64, 1, 0, [F.HST_HQnn_CTRL_EN, F.HST_HQnn_CTRL_MODE, F.HST_HQnn_CTRL_RING_LOG2, F.HST_HQnn_CTRL_VECTOR, F.HST_HQnn_CTRL_TO_INT, F.HST_HQnn_CTRL_CPL_INT]⟩,
  ⟨0x131004, 64, 64, 1, 0, [F.HST_HQnn_BASE_LO_ADDR]⟩,
  ⟨0x131008, 64, 64, 1, 0, [F.HST_HQnn_BASE_HI_ADDR]⟩,
  ⟨0x13100c, 64, 64, 1, 0, [F.HST_HQnn_DOORBELL_RING, F.HST_HQnn_DOORBELL_INDEX]⟩,
  ⟨0x131010, 64, 64, 1, 0, [F.HST_HQnn_PTRS_CPL_TAIL, F.HST_HQnn_PTRS_RECV_HEAD, F.HST_HQnn_PTRS_SEND_HEAD]⟩,
  ⟨0x131014, 64, 64, 1, 0, [F.HST_HQnn_WAIT_TICKS]⟩,
  ⟨0x131018, 64, 64, 1, 0, [F.HST_HQnn_STAT_CPL_FULL, F.HST_HQnn_STAT_WAIT_ARMED, F.HST_HQnn_STAT_LAST_WAIT]⟩,
  ⟨0x13101c, 64, 64, 1, 0, [F.HST_HQnn_CNT_SENT, F.HST_HQnn_CNT_TRUNC, F.HST_HQnn_CNT_REFUSED]⟩,
  ⟨0x131020, 64, 64, 1, 0, [F.HST_HQnn_POP_ITEM]⟩,
  ⟨0x131024, 64, 64, 1, 0, [F.HST_HQnn_ACK_ACK]⟩]

/-- The registers of block PWR. -/
def regsPwr : List RegD := [
  ⟨0x10000, 1, 0, 1, 0, [F.PWR_STAT_DROOP, F.PWR_STAT_THERM, F.PWR_STAT_BROWNOUT, F.PWR_STAT_SILENT, F.PWR_STAT_FAULT]⟩,
  ⟨0x10004, 1, 0, 1, 0, [F.PWR_DROOP_CNT_HALF, F.PWR_DROOP_CNT_QUARTER]⟩,
  ⟨0x10008, 1, 0, 1, 0, [F.PWR_VCORE_MIN_MV]⟩,
  ⟨0x10010, 4, 4, 1, 0, [F.PWR_TEMPn_MAX, F.PWR_TEMPn_NOW]⟩,
  ⟨0x10020, 1, 0, 1, 0, [F.PWR_SHED_CNT_COUNT]⟩,
  ⟨0x10024, 1, 0, 1, 0, [F.PWR_HOLDUP_ENERGY, F.PWR_HOLDUP_SENSE]⟩,
  ⟨0x10028, 1, 0, 1, 0, [F.PWR_NVM_CNT_DONE, F.PWR_NVM_CNT_REFUSED]⟩,
  ⟨0x10030, 1, 0, 1, 0, [F.PWR_HEARTBEAT_KEY, F.PWR_HEARTBEAT_CORE]⟩]

/-- The registers of block REC. -/
def regsRec : List RegD := [
  ⟨0x140000, 1, 0, 1, 0, [F.REC_STAT_FROZEN, F.REC_STAT_FLUSHING, F.REC_STAT_IMAGE, F.REC_STAT_LOG]⟩,
  ⟨0x140004, 1, 0, 1, 0, [F.REC_SEQ_SEQ]⟩,
  ⟨0x140008, 1, 0, 1, 0, [F.REC_OPTIME_SECONDS]⟩,
  ⟨0x14000c, 1, 0, 1, 0, [F.REC_OPHOURS_HOURS]⟩,
  ⟨0x140010, 1, 0, 1, 0, [F.REC_PCYCLE_COUNT]⟩,
  ⟨0x140020, 1, 0, 1, 0, [F.REC_CMD_KEY, F.REC_CMD_CATEGORIES, F.REC_CMD_CMD]⟩,
  ⟨0x140024, 1, 0, 1, 0, [F.REC_CMD_STAT_FREEZE_LEFT, F.REC_CMD_STAT_STATUS]⟩,
  ⟨0x140028, 1, 0, 1, 0, [F.REC_FLUSH_CNT_DONE, F.REC_FLUSH_CNT_RETRY, F.REC_FLUSH_CNT_ABANDONED]⟩]

/-- The registers of block DBG. -/
def regsDbg : List RegD := [
  ⟨0x150000, 4, 256, 1, 0, [F.DBG_CCn_CTRL_KEY, F.DBG_CCn_CTRL_CMD]⟩,
  ⟨0x150004, 4, 256, 1, 0, [F.DBG_CCn_STAT_HALTED, F.DBG_CCn_STAT_BP_HIT, F.DBG_CCn_STAT_PENDING]⟩,
  ⟨0x150008, 4, 256, 1, 0, [F.DBG_CCn_PC_PC]⟩,
  ⟨0x15000c, 4, 256, 1, 0, [F.DBG_CCn_BP_ADDR, F.DBG_CCn_BP_EN]⟩,
  ⟨0x150010, 4, 256, 1, 0, [F.DBG_CCn_SEL_SPACE, F.DBG_CCn_SEL_INDEX]⟩,
  ⟨0x150014, 4, 256, 1, 0, [F.DBG_CCn_DATA_DATA]⟩]

/-- Every register of BAR0 (R526). -/
def regMap : List RegD := regsSys ++ regsTime ++ regsStp ++ regsQm ++ regsFab ++ regsLkp ++ regsMir ++ regsEth ++ regsT1s ++ regsFld ++ regsSig ++ regsGrv ++ regsCtl ++ regsKey ++ regsCip ++ regsSlp ++ regsPrf ++ regsHst ++ regsPwr ++ regsRec ++ regsDbg

/-- The unit that offset k names among n units of stride s. -/
def unitOf (k n s : Nat) : Option Nat :=
  if n ≤ 1 then (if k = 0 then some 0 else none)
  else if k % s = 0 && decide (k / s < n) then some (k / s) else none

/-- The units of register d that address a names. -/
def RegD.hit (d : RegD) (a : Nat) : Option (Nat × Nat) :=
  if a < d.addr then none
  else if d.n2 ≤ 1 then (unitOf (a - d.addr) d.n1 d.s1).map fun n => (n, 0)
  else
    let k := a - d.addr
    let n := if d.s1 = 0 then 0 else k / d.s1
    if n < d.n1 then (unitOf (k - n * d.s1) d.n2 d.s2).map fun m => (n, m) else none

/-- The register at address a with the unit numbers. -/
def findReg (a : Nat) : List RegD → Option (RegD × Nat × Nat)
  | [] => none
  | d :: r => match d.hit a with
    | some (n, m) => some (d, n, m)
    | none => findReg a r

end Sys2Proof.Machine
end

