-- ==== Sys2Proof/Machine/Tables.lean ====
section
/-! DEFINITION. Sparse tables: sorted lists of key and value with one canonical form, so that equal tables are equal
data. Memory, register file and every indexed table of the device are held so. -/

namespace Sys2Proof.Machine

/-- A table: keys strictly rising. -/
abbrev Tbl (α : Type) := List (Nat × α)

/-- The value at key k, d where nothing is listed. -/
def tget {α : Type} (d : α) : Tbl α → Nat → α
  | [], _ => d
  | (j, v) :: r, k => if j = k then v else tget d r k

/-- The value at key k, if listed. -/
def tfind {α : Type} : Tbl α → Nat → Option α
  | [], _ => none
  | (j, v) :: r, k => if j = k then some v else tfind r k

/-- The table without key k. -/
def terase {α : Type} : Tbl α → Nat → Tbl α
  | [], _ => []
  | (j, v) :: r, k => if j = k then r else (j, v) :: terase r k

/-- The table with v at key k. -/
def tput {α : Type} : Tbl α → Nat → α → Tbl α
  | [], k, v => [(k, v)]
  | (j, u) :: r, k, v =>
    if k < j then (k, v) :: (j, u) :: r
    else if j = k then (k, v) :: r
    else (j, u) :: tput r k v

/-- The table with v at key k, where an unlisted key reads d: writing d removes the entry. -/
def tset {α : Type} [DecidableEq α] (d : α) (t : Tbl α) (k : Nat) (v : α) : Tbl α :=
  if v = d then terase t k else tput t k v

/-- The table with the value at k changed by f. -/
def tmod {α : Type} [DecidableEq α] (d : α) (t : Tbl α) (k : Nat) (f : α → α) : Tbl α := tset d t k (f (tget d t k))

/-- The canonical form of a table whose unlisted keys read d. -/
def tsorted {α : Type} : Tbl α → Bool
  | [] => true
  | (j, _) :: r => r.all (fun e => decide (j < e.1)) && tsorted r

/-- Keys strictly rising, and no entry equal to what an unlisted key reads as. -/
def twf {α : Type} [DecidableEq α] (d : α) (t : Tbl α) : Bool := tsorted t && t.all (fun e => decide (e.2 ≠ d))

/-- The listed keys. -/
def tkeys {α : Type} (t : Tbl α) : List Nat := t.map (·.1)

/-- Apply f to every entry. -/
def tmap {α : Type} (f : Nat → α → α) (t : Tbl α) : Tbl α := t.map fun e => (e.1, f e.1 e.2)

/-- Keep the entries that satisfy p. -/
def tfilter {α : Type} (p : Nat → α → Bool) (t : Tbl α) : Tbl α := t.filter fun e => p e.1 e.2

/-- A sorted set of numbers: insert. -/
def sins : List Nat → Nat → List Nat
  | [], k => [k]
  | j :: r, k => if k < j then k :: j :: r else if j = k then j :: r else j :: sins r k

/-- A sorted set of numbers: remove. -/
def sdel (l : List Nat) (k : Nat) : List Nat := l.filter (· != k)

end Sys2Proof.Machine
end

