-- ==== Sys2Proof/Machine/State.lean ====
section
/-! DEFINITION. The state of the Cleren 9616 as plain data: the register file, the configuration taken from the plate,
and one structure per subsystem, with the value of every part right after reset. Field comments name the rule that gives
the machine the state. -/

namespace Sys2Proof.Machine

/-- Why a command stops the model. -/
inductive Fault where
  /-- Raised by every meaning whose data operand could not exist on the device's interface (a byte list longer than the
  interface carries). Safe: such a command never reaches the hardware. -/
  | illFormed (what : String)
  deriving DecidableEq, Repr

/-- Why the model refuses a command. -/
inductive Refusal where
  /-- Raised by an arm of the dispatch that has no meaning yet. Safe: nothing is claimed of the command. -/
  | notModelled (mnemonic : String)
  deriving DecidableEq, Repr


/-- Whose transmit timestamp it is: a host queue's descriptor (queue, index, INTR), or a gPTP message of CC0: a Sync of a
domain, a Pdelay_Req of a domain or of CMLDS, a Pdelay_Resp to a peer (R82, R93). -/
inductive StampOf where
  | host (q i : Nat) (intr : Bool)
  | sync (dom seq : Nat)
  | pdelayReq (key seq : Nat)
  | pdelayResp (dom seq : Nat) (peer : BitVec 80)
  deriving DecidableEq, Repr

/-- What the block puts on its outside: frames, messages, answers. The state keeps them newest first (model's own). -/
inductive Out where
  /-- An Ethernet or T1S frame on port 0–31; `bad` marks a stomped FCS or ICV (R20). -/
  | frame (port : Nat) (bytes : List Byte) (bad : Bool)
  /-- A gPTP message on a port, in the big-endian form of IEEE 802.1AS-2020 (R78, R82). -/
  | gptp (port : Nat) (bytes : List Byte)
  /-- A transmit timestamp in its completion record (R93); none: TS_LOST (R94). -/
  | stamp (port : Nat) (of_ : StampOf) (ns : Option Nat)
  /-- The MACsec engine of a port asks MKA for a new SAK (R416). -/
  | sakRequest (port : Nat)
  /-- A CAN frame on a channel (R243). -/
  | can (ch : Nat) (f : CanFrame)
  /-- An active error flag that destroys a frame on a channel (R250). -/
  | cancel (ch : Nat)
  /-- A LIN header or response (R259). -/
  | lin (ch : Nat) (id : Nat) (data : List Byte)
  /-- A pause (`pfc` false) or PFC frame: class mask and quanta (R210). -/
  | pause (port : Nat) (pfc : Bool) (mask quanta : Nat)
  /-- A wake signal: on a segment (0), a LIN channel (1), an MDIO bus access (2), a T1S BEACON or jam (3, 4), or a
  verify mPacket (5). -/
  | line (kind ch : Nat) (data : List Byte)
  /-- Bytes returned to a host or a core for a read or a command (R473, R478). -/
  | resp (bytes : List Byte)
  /-- A DMA write to host memory: address and bytes (R481, R482). -/
  | dma (addr : Nat) (bytes : List Byte)
  /-- An interrupt vector raised towards the host (R472, R479). -/
  | irq (vector : Nat)
  deriving DecidableEq, Repr


/-- Causes of a start, in the bit order of `SYS_RST_CAUSE` (R36, SYS registers). -/
inductive Cause where
  | por | wrstPin | hostReq | wdog | lifeCycle | fence | wake | protect
  deriving DecidableEq, Repr

/-- The start record in MRAM (R42, R43, R48, R62, R499). Blank parts are `none`. -/
structure StartRec where
  active     : Option Bool := none          -- active-copy marker: false A, true B (R42)
  failMark   : Option Bool := none          -- full-stage failure mark (R42)
  fallbackOk : Option Bool := none          -- FALLBACK_OK of the last full start (R43)
  floor      : Nat := 0                     -- rollback floor (R62)
  header     : List Byte := []              -- stored header (R48)
  gauge      : Option (Nat × Nat × Nat) := none  -- CHOLD [µF], k [1/1000], V_MIN [mV] (R496, R510)
  therm      : List Nat := []               -- thermal parameters of R495: bytes 0x08 to 0x11 of CLOCK_POWER
  deriving DecidableEq, Repr

/-- A write of the start record: the values it carries; the rest stays (R63). -/
structure StartWrite where
  active     : Option (Option Bool) := none
  failMark   : Option (Option Bool) := none
  fallbackOk : Option (Option Bool) := none
  floor      : Option Nat := none
  header     : Option (List Byte) := none
  gauge      : Option (Nat × Nat × Nat) := none
  therm      : Option (List Nat) := none
  deriving DecidableEq, Repr

/-- An MRAM operation of R497 that waits for its hold-up check or has started. -/
inductive MramOp where
  | startRecord (w : StartWrite)
  | powerCycle
  | linkStart (v : Nat)
  | peerBase (node : Nat) (base : Nat)
  | keyUse (slot : Nat) (reserved : Nat)
  | lifeCycle (st : Nat)
  | tamperPolicy (b : List Byte)
  | tamperLatch (src lvl secs : Nat)
  | recorderPage (page : Nat)
  deriving DecidableEq, Repr

/-- A staging session (R66, R67). -/
structure Session where
  copyB   : Bool
  len     : Nat
  written : List Nat
  deriving DecidableEq, Repr

/-- Start-up, plate and staging (02_start_up_and_plate.md). -/
structure Start where
  flash    : Tbl Byte := []                 -- plate flash, erased bytes 0xFF (R69)
  bufBytes : Tbl Byte := []                 -- SYS_STAGE_BUF (R67); undefined at reset
  session  : Option Session := none         -- the open staging session (R66)
  closedB  : Option Bool := none            -- copy closed with OK, for RECOVER_START (R67)
  done     : Option (Nat × Nat × Nat) := none -- running staging command: command, status and verify code to come (R67)
  waitEnv  : Option StartEnv := none        -- a POR start waits at step 3 for the power-cycle count (R498)
  pageDue  : Bool := false                  -- the staging page waits for the start record to be written (R70)
  trying   : Option Bool := none            -- the copy that the start tries or has tried last (R43)
  held     : Bool := false                  -- stopped at TAMPER_HOLD (R45 step 4)
  header   : List Byte := []                -- header of the plate in force (R51)
  digests  : List (List Byte) := []         -- start-record memory: digest of each section (R39)
  imgGrv   : Tbl (List Byte) := []          -- start-record memory: digest of each graver image (R39)
  imgCtl   : Tbl (List Byte) := []          -- start-record memory: digest of each core image (R39)
  request  : Option Cause := none           -- a WRST has been requested and not yet taken (R38)
  domDue   : List Nat := []                 -- domain faults raised and not yet taken by DOMAIN_RESET (R39, R340, R362)
  domHeld  : List Nat := []                 -- domains held for a reload (R39)
  running  : Bool := false                  -- a start is in progress and has not reached its end (R58)
  deriving DecidableEq, Repr

/-- The non-volatile records of R499 that no other structure holds. -/
structure Mram where
  start     : StartRec := {}
  pcycle    : Nat := 0                      -- power-cycle count (R503)
  linkStart : Nat := 0                      -- link start counter (R448)
  peerBase  : Tbl Nat := []                 -- peer start bases by node (R449)
  lc        : Nat := 0                      -- life-cycle record: state and pending target (R366)
  policy    : List Byte := []               -- tamper policy record (R392)
  latchLog  : List (Nat × Nat × Nat) := []  -- tamper latch log: source, level, seconds (R391), newest first
  started   : List MramOp := []             -- started, completion pending (R497, R500), oldest first
  waiting   : List MramOp := []             -- refused, retried by their owner (R63, R498), oldest first
  deriving DecidableEq, Repr


/-- A gPTP domain clock and its servo (R80–R89). Times are in units of 10⁻¹³ ns, rates in units of 10⁻¹³. -/
structure DomClk where
  val     : Int := 0                        -- domain time
  rate    : Int := 0                        -- rate correction, ±500 ppm (R80)
  slew    : Int := 0                        -- offset still to be removed by slewing (R89)
  offs    : List Nat := []                  -- absolute offsets [ns] at the last 8 Syncs, newest first (R86)
  low     : Nat := 0                        -- consecutive Syncs below 200 ns (R84)
  holdAt  : Nat := 0                        -- local time of the entry into HOLDOVER [ns] (R86)
  holdErr : Nat := 0                        -- TIME_Dn_ERR at that moment
  steer   : Int := 0                        -- offset to the source domain while steered (R87)
  syncAt  : Nat := 0                        -- local time of the latest complete Sync [ns] (R84, R85)
  up      : Option (Int × Int × Int) := none -- what a relayed Sync carries on: origin, correction, upstream departure [ns] (R81)
  path    : List (BitVec 64) := []          -- path trace of the grandmaster in force (R82)
  gm      : Option (BitVec 64) := none      -- identity of the grandmaster that BMCA selected last (R82, R462)
  deriving DecidableEq, Repr

/-- A gPTP port in a domain (R82, R96). -/
structure GptpPort where
  sync    : Option SyncMsg := none          -- two-step Sync waiting for its Follow_Up
  seq     : Nat := 0                        -- sequence of the messages sent
  asked   : Option Nat := none              -- sequence of the outstanding Pdelay_Req
  sentAt  : Option Nat := none              -- its transmit timestamp [ns]
  resp    : Option (Int × Int × Int) := none -- its response, waiting for that timestamp
  delay   : Int := 0                        -- measured path delay [ns]
  lost    : Nat := 0                        -- lost responses in a row
  logSync : Int := 0                        -- logSyncInterval in force
  logPd   : Int := 0                        -- logPdelayReqInterval in force
  deriving DecidableEq, Repr

/-- A transmit timestamp waiting for its completion record (R93): whose it is and the local time. -/
structure Stamp where
  of_ : StampOf
  ns  : Nat
  deriving DecidableEq, Repr

/-- Clocks, gPTP and timestamps (03_time_and_stipples.md). -/
structure Time where
  loc    : Nat := 0                         -- local time [ns] (R79)
  doms   : Tbl DomClk := []                 -- domain clocks 0–3 (R80)
  ports  : Tbl GptpPort := []               -- 32 × domain + port; 128 + port for CMLDS
  fifo   : Tbl (List Stamp) := []           -- transmit timestamp FIFO per port, oldest first (R93)
  pool   : List (Nat × Stamp) := []         -- overflow pool, oldest first (R93)
  ppsOut : Bool := false                    -- PPS_OUT pin (R97)
  ppsRose : Nat := 0                        -- local time at which it rose last [ns] (R97)
  ppsIn  : Nat := 0                         -- short time of the latest accepted PPS_IN edge (R98)
  edge   : Option Nat := none               -- short time of the latest PPS_IN edge (R98)
  deriving DecidableEq, Repr

/-- The run state of one stipple entry (R106–R115). -/
structure StpRun where
  last     : Option Nat := none             -- last instant fired, skipped or begun (R106)
  prepared : Option Nat := none             -- instant whose preparation event was raised (R110)
  abandon  : Bool := false                  -- the frame of an abandoned preparation is still to come (R113)
  late     : Option Nat := none             -- instant waiting for its frames (R113)
  deferred : Option Nat := none             -- instant deferred to the following tick (R107)
  launched : Nat := 0
  lateCnt  : Nat := 0
  skipCnt  : Nat := 0
  deriving DecidableEq, Repr

/-- The stipple scheduler (R100–R117). -/
structure Stp where
  run     : Tbl StpRun := []
  from_   : Nat := 0                        -- no instant before this short time fires (R106, R111)
  tickNs  : Nat := 0                        -- local time of the tick that `tickCnt` counts (R107)
  tickCnt : Nat := 0                        -- entries fired in that tick
  pins    : Nat := 0                        -- STP_OUT0–STP_OUT3 (R103)
  pulse   : List Nat := []                  -- outputs in a pulse: pin n, or 256 + SBS output (R103)
  guard   : Tbl Nat := []                   -- port: instant of the open guard window (R109)
  stepped : List (Nat × Nat) := []          -- short times from and to which domain 0 has stepped forward (R117)
  deriving DecidableEq, Repr


/-- A frame with its descriptor (R138). `phase`: 0 in staging before its lookup result, 1 destinations known, cells being
written, 2 tail written and not yet linked, 3 linked or held. -/
structure Fr where
  data   : List Byte := []                  -- the frame's bytes, an Ethernet frame with its FCS (R124)
  need   : Nat := 0                         -- cell count (R124)
  cells  : List Nat := []                   -- cells written, in order (R123)
  freed  : Nat := 0                         -- leading cells already returned (R137)
  refs   : Nat := 0                         -- reference count (R137)
  ts     : Nat := 0                         -- receive timestamp (R92)
  src    : Nat := 0                         -- node × 4096 + port, channel or HQ (R138)
  ct     : Bool := false
  bad    : Bool := false                    -- BAD_TAIL (R149)
  noEvict : Bool := false
  tsReq  : Bool := false
  inProg : Bool := false                    -- IN_PROGRESS (R140)
  cls    : Nat := 0
  vlan   : Nat := 0
  stream : Nat := 0xFFFF
  lookup : Nat := 0                         -- lookup data (R163)
  user   : Nat := 0
  rsv    : Bool := false                    -- cells from the reserved pool (R125)
  dests  : List (Nat × Bool × Nat) := []    -- queues to link at the tail: queue, mirror copy, truncation [cells]
  phase  : Nat := 0
  rxBad  : Bool := false                    -- found bad at ingress (R149, R205)
  fcsErr : Bool := false                    -- received with an FCS error (R193, R205)
  cut    : Bool := false                    -- storing stopped: the bytes held end without an FCS (R20, R205)
  skip   : Nat := 0                         -- cells of a discarded frame that have arrived since (R150)
  exempt : Bool := false                    -- never suspended by thermal shedding (R34)
  frer   : Option Nat := none               -- sequence number of the R-tag (R222)
  untag  : Bool := false                    -- a directed frame goes out as its source gives it (R162, R165)
  held   : Nat := 0                         -- consumers that hold the frame (R153)
  mirs   : Nat := 0                         -- mirror sessions that have a copy of it, bit n (R195)
  gone   : Bool := false                    -- discarded while its cells arrive (R150)
  pdu    : Option Nat := none               -- the PDU that the frame carries an instance of (R292)
  bank   : Nat := 0                         -- the snapshot bank that its PDU was packed from (R120, R311)
  cpl    : Option (Nat × Nat × Bool) := none -- send descriptor to complete: host queue, index, INTR (R482)
  deriving DecidableEq, Repr

/-- A queue entry (R137): its frame, the cells read through it, for mirror copies the truncation (R195), and whether a
flush took it while its port sends the frame: the queue then counts it no longer (R150), its copy is marked at its tail
(`bad`), and it ends with the cells held at the flush when the frame is still being stored for other queues (`stop`). -/
structure QEnt where
  fid   : Nat
  read  : Nat := 0
  mir   : Bool := false
  trunc : Nat := 0
  out   : Bool := false
  bad   : Bool := false
  stop  : Nat := 0                          -- 0: none
  rel   : Bool := false                     -- released by a stipple, in a stipple-reserved queue (R103)
  deriving DecidableEq, Repr

/-- A consumer stalled on an empty queue (R154, R155): engine, context, slot. -/
structure QWait where
  eng  : Nat
  ctx  : Nat
  slot : Nat
  deriving DecidableEq, Repr

/-- One hardware queue (R136, R160). -/
structure Queue where
  ents    : List QEnt := []                 -- head first
  cells   : Nat := 0                        -- Q of R141
  high    : Nat := 0
  enq     : Nat := 0
  refused : Nat := 0
  evicted : Nat := 0
  flushed : Nat := 0
  waits   : List QWait := []                -- first waiter first (R155)
  deriving DecidableEq, Repr

/-- Who reads cells of a frame it holds (R131, R323): a CAN or LIN channel that sends it, a graver context's slot, a stash
entry, or a control core's holder. -/
inductive Reader where
  | can (ch : Nat)
  | lin (ch : Nat)
  | slot (eng ctx : Nat)
  | stash (e : Nat)
  | holder (core h : Nat)
  deriving DecidableEq, Repr

/-- A reader's request: cells `next` to `last` − 1 of a frame that came from queue `q` are still to be read (R131). -/
structure ReadReq where
  who  : Reader
  q    : Nat
  fid  : Nat
  next : Nat
  last : Nat
  deriving DecidableEq, Repr

/-- The transmit FIFO of a port (R208): what has left it of the frame in progress, in 1/1000 bit, up to a local time. -/
structure TxRun where
  sent : Nat := 0
  at_  : Nat := 0                           -- local time [ns]
  deriving DecidableEq, Repr

/-- The switch core (04_switch_core.md). -/
structure Qm where
  frames : Tbl Fr := []                     -- frame descriptors and contents by number (R137)
  nextId : Nat := 0                         -- number of the next descriptor (model's own)
  queues : Tbl Queue := []
  stage  : Tbl (List Nat) := []             -- ingress staging per node, oldest frame first (R127)
  blocked : List Nat := []                  -- nodes whose write waits for a free cell (R130)
  used   : List Nat := []                   -- cells on no free list, rising (R125)
  bgFlush : List Nat := []                  -- cells of flushes on their way back (R150)
  bgEvict : List Nat := []                  -- cells of evictions on their way back (R143)
  rotor  : Nat := 0                         -- t modulo 16 (R129)
  rsvPtr : Nat := 0                         -- reserved priority pointer (R132)
  grant  : Tbl Nat := []                    -- grant pointer per bank (R133)
  accept : Tbl Nat := []                    -- accept pointer per node (R133)
  portPtr : Tbl Nat := []                   -- port pointer of FN4–FN6 (R208)
  cur    : Tbl (Nat × Nat) := []            -- frame in progress per port: queue, frame (R131, R207)
  mirTurn : List Nat := []                  -- ports whose mirror queue has the next turn against class 0 (R207)
  reads  : List ReadReq := []               -- requests of consumers for cells of frames they hold, oldest first (R131, R323)
  fifo   : Tbl TxRun := []                  -- transmit FIFO per port, 32 + port for a preempted frame (R208)
  firstRead : List Nat := []                -- frames first read in the running cell time (R145)
  flushing : List Nat := []                 -- queues whose flush is returning cells (R150, R160)
  unmarked : List Nat := []                 -- cells unmarked in the latest scraper pass (R156)
  deriving DecidableEq, Repr


/-- A forwarding entry (R167). -/
structure FdbE where
  mac    : Nat
  vlan   : Nat
  dest   : Nat
  static_ : Bool := false
  hit    : Bool := false
  age    : Bool := false
  sticky : Bool := false
  cls    : Nat := 0                         -- class override byte
  deriving DecidableEq, Repr

/-- The run state of a stream: its guard (R185), blocking (R182) and counts (R523). -/
structure StreamRun where
  contained : Bool := false
  release : Nat := 0                        -- local time at which the running release timer expires [ns] (R185)
  blocked : Bool := false
  count  : Nat := 0                         -- frames in the running window
  passed : Nat := 0
  dropped : Nat := 0
  changes : Nat := 0
  deriving DecidableEq, Repr

/-- A policer's buckets in 1/1024 byte, with the carried remainders (R183). -/
structure Pol where
  c    : Nat := 0
  e    : Nat := 0
  cRem : Nat := 0
  eRem : Nat := 0
  red  : Nat := 0
  yellow : Nat := 0
  deriving DecidableEq, Repr

/-- A learn on its way to the table (R169). -/
structure LearnReq where
  mac  : Nat
  vlan : Nat
  port : Nat
  deriving DecidableEq, Repr

/-- Lookup, learning, policing and mirroring (05_lookup_and_policing.md). Pipeline p adds p × 65536 to an index. -/
structure Lkp where
  fdb     : Tbl FdbE := []                  -- pipe × 65536 + 4 × bucket + way (R166)
  learns  : Tbl (List LearnReq) := []       -- learns not yet committed, per pipeline (R169)
  met     : Nat × List Nat := (0, [])       -- local time of the latest hits and learns, and their entries (R172, R174)
  rate    : Tbl (Nat × Nat) := []           -- per port: second of local time, learns made in it (R171)
  streams : Tbl StreamRun := []
  pols    : Tbl Pol := []
  aclCnt  : Tbl Nat := []                   -- LKP_ACL_CNT (R188)
  score   : Tbl Nat := []                   -- containment score of the running window per unit (R189)
  sample  : Tbl Nat := []                   -- frames since the last sample per port (R193)
  icmp    : Nat × Nat := (0, 0)             -- second of local time, ICMP copies in it (R179)
  refillAt : Option Nat := none             -- local time of the latest policer refill [ns] (R183)
  refillMet : Bool := false                 -- the refill now due has been applied for a frame that met it (R184)
  bad     : List (Nat × Nat × Nat) := []    -- entries found with bad parity and not yet removed: table, pipeline, index (R196)
  gone    : List (Nat × Nat × Nat) := []    -- entries removed by the scrub: table, pipeline, index (R197)
  deriving DecidableEq, Repr


/-- The run state of an XG or GE port (R204–R219, R234). -/
structure EthPort where
  tries   : Nat := 0                        -- verify mPackets sent (R213)
  forced  : Option Nat := none              -- gate states forced by a GATE stipple (R217)
  started : Bool := false                   -- a cycle has started since the port was enabled (R218)
  first   : Nat := 0                        -- the first cycle start after it, in short time [ns] (R218)
  credit  : List Int := [0, 0, 0, 0, 0, 0, 0, 0] -- credits of the shaped classes [10⁻⁶ bit] (R219)
  open_   : Bool := false                   -- transmitter ungated (R41, R234)
  devAt   : Option Nat := none              -- local time of the latest device write of its MDIO registers (R476)
  script  : Nat := 0                        -- next MDIO script entry of the bring-up (R234)
  step    : Nat := 0                        -- bring-up step reached: 0 idle, 1 reset asserted, 2 released, 3 script, 4 done (R234)
  deriving DecidableEq, Repr

/-- The run state of an FRER entry (R222, R223) with its ETH_FRER_CNT record (R523). -/
structure FrerRun where
  seq    : Nat := 0
  hist   : Option (Nat × Nat) := none       -- recovered sequence number and history vector
  passed : Nat := 0
  dups   : Nat := 0
  rogue  : Nat := 0
  resets : Nat := 0
  noTag  : Nat := 0
  since  : Nat := 0                         -- local time at which the reset timer last started [ns] (R223, R224)
  deriving DecidableEq, Repr

/-- A command on an MDIO bus (R235): its port, whether the bring-up sequencer gave it, and the local time of its arrival. -/
structure MdioCmd where
  port : Nat
  seq  : Bool
  at_  : Nat
  deriving DecidableEq, Repr

/-- XG and GE ports (06_ethernet_and_t1s.md). -/
structure Eth where
  ports : Tbl EthPort := []
  frer  : Tbl FrerRun := []
  mdio  : Tbl (List MdioCmd) := []          -- commands per bus, in order (R235)
  deriving DecidableEq, Repr

/-- The run state of a T1S segment (R225–R233). -/
structure T1sSeg where
  opp    : Nat := 0                         -- node of the running transmit opportunity (R226)
  burst  : Nat := 0                         -- extra frames sent in it
  sentAt : Nat := 0                         -- local time at which the latest frame in it ended [ns]: the burst timer starts
  cycle  : Bool := false                    -- a cycle runs
  align  : Option Nat := none               -- PLCA_BEACON instant that waits (R227)
  tries  : Nat := 0                         -- attempts of the frame in CSMA/CD (R229)
  backoff : Option Nat := none              -- slot times drawn for the running back-off (R229)
  wake   : Option Nat := none               -- wake pattern pending: its mask (R233)
  pat    : Option (Nat × Nat) := none       -- wake pattern on the medium: its mask, local time of its end [ns] (R231, R233)
  patTries : Nat := 0                       -- attempts of the wake pattern (R233)
  aligned : Bool := false                   -- the running cycle began with an aligned BEACON (R228)
  deriving DecidableEq, Repr

/-- 10BASE-T1S segments. -/
structure T1s where
  segs : Tbl T1sSeg := []
  deriving DecidableEq, Repr



/-- A frame received from a field channel and not yet taken by its engine (R241, R316): its 16-byte header and data, the
receive timestamp, and the short time of the hand-over. -/
structure RxFr where
  data : List Byte
  ts   : Nat
  at_  : Nat
  deriving DecidableEq, Repr

/-- The run state of a CAN channel (R238–R258). -/
structure CanCh where
  tec    : Nat := 0                         -- transmit error counter (R242)
  rec_   : Nat := 0                         -- receive error counter
  slot   : Option (Nat × Nat) := none       -- transmit slot: queue and frame (R243)
  sof    : Bool := false                    -- the slot's frame has sent its SOF
  trying : Bool := false                    -- an attempt of it runs on the bus (R245)
  flushAt : Nat := 0                        -- local time of the flush of a frame that no attempt runs of [ns] (R245)
  tries  : Nat := 0                         -- attempts of it that ended in an error (R244)
  gone   : Bool := false                    -- flushed: never retried (R245)
  missed : Nat := 0                         -- frames not cancelled in bus-off, not yet counted (R251)
  win    : Nat := 0                         -- frames received in the running babble window (R256)
  asleep : Bool := false                    -- the channel sleeps and its transceiver is in standby (R269)
  cancelEnd : Nat := 0                      -- local time at which the cancel release timer expires [ns] (R255)
  babbleEnd : Nat := 0                      -- local time at which the babble release timer expires [ns] (R257)
  deriving DecidableEq, Repr

/-- CAN channels, and the receive FIFOs of all field channels: CAN 0–95, LIN 96 + channel. -/
structure Can where
  chans : Tbl CanCh := []
  fifo  : Tbl (List RxFr) := []
  deriving DecidableEq, Repr

/-- A LIN header on the bus whose response is awaited, or sent by the channel itself (`own`): ID, event-triggered, and the
local time of the falling edge of its break field [ns] (R262, R263). -/
structure LinHead where
  id  : Nat
  et  : Bool
  at_ : Nat
  own : Bool
  deriving DecidableEq, Repr

/-- The run state of a LIN channel (R259–R264). -/
structure LinCh where
  buf    : Tbl (List Byte) := []            -- response buffer: ID to data bytes (R260)
  next   : Option Nat := none               -- requested schedule table (R261)
  back   : Option (Nat × Nat) := none       -- table and slot to return to after a collision resolution (R262)
  coll   : Option Nat := none               -- collision resolution table to run (R262)
  extraRun : Bool := false                  -- an extra slot runs (R261)
  head   : Option LinHead := none           -- the header on the bus (R263)
  started : Bool := false                   -- the schedule runs
  win    : Nat := 0                         -- frames received in the running babble window (R256)
  babbleEnd : Nat := 0                      -- local time at which the babble release timer expires [ns] (R257)
  quiet  : Nat := 0                         -- a commander sends no header before this local time [ns] (R271)
  deriving DecidableEq, Repr

/-- LIN channels. -/
structure Lin where
  chans : Tbl LinCh := []
  deriving DecidableEq, Repr

/-- The side-band scan (R265–R268). Maps hold bit i for input or output i. -/
structure Sbs where
  outs  : Nat := 0                          -- current outputs
  pins  : Nat := 0                          -- outputs as last strobed to the external registers
  busy  : Bool := false                     -- an output update runs
  again : Bool := false                     -- another waits behind it
  scans : List Nat := []                    -- the latest good scans, newest first (R265)
  ins   : Nat := 0                          -- debounced inputs
  bad   : Nat := 0                          -- bad scans in a row (R266)
  good  : Nat := 0                          -- good scans in a row
  wrote : Nat × List (Nat × Nat) := (0, []) -- local time of the latest output writes [ns]; output and writer's rank (R267)
  deriving DecidableEq, Repr



/-- A signal store entry without its substitute (R277). `status` holds the bits that are kept; STALE and CONTAINED are
evaluated at each read. -/
structure SigEnt where
  val    : Nat := 0
  time   : Nat := 0
  status : Nat := 0
  cnt    : Nat := 0
  writer : Nat := 0
  arr    : List Byte := []                  -- the bytes of an array signal (R276)
  deriving DecidableEq, Repr

/-- The run state of a PDU (R290–R300) with its SIG_PDU_CNT record (R312). -/
structure PduRun where
  again  : Bool := false                    -- to be packed again when the unsent instance leaves (R292)
  gap    : Bool := false                    -- inside the minimum gap (R291)
  change : Bool := false                    -- a change seen inside the gap
  packed : Tbl Nat := []                    -- value each mapping last packed (R291)
  upd    : List Nat := []                   -- mappings whose signal was committed since the last pack (R287)
  txCnt  : Nat := 0                         -- next E2E counter (R295)
  rxCnt  : Option Nat := none               -- last accepted E2E counter (R296)
  lastF  : Option Nat := none               -- F of the previous instance (R298)
  accF   : Nat := 0                         -- last accepted F (R299)
  authSec : Option Nat := none              -- operating second of the latest authentication record (R300)
  sent   : Nat := 0
  rcvd   : Nat := 0
  e2e    : Nat := 0
  auth   : Nat := 0
  supp   : Nat := 0
  gaps   : Nat := 0
  deriving DecidableEq, Repr

/-- The run state of a carrier (R303–R305). -/
structure CarRun where
  msgs  : List Byte := []                   -- ACF messages of the AVTPDU being filled
  count : Nat := 0
  seq   : Nat := 0                          -- AVTP sequence number
  inSeq : Option Nat := none                -- last sequence number received
  deriving DecidableEq, Repr

/-- The run state of a snapshot set (R118–R121, R310). -/
structure SnapRun where
  bank0 : List Byte := []
  bank1 : List Byte := []
  cur   : Nat := 1                          -- the current bank
  seq   : Nat := 0                          -- sequence number of the latest latch
  pin   : List (Nat × Nat) := []            -- banks pinned and the frames that pin them until they are enqueued (R120)
  cut   : List (Nat × Nat × List Byte) := [] -- members as at an instant, with the latches of it that have not run, oldest first (R118)
  deriving DecidableEq, Repr

/-- The signal gateway (08_signal_gateway.md). -/
structure Sig where
  store : Tbl SigEnt := []
  pdus  : Tbl PduRun := []
  cars  : Tbl CarRun := []
  snaps : Tbl SnapRun := []
  devNow : Nat × List Nat := (0, [])        -- tick of the latest device-initiated commit and the signals committed in it (R281)
  deriving DecidableEq, Repr



/-- An event of a graver engine (R315). -/
structure Ev where
  kind : Nat := 0
  sub  : Nat := 0
  src  : Nat := 0
  arg  : Nat := 0
  time : Nat := 0
  deriving DecidableEq, Repr

/-- A frame slot (R322): empty, a local frame in its slot memory with its present length (R333), or a buffered frame. -/
inductive Slot where
  | empty
  | loc (x : Fr) (len : Nat)
  | buf (fid : Nat) (got : List Nat)        -- with the cells that the slot has fetched
  deriving DecidableEq, Repr

/-- A staged write (R331). -/
structure Staged where
  sig    : Nat
  val    : Nat
  arr    : List Byte
  writer : Nat
  deriving DecidableEq, Repr

/-- What a stalled context waits for (R337). -/
inductive Stall where
  | none
  | access                                  -- a store access
  | fetch                                   -- cells of a buffered frame
  | queue (q : Nat)                         -- a frame in queue q
  | write (fid : Nat)                       -- the frame written and linked
  | cipher (id : Nat)                       -- the cipher request
  deriving DecidableEq, Repr

/-- A hardware context (R314, R331, R336). -/
structure Ctx where
  st    : Nat := 0                          -- 0 free, 1 ready, 2 stalled
  regs  : Tbl W64 := []                     -- g1 to g15; g0 is never listed
  pc    : Nat := 0
  f0    : Slot := .empty
  f1    : Slot := .empty
  ev    : Ev := {}                          -- the event being handled
  group : List Staged := []                 -- commit group
  used  : Nat := 0                          -- instructions issued since the dispatch
  hook  : Option (Nat × Nat × Nat) := none  -- return address, instructions issued, budget of the running hook
  secOk : List (Nat × Nat) := []            -- PDU and slot that SECV has verified in this handler (R332)
  stall : Stall := .none
  until_ : Option Nat := none               -- local time at which a pop's timeout expires [ns]; none: never (R154)
  dreg  : Nat := 0                          -- register that the stalled instruction writes
  dslot : Nat := 0                          -- slot it works on
  arg0  : Nat := 0                          -- PDU or descriptor address of a cipher stall
  arg1  : Nat := 0                          -- freshness value of a cipher stall
  arg2  : Nat := 0                          -- byte offset of a cipher stall
  sop   : Nat := 0                          -- instruction of a cipher stall: 1 CIPH, 2 SECV, 3 SECG
  cand  : List Nat := []                    -- freshness candidates still to try (R299)
  deriving DecidableEq, Repr

/-- A graver engine (R313–R340). -/
structure Engine where
  ctxs  : Tbl Ctx := []
  imem  : Tbl Nat := []                     -- instruction words (R321)
  count : Nat := 0                          -- instructions of the image
  vecs  : List Nat := []                    -- the 16 vectors (R342)
  dmem  : Tbl Byte := []                    -- DMEM (R321)
  timers : Tbl Nat := []                    -- armed timers: expiry in short time (R335)
  msgs  : List Ev := []                     -- message queue, oldest first (R316)
  evs   : List Ev := []                     -- pending events of kinds 1 to 7, oldest first (R316)
  fltSec : Nat := 0                         -- second of local time counted (R340)
  fltCnt : Nat := 0                         -- faults in it
  fence : Option Nat := none                -- local time of the latest fence [ns]
  next  : Option Nat := none                -- image to load once the running contexts have ended (R341)
  users : Tbl Nat := []                     -- user counters (R343)
  deriving DecidableEq, Repr

/-- The graver engines (09_graver_engines.md). -/
structure Grv where
  engs : Tbl Engine := []
  deriving DecidableEq, Repr



/-- The registers of a task: x1 to x31, pc, the CSRs by number, and the mode (R344, R351, R355). -/
structure CoreCtx where
  regs : Tbl Nat := []                      -- x1 to x31; x0 is never listed; in pass B the 40-bit form of R352
  pc   : Nat := 0
  csrs : Tbl Word := []
  user : Bool := false                      -- user mode
  deriving DecidableEq, Repr

/-- A store-buffer entry (R354): address, data and byte mask. -/
structure StoreEnt where
  addr : Nat
  data : Nat
  mask : Nat
  deriving DecidableEq, Repr

/-- A task slot (R347, R350) with its CTL_SLOT_STAT record (R365). -/
structure Task where
  st      : Nat := 0                        -- 0 stopped, 1 ready, 2 waiting, 3 held
  ctx     : CoreCtx := {}                   -- the checkpoint (R351)
  commits : Nat := 0
  reruns  : Nat := 0
  skips   : Nat := 0
  longest : Nat := 0
  refused : Nat := 0
  waitQ   : Nat := 0                        -- queues waited for, bit k (R350)
  until_  : Option Nat := none              -- local time at which the wait expires [ns]; none: never (R154)
  outcome : Option Nat := none              -- outcome of the latest wait, for the next sample log
  deriving DecidableEq, Repr

/-- A pass of a slice (R352–R354): the registers, the store buffer in program order and the instructions retired. -/
structure Pass where
  ctx  : CoreCtx := {}
  buf  : List StoreEnt := []                -- newest first
  n    : Nat := 0
  at_  : Nat := 0                           -- place in the sample log
  bad  : Bool := false                      -- a mismatch of R352 or R353
  ended : Bool := false                     -- the slice has ended in this pass (R351)
  wfi  : Bool := false
  deriving DecidableEq, Repr

/-- A control core (R344–R363). -/
structure Core where
  tasks  : Tbl Task := []
  itcm   : Tbl Word := []                   -- by word
  dtcm   : Tbl Word := []
  cur    : Option Nat := none               -- window record that began last (R348)
  a      : Option Pass := none              -- pass A of the running slice
  b      : Option Pass := none              -- pass B
  log    : List (Nat × Nat) := []           -- sample log, oldest first: address and data (R353)
  holders : Tbl Nat := []                   -- frames in holders 0–15 (R346)
  fences : List Nat := []                   -- local times of fences [ns], newest first (R362)
  held   : List Nat := []                   -- slots that stay held after a reload (R361)
  halted : Bool := false                    -- halted by the debugger (R525)
  haltReq : Bool := false                   -- a halt waits for the next checkpoint
  suspended : Bool := false                 -- counterproof suspended (R363)
  fenced : Bool := false                    -- stopped by a fence until its reload (R361)
  deriving DecidableEq, Repr

/-- The control cores (10_control_cores_counterproof.md). -/
structure Ctl where
  cores  : Tbl Core := []
  shared : Tbl Word := []                   -- shared memory of CC0–CC3 (R345)
  deriving DecidableEq, Repr



/-- One copy of a persistent slot, or a volatile slot (R375, R376, R382). An empty key marks an erased slot. -/
structure KeyCopy where
  key     : List Byte
  attrs   : Nat
  limit   : Nat := 0
  rsv     : Nat := 0                        -- use reservation (R376)
  counter : Nat := 0
  deriving DecidableEq, Repr

/-- A persistent slot: its two copies, where none is not valid, and the use count in SRAM (R376, R382). -/
structure KeySlot where
  a     : Option KeyCopy := none
  b     : Option KeyCopy := none
  count : Nat := 0
  deriving DecidableEq, Repr

/-- Identity, keys, life cycle and tamper (11_keys_life_cycle_tamper.md). -/
structure Key where
  slots  : Tbl KeySlot := []                -- KS000–KS255, in MRAM
  vols   : Tbl KeyCopy := []                -- VS00–VS63
  ident  : Option Nat := none               -- identity private key, in MRAM (R371)
  cert   : List Byte := []                  -- certificate chain, in MRAM (R372)
  lcCount : Nat := 0                        -- life-cycle counter, in MRAM (R369)
  refusedTokens : Nat := 0                  -- refused debug tokens of this power cycle (R370)
  latched : List (Nat × Nat × Nat) := []    -- detections latched in STANDBY or SLEEP: source, level, seconds (R391), oldest first
  quiet   : Nat := 0                        -- local time at which a source of level 2 or 3 was last detected or cleared (R389)
  mbox   : Tbl Byte := []                   -- KEY_MBOX: 4096 × class + offset; class 0 hosts, 1 control cores (R393)
  coreStat : Nat × Nat × Nat := (0, 0, 0)   -- the cores' KEY_CMD_STAT: length, code, status
  deriving DecidableEq, Repr



/-- A cipher request (R399, R402): who made it, what happens to its result, the descriptor and the input bytes. -/
structure CipReq where
  id   : Nat
  src  : Nat                                -- 0–15 GV, 16–19 CC, 20 host (R400)
  ctx  : Nat := 0                           -- graver context
  kind : Nat := 0                           -- 0 window, 1 CIPH, 2 SECV, 3 SECG
  desc : List Byte                          -- the 64 bytes of R402
  input : List Byte := []                   -- AAD and data
  more : List Byte := []                    -- HMAC tag bytes beyond 24
  ok   : Bool := true                       -- every address lies in the requester's memory (R407)
  perm : Bool := true                       -- the host holds the cipher permission (R407)
  addr : Nat := 0                           -- address of the descriptor
  tick : Nat := 0                           -- local time of arrival [ns] (R400)
  deriving DecidableEq, Repr

/-- What a request computes: status, verdict, tag, output data (R402, R407). -/
structure CipRes where
  status  : Nat := 0
  verdict : Nat := 0
  tag     : List Byte := []
  out     : List Byte := []
  deriving DecidableEq, Repr

/-- A pair of AES lanes (R396–R406). -/
structure Pair where
  run   : Option (CipReq × CipRes) := none  -- the request on the lanes and its unchecked result
  keys  : List Nat := []                    -- cached key schedules, most recently used first (R398)
  deriving DecidableEq, Repr

/-- A secure association (R416–R419). -/
structure Sa where
  an     : Nat
  slot   : Nat
  nextPn : Nat                              -- next packet number: to send, or above the highest received
  ssci   : Nat
  sci    : Nat
  salt   : List Byte
  key    : List Byte
  deriving DecidableEq, Repr

/-- The cipher engine and inline MACsec (12_cipher_engine.md). -/
structure Cip where
  rsvQ  : List CipReq := []                 -- reserved part, oldest first
  bulkQ : List CipReq := []                 -- bulk part, oldest first
  pairs : Tbl Pair := []
  done  : Tbl CipRes := []                  -- results released to graver contexts, by request
  nextId : Nat := 0
  buf   : Tbl Byte := []                    -- CIP_WINw_BUF: 8192 × w + offset (R409)
  jobs  : Tbl Nat := []                     -- frame-job counter per template (R412)
  sas   : Tbl Sa := []                      -- 64 × port + index of R523
  deriving DecidableEq, Repr



/-- Sleep, wake and partial networks (13_sleep_wake_partial_networks.md). Masks hold bit g for group g. -/
structure Slp where
  asleep  : Nat := 0                        -- asleep mask network-wide (R427)
  demand  : Nat := 0                        -- groups demanded for a host write, signal or wake input (R423), as last evaluated
  active  : Nat := 0                        -- wake inputs active (R440)
  outs    : Nat := 0                        -- wake outputs high (R440)
  inh     : Bool := true                    -- INH (R441)
  last    : Option (List Byte) := none      -- body of the last token forwarded (R432)
  origin  : Nat := 0                        -- node of the current originator (R438)
  running : Bool := false                   -- the originator's round runs (R429)
  cand    : Nat := 0                        -- candidate groups of the round (R427)
  late    : Bool := false                   -- a wake of this sleep entry came late (R433, R434)
  commit  : Bool := false                   -- the commit point is pending (R430)
  commitAt : Nat := 0                       -- its local time [ns]
  cancelled : Bool := false                 -- the round in progress has been cancelled (R432)
  done    : Option (Nat × Nat × Nat) := none -- epoch, round and local time of the latest commit (R433)
  doneCand : Nat := 0                       -- its groups
  vetoes  : List (Nat × Nat) := []          -- epoch and round of veto tokens forwarded (R432)
  repeats : List (Nat × Nat × Nat × Nat) := [] -- WAKE to be repeated: mask, reason, flags, times left (R434)
  toWake  : Nat := 0                        -- groups of wakes latched in STANDBY or SLEEP (R435)
  why     : Tbl Nat := []                   -- per group, the reason bit that woke it last (R437)
  lastWhy : Nat := 0                        -- reason bit of the latest wake
  ringAt  : Nat := 0                        -- local time at which T_RING, or the wait after its loss, started [ns] (R438, R439)
  confAt  : Tbl Nat := []                   -- per group, the local time at which its T_FALSE started [ns] (R437)
  demandAt : Option Nat := none             -- local time of the latest write of SLP_HOST_DEMAND by a core (R423, R476)
  entry   : Nat := 0                        -- time since SLEEP was entered [ns] (R433, R436)
  held : List (Nat × Nat) := []             -- wake reasons that met the commit point in its tick: reason, groups (R433)
  lateRecs : List (Nat × Nat) := []         -- late wakes in SLEEP, to be recorded at the wake start: reason, groups (R433)
  deriving DecidableEq, Repr



/-- A leaf record (R463) without its node ID. -/
structure Leaf where
  st     : Nat := 3                         -- 0 MATCH, 1 COMPATIBLE, 2 MISMATCH, 3 SILENT
  form   : Nat := 0
  plate  : Nat := 0
  digest : List Byte := []                  -- 16 bytes
  seq    : Nat := 0
  deriving DecidableEq, Repr

/-- What a device keeps of a sender (R448, R449). -/
structure Replay where
  high   : Option Nat := none               -- highest sequence accepted since the state was lost
  seen   : List Nat := []                   -- sequences accepted within the window
  opened  : Option Nat := none              -- start base met above the stored one (R449, R498)
  rebased : Option Nat := none              -- start base of the peer for which the device has rebased
  deriving DecidableEq, Repr

/-- An open request (R456): kind 0 REMOTE_READ, 1 REMOTE_WRITE, 2 ROSTER_RANGE. -/
structure OpenReq where
  id    : Nat
  kind  : Nat
  node  : Nat
  sig   : Nat := 0                          -- signal, or level × 256 + index of a range
  val   : Nat := 0
  tries : Nat := 0                          -- retransmissions made
  at_   : Nat := 0                          -- local time of the latest transmission [ns] (R456)
  deriving DecidableEq, Repr

/-- A snapshot part being assembled (R458). -/
structure SnapPart where
  sender : Nat
  set_   : Nat
  seq    : Nat
  count  : Nat
  frags  : Tbl (Nat × List Byte) := []      -- fragment: byte offset and bytes
  at_    : Nat := 0                         -- local time of its first fragment [ns]
  deriving DecidableEq, Repr

/-- The Almoith link and proof rounds (14_almoith_link_and_proof_rounds.md). -/
structure Alm where
  seq     : Nat := 0                        -- next sequence (R448)
  used    : Nat := 0                        -- messages sent on the current base
  ready   : Bool := false                   -- the start counter has been written (R498)
  replay  : Tbl Replay := []                -- by sender
  resync  : Bool := false                   -- RESYNC is set on messages (R449)
  heard   : List Nat := []                  -- peers accepted since the replay state was lost
  lostAt  : Nat := 0                        -- local time at which the replay state was lost [ns] (R449)
  opens   : List OpenReq := []              -- open requests, oldest first
  nextId  : Nat := 0
  writes  : Tbl (List Nat) := []            -- request IDs of the last 64 writes per sender (R455), newest first
  parts   : List SnapPart := []             -- oldest first
  health  : Tbl (List Byte) := []           -- latest TIME_HEALTH body per peer record (R462)
  leaves  : Tbl Leaf := []                  -- the view of the nodes (R463)
  spoken  : List Nat := []                  -- nodes whose silence time has passed or whose beacon has been heard (R462)
  beacons : Tbl Nat := []                   -- local time of each node's latest beacon [ns] (R462)
  fullAt  : Nat := 0                        -- local time of the full stage, or of a later loss of the view [ns] (R462)
  roots   : Tbl (List Byte) := []           -- root digest of each ring neighbour's latest ROSTER_DIGEST
  deriving DecidableEq, Repr



/-- A stashed item (R484): its queue, frame and the local time of the pop or latest repeat [ns]. -/
structure Stash where
  q   : Nat
  fid : Nat
  at_ : Nat
  deriving DecidableEq, Repr

/-- The run state of a host queue's DMA rings (R481–R483). -/
structure HostQ where
  sendTail : Nat := 0
  recvTail : Nat := 0
  cplHead  : Nat := 0
  phase    : Bool := true                   -- phase bit of the next completion record (R481)
  takenAt  : Option Nat := none             -- local time at which the latest send descriptor was taken [ns] (R495)
  waitAt   : Nat := 0                       -- local time at which the completion wait was armed [ns] (R483)
  stamps   : List (Nat × Bool) := []        -- linked TS_REQ descriptors without a timestamp yet: index, INTR (R482)
  fill     : List (List Byte × Bool) := []  -- completion records made while the ring is full, with INTR (R482)
  deriving DecidableEq, Repr

/-- The host interface (15_host_interface.md). -/
structure Hst where
  stash  : Tbl Stash := []                  -- entries 0–7 PCIe, 8–15 xSPI
  queues : Tbl HostQ := []
  msix   : Tbl Word := []                   -- MSI-X table and PBA, by word offset from 0x8000 (R471)
  posted : List (Nat × List Byte) := []     -- xSPI writes not yet applied, oldest first (R479)
  last   : Nat := 0                         -- status of the latest WRITE (R478)
  refused : Nat := 0                        -- refused writes since the previous RDSR
  rstEn  : Bool := false                    -- RSTEN was the previous command
  deriving DecidableEq, Repr


/-- One event record (R506) with the time-base tick it was made in, numbered across starts. -/
structure Rec where
  tick   : Nat
  secs   : Nat
  pcycle : Nat
  code   : Nat
  src    : Nat
  data   : Nat
  deriving DecidableEq, Repr

/-- The four categories of the recorder image (R504). -/
structure RecImage where
  counters : Tbl Nat := []                  -- 16 × group + detail
  hists    : Tbl Nat := []                  -- 16 × histogram + bin
  extremes : Tbl (Nat × Nat × Nat) := []    -- value, operating seconds, power cycle
  log      : List Rec := []                 -- newest first, at most 4 096
  head     : Nat := 0                       -- log head: ring place of the next record
  wraps    : Nat := 0                       -- log wraps
  deriving DecidableEq, Repr

/-- A recorder image in an MRAM area, with its header (R504, R507). -/
structure RecStored where
  seq    : Nat
  secs   : Nat
  pcycle : Nat
  img    : RecImage
  deriving DecidableEq, Repr

/-- The event recorder (R503–R509). -/
structure Recorder where
  live     : RecImage := {}
  shadow   : Option RecImage := none        -- updates made while frozen (R508)
  frozenAt : Nat := 0                       -- local time of the freeze [ns]
  frozenTag : Nat × Nat := (0, 0)           -- sequence and operating seconds in the header of the frozen image (R508)
  areaA    : Option RecStored := none       -- MRAM recorder image A (R499)
  areaB    : Option RecStored := none       -- MRAM recorder image B
  secs     : Nat := 0                       -- operating seconds (R503)
  era      : Nat := 0                       -- steps of starts made; keeps ticks of different starts apart (model's own)
  flushing : Bool := false                  -- a periodic flush is paused (R507)
  resp     : Tbl (List Byte) := []          -- latest diagnostic response per response PDU (R509)
  deriving DecidableEq, Repr

/-- Power, droop, thermal loop, hold-up gauge and hardground functions (16_power_nvm_recorder.md). -/
structure Power where
  mode     : Nat := 4                       -- 0 ACTIVE, 1 IDLE, 2 STANDBY, 3 SLEEP, 4 OFF (R420)
  samples  : List Nat := []                 -- the last four HU_SENSE samples [mV] (R496)
  vcore    : Nat := 0                       -- present VDD_CORE [mV] (R492)
  lowAt    : Nat := 0                       -- local time of the latest reading below 0.720 V [ns] (R492)
  dipAt    : Nat := 0                       -- local time of the latest reading not above 0.720 V [ns] (R491)
  droopAt  : Nat := 0                       -- local time at which FULL was left [ns] (R493)
  temps    : List Int := []                 -- latest sensor readings [0.5 °C] (R494)
  holdRun  : Bool := false                  -- a release hold is running (R495)
  holdAt   : Nat := 0                       -- local time at which it started [ns]
  faultN   : Bool := true                   -- FAULT_N driven low (R500)
  gated    : Bool := true                   -- transmitters gated fail-silent (R41, R500)
  wdtLow   : Bool := false                  -- WDT_OUT driven low (R502)
  wdtRun   : Bool := false                  -- WDT_OUT toggling
  beats    : Nat := 0                       -- heartbeat bits of the running window (R502)
  brown    : Bool := false                  -- a brown-out is in force (R491)
  brownRec : Option Nat := none             -- brown-out to be recorded at the next start [mV]
  sbsClrN  : Bool := false                  -- SBS_CLR_N released (R268, R500)
  deriving DecidableEq, Repr


/-- The whole state. -/
structure State where
  regs : Tbl Word := []                     -- register fields by address × 32 + bit; unlisted: the reset value (R8)
  cfg  : Tbl (List Byte) := []              -- the plate's records in force, by table and index (R61, R549)
  cfgFull : Tbl (List Byte) := []             -- the full-range records, checked and not yet enabled (R61)
  free : Nat := 0                           -- free values used so far (model's own)
  out  : List Out := []                     -- what the block has put out, newest first (model's own)
  pending : List Instr := []                -- commands waiting, first in front (model's own)
  sys : Start := {}
  mram : Mram := {}
  rcd : Recorder := {}
  pwr : Power := {}
  time : Time := {}
  stp : Stp := {}
  qm : Qm := {}
  lkp : Lkp := {}
  eth : Eth := {}
  t1s : T1s := {}
  can : Can := {}
  lin : Lin := {}
  sbs : Sbs := {}
  sig : Sig := {}
  grv : Grv := {}
  ctl : Ctl := {}
  key : Key := {}
  cip : Cip := {}
  slp : Slp := {}
  alm : Alm := {}
  hst : Hst := {}
  deriving DecidableEq, Repr

/-- The device with its supplies applied and PORST_N still low: every register at its reset value, every memory at its
reset contents, nothing started and no command waiting. POWER_ON_RESET runs the start from here. -/
def State.reset : State := {}

end Sys2Proof.Machine
end

