-- ==== Sys2Proof/Machine/Ops.lean ====
section
/-! DEFINITION. The named operations over the register file, the plate's records, the outside of the block, free values,
the event recorder and the MRAM. -/

namespace Sys2Proof.Machine

/-- The outcome of a meaning. -/
abbrev Res := Host.Outcome State Fault Refusal

/-- Run a meaning on an operand that can exist on the interface; any other operand is a fault with a name. -/
def guardWf (ok : Bool) (what : String) (r : Res) : Res := if ok then r else .fault (.illFormed what)

/-! ### Registers -/

/-- The value of a register field. -/
def rd (f : Field) (s : State) : Nat := (tget (BitVec.ofNat 32 f.reset) s.regs f.key).toNat

/-- A register field written by the device or an initiator; the value is cut to the field's width. -/
def wr (f : Field) (v : Nat) (s : State) : State :=
  { s with regs := tput s.regs f.key (BitVec.ofNat 32 (v % 2 ^ f.w)) }

/-- A signed value into a field in two's complement. -/
def wrI (f : Field) (v : Int) (s : State) : State := wr f (twos f.w v) s

/-- A truth value into a one-bit field. -/
def wrB (f : Field) (b : Bool) (s : State) : State := wr f (b2n b) s

/-- The signed reading of a field. -/
def rdI (f : Field) (s : State) : Int := sext f.w (rd f s)

/-- A one-bit field as a truth value. -/
def rdB (f : Field) (s : State) : Bool := rd f s != 0

/-- Add n to a saturating count. -/
def incBy (f : Field) (n : Nat) (s : State) : State := wr f (min (rd f s + n) (2 ^ f.w - 1)) s

/-- Count one, saturating. -/
def inc (f : Field) (s : State) : State := incBy f 1 s

/-- Count one in a counter that wraps. -/
def incWrap (f : Field) (s : State) : State := wr f (rd f s + 1) s

/-- Raise a mark to v. -/
def markMax (f : Field) (v : Nat) (s : State) : State := if rd f s < v then wr f (min v (2 ^ f.w - 1)) s else s

/-- Lower a mark to v. -/
def markMin (f : Field) (v : Nat) (s : State) : State := if v < rd f s then wr f v s else s

/-! ### The plate's records in force -/

/-- The key of record i of table t. -/
def cfgKey (t i : Nat) : Nat := t * 2 ^ 160 + i

/-- Record i of table t, empty when the plate in force has none. -/
def cfgRec (t i : Nat) (s : State) : List Byte := tget [] s.cfg (cfgKey t i)

/-- Whether the plate in force has record i of table t. -/
def cfgHas (t i : Nat) (s : State) : Bool := !(cfgRec t i s).isEmpty

/-- The little-endian field of w bytes at offset o of record i of table t. -/
def cfgN (t i o w : Nat) (s : State) : Nat := leAt (cfgRec t i s) o w

/-- The indices of table t that the plate in force carries. -/
def cfgIdx (t : Nat) (s : State) : List Nat :=
  (s.cfg.filter fun e => e.1 / 2 ^ 160 == t).map fun e => e.1 % 2 ^ 160

/-! ### The outside, free values -/

/-- Put something on the block's outside. -/
def emit (o : Out) (s : State) : State := { s with out := o :: s.out }

/-- Take a free value. -/
def fresh (s : State) : Nat × State := (Config.freeNat s.free, { s with free := s.free + 1 })

/-- Fold an operation over a list. -/
def each {α : Type} (l : List α) (f : α → State → State) (s : State) : State := l.foldl (fun s a => f a s) s

/-- Run an operation only when b holds. -/
def when (b : Bool) (f : State → State) (s : State) : State := if b then f s else s

/-! ### The event recorder (R505, R506, R508) -/

/-- Insert a record: records of one tick stand in ascending code (R506). The list is newest first. -/
def logInsert (r : Rec) : List Rec → List Rec
  | [] => [r]
  | x :: t => if x.tick = r.tick ∧ r.code < x.code then x :: logInsert r t else r :: x :: t

/-- A record into an image: its counter and the ring (R506). -/
def imgRecord (r : Rec) (i : RecImage) : RecImage :=
  let c := 16 * (r.code / 256) + r.code % 256
  { i with
    counters := tput i.counters c (min (tget 0 i.counters c + 1) 0xFFFFFFFF)
    log := (logInsert r i.log).take 4096
    head := (i.head + 1) % 4096
    wraps := if i.log.length = 4096 then (i.wraps + 1) % 65536 else i.wraps }

/-- The bin of value v in a histogram with unit u (R505): 0 below 2u, b from u·2^b, 15 from u·2^15. -/
def histBin (u v : Nat) : Nat := if v < 2 * u then 0 else min 15 (Nat.log2 (v / u))

/-- Apply an update to the image that is being written: the shadow while a freeze is in force (R508). -/
def recUpdate (f : RecImage → RecImage) (s : State) : State :=
  match s.rcd.shadow with
  | none => { s with rcd := { s.rcd with live := f s.rcd.live } }
  | some i => { s with rcd := { s.rcd with shadow := some (f i) } }

/-- Write an event record (R506). -/
def record (code src data : Nat) (s : State) : State :=
  recUpdate (imgRecord ⟨s.rcd.era * 2 ^ 64 + s.time.loc, s.rcd.secs, s.mram.pcycle, code, src % 65536, data % 2 ^ 32⟩) s

/-- Count value v in histogram h with unit u (R505). -/
def histAdd (h u v : Nat) : State → State :=
  recUpdate fun i => { i with hists := tput i.hists (16 * h + histBin u v) (min (tget 0 i.hists (16 * h + histBin u v) + 1) 0xFFFFFFFF) }

/-- Whether extreme x keeps the lowest value (R505). -/
def extLowest (x : Nat) : Bool := x == 1 || x == 2 || x == 3 || x == 7

/-- Whether extreme x holds a signed value (R505). -/
def extSigned (x : Nat) : Bool := x == 0 || x == 1

/-- Whether a is more extreme than b for extreme x. -/
def extBetter (x a b : Nat) : Bool :=
  if extSigned x then (if extLowest x then decide (sext 32 a < sext 32 b) else decide (sext 32 b < sext 32 a))
  else if extLowest x then decide (a < b) else decide (b < a)

/-- Offer value v (32 bits) to extreme x, with the time tags (R505). -/
def extreme (x v : Nat) (s : State) : State :=
  recUpdate (fun i => match tfind i.extremes x with
    | none => { i with extremes := tput i.extremes x (v % 2 ^ 32, s.rcd.secs, s.mram.pcycle) }
    | some (w, _, _) =>
      if extBetter x (v % 2 ^ 32) w then { i with extremes := tput i.extremes x (v % 2 ^ 32, s.rcd.secs, s.mram.pcycle) } else i) s

/-! ### MRAM operations (R496–R498) -/

/-- The gauge parameters in force: CHOLD [µF], k [1/1000], V_MIN [mV] (R496). -/
def gaugeParams (s : State) : Nat × Nat × Nat :=
  if cfgHas C.clockPower 0 s then (cfgN C.clockPower 0 2 2 s, cfgN C.clockPower 0 4 2 s, cfgN C.clockPower 0 6 2 s)
  else s.mram.start.gauge.getD (470, 199, 3300)

/-- V_S: the lowest of the last four samples [mV] (R496). -/
def gaugeVs (s : State) : Nat := match s.pwr.samples with
  | [] => 0
  | v :: r => minList v r

/-- The stored energy [µJ] (R496): half CHOLD times (V² − V_MIN²), 0 when V ≤ V_MIN, with V = V_S / k. -/
def storedEnergy (s : State) : Nat :=
  let (c, k, vmin) := gaugeParams s
  let v := gaugeVs s * 1000
  if k = 0 then 0 else c * (v * v - vmin * k * (vmin * k)) / (2 * k * k * 1000000)

/-- The table row of an MRAM operation and the energy it requires [µJ] (R497). -/
def mramNeed : MramOp → Nat × Nat
  | .keyUse _ _ => (5, 30)
  | .lifeCycle _ => (1, 60)
  | .tamperPolicy _ => (2, 60)
  | .tamperLatch _ _ _ => (2, 60)
  | .startRecord _ => (3, 90)
  | .powerCycle => (4, 30)
  | .linkStart _ => (4, 30)
  | .peerBase _ _ => (4, 30)
  | .recorderPage _ => (6, 450)

/-- The hold-up check of an operation of row `row` that needs `need` µJ: counted and recorded when refused (R497, R505). -/
def holdUpCheck (row need : Nat) (s : State) : Bool × State :=
  let e := storedEnergy s
  let s := s |> histAdd 17 16 e |> extreme 3 e
  if need ≤ e then (true, s)
  else (false, s |> inc F.PWR_NVM_CNT_REFUSED |> record 0x0202 row e)

/-- Try to start an operation (R497): a started one completes under the hardground functions, a refused one waits for
its owner's retry (R63, R498). -/
def mramStart (op : MramOp) (s : State) : State :=
  let (ok, s) := holdUpCheck (mramNeed op).1 (mramNeed op).2 s
  if ok then { s with mram := { s.mram with started := s.mram.started ++ [op] } }
  else { s with mram := { s.mram with waiting := s.mram.waiting ++ [op] } }

/-- Whether an operation belongs to the start record, which R63 retries. -/
def MramOp.isStart : MramOp → Bool
  | .startRecord _ => true
  | _ => false

/-- Retry the waiting operations that satisfy p, in order (R63, R498). -/
def mramRetry (p : MramOp → Bool) (s : State) : State :=
  (s.mram.waiting.filter p).foldl (fun s op => mramStart op s)
    { s with mram := { s.mram with waiting := s.mram.waiting.filter fun o => !p o } }

/-- A start record with the values of a write; the floor is only raised (R62, R63). -/
def startRecPut (w : StartWrite) (r : StartRec) : StartRec :=
  { active := w.active.getD r.active, failMark := w.failMark.getD r.failMark, fallbackOk := w.fallbackOk.getD r.fallbackOk,
    floor := max r.floor (w.floor.getD 0), header := w.header.getD r.header, gauge := w.gauge.or r.gauge,
    therm := w.therm.getD r.therm }

/-- The values of an older write that a newer one, w, does not write again. -/
def startRecRest (w o : StartWrite) : StartWrite :=
  { active := if w.active.isSome then none else o.active, failMark := if w.failMark.isSome then none else o.failMark,
    fallbackOk := if w.fallbackOk.isSome then none else o.fallbackOk, floor := o.floor,
    header := if w.header.isSome then none else o.header, gauge := if w.gauge.isSome then none else o.gauge,
    therm := if w.therm.isSome then none else o.therm }

/-- The start record as it stands once the operations started and waiting are done. -/
def startRecNow (s : State) : StartRec :=
  (s.mram.started ++ s.mram.waiting).foldl (fun r o => match o with | .startRecord w => startRecPut w r | _ => r) s.mram.start

/-- Write values of the start record under R63: a refused write of a value that is written again is not repeated. -/
def startRecWrite (w : StartWrite) (s : State) : State :=
  mramStart (.startRecord w) { s with mram := { s.mram with waiting := s.mram.waiting.map fun o => match o with
    | .startRecord x => .startRecord (startRecRest w x)
    | o => o } }

/-! ### Hardground functions (R500–R502) -/

/-- Triggers of fail-silent gating, numbered in the order of R500's table: 0 reset request, 1 brown-out, 2 OVERTEMP,
3 SILENT action, 4 halted state, 5 missed heartbeat. -/
def gateSilent (trigger : Nat) (s : State) : State :=
  record 0x0203 trigger 0 (wr F.PWR_STAT_SILENT 1 { s with pwr := { s.pwr with gated := true, sbsClrN := false } })

/-- FAULT_N driven low (R500). -/
def assertFault (s : State) : State := wr F.PWR_STAT_FAULT 1 { s with pwr := { s.pwr with faultN := true } }

/-- The hardground reset request and every other request of a WRST (R38): the transmitters are gated and the request
waits for WARM_RESET. -/
def requestReset (c : Cause) (s : State) : State :=
  let s := gateSilent 0 s
  { s with sys := { s.sys with request := some (s.sys.request.getD c) } }

/-- The number of a domain of R24, in the order of its table. -/
def Domain.num : Domain → Nat
  | .aon => 0 | .fld => 1 | .fab => 2 | .grv => 3 | .ctl => 4 | .cip => 5 | .sds => 6 | .mram => 7

/-- Whether the outputs of a domain are held fail-silent: by the hardground functions (R41, R500) or during the domain's
reload (R39). -/
def silent (d : Domain) (s : State) : Bool := s.pwr.gated || s.sys.domHeld.contains (Domain.num d)

/-- A transmitter of domain d puts something on its line, unless the line is held fail-silent. -/
def transmit (d : Domain) (o : Out) (s : State) : State := if silent d s then s else emit o s

/-- The domain that drives an Ethernet port's line: SerDes for XG and GE, the T1S PHYs for SG (R24). -/
def portDomain (p : Nat) : Domain := if p < 16 then .sds else .fld

/-- Whether the logic of a domain runs: powered in the power mode and not clock-gated (R24), and not held for a reload
(R39). Power modes: 0 ACTIVE, 1 IDLE, 2 STANDBY, 3 SLEEP, 4 OFF. -/
def domRuns (d : Domain) (s : State) : Bool :=
  (match d with
    | .aon => decide (s.pwr.mode ≤ 3)
    | .fld => decide (s.pwr.mode ≤ 2)
    | .fab | .sds | .mram => decide (s.pwr.mode ≤ 1)
    | .grv | .ctl | .cip => decide (s.pwr.mode = 0))
  && !s.sys.domHeld.contains (Domain.num d)

/-- Every domain is on: in ACTIVE, and in IDLE, which an event ends (R24, R420). -/
def awake (s : State) : Bool := decide (s.pwr.mode ≤ 1)

/-- The local time at which a release timer of `ms` that starts now expires [ns] (R185, R255, R257). -/
def releaseAt (ms : Nat) (s : State) : Nat := s.time.loc + ms * 1000000

/-- The local time at which a pop's timeout, given in ticks of the time base, expires [ns]; none for one that never does
(R79, R154). -/
def waitUntil (ticks : Nat) (s : State) : Option Nat := if ticks = 0xFFFFFFFF then none else some (s.time.loc + 4 * ticks)
/-- A wait has run out. -/
def waitOverdue (t : Option Nat) (s : State) : Bool := match t with
  | none => false
  | some t => decide (t ≤ s.time.loc)

/-- A domain fault: DOMAIN_RESET takes it (R39). -/
def domainFault (d : Domain) (s : State) : State := { s with sys := { s.sys with domDue := sins s.sys.domDue (Domain.num d) } }

/-! ### Start stage and permissions used by many blocks -/

/-- SYS_BOOT_STAT.STAGE. -/
def stage (s : State) : Nat := rd F.SYS_BOOT_STAT_STAGE s
/-- The full stage has been reached. -/
def isFull (s : State) : Bool := stage s == 5

/-! ### Interrupts and the outcome of host writes (R64, R471, R472, R477) -/

/-- A word of the MSI-X table or PBA, by word offset from 0x8000; a vector is masked until software unmasks it. -/
def msixWord (i : Nat) (s : State) : Nat := (tget (if i < 256 ∧ i % 4 = 3 then 1 else 0) s.hst.msix i).toNat
/-- Such a word changed. -/
def msixSet (i v : Nat) (s : State) : State := { s with hst := { s.hst with msix := tput s.hst.msix i (BitVec.ofNat 32 v) } }
/-- Raise an MSI-X vector: a masked one stays pending in the PBA. -/
def raiseVector (v : Nat) (s : State) : State :=
  if bit (msixWord (4 * v + 3) s) 0 then msixSet (512 + v / 32) (putBit (msixWord (512 + v / 32) s) (v % 32) true) s
  else emit (.irq v) s
/-- A cause of HST_IRQ, with the device event vector. -/
def irqCause (f : Field) (s : State) : State := raiseVector (rd F.HST_IRQ_VECTOR s) (wr f 1 s)

/-- The interface number of a host initiator: 0 PCIe, 1 xSPI. -/
def hostOf : Initiator → Option Nat
  | .pcie => some 0
  | .xspi => some 1
  | _ => none

/-- The outcome of a write (R477): a write that a host interface is refused is recorded and raises WSTAT; the xSPI target
keeps its status and counts it for RDSR (R478). -/
def writeDone (who : Initiator) (addr : Nat) (r : Status × State) : State := match hostOf who with
  | none => r.2
  | some i =>
    let s := r.2
    let s := if r.1 = .ok then s
      else s |> wr (F.HST_WSTATi_STATUS.u i) r.1.code |> inc (F.HST_WSTATi_COUNT.u i)
        |> wr (F.HST_WSTATi_ADDR.u i) (addr / 4 % 65536) |> irqCause F.HST_IRQ_WSTAT
    if i = 1 then { s with hst := { s.hst with last := r.1.code, refused := if r.1 = .ok then s.hst.refused else min 255 (s.hst.refused + 1) } }
    else s

/-- What the host may reach by the start's stage (R64, R65, R72, R76, R473, R479, R527), at a BAR0 offset; offsets from
0x4000000 stand for what lies outside it. None: open. Before the full stage, and in EARLY_ONLY that never completes step 13,
only the SYS block answers reads, and the staging registers are BUSY; they are so in TEST too, whose other blocks are open;
in the halted and recovery states the SYS block and part of the KEY block are open; in STANDBY the target answers RDID and
RDSR only. -/
def hostGate (write : Bool) (addr : Nat) (s : State) : Option Status :=
  let staging := (0x30 ≤ addr && addr < 0x3C) || (0x1000 ≤ addr && addr < 0x2000)
  let keyOpen := addr == 0x100000 || (0x100010 ≤ addr && addr ≤ 0x100020) || addr == 0x100100 || addr == 0x100104
    || (0x101000 ≤ addr && addr < 0x102000)
  if 2 ≤ s.pwr.mode then some .busy
  else match stage s with
    | 5 => none
    | 9 => if staging then some .busy else none
    | 7 => if addr < 0x10000 || keyOpen then none else some .denied
    | 8 => if addr < 0x10000 || keyOpen then none else some .denied
    | _ => if addr < 0x10000 && !write && !staging then none else some .busy

/-- From the full stage the HOST section in force leaves interface i disabled (R488). -/
def ifaceOff (i : Nat) (s : State) : Bool := isFull s && cfgHas C.hostHdr 0 s && !bit (cfgN C.hostHdr 0 7 1 s) i

/-- Whether the device can be reached: the PCIe endpoint is down with its domain in STANDBY, and nothing answers a host in
SLEEP and OFF or on a disabled interface (R479, R488, R527). -/
def reachable (who : Initiator) (s : State) : Bool := match who with
  | .pcie => decide (s.pwr.mode ≤ 1) && !ifaceOff 0 s
  | .xspi => decide (s.pwr.mode ≤ 2) && !ifaceOff 1 s
  | _ => awake s && !s.sys.domHeld.contains (Domain.num .ctl)

/-- A write to a register with a row of its own: f's effect with its outcome, unless the device refuses it before. -/
def hostWrite (who : Initiator) (addr : Nat) (f : State → Status × State) (s : State) : State :=
  if !reachable who s then s
  else writeDone who addr (match (if (hostOf who).isSome then hostGate true addr s else none) with
    | some st => (st, s)
    | none => f s)

/-! ### Core slots and services (R347, R364, R365) -/

/-- Core n. -/
def core (n : Nat) (s : State) : Core := tget {} s.ctl.cores n
/-- The core changed. -/
def coreSet (n : Nat) (x : Core) (s : State) : State := { s with ctl := { s.ctl with cores := tput s.ctl.cores n x } }
/-- Slot k of core n. -/
def task (n k : Nat) (s : State) : Task := tget {} (core n s).tasks k
/-- The slot changed. -/
def taskSet (n k : Nat) (t : Task) (s : State) : State := coreSet n { core n s with tasks := tput (core n s).tasks k t } s
/-- Field o of width w of the slot record of core n, slot k (R365). -/
def slotN (n k o w : Nat) (s : State) : Nat := cfgN C.ctlSlot (16 * n + k) o w s
/-- The slot record enables slot k. -/
def slotOn (n k : Nat) (s : State) : Bool := bit (slotN n k 7 1 s) 0
/-- The slots of core n that are enabled. -/
def slotsOn (n : Nat) (s : State) : List Nat := (List.range 16).filter (slotOn n · s)
/-- The cores' service `svc` of R364 answers: CTL is powered and not held, and no slot that runs the service is fenced or
held; TIME and RING stop with CC0 (R81, R361, R364). -/
def svcUp (svc : Nat) (s : State) : Bool :=
  decide (s.pwr.mode ≤ 1) && !s.sys.domHeld.contains (Domain.num .ctl) && !(decide (svc ≤ 2) && (core 0 s).fenced)
    && (List.range 4).all fun n => (slotsOn n s).all fun k =>
      slotN n k 5 1 s != svc || (!(core n s).fenced && (task n k s).st != 3)

end Sys2Proof.Machine
end

