-- ==== Sys2Proof/Machine/Vault.lean ====
section
/-! DEFINITION. Key slots, the life-cycle transition, tamper responses and the completion of MRAM operations
(11_keys_life_cycle_tamper.md, R366–R392; R497–R500). -/

namespace Sys2Proof.Machine

/-! ### Slots (R374–R385) -/

/-- The number of volatile slot n as a key slot (R402). -/
def vs (n : Nat) : Nat := 0x100 + n

/-- Slot k's persistent record. -/
def kslot (k : Nat) (s : State) : KeySlot := tget {} s.key.slots k

/-- Whether copy B of a slot is in force: the valid copy with the higher counter, A on a tie (R385). -/
def KeySlot.useB (x : KeySlot) : Bool := match x.a, x.b with
  | _, none => false
  | none, some _ => true
  | some a, some b => decide (a.counter < b.counter)

/-- The copy in force. -/
def KeySlot.cur (x : KeySlot) : Option KeyCopy := if x.useB then x.b else x.a

/-- The copy in force of a slot, erased or not. -/
def slotCopy (k : Nat) (s : State) : Option KeyCopy :=
  if k < 256 then (kslot k s).cur else if 0x100 ≤ k ∧ k < 0x140 then tfind s.key.vols (k - 0x100) else none

/-- The key that slot k holds, if any. -/
def slotKey (k : Nat) (s : State) : Option KeyCopy := match slotCopy k s with
  | some c => if c.key = [] then none else some c
  | none => none

/-- Whether persistent slot k is blocked: its use limit has been reached (R376). -/
def slotBlocked (k : Nat) (s : State) : Bool := match slotKey k s with
  | some c => decide (k < 256) && c.limit != 0 && decide (c.limit ≤ (kslot k s).count)
  | none => false

/-- Whether slot k is a root slot (R374). -/
def isRoot (k : Nat) : Bool := decide (3 ≤ k) && decide (k ≤ 11)

/-- The slot counts of KEY_SLOTS. -/
def keyShow (s : State) : State :=
  let ks := tkeys s.key.slots
  s |> wr F.KEY_SLOTS_PERSISTENT (ks.filter fun k => (slotKey k s).isSome).length
    |> wr F.KEY_SLOTS_VOLATILE s.key.vols.length
    |> wr F.KEY_SLOTS_BLOCKED (min 255 (ks.filter fun k => slotBlocked k s).length)

/-- A persistent slot's record changed. -/
def kslotSet (k : Nat) (x : KeySlot) (s : State) : State :=
  keyShow { s with key := { s.key with slots := tput s.key.slots k x } }

/-- A volatile slot filled. -/
def vslotSet (n : Nat) (x : KeyCopy) (s : State) : State :=
  keyShow { s with key := { s.key with vols := tput s.key.vols n x } }

/-- n random bytes (R371): free values. -/
def randBytes (n : Nat) (s : State) : List Byte × State :=
  ((List.range n).map fun i => Config.randomByte (s.free + i), { s with free := s.free + n })

/-- The device UID, fused at manufacture (R371). -/
def uidBytes : List Byte := (List.range 4).flatMap fun i => leBytes 4 (Config.uidWord i)

/-! ### Zeroisation (R388, R392, R500) -/

/-- Requests on the lanes are aborted: no result leaves them and each is answered FAULT (R392). -/
def lanesAbort (s : State) : State :=
  { s with cip := { s.cip with pairs := tmap (fun _ p =>
      { p with keys := [], run := p.run.map fun r => (r.1, { status := Status.fault.code }) }) s.cip.pairs } }

/-- Every volatile slot and every cipher lane key register is overwritten with zeros (R500). -/
def zeroise (s : State) : State := lanesAbort (keyShow { s with key := { s.key with vols := [] } })

/-- A tamper response of level L2 or L3 is in force (R388). -/
def tamperBlocks (s : State) : Bool := decide (2 ≤ rd F.KEY_TAMPER_STAT_LEVEL s)

/-! ### Life cycle (R366–R368) -/

/-- The life-cycle state: 0 BLANK, 1 MANUFACTURE, 2 FIELD, 3 QUARANTINED, 4 RETURN, 5 SCRAPPED. -/
def lcState (s : State) : Nat := s.mram.lc

/-- Whether a life-cycle record commit waits for the hold-up check: its target. -/
def lcPending (s : State) : Option Nat :=
  s.mram.waiting.findSome? fun o => match o with | .lifeCycle t => some t | _ => none

/-- KEY_LC. -/
def lcShow (s : State) : State :=
  s |> wr F.KEY_LC_STATE (lcState s) |> wr F.KEY_LC_PENDING ((lcPending s).getD 0xF)

/-! ### Mirror sessions (R194) -/

/-- Whether inline MACsec is configured on a port (R194, R419). -/
def macsecOn (port : Nat) (s : State) : Bool := port < 16 && cfgN C.msPort port 0 1 s != 0

/-- Evaluate the sessions' conditions in life-cycle state lc: 1 MANUFACTURE, 2 FIELD, 4 RETURN (R194). -/
def mirrorEvaluate (lc : Nat) (s : State) : State :=
  each [0, 1, 2, 3] (fun n s =>
    let fl := cfgN C.mirror n 0 1 s
    let dest := cfgN C.mirror n 1 1 s
    let reason :=
      if !bit fl 0 then 1
      else if lc = 1 ∨ lc = 4 then 0
      else if lc = 2 then (if !bit fl 1 then 1 else if macsecOn dest s then 0 else 3)
      else 2
    s |> wrB (F.MIR_SESSn_STAT_ACTIVE.u n) (reason == 0) |> wr (F.MIR_SESSn_STAT_REASON.u n) reason
      |> wr (F.MIR_SESSn_STAT_TRUNC.u n) (cfgN C.mirror n 2 1 s) |> wr (F.MIR_SESSn_STAT_DEST.u n) dest) s

/-- Every transition (R367): the new state is written, the operational keys are destroyed, in SCRAPPED the root keys and
the identity too, and a WRST with LIFECYCLE is requested. -/
def lcTransition (st : Nat) (s : State) : State :=
  let old := lcState s
  let keep (k : Nat) : Bool := isRoot k && st != 5
  { s with mram := { s.mram with lc := st }
           key := { s.key with slots := tfilter (fun k _ => keep k) s.key.slots, vols := [],
                               ident := if st = 5 then none else s.key.ident,
                               cert := if st = 5 then [] else s.key.cert } }
    |> lanesAbort |> keyShow |> lcShow |> mirrorEvaluate st |> record 0x0102 old st |> requestReset .lifeCycle

/-! ### Tamper responses (R388–R391) -/

/-- The response level of a source in the present state, from the policy record in MRAM (R388). -/
def tamperLevel (src : Nat) (s : State) : Nat :=
  if lcState s = 2 then (if s.mram.policy = [] then 2 else byteAt s.mram.policy src) else 1

/-- L3 asks for FIELD → QUARANTINED; until the record can be written L2 stays in force (R388, R498). -/
def tamperL3 (s : State) : State :=
  if lcState s = 2 then
    let (ok, s) := holdUpCheck 1 60 s
    if ok then inc F.PWR_NVM_CNT_DONE (lcTransition 3 s)
    else if lcPending s = some 3 then s
    else lcShow { s with mram := { s.mram with waiting := s.mram.waiting ++ [.lifeCycle 3] } }
  else s

/-- The release time of L2 counts from now: a source of level lvl was detected or cleared (R389). -/
def tamperQuiet (lvl : Nat) (s : State) : State := if lvl ≤ 1 then s else { s with key := { s.key with quiet := s.time.loc } }

/-- Apply the level of a detection (R388). -/
def tamperApply (src lvl : Nat) (s : State) : State :=
  let s := s |> record 0x0800 src lvl |> markMax F.KEY_TAMPER_STAT_LEVEL lvl |> tamperQuiet lvl
  if lvl ≤ 1 then s else if lvl = 2 then zeroise s else tamperL3 (zeroise s)

/-- A detection (R387, R388, R391): in STANDBY and SLEEP it is latched with its time tag, and at L2 and L3 the volatile slots
are zeroised at once. -/
def tamperDetect (src : Nat) (s : State) : State :=
  let lvl := tamperLevel src s
  let s := s |> wr F.KEY_TAMPER_STAT_ACTIVE (putBit (rd F.KEY_TAMPER_STAT_ACTIVE s) src true)
    |> wr F.KEY_TAMPER_STAT_LATCHED (putBit (rd F.KEY_TAMPER_STAT_LATCHED s) src true)
    |> inc F.KEY_TAMPER_CNT_DETECT
  if s.pwr.mode = 2 ∨ s.pwr.mode = 3 then
    let s := { s with key := { s.key with latched := s.key.latched ++ [(src, lvl, s.rcd.secs)] } }
    if 2 ≤ lvl then zeroise s else s
  else tamperApply src lvl s

/-! ### Completion of MRAM operations (R497–R500) -/

/-- The record that a completed operation leaves (R499, R500). -/
def mramApply : MramOp → State → State
  | .startRecord w, s =>
    let r := startRecPut w s.mram.start
    wr F.SYS_FLOOR_FLOOR r.floor { s with mram := { s.mram with start := r } }
  | .powerCycle, s =>
    let n := (s.mram.pcycle + 1) % 2 ^ 32
    wr F.REC_PCYCLE_COUNT n { s with mram := { s.mram with pcycle := n } }
  | .linkStart v, s =>
    { s with mram := { s.mram with linkStart := v % 2 ^ 32 },
             alm := { s.alm with seq := v * 2 ^ 24 % 2 ^ 32, used := 0, ready := true } }
  | .peerBase n b, s => { s with mram := { s.mram with peerBase := tput s.mram.peerBase n b } }
  | .keyUse k n, s =>
    let x := kslot k s
    let put (c : Option KeyCopy) : Option KeyCopy := c.map fun c => { c with rsv := n }
    kslotSet k (if x.useB then { x with b := put x.b } else { x with a := put x.a }) s
  | .lifeCycle st, s => lcTransition st s
  | .tamperPolicy b, s => { s with mram := { s.mram with policy := b } }
  | .tamperLatch a l t, s => tamperApply a l { s with mram := { s.mram with latchLog := (a, l, t) :: s.mram.latchLog } }
  | .recorderPage _, s => s

/-- The oldest started operation completes, valid mark included (R500). -/
def mramCompleteOne (s : State) : State := match s.mram.started with
  | [] => s
  | op :: r => inc F.PWR_NVM_CNT_DONE (mramApply op { s with mram := { s.mram with started := r } })

/-- Every started operation completes (R38, R500). -/
def mramCompleteAll (s : State) : State := (List.range s.mram.started.length).foldl (fun s _ => mramCompleteOne s) s

/-- Start an operation inside a command that waits for it: completed at once, or left waiting for its retry (R498). -/
def mramNow (op : MramOp) (s : State) : Bool × State :=
  let (ok, s) := holdUpCheck (mramNeed op).1 (mramNeed op).2 s
  if ok then (true, inc F.PWR_NVM_CNT_DONE (mramApply op s))
  else (false, { s with mram := { s.mram with waiting := s.mram.waiting ++ [op] } })

/-! ### Use counts (R376, R498) -/

/-- Whether the next use of slot k needs a new reservation. -/
def useNeeds (k : Nat) (s : State) : Bool := match slotKey k s with
  | some c => decide (k < 256) && c.limit != 0 && decide (c.rsv ≤ (kslot k s).count)
  | none => false

/-- Count a use of slot k; the answer is false while the reservation it needs cannot be written, and the request waits. -/
def useCount (k : Nat) (s : State) : Bool × State := match slotKey k s with
  | none => (true, s)
  | some c =>
    if 256 ≤ k ∨ c.limit = 0 then (true, s)
    else
      let waits := s.mram.waiting.any fun o => match o with | .keyUse j _ => j == k | _ => false
      let (ok, s) := if !useNeeds k s then (true, s) else if waits then (false, s) else mramNow (.keyUse k (c.rsv + 1024)) s
      if ok then (true, kslotSet k { kslot k s with count := (kslot k s).count + 1 } s) else (false, s)

/-! ### The latched detections (R391) -/

/-- At a resume or wake start the latched detections are transferred to the MRAM log and applied, each once its write has
started (R391, R498). -/
def tamperTransfer (s : State) : State :=
  s.key.latched.foldl (fun s x => (mramNow (.tamperLatch x.1 x.2.1 x.2.2) s).2) { s with key := { s.key with latched := [] } }

end Sys2Proof.Machine
end

