-- ==== Sys2Proof/Machine/Recorder.lean ====
section
/-! DEFINITION. The event recorder: operating seconds, flush, freeze, thaw and clear (16_power_nvm_recorder.md,
R503–R508). -/

namespace Sys2Proof.Machine

/-- The sequence and the operating seconds in the header that readers see, fixed by a freeze too (R504, R508). -/
def recTag (s : State) : Nat × Nat := if s.rcd.shadow.isSome then s.rcd.frozenTag else (rd F.REC_SEQ_SEQ s, s.rcd.secs)

/-- The image that readers see: fixed while a freeze is in force (R508). -/
def recSeen (s : State) : RecImage := s.rcd.live

/-- The MRAM area that holds the latest valid image: the higher sequence (R499, R507). false: A. -/
def recLatestB (s : State) : Bool := match s.rcd.areaA, s.rcd.areaB with
  | _, none => false
  | none, some _ => true
  | some a, some b => decide (a.seq < b.seq)

/-- The latest valid image, if any. -/
def recLatest (s : State) : Option RecStored := if recLatestB s then s.rcd.areaB else s.rcd.areaA

/-- The 32-bit word at offset o of the image (R504). -/
def imgWord (seq secs pcycle : Nat) (i : RecImage) (o : Nat) : Nat :=
  if o < 0x40 then
    if o = 0 then 0x96165245 else if o = 4 then seq else if o = 8 then secs else if o = 12 then pcycle
    else if o = 16 then i.head + 65536 * i.wraps else if o = 0x3C then 0x5A5AC3C3 else 0
  else if 0x100 ≤ o ∧ o < 0x500 then tget 0 i.counters ((o - 0x100) / 4)
  else if 0x500 ≤ o ∧ o < 0xA00 then tget 0 i.hists ((o - 0x500) / 4)
  else if 0xA00 ≤ o ∧ o < 0xA80 then
    match tfind i.extremes ((o - 0xA00) / 16) with
    | none => 0
    | some (v, t, p) => if o % 16 = 0 then v else if o % 16 = 8 then t else if o % 16 = 12 then p else 0
  else if 0x2000 ≤ o ∧ o < 0x12000 then
    let slot := (o - 0x2000) / 16
    -- the newest record stands one place before the log head
    match i.log[(i.head + 4096 - 1 - slot) % 4096]? with
    | none => 0
    | some r => if o % 16 = 0 then r.secs else if o % 16 = 4 then r.pcycle
                else if o % 16 = 8 then r.code + 65536 * r.src else r.data
  else 0

/-- n bytes of the image as readers see it, from offset o (R504). -/
def recBytes (o n : Nat) (s : State) : List Byte :=
  (List.range n).map fun k =>
    let a := o + k
    BitVec.ofNat 8 (imgWord (recTag s).1 (recTag s).2 s.mram.pcycle (recSeen s) (a / 4 * 4) / 256 ^ (a % 4))

/-- Add the shadow to the image: counters and bins are added, extremes compared, records appended in their order (R508). -/
def mergeShadow (a b : RecImage) : RecImage :=
  let addT (t u : Tbl Nat) : Tbl Nat := u.foldl (fun t e => tput t e.1 (min (tget 0 t e.1 + e.2) 0xFFFFFFFF)) t
  let ext := b.extremes.foldl (fun t e => match tfind t e.1 with
    | none => tput t e.1 e.2
    | some w => if extBetter e.1 e.2.1 w.1 then tput t e.1 e.2 else t) a.extremes
  let n := a.log.length + b.log.length
  { counters := addT a.counters b.counters, hists := addT a.hists b.hists, extremes := ext,
    log := (b.log ++ a.log).take 4096, head := (a.head + b.log.length) % 4096,
    wraps := (a.wraps + (n - max 4096 a.log.length) + b.wraps) % 65536 }

/-- The end of a freeze (R508). -/
def recThaw (s : State) : State := match s.rcd.shadow with
  | none => s
  | some b =>
    wrB F.REC_STAT_FROZEN false
      { s with rcd := { s.rcd with live := mergeShadow s.rcd.live b, shadow := none } }

/-- One freeze, with its status (R508). -/
def recFreeze (s : State) : Status × State := match s.rcd.shadow with
  | some _ => (.busy, s)
  | none => (.ok, wrB F.REC_STAT_FROZEN true { s with rcd := { s.rcd with shadow := some {}, frozenAt := s.time.loc, frozenTag := recTag s } })

/-- The image with the named categories zeroed (R508); the time tags stay. -/
def clearCats (c : Nat) (i : RecImage) : RecImage :=
  let i := if bit c 0 then { i with counters := [] } else i
  let i := if bit c 1 then { i with hists := [] } else i
  let i := if bit c 2 then { i with extremes := [] } else i
  if bit c 3 then { i with log := [], head := 0, wraps := 0 } else i

/-- The requester number of record 0x0C00 (R506). -/
def recWho : RecUser → Nat
  | .host _ => 0
  | .link => 1
  | .diag => 2

/-- One clear, with its status (R508): BUSY while frozen. -/
def recClear (who : RecUser) (cats : Nat) (s : State) : Status × State := match s.rcd.shadow with
  | some _ => (.busy, s)
  | none => (.ok, { s with rcd := { s.rcd with live := clearCats cats s.rcd.live } } |> record 0x0C00 (recWho who) cats)

/-- A recorder command with its answer: a host writes it to REC_CMD and reads its status in REC_CMD_STAT, the others get a
status byte while their service runs (R24, R508). -/
def recCommand (who : RecUser) (f : State → Status × State) (s : State) : State := match who with
  | .host i => hostWrite (match i with | .pcie => .pcie | .xspi => .xspi) 0x140020
      (fun s => (.ok, wr F.REC_CMD_STAT_STATUS (f s).1.code (f s).2)) s
  | _ => when (awake s) (fun s => emit (.resp [BitVec.ofNat 8 (f s).1.code]) (f s).2) s

/-- FREEZE (R508). -/
def execFreeze (who : RecUser) (s : State) : Res := .next (recCommand who recFreeze s)

/-- THAW (R508). -/
def execThaw (who : RecUser) (s : State) : Res := .next (recCommand who (fun s => (.ok, recThaw s)) s)

/-- A clear over REC_CMD needs the key 0xC7 in the same write (R508). -/
def recClearKey (who : RecUser) (cats key : Nat) (s : State) : Status × State :=
  if key = 0xC7 then recClear who cats s else (.denied, s)

/-- CLEAR (R508). -/
def execClear (who : RecUser) (cats : BitVec 4) (key : BitVec 8) (s : State) : Res :=
  .next (recCommand who (match who with
    | .host _ => recClearKey who cats.toNat key.toNat
    | _ => recClear who cats.toNat) s)

/-- The automatic thaw is due: 2 s after the freeze (R508). -/
def thawDue (s : State) : Bool := decide (2 ≤ (s.time.loc - s.rcd.frozenAt) / 1000000000)

/-- AUTOMATIC_THAW (R508): 2 s after the freeze. -/
def execAutomaticThaw (s : State) : Res := .next (when (thawDue s) recThaw s)

/-- OPERATING_SECONDS (R503): the count advances outside SLEEP and OFF. -/
def execOperatingSeconds (s : State) : Res :=
  let n := (s.rcd.secs + 1) % 2 ^ 32
  .next (when (decide (s.pwr.mode ≤ 2)) (fun s => wr F.REC_OPTIME_SECONDS n { s with rcd := { s.rcd with secs := n } }) s)

/-- One attempt to write the image to the area that does not hold the latest valid image: pages 1 to 8, then page 0, then
the valid mark with the next sequence (R507). Each of the nine pages is checked (R497). The answer says whether it was
completed. -/
def recFlushTry (s : State) : Bool × State :=
  let (ok, s) := holdUpCheck 6 450 s
  if ok then
    let seq := ((recLatest s).map (·.seq)).getD 0 + 1
    let img : RecStored := ⟨seq % 2 ^ 32, (recTag s).2, s.mram.pcycle, recSeen s⟩
    let b := !(recLatestB s) && (recLatest s).isSome
    let rcd := if b then { s.rcd with areaB := some img, flushing := false }
               else { s.rcd with areaA := some img, flushing := false }
    let s := (List.range 8).foldl (fun s _ => histAdd 17 16 (storedEnergy s) s) s
    (true, { s with rcd := rcd } |> wrB F.REC_STAT_IMAGE b |> wr F.REC_SEQ_SEQ seq |> inc F.REC_FLUSH_CNT_DONE
      |> wrB F.REC_STAT_FLUSHING false |> incBy F.PWR_NVM_CNT_DONE 9)
  else (false, s)

/-- A periodic flush or its retry: a failed check pauses it (R507). -/
def recFlushPeriodic (s : State) : State := match recFlushTry s with
  | (true, s) => s
  | (false, s) =>
    { s with rcd := { s.rcd with flushing := true } } |> wrB F.REC_STAT_FLUSHING true |> inc F.REC_FLUSH_CNT_RETRY

/-- The flush of sleep entry: a failed check abandons it and the previous image stays valid (R507). -/
def recFlushSleep (s : State) : State := match recFlushTry s with
  | (true, s) => s
  | (false, s) => inc F.REC_FLUSH_CNT_ABANDONED
      { s with rcd := { s.rcd with flushing := false } }

/-- RECORDER_FLUSH (R507): in STANDBY and SLEEP the MRAM takes no new operation (R24). -/
def execRecorderFlush (s : State) : Res := .next (when (awake s) recFlushPeriodic s)

/-- FLUSH_RETRY (R507): 10 ms after a paused flush. -/
def execFlushRetry (s : State) : Res := .next (when (s.rcd.flushing && awake s) recFlushPeriodic s)

/-- At every start the recorder loads the valid image with the higher sequence, or starts empty (R507). The operating
seconds resume from it at a POR (R503). -/
def recLoad (por : Bool) (s : State) : State :=
  let st := recLatest s
  let img := (st.map (·.img)).getD {}
  let secs := if por then (st.map (·.secs)).getD 0 else s.rcd.secs
  { s with rcd := { s.rcd with live := img, shadow := none, flushing := false, secs := secs } }
    |> wr F.REC_SEQ_SEQ ((st.map (·.seq)).getD 0) |> wrB F.REC_STAT_IMAGE (recLatestB s)
    |> wr F.REC_OPTIME_SECONDS secs |> wr F.REC_PCYCLE_COUNT s.mram.pcycle

end Sys2Proof.Machine
end

