-- ==== Sys2Proof/Machine/Power.lean ====
section
/-! DEFINITION. Power: brown-out, supply droop, thermal shedding, the hold-up gauge, the MRAM retries and the hardground
watchdog (16_power_nvm_recorder.md, R491–R502). -/

namespace Sys2Proof.Machine

/-! ### Brown-out and droop (R491–R493) -/

/-- The rails that INH switches are up, and what measures them and the die runs (R24, R489). -/
def railsUp (s : State) : Bool := decide (s.pwr.mode ≤ 2)

/-- A new reading of VDD_CORE [mV]: the lowest one is kept in PWR_VCORE_MIN and in the recorder extremes (R493). -/
def vcoreSeen (mv : Nat) (s : State) : State :=
  { s with pwr := { s.pwr with vcore := mv, lowAt := if mv < 720 then s.time.loc else s.pwr.lowAt,
                               dipAt := if mv ≤ 720 then s.time.loc else s.pwr.dipAt } } |> markMin F.PWR_VCORE_MIN_MV mv |> extreme 2 mv

/-- BROWN_OUT (R491, R500): the lowest reading waits for its record. -/
def execBrownOut (mv : Nat) (s : State) : Res :=
  .next (if !railsUp s then s
  else if mv < 650 then
    { vcoreSeen mv s with pwr := { (vcoreSeen mv s).pwr with brown := true, brownRec := some (min mv (s.pwr.brownRec.getD mv)) } }
      |> wr F.PWR_STAT_BROWNOUT 1 |> gateSilent 1 |> assertFault
  else vcoreSeen mv s)

/-- BROWN_OUT_RECOVERY (R491): VDD_CORE has stayed above 0.720 V for 1 ms: the reset request, with PROTECT. -/
def execBrownOutRecovery (s : State) : Res :=
  .next (when (s.pwr.brown && railsUp s && decide (s.pwr.dipAt + 1000000 ≤ s.time.loc)) (fun s => requestReset .protect { s with pwr := { s.pwr with brown := false } }) s)

/-- A change of the droop state: recorded and counted (R493). 0 FULL, 1 HALF, 2 QUARTER. -/
def droopTo (n : Nat) (s : State) : State :=
  let s := record 0x0200 0 n (wr F.PWR_STAT_DROOP n s)
  if n = 1 then inc F.PWR_DROOP_CNT_HALF s
  else if n = 2 then inc F.PWR_DROOP_CNT_QUARTER s
  else s

/-- DROOP (R492): below 0.700 V in FULL the domains step to HALF; below 0.675 V HALF is left for QUARTER. -/
def execDroop (mv : Nat) (s : State) : Res :=
  .next (when (railsUp s) (fun s =>
    let s := vcoreSeen mv s
    let s := if rd F.PWR_STAT_DROOP s = 0 ∧ mv < 700 then
      droopTo 1 { s with pwr := { s.pwr with droopAt := s.time.loc } } else s
    if rd F.PWR_STAT_DROOP s = 1 ∧ mv < 675 then droopTo 2 s else s) s)

/-- DROOP_HALF_CHECK (R492): 100 ns after the entry into HALF. -/
def execDroopHalfCheck (mv : Nat) (s : State) : Res :=
  .next (when (railsUp s) (fun s =>
    let s := vcoreSeen mv s
    if rd F.PWR_STAT_DROOP s = 1 ∧ mv < 700 ∧ s.pwr.droopAt + 100 ≤ s.time.loc then droopTo 2 s else s) s)

/-- DROOP_RELEASE (R492): VDD_CORE has stayed at or above 0.720 V for 1 µs: back to full clock; the episode enters the droop
histogram (R493). A fall of the same tick wins. -/
def execDroopRelease (s : State) : Res :=
  .next (if rd F.PWR_STAT_DROOP s = 0 ∨ railsUp s = false ∨ s.time.loc < s.pwr.lowAt + 1000 then s
    else histAdd 16 16 (s.time.loc - s.pwr.droopAt) (droopTo 0 s))

/-- The divider of the stretched domains (R22, R492); OVERTEMP holds it at 4 (R495). -/
def clockDiv (s : State) : Nat :=
  if rd F.PWR_STAT_THERM s = 4 then 4 else 2 ^ rd F.PWR_STAT_DROOP s

/-! ### Thermal shedding (R494, R495) -/

/-- The ten bytes of thermal parameters in force: thresholds, hysteresis, class bounds, reserved, release hold; empty with
a blank start record (R495, R510). -/
def thermParams (s : State) : List Nat :=
  if cfgHas C.clockPower 0 s then (List.range 10).map fun i => cfgN C.clockPower 0 (8 + i) 1 s
  else s.mram.start.therm

/-- The threshold of level 1 to 3 [0.5 °C], if set. -/
def thermThr (n : Nat) (s : State) : Option Int := (thermParams s)[n - 1]?.map fun c => 2 * (c : Int)

/-- The highest level whose threshold temperature t [0.5 °C] reaches. -/
def thermReached (t : Int) (s : State) : Nat :=
  if 310 ≤ t then 4
  else if (thermThr 3 s).any (· ≤ t) then 3
  else if (thermThr 2 s).any (· ≤ t) then 2
  else if (thermThr 1 s).any (· ≤ t) then 1 else 0

/-- Below this temperature [0.5 °C] level n starts a release hold. -/
def thermRelease (n : Nat) (s : State) : Int :=
  if n = 4 then 280 else (thermThr n s).getD 0 - 2 * ((thermParams s).getD 3 0 : Int)

/-- The class bound in force: frames of a lower class are refused on queues 0–639 (R495). -/
def shedBound (s : State) : Nat :=
  let l := rd F.PWR_STAT_THERM s
  if l = 0 then 0 else (thermParams s).getD (3 + min l 3) 0

/-- The sensor with the highest reading, the lowest index on a tie, and the reading. -/
def hottest (l : List Int) : Nat × Int :=
  (List.range l.length).foldl (fun b i => if b.2 < l.getD i 0 then (i, l.getD i 0) else b) (0, l.getD 0 0)

/-- A change of the thermal level (R493 of R33, R495). -/
def thermTo (sensor n : Nat) (s : State) : State :=
  let s := record 0x0201 sensor n (wr F.PWR_STAT_THERM n s)
  if n = 4 then assertFault (gateSilent 2 s) else s

/-- A new reading of sensor n. -/
def tempSeen (n : Nat) (t : Int) (s : State) : State :=
  let s := wrI (F.PWR_TEMPn_NOW.u n) t s
  if rdI (F.PWR_TEMPn_MAX.u n) s < t then wrI (F.PWR_TEMPn_MAX.u n) t s else s

/-- The release hold [ns] (R495, R510): 1 s with a blank start record. -/
def thermHold (s : State) : Nat :=
  let p := thermParams s
  (if p = [] then 1000 else p.getD 8 0 + 256 * p.getD 9 0) * 1000000

/-- The release hold goes on, begins or is broken by a temperature of hi at level n (R495). -/
def holdTo (n : Nat) (hi : Int) (s : State) : State :=
  let run := decide (0 < n) && decide (hi < thermRelease n s)
  { s with pwr := { s.pwr with holdRun := run, holdAt := if s.pwr.holdRun then s.pwr.holdAt else s.time.loc } }

/-- Readings of the four sensors: the level rises at once; a release hold runs while the temperature stays below the level's
threshold minus the hysteresis (R494, R495). -/
def thermSample (l : List Int) (s : State) : State :=
  let s := { s with pwr := { s.pwr with temps := l } }
    |> each (List.range 4) (fun n => tempSeen n (l.getD n 0))
    |> each l (fun x s => extreme 1 (twos 32 x) (extreme 0 (twos 32 x) s))
  let (sensor, hi) := hottest l
  let cur := rd F.PWR_STAT_THERM s
  if cur < thermReached hi s then thermTo sensor (thermReached hi s) { s with pwr := { s.pwr with holdRun := false } }
  else holdTo cur hi s

/-- THERMAL_SAMPLE (R494, R495). -/
def execThermalSample (t : TempSample) (s : State) : Res :=
  .next (when (railsUp s) (thermSample [t.t0, t.t1, t.t2, t.t3]) s)

/-- The release hold has run its time (R495). -/
def holdDue (s : State) : Bool := s.pwr.holdRun && railsUp s && decide (s.pwr.holdAt + thermHold s ≤ s.time.loc)

/-- RELEASE_HOLD (R495): the hold is over; the level falls by one and a fresh hold starts, or OVERTEMP is left through the
reset request. -/
def execReleaseHold (s : State) : Res :=
  let cur := rd F.PWR_STAT_THERM s
  .next (if !holdDue s || cur == 0 then s
  else if cur = 4 then requestReset .protect { s with pwr := { s.pwr with holdRun := false } }
  else
    let (sensor, hi) := hottest s.pwr.temps
    holdTo (cur - 1) hi (thermTo sensor (cur - 1) { s with pwr := { s.pwr with holdRun := false } }))

/-! ### Hold-up gauge and MRAM (R496–R500) -/

/-- One sample of HU_SENSE: clamped to 1.2 V (R536), the lowest of the last four is V_S (R496). -/
def gaugeSample (mv : Nat) (s : State) : State :=
  let s := { s with pwr := { s.pwr with samples := (min mv 1200 :: s.pwr.samples).take 4 } }
  s |> wr F.PWR_HOLDUP_SENSE (gaugeVs s) |> wr F.PWR_HOLDUP_ENERGY (min (storedEnergy s) (2 ^ 20 - 1))

/-- HOLD_UP_GAUGE_SAMPLE (R496). -/
def execHoldUpGaugeSample (mv : Nat) (s : State) : Res := .next (when (railsUp s) (gaugeSample mv) s)

/-- MRAM_COMPLETION (R500): a started operation completes, valid mark included. -/
def execMramCompletion (s : State) : Res := .next (mramCompleteOne s)

/-! ### Watchdog and heartbeats (R502) -/

/-- WATCHDOG_PERIOD (R502): WDT_OUT changes between driven low and released. -/
def execWatchdogPeriod (s : State) : Res :=
  .next (when s.pwr.wdtRun (fun s => { s with pwr := { s.pwr with wdtLow := !s.pwr.wdtLow } }) s)

/-- A write of PWR_HEARTBEAT (R502), with the status an xSPI write returns: with key 0x5AF0 it records the cores it names. -/
def heartbeat (v : Nat) (s : State) : Status × State :=
  (.ok, if v / 65536 % 65536 = 0x5AF0 then { s with pwr := { s.pwr with beats := s.pwr.beats ||| v % 16 } } else s)

/-- PWR_HEARTBEAT (R502). -/
def execPwrHeartbeat (who : Initiator) (v : Word) (s : State) : Res := .next (hostWrite who 0x10030 (heartbeat v.toNat) s)

/-- The cores that have an enabled slot, as a mask (R365, R502). -/
def beatingCores (s : State) : Nat :=
  ofBits ((List.range 4).filter fun c => (List.range 16).any fun k => bit (cfgN C.ctlSlot (16 * c + k) 7 1 s) 0)

/-- HEARTBEAT_WINDOW (R502): from the full stage, while the cores' domain is on, with a bit missing the transmitters are
gated, FAULT_N is asserted, WDT_OUT stops and the reset request follows with WDOG. -/
def execHeartbeatWindow (s : State) : Res :=
  let miss := clearBits (beatingCores s) s.pwr.beats
  let s' := { s with pwr := { s.pwr with beats := 0 } }
  .next (if isFull s && awake s && miss != 0 then
    { s' with pwr := { s'.pwr with wdtRun := false, wdtLow := false } }
      |> record 0x0204 miss 0 |> gateSilent 5 |> assertFault |> requestReset .wdog
  else s')

end Sys2Proof.Machine
end

