-- ==== Sys2Proof/Machine/Qm.lean ====
section
/-! DEFINITION. The packet buffer and the queue manager: cells, admission, linking, eviction, flush and pops
(04_switch_core.md, R123–R155). -/

namespace Sys2Proof.Machine

/-- The frame number f. -/
def fr (f : Nat) (s : State) : Fr := tget {} s.qm.frames f
/-- Frame f changed. -/
def frSet (f : Nat) (x : Fr) (s : State) : State := { s with qm := { s.qm with frames := tput s.qm.frames f x } }
/-- Queue q. -/
def qu (q : Nat) (s : State) : Queue := tget {} s.qm.queues q
/-- Queue q changed. -/
def quSet (q : Nat) (x : Queue) (s : State) : State := { s with qm := { s.qm with queues := tput s.qm.queues q x } }

/-- The number of cells of a frame of L bytes (R124). -/
def cellsOf (len : Nat) : Nat := cdiv len 128
/-- The bank of a cell (R123). -/
def bankOf (c : Nat) : Nat := c / 8192
/-- Whether a cell belongs to the reserved pool (R123). -/
def isRsvCell (c : Nat) : Bool := decide (7680 ≤ c % 8192)
/-- Whether a queue is stipple-reserved (R136). -/
def isRsvQueue (q : Nat) : Bool := decide (816 ≤ q) && decide (q ≤ 943)

/-- The flags byte of queue q's record (R159). -/
def qFlags (q : Nat) (s : State) : Nat := cfgN C.queueRec q 1 1 s
/-- Whether queue q accepts frames (R136): enabled, and none of 806–815 (R192). -/
def qEnabled (q : Nat) (s : State) : Bool := bit (qFlags q s) 0 && !(decide (806 ≤ q) && decide (q ≤ 815))
/-- The profile of queue q. -/
def qProfile (q : Nat) (s : State) : Nat := cfgN C.queueRec q 0 1 s
/-- The target of a stipple-reserved queue: kind and index (R159). -/
def qTarget (q : Nat) (s : State) : Nat × Nat := (cfgN C.queueRec q 4 2 s / 4096, cfgN C.queueRec q 4 2 s % 4096)

/-! ### Cells (R123, R125, R130) -/

/-- Cells of a pool in use in a bank. -/
def usedIn (bank : Nat) (rsv : Bool) (s : State) : Nat :=
  (s.qm.used.filter fun c => bankOf c == bank && isRsvCell c == rsv).length
/-- Whether a bank has a free cell of a pool. -/
def bankFree (bank : Nat) (rsv : Bool) (s : State) : Bool :=
  decide (usedIn bank rsv s < if rsv then 512 else 7680)
/-- F: the free bulk cells, evicted cells credited at once (R141, R143). -/
def bulkFree (s : State) : Nat :=
  122880 - (s.qm.used.filter fun c => !isRsvCell c).length + s.qm.bgEvict.length
/-- The free reserved cells. -/
def rsvFree (s : State) : Nat := 8192 - (s.qm.used.filter isRsvCell).length

/-- The lowest F is kept in QM_BULK_LOW and in the recorder extremes (R505, R550). -/
def bulkMark (s : State) : State := s |> markMin F.QM_BULK_LOW_LOW (bulkFree s) |> extreme 7 (bulkFree s)

/-- Take a cell of a pool from a bank's free list. The manual does not say in which order a free list gives out its
cells: the place at which the search starts is a free value. -/
def takeCell (bank : Nat) (rsv : Bool) (s : State) : Nat × State :=
  let (v, s) := fresh s
  let n := if rsv then 512 else 7680
  let base := bank * 8192 + if rsv then 7680 else 0
  let free (c : Nat) : Bool := !s.qm.used.contains c
  let c := match firstIn (base + v % n) free (n - v % n) with
    | some c => c
    | none => (firstIn base free n).getD base
  (c, { s with qm := { s.qm with used := sins s.qm.used c } })

/-- Return a cell to its free list. -/
def freeCell (c : Nat) (s : State) : State := { s with qm := { s.qm with used := sdel s.qm.used c } }

/-- Up to 16 background cells return in a cell time: those of flushes first (R150). -/
def bgReturn (s : State) : State :=
  let n := min 16 s.qm.bgFlush.length
  let a := s.qm.bgFlush.take n
  let b := s.qm.bgEvict.take (16 - n)
  let s := { s with qm := { s.qm with bgFlush := s.qm.bgFlush.drop n, bgEvict := s.qm.bgEvict.drop (16 - n) } }
  each (a ++ b) freeCell s

/-! ### Frames and references (R137, R153) -/

/-- Create a descriptor; the number is the model's own. -/
def newFrame (x : Fr) (s : State) : Nat × State :=
  (s.qm.nextId, { s with qm := { s.qm with nextId := s.qm.nextId + 1, frames := tput s.qm.frames s.qm.nextId x } })

/-- The cells that a destination counts of a frame of `need` cells: a truncated copy counts no more than its truncation. -/
def destCells (need : Nat) (d : Nat × Bool × Nat) : Nat := if d.2.2 = 0 then need else min need d.2.2

/-- Queues count the cells of an unlinked frame no longer (R141). -/
def unhold (need : Nat) (ds : List (Nat × Bool × Nat)) (s : State) : State :=
  each ds (fun d s => quSet d.1 { qu d.1 s with cells := (qu d.1 s).cells - destCells need d } s) s

/-- Forget a descriptor: its remaining cells return at once, and the queues it was still to be linked into count it no
longer (R141). -/
def dropFrame (f : Nat) (s : State) : State :=
  let x := fr f s
  let s := unhold x.need x.dests s
  let s := each (x.cells.drop x.freed) freeCell s
  { s with qm := { s.qm with frames := terase s.qm.frames f, reads := s.qm.reads.filter (·.fid != f) } }

/-- Forget a descriptor; its remaining cells return in the background. -/
def dropFrameBg (evict : Bool) (f : Nat) (s : State) : State :=
  let x := fr f s
  let l := x.cells.drop x.freed
  let qm := if evict then { s.qm with bgEvict := s.qm.bgEvict ++ l } else { s.qm with bgFlush := s.qm.bgFlush ++ l }
  { s with qm := { qm with frames := terase qm.frames f, reads := qm.reads.filter (·.fid != f) } }

/-- One entry or holder of a frame is finished: the last one frees it (R137). -/
def unref (f : Nat) (s : State) : State :=
  let x := fr f s
  if x.refs ≤ 1 then dropFrame f s else frSet f { x with refs := x.refs - 1 } s

/-- A consumer releases a frame it holds (R153). -/
def releaseFrame (f : Nat) (s : State) : State := frSet f { fr f s with held := (fr f s).held - 1 } s |> unref f

/-! ### Cells read by consumers that hold a frame (R131, R322, R323) -/

/-- A reader asks for cells `next` to `last` − 1 of frame f, which came from queue q. -/
def readAsk (who : Reader) (q f next last : Nat) (s : State) : State :=
  { s with qm := { s.qm with reads := s.qm.reads ++ [⟨who, q, f, next, last⟩] } }
/-- A reader's requests end. -/
def readStop (p : Reader → Bool) (s : State) : State :=
  { s with qm := { s.qm with reads := s.qm.reads.filter fun r => !p r.who } }
/-- A reader still waits for cells. -/
def reading (who : Reader) (s : State) : Bool := s.qm.reads.any (·.who == who)

/-- The 32 descriptor bytes a consumer receives through an entry (R138): a mirror copy sets MIRROR and has kind 6 in its
lookup data (R163, R195), a copy marked by a flush sets BAD_TAIL. -/
def entDesc (e : QEnt) (s : State) : List Byte :=
  let x := fr e.fid s
  let flags := b2n x.ct + 2 * b2n (x.bad || e.bad) + 4 * b2n x.noEvict + 8 * b2n x.tsReq + 16 * b2n e.mir + 32 * b2n x.inProg
  leBytes 4 (x.cells.headD 0) ++ leBytes 2 x.data.length ++ leBytes 1 x.need ++ leBytes 1 x.refs ++ leBytes 8 x.ts
    ++ leBytes 2 x.src ++ leBytes 2 flags ++ leBytes 1 x.cls ++ leBytes 1 0 ++ leBytes 2 x.vlan ++ leBytes 2 x.stream
    ++ leBytes 2 (if e.mir then 6 * 8192 + x.lookup % 8192 else x.lookup) ++ leBytes 4 x.user
/-- The descriptor of a frame that is no mirror copy. -/
def descBytes (f : Nat) (s : State) : List Byte := entDesc { fid := f } s

/-! ### Admission (R136, R141–R146, R495) -/

/-- The entries in use (R137): those of linked frames, and those kept for frames that are admitted and not yet linked. -/
def entriesUsed (s : State) : Nat :=
  (s.qm.queues.map fun e => e.2.ents.length).sum + (s.qm.frames.map fun e => e.2.dests.length).sum

/-- The descriptors in use (R137): a frame that waits for its lookup has none yet. -/
def descUsed (s : State) : Nat := (s.qm.frames.filter fun e => e.2.phase != 0).length

/-- A free descriptor and n free queue entries (R137). -/
def entriesFree (n : Nat) (s : State) : Bool := decide (descUsed s < 131072) && decide (entriesUsed s + n ≤ 262144)

/-- The threshold of R141: Q < MIN or Q < α × F, with α = 2^(k−4). -/
def thresholdOk (q : Nat) (s : State) : Bool :=
  let p := qProfile q s
  let Q := (qu q s).cells
  decide (Q < rd (F.QM_PROFn_MIN.u p) s) || decide (16 * Q < 2 ^ rd (F.QM_PROFn_ALPHA.u p) s * bulkFree s)

/-- The queues of q's class pool below its class, lowest class first (R143). -/
def poolBelow (q : Nat) : List Nat :=
  if q < 256 then (List.range (q % 8)).map fun c => q - q % 8 + c
  else if q < 640 then (List.range (q % 4)).map fun c => q - q % 4 + c else []

/-- Whether the tail frame of queue q may be evicted (R144); a first read in the running cell time is left to R145. -/
def evictable (q : Nat) (s : State) : Bool := match (qu q s).ents.getLast? with
  | none => false
  | some e =>
    let x := fr e.fid s
    x.phase == 3 && !x.inProg && !e.out && x.refs == 1 && !bit (qFlags q s) 2 && !x.noEvict
      && ((e.read == 0 && !(s.qm.cur.any fun c => c.2.2 == e.fid)) || s.qm.firstRead.contains e.fid)

/-- Evict the tail frame of queue q (R143): its cells are credited at once and return in the background. When the frame's
first read falls in the same cell time, the read wins and nothing is evicted (R145). -/
def evictTail (q : Nat) (s : State) : State := match (qu q s).ents.getLast? with
  | none => s
  | some e =>
    let Q := qu q s
    if s.qm.firstRead.contains e.fid then s
    else quSet q { Q with ents := Q.ents.dropLast, cells := Q.cells - (fr e.fid s).need, evicted := min (Q.evicted + 1) 0xFFFFFFFF } s
      |> dropFrameBg true e.fid |> inc F.QM_EVICT_CNT_COUNT

/-- Push-out before an admission to q while F is below the margin (R143): at most one frame. -/
def pushOut (q : Nat) (s : State) : State :=
  if q < 640 && decide (bulkFree s < rd F.QM_CFG_MARGIN s) then
    match (poolBelow q).find? (evictable · s) with
    | some l => evictTail l s
    | none => s
  else s

/-- A refusal at queue q, counted there. -/
def refuseAt (q : Nat) (s : State) : State :=
  quSet q { qu q s with refused := min ((qu q s).refused + 1) 0xFFFFFFFF } s

/-- Admission of a frame of `need` cells, class c, to queue q (R136, R141, R143, R146, R495). The pool does not limit an
admission, but for a source that keeps its frame and is told that no cells are free (`must`, R334). -/
def admitOne (must : Bool) (need c : Nat) (exempt : Bool) (q : Nat) (s : State) : Bool × State :=
  if !qEnabled q s then (false, refuseAt q s)
  else if isRsvQueue q then
    if need ≤ rsvFree s ∧ (qu q s).cells + need ≤ cfgN C.queueRec q 2 2 s then (true, s)
    else (false, refuseAt q s |> inc F.STP_REFUSE_CNT_COUNT)
  else if q < 640 && !exempt && decide (c < shedBound s) then
    (false, refuseAt q s |> inc F.PWR_SHED_CNT_COUNT)
  else
    let s := pushOut q s
    if thresholdOk q s then (!(must && decide (bulkFree s < need)), s) else (false, refuseAt q s)

/-- Count a frame's cells in a queue that admits it, with the high-water mark (R141, R160). -/
def holdCells (need q : Nat) (s : State) : State :=
  let Q := qu q s
  quSet q { Q with cells := Q.cells + need, high := max Q.high (Q.cells + need) } s

/-- Admission to several queues, each separately: the queues that admit it (R141). -/
def admitAll (must : Bool) (need c : Nat) (exempt : Bool) (qs : List (Nat × Bool × Nat)) (s : State) :
    List (Nat × Bool × Nat) × State :=
  qs.foldl (fun (a : List (Nat × Bool × Nat) × State) q =>
    let n := destCells need q
    let (ok, s) := admitOne must n c exempt q.1 a.2
    if ok then (a.1 ++ [q], holdCells n q.1 s) else (a.1, s)) ([], s)

/-- A frame that no queue admits is dropped (R136, R141). A refusal by an enabled stipple-reserved queue is counted under
R114 instead (R146). -/
def dropThr (ds : List (Nat × Bool × Nat)) (s : State) : State :=
  when (ds.any fun d => !isRsvQueue d.1 || !qEnabled d.1 s) (inc F.QM_DROP_THR_COUNT) s

/-- The destinations `ds` have admitted a frame of `need` cells: without a descriptor and an entry for each of them the
frame is discarded whole (R137). -/
def admitLinks (need : Nat) (ds : List (Nat × Bool × Nat)) (s : State) : Bool × State :=
  if entriesFree ds.length s then (true, s) else (false, inc F.QM_DROP_POOL_COUNT (unhold need ds s))

/-- The cells of an entry's copy: those of its frame, as far as the copy goes (R195) or a flush has cut it (R150). -/
def entLen (e : QEnt) (s : State) : Nat :=
  let n := if e.trunc = 0 then (fr e.fid s).need else min (fr e.fid s).need e.trunc
  if e.stop = 0 then n else min n e.stop
/-- The cells that an entry counts in its queue (R141): those of its copy that are not yet read; none once a flush took it
(R150). -/
def entCells (e : QEnt) (s : State) : Nat := if e.out then 0 else entLen e s - e.read
/-- The entries of queue q that no flush has taken (R150). -/
def linked (q : Nat) (s : State) : List QEnt := (qu q s).ents.filter fun e => !e.out

/-- The head frame of queue q may leave: in a stipple-reserved queue once a stipple has released it (R103). -/
def headReleased (q : Nat) (s : State) : Bool := match (qu q s).ents with
  | [] => false
  | e :: _ => !isRsvQueue q || e.rel

/-! ### Linking and leaving queues (R140, R150, R153, R155) -/

/-- Link a frame into queue q (R140). -/
def linkFrame (f : Nat) (q : Nat) (mir : Bool) (trunc : Nat) (s : State) : State :=
  let Q := qu q s
  quSet q { Q with ents := Q.ents ++ [{ fid := f, mir := mir, trunc := trunc }], enq := min (Q.enq + 1) 0xFFFFFFFF } s

/-- Take the head entry of queue q: the frame and its entry (R153). The queue keeps counting the cells of a held frame no
longer. -/
def popHead (q : Nat) (s : State) : Option QEnt × State := match (qu q s).ents with
  | [] => (none, s)
  | e :: r =>
    let Q := qu q s
    (some e, quSet q { Q with ents := r, cells := Q.cells - entCells e s } s
      |> frSet e.fid { fr e.fid s with held := (fr e.fid s).held + 1 })

/-- A flush removes the frame of queue q that stands in a CAN transmit slot: an attempt that runs completes and is never
retried; without one the slot empties as soon as this tick is over, since an SOF of the same tick wins (R245). -/
def flushSlots (q : Nat) (s : State) : State :=
  each (s.can.chans.filter fun c => match c.2.slot with | some x => x.1 == q && !c.2.gone | none => false) (fun c s =>
    { s with can := { s.can with chans := tput s.can.chans c.1 { c.2 with gone := true, flushAt := s.time.loc } } }) s

/-- Mark a frame at its tail (R20, R149). -/
def markBad (f : Nat) (s : State) : State :=
  if (fr f s).bad then s else inc F.FAB_STOMP_CNT_COUNT (frSet f { fr f s with bad := true } s)

/-- The queues that hold an entry of frame f. -/
def queuesOf (f : Nat) (s : State) : List Nat := (s.qm.queues.filter fun e => e.2.ents.any (·.fid == f)).map (·.1)

/-- The storing of a frame stops: it ends with the cells it holds, in every queue it is being sent from; the queues that
were to get it at its tail count it no longer (R20, R142). -/
def stopStoring (f : Nat) (s : State) : State :=
  let x := fr f s
  let n := x.cells.length
  let s := unhold x.need x.dests s
  let s := each ((queuesOf f s).filter fun q => (linked q s).any (·.fid == f)) (fun q s =>
    quSet q { qu q s with cells := (qu q s).cells - (x.need - n) } s) s
  markBad f (frSet f { x with data := if n < x.need then x.data.take (128 * n) else x.data, cut := x.cut || decide (n < x.need),
                              need := n, dests := [], refs := x.refs - x.dests.length, phase := 2, inProg := false } s)

/-- A flush takes the frame that a port is sending from queue q: the entry counts no longer, and the copy is completed from
the cells held for it and marked at its tail (R20, R150). A frame that is still being stored for this queue alone stops
being stored; one that other queues hold too goes on there, and this copy ends with the cells held now. -/
def flushSent (q f : Nat) (s : State) : State :=
  let x := fr f s
  let mark (e : QEnt) : QEnt := if e.fid == f then { e with out := true } else e
  let s := quSet q { qu q s with ents := (qu q s).ents.map mark } s
  if x.refs ≤ 1 then if x.phase = 1 then stopStoring f s else markBad f s
  else
    let cutE (e : QEnt) : QEnt := if e.fid == f then { e with bad := true, stop := if x.phase = 1 then x.cells.length else 0 } else e
    when (!x.bad) (inc F.FAB_STOMP_CNT_COUNT) (quSet q { qu q s with ents := (qu q s).ents.map cutE } s)

/-- A frame that is being written loses a reference: the last one discards it as its remaining cells arrive (R150). -/
def flushWritten (f n : Nat) (s : State) : State :=
  let x := fr f s
  frSet f { x with refs := x.refs - n, gone := x.gone || decide (x.refs ≤ n) } s

/-- Flush queue q (R150): it holds no linked frame afterwards, every removed entry drops its reference, a frame being
written into it is discarded, and a frame that a port is sending is completed and stomped. A frame whose tail cell is
written is at its enqueue commit and is linked after the flush (R152). -/
def flushQueue (q : Nat) (s : State) : State :=
  let Q := qu q s
  let live := linked q s
  let sent (e : QEnt) : Bool := s.qm.cur.any fun c => c.2 == (q, e.fid)
  let rest := live.filter fun e => !sent e
  let gone := (live.map (entCells · s)).sum
  let s := quSet q { Q with ents := Q.ents.filter (fun e => e.out || sent e), cells := Q.cells - gone,
                            flushed := min (Q.flushed + live.length) 0xFFFFFFFF } s
  let s := each ((live.filter sent).map (·.fid)) (flushSent q) s
  let s := each (rest.map (·.fid)) (fun f s =>
    if (fr f s).phase = 1 then flushWritten f 1 s
    else if (fr f s).refs ≤ 1 then dropFrameBg false f s else frSet f { fr f s with refs := (fr f s).refs - 1 } s) s
  -- frames still being written into the queue lose that destination
  let s := each ((s.qm.frames.filter fun e => e.2.phase == 1 && e.2.dests.any fun d => d.1 == q).map (·.1)) (fun f s =>
    let x := fr f s
    let l := x.dests.filter fun d => d.1 == q
    flushWritten f l.length (frSet f { x with dests := x.dests.filter fun d => d.1 != q } (unhold x.need l s))) s
  flushSlots q { s with qm := { s.qm with flushing := sins s.qm.flushing q } }

/-- A flush that the device makes itself, never refused (R151). -/
def deviceFlush (q : Nat) (s : State) : State :=
  let s := flushQueue q s
  s |> wr F.QM_FLUSH_STAT_QUEUE q |> wrB F.QM_FLUSH_STAT_BUSY true

/-- The permissions of a host interface (R487): its record in the HOST section, while the interface is enabled. -/
def hostPerm (i : Nat) (s : State) : Nat :=
  if bit (cfgN C.hostHdr 0 7 1 s) i then rd (F.HST_PERMi_PERM.u i) s else 0

/-- Whether a host interface may flush queue q: 0–671 with FLUSH, its own host queues always (R151, R487); in a TEST start
every block is open (R73). -/
def hostMayFlush (i q : Nat) (s : State) : Bool :=
  stage s == 9
    || (decide (q ≤ 671) && bit (hostPerm i s) 7)
    || (decide (672 ≤ q) && decide (q ≤ 735) && bit (cfgN C.hostQ (q - 672) 0 1 s) 0
        && bits (cfgN C.hostQ (q - 672) 0 1 s) 1 1 == i)

/-- Whether an initiator may flush queue q (R151): a control core any queue, a host interface what it is granted. -/
def mayFlush (who : Initiator) (q : Nat) (s : State) : Bool := match who with
  | .core _ => true
  | .link => false
  | .pcie => hostMayFlush 0 q s
  | .xspi => hostMayFlush 1 q s

/-- A write of a queue number to QM_FLUSH, with the status an xSPI write returns (R150, R151). -/
def qmFlushWrite (who : Initiator) (v : Nat) (s : State) : Status × State :=
  let q := v % 1024
  if rdB F.QM_FLUSH_STAT_BUSY s then (.busy, inc F.QM_FLUSH_STAT_REFUSED s)
  else if mayFlush who q s then (.ok, deviceFlush q s)
  else (.denied, inc F.QM_FLUSH_STAT_REFUSED s)

/-- QM_FLUSH (R150). -/
def execQmFlush (who : Initiator) (v : Word) (s : State) : Res := .next (hostWrite who 0x40020 (qmFlushWrite who v.toNat) s)

/-- FLUSH_DONE (R150): the last background return of every flush in progress completes. -/
def execFlushDone (s : State) : Res :=
  let l := s.qm.bgFlush
  .next (when (domRuns .fab s) (fun s =>
    wrB F.QM_FLUSH_STAT_BUSY false (each l freeCell { s with qm := { s.qm with bgFlush := [], flushing := [] } })) s)

/-! ### Scraper (R156) -/

/-- The cells that a frame in a queue, in flight or held refers to. -/
def frameCells (s : State) : List Nat := s.qm.frames.flatMap fun e => e.2.cells.drop e.2.freed

/-- SCRAPER (R156): cells unmarked in two successive passes return to their free lists, and a cell both free and in a
frame leaves the free list. -/
def execScraper (s : State) : Res :=
  if !domRuns .fab s then .next s else
  let inFr := frameCells s
  let marked := inFr ++ s.qm.bgFlush ++ s.qm.bgEvict
  let un := s.qm.used.filter fun c => !marked.contains c
  let leak := un.filter fun c => s.qm.unmarked.contains c
  let dbl := inFr.filter fun c => !s.qm.used.contains c
  let s := each leak (fun c s => freeCell c s |> inc F.QM_LEAK_CNT_LEAK |> record 0x0301 (bankOf c) (c % 8192)) s
  let s := each dbl (fun c s => { s with qm := { s.qm with used := sins s.qm.used c } }
    |> inc F.QM_LEAK_CNT_DOUBLE |> record 0x0301 (bankOf c) (2 ^ 31 + c % 8192)) s
  .next ({ s with qm := { s.qm with unmarked := un.filter fun c => !leak.contains c } }
    |> incWrap F.QM_AUDIT_STAT_PASSES |> wr F.QM_AUDIT_STAT_UNMARKED (min un.length 65535))

/-! ### Loading (R159, R521) -/

/-- The QUEUE section's values in the configuration registers (R521). -/
def queueEnable (s : State) : State :=
  s |> wr F.QM_CFG_AUDIT_MS (cfgN C.queueHdr 0 2 2 s) |> wr F.QM_CFG_MARGIN (cfgN C.queueHdr 0 0 2 s)
    |> each (List.range 16) fun n s => s |> wr (F.QM_PROFn_ALPHA.u n) (cfgN C.queueProf n 0 1 s)
        |> wr (F.QM_PROFn_MIN.u n) (cfgN C.queueProf n 2 2 s)

end Sys2Proof.Machine
end

