-- ==== Sys2Proof/Machine/Lookup.lean ====
section
/-! DEFINITION. The lookup pipelines: parsing, VLANs, forwarding database and learning, routing, streams, policing, access
control, containment, sampling and mirroring (05_lookup_and_policing.md, R161–R197). -/

namespace Sys2Proof.Machine

/-! ### Parsing a frame -/

/-- Destination MAC as a number, first byte on the wire highest. -/
def frDst (d : List Byte) : Nat := beAt d 0 6
/-- Source MAC. -/
def frSrc (d : List Byte) : Nat := beAt d 6 6
/-- Whether a frame carries an 802.1Q tag (priority tags included). -/
def frTagged (d : List Byte) : Bool := beAt d 12 2 == 0x8100
/-- The tag's VLAN ID. -/
def frVid (d : List Byte) : Nat := beAt d 14 2 % 4096
/-- The tag's PCP. -/
def frPcp (d : List Byte) : Nat := beAt d 14 2 / 8192
/-- Offset of the EtherType. -/
def frEtOff (d : List Byte) : Nat := if frTagged d then 16 else 12
/-- The EtherType after the tag. -/
def frEt (d : List Byte) : Nat := beAt d (frEtOff d) 2
/-- Offset of the payload. -/
def frL3 (d : List Byte) : Nat := frEtOff d + 2
/-- Whether the frame is IPv4 or IPv6. -/
def frIsV4 (d : List Byte) : Bool := frEt d == 0x0800
/-- Whether the frame is IPv6. -/
def frIsV6 (d : List Byte) : Bool := frEt d == 0x86DD
/-- Whether a MAC is a group address. -/
def isGroup (mac : Nat) : Bool := bit mac 40
/-- The broadcast address. -/
def bcast : Nat := 0xFFFFFFFFFFFF
/-- The DSCP of an IP frame. -/
def frDscp (d : List Byte) : Nat :=
  if frIsV4 d then byteAt d (frL3 d + 1) / 4 else beAt d (frL3 d) 2 / 64 % 64
/-- IP protocol or next header. -/
def frProto (d : List Byte) : Nat := if frIsV4 d then byteAt d (frL3 d + 9) else byteAt d (frL3 d + 6)
/-- Offset of the L4 header. -/
def frL4 (d : List Byte) : Nat := if frIsV4 d then frL3 d + 4 * (byteAt d (frL3 d) % 16) else frL3 d + 40
/-- Whether the frame's L4 ports can be read: TCP or UDP. -/
def frHasPorts (d : List Byte) : Bool := (frIsV4 d || frIsV6 d) && (frProto d == 6 || frProto d == 17)

/-- The device's own MAC: the router MAC of the LOOKUP_L2 section (R198). -/
def routerMac (s : State) : Nat := beAt (cfgRec C.l2Hdr 0 s) 8 6
/-- The EtherType of the Almoith link (R444). -/
def almEt (s : State) : Nat := let v := cfgN C.almHdr 0 0 2 s; if v = 0 then 0x88B5 else v
/-- The type of an Almoith frame (R444, R445). -/
def almType (d : List Byte) (s : State) : Option Nat := if frEt d = almEt s then some (byteAt d (frL3 d) % 16) else none
/-- The control-core queue of the service that receives an Almoith message type (R445, R446). TIME_HEALTH goes to TIME on
CC0, for which the section names the RING queue only. -/
def almQueue (t : Nat) (s : State) : Nat :=
  if t = 0 ∨ t = 8 ∨ t = 10 then cfgN C.almHdr 0 0x2A 2 s
  else if t ≤ 3 then cfgN C.almHdr 0 0x2C 2 s else cfgN C.almHdr 0 0x2E 2 s
/-- Messages that the policy loops never touch and that are never evicted: gPTP and Almoith TOKEN, BEACON and TIME_HEALTH
(R34, R144, R191). -/
def protectedMsg (d : List Byte) (s : State) : Bool :=
  frEt d == 0x88F7 || (match almType d s with | some t => t == 0 || t == 1 || t == 10 | none => false)

/-! ### Table access with parity (R196) -/

/-- Whether an entry reads as a miss: bad parity met now or before, or removed and not yet restored (R196, R197). -/
def missing (u : Option TableUpset) (t p i : Nat) (s : State) : Bool :=
  (match u with | some x => x.table.val == t && x.pipe.val == p && x.index == i | none => false)
    || s.lkp.bad.contains (t, p, i) || s.lkp.gone.contains (t, p, i)

/-- The index of an entry in a pipeline's run tables. -/
def pk (p i : Nat) : Nat := p * 65536 + i

/-- An entry has been found with bad parity: it stays a miss until the scrub removes it (R196, R197). -/
def upsetNoted (u : Option TableUpset) (s : State) : State := match u with
  | some x => if missing none x.table x.pipe x.index s then s
              else { s with lkp := { s.lkp with bad := s.lkp.bad ++ [(x.table.val, x.pipe.val, x.index)] } }
  | none => s

/-- A parity error is reported with its table and index, and scored against the unit whose frame met it (R189, R196). -/
def parityReport (u : TableUpset) (unit : Option Nat) (s : State) : State :=
  let s := s |> wr F.LKP_PAR_ERR_TABLE u.table |> wr F.LKP_PAR_ERR_PIPE u.pipe |> wr F.LKP_PAR_ERR_INDEX u.index
    |> inc F.LKP_PAR_ERR_COUNT |> record 0x0400 (u.table * 2 + u.pipe) u.index
  match unit with
  | none => s
  | some n => { s with lkp := { s.lkp with score := tput s.lkp.score n (tget 0 s.lkp.score n + cfgN C.spUnit n 4 1 s) } }

/-! ### Forwarding database (R166–R174) -/

/-- The bucket of a MAC and VLAN (R166). -/
def fdbBucket (mac vlan : Nat) : Nat := crc16 (beBytes 6 mac ++ leBytes 2 vlan) % 16384
/-- The four keys of a bucket. -/
def fdbWays (p mac vlan : Nat) : List Nat := (List.range 4).map fun w => pk p (4 * fdbBucket mac vlan + w)
/-- The key of the entry of a MAC and VLAN, if the pipeline holds one; an entry with bad parity is a miss (R196). -/
def fdbFind (u : Option TableUpset) (p mac vlan : Nat) (s : State) : Option Nat :=
  (fdbWays p mac vlan).find? fun k => match tfind s.lkp.fdb k with
    | some e => e.mac == mac && e.vlan == vlan && !missing u 1 p (k % 65536) s
    | none => false
/-- A free way of the bucket of a MAC and VLAN: the place of a plate entry that awaits its restoration is kept for it
(R197; DEDUCED). -/
def fdbFree (p mac vlan : Nat) (s : State) : Option Nat :=
  (fdbWays p mac vlan).find? fun k => (tfind s.lkp.fdb k).isNone && !s.lkp.gone.contains (1, p, k % 65536)
/-- Number of valid entries of a pipeline. -/
def fdbUsed (p : Nat) (s : State) : Nat := (s.lkp.fdb.filter fun e => e.1 / 65536 == p).length
/-- The entry at a key changed. -/
def fdbPut (k : Nat) (e : FdbE) (s : State) : State := { s with lkp := { s.lkp with fdb := tput s.lkp.fdb k e } }
/-- A hit or a learn leaves the entry at key k as e; the entries met in this tick are kept (R172, R174). -/
def fdbMeet (k : Nat) (e : FdbE) (s : State) : State :=
  let old := if s.lkp.met.1 = s.time.loc then s.lkp.met.2 else []
  fdbPut k e { s with lkp := { s.lkp with met := (s.time.loc, sins old k) } }
/-- A hit sets HIT (R173). -/
def fdbHit (k : Nat) (s : State) : State := match tfind s.lkp.fdb k with
  | some e => fdbMeet k { e with hit := true } s
  | none => s
/-- The register of valid entries. -/
def fdbCount (p : Nat) (s : State) : State := wr (F.LKP_Pp_FDB_USED.u p) (fdbUsed p s) s

/-- The kind and index of an entry's destination (R167). -/
def fdbDest (e : FdbE) : Nat × Nat := (e.dest / 16384, e.dest % 8192)

/-- Commit a learn (R169–R171): a known source moves or stays, a new one takes a free way unless the bucket is full or
the port has used its learns of this second. -/
def learnCommit (p : Nat) (r : LearnReq) (s : State) : State :=
  match fdbFind none p r.mac r.vlan s with
  | some k =>
    match tfind s.lkp.fdb k with
    | none => s
    | some e =>
      if e.dest = r.port then fdbMeet k { e with hit := true } s
      else if e.static_ || e.sticky then inc (F.LKP_Pp_MOVE_REFUSED.u p) s
      else fdbMeet k { e with dest := r.port, hit := true, age := false } s |> inc (F.LKP_Pp_MOVE_MOVED.u p)
  | none =>
    let sec := s.time.loc / 1000000000
    let (t, n) := tget (0, 0) s.lkp.rate r.port
    let n := if t = sec then n else 0
    let lim := cfgN C.l2Port r.port 4 2 s
    if lim ≠ 0 ∧ lim ≤ n then inc (F.LKP_Pp_LEARN_FAIL_RATE.u p) s
    else match fdbFree p r.mac r.vlan s with
      | none => inc (F.LKP_Pp_LEARN_FAIL_FULL.u p) s
      | some k =>
        fdbMeet k { mac := r.mac, vlan := r.vlan, dest := r.port, hit := true }
            { s with lkp := { s.lkp with rate := tput s.lkp.rate r.port (sec, n + 1) } }
          |> inc (F.LKP_Pp_LEARN_COUNT.u p) |> fdbCount p

/-- LEARN (R169): the pipeline's oldest learn commits. -/
def execLearn (p : Fin 2) (s : State) : Res := .next (match tget [] s.lkp.learns p with
  | [] => s
  | r :: rest => if !domRuns .fab s then s else learnCommit p r { s with lkp := { s.lkp with learns := tput s.lkp.learns p rest } })

/-- The burnisher's visit to one learned entry (R173): none when it is removed. A hit or a learn that meets the visit wins:
the entry keeps HIT set, and the visit counts as having found it set (R172, R174). -/
def burnish (met : Bool) (e : FdbE) : Option FdbE :=
  if e.static_ then some e
  else if met then some { e with hit := true, age := false }
  else if e.hit then some { e with hit := false, age := false }
  else if e.age then none else some { e with age := true }

/-- Whether a visit to the entry at key k meets a hit or a learn (R172, R174): one of this tick (DEDUCED, log entry 10). -/
def visitMet (k : Nat) (s : State) : Bool := s.lkp.met.1 == s.time.loc && s.lkp.met.2.contains k

/-- BURNISHER (R173): one ageing sweep over both pipelines. -/
def execBurnisher (s : State) : Res :=
  let visit (e : Nat × FdbE) : Option FdbE := burnish (visitMet e.1 s) e.2
  let aged (p : Nat) : Nat := (s.lkp.fdb.filter fun e => e.1 / 65536 == p && (visit e).isNone).length
  let s' := { s with lkp := { s.lkp with fdb := s.lkp.fdb.filterMap fun e => (visit e).map fun x => (e.1, x) } }
  .next (if !domRuns .fab s then s else s' |> incBy (F.LKP_Pp_AGED_COUNT.u 0) (aged 0) |> incBy (F.LKP_Pp_AGED_COUNT.u 1) (aged 1)
    |> fdbCount 0 |> fdbCount 1 |> incWrap F.LKP_BURN_STAT_AGE_PASSES)

/-- Load the static entries into both pipelines (R198); the answer says whether every bucket had room. -/
def fdbLoad (s : State) : Bool × State :=
  let s := { s with lkp := { s.lkp with fdb := [], gone := [], bad := [] } }
  (cfgIdx C.l2Fdb s).foldl (fun (a : Bool × State) i =>
    let r := cfgRec C.l2Fdb i s
    let e : FdbE := { mac := beAt r 0 6, vlan := leAt r 6 2 % 4096, dest := leAt r 8 2, static_ := true,
                      sticky := bit (byteAt r 10) 4, cls := byteAt r 11 }
    [0, 1].foldl (fun (a : Bool × State) p =>
      match (fdbWays p e.mac e.vlan).find? fun k => (tfind a.2.lkp.fdb k).isNone with
      | none => (false, a.2)
      | some k => (a.1, fdbPut k e a.2)) a) (true, s)

/-! ### Policers (R183, R184) -/

/-- The record field of a policer. -/
def polN (p i o w : Nat) (s : State) : Nat := cfgN (C.spPolicer + p) i o w s
/-- The colour of a frame: 0 green, 1 yellow, 2 red. -/
abbrev Colour := Nat
/-- Meter L bytes at policer i of pipeline p (R183). -/
def meter (p i len : Nat) (yellowIn : Bool) (s : State) : Colour × State :=
  let k := pk p i
  let b := tget {} s.lkp.pols k
  let n := len * 1024
  let aware := bit (polN p i 12 1 s) 0
  let set (x : Pol) : State := { s with lkp := { s.lkp with pols := tput s.lkp.pols k x } }
  if n ≤ b.c ∧ !(aware && yellowIn) then (0, set { b with c := b.c - n })
  else if n ≤ b.e then (1, set { b with e := b.e - n, yellow := min (b.yellow + 1) 0xFFFFFFFF })
  else (2, set { b with red := min (b.red + 1) 0xFFFFFFFF })

/-- One 1 µs refill of a policer (R183): CIR and EIR in kbit/s give rate / 8 000 bytes per µs, at 1/1024 byte with the
remainder carried. -/
def polRefill (cir eir cbs ebs : Nat) (coupling : Bool) (b : Pol) : Pol :=
  let gc := (b.cRem + cir * 1024) / 8000
  let ge := (b.eRem + eir * 1024) / 8000
  let c := b.c + gc
  let exceed := c - min c (cbs * 1024)
  let e := b.e + ge + if coupling then exceed else 0
  { b with c := min c (cbs * 1024), cRem := (b.cRem + cir * 1024) % 8000,
           e := min e (ebs * 1024), eRem := (b.eRem + eir * 1024) % 8000 }

/-- Every policer gains 1 µs of its rates (R183). -/
def polRefillAll (s : State) : State :=
  { s with lkp := { s.lkp with pols := tmap (fun k b =>
    let p := k / 65536
    let i := k % 65536
    polRefill (polN p i 0 4 s) (polN p i 4 4 s) (polN p i 8 2 s) (polN p i 10 2 s) (bit (polN p i 12 1 s) 1) b) s.lkp.pols } }

/-- A frame comes in the tick in which the next refill is due, or later: the refill is applied first (R184). -/
def polDue (s : State) : State := match s.lkp.refillAt with
  | some t =>
    if !s.lkp.refillMet && decide (t + 1000 ≤ s.time.loc) then
      polRefillAll { s with lkp := { s.lkp with refillMet := true } } else s
  | none => s

/-- POLICER_REFILL (R183): every 1 µs; a refill that a frame has met is applied already (R184). -/
def execPolicerRefill (s : State) : Res :=
  .next (if !domRuns .fab s then s
    else
      let t := if s.lkp.refillMet then s else polRefillAll s
      { t with lkp := { t.lkp with refillAt := some s.time.loc, refillMet := false } })

/-- Policer i of pipeline p starts with full buckets (R183). -/
def polFill (p i : Nat) (s : State) : State :=
  let b := tget {} s.lkp.pols (pk p i)
  let full : Pol := { b with c := polN p i 8 2 s * 1024, e := polN p i 10 2 s * 1024, cRem := 0, eRem := 0 }
  { s with lkp := { s.lkp with pols := tput s.lkp.pols (pk p i) full } }

/-- Every loaded policer starts with full buckets (R183). -/
def polLoad (s : State) : State := each [0, 1] (fun p s => each (cfgIdx (C.spPolicer + p) s) (polFill p) s) s

/-! ### Containment (R189, R190) -/

/-- Whether containment unit u is kept (R189). -/
def unitKept (u : Nat) (s : State) : Bool :=
  if u = 32 then cfgN C.spUnit 32 0 2 s != 0 else bit (cfgN C.l2Port u 2 2 s) 5
/-- The unit of a frame from port (none for 0xFF) and node. -/
def unitOfFrame (port : Nat) (node : Nat) (s : State) : Option Nat :=
  let u := if node = 8 then 32 else port
  if u ≤ 32 ∧ unitKept u s then some u else none
/-- Add to a unit's score (R189). -/
def scoreAdd (u n : Nat) (s : State) : State :=
  { s with lkp := { s.lkp with score := tput s.lkp.score u (tget 0 s.lkp.score u + n) } }

/-- CONTAINMENT_WINDOW (R190): the level rises to the highest threshold reached, or falls by one after the plate's
number of consecutive quiet windows. -/
def execContainmentWindow (u : Fin 33) (s : State) : Res :=
  if !unitKept u s || !domRuns .fab s then .next s else
  let rec_ (o w : Nat) : Nat := cfgN C.spUnit u o w s
  let sc := tget 0 s.lkp.score u
  let cur := rd (F.LKP_CONTu_LEVEL.u u) s
  let hi := if rec_ 10 2 ≤ sc then 3 else if rec_ 8 2 ≤ sc then 2 else if rec_ 6 2 ≤ sc then 1 else 0
  let quiet := rd (F.LKP_CONTu_QUIET.u u) s
  let s := { s with lkp := { s.lkp with score := tput s.lkp.score u 0 } }
  let change (n : Nat) (s : State) : State :=
    s |> wr (F.LKP_CONTu_LEVEL.u u) n |> inc (F.LKP_CONTu_CHANGES.u u) |> record 0x0402 u n
  .next (if cur < hi then
    let s := wr (F.LKP_CONTu_QUIET.u u) 0 (change hi s)
    -- on entry to BLOCK the unit's flush queues are flushed
    if hi = 3 then each ((List.range 4).map fun i => rec_ (16 + 2 * i) 2)
        (fun q s => when (q < 1024) (deviceFlush q) s) s else s
  else if sc < rec_ 12 2 ∧ cur ≠ 0 then
    if rec_ 5 1 ≤ quiet + 1 then wr (F.LKP_CONTu_QUIET.u u) 0 (change (cur - 1) s)
    else wr (F.LKP_CONTu_QUIET.u u) (quiet + 1) s
  else wr (F.LKP_CONTu_QUIET.u u) 0 s)

/-! ### Stream guard (R185, R186) -/

/-- The run state of a stream. -/
def streamRun (p st : Nat) (s : State) : StreamRun := tget {} s.lkp.streams (pk p st)
/-- The run state changed. -/
def streamSet (p st : Nat) (r : StreamRun) (s : State) : State :=
  { s with lkp := { s.lkp with streams := tput s.lkp.streams (pk p st) r } }
/-- The number of contained streams (LKP_GUARD_NOW). -/
def guardNow (s : State) : State :=
  wr F.LKP_GUARD_NOW_CONTAINED (s.lkp.streams.filter fun e => e.2.contained).length s

/-- STREAM_GUARD_WINDOW (R185, R186): a violation contains the stream, or restarts its release timer. -/
def execStreamGuardWindow (p : Fin 2) (st : Fin 8192) (s : State) : Res :=
  let r := streamRun p st s
  let lim := cfgN (C.spStream + p) st 0x1C 2 s
  let until_ := s.time.loc + cfgN (C.spStream + p) st 0x20 2 s * 1000000
  .next (if !domRuns .fab s then s
  else if lim ≠ 0 ∧ lim < r.count then
    if r.contained then streamSet p st { r with count := 0, release := until_ } s
    else
      let q := cfgN (C.spStream + p) st 0x22 2 s
      streamSet p st { r with count := 0, contained := true, release := until_, changes := min (r.changes + 1) 65535 } s
        |> inc F.LKP_GUARD_CONTAINS |> guardNow |> record 0x0401 (p * 8192 + st) 1 |> when (q < 1024) (deviceFlush q)
  else streamSet p st { r with count := 0 } s)

/-- STREAM_GUARD_RELEASE (R185, R186): the release timer has run out since the latest violation. -/
def execStreamGuardRelease (p : Fin 2) (st : Fin 8192) (s : State) : Res :=
  let r := streamRun p st s
  .next (if r.contained ∧ r.release ≤ s.time.loc ∧ domRuns .fab s then
    streamSet p st { r with contained := false, changes := min (r.changes + 1) 65535 } s
      |> inc F.LKP_GUARD_RELEASES |> guardNow |> record 0x0401 (p * 8192 + st) 0
  else s)

/-! ### Scrub (R197) -/

/-- Whether an entry of a table came from the plate (R197): of the FDB only the static ones. -/
def fromPlate (t p i : Nat) (s : State) : Bool :=
  if t = 1 then (match tfind s.lkp.fdb (pk p i) with | some e => e.static_ | none => false) else true

/-- The scrub removes one entry with bad parity: a plate entry then awaits its restoration (R197). -/
def scrubEntry (x : Nat × Nat × Nat) (s : State) : State :=
  let plate := fromPlate x.1 x.2.1 x.2.2 s
  let was := s.lkp.gone.contains x
  let s := { s with lkp := { s.lkp with bad := s.lkp.bad.filter (· != x) } }
  let s := if x.1 = 1 then fdbCount x.2.1 { s with lkp := { s.lkp with fdb := terase s.lkp.fdb (pk x.2.1 x.2.2) } } else s
  if plate ∧ !was then
    let s := { s with lkp := { s.lkp with gone := s.lkp.gone ++ [x] } }
    wr F.LKP_RESTORE_PENDING s.lkp.gone.length s
  else s

/-- SCRUB (R197): every entry with bad parity is removed, those that the pass finds and those that lookups have met. -/
def execScrub (bad : List TableUpset) (s : State) : Res :=
  let met := s.lkp.bad
  .next (if !domRuns .fab s then s else
    each bad (fun u s => scrubEntry (u.table.val, u.pipe.val, u.index) (parityReport u none s)) (each met scrubEntry s)
      |> incWrap F.LKP_BURN_STAT_SCRUB_PASSES)

/-! ### Mirror sessions (R194) -/

/-- Whether session n is active and its entry reads well. -/
def mirrorActive (u : Option TableUpset) (p n : Nat) (s : State) : Bool :=
  rdB (F.MIR_SESSn_STAT_ACTIVE.u n) s && !missing u 9 p n s

/-! ### The pipeline (R161–R195) -/

/-- What the stages have settled about one frame. -/
structure Lk where
  d      : List Byte                        -- the frame, rewritten when routed
  node   : Nat
  port   : Nat                              -- ingress port, 255 for FN7–FN10
  pipe   : Nat
  cls    : Nat
  vlan   : Nat := 0
  stream : Nat := 0xFFFF
  ports  : List Nat := []                   -- egress ports
  queues : List Nat := []                   -- further queues
  kind   : Nat := 0                         -- lookup data bits [15:13] (R163)
  yellow : Bool := false
  acl    : Nat := 0xFFF
  drop   : Option Nat := none               -- drop cause
  toCc   : List Nat := []                   -- queues that get the frame even when it is dropped
  mirAcl : Option Nat := none
  routed : Bool := false
  prot   : Bool := false
  learn  : Bool := false
  icmp   : Bool := false                    -- a drop of R179 that is reported to the control core
  deriving Repr

/-- Drop with a cause unless an earlier stage dropped. -/
def Lk.dropBy (k : Lk) (c : Nat) : Lk := { k with drop := some (k.drop.getD c) }

/-- Stage 1: the class from the port record (R164). -/
def stClass (k : Lk) (s : State) : Nat :=
  let r := cfgRec C.l2Port k.port s
  let dflt := byteAt r 0x0C % 8
  let pcp := if frTagged k.d then leAt r 8 4 / 8 ^ frPcp k.d % 8 else dflt
  match bits (leAt r 2 2) 3 2 with
  | 0 => dflt
  | 1 => pcp
  | _ => if frIsV4 k.d || frIsV6 k.d then leAt (cfgRec C.l2Hdr 0 s) 0x10 24 / 8 ^ frDscp k.d % 8 else pcp

/-- The record of a VLAN, empty when it is not defined or reads with bad parity. -/
def vlanRec (u : Option TableUpset) (p v : Nat) (s : State) : List Byte :=
  if v = 0 ∨ v = 4095 ∨ missing u 0 p v s then [] else cfgRec C.l2Vlan v s

/-- Stage 2: the VLAN and its ingress check (R165). -/
def stVlan (u : Option TableUpset) (k : Lk) (s : State) : Lk :=
  let prio := frTagged k.d && frVid k.d == 0
  let plain := !frTagged k.d || prio
  if k.port = 255 then
    let k := { k with vlan := if plain then 1 else frVid k.d }
    if (vlanRec u k.pipe k.vlan s).isEmpty then k.dropBy 0 else k
  else
    let r := cfgRec C.l2Port k.port s
    let k := { k with vlan := if plain then leAt r 0 2 % 4096 else frVid k.d }
    let v := vlanRec u k.pipe k.vlan s
    if v.isEmpty || !bit (leAt v 4 4) k.port || !bit (leAt r 2 2) (if plain then 1 else 2) then k.dropBy 0 else k

/-- Whether stream entry st of a pipeline matches a frame as kind n (R181). -/
def streamMatch (n : Nat) (r : List Byte) (k : Lk) : Bool :=
  byteAt r 0 == n && match n with
    | 0 => beAt r 4 6 == frDst k.d && leAt r 2 2 == k.vlan
    | 1 => beAt r 4 6 == frSrc k.d && leAt r 2 2 == k.vlan
    | _ => frIsV4 k.d && slice r 0x0C 4 == slice k.d (frL3 k.d + 12) 4 && slice r 0x10 4 == slice k.d (frL3 k.d + 16) 4
        && byteAt r 0x18 == frProto k.d && leAt r 0x14 2 == beAt k.d (frL4 k.d) 2 && leAt r 0x16 2 == beAt k.d (frL4 k.d + 2) 2

/-- The stream of a frame: the first kind that matches decides (R181). -/
def findStream (u : Option TableUpset) (k : Lk) (s : State) : Option Nat :=
  [0, 1, 2].findSome? fun n => (cfgIdx (C.spStream + k.pipe) s).find? fun st =>
    !missing u 6 k.pipe st s && streamMatch n (cfgRec (C.spStream + k.pipe) st s) k

/-- The effect of a policer's colour on the frame (R183). -/
def applyColour (p i : Nat) (col : Colour) (k : Lk) (s : State) : Lk × State :=
  let fl := polN p i 12 1 s
  let red (s : State) : State := match unitOfFrame k.port k.node s with
    | some n => scoreAdd n (cfgN C.spUnit n 2 1 s) s
    | none => s
  if col = 2 then (k.dropBy 5, red s)
  else if col = 1 then
    if bit fl 2 then (k.dropBy 5, s)
    else ({ k with yellow := true, cls := if bit fl 3 then k.cls - 1 else k.cls }, s)
  else (k, s)

/-- Meter a frame at policer i; a policer that reads with bad parity leaves it green (R196). -/
def police (u : Option TableUpset) (i : Nat) (k : Lk) (s : State) : Lk × State :=
  if 4096 ≤ i ∨ missing u 7 k.pipe i s ∨ !cfgHas (C.spPolicer + k.pipe) i s then (k, s)
  else
    let (col, s) := meter k.pipe i k.d.length k.yellow (polDue s)
    applyColour k.pipe i col k s

/-- Stage 3: stream identification, maximum SDU, stream guard and policer (R181–R185). -/
def stStream (u : Option TableUpset) (k : Lk) (s : State) : Lk × State :=
  if k.drop.isSome then (k, s) else
  match findStream u k s with
  | none => (k, s)
  | some st =>
    let r := cfgRec (C.spStream + k.pipe) st s
    let ov := byteAt r 0x24
    let k := { k with stream := st, cls := if bit ov 7 then ov % 8 else k.cls }
    let run := streamRun k.pipe st s
    let exceed := decide (leAt r 0x0A 2 < k.d.length)
    let cause : Option Nat :=
      if run.blocked then some 3
      else if exceed then some 2
      else if run.contained && !k.prot then some 4 else none
    let run := { run with count := run.count + 1, blocked := run.blocked || (exceed && bit (byteAt r 1) 0) }
    match cause with
    | some c => (k.dropBy c, streamSet k.pipe st { run with dropped := min (run.dropped + 1) 0xFFFFFFFF } s)
    | none =>
      let (k, s) := police u (leAt r 0x1A 2) k s
      if k.drop.isSome then (k, streamSet k.pipe st { run with dropped := min (run.dropped + 1) 0xFFFFFFFF } s)
      else (k, streamSet k.pipe st { run with passed := min (run.passed + 1) 0xFFFFFFFF } s)

/-- The longest matching prefix of an address of w bits in a route table (R176–R178). -/
def lpm (t w addr : Nat) (s : State) : Option Nat :=
  (List.range (w + 1)).reverse.findSome? fun n =>
    let r := cfgRec t (n * 2 ^ 128 + addr / 2 ^ (w - n) * 2 ^ (w - n)) s
    if r.isEmpty then none else some (leAt r 2 2)

/-- The bits that the stages of the trie after the first begin at (R177, R178). -/
def trieBounds (t : Nat) : List Nat := if t = 3 then [16, 24] else [16, 24, 32, 40, 48, 56]
/-- The walk of an address reads an entry of the trie that the scrub has removed (R177, R178, R197): its entry of stage 1, or
one of a later stage, which it reads where a longer prefix lies below. -/
def trieGone (t p w addr : Nat) (s : State) : Bool :=
  let tab := if t = 3 then C.l3V4 else C.l3V6
  s.lkp.gone.contains (t, p, addr / 2 ^ (w - 16))
    || ((List.range 6).zip (trieBounds t)).any fun x =>
      (cfgIdx tab s).any (fun i => decide (x.2 < i / 2 ^ 128) && i % 2 ^ 128 / 2 ^ (w - x.2) == addr / 2 ^ (w - x.2))
        && s.lkp.gone.contains (t, p, 65536 + Config.trieEntry t (x.1 + 1) (addr / 2 ^ (w - 8 - x.2)))

/-- The one's complement sum of 16-bit words. -/
def onesSum (l : List Byte) : Nat :=
  let t := (List.range (l.length / 2)).foldl (fun a i => a + beAt l (2 * i) 2) 0
  let t := t % 65536 + t / 65536
  t % 65536 + t / 65536

/-- The IPv4 header checksum is right (R179). -/
def v4ChecksumOk (d : List Byte) : Bool := onesSum (slice d (frL3 d) (4 * (byteAt d (frL3 d) % 16))) == 0xFFFF

/-- Rewrite a routed frame (R176): MACs, VLAN, TTL or hop limit, and the IPv4 checksum updated incrementally. -/
def rewrite (mac rmac vlan : Nat) (d : List Byte) : List Byte :=
  let o := frL3 d
  let d1 := spliceAt (spliceAt d 0 (beBytes 6 mac)) 6 (beBytes 6 rmac)
  let d2 := if frTagged d then spliceAt d1 14 (beBytes 2 (beAt d 14 2 / 4096 * 4096 + vlan)) else d1
  if frIsV4 d then
    let sum := beAt d (o + 10) 2 + 0x100
    let sum := sum % 65536 + sum / 65536
    spliceAt (spliceAt d2 (o + 8) (beBytes 1 (byteAt d (o + 8) - 1))) (o + 10) (beBytes 2 sum)
  else spliceAt d2 (o + 7) (beBytes 1 (byteAt d (o + 7) - 1))

/-- The maximum frame of an Ethernet port [bytes] (R236, R237). -/
def portMax (p : Nat) (s : State) : Nat := if p < 16 then cfgN C.ethPort p 2 2 s else cfgN C.t1s (p - 16) 8 2 s

/-- Stage 4, routing (R176–R180). -/
def stRoute (u : Option TableUpset) (k : Lk) (s : State) : Lk :=
  let d := k.d
  let o := frL3 d
  let v4 := frIsV4 d
  if v4 && (!v4ChecksumOk d || decide (byteAt d o % 16 < 5)) then k.dropBy 9
  else if !v4 && byteAt d (o + 6) == 0 then k.dropBy 12
  else
    let bad := (match u with | some x => x.pipe.val == k.pipe && x.table.val == (if v4 then 3 else 4) | none => false)
      || (if v4 then trieGone 3 k.pipe 32 (beAt d (o + 16) 4) s else trieGone 4 k.pipe 128 (beAt d (o + 24) 16) s)
    match (if bad then none else if v4 then lpm C.l3V4 32 (beAt d (o + 16) 4) s else lpm C.l3V6 128 (beAt d (o + 24) 16) s) with
    | none => k.dropBy 6
    | some h =>
      let r := cfgRec C.l3Hop h s
      if r.isEmpty || missing u 5 k.pipe h s then k.dropBy 6
      else if byteAt d (o + if v4 then 8 else 7) ≤ 1 then { k.dropBy 7 with icmp := true }
      else if bit (byteAt r 1) 0 then { k with queues := [cfgN C.l3Hdr 0 6 2 s], kind := 3, routed := true }
      else
        let port := byteAt r 0
        -- a frame is never sent back out of its own ingress port (R168)
        if port = k.port then k.dropBy 1
        else if portMax port s < d.length then { k.dropBy 8 with icmp := true }
        else { k with ports := [port], kind := 3, routed := true, vlan := leAt r 2 2,
                      d := rewrite (beAt r 4 6) (routerMac s) (leAt r 2 2) d }

/-- Flood to every member of the VLAN but the ingress port (R168). -/
def flood (u : Option TableUpset) (kind : Nat) (k : Lk) (s : State) : Lk × State :=
  let m := leAt (vlanRec u k.pipe k.vlan s) 4 4
  ({ k with ports := (bitList m 32).filter (· != k.port), kind := kind }, inc (F.LKP_Pp_FLOOD_COUNT.u k.pipe) s)

/-- A destination miss (R168): flooded, or dropped on a LOCKED VLAN and, for a multicast address, one with UMC_DROP; a
broadcast frame is dropped only where both are set. -/
def bridgeMiss (u : Option TableUpset) (k : Lk) (s : State) : Lk × State :=
  let vf := leAt (vlanRec u k.pipe k.vlan s) 2 2
  let dst := frDst k.d
  let drop := if dst = bcast then bit vf 0 && bit vf 2 else bit vf 0 || (isGroup dst && bit vf 2)
  if drop then (k.dropBy 1, s) else flood u (if isGroup dst then 2 else 1) k s

/-- Stage 4, bridging (R163, R168, R175). -/
def stBridge (u : Option TableUpset) (k : Lk) (s : State) : Lk × State :=
  let vr := vlanRec u k.pipe k.vlan s
  let dst := frDst k.d
  let kind1 := if isGroup dst then 2 else 0
  if dst = bcast then bridgeMiss u k s
  else
    match (fdbFind u k.pipe dst k.vlan s).bind fun key => (tfind s.lkp.fdb key).map fun e => (key, e) with
    | some (key, e) =>
      let s := fdbHit key s
      let k := { k with cls := if bit e.cls 7 then e.cls % 8 else k.cls }
      let (kind, i) := fdbDest e
      match kind with
      | 0 => if i = k.port then (k.dropBy 1, s) else ({ k with ports := [i], kind := kind1 }, s)
      | 1 =>
        let g := cfgRec C.l2Group i s
        if g.isEmpty || missing u 2 k.pipe i s then bridgeMiss u k s
        else
          let ports := (bitList (leAt g 0 4) 32).filter fun p => bit (leAt vr 4 4) p && p != k.port
          ({ k with ports := ports, kind := 2, queues := if bit (leAt g 4 2) 0 then [leAt g 6 2] else [] }, s)
      | 2 => (k.dropBy 1, s)
      | _ => ({ k with queues := [i], kind := kind1 }, s)
    | none => bridgeMiss u k s

/-- Stage 4: Almoith messages for this device go to their service (R446); other frames are routed or bridged, and their
source is noted for learning (R168–R171, R176). -/
def stDest (u : Option TableUpset) (k : Lk) (s : State) : Lk × State :=
  if k.drop.isSome then (k, s) else
  let vr := vlanRec u k.pipe k.vlan s
  let learn := decide (k.node ≤ 6) && bit (cfgN C.l2Port k.port 2 2 s) 0 && !bit (leAt vr 2 2) 0 && !isGroup (frSrc k.d)
  let s := match fdbFind u k.pipe (frSrc k.d) k.vlan s with | some key => fdbHit key s | none => s
  let wait := tget [] s.lkp.learns k.pipe ++ [⟨frSrc k.d, k.vlan, k.port⟩]
  let s := if learn then { s with lkp := { s.lkp with learns := tput s.lkp.learns k.pipe wait } } else s
  let link := frDst k.d == beAt (cfgRec C.almHdr 0 s) 4 6
  match almType k.d s with
  | some t =>
    if cfgHas C.almHdr 0 s && (link || frDst k.d == routerMac s) then
      ({ k with queues := [almQueue t s], kind := if link then 2 else 0 }, s)
    else stBridge u k s
  | none =>
    if bit (leAt vr 2 2) 1 && frDst k.d == routerMac s && (frIsV4 k.d || frIsV6 k.d) then (stRoute u k s, s)
    else stBridge u k s

/-- The 32-byte ACL key (R187). -/
def aclKey (k : Lk) (orig : List Byte) : List Byte :=
  let d := orig
  let o := frL3 d
  let v6 := frIsV6 d
  let ip := frIsV4 d || v6
  beBytes 1 k.port ++ beBytes 1 (b2n v6 + 4 * b2n k.routed + 8 * b2n k.yellow) ++ beBytes 2 k.vlan ++ beBytes 2 (frEt d)
    ++ beBytes 1 (if ip then frProto d else 0)
    ++ beBytes 1 (if ip then frDscp d * 4 else if frTagged d then frPcp d * 32 else 0)
    ++ (if v6 then slice d (o + 8) 8 ++ slice d (o + 24) 4 else slice d 0 12)
    ++ (if v6 then slice d (o + 28) 4 else if ip then slice d (o + 12) 4 else zeros 4)
    ++ (if v6 then zeros 4 else if ip then slice d (o + 16) 4 else zeros 4)
    ++ (if frHasPorts d then slice d (frL4 d) 4 else zeros 4)

/-- Whether a rule matches a key (R187). -/
def aclMatch (r key : List Byte) : Bool :=
  (List.range 32).all fun i => (byteAt key i &&& byteAt r (32 + i)) == (byteAt r i &&& byteAt r (32 + i))

/-- The class, the destination, the copy and the mirror session that a matching rule r with actions a gives (R188); a frame
redirected to its own ingress port is dropped (R168). -/
def aclSteer (a : Nat) (r : List Byte) (k : Lk) : Lk :=
  let q := leAt r 70 2
  let k := if bit a 1 then { k with cls := byteAt r 66 % 8 } else k
  let k := if bit a 4 then (if q < 256 ∧ q / 8 = k.port then { k with ports := [], queues := [], drop := some 1 }
                            else { k with ports := [], queues := [q] }) else k
  let k := if bit a 3 then (if k.drop.isSome then { k with toCc := [q] } else { k with queues := k.queues ++ [q] }) else k
  if bit a 5 then { k with mirAcl := some (byteAt r 67) } else k

/-- Stage 5: the matching rule with the lowest index and its actions (R187, R188). -/
def stAcl (u : Option TableUpset) (orig : List Byte) (k : Lk) (s : State) : Lk × State :=
  if k.drop.isSome then (k, s) else
  let key := aclKey k orig
  match (cfgIdx (C.aclRule + k.pipe) s).find? fun i =>
      !missing u 8 k.pipe i s && aclMatch (cfgRec (C.aclRule + k.pipe) i s) key with
  | none => (k, s)
  | some i =>
    let r := cfgRec (C.aclRule + k.pipe) i s
    let a := leAt r 64 2
    let q := leAt r 70 2
    let k := { k with acl := i }
    let s := match unitOfFrame k.port k.node s with
      | some n => if bit a 6 then scoreAdd n (if byteAt r 72 = 0 then cfgN C.spUnit n 3 1 s else byteAt r 72) s else s
      | none => s
    if bit a 0 then ({ (k.dropBy 10) with toCc := if bit a 3 then [q] else [] }, s)
    else
      let k := aclSteer a r k
      let n := min (tget 0 s.lkp.aclCnt (pk k.pipe i) + 1) 0xFFFFFFFF
      let s := if bit a 7 then { s with lkp := { s.lkp with aclCnt := tput s.lkp.aclCnt (pk k.pipe i) n } } else s
      if bit a 2 then police u (leAt r 68 2) k s else (k, s)

/-- Stage 6: adaptive containment (R190, R191). -/
def stContain (u : Option TableUpset) (k : Lk) (s : State) : Lk × State :=
  if k.drop.isSome || k.prot then (k, s) else
  match unitOfFrame k.port k.node s with
  | none => (k, s)
  | some n => match rd (F.LKP_CONTu_LEVEL.u n) s with
    | 0 => (k, s)
    | 1 => ({ k with cls := 0 }, s)
    | 2 => police u (cfgN C.spUnit n 14 2 s) { k with cls := 0 } s
    | _ => (k.dropBy 11, s)

/-- The mirror copies of a frame (R195): the active sessions that its ingress port, its egress ports or its ACL rule name,
each at most once. -/
def mirrorDests (u : Option TableUpset) (pipe port : Nat) (acl : Option Nat) (dests : List Nat) (s : State) :
    List (Nat × Bool × Nat) :=
  (([0, 1, 2, 3].filter fun n => mirrorActive u pipe n s &&
      (bit (cfgN C.mirror n 4 4 s) port && decide (port < 32) || acl == some n
        || dests.any fun q => q < 256 && bit (cfgN C.mirror n 8 4 s) (q / 8))).map
    fun n => (800 + n, true, cfgN C.mirror n 2 1 s))

/-- The whole pipeline for one frame from a node (R161). The port is 255 for FN7 to FN10. -/
def pipeline (u : Option TableUpset) (node port : Nat) (c : Nat) (yellow : Bool) (d : List Byte) (s : State) : Lk × State :=
  let k : Lk := { d := d, node := node, port := port, pipe := if node ≤ 5 then 0 else 1, cls := c, yellow := yellow,
                  prot := protectedMsg d s }
  let k := if port = 255 then k else { k with cls := stClass k s }
  let k := stVlan u k s
  let (k, s) := stStream u k s
  let (k, s) := stDest u k s
  let (k, s) := stAcl u d k s
  let (k, s) := stContain u k s
  let s := match k.drop with
    | some c => inc (F.LKP_Pp_DROPc_COUNT.uu k.pipe c) s
    | none => s
  (k, match u with
    | some x => upsetNoted u (parityReport x (unitOfFrame port node s) s)
    | none => s)

/-- The lookup data field (R163). -/
def lookupData (k : Lk) : Nat := k.kind * 8192 + b2n k.yellow * 4096 + k.acl

/-- The destination queues of a frame (R168, R188). -/
def Lk.dests (k : Lk) : List Nat :=
  if k.drop.isSome then k.toCc else (k.ports.map fun p => 8 * p + k.cls) ++ k.queues

/-- The lookup tables are loaded (R198, R200, R521). The counts of streams and policers stay, and so does a stream's blocking,
which ends with a WRST only (R182). -/
def lookupEnable (s : State) : State :=
  let s := (fdbLoad { s with lkp := { s.lkp with score := [], refillAt := none, refillMet := false } }).2
  s |> polLoad |> wr F.LKP_CFG_SWEEP_S (cfgN C.l2Hdr 0 6 2 s) |> fdbCount 0 |> fdbCount 1

end Sys2Proof.Machine
end

