-- ==== Sys2Proof/Machine/Time.lean ====
section
/-! DEFINITION. Clocks, gPTP, timestamps and PPS (03_time_and_stipples.md, R78–R99). -/

namespace Sys2Proof.Machine

/-- Units of a domain clock in one nanosecond. -/
def clkUnit : Int := 10 ^ 13
/-- 500 ppm in the units of a rate correction (R80). -/
def rateMax : Int := 5 * 10 ^ 9

/-- Domain clock d. -/
def dom (d : Nat) (s : State) : DomClk := tget {} s.time.doms d
/-- Domain clock d changed. -/
def domSet (d : Nat) (c : DomClk) (s : State) : State := { s with time := { s.time with doms := tput s.time.doms d c } }
/-- Whether domain d is enabled (R99). -/
def domOn (d : Nat) (s : State) : Bool := bit (cfgN C.timeHdr 0 0 1 s) d
/-- The state number of domain d: 0 FREE, 1 LOCKING, 2 LOCKED, 3 HOLDOVER, 4 GM (R84). -/
def domState (d : Nat) (s : State) : Nat := rd (F.TIME_Dn_STAT_STATE.u d) s
/-- The time of domain d in nanoseconds. -/
def domNs (d : Nat) (s : State) : Nat := ((dom d s).val / clkUnit).toNat
/-- Short time: the nanoseconds of domain 0 (R78). -/
def shortNs (s : State) : Nat := domNs 0 s

/-- The slew rate that removes the offset left, within the slew limit and the margin to ±500 ppm (R89). -/
def slewRate (limit : Int) (c : DomClk) : Int :=
  if c.slew = 0 then 0
  else if 0 < c.slew then max 0 (min limit (rateMax - c.rate))
  else -(max 0 (min limit (rateMax + c.rate)))

/-- One tick of a domain clock: 4 ns plus the rate correction plus the slew (R80, R89). -/
def domTick (limit : Int) (c : DomClk) : DomClk :=
  let r := slewRate limit c
  let d := if 0 ≤ c.slew then min c.slew (4 * r) else max c.slew (4 * r)
  { c with val := c.val + 4 * (clkUnit + c.rate) + d, slew := c.slew - d }

/-- The plate's slew limit in rate units (R99). -/
def slewLimit (s : State) : Int := (cfgN C.timeHdr 0 8 2 s : Int) * 10 ^ 7

/-- One tick of the 250 MHz time base (R79, R80, R87): the local clock gains 4 ns, every enabled domain clock advances, and
a steered domain 0 follows its source. -/
def timeTick (s : State) : State :=
  let s := { s with time := { s.time with loc := (s.time.loc + 4) % 2 ^ 64 } }
  let s := each ([0, 1, 2, 3].filter (domOn · s)) (fun d s => domSet d (domTick (slewLimit s) (dom d s)) s) s
  let src := rd (F.TIME_Dn_STAT_SOURCE.u 0) s
  if src = 0 then s else domSet 0 { dom 0 s with val := (dom src s).val + (dom 0 s).steer } s

/-- Short time has stepped forward from t: the instants between are judged late (R117). -/
def stepNote (t : Nat) (s : State) : State :=
  if t < shortNs s then { s with stp := { s.stp with stepped := s.stp.stepped ++ [(t, shortNs s)] } } else s

/-- A step of domain 0 puts every gate list that still waits for its first cycle on the new time (R218). -/
def stepGates (s : State) : State :=
  { s with eth := { s.eth with ports := tmap (fun p x => if x.started then x else { x with first := cfgN C.ethPort p 0x18 8 s }) s.eth.ports } }

/-- A step of domain d by D [10⁻¹³ ns], counted (R89). A step that would take the clock below 0, of which the manual says
nothing, leaves it at 0 (DEDUCED, log entry 76). -/
def stepClock (d : Nat) (D : Int) (s : State) : State :=
  inc (F.TIME_Dn_CNT_STEPS.u d) (domSet d { dom d s with val := max 0 ((dom d s).val + D), slew := 0 } s)
    |> when (d == 0) (fun t => stepGates (stepNote (shortNs s) t))

/-- Remove an offset D [10⁻¹³ ns] of domain d: a slew up to the step limit, a step beyond it (R89). A domain 0 that follows
the domain takes its step, counted as one of its own (R80, R87). -/
def correctOffset (d : Nat) (D : Int) (s : State) : State :=
  let lim : Int := (cfgN C.timeHdr 0 4 4 s : Int) * clkUnit
  if D ≤ lim ∧ -lim ≤ D then domSet d { dom d s with slew := D } s
  else
    let s := stepClock d D s
    if d ≠ 0 ∧ rd (F.TIME_Dn_STAT_SOURCE.u 0) s = d then stepClock 0 D s else s

/-- Set the rate correction of one domain, kept within ±500 ppm (R80). -/
def setRateOf (d : Nat) (r : Int) (s : State) : State :=
  let r := max (-rateMax) (min rateMax r)
  wrI (F.TIME_Dn_RATE_PPB.u d) (r / 10 ^ 4) (domSet d { dom d s with rate := r } s)

/-- Set the rate correction of domain d; a domain 0 that follows it takes its rate (R80, R87). -/
def setRate (d : Nat) (r : Int) (s : State) : State :=
  let s := setRateOf d r s
  if d ≠ 0 ∧ rd (F.TIME_Dn_STAT_SOURCE.u 0) s = d then setRateOf 0 r s else s

/-- The servo's new rate correction: the manual gives no servo law, so the rate is a free value within ±500 ppm. -/
def servoRate (d : Nat) (s : State) : State :=
  let (v, s) := fresh s
  setRate d ((v : Int) % (2 * rateMax + 1) - rateMax) s

/-! ### Ports (R82, R83, R90) -/

/-- The key of port p in domain d, or of the shared CMLDS measurement of that port. -/
def gptpKey (d p : Nat) : Nat := 32 * d + p
/-- gPTP port p of domain d. -/
def gptp (d p : Nat) (s : State) : GptpPort := tget {} s.time.ports (gptpKey d p)
/-- gPTP port changed. -/
def gptpSet (d p : Nat) (g : GptpPort) (s : State) : State :=
  { s with time := { s.time with ports := tput s.time.ports (gptpKey d p) g } }
/-- Whether port p takes part in enabled domain d (R99). -/
def gptpPort (d p : Nat) (s : State) : Bool := domOn d s && bit (cfgN C.timeDom d 0x10 4 s) p
/-- Whether gPTP runs on port p for domain d: TIME on CC0 answers (R81), and the port takes part (R99). -/
def gptpOn (d p : Nat) (s : State) : Bool := svcUp 1 s && gptpPort d p s
/-- The measurement key of port p: the common service when its CMLDS flag is set (R82). -/
def delayDom (d p : Nat) (s : State) : Nat := if bit (cfgN C.timePort p 7 1 s) 0 then 4 else d
/-- The path delay in force: static from the plate, or measured (R82, R99). -/
def pathDelay (d p : Nat) (s : State) : Int :=
  if bit (cfgN C.timePort p 7 1 s) 1 then (cfgN C.timePort p 8 4 s : Int) else (gptp (delayDom d p s) p s).delay
/-- The asymmetry of port p [ns] (R90, R99). -/
def asymmetry (p : Nat) (s : State) : Int := sext 16 (cfgN C.timePort p 4 2 s)
/-- The static role of port p in domain d: 0 disabled, 1 master, 2 slave, 3 passive (R99). -/
def staticRole (d p : Nat) (s : State) : Nat := cfgN C.timeDom d 8 8 s / 4 ^ p % 4
/-- Whether port p sends Sync in domain d: a static master port, or with BMCA any enabled port but the slave port (DEDUCED,
log entry 76: the manual names no port role that BMCA gives besides the slave port's). -/
def isMaster (d p : Nat) (s : State) : Bool :=
  gptpOn d p s && (if cfgN C.timeDom d 1 1 s = 0 then staticRole d p s == 1
    else rd (F.TIME_Dn_STAT_SLAVE_PORT.u d) s != p)

/-- The path-delay uncertainty of a port [ns]: twice the capture uncertainty (R86, R90). Speed codes 0 to 2 are
10, 5 and 2.5 Gbit/s. -/
def pathUncertainty (p : Nat) (s : State) : Nat :=
  if 16 ≤ p then 20 else if p < 4 && decide (rd (F.ETH_PORTpp_STAT_SPEED.u p) s ≤ 2) then 4 else 8

/-! ### Synchronisation states (R84–R87) -/

/-- The mean of the absolute offsets held (R86). -/
def meanOffset (l : List Nat) : Nat := if l.length = 0 then 0 else l.sum / l.length

/-- TIME_Dn_ERR after a Sync: in LOCKED the filtered offset plus the uncertainty; LOCKING and GM are left open by R86, so the
value there is free. -/
def updateErr (d : Nat) (s : State) : State :=
  match domState d s with
  | 2 =>
    let p := rd (F.TIME_Dn_STAT_SLAVE_PORT.u d) s
    wr (F.TIME_Dn_ERR_ERR.u d) (meanOffset (dom d s).offs + pathUncertainty p s) s
  | 0 => wr (F.TIME_Dn_ERR_ERR.u d) 0xFFFFFFFF s
  | 3 => s
  | _ => let (v, s) := fresh s; wr (F.TIME_Dn_ERR_ERR.u d) v s

/-- Domain d enters a state. PPS_OUT goes low with the selected domain's FREE (R97). -/
def domTo (d st : Nat) (s : State) : State :=
  let s := wr (F.TIME_Dn_STAT_STATE.u d) st s
  if st = 0 ∧ d = cfgN C.timeHdr 0 0x0A 1 s then { s with time := { s.time with ppsOut := false } } else s

/-- The failover list of domain 0, in its order (R87, R99). -/
def failoverList (s : State) : List Nat :=
  let v := cfgN C.timeHdr 0 1 1 s
  (List.range (bits v 6 2)).map fun i => bits v (2 * i) 2

/-- The first listed domain that is LOCKED. -/
def failoverSource (s : State) : Option Nat :=
  (failoverList s).find? fun d => d != 0 && domOn d s && domState d s == 2

/-- Domain d loses LOCKED: HOLDOVER, counted, and its error grows from its last value (R84, R86). -/
def toHoldover (d : Nat) (s : State) : State :=
  domSet d { dom d s with holdAt := s.time.loc, holdErr := rd (F.TIME_Dn_ERR_ERR.u d) s, low := 0 } s
    |> domTo d 3 |> inc (F.TIME_Dn_CNT_HOLDS.u d)

/-- Domain 0 is steered from domain src with the offset of this tick and the rate of that domain, and counts as LOCKED (R80,
R87). -/
def steerFrom (src : Nat) (s : State) : State :=
  domSet 0 { dom 0 s with steer := (dom 0 s).val - (dom src s).val, slew := 0 } s
    |> setRateOf 0 (dom src s).rate |> wr (F.TIME_Dn_STAT_SOURCE.u 0) src |> domTo 0 2

/-- Domain d leaves LOCKED (R84, R87): domain 0 fails over when it can. DEDUCED (log entry 76): when the domain that
steers domain 0 leaves LOCKED itself, the next listed LOCKED domain takes over, and without one domain 0 is in HOLDOVER. -/
def leaveLocked (d : Nat) (s : State) : State :=
  if d = 0 then
    match failoverSource s with
    | some src => steerFrom src s
    | none => toHoldover 0 s
  else
    let s := toHoldover d s
    if rd (F.TIME_Dn_STAT_SOURCE.u 0) s = d then
      match failoverSource s with
      | some src => steerFrom src s
      | none => toHoldover 0 (wr (F.TIME_Dn_STAT_SOURCE.u 0) 0 s)
    else s

/-- The effect of a complete Sync whose offset is D ns (R84, R86, R89). The Sync that enters LOCKING is one of the eight
counted (DEDUCED). -/
def applySync (d : Nat) (D : Int) (s : State) : State :=
  -- domain 0's own grandmaster returns: steering ends (R87)
  let s := if d = 0 then wr (F.TIME_Dn_STAT_SOURCE.u 0) 0 s else s
  let c : DomClk := { dom d s with syncAt := s.time.loc }
  let low := if D.natAbs < 200 then c.low + 1 else 0
  let st := domState d s
  let low := if st = 0 ∨ st = 3 then (if D.natAbs < 200 then 1 else 0) else low
  let st' := if st = 0 ∨ st = 3 then 1 else if st = 1 ∧ 8 ≤ low then 2 else st
  domSet d { c with low := low, offs := (D.natAbs :: c.offs).take 8 } s
    |> domTo d st' |> correctOffset d (D * clkUnit) |> servoRate d |> updateErr d

/-- The offset of a Sync: master time at reception less the domain clock then (R82, R90). The capture is corrected by the
port's ingress latency and the path delay by its asymmetry. -/
def syncOffset (d p : Nat) (m : SyncMsg) (s : State) : Int :=
  let ts := m.ingress + (cfgN C.timePort p 0 2 s : Int)
  let here := (domNs d s : Int) - ((s.time.loc : Int) - ts)
  m.origin + m.corr + pathDelay d p s + asymmetry p s - here

/-- A Sync is valid on the slave port of an enabled domain that is not grandmaster (R84). -/
def syncValid (d p : Nat) (s : State) : Bool :=
  gptpOn d p s && rd (F.TIME_Dn_STAT_SLAVE_PORT.u d) s == p && domState d s != 4

/-- A complete Sync on port p: the domain is corrected, and what a relayed Sync carries on is kept (R81, R84). -/
def takeSync (d p : Nat) (m : SyncMsg) (s : State) : State :=
  let up := (m.origin, m.corr, m.ingress + (cfgN C.timePort p 0 2 s : Int) - pathDelay d p s - asymmetry p s)
  let s := applySync d (syncOffset d p m s) s
  domSet d { dom d s with up := some up } s

/-- SYNC (R84): a two-step Sync waits for its Follow_Up; a one-step Sync applies at once. -/
def execSync (d : Fin 4) (port : Fin 32) (m : SyncMsg) (s : State) : Res :=
  .next (if syncValid d port s then
    if m.twoStep then gptpSet d port { gptp d port s with sync := some m } s else takeSync d port m s
  else s)

/-- FOLLOW_UP (R82): it completes the two-step Sync of its sequence number, with its own origin timestamp and the sum of
both correction fields. -/
def execFollowUp (d : Fin 4) (port : Fin 32) (m : SyncMsg) (s : State) : Res :=
  .next (match (gptp d port s).sync with
    | some y =>
      if syncValid d port s && y.seq == m.seq then
        takeSync d port { y with origin := m.origin, corr := y.corr + m.corr }
          (gptpSet d port { gptp d port s with sync := none } s)
      else s
    | none => s)

/-! ### Transmit timestamps (R90, R93–R95) -/

/-- The FIFO of a port. -/
def tsFifo (p : Nat) (s : State) : List Stamp := tget [] s.time.fifo p
/-- The entries of a port in the overflow pool. -/
def tsPoolOf (p : Nat) (s : State) : Nat := (s.time.pool.filter (·.1 == p)).length

/-- The occupancy registers of a port and of the pool. -/
def tsCounts (p : Nat) (s : State) : State :=
  s |> wr (F.TIME_PORTpp_TSF_FIFO.u p) (tsFifo p s).length |> wr (F.TIME_PORTpp_TSF_POOL.u p) (tsPoolOf p s)
    |> wr F.TIME_TSPOOL_STAT_USED s.time.pool.length |> markMax F.TIME_TSPOOL_STAT_HIGH s.time.pool.length

/-- A capture of the message timestamp point: local time with 1 ns resolution (R90). Where in its 4 ns tick the point falls
is open: a free value. -/
def rawCapture (s : State) : Nat × State := let (v, s) := fresh s; (s.time.loc + v % 4, s)

/-- A capture of port p finds a place (R93). -/
def tsRoom (p : Nat) (s : State) : Bool :=
  (decide ((tsFifo p s).length < 64) && tsPoolOf p s == 0) || decide (s.time.pool.length < 256)

/-- A transmit capture at local time t, with the port's egress latency (R90, R93, R94). -/
def tsPut (p : Nat) (o : StampOf) (t : Nat) (s : State) : State :=
  let st : Stamp := ⟨o, t + cfgN C.timePort p 2 2 s⟩
  if (tsFifo p s).length < 64 ∧ tsPoolOf p s = 0 then
    tsCounts p { s with time := { s.time with fifo := tput s.time.fifo p (tsFifo p s ++ [st]) } }
  else if s.time.pool.length < 256 then
    tsCounts p { s with time := { s.time with pool := s.time.pool ++ [(p, st)] } }
  else s |> inc (F.TIME_PORTpp_TSLOST_COUNT.u p) |> emit (.stamp p o none)

/-- A transmit capture now. -/
def tsCapture (p : Nat) (o : StampOf) (s : State) : State := let (t, s) := rawCapture s; tsPut p o t s

/-- Move the oldest pool entry of a port into its FIFO (R93). -/
def tsRefill (p : Nat) (s : State) : State := match s.time.pool.find? (·.1 == p) with
  | none => s
  | some e => { s with time := { s.time with
      pool := s.time.pool.erase e, fifo := tput s.time.fifo p (tsFifo p s ++ [e.2]) } }

/-! ### Messages on the wire (R78, R82) -/

/-- Key 4 stands for the common mean link delay service. -/
def cmlds : Nat := 4
/-- The IEEE 802.1AS domain number of a domain (R81, R99); CMLDS uses 0. -/
def wireDomain (k : Nat) (s : State) : Nat := if k = cmlds then 0 else cfgN C.timeDom k 0 1 s
/-- The port identity of port p: the clock identity and the port number of R83. -/
def portIdentity (p : Nat) : List Byte := beBytes 8 Config.clockIdentity.toNat ++ beBytes 2 p
/-- A point in time [ns]: 48 bits of seconds and 32 bits of nanoseconds, big-endian (R78). -/
def wireTime (t : Int) : List Byte := beBytes 6 (t.toNat / 1000000000) ++ beBytes 4 (t.toNat % 1000000000)

/-- A message: header and body (R78). `log`: logMessageInterval, `corr` [ns]. PRESUMED, with the bodies below: the forms of
IEEE 802.1AS-2020, which R78 names and does not print (log entry 77). -/
def wireMsg (k type flags p seq : Nat) (corr log : Int) (body : List Byte) (s : State) : List Byte :=
  beBytes 1 ((if k = cmlds then 0x20 else 0x10) + type) ++ beBytes 1 0x12 ++ beBytes 2 (34 + body.length)
    ++ beBytes 1 (wireDomain k s) ++ beBytes 1 0 ++ beBytes 2 flags ++ beBytes 8 (twos 64 (corr * 65536)) ++ zeros 4
    ++ portIdentity p ++ beBytes 2 seq ++ beBytes 1 0 ++ beBytes 1 (twos 8 log) ++ body

/-- A two-step Sync. -/
def wireSync (d p seq : Nat) (s : State) : List Byte := wireMsg d 0 0x0200 p seq 0 (gptp d p s).logSync (zeros 10) s
/-- The Follow_Up of a Sync that left at local time t: the grandmaster's origin with the correction that has built up,
residence in this bridge included (R81), or this device's domain time. Its information TLV carries the rate ratio to the
local clock. -/
def wireFollowUp (d p seq t : Nat) (s : State) : List Byte :=
  let c := dom d s
  let own : Int × Int := ((domNs d s : Int) - ((s.time.loc : Int) - t), 0)
  let x := match (if domState d s = 1 ∨ domState d s = 2 then c.up else none) with
    | some (o, corr, left) => (o, corr + ((t : Int) - left) * (clkUnit + c.rate) / clkUnit)
    | none => own
  wireMsg d 8 0 p seq x.2 (gptp d p s).logSync
    (wireTime x.1 ++ beBytes 2 3 ++ beBytes 2 28 ++ beBytes 3 0x0080C2 ++ beBytes 3 1 ++ beBytes 4 (twos 32 (c.rate * 2 ^ 41 / clkUnit))
      ++ zeros 18) s
/-- A Pdelay_Req under key k. -/
def wirePdelayReq (k p seq : Nat) (s : State) : List Byte := wireMsg k 2 0 p seq 0 (gptp k p s).logPd (zeros 20) s
/-- A Pdelay_Resp with the request's reception time, or its Follow_Up with the response's departure. -/
def wirePdelayResp (k type p seq : Nat) (peer : BitVec 80) (t : Int) (s : State) : List Byte :=
  wireMsg k type (if type = 3 then 0x0200 else 0) p seq 0 0x7F (wireTime t ++ beBytes 10 peer.toNat) s
/-- An Announce of domain d on port p: the grandmaster in force with the path trace to it, this device included. -/
def wireAnnounce (d p : Nat) (a : Announce) (s : State) : List Byte :=
  wireMsg d 11 0x0008 p (gptp d p s).seq 0 0
    (zeros 13 ++ beBytes 1 a.prio1.toNat ++ beBytes 1 a.clkClass.toNat ++ beBytes 1 a.accuracy.toNat
      ++ beBytes 2 a.variance.toNat ++ beBytes 1 a.prio2.toNat ++ beBytes 8 a.identity.toNat ++ beBytes 2 a.steps.toNat
      ++ beBytes 1 0xA0 ++ beBytes 2 8 ++ beBytes 2 (8 * a.path.length) ++ (a.path.map fun x => beBytes 8 x.toNat).flatten) s

/-- A gPTP message leaves on port p, unless the line is held fail-silent. -/
def gptpSend (p : Nat) (b : List Byte) (s : State) : State := transmit (portDomain p) (.gptp p b) s

/-- An event message leaves with a transmit capture for CC0 at local time t; with a full pool its timestamp is lost (R93,
R94): whether it was captured. -/
def gptpEventAt (p : Nat) (o : StampOf) (b : List Byte) (t : Nat) (s : State) : Bool × State :=
  if silent (portDomain p) s then (false, s) else (tsRoom p s, tsPut p o t (gptpSend p b s))

/-- The same, where the place of its message timestamp point in the tick is open. -/
def gptpEvent (p : Nat) (o : StampOf) (b : List Byte) (s : State) : Bool × State :=
  let (t, u) := rawCapture s
  if silent (portDomain p) s then (false, s) else gptpEventAt p o b t u

/-! ### Path delay (R82, R96) -/

/-- A Pdelay exchange that has its four timestamps gives the path delay; the request's timestamp is the device's own. -/
def pdelayDone (k p : Nat) (s : State) : State :=
  let g := gptp k p s
  match g.sentAt, g.resp with
  | some t1, some (t2, t3, t4) =>
    gptpSet k p { g with asked := none, sentAt := none, resp := none, lost := 0, delay := ((t4 - (t1 : Int)) - (t3 - t2)) / 2 } s
  | _, _ => s

/-- A Pdelay exchange fails: it counts against allowedLostResponses (R96). -/
def pdelayLost (k p : Nat) (s : State) : State :=
  let g := gptp k p s
  gptpSet k p { g with asked := none, sentAt := none, resp := none, lost := g.lost + 1 } s

/-- PDELAY_REQ (R82): answered with Pdelay_Resp, whose own timestamp then goes out in its Follow_Up. -/
def execPdelayReq (d : Fin 4) (port : Fin 32) (m : PdelayReq) (s : State) : Res :=
  .next (when (gptpOn d port s) (fun s =>
    (gptpEvent port (.pdelayResp d m.seq m.from_)
      (wirePdelayResp (delayDom d port s) 3 port m.seq m.from_ (m.ingress + cfgN C.timePort port 0 2 s) s) s).2) s)

/-- PDELAY_RESP (R82, R96): with the request's timestamp the exchange gives the path delay; one with a lost timestamp is
discarded. -/
def execPdelayResp (d : Fin 4) (port : Fin 32) (m : PdelayMsg) (s : State) : Res :=
  let k := delayDom d port s
  let g := gptp k port s
  .next (if gptpOn d port s && g.asked == some m.seq then
    match m.ts with
    | some (t2, t3, t4) =>
      pdelayDone k port (gptpSet k port { g with resp := some (t2, t3, t4 + (cfgN C.timePort port 0 2 s : Int)) } s)
    | none => pdelayLost k port s
  else s)

/-- SYNC_INTERVAL (R82, R96): a master port sends a two-step Sync. Its Follow_Up follows with its timestamp; without one none
is sent. `ns`: where in its tick the message timestamp point of the Sync passes. -/
def execSyncInterval (d : Fin 4) (port : Fin 32) (ns : Fin 4) (s : State) : Res :=
  let g := gptp d port s
  .next (when (isMaster d port s) (fun s =>
    (gptpEventAt port (.sync d g.seq) (wireSync d port g.seq s) (s.time.loc + ns)
      (gptpSet d port { g with seq := (g.seq + 1) % 65536 } s)).2) s)

/-- PDELAY_REQ_INTERVAL (R82, R96): a new exchange starts; an unanswered one counts as lost, and so does one whose own
timestamp is lost. -/
def execPdelayReqInterval (d : Fin 4) (port : Fin 32) (s : State) : Res :=
  let k := delayDom d port s
  let g := gptp k port s
  .next (when (gptpOn d port s) (fun s =>
    let s := gptpSet k port { g with seq := (g.seq + 1) % 65536, asked := some g.seq, sentAt := none, resp := none,
                                     lost := if g.asked.isSome then g.lost + 1 else g.lost } s
    let r := gptpEvent port (.pdelayReq k g.seq) (wirePdelayReq k port g.seq s) s
    if r.1 || silent (portDomain port) s then r.2 else pdelayLost k port r.2) s)

/-- The completion record of a gPTP message reaches CC0 (R93, R96). -/
def gptpStamp (p : Nat) (o : StampOf) (t : Nat) (s : State) : State := match o with
  | .host _ _ _ => s
  | .sync d seq => when (isMaster d p s) (gptpSend p (wireFollowUp d p seq t s)) s
  | .pdelayReq k seq =>
    if (gptp k p s).asked = some seq then pdelayDone k p (gptpSet k p { gptp k p s with sentAt := some t } s) else s
  | .pdelayResp d seq peer => when (gptpOn d p s) (gptpSend p (wirePdelayResp (delayDom d p s) 10 p seq peer t s)) s

/-- SIGNALING_MESSAGE (R82): a message interval request within the supported ranges changes the port's intervals. -/
def execSignalingMessage (port : Fin 32) (d : Fin 4) (sync pdelay : Option Int) (s : State) : Res :=
  let g := gptp d port s
  let ls := match sync with | some v => if -5 ≤ v ∧ v ≤ 0 then v else g.logSync | none => g.logSync
  let lp := match pdelay with | some v => if -3 ≤ v ∧ v ≤ 3 then v else g.logPd | none => g.logPd
  .next (when (gptpOn d port s) (gptpSet d port { g with logSync := ls, logPd := lp }) s)

/-! ### Grandmaster selection (R82, R84) -/

/-- The Announce that this device makes as grandmaster of domain d (R99). -/
def ownAnnounce (d : Nat) (s : State) : Announce :=
  { port := 0, prio1 := BitVec.ofNat 8 (cfgN C.timeDom d 2 1 s), clkClass := BitVec.ofNat 8 (cfgN C.timeDom d 7 1 s),
    accuracy := BitVec.ofNat 8 (cfgN C.timeDom d 0x14 1 s), variance := BitVec.ofNat 16 (cfgN C.timeDom d 0x16 2 s),
    prio2 := BitVec.ofNat 8 (cfgN C.timeDom d 3 1 s), identity := Config.clockIdentity, steps := 0, path := [] }

/-- The order in which BMCA ranks grandmasters: priority 1, clock class, accuracy, variance, priority 2, identity, then the
steps to it and the port. -/
def announceRank (a : Announce) : List Nat :=
  [a.prio1.toNat, a.clkClass.toNat, a.accuracy.toNat, a.variance.toNat, a.prio2.toNat, a.identity.toNat, a.steps.toNat, a.port.val]

/-- Lexicographic order. -/
def rankLt : List Nat → List Nat → Bool
  | x :: xs, y :: ys => decide (x < y) || (x == y && rankLt xs ys)
  | _, _ => false

/-- Announces that count: on a port of the domain, with a path trace that does not hold this device, of at most 16 entries
(R82). -/
def announceOk (d : Nat) (s : State) (a : Announce) : Bool :=
  gptpPort d a.port s && !a.path.contains Config.clockIdentity && decide (a.path.length ≤ 16)

/-- The best of the Announces. -/
def bestAnnounce : List Announce → Option Announce
  | [] => none
  | a :: r => match bestAnnounce r with
    | none => some a
    | some b => some (if rankLt (announceRank b) (announceRank a) then b else a)

/-- What BMCA selects for domain d among the Announces its ports hold: the best of them, or this device where it may be
grandmaster and none is better. -/
def bmcaSelect (d : Nat) (l : List Announce) (s : State) : Option Announce :=
  let own := ownAnnounce d s
  match bestAnnounce (l.filter (announceOk d s)) with
  | none => if cfgN C.timeDom d 6 1 s = 1 then some own else none
  | some a => some (if cfgN C.timeDom d 6 1 s = 1 && !rankLt (announceRank a) (announceRank own) then own else a)

/-- The master ports announce the grandmaster in force, one step on, with this device in the path trace (R82). -/
def announceAll (d : Nat) (a : Announce) (s : State) : State :=
  let a := { a with path := (a.path ++ [Config.clockIdentity]).take 16, steps := if a.path = [] then 0 else a.steps + 1 }
  each ((List.range 32).filter fun p => isMaster d p s) (fun p s => gptpSend p (wireAnnounce d p a s) s)
    (domSet d { dom d s with path := a.path, gm := some a.identity } s)

/-- BMCA (R82, R84), in a domain without static port roles: the domain enters GM, or leaves it for the port that BMCA makes
the slave port. -/
def execBmca (d : Fin 4) (l : List Announce) (s : State) : Res :=
  .next (if svcUp 1 s && domOn d s && cfgN C.timeDom d 1 1 s == 1 then
    match bmcaSelect d l s with
    | none => s
    | some a =>
      if a.identity = Config.clockIdentity then
        domTo d 4 (wr (F.TIME_Dn_STAT_SLAVE_PORT.u d) 0x3F s) |> updateErr d |> announceAll d a
      else
        let s := wr (F.TIME_Dn_STAT_SLAVE_PORT.u d) a.port s
        (if domState d s = 4 then updateErr d (domTo d 0 s) else s) |> announceAll d a
  else s)

/-- The local time at which syncReceiptTimeout Sync intervals have passed since domain d's latest Sync [ns] (R84, R99). -/
def syncDue (d : Nat) (s : State) : Nat :=
  let g := gptp d (rd (F.TIME_Dn_STAT_SLAVE_PORT.u d) s) s
  (dom d s).syncAt + cfgN C.timeDom d 5 1 s * (1000000000 / 2 ^ (-g.logSync).toNat)

/-- SYNC_RECEIPT_TIMEOUT (R84, R85, R87): once it has passed, LOCKING falls back to FREE, LOCKED to HOLDOVER or to a failover
source. -/
def execSyncReceiptTimeout (d : Fin 4) (s : State) : Res :=
  .next (if domOn d s && decide (syncDue d s ≤ s.time.loc) then
    if domState d s = 1 then updateErr d (domTo d 0 (domSet d { dom d s with low := 0, slew := 0 } s))
    else if domState d s = 2 && (decide (d.val ≠ 0) || rd (F.TIME_Dn_STAT_SOURCE.u 0) s == 0) then leaveLocked d s
    else s
  else s)

/-- HOLDOVER_LIMIT (R84, R99): the plate's limit has passed since the entry into HOLDOVER. -/
def execHoldoverLimit (d : Fin 4) (s : State) : Res :=
  .next (if domState d s = 3 ∧ (dom d s).holdAt + cfgN C.timeHdr 0 2 2 s * 1000000 ≤ s.time.loc then
    updateErr d (domTo d 0 s) else s)

/-- TIME_Dn_ERR as read: in HOLDOVER it grows by 0.1 ppm of the elapsed time plus 2 ns per second squared (R86). -/
def errNow (d : Nat) (s : State) : Nat :=
  if domState d s = 3 then
    let t := s.time.loc - (dom d s).holdAt
    min 0xFFFFFFFF ((dom d s).holdErr + t / 10000000 + 2 * t * t / 10 ^ 18)
  else rd (F.TIME_Dn_ERR_ERR.u d) s

/-! ### PPS (R97, R98) -/

/-- The signed distance from t to the nearest whole second [ns]. -/
def toSecond (t : Nat) : Int :=
  let r := t % 1000000000
  if r ≤ 500000000 then -(r : Int) else 1000000000 - (r : Int)

/-- PPS_OUT (R97): the pin rises within 8 ns of a whole second of the selected domain, and stays low while the domain is
FREE. -/
def execPpsOut (s : State) : Res :=
  let d := cfgN C.timeHdr 0 0x0A 1 s
  .next (when (bit (cfgN C.timeHdr 0 0x0B 1 s) 0 && domOn d s && domState d s != 0 && decide ((toSecond (domNs d s)).natAbs ≤ 8))
    (fun s => { s with time := { s.time with ppsOut := true, ppsRose := s.time.loc } }) s)

/-- PPS_OUT_WIDTH (R97): the plate's width has passed. -/
def execPpsOutWidth (s : State) : Res :=
  .next (if s.time.ppsRose + cfgN C.timeHdr 0 0x0C 4 s * 1000 ≤ s.time.loc then { s with time := { s.time with ppsOut := false } } else s)

/-- PPS_IN (R98): the edge is timestamped, and as grandmaster of domain 0 with PPS_DISCIPLINE it steers domain 0. DEDUCED (log
entry 76): the previous edge of the half-second test is the latest one on the pin, a rejected one too. -/
def execPpsIn (s : State) : Res :=
  let fl := cfgN C.timeHdr 0 0x0B 1 s
  let t := shortNs s
  .next (if bit fl 1 then
    let soon := s.time.edge.any fun e => decide (t < e + 500000000)
    let s := { s with time := { s.time with edge := some t } }
    if soon || decide (1000000 < (toSecond t).natAbs) then inc F.TIME_PPS_STAT_REJECT s
    else
      let s := inc F.TIME_PPS_STAT_ACCEPT { s with time := { s.time with ppsIn := t } }
        |> wr F.TIME_PPS_IN_LO_NS (t % 2 ^ 32)
      if bit fl 2 && domState 0 s == 4 && svcUp 1 s then servoRate 0 (correctOffset 0 (toSecond t * clkUnit) s) else s
  else s)

/-- The TIME section is applied: EN, the slave port and, by static configuration, GM (R84, R99). -/
def timeEnable (s : State) : State :=
  each ([0, 1, 2, 3].filter (domOn · s)) (fun d s =>
    let s := wr (F.TIME_Dn_STAT_EN.u d) 1 s
    let s := each (List.range 32) (fun p s => gptpSet d p { gptp d p s with
        logSync := sext 8 (cfgN C.timeDom d 4 1 s), logPd := sext 8 (cfgN C.timePort p 6 1 s) } s) s
    if cfgN C.timeDom d 1 1 s = 0 then
      match (List.range 32).find? (fun p => gptpPort d p s && staticRole d p s == 2) with
      | some p => wr (F.TIME_Dn_STAT_SLAVE_PORT.u d) p s
      | none => if cfgN C.timeDom d 6 1 s = 1 then updateErr d (domTo d 4 s) else s
    else s) s

end Sys2Proof.Machine
end

