-- ==== Sys2Proof/Machine/Schedule.lean ====
section
/-! DEFINITION. Instants of stipple entries and of gate control lists (R100–R109, R215–R218). -/

namespace Sys2Proof.Machine

/-- The first instant base + k × len, k any integer, at or after t. -/
def nextAt (base len t : Nat) : Nat :=
  if len = 0 then t else t + (base % len + len - t % len) % len

/-- Field o of width w of stipple entry e (R102). -/
def stpN (e o w : Nat) (s : State) : Nat := cfgN C.stpEntry e o w s
/-- Whether entry e is enabled. -/
def stpOn (e : Nat) (s : State) : Bool := bit (stpN e 1 1 s) 0
/-- The period index of an entry. -/
def stpPer (e : Nat) (s : State) : Nat := stpN e 0 1 s
/-- The action code of an entry (R103). -/
def stpAct (e : Nat) (s : State) : Nat := stpN e 8 1 s
/-- The length of an entry's period. -/
def stpLen (e : Nat) (s : State) : Nat := cfgN C.stpPeriod (stpPer e s) 0 4 s
/-- The late limit of an entry's period. -/
def stpLimit (e : Nat) (s : State) : Nat := cfgN C.stpPeriod (stpPer e s) 8 4 s
/-- The run state of an entry. -/
def stpRun (e : Nat) (s : State) : StpRun := tget {} s.stp.run e
/-- The run state changed. -/
def stpSet (e : Nat) (r : StpRun) (s : State) : State := { s with stp := { s.stp with run := tput s.stp.run e r } }

/-- Whether entry e's period is suspended: `SYNC_REQ` set and domain 0 FREE (R116). -/
def stpSuspended (e : Nat) (s : State) : Bool := bit (cfgN C.stpPeriod (stpPer e s) 0x0C 1 s) 0 && domState 0 s == 0

/-- The next instant of entry e: the first after the last one that was fired, and none before firing begins (R100, R106,
R117). -/
def stpNext (e : Nat) (s : State) : Nat :=
  let lo := match (stpRun e s).last with
    | none => s.stp.from_
    | some t => max s.stp.from_ (t + 1)
  nextAt (cfgN C.stpPeriod (stpPer e s) 4 4 s + stpN e 4 4 s) (stpLen e s) lo

/-- Whether the scheduler fires at all: from the full stage, and not in STANDBY or SLEEP (R106, R111). -/
def stpRunning (s : State) : Bool := isFull s && decide (s.pwr.mode ≤ 1)

/-- The guard window of a port is open: until the instant's own tick is over (R109). -/
def inGuard (p : Nat) (s : State) : Bool := match tfind s.stp.guard p with
  | some t => decide ((dom 0 s).val - 4 * (clkUnit + (dom 0 s).rate) < t * clkUnit)
  | none => false

/-- An instant of entry e is due now (R100, R107). -/
def stpDueNow (e : Nat) (s : State) : Bool :=
  stpOn e s && stpLen e s != 0 && decide (stpNext e s ≤ shortNs s) && !stpSuspended e s

/-- The number of entries below e that are due and fire first in this tick (R107). -/
def stpLower (e : Nat) (s : State) : Nat := ((cfgIdx C.stpEntry s).filter fun i => decide (i < e) && stpDueNow i s).length

/-- Domain 0 has stepped over an instant (R117). -/
def stpStepped (t : Nat) (s : State) : Bool := s.stp.stepped.any fun x => decide (x.1 < t) && decide (t ≤ x.2)

/-- The next PLCA_BEACON instant of a segment (R227). -/
def beaconNext (sg : Nat) (s : State) : Option Nat :=
  (((cfgIdx C.stpEntry s).filter fun e => stpOn e s && stpAct e s == 6 && stpN e 2 2 s == sg).map (stpNext · s)).min?

/-! ### Gate control lists (R215–R218) -/

/-- The gate entries of a port: state and interval. -/
def gateList (p : Nat) (s : State) : List (Nat × Nat) :=
  (List.range (cfgN C.ethPort p 0x12 2 s)).map fun i => (cfgN C.ethGate (256 * p + i) 1 1 s, cfgN C.ethGate (256 * p + i) 4 4 s)

/-- The index of the entry that covers offset t of the cycle, and the time left in it. -/
def gateAt (l : List (Nat × Nat)) (t : Nat) : Nat × Nat :=
  let r := l.foldl (fun (a : Nat × Nat × Option (Nat × Nat)) e =>
    match a.2.2 with
    | some _ => a
    | none => if t < a.2.1 + e.2 then (a.1, a.2.1, some (a.1, a.2.1 + e.2 - t)) else (a.1 + 1, a.2.1 + e.2, none)) (0, 0, none)
  r.2.2.getD (0, 0)

/-- The first cycle start of port p at or after short time t: base, or base + k × cycle time (R215, R218). -/
def gateFirst (p t : Nat) (s : State) : Nat :=
  let base := cfgN C.ethPort p 0x18 8 s
  if t ≤ base then base else nextAt base (cfgN C.ethPort p 0x14 4 s) t

/-- No cycle has started since the port was enabled (R218). -/
def gateWaits (p : Nat) (s : State) : Bool :=
  let x := tget {} s.eth.ports p
  !x.started && decide (shortNs s < x.first)

/-- The current entry of a port's list and the time left in it; none before the first cycle start (R215, R218). -/
def gatePos (p : Nat) (s : State) : Option (Nat × Nat) :=
  let base := cfgN C.ethPort p 0x18 8 s
  let cyc := cfgN C.ethPort p 0x14 4 s
  let t := shortNs s
  if cyc = 0 ∨ gateWaits p s then none
  else some (gateAt (gateList p s) ((t + cyc - base % cyc) % cyc))

/-- The gate states in force on a port (R215, R217, R218). -/
def gatesNow (p : Nat) (s : State) : Nat :=
  if !bit (cfgN C.ethPort p 4 2 s) 6 then (tget {} s.eth.ports p).forced.getD 0xFF
  else match (tget {} s.eth.ports p).forced with
    | some g => g
    | none => match gatePos p s with
      | none => 0xFF
      | some (i, _) => ((gateList p s)[i]?.map (·.1)).getD 0xFF

/-- Time until gate c closes, looking ahead through the list: the time left in the current entry, or until the first cycle
start (R218), and the entries after it; none when it never closes, without a list, or while a stipple forces it (R216). -/
def untilClose (p c : Nat) (s : State) : Option Nat :=
  let l := gateList p s
  let close (left : Nat) (ahead : List (Nat × Nat)) : Option Nat :=
    let r := ahead.foldl (fun (a : Nat × Bool) e => if a.2 then a else if bit e.1 c then (a.1 + e.2, false) else (a.1, true)) (left, false)
    if r.2 then some r.1 else none
  if !bit (cfgN C.ethPort p 4 2 s) 6 || (tget {} s.eth.ports p).forced.isSome then none
  else match gatePos p s with
    | some (i, left) => close left (l.drop (i + 1) ++ l.take (i + 1))
    | none => close ((tget {} s.eth.ports p).first - shortNs s) l

/-- The port's own list has closed gate c, no stipple: a preemptable frame in progress stands preempted (R216, R217). -/
def listCloses (p c : Nat) (s : State) : Bool :=
  bit (cfgN C.ethPort p 4 2 s) 6 && (tget {} s.eth.ports p).forced.isNone && !bit (gatesNow p s) c

end Sys2Proof.Machine
end

