-- ==== Sys2Proof/Machine/Events.lean ====
section
/-! DEFINITION. Pending events of the graver engines, due PDUs, and the hand-over of field frames (R241, R290–R292,
R315–R317). -/

namespace Sys2Proof.Machine

/-! ### Engines and their events -/

/-- Engine e. -/
def eng (e : Nat) (s : State) : Engine := tget {} s.grv.engs e
/-- Engine e changed. -/
def engSet (e : Nat) (x : Engine) (s : State) : State := { s with grv := { s.grv with engs := tput s.grv.engs e x } }
/-- Context c of engine e. -/
def ctx (e c : Nat) (s : State) : Ctx := tget {} (eng e s).ctxs c
/-- The event registers of an engine: busy and stalled contexts (GRV_GVn_STAT). -/
def engShow (e : Nat) (s : State) : State :=
  let st (n : Nat) : Nat := ofBits ((List.range 8).filter fun c => decide (n ≤ (ctx e c s).st))
  s |> wr (F.GRV_GVn_STAT_BUSY.u e) (st 1) |> wr (F.GRV_GVn_STAT_STALLED.u e) (st 2)
    |> wr (F.GRV_GVn_PEND_MSG.u e) (eng e s).msgs.length
/-- Context c of engine e changed. -/
def ctxSet (e c : Nat) (x : Ctx) (s : State) : State :=
  engShow e (engSet e { eng e s with ctxs := tput (eng e s).ctxs c x } s)

/-- The engine that a field channel is mapped to: CAN 0–95, LIN 96 + channel; 255 for none (R307, R312). -/
def chanEngine (ch : Nat) (s : State) : Nat := if cfgHas C.sigChan 0 s then cfgN C.sigChan 0 ch 1 s else 255
/-- The receive FIFO of a field channel. -/
def rxFifo (ch : Nat) (s : State) : List RxFr := tget [] s.can.fifo ch
/-- The field channels mapped to engine e. -/
def chansOf (e : Nat) (s : State) : List Nat := (List.range 128).filter fun ch => chanEngine ch s == e
/-- Number of events pending for engine e. -/
def pendCount (e : Nat) (s : State) : Nat :=
  (eng e s).evs.length + (eng e s).msgs.length + ((chansOf e s).map fun ch => (rxFifo ch s).length).sum
/-- The largest number of pending events is kept (GRV_GVn_PEND). -/
def pendMark (e : Nat) (s : State) : State := markMax (F.GRV_GVn_PEND_HIGH.u e) (pendCount e s) s

/-- An event pends for engine e (R316). -/
def evRaise (e : Nat) (v : Ev) (s : State) : State :=
  if e < 16 then pendMark e (engSet e { eng e s with evs := (eng e s).evs ++ [v] } s) else s

/-- Whether an event of a kind and source pends or runs on engine e. -/
def evThere (e kind src : Nat) (s : State) : Bool :=
  (eng e s).evs.any (fun v => v.kind == kind && v.src == src)
    || (List.range 8).any fun c => decide ((ctx e c s).st ≠ 0) && (ctx e c s).ev.kind == kind && (ctx e c s).ev.src == src

/-- Whether an event of a kind and source pends on engine e. -/
def evPends (e kind src : Nat) (s : State) : Bool := (eng e s).evs.any fun v => v.kind == kind && v.src == src

/-! ### PDUs that fall due (R290–R292) -/

/-- Field o of width w of PDU record p (R312). -/
def pduN (p o w : Nat) (s : State) : Nat := cfgN C.sigPdu p o w s
/-- The mode of a PDU (R290). -/
def pduMode (p : Nat) (s : State) : Nat := if cfgHas C.sigPdu p s then pduN p 2 1 s else 5
/-- The run state of a PDU. -/
def pduRun (p : Nat) (s : State) : PduRun := tget {} s.sig.pdus p
/-- The run state of a PDU changed. -/
def pduSet (p : Nat) (r : PduRun) (s : State) : State := { s with sig := { s.sig with pdus := tput s.sig.pdus p r } }

/-- A frame has started on its carrier: a port sends it, or its SOF is on a CAN bus (R292). -/
def frameStarted (f : Nat) (s : State) : Bool :=
  s.qm.cur.any (fun c => c.2.2 == f)
    || s.can.chans.any fun c => c.2.sof && (match c.2.slot with | some x => x.2 == f | none => false)

/-- Whether an instance of PDU p is linked, or on its way to be, and has not started on its carrier (R292). -/
def pduUnsent (p : Nat) (s : State) : Bool :=
  s.qm.frames.any fun e => e.2.pdu == some p && !e.2.gone && !frameStarted e.1 s

/-- PDU p falls due (R290, R291): the event pends for its engine, or merges with an instance that is unsent or an event
that pends (R292, R316). -/
def pduDue (p : Nat) (s : State) : State :=
  if pduMode p s = 5 ∨ pduMode p s = 2 then s
  else if pduUnsent p s then inc F.SIG_MERGED_COUNT (pduSet p { pduRun p s with again := true } s)
  else if evPends (pduN p 0x1C 1 s) 2 p s then inc F.SIG_MERGED_COUNT s
  else evRaise (pduN p 0x1C 1 s) ⟨2, 0, p, 0, shortNs s⟩ s

/-- The unsent instance of a PDU leaves: a merged due event is raised again (R292). -/
def pduLeft (p : Option Nat) (s : State) : State := match p with
  | none => s
  | some p => if (pduRun p s).again then pduDue p (pduSet p { pduRun p s with again := false } s) else s

/-- A PDU whose unsent instance has left its queue by another way, evicted, flushed or dropped, is packed again too
(R292). -/
def pduSettle (p : Nat) (s : State) : State := when (!pduUnsent p s) (pduLeft (some p)) s

/-! ### Hand-over of field frames (R240, R241) -/

/-- A CAN frame in the buffer (R240). -/
def canBytes (f : CanFrame) : List Byte :=
  let fmt := match f.fmt with | .cc => 0 | .fd => 1 | .xl => 2
  let xl := f.fmt == .xl
  leBytes 4 (f.id + 2 ^ 29 * b2n f.ide + 2 ^ 30 * b2n f.rtr) ++ leBytes 1 fmt
    ++ leBytes 1 (b2n f.brs + 2 * b2n f.esi + 4 * b2n (f.sec && xl)) ++ leBytes 2 f.data.length
    ++ leBytes 1 (if xl then f.sdt else 0) ++ leBytes 1 (if xl then f.vcid else 0) ++ zeros 2 ++ leBytes 4 (if xl then f.af else 0)
    ++ f.data

/-- A LIN frame in the buffer (R259). -/
def linBytes (id : Nat) (d : List Byte) : List Byte :=
  leBytes 4 id ++ zeros 2 ++ leBytes 2 d.length ++ zeros 8 ++ d

/-- The CAN frame that a buffer holds (R240), as sent: ESI and the padding are added on the bus. -/
def canOfBytes (b : List Byte) : CanFrame :=
  { fmt := match byteAt b 4 with | 0 => .cc | 1 => .fd | _ => .xl, id := leAt b 0 4 % 2 ^ 29, ide := bit (leAt b 0 4) 29,
    rtr := bit (leAt b 0 4) 30, brs := bit (byteAt b 5) 0, esi := false, sec := bit (byteAt b 5) 2 && byteAt b 4 == 2,
    sdt := byteAt b 8, vcid := byteAt b 9, af := leAt b 12 4, data := slice b 16 (leAt b 6 2) }

/-- A received frame enters its channel's FIFO of 8 KiB; the answer says whether there was room (R241). -/
def fifoPut (ch : Nat) (b : List Byte) (ts : Nat) (s : State) : Bool × State :=
  let used := ((rxFifo ch s).map fun x => x.data.length).sum
  if used + b.length ≤ 8192 then
    (true, pendMark (chanEngine ch s)
      { s with can := { s.can with fifo := tput s.can.fifo ch (rxFifo ch s ++ [⟨b, ts, shortNs s⟩]) } })
  else (false, s)

end Sys2Proof.Machine
end

