-- ==== Sys2Proof/Machine/Sbs.lean ====
section
/-! DEFINITION. The side-band scan: inputs, debouncing and output updates (R265–R269). -/

namespace Sys2Proof.Machine

/-- A 32-byte map of the SBS section as a number. -/
def sbsMap (o : Nat) (s : State) : Nat := leAt (cfgRec C.sbs 0 s) o 32
/-- Whether the side-band scan is enabled (R275). -/
def sbsOn (s : State) : Bool := bit (cfgN C.sbs 0 0 2 s) 0

/-- The output registers show the present values. -/
def sbsShow (s : State) : State :=
  each (List.range 8) (fun n => wr (F.FLD_SBS_OUTn_OUT.u n) (s.sbs.outs / 2 ^ (32 * n))) s

/-- An output update starts: it will strobe the present values; one that runs already makes this one wait (R267). -/
def sbsStart (s : State) : State :=
  if s.sbs.busy then { s with sbs := { s.sbs with again := true } } else { s with sbs := { s.sbs with busy := true } }

/-- The rank of a writer when two write one output in the same tick: the stipple wins, else the later one of R267's
list. -/
def sbsRank : SbsWriter → Nat
  | .phy => 1
  | .transceiver => 2
  | .sleep => 3
  | .stipple => 4

/-- The side-band scan runs: enabled, with its domain on (R24, R275). -/
def sbsRuns (s : State) : Bool := sbsOn s && domRuns .fld s

/-- The outputs written in this tick, with their writers' ranks (R267). -/
def sbsWrote (s : State) : List (Nat × Nat) := if s.sbs.wrote.1 = s.time.loc then s.sbs.wrote.2 else []

/-- Whether a writer's value for output o stands: no writer of a higher rank has written it in this tick (R267). -/
def sbsMay (w : SbsWriter) (s : State) (o : Nat) : Bool := !(sbsWrote s).any fun x => x.1 == o && decide (sbsRank w < x.2)

/-- Give outputs the values of `vals` under a mask (R267, R436, R443): a change starts one update. -/
def sbsWriteMask (w : SbsWriter) (mask vals : Nat) (s : State) : State :=
  if !sbsRuns s then s
  else
    let os := (bitList mask 256).filter (sbsMay w s)
    let m := ofBits os
    let v := clearBits s.sbs.outs m + (vals &&& m)
    let s := { s with sbs := { s.sbs with wrote := (s.time.loc, os.map (·, sbsRank w) ++ sbsWrote s) } }
    if v = s.sbs.outs then s else sbsStart (sbsShow { s with sbs := { s.sbs with outs := v } })

/-- Write output o (R267). -/
def sbsWrite (w : SbsWriter) (o : Nat) (v : Bool) (s : State) : State :=
  if o < 256 then sbsWriteMask w (2 ^ o) (b2n v * 2 ^ o) s else s

/-- SBS_OUTPUT_UPDATE (R267): one of the device's writers changes an output. -/
def execSbsOutputUpdate (o : Fin 256) (v : SbsValue) (s : State) : Res := .next (sbsWrite v.who o v.level s)

/-- SBS_UPDATE_END (R267): the values reach the external registers, unless SBS_CLR_N holds them at 0 (R268); an update
that waited starts. -/
def execSbsUpdateEnd (s : State) : Res :=
  .next (if s.sbs.busy && domRuns .fld s then
    { s with sbs := { s.sbs with pins := if s.pwr.sbsClrN then s.sbs.outs else 0, busy := s.sbs.again, again := false } }
  else s)

/-- SBS_REFRESH (R267): every 100 µs all outputs are refreshed. -/
def execSbsRefresh (s : State) : Res := .next (when (sbsRuns s) sbsStart s)

/-- Whether input i reads active: its debounced value (R265, R275). -/
def sbsIn (i : Nat) (s : State) : Bool := bit s.sbs.ins i

/-- What follows a debounced input that has changed: the transceiver status of the channels that name it (R269) and the
PHY interrupt of the ports that name it (R234). -/
def sbsInput (i : Nat) (v : Bool) (s : State) : State :=
  let cans := (List.range 96).filter fun c => cfgN C.canCh c 0 1 s != 0 && cfgN C.canCh c 0x18 2 s == i
  let lins := (List.range 32).filter fun c => cfgN C.linCh c 0 1 s != 0 && cfgN C.linCh c 8 2 s == i
  let phys := (List.range 16).filter fun p => cfgN C.ethPort p 0 1 s != 0 && cfgN C.ethPort p 0x22 2 s == i
  let s := each cans (fun c => wrB (F.FLD_CANnn_STAT_XCVR_ERR.u c) v) s
  let s := each lins (fun c => wrB (F.FLD_LINnn_STAT_XCVR_ERR.u c) v) s
  when (v && !(cans.isEmpty && lins.isEmpty && phys.isEmpty)) (record 0x0505 i 1) s

/-- The value of bit i that d successive scans agree on, if any. -/
def debounce (d : Nat) (scans : List Nat) (i : Nat) : Option Bool := match scans.take d with
  | [] => none
  | x :: r => if d ≤ r.length + 1 && r.all (fun y => bit y i == bit x i) then some (bit x i) else none

/-- The debounced inputs after a good scan. -/
def debounced (d : Nat) (scans : List Nat) (old : Nat) : Nat :=
  (List.range 256).foldl (fun v i => match debounce d scans i with
    | some b => putBit v i b
    | none => v) old

/-- A scan that reads its fixed inputs rightly: 254 low, 255 high (R266). -/
def scanGood (raw : Nat) : Bool := !bit raw 254 && bit raw 255

/-- The next side-band scan releases the PHY resets of the ports in bring-up (R234 step 2). -/
def phyRelease (s : State) : State :=
  each (s.eth.ports.filter fun p => p.2.step == 1) (fun p s =>
    sbsWrite .phy (cfgN C.ethPort p.1 0x20 2 s) true { s with eth := { s.eth with ports := tput s.eth.ports p.1 { p.2 with step := 2 } } }) s

/-- SBS_INPUT_SCAN (R265, R266, R275). -/
def execSbsInputScan (bits : BitVec 256) (s : State) : Res :=
  .next (if !sbsRuns s then s else
  let raw := bits.toNat
  let s := phyRelease s
  let s := incWrap F.FLD_SBS_STAT_SCANS s
  if scanGood raw then
    let scans := ((raw ^^^ sbsMap 0x30 s) :: s.sbs.scans).take 8
    let v := debounced (max 1 (cfgN C.sbs 0 2 1 s)) scans s.sbs.ins
    let diff := (List.range 256).filter fun i => bit v i != bit s.sbs.ins i
    let s := { s with sbs := { s.sbs with scans := scans, ins := v, bad := 0, good := min (s.sbs.good + 1) 3 } }
    let s := each (List.range 8) (fun n => wr (F.FLD_SBS_INn_IN.u n) (v / 2 ^ (32 * n))) s
    let s := when (s.sbs.good == 3) (wrB F.FLD_SBS_STAT_FAULT false) s
    each diff (fun i => sbsInput i (bit v i)) s
  else
    let third := s.sbs.bad == 2
    let s := inc F.FLD_SBS_STAT_BAD { s with sbs := { s.sbs with good := 0, bad := min (s.sbs.bad + 1) 3 } }
    when third (fun s => s |> wrB F.FLD_SBS_STAT_FAULT true |> record 0x0505 254 1) s)

/-- The SBS section is applied: SBS_CLR_N is released and the outputs take their initial values (R268). -/
def sbsEnable (s : State) : State :=
  if sbsOn s then
    sbsStart (sbsShow { s with sbs := { s.sbs with outs := sbsMap 0x10 s, again := false, busy := false },
                               pwr := { s.pwr with sbsClrN := true } })
  else s

end Sys2Proof.Machine
end

