-- ==== Sys2Proof/Machine/Can.lean ====
section
/-! DEFINITION. CAN channels: transmit slots, error confinement, filters, the guard role and the babbling guard
(07_field_channels.md, R238–R258). -/

namespace Sys2Proof.Machine

/-- Field o of width w of channel record ch (R273). -/
def canN (ch o w : Nat) (s : State) : Nat := cfgN C.canCh ch o w s
/-- The mode of a channel: 0 disabled, 1 CC, 2 FD, 3 XL. -/
def canMode (ch : Nat) (s : State) : Nat := canN ch 0 1 s
/-- A flag of a channel's record. -/
def canFlag (ch n : Nat) (s : State) : Bool := bit (canN ch 1 1 s) n
/-- The run state of a channel. -/
def canCh (ch : Nat) (s : State) : CanCh := tget {} s.can.chans ch
/-- The run state of a channel changed. -/
def canSet (ch : Nat) (x : CanCh) (s : State) : State := { s with can := { s.can with chans := tput s.can.chans ch x } }
/-- STATE of a channel: 0 disabled, 1 integrating, 2 error active, 3 error passive, 4 bus-off, 5 recovering. -/
def canState (ch : Nat) (s : State) : Nat := rd (F.FLD_CANnn_STAT_STATE.u ch) s
/-- Whether a channel takes part on its bus: error active or error passive, with its domain on (R24). -/
def canLive (ch : Nat) (s : State) : Bool := (canState ch s == 2 || canState ch s == 3) && domRuns .fld s
/-- Whether a channel may drive its bus (R41, R242, R269, R270): it takes part, is not in listen-only mode, which STANDBY
gives every channel, is not put to sleep, and its output is not held fail-silent. -/
def canDrives (ch : Nat) (s : State) : Bool :=
  canLive ch s && !canFlag ch 4 s && decide (s.pwr.mode ≤ 1) && !(tget {} s.can.chans ch).asleep && !silent .fld s
/-- A mode 3 channel with error signalling disabled (R248). -/
def canNosig (ch : Nat) (s : State) : Bool := canFlag ch 2 s && decide (canMode ch s = 3)
/-- Whether a channel's mode knows a frame's format; otherwise it is a protocol exception (R238). -/
def canKnows (ch : Nat) (f : CanFrame) (s : State) : Bool := match f.fmt with
  | .cc => true
  | .fd => decide (2 ≤ canMode ch s)
  | .xl => decide (canMode ch s = 3)
/-- The entries of a channel of a kind (0 filter, 1 guard): identifier and mask (R273). -/
def canEntries (ch kind : Nat) (s : State) : List (Nat × Nat) :=
  ((cfgIdx C.canEnt s).filter fun i => cfgN C.canEnt i 0 1 s == ch && cfgN C.canEnt i 1 1 s == kind).map fun i =>
    (cfgN C.canEnt i 4 4 s, cfgN C.canEnt i 8 4 s)
/-- The identifier word of R240 without RTR: identifier and IDE. -/
def idWord (f : CanFrame) : Nat := f.id + 2 ^ 29 * b2n f.ide
/-- Whether an entry admits an identifier word: the identifier and the IDE bit under the mask (R241, R249). -/
def entMatch (id : Nat) (e : Nat × Nat) : Bool :=
  let m := e.2 % 2 ^ 30
  (id % 2 ^ 30 &&& m) == (e.1 % 2 ^ 30 &&& m)
/-- Whether the guard entries of a channel name an identifier (R249). -/
def canGuarded (ch : Nat) (f : CanFrame) (s : State) : Bool :=
  canFlag ch 0 s && (canEntries ch 1 s).any (entMatch (idWord f))

/-! ### Error counters (R242) -/

/-- The counters, and the state they give, in the registers. -/
def canShow (ch : Nat) (s : State) : State :=
  let c := canCh ch s
  s |> wr (F.FLD_CANnn_STAT_TEC.u ch) (min c.tec 511) |> wr (F.FLD_CANnn_STAT_REC.u ch) (min c.rec_ 255)

/-- Enter bus-off (R242). -/
def canBusOff (ch : Nat) (s : State) : State :=
  s |> wr (F.FLD_CANnn_STAT_STATE.u ch) 4 |> inc (F.FLD_CANnn_ERR_BUSOFF.u ch) |> record 0x0500 ch 0
    |> when (canFlag ch 3 s) (each (List.range 4) fun k => deviceFlush (256 + 4 * ch + k))

/-- The state that the counters give (R242). -/
def canEval (ch : Nat) (s : State) : State :=
  let c := canCh ch s
  let s := canShow ch s
  if canLive ch s then
    if 255 < c.tec then canBusOff ch s
    else wr (F.FLD_CANnn_STAT_STATE.u ch) (if 127 < c.tec || 127 < c.rec_ then 3 else 2) s
  else s

/-- A frame received without error lowers the receive counter; above 127 ISO 11898-1 sets it to a value from 119 to 127,
which is free here (R242). -/
def canRecOk (ch : Nat) (s : State) : State :=
  let c := canCh ch s
  if 127 < c.rec_ then
    let (v, s) := fresh s
    canEval ch (canSet ch { c with rec_ := 119 + v % 9 } s)
  else canEval ch (canSet ch { c with rec_ := c.rec_ - 1 } s)

/-! ### Transmit slot (R243–R246) -/

/-- The queues of a channel, highest rank first (R243). -/
def canQueues (ch : Nat) (s : State) : List Nat :=
  ((List.range 128).map (816 + ·)).filter (fun q => qEnabled q s && qTarget q s == (1, ch))
    ++ [3, 2, 1, 0].map fun k => 256 + 4 * ch + k

/-- Whether queue q offers its head frame: linked, its tail written, and for a stipple-reserved queue released. -/
def canOffers (q : Nat) (s : State) : Bool := match (qu q s).ents with
  | [] => false
  | e :: _ => !(fr e.fid s).inProg && headReleased q s

/-- The first queue that offers a frame. -/
def canBest (ch : Nat) (s : State) : Option Nat := (canQueues ch s).find? (canOffers · s)

/-- Whether a channel can send a frame (R246). -/
def canSendable (ch : Nat) (b : List Byte) (s : State) : Bool :=
  let n := leAt b 6 2
  match byteAt b 4 with
  | 0 => decide (n ≤ 8)
  | 1 => decide (2 ≤ canMode ch s) && decide (n ≤ 64)
  | 2 => decide (canMode ch s = 3) && decide (0 < n) && decide (n ≤ 2048)
  | _ => false

/-- A channel with an empty slot. -/
def CanCh.noSlot (c : CanCh) : CanCh := { c with slot := none, sof := false, trying := false, tries := 0, gone := false }

/-- The slot's frame leaves the slot: sent, dropped or flushed. -/
def canEmpty (ch : Nat) (s : State) : State :=
  let c := canCh ch s
  match c.slot with
  | none => s
  | some x =>
    let p := (fr x.2 s).pdu
    pduLeft p (releaseFrame x.2 (readStop (· == .can ch) (canSet ch c.noSlot s)))

/-- The slot's frame returns to the head of its queue (R243). -/
def canReturn (ch : Nat) (s : State) : State :=
  let c := canCh ch s
  match c.slot with
  | none => s
  | some (q, f) =>
    let Q := qu q s
    let x := fr f s
    readStop (· == .can ch) (canSet ch c.noSlot s)
      |> quSet q { Q with ents := { fid := f, rel := isRsvQueue q } :: Q.ents, cells := Q.cells + x.need }
      |> frSet f { x with held := x.held - 1 }

/-- The head frame of queue q enters the empty slot, or is dropped there (R246). -/
def canTake (ch q : Nat) (s : State) : State := match popHead q s with
  | (none, s) => s
  | (some e, s) =>
    let b := (fr e.fid s).data
    if canSendable ch b s then
      readAsk (.can ch) q e.fid 0 (fr e.fid s).need (canSet ch { (canCh ch s).noSlot with slot := some (q, e.fid) } s)
    else
      let p := (fr e.fid s).pdu
      pduLeft p (releaseFrame e.fid s) |> inc (F.FLD_CANnn_ERR_RETRY_DROP.u ch) |> record 0x0506 ch (leAt b 0 4 % 2 ^ 29)

/-- Fill the slot of a channel (R243), at most n frames deep. -/
def canFillN (ch : Nat) : Nat → State → State
  | 0, s => s
  | n + 1, s => match canBest ch s with
    | none => s
    | some q => match (canCh ch s).slot with
      | none => canFillN ch n (canTake ch q s)
      | some x =>
        if !(canCh ch s).sof && !(canCh ch s).gone && decide ((canQueues ch s).idxOf q < (canQueues ch s).idxOf x.1) then
          canFillN ch n (canTake ch q (canReturn ch s))
        else s

/-- Fill the slot of a channel (R243). -/
def canFill (ch : Nat) (s : State) : State :=
  if canMode ch s = 0 then s
  else canFillN ch (1 + ((canQueues ch s).map fun q => (qu q s).ents.length).sum) s

/-- The DLC lengths of an FD frame (R246). -/
def fdLen (n : Nat) : Nat := ([8, 12, 16, 20, 24, 32, 48, 64].find? fun k => decide (n ≤ k)).getD 64

/-- The frame as sent: RRS is 0 on FD and XL frames (R240), an FD frame carries ESI while the channel is error passive and
is padded to the next coded length with the channel's padding byte (R246). -/
def canOnBus (ch : Nat) (b : List Byte) (s : State) : CanFrame :=
  let f := canOfBytes b
  match f.fmt with
  | .cc => f
  | .xl => { f with rtr := false }
  | .fd => { f with rtr := false, esi := canState ch s == 3,
                    data := if f.data.length ≤ 8 then f.data else
                      f.data ++ List.replicate (fdLen f.data.length - f.data.length) (BitVec.ofNat 8 (canN ch 0x0F 1 s)) }

/-- An attempt to send the slot's frame begins with its SOF (R243); the instance it carries has then started (R292). -/
def canStart (ch : Nat) (s : State) : State :=
  let c := canCh ch s
  match c.slot with
  | none => s
  | some x => when (!c.sof) (pduLeft (fr x.2 s).pdu) (canSet ch { c with sof := true, trying := true } s)

/-- The slot's frame completes on the bus (R242, R243). -/
def canSentAll (ch : Nat) (f : Nat) (s : State) : State :=
  let c := canCh ch s
  emit (.can ch (canOnBus ch (fr f s).data s)) s |> incWrap (F.FLD_CANnn_TX_COUNT.u ch)
    |> when (!canNosig ch s) (fun s => canEval ch (canSet ch { c with tec := c.tec - 1 } s)) |> canEmpty ch |> canFill ch

/-- CAN_FRAME_SENT (R243, R245): the SOF of the slot's frame, or the frame, has gone out on the bus. An SOF wins over a
flush of its tick; a frame that was flushed with no attempt running is not sent, and one whose cells FN7 has not all read
(R323) cannot have completed. -/
def execCanFrameSent (w : CanTx) (s : State) : Res :=
  let ch := w.ch
  .next (match (canCh ch s).slot with
    | none => s
    | some x =>
      if !canDrives ch s then s
      else match w.part with
        | .sof => canStart ch s
        | .all =>
          if reading (.can ch) s || ((canCh ch s).gone && !(canCh ch s).trying) then s
          else canSentAll ch x.2 (canStart ch s))

/-- The attempt of the slot's frame has ended without success: the frame keeps the slot, but a flushed one is not retried
(R243–R245). -/
def canAttemptOver (ch : Nat) (s : State) : State :=
  let s := canStart ch s
  if (canCh ch s).gone then canFill ch (canEmpty ch s) else canSet ch { canCh ch s with trying := false } s

/-- ARBITRATION_LOST (R244): the frame keeps the slot; lost arbitration is no attempt. A flushed frame is not retried. -/
def execArbitrationLost (ch : Fin 96) (s : State) : Res :=
  .next (when ((canCh ch s).slot.isSome && canDrives ch s) (canAttemptOver ch) s)

/-- A frame that was flushed with no attempt running leaves the slot once the tick of the flush is over (R245). -/
def canSettle (ch : Nat) (s : State) : State :=
  let c := canCh ch s
  when (c.slot.isSome && c.gone && !c.trying && decide (c.flushAt < s.time.loc)) (fun s => canFill ch (canEmpty ch s)) s

/-- An attempt to send ends in an error (R244, R245). -/
def canAttempt (ch : Nat) (s : State) : State := match (canCh ch s).slot with
  | none => s
  | some _ =>
    let s := canStart ch s
    let c := canCh ch s
    let lim := canN ch 0x10 1 s
    if c.gone then canFill ch (canEmpty ch s)
    else if lim ≠ 0 ∧ lim ≤ c.tries + 1 then canFill ch (canEmpty ch (inc (F.FLD_CANnn_ERR_RETRY_DROP.u ch) s))
    else canSet ch { c with trying := false, tries := c.tries + 1 } s

/-- A collision with a counterfeit frame of the slot's guarded identifier (R254). -/
def canCollide (ch : Nat) (s : State) : State := match (canCh ch s).slot with
  | none => s
  | some x =>
    let f := canOfBytes (fr x.2 s).data
    when (canGuarded ch f s) (fun s => inc (F.FLD_CANnn_GUARD_COLLIDE.u ch) s |> record 0x0503 ch f.id) s

/-- What an error adds to the transmit and the receive counter (R242), and whether it ends an attempt to send (R244). -/
def canErrWeight : CanErr → Nat × Nat × Bool
  | .rx => (0, 1, false)
  | .rxDominantAfterFlag => (0, 8, false)
  | .txDominantAfterFlag => (8, 0, false)
  | .txNoCounter => (0, 0, true)
  | .tx | .collide => (8, 0, true)

/-- The counters after an error. With error signalling disabled they stay, and the channel goes back to integration
(R248; ISO 11898-1:2024, PRESUMED). -/
def canCount (ch a b : Nat) (s : State) : State :=
  let c := canCh ch s
  if canNosig ch s then wr (F.FLD_CANnn_STAT_STATE.u ch) 1 s
  else canEval ch (canSet ch { c with tec := c.tec + a, rec_ := c.rec_ + b } s)

/-- CAN_ERROR (R242, R244, R248, R254): the counters by ISO 11898-1; a transmitter's error ends its attempt. -/
def execCanError (ch : Fin 96) (k : CanErr) (s : State) : Res :=
  let (a, b, att) := canErrWeight k
  .next (if canLive ch s && (!att || canDrives ch s) then
    inc (F.FLD_CANnn_ERR_ERRORS.u ch) s |> when (k == .collide) (canCollide ch) |> when att (canStart ch) |> canCount ch a b
      |> when att (canAttempt ch)
  else s)

/-- BUS_OFF_RECOVERY_DELAY (R242): counting of recessive runs begins. -/
def execBusOffRecoveryDelay (ch : Fin 96) (s : State) : Res :=
  .next (when (canState ch s == 4 && domRuns .fld s) (wr (F.FLD_CANnn_STAT_STATE.u ch) 5) s)

/-- BUS_OFF_RECOVERY (R242): the counters return to 0 and the channel integrates. -/
def execBusOffRecovery (ch : Fin 96) (s : State) : Res :=
  .next (when (canState ch s == 5 && domRuns .fld s) (fun s =>
    canSet ch { canCh ch s with tec := 0, rec_ := 0 } s |> wr (F.FLD_CANnn_STAT_STATE.u ch) 1 |> canShow ch) s)

/-- INTEGRATION (R242): the channel may send and receive; frames missed in bus-off are counted (R251). -/
def execIntegration (ch : Fin 96) (s : State) : Res :=
  .next (when (canState ch s == 1 && domRuns .fld s) (fun s =>
    let n := (canCh ch s).missed
    canSet ch { canCh ch s with missed := 0 } s |> wr (F.FLD_CANnn_STAT_STATE.u ch) 2
      |> incBy (F.FLD_CANnn_GUARD_MISSED.u ch) n |> canEval ch |> canFill ch) s)

/-! ### Guard role (R249–R255) -/

/-- Whether a frame of another node is one that a channel's guard cancels on a bus it may drive (R249, R253). -/
def canForbids (ch : Nat) (f : CanFrame) (s : State) : Bool :=
  canGuarded ch f s && canKnows ch f s && !canNosig ch s && !canFlag ch 4 s && decide (s.pwr.mode ≤ 1)

/-- Whether the channel itself is sending a frame with the identifier of f: it has then sent f's arbitration field too
(R249, R254). -/
def canOwnField (ch : Nat) (f : CanFrame) (s : State) : Bool := match (canCh ch s).slot with
  | none => false
  | some x => (canCh ch s).trying && idWord (canOfBytes (fr x.2 s).data) == idWord f

/-- Whether a channel cancels a frame of another node (R249, R253). -/
def canCancels (ch : Nat) (f : CanFrame) (s : State) : Bool :=
  canForbids ch f s && canDrives ch s && !canOwnField ch f s

/-- A frame that could exist on a CAN bus (R238, R240). -/
def canFrameOk (f : CanFrame) : Bool :=
  decide (f.id < if f.ide then 2 ^ 29 else 2 ^ 11) && decide (f.sdt < 256) && decide (f.vcid < 256) && decide (f.af < 2 ^ 32)
    && match f.fmt with
    | .cc => decide (f.data.length ≤ 8)
    | .fd => decide (f.data.length ≤ 8) || [12, 16, 20, 24, 32, 48, 64].contains f.data.length
    | .xl => decide (0 < f.data.length) && decide (f.data.length ≤ 2048)

/-- CANCELLATION (R250, R251, R255): the frame is destroyed; in bus-off it is missed. -/
def execCancellation (ch : Fin 96) (f : CanFrame) (s : State) : Res :=
  guardWf (canFrameOk f) "CAN frame" (.next (if canCancels ch f s then
    let s := emit (.cancel ch) s |> inc (F.FLD_CANnn_GUARD_CANCEL.u ch)
      |> canSet ch { canCh ch s with cancelEnd := releaseAt (canN ch 0x22 2 s) s }
    if rdB (F.FLD_CANnn_STAT_CANCELLING.u ch) s then s
    else wrB (F.FLD_CANnn_STAT_CANCELLING.u ch) true s |> record 0x0501 ch 1
  else if canForbids ch f s && domRuns .fld s && (canState ch s == 4 || canState ch s == 5) then
    canSet ch { canCh ch s with missed := (canCh ch s).missed + 1 } s
  else s))

/-- CANCEL_RELEASE (R255): the release timer, restarted by the latest cancellation, has run out. -/
def execCancelRelease (ch : Fin 96) (s : State) : Res :=
  .next (when (rdB (F.FLD_CANnn_STAT_CANCELLING.u ch) s && domRuns .fld s && decide ((canCh ch s).cancelEnd ≤ s.time.loc)) (fun s =>
    wrB (F.FLD_CANnn_STAT_CANCELLING.u ch) false s |> record 0x0501 ch 0) s)

/-! ### Receiving (R241, R253, R257) -/

/-- Whether a frame is a proof beacon of the beacon channel mask (R257, R461). -/
def canIsBeacon (ch : Nat) (f : CanFrame) (s : State) : Bool :=
  bit (cfgN C.almHdr 0 0x18 12 s) ch && cfgN C.almHdr 0 0x14 4 s % 2 ^ 30 == idWord f

/-- A frame received without error on a channel that listens (R241, R253, R256, R257); `ago` is the time since the sample
point of its SOF [ns]. -/
def canReceive (ch : Nat) (f : CanFrame) (ago : Nat) (s : State) : State :=
  let s := when (!canNosig ch s) (canRecOk ch) s
  let s := canSet ch { canCh ch s with win := (canCh ch s).win + 1 } s
  let filt := canEntries ch 0 s
  if canGuarded ch f s && (canNosig ch s || f.fmt == .xl) then
    inc (F.FLD_CANnn_GUARD_XL_DROP.u ch) s |> record 0x0502 ch f.id
  else if !filt.isEmpty && !filt.any (entMatch (idWord f)) then inc (F.FLD_CANnn_DROP_FILTERED.u ch) s
  else if rdB (F.FLD_CANnn_STAT_CONTAINED.u ch) s && !canIsBeacon ch f s then inc (F.FLD_CANnn_BABBLE_DROPPED.u ch) s
  else match fifoPut ch (canBytes f) (s.time.loc - ago) s with
    | (true, s) => incWrap (F.FLD_CANnn_RX_COUNT.u ch) s
    | (false, s) => inc (F.FLD_CANnn_DROP_OVERFLOW.u ch) s

/-! ### Selective wake (R270) -/

/-- The DLC of a frame (R270). -/
def canDlc (f : CanFrame) : Nat :=
  if f.data.length ≤ 8 then f.data.length else 9 + [12, 16, 20, 24, 32, 48, 64].idxOf f.data.length

/-- Whether decoder i matches a frame on a channel (R270). -/
def decMatch (ch : Nat) (f : CanFrame) (i : Nat) (s : State) : Bool :=
  let r := cfgRec C.canDec i s
  let fl := byteAt r 1
  let m := leAt r 8 4 % 2 ^ 29
  byteAt r 0 == ch && (f.id &&& m) == (leAt r 4 4 % 2 ^ 29 &&& m) && bit fl 0 == f.ide
    && (match f.fmt with | .cc => true | .fd => bit fl 1 | .xl => false)
    && (byteAt r 2 == 0xFF || byteAt r 2 == canDlc f)
    && (List.range 8).all fun k => byteAt f.data k &&& byteAt r (24 + k) == byteAt r (16 + k) &&& byteAt r (24 + k)

/-- The decoders that match. -/
def decFind (ch : Nat) (f : CanFrame) (s : State) : List Nat := (cfgIdx C.canDec s).filter (decMatch ch f · s)

/-! ### Babbling guard (R256–R258) -/

/-- BABBLE_WINDOW on a CAN channel with the bus load of the window [0.1 %]: a violation contains the channel, or restarts
its release timer. -/
def canBabble (ch load : Nat) (s : State) : State :=
  let c := canCh ch s
  let lim := canN ch 0x1C 2 s
  if lim = 0 ∨ canMode ch s = 0 ∨ !domRuns .fld s then s else
  let s := canSet ch { c with win := 0 } s |> wr (F.FLD_CANnn_LOAD_FRAMES.u ch) (min c.win 65535)
    |> wr (F.FLD_CANnn_LOAD_LOAD.u ch) (min load 1000)
  if !decide (lim < c.win ∨ canN ch 0x1E 2 s < load) then s else
  let s := canSet ch { canCh ch s with babbleEnd := releaseAt (canN ch 0x20 2 s) s } s
  if !rdB (F.FLD_CANnn_STAT_CONTAINED.u ch) s then
    wrB (F.FLD_CANnn_STAT_CONTAINED.u ch) true s |> inc (F.FLD_CANnn_BABBLE_CONTAINS.u ch) |> record 0x0504 ch 1
      |> when (canFlag ch 6 s) (each (List.range 4) fun k => deviceFlush (256 + 4 * ch + k))
  else s

/-- The release timer of a contained CAN channel, restarted by the latest violation, has run out (R257, R258). -/
def canBabbleRelease (ch : Nat) (s : State) : State :=
  when (rdB (F.FLD_CANnn_STAT_CONTAINED.u ch) s && domRuns .fld s && decide ((canCh ch s).babbleEnd ≤ s.time.loc)) (fun s =>
    wrB (F.FLD_CANnn_STAT_CONTAINED.u ch) false s |> record 0x0504 ch 0) s

/-! ### Enabling (R242, R269) -/

/-- The transceiver's mode output of a CAN channel (R269). -/
def canXcvr (ch : Nat) (normal : Bool) (s : State) : State := sbsWrite .transceiver (canN ch 0x16 2 s) normal s

/-- A channel is enabled: it integrates, with its transceiver in normal mode; a disabled one's is in standby (R242,
R269). -/
def canEnable (ch : Nat) (s : State) : State :=
  if canMode ch s = 0 then when (cfgHas C.canCh ch s) (canXcvr ch false) s
  else canXcvr ch true (wr (F.FLD_CANnn_STAT_STATE.u ch) 1 (canSet ch {} s))

end Sys2Proof.Machine
end

