-- ==== Sys2Proof/Machine/Lin.lean ====
section
/-! DEFINITION. LIN channels: schedule tables, response buffers and the babbling guard (07_field_channels.md, R256–R264,
R271). -/

namespace Sys2Proof.Machine

/-- Field o of width w of LIN channel record ch (R274). -/
def linN (ch o w : Nat) (s : State) : Nat := cfgN C.linCh ch o w s
/-- The mode of a LIN channel: 0 disabled, 1 commander, 2 responder. -/
def linMode (ch : Nat) (s : State) : Nat := linN ch 0 1 s
/-- The run state of a LIN channel. -/
def linCh (ch : Nat) (s : State) : LinCh := tget {} s.lin.chans ch
/-- The run state changed. -/
def linSet (ch : Nat) (x : LinCh) (s : State) : State := { s with lin := { s.lin with chans := tput s.lin.chans ch x } }
/-- What a channel does with an ID: 0 ignore, 1 publish, 2 subscribe (R274). -/
def linId (ch id : Nat) (s : State) : Nat := linN ch (0x20 + id) 1 s % 4
/-- The slot entries of a schedule table, in order (R274). -/
def linTable (ch t : Nat) (s : State) : List (List Byte) :=
  ((cfgIdx C.linSlot s).filter fun i => cfgN C.linSlot i 0 1 s == ch && cfgN C.linSlot i 1 1 s == t).map (cfgRec C.linSlot · s)

/-- Write a frame into the response buffer entry of its ID (R260). -/
def linStore (ch : Nat) (b : List Byte) (s : State) : State :=
  let c := linCh ch s
  linSet ch { c with buf := tput c.buf (leAt b 0 4 % 64) (slice b 16 (min 8 (leAt b 6 2))) } s

/-- FN7 reads the cells of a frame that a channel has popped; the channel holds it until they are read (R131, R323). -/
def linRead (ch q f : Nat) (s : State) : State := readAsk (.lin ch) q f 0 (fr f s).need s

/-- Pop every frame of a channel's queue into the response buffer (R260). -/
def linPopAll (ch : Nat) : Nat → State → State
  | 0, s => s
  | n + 1, s => match popHead (640 + ch) s with
    | (none, s) => s
    | (some e, s) =>
      let p := (fr e.fid s).pdu
      linPopAll ch n (pduLeft p (linRead ch (640 + ch) e.fid (linStore ch (fr e.fid s).data s)))

/-- A published response on the bus (R260); the go-to-sleep command puts the channel to sleep (R259). -/
def linPublish (ch id : Nat) (d : List Byte) (s : State) : State :=
  incWrap (F.FLD_LINnn_FRAMES_COUNT.u ch) (transmit .fld (.lin ch id d) s)
    |> when (id == 0x3C && byteAt d 0 == 0) (wrB (F.FLD_LINnn_STAT_ASLEEP.u ch) true)

/-- The header of an ID is on the bus since local time t: the channel publishes its entry, awaits a response, or ignores it
(R260, R263). -/
def linHead (ch id t : Nat) (et commander : Bool) (s : State) : State :=
  let wait (own : Bool) (s : State) : State := linSet ch { linCh ch s with head := some ⟨id, et, t, own⟩ } s
  match linId ch id s with
  | 1 =>
    let s := linPopAll ch (qu (640 + ch) s).ents.length s
    match tfind (linCh ch s).buf id with
    | none => inc (F.FLD_LINnn_ERR_NORESP.u ch) (when commander (transmit .fld (.lin ch id [])) s)
    | some d => wait true (linPublish ch id d s)
  | 2 => wait false (when commander (transmit .fld (.lin ch id [])) s)
  | _ => when commander (transmit .fld (.lin ch id [])) s

/-- The go-to-sleep command (R259): diagnostic frame 0x3C with first byte 0. -/
def linGoToSleep (ch : Nat) (s : State) : State :=
  transmit .fld (.lin ch 0x3C (ofNats [0, 255, 255, 255, 255, 255, 255, 255])) s |> wrB (F.FLD_LINnn_STAT_ASLEEP.u ch) true
    |> incWrap (F.FLD_LINnn_FRAMES_COUNT.u ch)

/-- The stipple-reserved queue that has released a frame to a LIN channel, if any (R261). -/
def linReleased (ch : Nat) (s : State) : Option Nat :=
  ((List.range 128).map (816 + ·)).find? fun q =>
    qEnabled q s && qTarget q s == (2, ch) && headReleased q s

/-- The next slot of a commander: a requested table, a collision resolution table, the return from one, or the cyclic
successor (R261, R262). -/
def linNext (ch : Nat) (s : State) : (Nat × Nat) × LinCh :=
  let c := linCh ch s
  let t := rd (F.FLD_LINnn_STAT_TABLE.u ch) s
  let k := rd (F.FLD_LINnn_STAT_SLOT.u ch) s
  let n := (linTable ch t s).length
  match c.next, c.coll with
  | some u, _ => ((u, 0), { c with next := none, coll := none, back := none })
  | none, some u => ((u, 0), { c with coll := none, back := some (t, k) })
  | none, none =>
    if !c.started then ((t, 0), c)
    else match c.back with
      | some (bt, bk) =>
        if n ≤ k + 1 then ((bt, if (linTable ch bt s).length ≤ bk + 1 then 0 else bk + 1), { c with back := none }) else ((t, k + 1), c)
      | none => ((t, if n ≤ k + 1 then 0 else k + 1), c)

/-- LIN_SLOT (R261): an extra slot for a released frame, or the next slot of the schedule. -/
def execLinSlot (ch : Fin 32) (s : State) : Res :=
  .next (if linMode ch s ≠ 1 ∨ !domRuns .fld s ∨ rdB (F.FLD_LINnn_STAT_ASLEEP.u ch) s ∨ s.time.loc < (linCh ch s).quiet then s
  else
  let s := linSet ch { linCh ch s with head := none, extraRun := false } s
  match linReleased ch s with
  | some q => match popHead q s with
    | (none, s) => s
    | (some e, s) =>
      let b := (fr e.fid s).data
      let p := (fr e.fid s).pdu
      linSet ch { linCh ch s with extraRun := true } s |> transmit .fld (.lin ch (leAt b 0 4 % 64) (slice b 16 (min 8 (leAt b 6 2))))
        |> incWrap (F.FLD_LINnn_FRAMES_COUNT.u ch) |> linRead ch q e.fid |> pduLeft p
  | none =>
    let ((t, k), c) := linNext ch s
    let s := linSet ch { c with started := true } s |> wr (F.FLD_LINnn_STAT_TABLE.u ch) t |> wr (F.FLD_LINnn_STAT_SLOT.u ch) k
    match (linTable ch t s)[k]? with
    | none => s
    | some e => match byteAt e 2 with
      | 0 => linHead ch (byteAt e 3 % 64) s.time.loc false true s
      | 1 => linHead ch (byteAt e 3 % 64) s.time.loc true true s
      | 2 => linHead ch 0x3C s.time.loc false true s
      | 3 => linHead ch 0x3D s.time.loc false true s
      | _ => linGoToSleep ch s)

/-- SCHEDULE_SWITCH (R261): it takes effect at the end of the running slot. -/
def execScheduleSwitch (ch : Fin 32) (table : Fin 16) (s : State) : Res :=
  .next (when (linMode ch s == 1 && domRuns .fld s) (linSet ch { linCh ch s with next := some table.val }) s)

/-- LIN_HEADER (R263): a responder hears a header. -/
def execLinHeader (ch : Fin 32) (h : LinHdr) (s : State) : Res :=
  .next (when (linMode ch s == 2 && domRuns .fld s) (fun s =>
    linHead ch h.id (s.time.loc - h.ago) false false (wrB (F.FLD_LINnn_STAT_ASLEEP.u ch) false (linSet ch { linCh ch s with head := none } s))) s)

/-- A response received without error, whose header's break field began at local time t (R257, R263). -/
def linReceive (ch id t : Nat) (d : List Byte) (s : State) : State :=
  let s := linSet ch { linCh ch s with win := (linCh ch s).win + 1 } s
  let s := when (id == 0x3C && byteAt d 0 == 0) (wrB (F.FLD_LINnn_STAT_ASLEEP.u ch) true) s
  if rdB (F.FLD_LINnn_STAT_CONTAINED.u ch) s then inc (F.FLD_LINnn_BABBLE_DROPPED.u ch) s
  else incWrap (F.FLD_LINnn_FRAMES_COUNT.u ch) (fifoPut (96 + ch) (linBytes id d) t s).2

/-- LIN_RESPONSE (R262, R263): the outcome of the response slot. A channel that publishes the response itself can only
find a bit error in it. -/
def execLinResponse (ch : Fin 32) (r : LinResp) (s : State) : Res :=
  guardWf (match r with | .data b => decide (0 < b.length) && decide (b.length ≤ 8) | _ => true) "LIN response"
    (.next (match (linCh ch s).head with
    | none => s
    | some h =>
      let s := linSet ch { linCh ch s with head := none } s
      if !domRuns .fld s then s
      else if h.own then when (r == .framing) (inc (F.FLD_LINnn_ERR_FRAMING.u ch)) s
      else match r with
      | .data b => linReceive ch h.id h.at_ b s
      | .checksum => inc (F.FLD_LINnn_ERR_CHECKSUM.u ch) s
      | .framing => inc (F.FLD_LINnn_ERR_FRAMING.u ch) s
      | .none => inc (F.FLD_LINnn_ERR_NORESP.u ch) s
      | .collision =>
        if h.et then
          let t := rd (F.FLD_LINnn_STAT_TABLE.u ch) s
          let e := ((linTable ch t s)[rd (F.FLD_LINnn_STAT_SLOT.u ch) s]?).getD []
          linSet ch { linCh ch s with coll := some (byteAt e 6) } (inc (F.FLD_LINnn_ERR_COLLISION.u ch) s)
        else inc (F.FLD_LINnn_ERR_FRAMING.u ch) s))

/-- A frame released by a stipple to a LIN channel: a commander keeps it for its extra slot, a responder puts it into its
response buffer; the answer is false when the frame is discarded (R261, R264). -/
def linRelease (ch q : Nat) (s : State) : Bool × State :=
  if linMode ch s = 2 then match popHead q s with
    | (none, s) => (false, s)
    | (some e, s) =>
      let b := (fr e.fid s).data
      let ok := linId ch (leAt b 0 4 % 64) s == 1
      let p := (fr e.fid s).pdu
      (ok, pduLeft p (if ok then linRead ch q e.fid (linStore ch b s) else releaseFrame e.fid s))
  else (true, s)

/-- The end of a babble window of a LIN channel (R256, R257). -/
def linBabble (ch : Nat) (s : State) : State :=
  let c := linCh ch s
  let lim := linN ch 0x0C 2 s
  if lim = 0 ∨ linMode ch s = 0 ∨ !domRuns .fld s then s
  else if !decide (lim < c.win) then linSet ch { c with win := 0 } s
  else
  let s := linSet ch { c with win := 0, babbleEnd := releaseAt (linN ch 0x0E 2 s) s } s
  if !rdB (F.FLD_LINnn_STAT_CONTAINED.u ch) s then
    wrB (F.FLD_LINnn_STAT_CONTAINED.u ch) true s |> inc (F.FLD_LINnn_BABBLE_CONTAINS.u ch) |> record 0x0504 (0x100 + ch) 1
      |> when (bit (linN ch 1 1 s) 2) (deviceFlush (640 + ch))
  else s

/-- BABBLE_WINDOW (R256–R258). -/
def execBabbleWindow (ch : FieldCh) (load : Nat) (s : State) : Res := .next (match ch with
  | .can n => canBabble n load s
  | .lin n => linBabble n s)

/-- BABBLE_RELEASE (R257, R258). -/
def execBabbleRelease (ch : FieldCh) (s : State) : Res := .next (match ch with
  | .can n => canBabbleRelease n s
  | .lin n => when (rdB (F.FLD_LINnn_STAT_CONTAINED.u n) s && domRuns .fld s && decide ((linCh n s).babbleEnd ≤ s.time.loc)) (fun s =>
      wrB (F.FLD_LINnn_STAT_CONTAINED.u n) false s |> record 0x0504 (0x100 + n) 0) s)

/-- The transceiver's mode output of a LIN channel (R269). -/
def linXcvr (ch : Nat) (normal : Bool) (s : State) : State := sbsWrite .transceiver (linN ch 6 2 s) normal s

/-- A channel is enabled, with its transceiver in normal mode; a disabled one's is in standby (R259, R269). -/
def linEnable (ch : Nat) (s : State) : State :=
  if linMode ch s = 0 then when (cfgHas C.linCh ch s) (linXcvr ch false) s
  else linXcvr ch true (linSet ch {} s |> wr (F.FLD_LINnn_STAT_MODE.u ch) (linMode ch s)
    |> wr (F.FLD_LINnn_STAT_TABLE.u ch) (linN ch 4 1 s))

/-- The wake-up signal of a broadcast, 1 ms dominant; a commander then waits 100 ms before its first header (R271). -/
def linWakeUp (ch : Nat) (s : State) : State :=
  if bit (linN ch 1 1 s) 1 ∧ linMode ch s ≠ 0 then
    transmit .fld (.line 1 ch []) s |> wrB (F.FLD_LINnn_STAT_ASLEEP.u ch) false
      |> linSet ch { linCh ch s with quiet := s.time.loc + 101000000 }
  else s

end Sys2Proof.Machine
end

