-- ==== Sys2Proof/Machine/T1s.lean ====
section
/-! DEFINITION. 10BASE-T1S segments: PLCA cycles, aligned BEACONs, low power and the wake pattern (R225–R233). -/

namespace Sys2Proof.Machine

/-- Field o of width w of segment record sg (R237). -/
def t1sN (sg o w : Nat) (s : State) : Nat := cfgN C.t1s sg o w s
/-- The mode of a segment: 0 disabled, 1 coordinator, 2 follower, 3 CSMA/CD. -/
def t1sMode (sg : Nat) (s : State) : Nat := t1sN sg 0 1 s
/-- A flag of a segment: 0 STIPPLE_ALIGN, 1 WAKE_TX, 2 WAKE_RX, 3 WAKE_ANY. -/
def t1sFlag (sg n : Nat) (s : State) : Bool := bit (t1sN sg 6 2 s) n
/-- The run state of a segment. -/
def t1sSeg (sg : Nat) (s : State) : T1sSeg := tget {} s.t1s.segs sg
/-- The run state changed. -/
def t1sSet (sg : Nat) (x : T1sSeg) (s : State) : State := { s with t1s := { s.t1s with segs := tput s.t1s.segs sg x } }
/-- The segment is in low-power mode (R230). -/
def t1sLow (sg : Nat) (s : State) : Bool := rdB (F.T1S_SGnn_STAT_LOWPOWER.u sg) s
/-- PLCA is active on the segment (R226). -/
def t1sPlca (sg : Nat) (s : State) : Bool := rdB (F.T1S_SGnn_STAT_PLCA_ACTIVE.u sg) s

/-- The longest possible cycle of a coordinator [ns] (R227). -/
def t1sCmax (sg : Nat) (s : State) : Nat :=
  2000 + t1sN sg 2 1 s * (1 + t1sN sg 4 1 s) * (20 + t1sN sg 8 2 s) * 800

/-- The 48 bits of the wake word for a mask (R231): sync byte, mask, CRC-8. -/
def wakeWord (mask : Nat) : Nat :=
  let b := ofNats [0xB6] ++ beBytes 4 mask
  beNat b * 256 + crc8Wake b

/-- The segment sends its pending wake pattern, 128 µs long (R231, R233). -/
def t1sPattern (sg : Nat) (s : State) : State := match (t1sSeg sg s).wake with
  | none => s
  | some m => t1sSet sg { t1sSeg sg s with wake := none, pat := some (m, s.time.loc + 128000) } s |> transmit .fld (.line 0 sg (beBytes 6 (wakeWord m)))
      |> inc (F.T1S_SGnn_WAKE_TX.u sg)

/-- The wake pattern that is on the medium, if any. -/
def t1sOnAir (sg : Nat) (s : State) : Option Nat := (t1sSeg sg s).pat.bind fun x => if s.time.loc < x.2 then some x.1 else none

/-- Whether a segment runs CSMA/CD: by its mode, or a follower whose PLCA is inactive (R226, R229). -/
def t1sCsma (sg : Nat) (s : State) : Bool := domRuns .fld s && decide (2 ≤ t1sMode sg s) && !t1sLow sg s && !t1sPlca sg s

/-- In CSMA/CD a pending wake pattern defers to a frame of its own and to a back-off, as a frame does (R233). -/
def t1sTry (sg : Nat) (s : State) : State :=
  when (t1sCsma sg s && (tfind s.qm.cur (16 + sg)).isNone && (t1sSeg sg s).backoff.isNone && (t1sOnAir sg s).isNone) (t1sPattern sg) s

/-- A cycle begins with a BEACON (R226, R227); aligned says whether it is the BEACON of a PLCA_BEACON instant. -/
def t1sBegin (sg : Nat) (aligned : Bool) (s : State) : State :=
  t1sSet sg { t1sSeg sg s with cycle := true, opp := 0, burst := 0, align := none, aligned := aligned } s
    |> transmit .fld (.line 3 sg []) |> incWrap (F.T1S_SGnn_PLCA_CYCLES.u sg) |> wrB (F.T1S_SGnn_STAT_HOLD.u sg) false
    |> wrB (F.T1S_SGnn_STAT_PLCA_ACTIVE.u sg) true

/-- A BEACON that may be replaced by a pending wake pattern (R233). -/
def t1sBeacon (sg : Nat) (s : State) : State :=
  if (t1sSeg sg s).wake.isSome then t1sPattern sg (t1sSet sg { t1sSeg sg s with cycle := false } s) else t1sBegin sg false s

/-- The end of a cycle of a coordinator (R227, R228, R233). -/
def t1sCycleEnd (sg : Nat) (s : State) : State :=
  match (t1sSeg sg s).align with
  | some _ => t1sBegin sg true (inc (F.T1S_SGnn_ALIGN_LATE.u sg) s)
  | none =>
    if t1sFlag sg 0 s then match beaconNext sg s with
      | none => t1sBeacon sg s
      | some t =>
        if shortNs s + t1sCmax sg s ≤ t then t1sBeacon sg s
        else wrB (F.T1S_SGnn_STAT_HOLD.u sg) true (t1sSet sg { t1sSeg sg s with cycle := false } s)
    else t1sBeacon sg s

/-- Every transmit opportunity of a coordinator's running cycle has passed (R226). -/
def t1sPassed (sg : Nat) (s : State) : Bool := !(t1sSeg sg s).cycle || decide (t1sN sg 2 1 s ≤ (t1sSeg sg s).opp)

/-- PLCA_CYCLE (R226, R227): a cycle ends when the opportunities of all its nodes have passed. -/
def execPlcaCycle (sg : Fin 16) (s : State) : Res :=
  .next (when (domRuns .fld s && t1sMode sg s == 1 && !t1sLow sg s && !rdB (F.T1S_SGnn_STAT_HOLD.u sg) s && t1sPassed sg s) (t1sCycleEnd sg) s)

/-- A PLCA_BEACON instant meets the segment (R227, R228): a running cycle ends first. -/
def t1sInstant (sg t : Nat) (s : State) : State :=
  if t1sMode sg s ≠ 1 ∨ !t1sFlag sg 0 s ∨ t1sLow sg s then s
  else if (t1sSeg sg s).cycle then t1sSet sg { t1sSeg sg s with align := some t } s
  else inc (F.T1S_SGnn_ALIGN_ALIGNED.u sg) (t1sBegin sg true s)

/-- A transmit opportunity is running: the BEACON has passed, and on a coordinator it is one of its node count; a follower
is not told the count (R226). -/
def t1sOpen (sg : Nat) (s : State) : Bool :=
  domRuns .fld s && t1sPlca sg s && (t1sSeg sg s).cycle && (t1sMode sg s != 1 || decide ((t1sSeg sg s).opp < t1sN sg 2 1 s))

/-- TO_TIMER (R226): an unused opportunity passes to the next node. -/
def execToTimer (sg : Fin 16) (s : State) : Res :=
  let x := t1sSeg sg s
  .next (when (t1sOpen sg s) (t1sSet sg { x with opp := x.opp + 1, burst := 0 }) s)

/-- A frame ends in the running opportunity, this node's or another's: extra frames up to the maximum burst count, then the
next node (R226). -/
def t1sUsed (sg : Nat) (s : State) : State :=
  let x := t1sSeg sg s
  when (t1sOpen sg s) (t1sSet sg (if x.burst < t1sN sg 4 1 s then { x with burst := x.burst + 1, sentAt := s.time.loc }
                                  else { x with opp := x.opp + 1, burst := 0 })) s

/-- BEACON_RECEIVED (R226). -/
def execBeaconReceived (sg : Fin 16) (s : State) : Res :=
  .next (when (domRuns .fld s && t1sMode sg s == 2 && !t1sLow sg s) (fun s =>
    t1sSet sg { t1sSeg sg s with cycle := true, opp := 0, burst := 0 } s |> wrB (F.T1S_SGnn_STAT_PLCA_ACTIVE.u sg) true
      |> incWrap (F.T1S_SGnn_PLCA_CYCLES.u sg)) s)

/-- BEACON_TIMEOUT (R226): the follower falls back to CSMA/CD. -/
def execBeaconTimeout (sg : Fin 16) (s : State) : Res :=
  .next (when (domRuns .fld s && t1sMode sg s == 2 && t1sPlca sg s) (fun s =>
    t1sSet sg { t1sSeg sg s with cycle := false, tries := 0, backoff := none } s
      |> wrB (F.T1S_SGnn_STAT_PLCA_ACTIVE.u sg) false |> inc (F.T1S_SGnn_PLCA_FALLBACK.u sg)) s)

/-- BACKOFF (R229, R233): the frame, or a wake pattern that waits for the medium, is tried again. -/
def execBackoff (sg : Fin 16) (s : State) : Res :=
  .next (when (domRuns .fld s && (t1sSeg sg s).backoff.isSome) (fun s => t1sTry sg (t1sSet sg { t1sSeg sg s with backoff := none } s)) s)

/-- A segment enters low-power mode (R230, R436). -/
def t1sSleep (sg : Nat) (s : State) : State :=
  if t1sMode sg s = 0 then s
  else t1sSet sg { t1sSeg sg s with cycle := false, align := none, backoff := none, tries := 0 } s
    |> wrB (F.T1S_SGnn_STAT_LOWPOWER.u sg) true |> wrB (F.T1S_SGnn_STAT_PLCA_ACTIVE.u sg) false
    |> wrB (F.T1S_SGnn_STAT_HOLD.u sg) false

/-- A wake broadcast for groups w reaches the segment (R233): a coordinator sends the pattern in place of its next BEACON,
a follower with active PLCA sends none, in CSMA/CD it is sent when the medium is free. -/
def t1sWakeTx (sg w : Nat) (s : State) : State :=
  let m := w &&& t1sN sg 0x0C 4 s
  if t1sMode sg s = 0 ∨ !t1sFlag sg 1 s ∨ m = 0 then s
  else
    let s := t1sSet sg { t1sSeg sg s with wake := some (((t1sSeg sg s).wake.getD 0) ||| m), patTries := 0 } s
    if t1sLow sg s ∨ t1sMode sg s = 1 then s
    else if t1sPlca sg s then t1sSet sg { t1sSeg sg s with wake := none } s
    else t1sTry sg s

/-- LOW_POWER_EXIT (R230): a coordinator starts a cycle at once, its PLCA active, or holds the medium silent under R227; a
follower waits for a BEACON. -/
def execLowPowerExit (sg : Fin 16) (s : State) : Res :=
  .next (when (domRuns .fld s && t1sLow sg s) (fun s =>
    let s := wrB (F.T1S_SGnn_STAT_LOWPOWER.u sg) false s
    if t1sMode sg s = 1 then t1sCycleEnd sg (wrB (F.T1S_SGnn_STAT_PLCA_ACTIVE.u sg) true s) else t1sTry sg s) s)

/-- What a wake burst does (R232): the groups it wakes, or none when it is only counted. -/
def wakeGroups (sg : Nat) (p : WakeBurst) (s : State) : Option Nat :=
  let pn := t1sN sg 0x0C 4 s
  let m := match p.word with
    | none => 0
    | some w => if wakeWord (bits w.toNat 8 32) = w.toNat then bits w.toNat 8 32 &&& pn else 0
  if m ≠ 0 then some m else if t1sFlag sg 3 s then some pn else none

/-- A burst that the detector accepts: 20 to 30 µs, then 6 to 10 µs of silence (R232). -/
def burstOk (p : WakeBurst) : Bool :=
  decide (20 ≤ p.burst) && decide (p.burst ≤ 30) && decide (6 ≤ p.silence) && decide (p.silence ≤ 10)

/-- Whether the medium lets the segment send a frame now: its own opportunity, extra frames within the burst timer, or
CSMA/CD without a back-off or a wake pattern on the medium (R226, R229, R233). -/
def t1sMaySend (sg : Nat) (s : State) : Bool :=
  let x := t1sSeg sg s
  t1sMode sg s != 0 && !t1sLow sg s &&
    if t1sPlca sg s then
      t1sOpen sg s && x.opp == t1sN sg 1 1 s && (x.burst == 0 || decide (s.time.loc ≤ x.sentAt + 100 * t1sN sg 5 1 s))
    else x.backoff.isNone && (t1sOnAir sg s).isNone

/-- The segment has sent a frame (R226, R229). -/
def t1sSent (sg : Nat) (s : State) : State :=
  if t1sPlca sg s then t1sUsed sg s else t1sSet sg { t1sSeg sg s with tries := 0 } s

/-- A segment is enabled (R225, R237). -/
def t1sEnable (sg : Nat) (s : State) : State :=
  if t1sMode sg s = 0 then s
  else t1sSet sg {} s |> wr (F.T1S_SGnn_STAT_MODE.u sg) (t1sMode sg s) |> wr (F.T1S_SGnn_STAT_NODE_ID.u sg) (t1sN sg 1 1 s)
    |> wr (F.T1S_SGnn_STAT_NODE_COUNT.u sg) (if t1sMode sg s = 1 then t1sN sg 2 1 s else 0)
    |> wrB (F.T1S_SGnn_STAT_PLCA_ACTIVE.u sg) (t1sMode sg s == 1)

end Sys2Proof.Machine
end

