-- ==== Sys2Proof/Machine/Eth.lean ====
section
/-! DEFINITION. XG and GE ports: links, pause and PFC, preemption, shaping, egress scheduling, FRER and MDIO
(06_ethernet_and_t1s.md, R203–R224, R234, R235). -/

namespace Sys2Proof.Machine

/-- Field o of width w of port record p (R236). -/
def ethN (p o w : Nat) (s : State) : Nat := cfgN C.ethPort p o w s
/-- A flag of a port record: 0 PAUSE_RX, 1 PAUSE_TX, 2 PFC mode, 3 HASH_EN, 4 PREEMPT, 5 VERIFY, 6 QBV, 7 FRER. -/
def ethFlag (p n : Nat) (s : State) : Bool := bit (ethN p 4 2 s) n
/-- The run state of a port. -/
def ethPort (p : Nat) (s : State) : EthPort := tget {} s.eth.ports p
/-- The run state changed. -/
def ethSet (p : Nat) (x : EthPort) (s : State) : State := { s with eth := { s.eth with ports := tput s.eth.ports p x } }
/-- The speed of a speed code [Mbit/s] (R204). -/
def speedMbit (c : Nat) : Nat := match c with
  | 0 => 10000 | 1 => 5000 | 2 => 2500 | 3 => 1000 | 4 => 100 | _ => 0
/-- The speed of any port; segments run at 10 Mbit/s. -/
def portMbit (p : Nat) (s : State) : Nat := if p < 16 then speedMbit (rd (F.ETH_PORTpp_STAT_SPEED.u p) s) else 10
/-- Whether a port's link is up; a segment counts as down while its PHY is in low-power mode (R209). -/
def portUp (p : Nat) (s : State) : Bool :=
  if p < 16 then rdB (F.ETH_PORTpp_STAT_LINK.u p) s else t1sMode (p - 16) s != 0 && !t1sLow (p - 16) s
/-- Whether a port's transmitter is ungated (R41, R234, R500). -/
def portOpen (p : Nat) (s : State) : Bool :=
  !silent (portDomain p) s && !silent .fab s && (16 ≤ p || (ethPort p s).open_)
/-- The fabric node of a port (R15): FN0–FN3 for XG, FN4 and FN5 for the GE ports, FN6 for the segments. -/
def portNode (p : Nat) : Nat := if p < 4 then p else if p < 10 then 4 else if p < 16 then 5 else 6

/-- What the MAC of an XG or GE port sends of its own, a pause frame or a verify mPacket, leaves only through an ungated
transmitter (R41, R234). -/
def macSend (p : Nat) (o : Out) (s : State) : State := when (ethPort p s).open_ (transmit .sds o) s

/-! ### Links and preemption (R204, R213) -/

/-- The speed code that a link-up report gives a port, if it may come up at all (R204). -/
def linkSpeed (p : Nat) (sp : Option Nat) (s : State) : Option Nat :=
  let fixed := ethN p 1 1 s
  match ethN p 0 1 s with
  | 0 => none
  | 1 => sp.filter (· ≤ 3)
  | _ => match sp with
    | none => some fixed
    | some v => if v = fixed then some fixed else none

/-- The link goes up, or follows a change of speed (R204, R213). -/
def linkUp (p sp : Nat) (s : State) : State :=
  let was := portUp p s
  let s := s |> wrB (F.ETH_PORTpp_STAT_LINK.u p) true |> wr (F.ETH_PORTpp_STAT_SPEED.u p) sp
  if was || !ethFlag p 4 s then s
  else if ethFlag p 5 s then
    ethSet p { ethPort p s with tries := 1 } s |> wr (F.ETH_PORTpp_STAT_VERIFY.u p) 1 |> macSend p (.line 5 p [])
  else wrB (F.ETH_PORTpp_STAT_PREEMPT_ACTIVE.u p) true s

/-- The link goes down (R204, R213). -/
def linkDown (p : Nat) (s : State) : State :=
  ethSet p { ethPort p s with tries := 0 } s |> wrB (F.ETH_PORTpp_STAT_LINK.u p) false |> wr (F.ETH_PORTpp_STAT_SPEED.u p) 7
    |> wr (F.ETH_PORTpp_STAT_VERIFY.u p) 0 |> wrB (F.ETH_PORTpp_STAT_PREEMPT_ACTIVE.u p) false

/-- VERIFY_TIMER (R213). -/
def execVerifyTimer (port : Fin 16) (s : State) : Res :=
  .next (if awake s ∧ rd (F.ETH_PORTpp_STAT_VERIFY.u port) s = 1 then
    if (ethPort port s).tries < 3 then
      ethSet port { ethPort port s with tries := (ethPort port s).tries + 1 } s |> macSend port (.line 5 port [])
    else wr (F.ETH_PORTpp_STAT_VERIFY.u port) 3 s
  else s)

/-- VERIFY_RESPONSE (R213). -/
def execVerifyResponse (port : Fin 16) (s : State) : Res :=
  .next (when (awake s && rd (F.ETH_PORTpp_STAT_VERIFY.u port) s == 1) (fun s =>
    wr (F.ETH_PORTpp_STAT_VERIFY.u port) 2 s |> wrB (F.ETH_PORTpp_STAT_PREEMPT_ACTIVE.u port) true) s)

/-- Preemption is active on a port (R213). -/
def preemptOn (p : Nat) (s : State) : Bool := p < 16 && rdB (F.ETH_PORTpp_STAT_PREEMPT_ACTIVE.u p) s

/-! ### Pause and PFC (R210, R211) -/

/-- The cells held by bulk frames that entered through a port, of one class or of all (R210). -/
def pauseCount (p : Nat) (cls : Option Nat) (s : State) : Nat :=
  (s.qm.frames.map fun e =>
    let x := e.2
    if !x.rsv && decide (x.src / 4096 ≤ 6) && x.src % 4096 == p && (cls == none || cls == some x.cls)
    then x.cells.length - x.freed else 0).sum

/-- Send a pause frame, or a PFC frame for class c (R210). -/
def sendPause (p c quanta : Nat) (s : State) : State :=
  s |> transmit .sds (.pause p (ethFlag p 2 s) (if ethFlag p 2 s then 2 ^ c else 0) quanta) |> inc (F.ETH_PORTpp_PAUSE_TX.u p)

/-- The classes that a port counts: each class of its PFC mask, or one count for all (R210). -/
def pauseClasses (p : Nat) (s : State) : List (Nat × Option Nat) :=
  if !ethFlag p 1 s then []
  else if ethFlag p 2 s then (bitList (ethN p 6 1 s) 8).map fun c => (c, some c) else [(0, none)]

/-- XOFF and XON of one count (R210); a port whose transmitter is gated or whose link is down sends neither (R41, R204). -/
def pauseCheck (p : Nat) (k : Nat × Option Nat) (s : State) : State :=
  let n := pauseCount p k.2 s
  let x := rd (F.ETH_PORTpp_STAT_XOFF.u p) s
  if silent .sds s || !(ethPort p s).open_ || !portUp p s then s
  else if !bit x k.1 && decide (ethN p 8 2 s ≤ n) then
    wr (F.ETH_PORTpp_STAT_XOFF.u p) (putBit x k.1 true) s |> sendPause p k.1 (ethN p 0x0C 2 s)
  else if bit x k.1 && decide (n < ethN p 0x0A 2 s) then
    wr (F.ETH_PORTpp_STAT_XOFF.u p) (putBit x k.1 false) s |> sendPause p k.1 0
  else s

/-- The pause counts of every port that sends pause frames (R210). -/
def pauseUpdate (s : State) : State :=
  each (List.range 16) (fun p s => each (pauseClasses p s) (pauseCheck p) s) s

/-- PAUSE_REPEAT (R210): half the pause time has passed. -/
def execPauseRepeat (port : Fin 16) (cls : Fin 8) (s : State) : Res :=
  let c := if ethFlag port 2 s then cls.val else 0
  .next (if bit (rd (F.ETH_PORTpp_STAT_XOFF.u port) s) c && !silent .sds s && (ethPort port s).open_ && portUp port s then
    if ethN port 0x0A 2 s ≤ pauseCount port (if ethFlag port 2 s then some c else none) s
    then sendPause port c (ethN port 0x0C 2 s) s else each (pauseClasses port s) (pauseCheck port) s
  else s)

/-- PAUSE_RECEIVED (R205, R211): the frame ends in the MAC. -/
def execPauseReceived (port : Fin 16) (m : PauseMsg) (s : State) : Res :=
  .next (if portUp port s then
    let s := s |> incWrap (F.ETH_PORTpp_RX_FRAMES_COUNT.u port) |> inc (F.ETH_PORTpp_PAUSE_RX.u port)
    match m with
    | .pause q => when (ethFlag port 0 s && !ethFlag port 2 s) (wrB (F.ETH_PORTpp_STAT_PAUSED.u port) (q != 0)) s
    | .pfc en ql =>
      when (ethFlag port 0 s && ethFlag port 2 s) (each ((bitList (ethN port 6 1 s) 8).filter (bit en.toNat ·)) (fun c s =>
        wr (F.ETH_PORTpp_STAT_PFC_PAUSED.u port)
          (putBit (rd (F.ETH_PORTpp_STAT_PFC_PAUSED.u port) s) c (ql.getD c 0 != 0)) s)) s
  else s)

/-- PAUSE_EXPIRY (R211). -/
def execPauseExpiry (port : Fin 16) (cls : Fin 8) (s : State) : Res :=
  .next (if !awake s then s else if ethFlag port 2 s then
    wr (F.ETH_PORTpp_STAT_PFC_PAUSED.u port) (putBit (rd (F.ETH_PORTpp_STAT_PFC_PAUSED.u port) s) cls false) s
  else wrB (F.ETH_PORTpp_STAT_PAUSED.u port) false s)

/-- Whether a received pause holds class c of a port (R211). -/
def isPaused (p c : Nat) (s : State) : Bool :=
  p < 16 && (rdB (F.ETH_PORTpp_STAT_PAUSED.u p) s || bit (rd (F.ETH_PORTpp_STAT_PFC_PAUSED.u p) s) c)

/-! ### Shaping (R215–R219) -/

/-- The gate registers of a port follow its gates (R217). -/
def gateShow (p : Nat) (s : State) : State :=
  s |> wr (F.ETH_PORTpp_STAT_GATES.u p) (gatesNow p s)
    |> wr (F.ETH_PORTpp_QBV_ENTRY.u p) (((gatePos p s).map (·.1)).getD 0)

/-- GATE_CONTROL_ENTRY (R215, R218): the entry that covers the present short time applies. -/
def execGateControlEntry (port : Fin 16) (s : State) : Res :=
  .next (when (domRuns .fab s && ethFlag port 6 s) (fun s =>
    gateShow port (ethSet port { ethPort port s with started := !gateWaits port s } s)) s)

/-- The frame in progress of queue q on port p is preemptable: preemption is active, its class is not express and its queue
not stipple-reserved (R213, R214). -/
def preemptable (p q : Nat) (s : State) : Bool := preemptOn p s && !isRsvQueue q && !(decide (q < 256) && bit (ethN p 7 1 s) (q % 8))

/-- The preemptable frame of queue q in progress on port p stands preempted at its closed gate (R216). -/
def heldAtGate (p q : Nat) (s : State) : Bool := decide (p < 16) && decide (q < 256) && preemptable p q s && listCloses p (q % 8) s

/-- The class queue that a port is sending, if any. -/
def sendingClass (p : Nat) (s : State) : Option Nat :=
  (tfind s.qm.cur p).bind fun c => if c.1 < 256 && !heldAtGate p c.1 s then some (c.1 % 8) else none

/-- The credit x of class c after dt ns in the present condition (R219), in 10⁻⁶ bit. -/
def creditNext (p c : Nat) (dt : Nat) (x : Int) (s : State) : Int :=
  let idle : Int := ethN p (0x28 + 4 * c) 4 s
  let rate : Int := portMbit p s * 1000
  if sendingClass p s = some c then x + (idle - rate) * dt
  else if !bit (gatesNow p s) c || inGuard p s || isPaused p c s then x
  else if (linked (8 * p + c) s).isEmpty then (if 0 ≤ x then 0 else min 0 (x + idle * dt))
  else x + idle * dt

/-- The credits of a port's shaped classes over one tick of 4 ns, whose condition is that at its start (R219). -/
def creditTick (p : Nat) (s : State) : State :=
  if 16 ≤ p ∨ ethN p 0x10 1 s = 0 then s else
  let x := ethPort p s
  let l := (List.range 8).map fun c => if bit (ethN p 0x10 1 s) c then creditNext p c 4 (x.credit.getD c 0) s else 0
  ethSet p { x with credit := l } s

/-- Whether class c of a port may start by its credit. -/
def creditOk (p c : Nat) (s : State) : Bool :=
  !(p < 16 && bit (ethN p 0x10 1 s) c) || decide (0 ≤ (ethPort p s).credit.getD c 0)

/-- Whether a frame of L bytes of class c fits before its gate closes (R216). -/
def gateFits (p c len : Nat) (s : State) : Bool :=
  bit (gatesNow p s) c && match untilClose p c s with
    | none => true
    | some t =>
      let n := if preemptOn p s && !bit (ethN p 7 1 s) c then 64 else len
      decide ((n + 20) * 8000 ≤ t * portMbit p s)

/-! ### Egress scheduling (R207, R208) -/

/-- Whether queue q offers its head frame for reading: its next cell has been written. -/
def headReady (q : Nat) (s : State) : Bool := match (qu q s).ents with
  | [] => false
  | e :: _ => decide (e.read < (fr e.fid s).cells.length)

/-- Whether class queue c of port p is eligible (R207). -/
def classEligible (p c : Nat) (s : State) : Bool :=
  let q := 8 * p + c
  headReady q s && (16 ≤ p || (
    (match (qu q s).ents with
      | [] => false
      | e :: _ => gateFits p c (fr e.fid s).data.length s)
    && creditOk p c s && !isPaused p c s && !inGuard p s))

/-- The stipple-reserved queues that target port p and have released a frame (R103, R207). -/
def rsvReleased (kind p : Nat) (s : State) : List Nat :=
  ((List.range 128).map (816 + ·)).filter fun q =>
    qEnabled q s && qTarget q s == (kind, p) && headReleased q s && headReady q s

/-- The mirror queues that port p drains (R195). -/
def mirrorQueues (p : Nat) (s : State) : List Nat :=
  ([0, 1, 2, 3].filter fun n => cfgHas C.mirror n s && cfgN C.mirror n 1 1 s == p && headReady (800 + n) s
    && !(p < 16 && (isPaused p 0 s || inGuard p s))).map (800 + ·)

/-- The queues that port p ranks, highest first (R207). -/
def portSchedule (p : Nat) (s : State) : List Nat :=
  match tfind s.qm.cur p with
  | some (q, _) => if headReady q s then [q] else []
  | none =>
    let cls := ([7, 6, 5, 4, 3, 2, 1].filter fun c => classEligible p c s).map fun c => 8 * p + c
    let zero := if classEligible p 0 s then [8 * p] else []
    let mir := mirrorQueues p s
    rsvReleased 0 p s ++ cls ++ if s.qm.mirTurn.contains p then mir ++ zero else zero ++ mir

/-! ### Frame replication and elimination (R221–R224) -/

/-- Whether a frame carries an R-tag. -/
def hasRtag (d : List Byte) : Bool := frEt d == 0xF1C1
/-- The sequence number of the R-tag. -/
def rtagSeq (d : List Byte) : Nat := beAt d (frEtOff d + 4) 2
/-- The frame without its R-tag. -/
def stripRtag (d : List Byte) : List Byte := d.take (frEtOff d) ++ d.drop (frEtOff d + 6)
/-- The frame with an R-tag after its VLAN tag (R222). -/
def addRtag (n : Nat) (d : List Byte) : List Byte := d.take (frEtOff d) ++ beBytes 2 0xF1C1 ++ zeros 2 ++ beBytes 2 n ++ d.drop (frEtOff d)

/-- The VLAN of a frame as it arrives on a port (R165). -/
def rxVlan (p : Nat) (d : List Byte) (s : State) : Nat :=
  if frTagged d && frVid d != 0 then frVid d else cfgN C.l2Port p 0 2 s % 4096

/-- The FRER entry of a function (0 generate, 1 recover) that names a frame's destination and VLAN. -/
def frerFind (fn : Nat) (mask : Nat → Bool) (dst vlan : Nat) (s : State) : Option Nat :=
  (cfgIdx C.ethFrer s).find? fun i =>
    let r := cfgRec C.ethFrer i s
    byteAt r 0 == fn && mask (byteAt r 1) && beAt r 4 6 == dst && leAt r 2 2 % 4096 == vlan

/-- The run state of an FRER entry. -/
def frerRun (i : Nat) (s : State) : FrerRun := tget {} s.eth.frer i
/-- The run state changed. -/
def frerSet (i : Nat) (x : FrerRun) (s : State) : State := { s with eth := { s.eth with frer := tput s.eth.frer i x } }

/-- Count one, saturating at 32 bits. -/
def sat32 (n : Nat) : Nat := min (n + 1) 0xFFFFFFFF

/-- The vector recovery algorithm (R223): whether the number passes, and the entry after it. -/
def frerRecover (len seq : Nat) (x : FrerRun) : Bool × FrerRun := match x.hist with
  | none => (true, { x with hist := some (seq, 1), passed := sat32 x.passed })
  | some (last, v) =>
    let d := sext 16 ((seq + 65536 - last) % 65536)
    if (len : Int) ≤ d ∨ d ≤ -(len : Int) then (false, { x with rogue := sat32 x.rogue })
    else if d ≤ 0 then
      if bit v d.natAbs then (false, { x with dups := sat32 x.dups })
      else (true, { x with hist := some (last, putBit v d.natAbs true), passed := sat32 x.passed })
    else (true, { x with hist := some (seq, (v * 2 ^ d.natAbs + 1) % 2 ^ len), passed := sat32 x.passed })

/-- The reset time of an FRER entry [ns] (R236). -/
def frerReset (i : Nat) (s : State) : Nat := cfgN C.ethFrer i 0x0C 2 s * 1000000

/-- A frame that arrives on an XG port meets the recover entries (R223): none when it is discarded. A frame that passes
starts the reset timer, and so does one that arrives in the tick in which the timer expires (R224). -/
def frerIngress (p : Nat) (d : List Byte) (s : State) : Option (List Byte) × State :=
  if 4 ≤ p ∨ !ethFlag p 7 s then (some d, s) else
  match frerFind 1 (bit · p) (frDst d) (rxVlan p d s) s with
  | none => (some d, s)
  | some i =>
    let r := cfgRec C.ethFrer i s
    let now := s.time.loc
    if !hasRtag d then (some d, frerSet i { frerRun i s with noTag := min ((frerRun i s).noTag + 1) 65535, since := now } s)
    else
      let (ok, x) := frerRecover (byteAt r 0x0A) (rtagSeq d) (frerRun i s)
      let s := frerSet i { x with since := if ok ∨ x.since + frerReset i s = now then now else x.since } s
      if ok then (some (if bit (byteAt r 0x0B) 0 then stripRtag d else d), s) else (none, s)

/-- A frame is linked: a generate entry draws its sequence number (R222). -/
def frerGenerate (f : Nat) (s : State) : State :=
  let x := fr f s
  match frerFind 0 (fun _ => true) (frDst x.data) (if x.vlan = 0 then frVid x.data else x.vlan) s with
  | none => s
  | some i =>
    let r := frerRun i s
    frSet f { x with frer := some r.seq } (frerSet i { r with seq := (r.seq + 1) % 65536 } s)

/-- FRER_RESET_TIMER (R223, R224): when no frame has passed for the reset time, the history is cleared and the next frame
passes. -/
def execFrerResetTimer (e : Fin 512) (s : State) : Res :=
  .next (if domRuns .fab s = true ∧ cfgN C.ethFrer e 0 1 s = 1 ∧ cfgHas C.ethFrer e s ∧ (frerRun e s).hist.isSome
      ∧ (frerRun e s).since + frerReset e s ≤ s.time.loc then
    frerSet e { frerRun e s with hist := none, resets := min ((frerRun e s).resets + 1) 65535 } s
  else s)

/-! ### PHY bring-up and MDIO (R234, R235) -/

/-- A port is enabled (R234 step 1): the PHY reset is asserted, the transmitter still gated. -/
def ethEnable (p : Nat) (s : State) : State :=
  if ethN p 0 1 s = 0 then s
  else
    let noScan := !sbsOn s || decide (256 ≤ ethN p 0x20 2 s)
    ethSet p { step := if noScan then 2 else 1, first := gateFirst p (shortNs s) s } s |> sbsWrite .phy (ethN p 0x20 2 s) false |> gateShow p

/-- The script entries of a port (R236). -/
def mdioScript (p : Nat) (s : State) : List (List Byte) :=
  ((cfgIdx C.ethMdio s).filter fun i => cfgN C.ethMdio i 0 1 s == p).map (cfgRec C.ethMdio · s)

/-- The end of the script ungates the transmitter (R234 step 4). -/
def mdioEnd (p : Nat) (s : State) : State := ethSet p { ethPort p s with step := 4, open_ := true } s

/-- The commands of an MDIO bus, in order of arrival (R235). -/
def mdioBus (b : Nat) (s : State) : List MdioCmd := tget [] s.eth.mdio b
/-- The commands of an MDIO bus changed. -/
def mdioSet (b : Nat) (l : List MdioCmd) (s : State) : State := { s with eth := { s.eth with mdio := tput s.eth.mdio b l } }

/-- A command of port p joins its bus; the sequencer's goes before the host commands of the same tick (R32, R235). -/
def mdioJoin (p : Nat) (seq : Bool) (s : State) : State :=
  let b := ethN p 0x26 1 s
  let l := mdioBus b s
  let late (c : MdioCmd) : Bool := seq && !c.seq && c.at_ == s.time.loc
  mdioSet b (l.filter (fun c => !late c) ++ { port := p, seq := seq, at_ := s.time.loc } :: l.filter late) s

/-- The running script entry of a port (R236). -/
def mdioEntry (p : Nat) (s : State) : List Byte := ((mdioScript p s)[(ethPort p s).script]?).getD []

/-- The script of a port goes on at entry n: an access joins the bus, a wait passes; after the last entry the sequence ends
(R234). -/
def mdioGo (p n : Nat) (s : State) : State :=
  if (mdioScript p s).length ≤ n then mdioEnd p s
  else
    let s := ethSet p { ethPort p s with step := 3, script := n } s
    when (decide (byteAt (mdioEntry p s) 1 < 2)) (mdioJoin p true) s

/-- RESET_RELEASE_DELAY (R234 step 3): the script starts. -/
def execResetReleaseDelay (port : Fin 16) (s : State) : Res :=
  .next (when (awake s && (ethPort port s).step == 2) (mdioGo port 0) s)

/-- MDIO_SCRIPT_ACCESS (R234, R235): one entry of the script completes, a wait, or an access whose turn on the bus it is. -/
def execMdioScriptAccess (port : Fin 16) (s : State) : Res :=
  .next (if awake s ∧ (ethPort port s).step = 3 then
    let n := (ethPort port s).script + 1
    let b := ethN port 0x26 1 s
    if 2 ≤ byteAt (mdioEntry port s) 1 then mdioGo port n s
    else match mdioBus b s with
      | c :: rest => when (c.seq && c.port == port)
          (fun s => mdioGo port n (emit (.line 2 port (mdioEntry port s)) (mdioSet b rest s))) s
      | [] => s
  else s)

/-- Whether an initiator may use the PHYs: a control core always, a host with PHY access (R235). -/
def mayMdio (who : Initiator) (s : State) : Bool := match who with
  | .pcie => bit (hostPerm 0 s) 3
  | .xspi => bit (hostPerm 1 s) 3
  | .core _ => true
  | .link => false

/-- The device has written an MDIO register of port p in this tick (R476). -/
def mdioDev (p : Nat) (s : State) : State := ethSet p { ethPort p s with devAt := some s.time.loc } s

/-- A host write meets a device write of the MDIO registers of port p in one tick, or a core's write is one (R476). -/
def mdioMeets (who : Initiator) (p : Nat) (f : State → Status × State) (s : State) : Status × State :=
  match who with
  | .core _ => f (mdioDev p s)
  | _ => if (hostOf who).isSome ∧ (ethPort p s).devAt = some s.time.loc then (.busy, s) else f s

/-- A write of ETH_PORTpp_MDIO_CMD with operation op, and the status of an xSPI write (R235). -/
def mdioCmd (who : Initiator) (op p v : Nat) (s : State) : Status × State :=
  if !mayMdio who s then (.denied, wrB (F.ETH_PORTpp_MDIO_CMD_ERR.u p) true s)
  else if rdB (F.ETH_PORTpp_MDIO_CMD_BUSY.u p) s then (.ok, wrB (F.ETH_PORTpp_MDIO_CMD_ERR.u p) true s)
  else
    (.ok, mdioJoin p false s
      |> wrB (F.ETH_PORTpp_MDIO_CMD_ERR.u p) false |> wrB (F.ETH_PORTpp_MDIO_CMD_BUSY.u p) true
      |> wr (F.ETH_PORTpp_MDIO_CMD_OP.u p) op |> wr (F.ETH_PORTpp_MDIO_CMD_DEVAD.u p) (bits v 16 5)
      |> wr (F.ETH_PORTpp_MDIO_CMD_REG.u p) (bits v 0 16))

/-- The same, with the meeting of a device write (R476). -/
def mdioWrite (who : Initiator) (op p v : Nat) (s : State) : Status × State := mdioMeets who p (mdioCmd who op p v) s

/-- CLAUSE_22_WRITE (R235). -/
def execClause22Write (who : Initiator) (port : Fin 16) (v : Word) (s : State) : Res :=
  .next (hostWrite who (0x80F00 + 0x1000 * port) (mdioWrite who 0 port v.toNat) s)
/-- CLAUSE_22_READ (R235). -/
def execClause22Read (who : Initiator) (port : Fin 16) (v : Word) (s : State) : Res :=
  .next (hostWrite who (0x80F00 + 0x1000 * port) (mdioWrite who 1 port v.toNat) s)
/-- CLAUSE_45_WRITE (R235). -/
def execClause45Write (who : Initiator) (port : Fin 16) (v : Word) (s : State) : Res :=
  .next (hostWrite who (0x80F00 + 0x1000 * port) (mdioWrite who 2 port v.toNat) s)
/-- CLAUSE_45_READ (R235). -/
def execClause45Read (who : Initiator) (port : Fin 16) (v : Word) (s : State) : Res :=
  .next (hostWrite who (0x80F00 + 0x1000 * port) (mdioWrite who 3 port v.toNat) s)

/-- MDIO_COMMAND_DONE (R235): the oldest command of the bus, a host's, completes. -/
def execMdioCommandDone (bus : Fin 2) (data : BitVec 16) (s : State) : Res :=
  .next (match mdioBus bus s with
    | [] => s
    | ⟨p, seq, _⟩ :: rest =>
      if seq || !awake s then s else
      let op := rd (F.ETH_PORTpp_MDIO_CMD_OP.u p) s
      mdioDev p (mdioSet bus rest s) |> wrB (F.ETH_PORTpp_MDIO_CMD_BUSY.u p) false
        |> emit (.line 2 p (leBytes 1 op ++ leBytes 1 (rd (F.ETH_PORTpp_MDIO_CMD_DEVAD.u p) s)
            ++ leBytes 2 (rd (F.ETH_PORTpp_MDIO_CMD_REG.u p) s) ++ leBytes 2 (rd (F.ETH_PORTpp_MDIO_DATA_DATA.u p) s)))
        |> when (op == 1 || op == 3) (wr (F.ETH_PORTpp_MDIO_DATA_DATA.u p) data.toNat))

end Sys2Proof.Machine
end

