-- ==== Sys2Proof/Machine/Key.lean ====
section
/-! DEFINITION. The vault mailbox and its commands, life-cycle requests, debug tokens and the tamper monitor
(11_keys_life_cycle_tamper.md, R366–R395). -/

namespace Sys2Proof.Machine

/-! ### Attributes (R375) -/

/-- SIZE of an attribute word. -/
def aSize (a : Nat) : Nat := a % 4
/-- The key bytes of a SIZE. -/
def sizeBytes (z : Nat) : Nat := match z with | 0 => 16 | 1 => 32 | _ => 64
/-- An attribute word is valid under R375. -/
def attrsOk (a : Nat) : Bool :=
  bits a 12 4 == 0 && bits a 21 11 == 0 && !(aSize a == 3 && bit a 2) && (aSize a == 3 || !bit a 8)
/-- The owner bit of a mailbox user (R375). -/
def ownerBit : MboxUser → Nat
  | .core _ => 17
  | _ => 18
/-- A slot key used under L2 or L3, blocked, outside its attributes, or empty (R375, R376, R388): the status. -/
def useStatus (k : Nat) (need : Nat → Bool) (s : State) : Status := match slotKey k s with
  | none => .absent
  | some c => if tamperBlocks s || slotBlocked k s || !need c.attrs then .denied else .ok

/-! ### Signatures with the identity key (R371, R373, R386) -/

/-- The identity public key, 65 bytes. -/
def identPublic (s : State) : List Byte := match s.key.ident with
  | some d => ecPublic d
  | none => []
/-- The identity hash (R371). -/
def identHash (s : State) : List Byte := sha256 (identPublic s)
/-- A random scalar in 1 to n − 1. -/
def randScalar (s : State) : Nat × State := let (b, s) := randBytes 32 s; (beNat b % (pN - 1) + 1, s)
/-- Sign with the identity key; a device without one has no signature to give, and the bytes are free. -/
def identSign (m : List Byte) (s : State) : List Byte × State := match s.key.ident with
  | some d => let (k, s) := randScalar s; (ecdsaSign d k (sha256 m), s)
  | none => randBytes 64 s
/-- The public key in a slot that is not blocked, as 65 bytes (R376). -/
def slotPublic (k : Nat) (s : State) : Option (List Byte) := match slotKey k s with
  | some c => if aSize c.attrs = 3 && !slotBlocked k s then some (ofNats [4] ++ c.key) else none
  | none => none
/-- The Tvedolo manufacturing key in the boot ROM (R368), which the manual does not give. -/
def mfgKey : List Byte := ofNats (4 :: (List.range 64).map (Config.vendorByte 0))

/-! ### Key update (R380–R386) -/

/-- What the checks of R381 settle: the reason, 0 when the message is accepted, its status, and the new key. -/
structure UpdCheck where
  reason : Nat
  status : Status
  key    : List Byte := []
  deriving Repr

/-- The checks of R381, in order. -/
def updCheck (m : List Byte) (s : State) : UpdCheck :=
  let n := leAt m 0x4A 2
  let slot := leAt m 6 2
  let attrs := leAt m 0x40 4
  let wslot := leAt m 0x48 2
  let signer := byteAt m (0x4C + n)
  let sig := slice m (0x4D + n) 64
  let pub := if signer = 0xFF then (if lcState s = 1 then some mfgKey else none)
             else if signer ≤ 3 then slotPublic (8 + signer) s else none
  let stored := ((slotCopy slot s).map (·.counter)).getD 0
  let z := aSize attrs
  let raw := slice m 0x4C n
  let nOk := n == 0 || (if z = 3 then n == 64 && wslot == 0xFFFF else n == sizeBytes z + 8)
  if m.length < 141 ∨ m.length ≠ 141 + n ∨ leAt m 0 4 ≠ 0x96164B55 ∨ leAt m 4 2 ≠ 1 ∨ 255 < slot then ⟨1, .fault, []⟩
  else if !(lcState s == 1 || lcState s == 2 || lcState s == 3) then ⟨2, .denied, []⟩
  else if tamperBlocks s then ⟨3, .denied, []⟩
  else if slice m 8 16 ≠ uidBytes ∨ slice m 0x18 32 ≠ identHash s then ⟨4, .denied, []⟩
  else match pub with
    | none => ⟨5, .denied, []⟩
    | some pk =>
      if !ecdsaVerify pk (sha256 (m.take (0x4C + n))) sig then ⟨6, .denied, []⟩
      else if leAt m 0x38 8 ≤ stored then ⟨7, .denied, []⟩
      else if !attrsOk attrs || !nOk || (isRoot slot && (z != 3 || wslot != 0xFFFF)) then ⟨8, .fault, []⟩
      else if n = 0 then ⟨0, .ok, []⟩
      else if z = 3 then ⟨0, .ok, raw⟩
      else match slotKey wslot s with
        | none => ⟨9, .denied, []⟩
        | some w =>
          if 255 < wslot ∨ !bit w.attrs 6 ∨ slotBlocked wslot s ∨ wslot = slot then ⟨9, .denied, []⟩
          else match keyUnwrap w.key raw with
            | none => ⟨10, .denied, []⟩
            | some k => ⟨0, .ok, k⟩

/-- The key check value of a receipt (R386). -/
def checkValue (attrs : Nat) (key : List Byte) : List Byte :=
  if key = [] then zeros 4 else if aSize attrs = 3 then (sha256 key).take 4 else (cmac key []).take 4

/-- The uses of an accepted update: its signer's slot, and the slot that unwraps its key (R376, log entry 80). The
hold-up check of the update covers a reservation too. -/
def updUses (m : List Byte) (s : State) : State :=
  let signer := byteAt m (0x4C + leAt m 0x4A 2)
  let s := if signer = 0xFF then s else (useCount (8 + signer) s).2
  if leAt m 0x4A 2 = 0 ∨ leAt m 0x48 2 = 0xFFFF then s else (useCount (leAt m 0x48 2) s).2

/-- KEY_UPDATE (R381–R386): the checks, the hold-up check, the commit into the inactive copy, and the signed receipt. -/
def keyUpdate (m : List Byte) (s : State) : (Status × List Byte) × State :=
  let c := updCheck m s
  let slot := leAt m 6 2
  let (c, s) := if c.reason = 0 then
      let (ok, s) := holdUpCheck 0 60 s
      (if ok then c else { c with reason := 12, status := .busy }, s)
    else (c, s)
  let s := if c.reason = 0 then updUses m s else s
  let x := kslot slot s
  -- the inactive copy: the one that is not valid or has the lower counter (R384)
  let toB := x.a.isSome && !x.useB
  let attrs := leAt m 0x40 4 % 2 ^ 11 + leAt m 0x40 4 / 2 ^ 12 * 2 ^ 12 + (if isRoot slot then 2 ^ 11 else 0)
  let copy : KeyCopy := { key := c.key, attrs := attrs, limit := leAt m 0x44 4, counter := leAt m 0x38 8 }
  let s := if c.reason = 0 then
      kslotSet slot (if toB then { x with b := some copy, count := 0 } else { x with a := some copy, count := 0 }) s
        |> inc F.KEY_UPD_CNT_DONE |> inc F.PWR_NVM_CNT_DONE
    else inc F.KEY_UPD_CNT_REFUSED s
  let stored := ((slotCopy slot s).map (·.counter)).getD 0
  let body := leBytes 4 0x96165243 ++ leBytes 2 1 ++ leBytes 1 c.status.code ++ leBytes 1 c.reason ++ uidBytes
    ++ leBytes 2 slot ++ leBytes 1 (if c.reason = 0 then b2n toB else 0xFF) ++ leBytes 1 0 ++ leBytes 8 (leAt m 0x38 8)
    ++ leBytes 8 stored ++ sha256 m ++ (if c.reason = 0 then checkValue attrs c.key else zeros 4)
    ++ leBytes 4 s.rcd.secs ++ leBytes 4 s.mram.pcycle
  let (sig, s) := identSign body s
  ((c.status, body ++ sig), s)

/-! ### Derivation (R378, R379) -/

/-- The key derivation of R378: the first L bits. -/
def vaultKdf (parent label context : List Byte) (bits : Nat) : List Byte :=
  ((List.range (cdiv bits 128)).flatMap fun i =>
    cmac parent (leBytes 1 (i + 1) ++ label ++ zeros 1 ++ context ++ beBytes 2 bits)).take (bits / 8)

/-- The attributes of a derived slot: the caller's, less DERIVE and ROOT (R378). -/
def derivedAttrs (a : Nat) : Nat := putBit (putBit a 7 false) 11 false

/-- KEY_DERIVE (R376, R378). The label and the context each follow a length byte (log entry 31). While the use of the parent
needs a reservation that cannot be written the answer is BUSY (log entry 80). -/
def keyDerive (who : MboxUser) (b : List Byte) (s : State) : (Status × List Byte) × State :=
  let parent := leAt b 0 2
  let n := byteAt b 2
  let a := derivedAttrs (leAt b 3 4)
  let bits_ := leAt b 7 2
  let ll := byteAt b 9
  let cl := byteAt b (10 + ll)
  let size := if bits_ = 128 then 0 else if bits_ = 256 then 1 else 2
  if b.length ≠ 11 + ll + cl ∨ 64 ≤ n ∨ ll = 0 ∨ 32 < ll ∨ cl = 0 ∨ 32 < cl ∨ !(bits_ == 128 || bits_ == 256 || bits_ == 512)
      ∨ aSize a ≠ size ∨ !attrsOk a then ((.fault, []), s)
  else match useStatus parent (fun p => bit p 7 && bit p (ownerBit who)) s, slotKey parent s with
    | .ok, some p =>
      if clearBits (bits a 2 8) (bits p.attrs 2 8) ≠ 0 ∨ clearBits (bits a 16 5) (bits p.attrs 16 5) ≠ 0
          ∨ (tfind s.key.vols n).isSome then ((.denied, []), inc F.KEY_USE_DENIED_COUNT s)
      else match useCount parent s with
        | (true, s) => ((.ok, []), vslotSet n { key := vaultKdf p.key (slice b 10 ll) (slice b (11 + ll) cl) bits_, attrs := a } s)
        | (false, s) => ((.busy, []), s)
    | .denied, _ => ((.denied, []), inc F.KEY_USE_DENIED_COUNT s)
    | st, _ => ((st, []), s)

/-- ECDH (R379). The manual gives no context for this derivation: its bytes are open. -/
def ecdhCommand (b : List Byte) (s : State) : (Status × List Byte) × State :=
  let n := byteAt b 0
  let a := derivedAttrs (leAt b 1 4)
  let (d, s') := randScalar s
  if b.length ≠ 70 ∨ 64 ≤ n ∨ 3 ≤ aSize a ∨ !attrsOk a then ((.fault, []), s)
  else if tamperBlocks s ∨ (tfind s.key.vols n).isSome then ((.denied, []), inc F.KEY_USE_DENIED_COUNT s)
  else match ecdhSecret d (slice b 5 65) with
    | none => ((.fault, []), s')
    | some x =>
      let label := ofNats [0x65, 0x63, 0x64, 0x68]
      let ctx := ofNats ((List.range 32).map (Config.vendorByte 3))
      ((.ok, ecPublic d),
        vslotSet n { key := vaultKdf x label ctx (8 * sizeBytes (aSize a)), attrs := a } s')

/-! ### Slots, identity, life cycle -/

/-- VS_ZEROISE (R393). -/
def vsZeroiseCommand (b : List Byte) (s : State) : (Status × List Byte) × State :=
  let n := byteAt b 0
  if b.length ≠ 1 ∨ (64 ≤ n ∧ n ≠ 0xFF) then ((.fault, []), s)
  else
    let v := if n = 0xFF then [] else terase s.key.vols n
    ((.ok, []), keyShow { s with key := { s.key with vols := v } })

/-- SLOT_INFO (R393): attributes, use limit, use count, counter, copy and state. -/
def slotInfoCommand (b : List Byte) (s : State) : (Status × List Byte) × State :=
  let k := leAt b 0 2
  if b.length ≠ 2 ∨ 0x140 ≤ k then ((.fault, []), s)
  else
    let c := (slotCopy k s).getD { key := [], attrs := 0 }
    let st := if (slotKey k s).isNone then 0 else if slotBlocked k s then 2 else 1
    let copy := if (slotCopy k s).isNone then 0xFF else if k < 256 then b2n (kslot k s).useB else 0
    ((.ok, leBytes 4 c.attrs ++ leBytes 4 c.limit ++ leBytes 4 (kslot k s).count ++ leBytes 8 c.counter ++ leBytes 1 copy
      ++ leBytes 1 st), s)

/-- GET_IDENTITY (R372, R393). -/
def getIdentityCommand (b : List Byte) (s : State) : (Status × List Byte) × State :=
  let o := leAt b 0 2
  if b.length ≠ 2 ∨ 4095 < o then ((.fault, []), s)
  else ((.ok, uidBytes ++ slice (identPublic s) 0 65 ++ zeros 1 ++ leBytes 2 s.key.cert.length ++ leBytes 2 o
    ++ (s.key.cert.drop o).take 4000), s)

/-- SIGN_CHALLENGE (R373). -/
def signChallengeCommand (b : List Byte) (s : State) : (Status × List Byte) × State :=
  if b.length ≠ 32 then ((.fault, []), s)
  else
    -- "Cleren9616-chal", then 0x00
    let prefix_ := ofNats [0x43, 0x6C, 0x65, 0x72, 0x65, 0x6E, 0x39, 0x36, 0x31, 0x36, 0x2D, 0x63, 0x68, 0x61, 0x6C, 0]
    let (sig, s) := identSign (prefix_ ++ b) s
    ((.ok, sig), s)

/-- Whether a slot of lo .. hi holds a key. -/
def anyKey (lo hi : Nat) (s : State) : Bool := (List.range (hi - lo + 1)).any fun i => (slotKey (lo + i) s).isSome

/-- The transitions that a signed request may ask for (R366). -/
def lcAllowed (target : Nat) (s : State) : Bool := match lcState s, target with
  | 1, 2 => anyKey 3 3 s && anyKey 4 7 s && anyKey 8 11 s
  | 2, 3 => true
  | 3, 2 => true
  | 2, 4 => true
  | st, 5 => st != 5
  | _, _ => false

/-- A signed request or token of R369: format, then UID, then the signature under the named slot. -/
def signedStatus (magic pubSlot : Nat) (b : List Byte) (s : State) : Status :=
  if b.length ≠ 96 ∨ leAt b 0 4 ≠ magic ∨ leAt b 4 2 ≠ 1 then .fault
  else match slotPublic pubSlot s with
    | none => .denied
    | some pk =>
      if slice b 8 16 = uidBytes ∧ ecdsaVerify pk (sha256 (b.take 0x20)) (slice b 0x20 64) then .ok else .denied

/-- LC_REQUEST (R366, R369, R498). -/
def lcRequestCommand (b : List Byte) (s : State) : (Status × List Byte) × State :=
  let target := byteAt b 6
  let signer := byteAt b 7
  if 3 < signer ∨ leAt b 0x1C 4 ≠ 0 then ((.fault, []), s)
  else match signedStatus 0x96164C43 (8 + signer) b s with
    | .ok =>
      if leAt b 0x18 4 ≤ s.key.lcCount ∨ !lcAllowed target s then ((.denied, []), s)
      else
        let (ok, s) := holdUpCheck 1 60 s
        if !ok then ((.busy, []), s)
        else
          -- a signed QUARANTINED → FIELD request releases L3 (R389)
          let s := if lcState s = 3 ∧ target = 2 then wr F.KEY_TAMPER_STAT_LEVEL 0 s else s
          ((.ok, []), lcTransition target (useCount (8 + signer) { s with key := { s.key with lcCount := leAt b 0x18 4 } }).2 |> inc F.PWR_NVM_CNT_DONE)
    | st => ((st, []), s)

/-- A refused debug token is counted; the eighth of a power cycle is a tamper event of source 5 (R370). -/
def tokenRefused (s : State) : State :=
  let n := s.key.refusedTokens + 1
  let s := { s with key := { s.key with refusedTokens := n } }
  if n = 8 then tamperDetect 5 s else s

/-- Debug opened on the cores of mask m (R363). -/
def debugOpen (m : Nat) (s : State) : State := wr F.CTL_DEBUG_OPEN (rd F.CTL_DEBUG_OPEN s ||| m % 16) s

/-- DEBUG_TOKEN (R369, R370). -/
def debugTokenCommand (b : List Byte) (s : State) : (Status × List Byte) × State :=
  match signedStatus 0x96164454 3 b s with
  | .ok =>
    if leAt b 0x18 4 = s.mram.pcycle ∧ byteAt b 7 = 0 ∧ byteAt b 6 < 16 ∧ leAt b 0x1C 4 = 0 then
      match useCount 3 s with
      | (true, s) => ((.ok, []), debugOpen (byteAt b 6) s)
      | (false, s) => ((.busy, []), s)
    else ((.denied, []), tokenRefused s)
  | st => ((st, []), tokenRefused s)

/-- The P-256 public key in an X.509 device certificate: the 65 bytes after the algorithm identifier of RFC 5480. -/
def certKey (b : List Byte) : List Byte :=
  let tag := ofNats [0x30, 0x59, 0x30, 0x13, 0x06, 0x07, 0x2A, 0x86, 0x48, 0xCE, 0x3D, 0x02, 0x01, 0x06, 0x08, 0x2A, 0x86,
    0x48, 0xCE, 0x3D, 0x03, 0x01, 0x07, 0x03, 0x42, 0x00]
  match (List.range b.length).find? fun i => slice b i 26 == tag with
  | some i => slice b (i + 26) 65
  | none => []

/-- The bytes of the DER certificate at the front of b: a SEQUENCE in the shortest length form; 0 when there is none (R372). -/
def derBytes (b : List Byte) : Nat :=
  if byteAt b 0 ≠ 0x30 then 0
  else if byteAt b 1 < 0x80 then 2 + byteAt b 1
  else if byteAt b 1 = 0x81 ∧ 0x80 ≤ byteAt b 2 then 3 + byteAt b 2
  else if byteAt b 1 = 0x82 ∧ 0x100 ≤ beAt b 2 2 then 4 + beAt b 2 2 else 0

/-- b is a chain of one to n DER certificates (R372). -/
def derChain : Nat → List Byte → Bool
  | 0, _ => false
  | n + 1, b =>
    let k := derBytes b
    k != 0 && (k == b.length || (decide (k < b.length) && derChain n (b.drop k)))

/-- A chain that CERT_INSTALL stores: one to three certificates, the first with the identity public key (R372). -/
def certOk (b : List Byte) (s : State) : Bool :=
  decide (b.length ≤ 4096) && derChain 3 b && certKey (b.take (derBytes b)) == identPublic s

/-- CERT_INSTALL (R372). `formed`: the certificates are X.509 v3 DER in all that the model does not read of them; a chain that
is not is refused (log entry 58). -/
def certInstallCommand (b : List Byte) (formed : Bool) (s : State) : (Status × List Byte) × State :=
  if certOk b s && formed then ((.ok, []), { s with key := { s.key with cert := b } }) else ((.fault, []), s)

/-- A transition that the vault makes without a signature, under the hold-up rule (R366, R498). -/
def lcUnsigned (target : Nat) (s : State) : (Status × List Byte) × State :=
  let (ok, s) := holdUpCheck 1 60 s
  if ok then ((.ok, []), inc F.PWR_NVM_CNT_DONE (lcTransition target s)) else ((.busy, []), s)

/-- LC_ENTER_MFG (R366, R371): the identity key pair is generated. -/
def lcEnterMfgCommand (s : State) : (Status × List Byte) × State :=
  let (r, s1) := lcUnsigned 1 s
  if r.1 = .ok then
    let (d, s2) := randScalar s1
    (r, { s2 with key := { s2.key with ident := some d } })
  else (r, s1)

/-! ### The mailbox (R393) -/

/-- The life-cycle states in which a command is taken (R393). -/
def cmdState (code : Nat) (s : State) : Bool :=
  let st := lcState s
  if code = 2 ∨ code = 3 ∨ code = 7 then st != 0 && st != 5
  else if code = 6 then st != 0
  else if code = 9 then st == 2
  else if code = 10 then st == 1
  else if code = 11 then st == 0
  else if code = 12 then st == 0 || st == 1
  else true

/-- Whether a user may submit vault commands (R393). -/
def mboxPerm (who : MboxUser) (s : State) : Bool :=
  let any := stage s == 7 || stage s == 8 || stage s == 9
  match who with
  | .core _ => true
  | .pcie => any || bit (hostPerm 0 s) 5
  | .xspi => any || bit (hostPerm 1 s) 5

/-- The mailbox of a user's class (R393). -/
def mboxClass : MboxUser → Nat
  | .core _ => 1
  | _ => 0

/-- Bytes written into a byte buffer from offset o; unlisted bytes read 0. -/
def mboxPut (o : Nat) (b : List Byte) (t : Tbl Byte) : Tbl Byte :=
  (List.range b.length).foldl (fun t i => tset 0 t (o + i) (BitVec.ofNat 8 (byteAt b i))) t

/-- The response stands in the mailbox, and KEY_CMD_STAT shows it. -/
def mboxAnswer (who : MboxUser) (code : Nat) (r : (Status × List Byte) × State) : State :=
  let b := r.1.2
  let base := 4096 * mboxClass who
  let s := { r.2 with key := { r.2.key with mbox := mboxPut base b r.2.key.mbox } }
  match who with
  | .core _ => { s with key := { s.key with coreStat := (b.length, code, r.1.1.code) } }
  | _ => s |> wr F.KEY_CMD_STAT_LENGTH b.length |> wr F.KEY_CMD_STAT_CODE code |> wr F.KEY_CMD_STAT_STATUS r.1.1.code

/-- One vault command: without permission or outside its life-cycle states it is DENIED. -/
def vaultCommand (who : MboxUser) (code : Nat) (f : State → (Status × List Byte) × State) (s : State) : State :=
  hostWrite (match who with | .pcie => .pcie | .xspi => .xspi | .core n => .core n) 0x100100
    (fun s => (.ok, mboxAnswer who code (if !mboxPerm who s || !cmdState code s then ((.denied, []), s) else f s))) s

/-- KEY_UPDATE (R384). -/
def execKeyUpdate (who : MboxUser) (args : List Byte) (s : State) : Res :=
  guardWf (decide (args.length ≤ 4096)) "vault argument" (.next (vaultCommand who 1 (keyUpdate args) s))
/-- KEY_DERIVE (R378). -/
def execKeyDerive (who : MboxUser) (args : List Byte) (s : State) : Res :=
  guardWf (decide (args.length ≤ 4096)) "vault argument" (.next (vaultCommand who 2 (keyDerive who args) s))
/-- ECDH (R379). -/
def execEcdh (who : MboxUser) (args : List Byte) (s : State) : Res :=
  guardWf (decide (args.length ≤ 4096)) "vault argument" (.next (vaultCommand who 3 (ecdhCommand args) s))
/-- VS_ZEROISE (R393). -/
def execVsZeroise (who : MboxUser) (args : List Byte) (s : State) : Res :=
  guardWf (decide (args.length ≤ 4096)) "vault argument" (.next (vaultCommand who 4 (vsZeroiseCommand args) s))
/-- SLOT_INFO (R393). -/
def execSlotInfo (who : MboxUser) (args : List Byte) (s : State) : Res :=
  guardWf (decide (args.length ≤ 4096)) "vault argument" (.next (vaultCommand who 5 (slotInfoCommand args) s))
/-- GET_IDENTITY (R372). -/
def execGetIdentity (who : MboxUser) (args : List Byte) (s : State) : Res :=
  guardWf (decide (args.length ≤ 4096)) "vault argument" (.next (vaultCommand who 6 (getIdentityCommand args) s))
/-- SIGN_CHALLENGE (R373). -/
def execSignChallenge (who : MboxUser) (args : List Byte) (s : State) : Res :=
  guardWf (decide (args.length ≤ 4096)) "vault argument" (.next (vaultCommand who 7 (signChallengeCommand args) s))
/-- LC_REQUEST (R366). -/
def execLcRequest (who : MboxUser) (args : List Byte) (s : State) : Res :=
  guardWf (decide (args.length ≤ 4096)) "vault argument" (.next (vaultCommand who 8 (lcRequestCommand args) s))
/-- DEBUG_TOKEN (R370). -/
def execDebugToken (who : MboxUser) (args : List Byte) (s : State) : Res :=
  guardWf (decide (args.length ≤ 4096)) "vault argument" (.next (vaultCommand who 9 (debugTokenCommand args) s))
/-- CERT_INSTALL (R372). -/
def execCertInstall (who : MboxUser) (args : List Byte) (formed : Bool) (s : State) : Res :=
  guardWf (decide (args.length ≤ 4096)) "vault argument" (.next (vaultCommand who 10 (certInstallCommand args formed) s))
/-- LC_ENTER_MFG (R371). -/
def execLcEnterMfg (who : MboxUser) (s : State) : Res := .next (vaultCommand who 11 lcEnterMfgCommand s)
/-- LC_SCRAP (R366). -/
def execLcScrap (who : MboxUser) (s : State) : Res := .next (vaultCommand who 12 (lcUnsigned 5) s)

/-- The command with code `code` of the table of R393 on its arguments. -/
def vaultRun (who : MboxUser) (code : Nat) (args : List Byte) (s : State) : (Status × List Byte) × State := match code with
  | 1 => keyUpdate args s
  | 2 => keyDerive who args s
  | 3 => ecdhCommand args s
  | 4 => vsZeroiseCommand args s
  | 5 => slotInfoCommand args s
  | 6 => getIdentityCommand args s
  | 7 => signChallengeCommand args s
  | 8 => lcRequestCommand args s
  | 9 => debugTokenCommand args s
  | 10 => let (v, s) := fresh s; certInstallCommand args (v % 2 == 1) s
  | 11 => lcEnterMfgCommand s
  | 12 => lcUnsigned 5 s
  | _ => ((.fault, []), s)

/-- A write of KEY_CMD submits the command whose arguments stand in the mailbox (R393). -/
def keyCmdWrite (who : MboxUser) (v : Nat) (s : State) : State :=
  let args := (List.range (min (v / 65536) 4096)).map fun i => tget 0 s.key.mbox (4096 * mboxClass who + i)
  vaultCommand who (v % 256) (vaultRun who (v % 256) args) s

/-! ### Tamper (R387–R391) -/

/-- TAMPER_DETECTION (R388): sources 0 to 3 in every state with a supply, 4 not in SLEEP, 5 while the vault runs (R387). -/
def execTamperDetection (src : Fin 6) (s : State) : Res :=
  .next (if s.pwr.mode = 4 ∨ (4 ≤ src.val ∧ s.pwr.mode = 3) then s else tamperDetect src s)

/-- TAMPER_SOURCE_INACTIVE (R389). -/
def execTamperSourceInactive (src : Fin 6) (s : State) : Res :=
  .next (if bit (rd F.KEY_TAMPER_STAT_ACTIVE s) src then
    s |> wr F.KEY_TAMPER_STAT_ACTIVE (putBit (rd F.KEY_TAMPER_STAT_ACTIVE s) src false) |> tamperQuiet (tamperLevel src s)
  else s)

/-- The end of L2's release time has come: no source of level L2 or above is active, nor was within the time that the plate
in force gives (R389). -/
def l2Due (s : State) : Bool :=
  (bitList (rd F.KEY_TAMPER_STAT_ACTIVE s) 6).all (fun x => decide (tamperLevel x s < 2))
    && cfgN C.keyPol 0 0 2 s != 0 && decide (s.key.quiet + cfgN C.keyPol 0 0 2 s * 1000000000 ≤ s.time.loc)

/-- L2_RELEASE (R389): L2 ends when its release time has passed. -/
def execL2Release (s : State) : Res :=
  .next (if rd F.KEY_TAMPER_STAT_LEVEL s = 2 ∧ l2Due s = true then
    s |> wr F.KEY_TAMPER_STAT_LEVEL 0 |> inc F.KEY_TAMPER_CNT_RELEASE else s)

/-- A copy without its key; the counter stays (R380). -/
def erasedCopy (c : KeyCopy) : KeyCopy := { key := [], attrs := c.attrs, counter := c.counter }

/-- Step 3 of every start: use counts resume from the reservations (R376), ONE_START keys are destroyed (R377), each slot's
higher copy is taken and the other erased when the hold-up check passes (R385), and volatile slots are empty. -/
def keyStart (s : State) : State :=
  let s := each (tkeys s.key.slots) (fun k s =>
    let x := kslot k s
    let x := { x with count := ((x.cur).map (fun (c : KeyCopy) => c.rsv)).getD 0 }
    let x := match x.cur with
      | some c => if bit c.attrs 10 then
          if x.useB then { x with b := some (erasedCopy c) } else { x with a := some (erasedCopy c) }
        else x
      | none => x
    if x.a.isSome && x.b.isSome then
      let (ok, s) := holdUpCheck 0 60 s
      kslotSet k (if ok then (if x.useB then { x with a := none } else { x with b := none }) else x) s
    else kslotSet k x s) s
  let s := { s with key := { s.key with vols := [] } }
  keyShow s |> lcShow |> each (List.range 4) fun n s => wr (F.KEY_UIDn_UID.u n) (Config.uidWord n) s

end Sys2Proof.Machine
end

