-- ==== Sys2Proof/Machine/Cipher.lean ====
section
/-! DEFINITION. The cipher request queue, the lane pairs with their check before release, the request windows, and inline
MACsec (12_cipher_engine.md, R396–R419). -/

namespace Sys2Proof.Machine

/-! ### Descriptors and modes (R402, R403) -/

/-- Mode of a request. -/
def CipReq.mode (r : CipReq) : Nat := byteAt r.desc 0
/-- Key slot of a request. -/
def CipReq.slot (r : CipReq) : Nat := leAt r.desc 2 2
/-- Tag length of a request. -/
def CipReq.tagLen (r : CipReq) : Nat := byteAt r.desc 6
/-- AAD of a request. -/
def CipReq.aad (r : CipReq) : List Byte := r.input.take (leAt r.desc 0x12 2)
/-- Data of a request. -/
def CipReq.data (r : CipReq) : List Byte := r.input.drop (leAt r.desc 0x12 2)
/-- IV field of a request. -/
def CipReq.iv (r : CipReq) : List Byte := slice r.desc 0x18 16
/-- The tag that a verify mode compares: the descriptor's, an HMAC's going on behind it. -/
def CipReq.tag (r : CipReq) : List Byte := (slice r.desc 0x28 24 ++ r.more).take r.tagLen

/-- The mode is one of R403. -/
def modeKnown (m : Nat) : Bool := decide (1 ≤ m) && decide (m ≤ 16)
/-- The usage bits of a mode, one of which the slot needs (R403). -/
def modeBits (m : Nat) : List Nat := match m with
  | 1 => [2, 3] | 2 => [2] | 3 => [3] | 4 => [4] | 5 => [5] | 6 => [4] | 7 => [5] | 8 => [2] | 9 => [3]
  | 10 => [2] | 11 => [3] | 12 => [2] | 13 => [3] | 15 => [4] | 16 => [5] | _ => []
/-- The length rule of a mode for its data (R403). -/
def modeLen (m n : Nat) : Bool := match m with
  | 4 => n == 0
  | 5 => n == 0
  | 8 => n % 16 == 0
  | 9 => n % 16 == 0
  | 10 => n % 16 == 0 && decide (16 ≤ n)
  | 11 => n % 16 == 0 && decide (16 ≤ n)
  | 12 => n % 8 == 0 && decide (16 ≤ n) && decide (n ≤ 4088)
  | 13 => n % 8 == 0 && decide (24 ≤ n)
  | _ => true
/-- The tag length is in the range of the mode (R402). -/
def modeTag (m t : Nat) : Bool :=
  if m = 15 ∨ m = 16 then decide (4 ≤ t) && decide (t ≤ 32)
  else if 2 ≤ m ∧ m ≤ 7 then decide (4 ≤ t) && decide (t ≤ 16) else t == 0
/-- A mode with additional authenticated data. -/
def modeAad (m : Nat) : Bool := decide (2 ≤ m) && decide (m ≤ 5)
/-- The bytes a mode writes to its output area. -/
def modeOut (m n t : Nat) : Nat := match m with
  | 4 => 0 | 5 => 0 | 6 => 0 | 7 => 0
  | 12 => n + 8 | 13 => n - 8 | 14 => 32 | 15 => t - 24 | 16 => 0 | _ => n

/-- The bytes of the output area that a request uses: its output, or the end of an HMAC tag that it verifies (R402). -/
def modeArea (d : List Byte) : Nat :=
  if byteAt d 0 = 16 then byteAt d 6 - 24 else modeOut (byteAt d 0) (leAt d 0x10 2) (byteAt d 6)

/-- The fields of a descriptor are in their ranges, and its output does not overlap its input other than exactly (R402,
R407). -/
def descOk (gv : Bool) (d : List Byte) : Bool :=
  let m := byteAt d 0
  let n := leAt d 0x10 2
  let a := leAt d 0x12 2
  let i := leAt d 8 4
  let o := leAt d 12 4
  let len := modeOut m n (byteAt d 6)
  let k := leAt d 2 2
  modeKnown m && (if m = 14 then k == 0xFFFF else decide (k < 0x140))
    && byteAt d 7 == 0 && leAt d 0x14 4 == 0 && decide (byteAt d 1 ≤ if gv then 2 else 0) && modeTag m (byteAt d 6) && decide (n + a ≤ 4096)
    && (modeAad m || a == 0) && modeLen m n && (len == 0 || o == i + a || decide (o + len ≤ i) || decide (i + a + n ≤ o))

/-- The owner bit of a requester (R375, R403). -/
def srcOwner (src : Nat) : Nat := if src < 16 then 16 else if src < 20 then 17 else 18

/-- The status of a request whose lanes agree, its slot blocked or not: the first row of R407 that applies. -/
def cipStatusOf (blocked : Bool) (r : CipReq) (s : State) : Status :=
  let k := slotKey r.slot s
  let attrs := ((slotCopy r.slot s).map (·.attrs)).getD 0
  let z := aSize attrs
  if !r.ok || (decide (r.kind ≤ 1) && !descOk (decide (r.src < 16)) r.desc) then .fault
  else if !r.perm then .denied
  else if r.mode = 14 then .ok
  else if tamperBlocks s || blocked then .denied
  else match k with
    | none => .absent
    | some _ =>
      if !bit attrs (srcOwner r.src) || !((modeBits r.mode).any (bit attrs)) || (if r.mode = 10 ∨ r.mode = 11 then z != 2 else decide (1 < z))
      then .denied else .ok

/-- The status of a request whose lanes agree (R407). -/
def cipStatus (r : CipReq) (s : State) : Status := cipStatusOf (slotBlocked r.slot s) r s

/-- The result of a request with its key (R403, R404). -/
def cipCompute (r : CipReq) (key : List Byte) : CipRes :=
  let t := r.tagLen
  let gen (tag : List Byte) (out : List Byte) : CipRes := { tag := tag.take t, out := out }
  let ver (tag : List Byte) (out : List Byte) : CipRes := { verdict := b2n (tag.take t != r.tag), out := out }
  let giv := r.iv.take 12
  let wiv := if r.iv.take 8 = zeros 8 then wrapIv else r.iv.take 8
  match r.mode with
  | 1 => { out := ctrMode 128 key r.iv r.data }
  | 2 => let c := gcmCrypt key giv r.data; gen (gcmTag key giv r.aad c) c
  | 3 => ver (gcmTag key giv r.aad r.data) (gcmCrypt key giv r.data)
  | 4 => gen (gcmTag key giv r.aad []) []
  | 5 => ver (gcmTag key giv r.aad []) []
  | 6 => gen (cmac key r.data) []
  | 7 => ver (cmac key r.data) []
  | 8 => { out := cbcEnc key r.iv r.data }
  | 9 => { out := cbcDec key r.iv r.data }
  | 10 => { out := xts true key r.iv r.data }
  | 11 => { out := xts false key r.iv r.data }
  | 12 => { out := keyWrapIv key wiv r.data }
  | 13 => let u := keyUnwrapIv key r.data; { verdict := b2n (u.1 != wiv), out := u.2 }
  | 14 => { out := sha256 r.data }
  | 15 => let h := (hmac key r.data).take t; { tag := h.take 24, out := h.drop 24 }
  | _ => ver (hmac key r.data) []

/-- The result of a request for a status, with the key in force now (R385, R408). -/
def cipResultOf (st : Status) (r : CipReq) (s : State) : CipRes := match st with
  | .ok => cipCompute r (((slotKey r.slot s).map (·.key)).getD [])
  | st => { status := st.code }

/-- The result that the lanes of a pair hold for a request, with the key in force now (R385, R408). -/
def cipResult (r : CipReq) (s : State) : CipRes := cipResultOf (cipStatus r s) r s

/-! ### The queue and the pairs (R396–R400) -/

/-- Pair n. -/
def pair (n : Nat) (s : State) : Pair := tget {} s.cip.pairs n
/-- Pair n changed. -/
def pairSet (n : Nat) (p : Pair) (s : State) : State := { s with cip := { s.cip with pairs := tput s.cip.pairs n p } }
/-- The state of pair n: 0 active, 1 testing, 2 fenced, 3 off. -/
def pairState (n : Nat) (s : State) : Nat := rd F.CIP_STAT_PAIRS s / 4 ^ n % 4
/-- The state of pair n changed. -/
def pairTo (n st : Nat) (s : State) : State := wr F.CIP_STAT_PAIRS (putBits (rd F.CIP_STAT_PAIRS s) (2 * n) 2 st) s
/-- The waiting counts of CIP_STAT. -/
def cipShow (s : State) : State :=
  s |> wr F.CIP_STAT_RSV_Q s.cip.rsvQ.length |> wr F.CIP_STAT_BULK_Q s.cip.bulkQ.length

/-- A request waits behind those of earlier ticks and, in its own tick, behind lower sources (R400). -/
def cipInsert (r : CipReq) : List CipReq → List CipReq
  | [] => [r]
  | x :: t => if x.tick = r.tick ∧ r.src < x.src then r :: x :: t else x :: cipInsert r t

/-- Put bytes into a frame or DMEM of a graver context, or into a request window (R402). Space 0 is DMEM, 1 and 2 the
slots. -/
def cipPut (r : CipReq) (space o : Nat) (b : List Byte) (s : State) : State :=
  if r.src < 16 then
    let x := ctx r.src r.ctx s
    match space with
    | 0 => engSet r.src { eng r.src s with dmem := mboxPut o b (eng r.src s).dmem } s
    | 1 => (match x.f0 with | .loc f c => ctxSet r.src r.ctx { x with f0 := .loc { f with data := spliceAt f.data o b } c } s | _ => s)
    | _ => (match x.f1 with | .loc f c => ctxSet r.src r.ctx { x with f1 := .loc { f with data := spliceAt f.data o b } c } s | _ => s)
  else
    let w := if r.src = 20 then 0 else r.src - 15
    { s with cip := { s.cip with buf := mboxPut (8192 * w + o) b s.cip.buf } }

/-- The output, and in the descriptor the status, the verdict and a generated tag, as the pair writes them back (R402). -/
def cipWriteBack (r : CipReq) (x : CipRes) (s : State) : State :=
  let s := if x.status = 0 ∧ x.out ≠ [] then cipPut r (byteAt r.desc 1) (leAt r.desc 12 4) x.out s else s
  cipPut r 0 (r.addr + 0x28) x.tag (cipPut r 0 (r.addr + 4) (leBytes 1 x.status ++ leBytes 1 x.verdict) s)

/-- The counts of a completed request of pair n (R407). -/
def cipCount (n : Nat) (x : CipRes) (s : State) : State :=
  let s := s |> incWrap (F.CIP_PAIRn_REQ_COUNT.u n)
  let s := if x.status = 4 then inc (F.CIP_PAIRn_ERR_FAULTS.u n) s
    else if x.status = 2 then s |> inc F.CIP_DENIED_DENIED |> inc F.KEY_USE_DENIED_COUNT
    else if x.status = 3 then s |> inc F.CIP_DENIED_ABSENT |> inc F.KEY_USE_DENIED_COUNT else s
  if x.verdict = 1 then inc F.CIP_VERIFY_FAIL_COUNT s else s

/-- A result leaves its pair, with the counts of R407. -/
def cipRelease (n : Nat) (r : CipReq) (x : CipRes) (s : State) : State :=
  let s := cipCount n x s
  -- the result of a graver request whose context has ended by a fault is discarded (R338)
  let wanted := decide (16 ≤ r.src) || (ctx r.src r.ctx s).stall == .cipher r.id
  let s := if r.kind ≤ 1 && wanted then cipWriteBack r x s else s
  if r.src < 16 then (if wanted then { s with cip := { s.cip with done := tput s.cip.done r.id x } } else s)
  else wr (F.CIP_WINw_STAT_STATUS.u (if r.src = 20 then 0 else r.src - 15)) x.status s

/-- A pair can still serve requests of a part: the reserved pair, or some bulk pair (R406). -/
def cipServed (rsv : Bool) (s : State) : Bool :=
  if rsv then pairState 0 s != 2 else [1, 2, 3].any fun n => pairState n s != 2

/-- A request enters the queue; with every pair that could serve it fenced it is answered FAULT (R399, R406). -/
def cipSubmit (r : CipReq) (s : State) : Nat × State :=
  let r := { r with id := s.cip.nextId, tick := s.time.loc }
  let s := { s with cip := { s.cip with nextId := s.cip.nextId + 1 } }
  let rsv := decide (r.src < 4)
  (r.id, if !cipServed rsv s then cipRelease (if rsv then 0 else 1) r { status := Status.fault.code } s
    else cipShow (if rsv then { s with cip := { s.cip with rsvQ := cipInsert r s.cip.rsvQ } }
      else { s with cip := { s.cip with bulkQ := cipInsert r s.cip.bulkQ } }))

/-- The bulk pair that serves cipher queue 768 + j: its own, or the next in order that is not fenced (R411). -/
def jobPair (j : Nat) (s : State) : Option Nat := [j % 3 + 1, (j + 1) % 3 + 1, (j + 2) % 3 + 1].find? fun n => pairState n s != 2

/-- The cipher queues bound to pair n that hold a frame (R400, R411). -/
def jobQueues (n : Nat) (s : State) : List Nat :=
  ((List.range 32).filter fun j => jobPair j s == some n && !(qu (768 + j) s).ents.isEmpty).map (768 + ·)

/-- A bulk pair is free. -/
def pairFree (n : Nat) (s : State) : Bool := pairState n s == 0 && (pair n s).run.isNone

/-- The request that pair n takes next (R397, R400): CC0's first; then frame jobs, which are taken by their own command;
then the others, by the first free bulk pair. -/
def pairNext (n : Nat) (s : State) : Option CipReq :=
  if !pairFree n s then none
  else if n = 0 then s.cip.rsvQ.head?
  else match s.cip.bulkQ.find? fun r => r.src == 16 with
    | some r => some r
    | none => if !(jobQueues n s).isEmpty ∨ (List.range n).any (fun m => m != 0 && pairFree m s && (jobQueues m s).isEmpty) then none else s.cip.bulkQ.head?

/-- Remove a request from the queue. -/
def cipRemove (r : CipReq) (s : State) : State :=
  cipShow { s with cip := { s.cip with rsvQ := s.cip.rsvQ.filter (·.id != r.id), bulkQ := s.cip.bulkQ.filter (·.id != r.id) } }

/-- The slot's key schedule is cached as the latest of four (R398). -/
def cipCache (n slot : Nat) (s : State) : State :=
  pairSet n { pair n s with keys := (slot :: (pair n s).keys.filter (· != slot)).take 4 } s

/-- Pair n takes its next request when it is of mode m: the key in force now applies, and the unchecked result stays on the
lanes (R385, R404, R408). -/
def cipRun (m n : Nat) (s : State) : State := match pairNext n s with
  | none => s
  | some r =>
    if r.mode ≠ m then s
    else
      let ok := cipStatus r s = .ok
      let (go, s') := if ok ∧ m ≠ 14 then useCount r.slot s else (true, s)
      if !go then s'
      else
        let x := cipResult r s
        let s' := cipRemove r s'
        let s' := if ok ∧ m ≠ 14 then cipCache n r.slot s' else s'
        pairSet n { pair n s' with run := some (r, x) } s'

/-- CTR (R403). -/
def execCtr (pair : Fin 4) (s : State) : Res := .next (cipRun 1 pair s)
/-- GCM_ENCRYPT (R403). -/
def execGcmEncrypt (pair : Fin 4) (s : State) : Res := .next (cipRun 2 pair s)
/-- GCM_DECRYPT_AND_VERIFY (R403). -/
def execGcmDecryptAndVerify (pair : Fin 4) (s : State) : Res := .next (cipRun 3 pair s)
/-- GMAC_GENERATE (R403). -/
def execGmacGenerate (pair : Fin 4) (s : State) : Res := .next (cipRun 4 pair s)
/-- GMAC_VERIFY (R403). -/
def execGmacVerify (pair : Fin 4) (s : State) : Res := .next (cipRun 5 pair s)
/-- CMAC_GENERATE (R403). -/
def execCmacGenerate (pair : Fin 4) (s : State) : Res := .next (cipRun 6 pair s)
/-- CMAC_VERIFY (R403). -/
def execCmacVerify (pair : Fin 4) (s : State) : Res := .next (cipRun 7 pair s)
/-- CBC_ENCRYPT (R403). -/
def execCbcEncrypt (pair : Fin 4) (s : State) : Res := .next (cipRun 8 pair s)
/-- CBC_DECRYPT (R403). -/
def execCbcDecrypt (pair : Fin 4) (s : State) : Res := .next (cipRun 9 pair s)
/-- XTS_ENCRYPT (R403). -/
def execXtsEncrypt (pair : Fin 4) (s : State) : Res := .next (cipRun 10 pair s)
/-- XTS_DECRYPT (R403). -/
def execXtsDecrypt (pair : Fin 4) (s : State) : Res := .next (cipRun 11 pair s)
/-- KEY_WRAP (R403). -/
def execKeyWrap (pair : Fin 4) (s : State) : Res := .next (cipRun 12 pair s)
/-- KEY_UNWRAP (R403). -/
def execKeyUnwrap (pair : Fin 4) (s : State) : Res := .next (cipRun 13 pair s)
/-- SHA_256 (R403). -/
def execSha256 (pair : Fin 4) (s : State) : Res := .next (cipRun 14 pair s)
/-- HMAC_SHA_256_GENERATE (R403). -/
def execHmacSha256Generate (pair : Fin 4) (s : State) : Res := .next (cipRun 15 pair s)
/-- HMAC_SHA_256_VERIFY (R403). -/
def execHmacSha256Verify (pair : Fin 4) (s : State) : Res := .next (cipRun 16 pair s)

/-! ### Checking before release (R404–R406) -/

/-- With no pair left for a part, its waiting requests are answered FAULT (R406). -/
def cipStrand (n : Nat) (s : State) : State :=
  let l := if n = 0 then s.cip.rsvQ else if cipServed false s then [] else s.cip.bulkQ
  each l (fun r s => cipRelease n r { status := Status.fault.code } (cipRemove r s)) s

/-- Pair n is fenced until the next WRST (R406). -/
def pairFence (n : Nat) (s : State) : State := s |> pairTo n 2 |> record 0x0801 n 1 |> cipStrand n

/-- A disagreement of pair n (R405): its keys are zeroised and the mismatch is counted. -/
def pairMismatch (n : Nat) (s : State) : State :=
  pairSet n { pair n s with keys := [] } s |> inc (F.CIP_PAIRn_ERR_MISMATCH.u n) |> record 0x0801 n 0

/-- The result of a request run again with the key now in force; its use was granted and counted before (R376, R405). -/
def cipAgain (r : CipReq) (s : State) : CipRes := cipResultOf (cipStatusOf false r s) r s

/-- A rerun of pair n disagreed too, or its known-answer test failed: the counts of R405 and R406. -/
def pairFailed (katPass : Bool) (n : Nat) (s : State) : State :=
  if katPass then pairMismatch n s else inc (F.CIP_PAIRn_ERR_KAT_FAIL.u n) s

/-- The lanes of pair n compare their result: released when they agree, discarded and rerun with the key now in force
when they do not, FAULT and a fence when that fails too (R404–R406). -/
def pairCheck (n : Nat) (c : LaneCheck) (s : State) : State := match (pair n s).run with
  | none => (match pairNext n s with
    | some r => if modeKnown r.mode then s else cipRelease n r { status := Status.fault.code } (cipRemove r s)
    | none => s)
  | some (r, x) =>
    let s := pairSet n { pair n s with run := none } s
    if x.status ≠ 0 then cipRelease n r x s
    else match c with
      | .agree => cipRelease n r x s
      | .differ katPass again =>
        let s := pairMismatch n s
        if katPass && !again then
          let s := if r.mode = 14 then s else cipCache n r.slot s
          cipRelease n r (cipAgain r s) s
        else pairFence n (cipRelease n r { status := Status.fault.code } (pairFailed katPass n s))

/-- CHECKING_BEFORE_RELEASE (R404). -/
def execCheckingBeforeRelease (pair : Fin 4) (c : LaneCheck) (s : State) : Res := .next (pairCheck pair c s)

/-! ### Request windows (R409, R410) -/

/-- n bytes of window w from offset o. -/
def winBytes (w o n : Nat) (s : State) : List Byte := (List.range n).map fun i => tget 0 s.cip.buf (8192 * w + o + i)

/-- A GO write to window w (0 host, 1–4 cores), with the status an xSPI write returns (R409). -/
def winGo (w : Nat) (perm : Bool) (v : Nat) (s : State) : Status × State :=
  if !bit v 0 then (.ok, s)
  else if rd (F.CIP_WINw_STAT_STATUS.u w) s = 1 then (.busy, inc (F.CIP_WINw_STAT_REFUSED.u w) s)
  else
    let d := winBytes w 0 64 s
    let i := leAt d 8 4
    let o := leAt d 12 4
    let n := leAt d 0x12 2 + leAt d 0x10 2
    let out := modeArea d
    let r : CipReq := { id := 0, src := if w = 0 then 20 else 15 + w, desc := d, input := winBytes w i n s,
                        more := winBytes w o 8 s, ok := decide (i + n ≤ 8192) && decide (o + out ≤ 8192), perm := perm }
    (.ok, (cipSubmit r (wr (F.CIP_WINw_STAT_STATUS.u w) 1 s)).2)

/-! ### Inline MACsec (R413–R418) -/

/-- Field o of width w of port p's MACSEC record (R419). -/
def msN (p o w : Nat) (s : State) : Nat := cfgN C.msPort p o w s
/-- A flag of the record. -/
def msFlag (p n : Nat) (s : State) : Bool := bit (msN p 3 1 s) n
/-- XPN suites. -/
def msXpn (p : Nat) (s : State) : Bool := decide (2 ≤ msN p 1 1 s)
/-- The last packet number of a port's suite. -/
def msPnMax (p : Nat) (s : State) : Nat := if msXpn p s then 2 ^ 64 - 1 else 2 ^ 32 - 1
/-- The secure association at index i of port p (R523). -/
def msSa (p i : Nat) (s : State) : Option Sa := tfind s.cip.sas (64 * p + i)
/-- The SA at index i of port p changed. -/
def msSaSet (p i : Nat) (x : Sa) (s : State) : State := { s with cip := { s.cip with sas := tput s.cip.sas (64 * p + i) x } }
/-- CIP_MSpp_STAT. -/
def msShow (p : Nat) (s : State) : State :=
  s |> wrB (F.CIP_MSpp_STAT_EN.u p) (macsecOn p s)
    |> wrB (F.CIP_MSpp_STAT_TX_SA.u p) (msSa p (rd (F.CIP_MSpp_STAT_TX_AN.u p) s) s).isSome
    |> wr (F.CIP_MSpp_STAT_RX_SAS.u p) ((List.range 32).filter fun i => (msSa p (4 + i) s).isSome).length

/-- The GCM IV of a frame (R413). -/
def msIv (xpn : Bool) (x : Sa) (pn : Nat) : List Byte :=
  if xpn then xorBytes (beBytes 4 x.ssci ++ beBytes 8 pn) x.salt else beBytes 8 x.sci ++ beBytes 4 pn

/-- A frame that passes in the clear (R415). -/
def msClear (p : Nat) (d : List Byte) (s : State) : Bool := frEt d == 0x888E || (frEt d == 0x88F7 && msFlag p 1 s)

/-- Protect a frame (without its FCS) that port p sends: none when it is dropped (R414–R417). -/
def msProtect (p : Nat) (d : List Byte) (s : State) : Option (List Byte) × State :=
  if !macsecOn p s || msClear p d s then (some d, s)
  else
    let an := rd (F.CIP_MSpp_STAT_TX_AN.u p) s
    match msSa p an s with
    | none => (none, inc (F.CIP_MSpp_TXDROP_NO_SA.u p) s)
    | some x =>
      if msPnMax p s < x.nextPn then (none, inc (F.CIP_MSpp_TXDROP_PN_EXH.u p) s)
      else
        let sci := msFlag p 0 s
        let conf := msFlag p 3 s
        let user := d.drop 12
        let tci := 32 * b2n sci + (if conf then 12 else 0) + an
        let tag := beBytes 2 0x88E5 ++ beBytes 1 tci ++ beBytes 1 (if user.length < 48 then user.length else 0)
          ++ beBytes 4 (x.nextPn % 2 ^ 32) ++ (if sci then beBytes 8 x.sci else [])
        let o := if conf then min (msN p 4 1 s) user.length else user.length
        let iv := msIv (msXpn p s) x x.nextPn
        let clear := d.take 12 ++ tag ++ user.take o
        let c := gcmCrypt x.key iv (user.drop o)
        let out := clear ++ c ++ gcmTag x.key iv clear c
        if portMax p s < out.length + 4 then (none, inc (F.CIP_MSpp_TXDROP_OVERSIZE.u p) s)
        else (some out, incWrap (F.CIP_MSpp_TX_COUNT.u p) (msSaSet p an { x with nextPn := x.nextPn + 1 } s)
          |> when (msPnMax p s + 1 == x.nextPn + msN p 0x0C 4 s) (emit (.sakRequest p)))

/-- The whole packet number that the 32 bits of a SecTAG stand for. -/
def msPn (xpn : Bool) (next low : Nat) : Nat :=
  if !xpn then low
  else
    let hi := next / 2 ^ 32
    let nl := next % 2 ^ 32
    (if 2 ^ 31 ≤ nl ∧ low < nl - 2 ^ 31 then hi + 1 else hi) * 2 ^ 32 + low

/-- Validate a frame (without its FCS) that port p receives (R415, R417): the frame that goes on, none when it is dropped
at once, and whether it is bad and must be dropped or marked at its tail. -/
def msValidate (p : Nat) (d : List Byte) (s : State) : Option (List Byte) × Bool × State :=
  let mode := msN p 2 1 s
  if !macsecOn p s || msClear p d s then (some d, false, s)
  else if beAt d 12 2 ≠ 0x88E5 then
    if mode = 2 then (none, true, inc (F.CIP_MSpp_RXERR_NO_SA.u p) s) else (some d, false, s)
  else
    let tci := byteAt d 14
    let hasSci := bit tci 5
    let o := if hasSci then 28 else 20
    let body := (d.drop o).take (d.length - o - 16)
    let icv := slice d (d.length - 16) 16
    let plain := d.take 12 ++ body
    if mode = 0 then (some plain, false, s)
    else
      let an := tci % 4
      let sci := beAt d 20 8
      match (List.range 8).find? fun c => match msSa p (4 + 4 * c + an) s with
        | some x => !hasSci || x.sci == sci
        | none => false with
      | none => (none, true, inc (F.CIP_MSpp_RXERR_NO_SA.u p) s)
      | some c =>
        let i := 4 + 4 * c + an
        match msSa p i s with
        | none => (none, true, s)
        | some x =>
          let pn := msPn (msXpn p s) x.nextPn (beAt d 16 4)
          let conf := bit tci 3
          let off := if conf then min (msN p 4 1 s) body.length else body.length
          let iv := msIv (msXpn p s) x pn
          let clear := d.take o ++ body.take off
          let good := gcmTag x.key iv clear (body.drop off) == icv
          let out := d.take 12 ++ body.take off ++ gcmCrypt x.key iv (body.drop off)
          let replay := msFlag p 2 s && decide (pn + msN p 8 4 s < x.nextPn)
          if !good then (some out, mode == 2, inc (F.CIP_MSpp_RXERR_ICV.u p) s)
          else if replay then (some out, mode == 2, inc (F.CIP_MSpp_RXERR_REPLAY.u p) s)
          else (some out, false, incWrap (F.CIP_MSpp_RX_COUNT.u p) (msSaSet p i { x with nextPn := max x.nextPn (pn + 1) } s))

/-- The attribute word of a slot that MKA fills with a SAK (R416): MACSEC and BY_MACSEC. -/
def sakAttrs (len : Nat) : Nat := (if len = 16 then 0 else 1) + 2 ^ 9 + 2 ^ 20

/-- SAK_INSTALLATION (R413, R416): the SAK enters its volatile slot and the SA entry is written, the transmit SA with the SCI
of the port record; a receive SC beyond the record's count has no entry. -/
def execSakInstallation (port : Fin 16) (sa : SaInstall) (s : State) : Res :=
  guardWf ((sa.key.length == 16 || sa.key.length == 32) && sa.salt.length == 12) "SA key" (.next (
    if !macsecOn port s || (!sa.tx && decide (msN port 5 1 s ≤ sa.sc.val)) then s
    else
      let s := vslotSet sa.slot { key := sa.key, attrs := sakAttrs sa.key.length } s
      let i := if sa.tx then sa.an.val else 4 + 4 * sa.sc + sa.an
      let sci := if sa.tx then beNat (slice (cfgRec C.msPort port s) 0x10 8) else sa.sci
      msShow port (msSaSet port i { an := sa.an, slot := vs sa.slot, nextPn := sa.nextPn, ssci := sa.ssci, sci := sci,
                                     salt := sa.salt, key := sa.key } s)))

/-- SA_SWITCH (R417): the transmit SA from the next frame. -/
def execSaSwitch (port : Fin 16) (an : Fin 4) (s : State) : Res :=
  .next (if macsecOn port s then msShow port (wr (F.CIP_MSpp_STAT_TX_AN.u port) an s) else s)

/-- The pairs that are not fenced turn off or on with the domain (R24). -/
def pairsPower (on : Bool) (s : State) : State :=
  each (List.range 4) (fun n s => if pairState n s = (if on then 3 else 0) then pairTo n (if on then 0 else 3) s else s) s

/-- The CIP domain loses its state (R418): no SA, empty queue, zeroised lanes; the requests it held are answered FAULT (log
entry 81). -/
def cipLost (s : State) : State :=
  let held := s.cip.rsvQ ++ s.cip.bulkQ ++ s.cip.pairs.filterMap fun p => p.2.run.map (·.1)
  let s := each held (fun r s => cipRelease (if r.src < 4 then 0 else 1) r { status := Status.fault.code } s) s
  let s := { s with cip := { s.cip with rsvQ := [], bulkQ := [], pairs := [], sas := [] } }
  each (List.range 16) msShow (cipShow s)

end Sys2Proof.Machine
end

