-- ==== Sys2Proof/Machine/Submit.lean ====
section
/-! DEFINITION. Frames that enter the switch core from the graver, host, control-core and cipher nodes, and the Almoith
messages the device sends (R137, R444–R450, R468). -/

namespace Sys2Proof.Machine

/-! ### Entering a node's staging (R127, R162) -/

/-- The frames in staging at a node, oldest first. -/
def staged (node : Nat) (s : State) : List Nat := (tget [] s.qm.stage node).filter fun f => (tfind s.qm.frames f).isSome
/-- A frame joins a node's staging. -/
def stagePush (node f : Nat) (s : State) : State :=
  { s with qm := { s.qm with stage := tput s.qm.stage node (staged node s ++ [f]) } }
/-- A frame leaves a node's staging. -/
def stageDrop (node f : Nat) (s : State) : State :=
  { s with qm := { s.qm with stage := tput s.qm.stage node ((staged node s).filter (· != f)) } }

/-- An Ethernet frame with its padding and FCS (R444). -/
def ethFrame (d : List Byte) : List Byte :=
  let d := d ++ zeros (60 - d.length)
  d ++ fcsBytes d

/-- The cells a frame needs are free in its pool (R125, R334). -/
def cellsFree (rsv : Bool) (need : Nat) (s : State) : Bool := if rsv then decide (need ≤ rsvFree s) else decide (need ≤ bulkFree s)

/-- The lookup data of a directed frame (R162, R163). -/
def directedKind : Nat := 4 * 8192 + 0xFFF

/-- The cells of a node's staged frames that have not yet left it, of stipple-bound or of bulk frames (R127). -/
def unwritten (rsv : Bool) (node : Nat) (s : State) : Nat :=
  (((staged node s).filter fun f => (fr f s).rsv == rsv).map fun f => (fr f s).need - (fr f s).cells.length - (fr f s).skip).sum

/-- The staging of FN7 to FN10 is full: the sources wait (R127). Stipple-bound frames have their own share of it, since
they wait for no bulk cell (R27, R35; DEDUCED). -/
def sourceWaits (rsv : Bool) (node : Nat) (s : State) : Bool := decide (16 ≤ unwritten rsv node s)

/-- A frame whose destinations are known enters a node: the queues that admit it will link it once its cells are written
(R137, R140, R141). None when no queue admits it, it is longer than the buffer stores (R124) or it finds no descriptor or
entries. A source that keeps a refused frame (`keep`) is told also when no cells are free (R334). -/
def submitAs (keep : Bool) (node : Nat) (x : Fr) (s : State) : Option Nat × State :=
  if 16384 < x.data.length then (none, inc F.FAB_STAGE_DROP_COUNT s)
  else
    let need := cellsOf x.data.length
    let (ds, s) := admitAll keep need x.cls (x.noEvict || x.exempt) x.dests s
    if ds = [] then (none, when (!keep) (dropThr x.dests) s)
    else match admitLinks need ds s with
      | (false, s) => (none, s)
      | (true, s) =>
        let (f, s) := newFrame { x with need := need, dests := ds, refs := ds.length, phase := 1 } s
        (some f, bulkMark (stagePush node f s))

/-- A frame of a source that gives it up when it is refused. -/
def submit (node : Nat) (x : Fr) (s : State) : Option Nat × State := submitAs false node x s

/-- A frame that enters a node and has to be looked up as a frame of port 0xFF (R162, R412, R482); none when it is longer
than the buffer stores (R124). -/
def submitLookup (node : Nat) (x : Fr) (s : State) : Option Nat × State :=
  if 16384 < x.data.length then (none, inc F.FAB_STAGE_DROP_COUNT s)
  else
    let (f, s) := newFrame { x with need := cellsOf x.data.length, phase := 0 } s
    (some f, stagePush node f s)

/-! ### Peers (R450, R468) -/

/-- This device's node ID (R58). -/
def ownNode (s : State) : Nat := cfgN C.system 0 0 2 s
/-- The peer records. -/
def peers (s : State) : List Nat := cfgIdx C.almPeer s
/-- Field o of width w of peer record i. -/
def peerN (i o w : Nat) (s : State) : Nat := cfgN C.almPeer i o w s
/-- Node ID of a peer record. -/
def peerNode (i : Nat) (s : State) : Nat := peerN i 0 2 s
/-- Port of a peer record. -/
def peerPort (i : Nat) (s : State) : Nat := peerN i 3 1 s
/-- A peer record is that of a ring neighbour. -/
def peerRing (i : Nat) (s : State) : Bool := bit (peerN i 2 1 s) 0
/-- The link of a peer record is under MACsec. -/
def peerSec (i : Nat) (s : State) : Bool := bit (peerN i 2 1 s) 1
/-- The peer record of a node. -/
def peerOf (node : Nat) (s : State) : Option Nat := (peers s).find? fun i => peerNode i s == node
/-- The ring neighbours' peer records: the ring links. -/
def ringLinks (s : State) : List Nat := (peers s).filter (peerRing · s)
/-- The peer record of the neighbour at a port. -/
def peerAt (port : Nat) (s : State) : Option Nat := (ringLinks s).find? fun i => peerPort i s == port

/-- The key of a slot when its attributes let a control core make and check tags with it (R447). -/
def tagKey (slot : Nat) (s : State) : Option (List Byte) := match slotKey slot s with
  | some c => if bit c.attrs 4 && bit c.attrs 5 && bit c.attrs 17 && !tamperBlocks s && !slotBlocked slot s then some c.key else none
  | none => none

/-- Take the key of a slot for one tag: the use counts, and a use whose reservation cannot be written gives no key (R376,
R447, log entry 80). -/
def tagUse (slot : Nat) (s : State) : Option (List Byte) × State := match tagKey slot s with
  | none => (none, s)
  | some k => match useCount slot s with
    | (true, s) => (some k, s)
    | (false, s) => (none, s)

/-! ### Sending (R444–R449, R498) -/

/-- One message has been numbered (R448): after 2²⁴ messages the start counter moves on. -/
def almNumbered (s : State) : State :=
  let n := s.alm.used + 1
  if n = 2 ^ 24 then (mramNow (.linkStart (s.mram.linkStart + 1)) { s with alm := { s.alm with used := n, ready := false } }).2
  else { s with alm := { s.alm with used := n, seq := (s.alm.seq + 1) % 2 ^ 32 } }

/-- The start counter moves on at a start and at a rebase (R448, R449). -/
def almRebase (s : State) : State :=
  (mramNow (.linkStart (s.mram.linkStart + 1)) { s with alm := { s.alm with ready := false } }).2

/-- The bytes of a message behind the Ethernet header: header, body and tag (R444, R447). -/
def almBytes (type flags : Nat) (body : List Byte) (key : Option (List Byte)) (s : State) : List Byte :=
  let fl := flags + (if key.isNone then 4 else 0) + (if s.alm.resync then 8 else 0)
  let h := leBytes 1 (16 + type) ++ leBytes 1 fl ++ leBytes 2 (ownNode s) ++ leBytes 4 s.alm.seq ++ leBytes 2 body.length
  match key with
  | some k => h ++ body ++ cmac k (h ++ body)
  | none => h ++ body

/-- Send a message out of a port (R446): MACs, VLAN, the class of the section, and the tag's key; none under MACsec. The
answer says whether it was enqueued. -/
def almOut (port vlan : Nat) (dst : List Byte) (type flags : Nat) (body : List Byte) (key : Option (List Byte)) (s : State) :
    Bool × State :=
  if !s.alm.ready then (false, s)
  else
    let cls := cfgN C.almHdr 0 3 1 s % 8
    let src := beBytes 6 (routerMac s)
    let tag := if vlan = 0 then [] else beBytes 2 0x8100 ++ beBytes 2 (cls * 8192 + vlan % 4096)
    let d := dst ++ src ++ tag ++ beBytes 2 (almEt s) ++ almBytes type flags body key s
    let prot := type == 0 || type == 1 || type == 10
    let s := almNumbered s
    let (r, s) := submit 9 { data := ethFrame d, src := 9 * 4096, cls := cls, noEvict := prot, vlan := vlan, lookup := directedKind, untag := true,
                             dests := [(8 * port + cls, false, 0)] } s
    (r.isSome, s)

/-- The group MAC of the link (R445). -/
def groupMac (s : State) : List Byte := slice (cfgRec C.almHdr 0 s) 4 6

/-- Send to a peer record: hop messages to the group MAC, directed ones to the peer's. A link without MACsec whose key
slot gives no key sends nothing (R447). -/
def almTo (i type flags : Nat) (body : List Byte) (s : State) : Bool × State :=
  let hop := type ≤ 3 || type == 8 || type == 10
  let dst := if hop then groupMac s else slice (cfgRec C.almPeer i s) 4 6
  if peerSec i s then almOut (peerPort i s) (peerN i 10 2 s) dst type flags body none s
  else match tagUse (peerN i 12 2 s) s with
    | (some k, s) => almOut (peerPort i s) (peerN i 10 2 s) dst type flags body (some k) s
    | (none, s) => (false, s)

/-- Send on every ring link but those in `skip`. -/
def almRing (skip : List Nat) (type flags : Nat) (body : List Byte) (s : State) : State :=
  each ((ringLinks s).filter fun i => !skip.contains i) (fun i s => (almTo i type flags body s).2) s

/-! ### Node policy (R467) -/

/-- The leaf of a node (R463). -/
def leaf (n : Nat) (s : State) : Leaf := tget {} s.alm.leaves n
/-- The policy code in force for node n: that of its state in this device's view; none for SILENT before one silence time
has passed (R462, R467). -/
def nodeAction (n : Nat) (s : State) : Nat :=
  let p := cfgN C.roster n 0x25 1 s
  if !cfgHas C.roster n s then 0
  else match (leaf n s).st with
    | 0 => 0
    | 1 => p % 4
    | 2 => p / 4 % 4
    | _ => if s.alm.spoken.contains n then p / 16 % 4 else 0
/-- A node is refused (R467). -/
def nodeRefused (n : Nat) (s : State) : Bool := nodeAction n s == 2

end Sys2Proof.Machine
end

