-- ==== Sys2Proof/Machine/SigStore.lean ====
section
/-! DEFINITION. The signal store: definitions, entries and the status as read (08_signal_gateway.md, R276–R283, R467). -/

namespace Sys2Proof.Machine

/-- Field o of width w of signal definition i (R312). -/
def sigN (i o w : Nat) (s : State) : Nat := cfgN C.sigDef i o w s
/-- Number of signals defined. -/
def sigCount (s : State) : Nat := cfgN C.sigHdr 0 0 4 s
/-- The type code of a signal (R279): 4 is an array. -/
def sigType (i : Nat) (s : State) : Nat := sigN i 0 1 s
/-- The width of a signal: bits, or bytes of an array. -/
def sigWidth (i : Nat) (s : State) : Nat := sigN i 2 2 s
/-- The substitute value. -/
def sigSubst (i : Nat) (s : State) : Nat := sigN i 8 8 s
/-- The node that owns a signal, when it is another one (R282). -/
def sigOwner (i : Nat) (s : State) : Option Nat :=
  let o := sigN i 6 2 s
  if o = 0xFFFF ∨ o = ownNode s then none else some o
/-- The entry of signal i. -/
def sigEnt (i : Nat) (s : State) : SigEnt := tget {} s.sig.store i
/-- The entry changed. -/
def sigSet (i : Nat) (x : SigEnt) (s : State) : State := { s with sig := { s.sig with store := tput s.sig.store i x } }

/-- A value brought to the value field of a type (R279): the width's bits, a signed one sign-extended. -/
def sigFit (ty w v : Nat) : Nat := match ty with
  | 0 => v % 2 ^ w
  | 1 => twos 64 (sext w v)
  | 2 => v % 2 ^ 32
  | _ => v % 2 ^ 64

/-- The offset of an array signal in the array area: array signals lie one after the other in index order. -/
def sigArrayAt (i : Nat) (s : State) : Nat :=
  (((cfgIdx C.sigDef s).filter fun j => j < i && sigType j s == 4).map (sigWidth · s)).sum

/-- The value field of an entry (R279): of an array, its offset and length. -/
def sigVal (i : Nat) (s : State) : Nat :=
  if sigType i s = 4 then sigArrayAt i s + 2 ^ 32 * sigWidth i s else (sigEnt i s).val
/-- The bytes of an array signal. -/
def sigArr (i : Nat) (s : State) : List Byte := slice (sigEnt i s).arr 0 (sigWidth i s)
/-- The value that a reader of eight bytes sees: of an array, its first eight bytes (R310, R452). -/
def sigShown (i : Nat) (s : State) : Nat := if sigType i s = 4 then leAt (sigArr i s) 0 8 else (sigEnt i s).val

/-- VALID is set (R278). -/
def sigValid (i : Nat) (s : State) : Bool := bit (sigEnt i s).status 0
/-- STALE as evaluated at a read (R278, R283). -/
def sigStale (i : Nat) (s : State) : Bool :=
  !sigValid i s || (sigN i 4 2 s != 0 && decide (sigN i 4 2 s * 100000 < shortNs s - (sigEnt i s).time))

/-- The mappings of PDU p, by number (R312). -/
def pduMaps (p : Nat) (s : State) : List Nat := (List.range (pduN p 0x1A 2 s)).map fun k => pduN p 0x18 2 s + k
/-- The signal of mapping m. -/
def mapSig (m : Nat) (s : State) : Nat := cfgN C.sigMap m 0 2 s
/-- The receive PDUs that map signal i. -/
def sigSources (i : Nat) (s : State) : List Nat :=
  (cfgIdx C.sigPdu s).filter fun p => pduMode p s == 5 && (pduMaps p s).any fun m => mapSig m s == i

/-- CONFIG_MISMATCH (R278, R467): the owner of a remote signal, or the source node of a receive PDU that maps it, is under
policy code 1 or 2. -/
def sigMismatch (i : Nat) (s : State) : Bool :=
  (match sigOwner i s with | some n => nodeAction n s != 0 && nodeAction n s != 3 | none => false)
    || (sigSources i s).any fun p => pduN p 0x20 2 s != 0xFFFF && (nodeAction (pduN p 0x20 2 s) s == 1 || nodeAction (pduN p 0x20 2 s) s == 2)

/-- CONTAINED (R257, R278): the channel of the last writing receive PDU is contained now. -/
def sigContained (i : Nat) (s : State) : Bool :=
  let w := (sigEnt i s).writer
  sigValid i s && decide (w < 0x2000) && match pduN w 4 1 s with
    | 0 => rdB (F.FLD_CANnn_STAT_CONTAINED.u (pduN w 5 1 s)) s
    | 1 => rdB (F.FLD_LINnn_STAT_CONTAINED.u (pduN w 5 1 s)) s
    | _ => false

/-- The status of an entry as a reader finds it (R278). -/
def sigStatus (i : Nat) (s : State) : Nat :=
  (sigEnt i s).status + 2 * b2n (sigStale i s) + 16 * b2n (sigMismatch i s) + 32 * b2n (sigContained i s)
    + 128 * b2n (sigOwner i s).isSome

/-- The age of an entry [ns]. -/
def sigAge (i : Nat) (s : State) : Nat := shortNs s - (sigEnt i s).time

/-- The 32 bytes of an entry (R277). -/
def sigBytes (i : Nat) (s : State) : List Byte :=
  let e := sigEnt i s
  leBytes 8 (sigVal i s) ++ leBytes 8 e.time ++ leBytes 2 (sigStatus i s) ++ leBytes 2 e.cnt ++ leBytes 2 e.writer
    ++ leBytes 2 0 ++ leBytes 8 (sigSubst i s)

end Sys2Proof.Machine
end

