-- ==== Sys2Proof/Machine/AlmLink.lean ====
section
/-! DEFINITION. Acceptance of received Almoith messages: format, tag and replay (14_almoith_link_and_proof_rounds.md,
R444–R449). The bytes of a message in a command begin at the Almoith header and end with the tag. -/

namespace Sys2Proof.Machine

/-- The type in a message's header. -/
def msgType (m : List Byte) : Nat := byteAt m 0 % 16
/-- The flags. -/
def msgFlags (m : List Byte) : Nat := byteAt m 1
/-- The sender. -/
def msgNode (m : List Byte) : Nat := leAt m 2 2
/-- The sequence. -/
def msgSeq (m : List Byte) : Nat := leAt m 4 4
/-- The body. -/
def msgBody (m : List Byte) : List Byte := slice m 10 (leAt m 8 2)

/-- The format holds (R444, R445, R460): version 1, a type up to 10, a length within its limit that the bytes bear out. -/
def msgFormatOk (m : List Byte) : Bool :=
  byteAt m 0 / 16 == 1 && decide (msgType m ≤ 10) && decide (10 ≤ m.length)
    && decide (leAt m 8 2 ≤ if msgType m = 9 then 2068 else 1472)
    && m.length == 10 + leAt m 8 2 + (if bit (msgFlags m) 2 then 0 else 16)

/-- The tag of a message holds under a key. -/
def msgTagOk (key : Option (List Byte)) (m : List Byte) : Bool := match key with
  | some k => cmac k (m.take (10 + leAt m 8 2)) == m.drop (10 + leAt m 8 2)
  | none => false

/-- R447: the sender is in the peer table, NOTAG agrees with its link, and the tag holds. -/
def msgAuthentic (m : List Byte) (s : State) : Bool × State := match peerOf (msgNode m) s with
  | some i =>
    if bit (msgFlags m) 2 ≠ peerSec i s then (false, s)
    else if peerSec i s then (true, s)
    else
      let (k, s) := tagUse (peerN i 12 2 s) s
      (msgTagOk k m, s)
  | none => (false, s)

/-- What the device keeps of a sender. -/
def replay (n : Nat) (s : State) : Replay := tget {} s.alm.replay n
/-- What it keeps changed. -/
def replaySet (n : Nat) (r : Replay) (s : State) : State := { s with alm := { s.alm with replay := tput s.alm.replay n r } }

/-- The start base stored for a peer, a write that has started included (R449, R498). -/
def peerBaseNow (n : Nat) (s : State) : Option Nat :=
  s.mram.started.foldl (fun r o => match o with | .peerBase k b => if k = n then some b else r | _ => r)
    (tfind s.mram.peerBase n)

/-- a lies above b as w-bit serial numbers. -/
def serialAbove (w a b : Nat) : Bool :=
  let d := (a + 2 ^ w - b % 2 ^ w) % 2 ^ w
  decide (0 < d) && decide (d < 2 ^ (w - 1))

/-- The start base of a sequence (R449). -/
def seqBase (q : Nat) : Nat := q / 2 ^ 24
/-- A start base above the stored one; a blank entry accepts any. -/
def baseAbove (n q : Nat) (s : State) : Bool := match peerBaseNow n s with
  | none => true
  | some b => serialAbove 8 (seqBase q) b

/-- The write of a peer's start base b waits (R498). -/
def baseWaits (n b : Nat) (s : State) : Bool := s.mram.waiting.contains (.peerBase n b)

/-- R448, R449, R498: a message that is not above the highest accepted, or, after a loss of the replay state, not above the
stored start base, is a replay; so is one whose start base still waits to be stored. -/
def isReplay (n q : Nat) (s : State) : Bool :=
  baseWaits n (seqBase q) s || (match (replay n s).high with
    | some h => !serialAbove 32 q h
    | none => !baseAbove n q s && (replay n s).opened != some (seqBase q))

/-- A start base above the stored one is stored; while its write cannot start it is not accepted (R449, R498). -/
def baseStore (n q : Nat) (s : State) : Bool × State :=
  if baseAbove n q s then
    mramNow (.peerBase n (seqBase q)) (replaySet n { replay n s with opened := some (seqBase q) } s)
  else (true, s)

/-- The state kept of an accepted message (R448, R449): the highest sequence and its window, one rebase for each start base
whose first accepted message carries RESYNC, and the end of this device's own RESYNC once every peer has been heard. -/
def almKeep (n q : Nat) (resync : Bool) (s : State) : State :=
  let r := replay n s
  let newBase := r.opened == some (seqBase q) && r.high.all (fun h => seqBase h != seqBase q)
  let s := replaySet n { r with high := some q, seen := (q :: r.seen).take 64 } s
  let s := { s with alm := { s.alm with heard := sins s.alm.heard n } }
  let s := when s.alm.resync (fun s =>
    { s with alm := { s.alm with resync := !((peers s).all fun i => s.alm.heard.contains (peerNode i s)) } }) s
  if newBase && resync && (replay n s).rebased != some (seqBase q) then
    almRebase (replaySet n { replay n s with rebased := some (seqBase q) } s)
  else s

/-- Sleep entry after the latest commit point is still in progress: up to 1 ms, or up to 5 ms towards SLEEP (R420, R436).
The state's sleep entry is made at once, so this only tells which wakes come late, and when a wake start may begin (R433). -/
def sleepEntering (s : State) : Bool :=
  if s.pwr.mode = 3 then decide (s.slp.entry < 5000000)
  else match s.slp.done with
    | some (_, _, t) => decide (s.time.loc < t + 1000000)
    | none => false

/-- The service that receives messages of type t (R364, R445). -/
def msgSvc (t : Nat) : Nat := match t with
  | 0 | 8 => 2
  | 1 | 2 | 3 => 4
  | 10 => 1
  | _ => 5

/-- Messages of type t are received: their service answers, or sleep entry is in progress, whose wakes are never lost (R433,
R445). -/
def almListens (t : Nat) (s : State) : Bool := if s.pwr.mode ≤ 1 then svcUp (msgSvc t) s else sleepEntering s

/-- Receive one message of type t (R444–R449): its body when it is accepted; a message of another type is not this
command's. -/
def almAccept (t : Nat) (m : List Byte) (s : State) : Option (List Byte) × State :=
  if !almListens t s ∨ !cfgHas C.almHdr 0 s then (none, s)
  else if !msgFormatOk m then (none, inc F.PRF_LINK_DROP_FORMAT s)
  else if msgType m ≠ t then (none, s)
  else
  let (good, s) := msgAuthentic m s
  if !good then (none, inc F.PRF_LINK_AUTH_TAG s)
  else if isReplay (msgNode m) (msgSeq m) s then (none, inc F.PRF_LINK_AUTH_REPLAY s)
  else
  let (stored, s) := baseStore (msgNode m) (msgSeq m) s
  if !stored then (none, inc F.PRF_LINK_AUTH_REPLAY s)
  else (some (msgBody m), almKeep (msgNode m) (msgSeq m) (bit (msgFlags m) 3) s)

end Sys2Proof.Machine
end

