-- ==== Sys2Proof/Machine/SleepCore.lean ====
section
/-! DEFINITION. Groups, demand, wake reasons and sleep entry (13_sleep_wake_partial_networks.md, R422–R437). -/

namespace Sys2Proof.Machine

/-- Field o of width w of the SLEEP_PN header (R443). -/
def slpN (o w : Nat) (s : State) : Nat := cfgN C.slpHdr 0 o w s
/-- The groups in use. -/
def slpPresent (s : State) : Nat := slpN 4 4 s
/-- The own group mask. -/
def slpOwn (s : State) : Nat := slpN 8 4 s
/-- The member index of this device. -/
def slpIndex (s : State) : Nat := slpN 1 1 s
/-- Field o of width w of group record g. -/
def grpN (g o w : Nat) (s : State) : Nat := cfgN C.slpGroup g o w s
/-- The groups awake on this device. -/
def slpAwake (s : State) : Nat := rd F.SLP_GROUP_AWAKE_AWAKE s
/-- The groups in CONFIRMING. -/
def slpConfirming (s : State) : Nat := rd F.SLP_CONFIRMING_GROUPS s

/-- A keep-awake signal of group g is active (R423). -/
def keepSignal (g : Nat) (s : State) : Bool :=
  (List.range 4).any fun k =>
    let i := grpN g (0x1C + 2 * k) 2 s
    cfgHas C.slpGroup g s && i != 0xFFFF && sigShown i s != 0 && sigValid i s && !sigStale i s

/-- The groups demanded by keep-awake signals. -/
def slpSignals (s : State) : Nat := ofBits ((List.range 32).filter (keepSignal · s))
/-- The groups demanded by wake inputs with KEEP. -/
def slpInputs (s : State) : Nat :=
  (List.range 8).foldl (fun m i =>
    if bit s.slp.active i && bit (cfgN C.slpWakeIn i 0 1 s) 2 then m ||| cfgN C.slpWakeIn i 4 4 s else m) 0
/-- The demand apart from CONFIRMING: what confirms a group (R437). -/
def slpFirm (s : State) : Nat := rd F.SLP_HOST_DEMAND_DEMAND s ||| slpSignals s ||| slpInputs s
/-- The groups that this device demands (R423). -/
def slpDemand (s : State) : Nat := slpFirm s ||| slpConfirming s

/-- The network state of the device (R425). -/
def netState (s : State) : Nat :=
  let mine := slpAwake s &&& slpOwn s
  if s.pwr.mode = 2 ∨ s.pwr.mode = 3 then 3
  else if rd F.SLP_STAT_RING s ≠ 1 then 0
  else if s.slp.commit ∧ mine &&& s.slp.cand = mine then 2
  else if slpDemand s &&& mine ≠ 0 then 0
  else 1

/-- SLP_DEMAND and NET_STATE follow their sources. -/
def slpShow (s : State) : State :=
  { s with slp := { s.slp with demand := slpDemand s } } |> wr F.SLP_DEMAND_DEMAND (slpDemand s)
    |> wr F.SLP_STAT_NET_STATE (netState s)

/-- Groups in CONFIRMING that are demanded otherwise are confirmed (R437). -/
def slpConfirm (s : State) : State :=
  let m := slpConfirming s &&& slpFirm s
  slpShow (if m = 0 then s else
    s |> wr F.SLP_CONFIRMING_GROUPS (clearBits (slpConfirming s) m) |> incBy F.SLP_FALSE_CNT_CONFIRMED (popCount m 32))

/-! ### Resources (R422) -/

/-- The groups that name a resource: mask at offset o of w bytes, bit n. -/
def resGroups (o w n : Nat) (s : State) : List Nat :=
  (bitList (slpPresent s) 32).filter fun g => bit (grpN g o w s) n
/-- A resource sleeps: some group names it and every one that does is asleep. -/
def resAsleep (o w n : Nat) (s : State) : Bool :=
  let l := resGroups o w n s
  !l.isEmpty && l.all fun g => !bit (slpAwake s) g
/-- Port p sleeps. -/
def portAsleep (p : Nat) (s : State) : Bool := resAsleep 8 4 p s
/-- CAN channel c sleeps. -/
def canAsleep (c : Nat) (s : State) : Bool := resAsleep 0xC 12 c s
/-- LIN channel l sleeps. -/
def linAsleep (l : Nat) (s : State) : Bool := resAsleep 0x18 4 l s

/-- The transceivers of channels that are awake again leave standby (R269, R434). -/
def resWake (s : State) : State :=
  s |> each (List.range 96) (fun c s =>
      if (canCh c s).asleep && !canAsleep c s then canXcvr c true (canSet c { canCh c s with asleep := false } s) else s)
    |> each (List.range 32) (fun l s => if linMode l s ≠ 0 ∧ !linAsleep l s then linXcvr l true s else s)

/-! ### Waking (R431–R435) -/

/-- The body of a WAKE message (R434). -/
def wakeBody (w reason flags : Nat) : List Byte := leBytes 4 w ++ leBytes 1 reason ++ leBytes 1 flags ++ zeros 2

/-- Broadcast a wake for groups w (R434). -/
def wakeBroadcast (w reason : Nat) (late : Bool) (s : State) : State :=
  let outs := (List.range 4).filter fun o => cfgN C.slpWakeOut o 0 2 s != 0 && cfgN C.slpWakeOut o 4 4 s &&& w != 0
  { s with slp := { s.slp with outs := s.slp.outs ||| ofBits outs } }
    |> each (List.range 16) (fun sg => t1sWakeTx sg w)
    |> each (List.range 32) linWakeUp
    |> almRing [] 8 0 (wakeBody w reason (b2n late))
    |> fun s => { s with slp := { s.slp with repeats := s.slp.repeats ++ [(w, reason, b2n late, 2)] } }

/-- Groups w become awake on this device for a reason (R435); the ones that were asleep enter CONFIRMING, and the wake is
passed on. -/
def wakeGroupsFor (w reason : Nat) (late : Bool) (s : State) : State :=
  let w := w &&& slpPresent s
  let new := clearBits w (slpAwake s)
  let s := { s with slp := { s.slp with asleep := clearBits s.slp.asleep w,
                                        why := (bitList new 32).foldl (fun t g => tput t g reason) s.slp.why,
                                        confAt := (bitList new 32).foldl (fun t g => tput t g s.time.loc) s.slp.confAt,
                                        lastWhy := reason } }
    |> wr F.SLP_GROUP_AWAKE_AWAKE (slpAwake s ||| w) |> wr F.SLP_CONFIRMING_GROUPS (slpConfirming s ||| new)
  slpConfirm (when (new != 0 || late) (fun s => wakeBroadcast w reason late (resWake s)) s)

/-- The WAKE_LATCH bit of a reason. -/
def wakeBit (r : Nat) (s : State) : State :=
  if r < 8 then wr F.SLP_WAKE_LATCH_WAKE_IN (putBit (rd F.SLP_WAKE_LATCH_WAKE_IN s) r true) s
  else if r < 24 then wr F.SLP_WAKE_LATCH_T1S (putBit (rd F.SLP_WAKE_LATCH_T1S s) (r - 8) true) s
  else match r with
    | 24 => wrB F.SLP_WAKE_LATCH_TIMER true s
    | 25 => wrB F.SLP_WAKE_LATCH_CAN_SEL true s
    | 26 => wrB F.SLP_WAKE_LATCH_LIN true s
    | 27 => wrB F.SLP_WAKE_LATCH_LINK true s
    | 28 => wrB F.SLP_WAKE_LATCH_HOST true s
    | 29 => wrB F.SLP_WAKE_LATCH_SIGNAL true s
    | _ => wrB F.SLP_WAKE_LATCH_LATE true s

/-- A veto token: the last token forwarded, with VETO set, on every ring link but those in skip; each once (R432). -/
def vetoSend (skip : List Nat) (body : List Byte) (s : State) : State :=
  let k := (leAt body 0 4, leAt body 4 2)
  if s.slp.vetoes.contains k then s
  else almRing skip 0 0 (spliceAt body 7 (leBytes 1 (putBit (byteAt body 7) 0 true)))
    { s with slp := { s.slp with vetoes := (k :: s.slp.vetoes).take 16 } }

/-- The round in progress is cancelled on this member (R432). -/
def roundCancel (s : State) : State :=
  inc F.SLP_ROUND_CNT_VETOES { s with slp := { s.slp with cand := 0, commit := false, cancelled := true, running := false,
                                                          asleep := clearBits s.slp.asleep (if s.slp.commit then s.slp.cand else 0) } }

/-- A late wake (R433): marked, counted, recorded; in SLEEP, where the recorder has been written and is off, the record is
made at the wake start that follows. -/
def lateWake (reason w : Nat) (s : State) : State :=
  let s := s |> wrB F.SLP_WAKE_LATCH_LATE true |> inc F.SLP_WAKE_CNT_LATE
  if s.pwr.mode = 3 then { s with slp := { s.slp with lateRecs := s.slp.lateRecs ++ [(reason, w)] } } else record 0x0900 reason w s

/-! ### Sleep entry (R436) -/

/-- Queue q is flushed at sleep entry: frames already started complete (R436 step 2). -/
def sleepFlush (q : Nat) (s : State) : State :=
  let Q := qu q s
  if Q.ents = [] then s
  else
    let sending := (s.qm.cur.filter fun c => c.2.1 == q).map fun c => c.2.2
    let keep := Q.ents.filter fun e => sending.contains e.fid
    let kept := (keep.map (entCells · s)).sum
    let cur := s.qm.cur
    let s := quSet q { Q with ents := Q.ents.filter (fun e => !sending.contains e.fid), cells := Q.cells - kept }
      { s with qm := { s.qm with cur := cur.filter fun c => c.2.1 != q } }
    let s := deviceFlush q s
    quSet q { qu q s with ents := keep ++ (qu q s).ents, cells := (qu q s).cells + kept } { s with qm := { s.qm with cur := cur } }

/-- The resources that have fallen asleep: egress queues flushed, go-to-sleep and low-power mode, the sleep output map in
one update, transceivers to standby (R436 steps 2 to 4). -/
def resSleep (ports cans lins : List Nat) (s : State) : State :=
  s |> each ports (fun p => each (List.range 8) fun c => sleepFlush (8 * p + c))
    |> each cans (fun c => each (List.range 4) fun k => sleepFlush (256 + 4 * c + k))
    |> each lins (fun l => sleepFlush (640 + l))
    |> each lins (fun l s => if linMode l s = 1 then linGoToSleep l s else s)
    |> each ports (fun p s => if 16 ≤ p then t1sSleep (p - 16) s else s)
    |> fun s => sbsWriteMask .sleep (leAt (cfgRec C.slpHdr 0 s) 0x720 32) (leAt (cfgRec C.slpHdr 0 s) 0x700 32) s
    |> each cans (fun c s => if canMode c s = 0 then s else canXcvr c false (canSet c { canCh c s with asleep := true } s))
    |> each lins (fun l s => if linMode l s = 0 then s else linXcvr l false s)

/-- STANDBY is entered (R24, R420, R436): FAB, SDS and CIP turn off; tables, queues and stores are kept. -/
def enterStandby (s : State) : State :=
  each (List.range 16) linkDown (pairsPower false (cipLost { s with pwr := { s.pwr with mode := 2 } }))

/-- SLEEP is entered (R71, R436, R441, R508): a freeze ends, the recorder and the start record are written, an open staging
session is discarded, INH goes low. -/
def enterSleep (s : State) : State :=
  let s := s |> recThaw |> recFlushSleep |> startRecWrite {}
  each (List.range 16) linkDown (pairsPower false (cipLost
    { s with sys := { s.sys with session := none }, slp := { s.slp with inh := false, entry := 0 }, pwr := { s.pwr with mode := 3 } }))

/-! ### Wake reasons (R431–R435) -/

/-- A wake reason is latched (R431). Bit numbers are those of SLP_WAKE_LATCH. -/
def wakeLatch (r m : Nat) (s : State) : State :=
  s |> wakeBit r |> wr F.SLP_WAKE_GROUPS_GROUPS (rd F.SLP_WAKE_GROUPS_GROUPS s ||| m) |> inc F.SLP_WAKE_CNT_WAKES

/-- What a latched wake reason does (R432–R435): before the commit point it cancels a round for one of its groups, and the
groups wake; in STANDBY and SLEEP it waits for the resume. -/
def wakeAct (r m : Nat) (late : Bool) (s : State) : State :=
  let s := s |> when late (lateWake r m)
    |> fun s => { s with slp := { s.slp with toWake := s.slp.toWake ||| m, lastWhy := r, late := s.slp.late || late } }
  if s.pwr.mode = 2 then s
  else if s.pwr.mode = 3 then { s with slp := { s.slp with inh := true } }
  else
    let s := if s.slp.cand &&& m ≠ 0 then
        roundCancel (match s.slp.last with | some b => vetoSend [] b s | none => s)
      else s
    wakeGroupsFor m r late s

/-- The candidate groups go to sleep, and with them their resources (R430, R436). -/
def groupsSleep (cand : Nat) (s : State) : State :=
  let ports := (List.range 32).filter fun p => !portAsleep p s
  let cans := (List.range 96).filter fun c => !canAsleep c s
  let lins := (List.range 32).filter fun l => !linAsleep l s
  let s := { s with slp := { s.slp with asleep := s.slp.asleep ||| cand, commit := false, cand := 0, toWake := 0, late := false,
                                        held := [], done := some (rd F.SLP_RING_EPOCH_EPOCH s, rd F.SLP_RING_POS_ROUND s, s.time.loc),
                                        doneCand := cand } }
    |> wr F.SLP_GROUP_AWAKE_AWAKE (clearBits (slpAwake s) cand)
    |> wr F.SLP_CONFIRMING_GROUPS (clearBits (slpConfirming s) cand) |> inc F.SLP_ROUND_CNT_COMMITS
  resSleep (ports.filter (portAsleep · s)) (cans.filter (canAsleep · s)) (lins.filter (linAsleep · s)) s

/-- With none of its groups awake, the device enters STANDBY or SLEEP (R436). -/
def deviceSleep (s : State) : State :=
  if slpAwake s &&& slpOwn s = 0 then (if slpN 2 1 s = 0 then enterStandby s else enterSleep s) else s

/-- The commit point (R430, R436). A wake reason that met it in its tick comes after it (R433). -/
def sleepEntry (cand : Nat) (s : State) : State :=
  slpShow (each s.slp.held (fun x => wakeAct x.1 x.2 (x.2 &&& cand != 0)) (deviceSleep (groupsSleep cand s)))

/-- The commit point has come (R430). -/
def commitDue (s : State) : Bool := s.slp.commit && decide (s.pwr.mode ≤ 1) && decide (s.slp.commitAt ≤ s.time.loc)

/-- A wake reason for the groups of a mask (R431–R435). It is latched in every state with a supply; after the commit point,
while sleep entry goes on, it is late. Where it meets the commit point in one tick it is held until the commit has been
made (R433). `late` marks a veto token of the round already committed. -/
def wakeReason (r m : Nat) (late : Bool) (s : State) : State :=
  if s.pwr.mode = 4 then s
  else
    let late := late || (sleepEntering s && s.slp.doneCand &&& m != 0 && s.slp.cand &&& m == 0)
    let s := wakeLatch r m s
    if commitDue s then { s with slp := { s.slp with held := s.slp.held ++ [(r, m)] } } else wakeAct r m late s

/-- The demand is evaluated after one of its sources has changed (R423, R431): a new demand for an asleep group is a wake
reason, HOST or SIGNAL. -/
def slpEval (s : State) : State :=
  let old := s.slp.demand
  let asleep := clearBits (slpPresent s) (slpAwake s)
  let host := clearBits (rd F.SLP_HOST_DEMAND_DEMAND s) old &&& asleep
  let sigs := clearBits (clearBits (slpSignals s) old) host &&& asleep
  let awake := decide (s.pwr.mode ≤ 1)
  slpConfirm (s |> when (awake && host != 0) (wakeReason 28 host false) |> when (awake && sigs != 0) (wakeReason 29 sigs false))

end Sys2Proof.Machine
end

