-- ==== Sys2Proof/Machine/Signal.lean ====
section
/-! DEFINITION. Commits, packing, unpacking, end-to-end protection, snapshots, frame routes and carriers
(08_signal_gateway.md, R280–R311). -/

namespace Sys2Proof.Machine

/-! ### Requests to another owner (R282, R452–R457) -/

/-- Open a request and send it for the first time; a node outside the peer table gets nothing (R450, R456). -/
def openRequest (kind node sig val : Nat) (s : State) : Option Nat × State := match peerOf node s with
  | none => (none, s)
  | some i =>
    let id := s.alm.nextId
    let s := { s with alm := { s.alm with nextId := (id + 1) % 2 ^ 32, opens := s.alm.opens ++ [⟨id, kind, node, sig, val, 0, s.time.loc⟩] } }
    let body := leBytes 4 id ++ leBytes 2 sig ++ zeros 2 ++ (if kind = 1 then leBytes 8 val else [])
    (some id, (almTo i (if kind = 0 then 4 else 6) 0 body s).2)

/-- A write to a remote signal goes to its owner (R282, R457); with no peer it is lost (R450, R456). -/
def remoteWrite (sig node val : Nat) (s : State) : State := match openRequest 1 node sig val s with
  | (some _, s) => inc F.PRF_RW_WRITES s
  | (none, s) => s |> inc F.PRF_RW_FAILS |> record 0x0A01 sig node

/-- Fetch a remote signal (R453): at most one read of a signal is open, and none goes to a refused node (R467). -/
def remoteFetch (sig : Nat) (s : State) : State := match sigOwner sig s with
  | none => s
  | some n =>
    if nodeRefused n s || s.alm.opens.any (fun r => r.kind == 0 && r.sig == sig) then s
    else match openRequest 0 n sig 0 s with
      | (some _, s) => inc F.PRF_RR_READS s
      | (none, s) => inc F.PRF_RR_FAILS s

/-! ### Triggers (R290, R291) -/

/-- Field o of width w of mapping m. -/
def mapN (m o w : Nat) (s : State) : Nat := cfgN C.sigMap m o w s
/-- What a trigger compares: the value, of an array its bytes. -/
def sigKey (i : Nat) (s : State) : Nat := if sigType i s = 4 then leNat (sigArr i s) else (sigEnt i s).val

/-- A trigger mapping of PDU p sees a change (R291); one that has never packed sees any commit as one (DEDUCED). -/
def mapChanged (p m : Nat) (s : State) : Bool := match tfind (pduRun p s).packed m with
  | none => true
  | some old =>
    let i := mapSig m s
    let new := sigKey i s
    let thr := sigN i 0x10 4 s
    match sigType i s with
    | 0 => if thr = 0 then new != old else decide (thr ≤ (if old ≤ new then new - old else old - new))
    | 1 => if thr = 0 then new != old else decide (thr ≤ (sext 64 new - sext 64 old).natAbs)
    | _ => new != old

/-- A change of an on-change PDU: due now, or at the end of its minimum gap (R291). -/
def pduChange (p : Nat) (s : State) : State :=
  if (pduRun p s).gap then pduSet p { pduRun p s with change := true } s else pduDue p s

/-- What follows a commit of the signals in l by writer w (R287, R290, R291): update bits, triggers, and PDUs that are sent
on the reception of PDU w. -/
def afterCommit (l : List Nat) (w : Nat) (s : State) : State :=
  each (cfgIdx C.sigPdu s) (fun p s =>
    let hit := (pduMaps p s).filter fun m => l.contains (mapSig m s)
    if hit = [] then s
    else
      let s := pduSet p { pduRun p s with upd := hit.foldl sins (pduRun p s).upd } s
      if pduMode p s = 1 ∧ hit.any (fun m => bit (mapN m 4 1 s) 1 && mapChanged p m s) then pduChange p s else s) s
  |> fun s => if w < 0x2000 then
      each ((cfgIdx C.sigPdu s).filter fun p => pduMode p s == 3 && pduN p 0x12 2 s == w) pduDue s
    else s

/-! ### Commits (R278–R282) -/

/-- One write to a local entry: value, time, VALID, HOST, count and writer (R277, R278). -/
def sigPut (i val : Nat) (arr : List Byte) (writer time : Nat) (s : State) : State :=
  let e := sigEnt i s
  let st := putBit (putBit e.status 0 true) 6 (writer == 0x8000)
  let v := if sigType i s = 4 then 0 else sigFit (sigType i s) (sigWidth i s) val
  sigSet i { val := v, time := time, status := st, cnt := (e.cnt + 1) % 65536, writer := writer,
             arr := if sigType i s = 4 then slice arr 0 (sigWidth i s) else [] } s

/-- One staged write: to a local entry, or to the owner (R282). The signals committed here are collected. -/
def sigWrite (a : List Nat × State) (w : Staged) : List Nat × State := match sigOwner w.sig a.2 with
  | some n => (a.1, remoteWrite w.sig n (if sigType w.sig a.2 = 4 then leAt w.arr 0 8 else sigFit (sigType w.sig a.2) (sigWidth w.sig a.2) w.val) a.2)
  | none => (a.1 ++ [w.sig], sigPut w.sig w.val w.arr w.writer (shortNs a.2) a.2)

/-- Commit a group in one tick (R280, R331), with what follows from it. -/
def sigCommit (ws : List Staged) (s : State) : State :=
  let (l, s) := ws.foldl sigWrite ([], s)
  let dev := (ws.filter fun w => w.writer != 0x8000).map (·.sig)
  let old := if s.sig.devNow.1 = s.time.loc then s.sig.devNow.2 else []
  let s := if dev = [] then s else { s with sig := { s.sig with devNow := (s.time.loc, dev.foldl sins old) } }
  let writers := (ws.map (·.writer)).eraseDups
  let s := match writers with
    | [] => s
    | [w] => afterCommit l w s
    | _ => each writers (fun w => afterCommit ((ws.filter fun x => x.writer == w && l.contains x.sig).map (·.sig)) w) s
  slpEval s

/-- A device-initiated commit of a signal has been made in this tick (R32, R281). -/
def devCommitted (i : Nat) (s : State) : Bool := s.sig.devNow.1 == s.time.loc && s.sig.devNow.2.contains i

/-! ### Bits of a PDU (R285) -/

/-- n bit numbers of a big-endian field from its most significant bit on. -/
def beDown : Nat → Nat → List Nat
  | 0, _ => []
  | n + 1, b => b :: beDown n (if b % 8 = 0 then b + 15 else b - 1)

/-- The bit numbers of a field, least significant first (R285). -/
def fieldBits (be : Bool) (start w : Nat) : List Nat :=
  if be then (beDown w start).reverse else (List.range w).map (start + ·)

/-- Read the bits of a list from a PDU as a number. -/
def takeBits (v : Nat) : List Nat → Nat
  | [] => 0
  | b :: r => b2n (bit v b) + 2 * takeBits v r

/-- Write a number into the bits of a list. -/
def layBits (v x : Nat) : List Nat → Nat
  | [] => v
  | b :: r => putBit (layBits v (x / 2) r) b (x % 2 == 1)

/-- The width of mapping m in bits. -/
def mapWidth (m : Nat) (s : State) : Nat :=
  let w := mapN m 5 1 s
  if w = 0 then (if sigType (mapSig m s) s = 4 then 8 * sigWidth (mapSig m s) s else sigWidth (mapSig m s) s) else w
/-- The bit numbers of mapping m. -/
def mapBits (m : Nat) (s : State) : List Nat :=
  fieldBits (bit (mapN m 4 1 s) 0 && sigType (mapSig m s) s != 4) (mapN m 2 2 s) (mapWidth m s)

/-! ### End-to-end protection (R294–R296) -/

/-- Width, polynomial, initial value, reflection and final XOR of a profile's CRC (R294). -/
def e2eCrc (code : Nat) : Nat × Nat × Nat × Bool × Nat := match code with
  | 0 => (8, 0x1D, 0xFF, false, 0xFF)
  | 1 => (8, 0x2F, 0xFF, false, 0xFF)
  | 2 => (16, 0x1021, 0xFFFF, false, 0)
  | 3 => (16, 0x8005, 0, true, 0)
  | 4 => (32, 0x04C11DB7, 0xFFFFFFFF, true, 0xFFFFFFFF)
  | 5 => (32, 0x1EDC6F41, 0xFFFFFFFF, true, 0xFFFFFFFF)
  | _ => (64, 0x42F0E1EBA9EA3693, 0xFFFFFFFFFFFFFFFF, true, 0xFFFFFFFFFFFFFFFF)

/-- Field o of width w of the end-to-end profile of PDU p. -/
def e2eN (p o w : Nat) (s : State) : Nat := cfgN C.sigE2e (pduN p 0x14 1 s) o w s
/-- PDU p names an end-to-end profile. -/
def hasE2e (p : Nat) (s : State) : Bool := pduN p 0x14 1 s != 0xFF
/-- The CRC of PDU p over its bytes, most significant byte first (R294). -/
def e2eBytes (p : Nat) (d : List Byte) (s : State) : List Byte :=
  let (w, poly, ini, refl, out) := e2eCrc (e2eN p 0 1 s)
  let o := e2eN p 2 2 s
  beBytes (w / 8) (crc w poly ini refl out (leBytes 2 (pduN p 0x16 2 s) ++ d.take o ++ d.drop (o + w / 8)))
/-- The bits of the counter. -/
def e2eCounterBits (p : Nat) (s : State) : List Nat := fieldBits false (e2eN p 4 2 s) (e2eN p 1 1 s)

/-- Count in a PDU's record, saturating. -/
def sat16 (n : Nat) : Nat := min (n + 1) 0xFFFF

/-- Set or clear a status bit on every signal that PDU p maps (R278). -/
def pduFlag (p b : Nat) (v : Bool) (s : State) : State :=
  each (pduMaps p s) (fun m s => sigSet (mapSig m s) { sigEnt (mapSig m s) s with status := putBit (sigEnt (mapSig m s) s).status b v } s) s

/-- The confirmation PDU of groups is accepted (R437). -/
def pduConfirms (p : Nat) (s : State) : State :=
  let m := ofBits ((List.range 32).filter fun g => cfgHas C.slpGroup g s && bit (slpConfirming s) g && grpN g 0x24 2 s == p)
  if m = 0 then s
  else slpShow (s |> wr F.SLP_CONFIRMING_GROUPS (clearBits (slpConfirming s) m) |> incBy F.SLP_FALSE_CNT_CONFIRMED (popCount m 32))

/-- The end-to-end check of a received PDU (R296): the status of UNPACK. -/
def e2eCheck (p : Nat) (d : List Byte) (s : State) : Nat × State :=
  if !hasE2e p s then (0, s)
  else
    let o := e2eN p 2 2 s
    let w := (e2eCrc (e2eN p 0 1 s)).1
    let r := pduRun p s
    if e2eBytes p d s ≠ slice d o (w / 8) then
      (2, s |> pduFlag p 2 true |> inc F.SIG_E2E_ERR_CRC |> pduSet p { r with e2e := sat16 r.e2e })
    else
      let n := takeBits (leNat d) (e2eCounterBits p s)
      let fresh := (pduMaps p s).all fun m => sigStale (mapSig m s) s
      let gap := match r.rxCnt with
        | none => some 1
        | some c => if fresh then some 1 else some ((n + 2 ^ e2eN p 1 1 s - c) % 2 ^ e2eN p 1 1 s)
      let delta := gap.getD 1
      if delta = 0 then (3, s |> inc F.SIG_E2E_ERR_REPEAT |> pduSet p { r with e2e := sat16 r.e2e })
      else
        let exceed := decide (e2eN p 6 1 s < delta)
        let s := pduFlag p 2 false (pduSet p { r with rxCnt := some n, gaps := if exceed then sat16 r.gaps else r.gaps } s)
        if exceed then (4, inc F.SIG_E2E_GAP_COUNT s) else (0, s)

/-! ### Unpacking (R286, R332) -/

/-- The write that mapping m takes from a PDU; none when its update bit is 0 (R286). -/
def mapRead (p m : Nat) (d : List Byte) (s : State) : Option Staged :=
  let v := leNat d
  let i := mapSig m s
  if mapN m 6 2 s ≠ 0xFFFF ∧ !bit v (mapN m 6 2 s) then none
  else if sigType i s = 4 then some ⟨i, 0, slice d (mapN m 2 2 s / 8) (sigWidth i s), p⟩
  else some ⟨i, sigFit (sigType i s) (mapWidth m s) (takeBits v (mapBits m s)), [], p⟩

/-- UNPACK of receive PDU p from the bytes d (R286, R296, R332): the status, and the writes to stage. The channel and the
source node are not checked here. -/
def pduUnpack (p : Nat) (d : List Byte) (s : State) : Nat × List Staged × State :=
  if d.length < pduN p 0 2 s then (1, [], inc F.SIG_RX_DISCARD_LENGTH s)
  else
    let d := d.take (pduN p 0 2 s)
    let (st, s) := e2eCheck p d s
    if st = 2 ∨ st = 3 then (st, [], s)
    else
      let s := pduSet p { pduRun p s with rcvd := sat32 (pduRun p s).rcvd } s
      (st, (pduMaps p s).filterMap (mapRead p · d s), pduConfirms p s)

/-! ### Snapshot banks (R118–R121, R310) -/

/-- The run state of set k. -/
def snap (k : Nat) (s : State) : SnapRun := tget {} s.sig.snaps k
/-- The run state of set k changed. -/
def snapSet (k : Nat) (x : SnapRun) (s : State) : State := { s with sig := { s.sig with snaps := tput s.sig.snaps k x } }
/-- The members of set k. -/
def snapMembers (k : Nat) (s : State) : List Nat :=
  (List.range (cfgN C.sigSnap k 0 2 s)).map fun j => cfgN C.sigMember (cfgN C.sigSnap k 2 4 s + j) 0 2 s

/-- The bank of set k as it stands now, for an instant and a sequence number (R119, R310). -/
def snapBank (k t seq : Nat) (s : State) : List Byte :=
  let ms := snapMembers k s
  leBytes 8 t ++ leBytes 6 (t / 1000000000) ++ zeros 2 ++ leBytes 4 (t % 1000000000) ++ leBytes 4 seq
    ++ leBytes 4 (errNow 0 s) ++ leBytes 1 (domState 0 s) ++ leBytes 1 k ++ leBytes 2 ms.length
    ++ ms.flatMap fun i =>
      leBytes 8 (sigShown i s) ++ leBytes 2 (sigStatus i s) ++ zeros 2
        ++ leBytes 4 (if sigValid i s then min (sigAge i s / 1000) 0xFFFFFFFF else 0xFFFFFFFF)

/-- Bank b of a set. -/
def SnapRun.bank (x : SnapRun) (b : Nat) : List Byte := if b = 0 then x.bank0 else x.bank1

/-- The values at an instant are kept until its latch runs, or the last of its latches (R118). -/
def snapCut (k t : Nat) (s : State) : State :=
  let l := (snap k s).cut
  let l := if l.any fun c => c.1 == t then l.map fun c => if c.1 == t then (t, c.2.1 + 1, c.2.2) else c
    else l ++ [(t, 1, snapBank k t 0 s)]
  snapSet k { snap k s with cut := l } s

/-- Latch set k for the instant t (R118–R120): taken unless its target bank is pinned. -/
def snapLatch (k t : Nat) (s : State) : Bool × State :=
  let x := snap k s
  let b := ((x.cut.find? fun c => c.1 == t).map (·.2.2)).getD (snapBank k t 0 s)
  let x := { x with cut := x.cut.filterMap fun c => if c.1 != t then some c else if c.2.1 ≤ 1 then none else some (t, c.2.1 - 1, c.2.2) }
  let dst := 1 - x.cur
  if x.pin.any (fun p => p.1 == dst && (tfind s.qm.frames p.2).isSome) then (false, inc F.STP_SNAP_STAT_OVERRUN (snapSet k x s))
  else
    let n := (x.seq + 1) % 2 ^ 32
    let b := spliceAt b 0x14 (leBytes 4 n)
    (true, inc F.STP_SNAP_STAT_LATCHED
      (snapSet k (if dst = 0 then { x with seq := n, cur := 0, bank0 := b } else { x with seq := n, cur := 1, bank1 := b }) s))

/-- A frame that pins a bank has been enqueued or dropped (R120). -/
def snapUnpin (f : Nat) (s : State) : State :=
  { s with sig := { s.sig with snaps := tmap (fun _ x => { x with pin := x.pin.filter fun p => p.2 != f }) s.sig.snaps } }

/-- Frame f pins bank b of set k (R120). -/
def snapPinBank (k b f : Nat) (s : State) : State := snapSet k { snap k s with pin := (snap k s).pin ++ [(b, f)] } s
/-- Frame f pins the current bank of set k (R120). -/
def snapPin (k f : Nat) (s : State) : State := snapPinBank k (snap k s).cur f s

/-! ### Packing (R285, R287, R293, R295, R311) -/

/-- The value, array bytes and status that a pack of PDU p reads for signal i: from the store, or from the latched bank. -/
def packRead (p i : Nat) (s : State) : Nat × List Byte × Nat :=
  let k := pduN p 0x1D 1 s
  if k = 0xFF then (sigKey i s, sigArr i s, sigStatus i s)
  else
    let b := (snap k s).bank (snap k s).cur
    match (snapMembers k s).findIdx? (· == i) with
    | some j => (leAt b (0x20 + 16 * j) 8, slice b (0x20 + 16 * j) 8, leAt b (0x28 + 16 * j) 2)
    | none => (0, [], 2)

/-- A value within the range of a width (R287): what is written, and whether it was clamped. -/
def clampTo (ty w v : Nat) : Nat × Bool := match ty with
  | 0 => if v < 2 ^ w then (v, false) else (2 ^ w - 1, true)
  | 1 =>
    let x := sext 64 v
    if x < -(2 ^ (w - 1) : Int) then (2 ^ (w - 1), true)
    else if (2 ^ (w - 1) : Int) ≤ x then (2 ^ (w - 1) - 1, true)
    else (twos w x, false)
  | _ => (v, false)

/-- One mapping written into the PDU number v (R287). -/
def packMap (p : Nat) (a : Nat × State) (m : Nat) : Nat × State :=
  let (v, s) := a
  let i := mapSig m s
  let (x, arr, st) := packRead p i s
  let sub := (bit st 1 || bit st 4) && bits (pduN p 3 1 s) 1 2 == 1
  let x := if sub then sigSubst i s else x
  let v' := if sigType i s = 4 then layBits v (if sub then x else leNat arr) (mapBits m s)
            else layBits v (clampTo (sigType i s) (mapWidth m s) x).1 (mapBits m s)
  let clamped := sigType i s != 4 && (clampTo (sigType i s) (mapWidth m s) x).2
  let r := pduRun p s
  let v' := if mapN m 6 2 s = 0xFFFF then v' else putBit v' (mapN m 6 2 s) (r.upd.contains m)
  (v', when clamped (inc F.SIG_CLAMP_COUNT) (pduSet p { r with packed := tput r.packed m x } s))

/-- PACK of transmit PDU p (R287, R293, R295, R311): its bytes, or none when it is suppressed. -/
def pduPack (p : Nat) (s : State) : Option (List Byte) × State :=
  let n := pduN p 0 2 s
  let stale := (pduMaps p s).any fun m => let st := (packRead p (mapSig m s) s).2.2; bit st 1 || bit st 4
  let s := when stale (inc F.SIG_STALE_READ_COUNT) s
  if stale && bits (pduN p 3 1 s) 1 2 == 2 then
    (none, pduSet p { pduRun p s with supp := sat16 (pduRun p s).supp } s)
  else
    let k := pduN p 0x1D 1 s
    let fill := List.replicate n (BitVec.ofNat 8 (pduN p 7 1 s))
    let base := if k = 0xFF then fill else (slice ((snap k s).bank (snap k s).cur) 0 32 ++ fill.drop 32).take n
    let (v, s) := (pduMaps p s).foldl (packMap p) (leNat base, s)
    let r := pduRun p s
    let v := if hasE2e p s then layBits v r.txCnt (e2eCounterBits p s) else v
    let d := leBytes n v
    let d := if hasE2e p s then spliceAt d (e2eN p 2 2 s) (e2eBytes p d s) else d
    let gap := pduMode p s == 1 && pduN p 0x0E 2 s != 0
    (some d, pduSet p { r with upd := [], txCnt := if hasE2e p s then (r.txCnt + 1) % 2 ^ e2eN p 1 1 s else r.txCnt,
                               gap := gap, change := false } s)

/-- PDU_DUE (R290): the instant of a cyclic PDU, or the period of an on-change PDU. -/
def execPduDue (p : Fin 8192) (s : State) : Res :=
  .next (when (awake s && pduN p 0x0C 2 s != 0 && decide (pduMode p s ≤ 1)) (pduDue p) s)

/-- MINIMUM_GAP (R291): a change seen inside the gap makes the PDU due at its end. -/
def execMinimumGap (p : Fin 8192) (s : State) : Res :=
  .next (if awake s ∧ (pduRun p s).gap then
    let due := (pduRun p s).change
    when due (pduDue p) (pduSet p { pduRun p s with gap := false, change := false } s)
  else s)

/-! ### Frame routes (R301, R302) -/

/-- Field o of width w of frame route r. -/
def routeN (r o w : Nat) (s : State) : Nat := cfgN C.sigRoute r o w s
/-- The routes that match a frame: source kind, source, bus_id of a carrier, and the identifier word (R301). -/
def routesAll (kind src bus id : Nat) (s : State) : List Nat :=
  (cfgIdx C.sigRoute s).filter fun r =>
    let m := routeN r 8 4 s % 2 ^ 30
    routeN r 0 1 s == kind && routeN r 1 1 s == src && (kind != 2 || routeN r 0x0F 1 s == bus)
      && (id % 2 ^ 30 &&& m) == (routeN r 4 4 s % 2 ^ 30 &&& m)
/-- The routes that apply: the eight of lowest index, a frame with more being counted (R301). -/
def routesFor (kind src bus id : Nat) (s : State) : List Nat × State :=
  let l := routesAll kind src bus id s
  (l.take 8, when (decide (8 < l.length)) (inc F.SIG_ROUTE_DROP_EXCESS) s)

/-- The frame that a route of action 0 sends (R302): none when the conversion is refused. An FD frame has no remote form: it
goes out with RRS 0 (R240). -/
def routeConvert (r : Nat) (f : CanFrame) (s : State) : Option CanFrame :=
  let dst := canMode (routeN r 0x0C 1 s) s
  let new := routeN r 0x10 4 s
  let f := if new = 0xFFFFFFFF then f else { f with id := new % 2 ^ 29, ide := bit new 29 }
  match routeN r 0x0D 1 s, f.fmt with
  | 0, .cc => if dst = 0 then none else some f
  | 0, .fd => if dst < 2 then none else some f
  | 0, .xl => if dst < 3 then none else some f
  | _, .xl => none
  | 1, _ => if dst = 0 ∨ 8 < f.data.length then none else some { f with fmt := .cc, brs := false, esi := false }
  | k, _ => if dst < 2 then none else some { f with fmt := .fd, brs := k == 3, rtr := false }

/-! ### Tunnels (R306, R460) -/

/-- The longest TUNNEL body that the link of peer record i carries (R444, R460). -/
def tunnelRoom (i : Nat) (xl : Bool) (s : State) : Nat :=
  let m := portMax (peerPort i s) s
  let sec := peerSec i s
  if xl && decide ((if sec then 2132 else 2116) ≤ m) then m - (if sec then 64 else 48) else 1472

/-- Send a frame of R240's layout to a channel of another node (R306, R460). -/
def tunnelSend (node dst src : Nat) (frame : List Byte) (s : State) : State :=
  let body := leBytes 1 dst ++ leBytes 1 src ++ zeros 2 ++ frame
  match peerOf node s with
  | none => inc F.SIG_ROUTE_DROP_TUNNEL s
  | some i =>
    if tunnelRoom i (byteAt frame 4 == 2) s < body.length then inc F.SIG_ROUTE_DROP_TUNNEL s
    else match almTo i 9 0 body s with
      | (true, s) => incWrap F.PRF_TUNNEL_SENT s
      | (false, s) => inc F.SIG_ROUTE_DROP_TUNNEL s

/-- What the device itself does for a frame that enters the routes of a source (R301, R302, R306): frames that match too
many routes and frames that a route refuses are counted, and routes of action 2 send their tunnels, from channel ch. -/
def frameRoutes (kind src bus ch : Nat) (data : List Byte) (s : State) : State :=
  let (l, s) := routesFor kind src bus (leAt data 0 4 % 2 ^ 30) s
  each l (fun r s => match routeN r 3 1 s with
    | 0 => if (routeConvert r (canOfBytes data) s).isNone then inc F.SIG_ROUTE_DROP_FORMAT s else s
    | 2 => tunnelSend (routeN r 0x14 2 s) (routeN r 0x16 1 s) ch data s
    | _ => s) s

/-! ### ACF-CAN carriers (R303–R305) -/

/-- Field o of width w of carrier k. -/
def carN (k o w : Nat) (s : State) : Nat := cfgN C.sigCarrier k o w s
/-- The run state of a carrier. -/
def car (k : Nat) (s : State) : CarRun := tget {} s.sig.cars k
/-- The run state changed. -/
def carSet (k : Nat) (x : CarRun) (s : State) : State := { s with sig := { s.sig with cars := tput s.sig.cars k x } }

/-- An ACF CAN message, or an ACF CAN Brief message in form 1 (R303; layouts of IEEE 1722-2016, PRESUMED). -/
def acfMessage (brief : Bool) (bus ts : Nat) (f : CanFrame) : List Byte :=
  let pad := (4 - f.data.length % 4) % 4
  let len := (if brief then 8 else 16) + f.data.length + pad
  let flags := pad * 64 + 32 * b2n (!brief) + 16 * b2n f.rtr + 8 * b2n f.ide + 4 * b2n f.brs
    + 2 * (match f.fmt with | .fd => 1 | _ => 0) + b2n f.esi
  beBytes 2 ((if brief then 2 else 1) * 512 + len / 4) ++ leBytes 1 flags ++ leBytes 1 (bus % 32)
    ++ (if brief then [] else beBytes 8 ts) ++ beBytes 4 f.id ++ f.data ++ zeros pad

/-- The carrier closes its AVTPDU and enqueues it (R303). -/
def carClose (k : Nat) (s : State) : State :=
  let x := car k s
  if x.count = 0 then s
  else
    let avtp := leBytes 1 0x82 ++ beBytes 2 (0x8000 + x.msgs.length % 2048) ++ leBytes 1 x.seq
      ++ slice (cfgRec C.sigCarrier k s) 8 8 ++ x.msgs
    let d := slice (cfgRec C.sigCarrier k s) 0x10 6 ++ beBytes 6 (routerMac s) ++ beBytes 2 0x8100
      ++ beBytes 2 (carN k 0x16 2 s) ++ beBytes 2 0x22F0 ++ avtp
    let c := carN k 3 1 s % 8
    let s := carSet k { x with msgs := [], count := 0, seq := (x.seq + 1) % 256 } s
    (submit 7 { data := ethFrame d, src := 7 * 4096 + carN k 0x19 1 s, cls := c, vlan := carN k 0x16 2 s % 4096,
                lookup := directedKind, untag := true,
                dests := [(8 * carN k 0x18 1 s + c, false, 0)] } (incWrap F.SIG_ACF_STAT_SENT s)).2

/-- Add a frame to an outbound carrier (R303, R332): 0 added, 1 added and the AVTPDU closed, 2 refused. -/
def carAdd (k bus ts : Nat) (urgent : Bool) (f : CanFrame) (s : State) : Nat × State :=
  let m := acfMessage (carN k 1 1 s == 1) bus ts f
  let max := carN k 6 2 s
  if carN k 0 1 s ≠ 0 ∨ f.fmt = .xl ∨ max < 12 + m.length then (2, s)
  else
    let x := car k s
    let full := decide (max < 12 + x.msgs.length + m.length) || decide (carN k 2 1 s ≤ x.count)
    let s := when full (carClose k) s
    let x := car k s
    let s := carSet k { x with msgs := x.msgs ++ m, count := x.count + 1 } s
    if urgent then (1, carClose k s) else (b2n full, s)

/-- MAXIMUM_BATCHING_DELAY (R303, R315): the AVTPDU is closed and the CARRIER event is raised; FN7's staging that is full
holds it back (R127). -/
def execMaximumBatchingDelay (k : Fin 64) (s : State) : Res :=
  .next (if (car k s).count = 0 ∨ !awake s ∨ sourceWaits false 7 s then s
    else evRaise (carN k 0x19 1 s) ⟨6, 0, k, 0, shortNs s⟩ (carClose k s))

/-- The ACF messages of an AVTPDU: type and bytes. -/
def acfSplit : Nat → List Byte → List (Nat × List Byte)
  | 0, _ => []
  | n + 1, b =>
    let len := 4 * (beAt b 0 2 % 512)
    if b.length < 2 ∨ len = 0 then [] else (beAt b 0 2 / 512, b.take len) :: acfSplit n (b.drop len)

/-- The CAN frame of an ACF CAN or ACF CAN Brief message (R305; layouts of IEEE 1722-2016, PRESUMED, log entry 48). -/
def acfFrame (m : Nat × List Byte) : CanFrame :=
  let fl := byteAt m.2 2
  let o := if m.1 = 2 then 4 else 12
  let d := m.2.drop (o + 4)
  { fmt := if bit fl 1 then .fd else .cc, id := beAt m.2 o 4 % 2 ^ 29, ide := bit fl 3, rtr := bit fl 4, brs := bit fl 2,
    esi := bit fl 0, sec := false, sdt := 0, vcid := 0, af := 0, data := d.take (d.length - fl / 64) }

/-- A message of an AVTPDU of inbound carrier k becomes a frame for the routes (R305). The channel that a tunnel names as its
source is a free value (log entry 90). -/
def carFrame (k : Nat) (m : Nat × List Byte) (s : State) : State :=
  let (v, s) := fresh s
  frameRoutes 2 k (byteAt m.2 3 % 32) (v % 256) (canBytes (acfFrame m)) s

/-- What the device does for an AVTPDU of an inbound carrier that its engine takes (R305): sequence gaps and messages of
other types are counted, and each frame enters the routes, in order. -/
def carTaken (e : Nat) (d : List Byte) (s : State) : State :=
  let a := d.drop (frL3 d)
  if frEt d = 0x22F0 ∧ byteAt a 0 = 0x82 then
    match (cfgIdx C.sigCarrier s).find? fun k => carN k 0 1 s == 1 && carN k 0x19 1 s == e && slice (cfgRec C.sigCarrier k s) 8 8 == slice a 4 8 with
    | none => s
    | some k =>
      let seq := byteAt a 3
      let gap := match (car k s).inSeq with | some q => (q + 1) % 256 != seq | none => false
      let msgs := acfSplit 512 ((a.drop 12).take (beAt a 1 2 % 2048))
      carSet k { car k s with inSeq := some seq } s |> when gap (inc F.SIG_ACF_STAT_GAP)
        |> incBy F.SIG_ACF_STAT_SKIPPED (msgs.filter fun m => m.1 != 1 && m.1 != 2).length
        |> each (msgs.filter fun m => m.1 == 1 || m.1 == 2) (carFrame k)
  else s

/-- The offset of the container header in an Ethernet PDU frame, by the template of a receive PDU (R288, R289). -/
def pduContainer (d : List Byte) (s : State) : Option Nat :=
  let o := frL3 d
  let ps := (cfgIdx C.sigPdu s).filter fun p => pduMode p s == 5 && pduN p 4 1 s == 2
  (ps.findSome? fun p =>
    let t := cfgRec C.sigTempl (pduN p 5 1 s) s
    if byteAt t 0 = 0 then (if frEt d = leAt t 12 2 then some o else none)
    else if frEt d = 0x0800 ∧ byteAt d (o + 9) = 17 ∧ beAt d (o + 22) 2 = leAt t 26 2 then some (o + 28) else none)

/-- What the hardware counts of a frame that an engine takes from an inter-engine queue: inbound carriers (R305), and
Ethernet PDUs with an unknown data ID (R289). -/
def frameTaken (e : Nat) (d : List Byte) (s : State) : State :=
  let s := carTaken e d s
  match pduContainer d s with
  | none => s
  | some o =>
    if (cfgIdx C.sigPdu s).any fun p => pduMode p s == 5 && pduN p 4 1 s == 2 && pduN p 0x16 2 s == beAt d o 2 then s
    else inc F.SIG_RX_DISCARD_UNKNOWN s

end Sys2Proof.Machine
end

