-- ==== Sys2Proof/Machine/Stipple.lean ====
section
/-! DEFINITION. The stipple scheduler: instants, launches, late launches and skips (03_time_and_stipples.md, R100–R118). -/

namespace Sys2Proof.Machine

/-- The target of an entry (R102). -/
def stpTarget (e : Nat) (s : State) : Nat := stpN e 2 2 s
/-- The parameter of an entry. -/
def stpParam (e : Nat) (s : State) : Nat := stpN e 0x0A 2 s
/-- Parameter 2 of an entry. -/
def stpParam2 (e : Nat) (s : State) : Nat := stpN e 0x0C 4 s
/-- The queue that a launch entry releases from (R103). -/
def stpQueue (e : Nat) (s : State) : Nat := if stpAct e s = 1 then stpTarget e s else 816 + stpParam e s % 128
/-- The number of frames that a launch entry releases (R103). -/
def stpFrames (e : Nat) (s : State) : Nat := if stpAct e s = 1 then stpParam e s else 1

/-- The frames that entry e may release: any for LAUNCH_FRAME, those of its PDU for LAUNCH_PDU (R103, R112). -/
def stpFrameOf (e : Nat) (s : State) (x : QEnt) : Bool :=
  !x.rel && !x.out && (stpAct e s != 2 || (fr x.fid s).pdu == some (stpTarget e s))

/-- The instance of a launch entry is ready (R112): the frames it releases are linked. -/
def stpReady (e : Nat) (s : State) : Bool := decide (stpFrames e s ≤ ((qu (stpQueue e s) s).ents.filter (stpFrameOf e s)).length)

/-- One instance counted as launched (R103, R115). -/
def stpCount (e : Nat) (s : State) : State := stpSet e { stpRun e s with launched := sat32 (stpRun e s).launched } s

/-- The first n entries that satisfy p are released. -/
def releaseMark (p : QEnt → Bool) : Nat → List QEnt → List QEnt
  | _, [] => []
  | 0, l => l
  | n + 1, x :: r => if p x then { x with rel := true } :: releaseMark p n r else x :: releaseMark p (n + 1) r

/-- Entry e releases its frames to its queue's target (R103, R108, R261, R264): false when a LIN channel discards one. Frames
leave the queue in their order (R140): one behind a frame that is not released waits for it. -/
def stpRelease (e : Nat) (s : State) : Bool × State :=
  let q := stpQueue e s
  let n := stpFrames e s
  let s := quSet q { qu q s with ents := releaseMark (stpFrameOf e s) n (qu q s).ents } s
  match qTarget q s with
  | (1, ch) => (true, canFill ch s)
  | (2, ch) => (List.range n).foldl (fun a _ =>
      if headReleased q a.2 then let r := linRelease ch q a.2; (a.1 && r.1, r.2) else a) (true, s)
  | _ => (true, s)

/-- Remove an unreleased linked instance of PDU p from reserved queue q: the preparation of a skipped instance (R113). -/
def stpDropFrame (q p : Nat) (s : State) : State :=
  let Q := qu q s
  match Q.ents.find? fun e => !e.rel && (fr e.fid s).pdu == some p with
  | none => s
  | some e =>
    unref e.fid (quSet q { Q with ents := Q.ents.filter (fun x => x.fid != e.fid), cells := Q.cells - entCells e s } s)

/-- The preparation of a skipped LAUNCH_PDU instance is abandoned (R113): its event is withdrawn, its frame dropped, now or
when it comes. -/
def stpAbandon (e : Nat) (s : State) : State :=
  if stpAct e s ≠ 2 ∨ (stpRun e s).prepared.isNone then s
  else
    let p := stpTarget e s
    let g := pduN p 0x1C 1 s
    if evPends g 3 p s then engSet g { eng g s with evs := (eng g s).evs.filter fun v => !(v.kind == 3 && v.src == p) } s
    else if stpReady e s then stpDropFrame (stpQueue e s) p s
    else if evThere g 3 p s || (s.qm.frames.any fun x => x.2.pdu == some p && x.2.phase != 3) then
      stpSet e { stpRun e s with abandon := true } s
    else s

/-- An instance is skipped (R113, R115). -/
def stpSkip (e : Nat) (s : State) : State :=
  let s := stpAbandon e s
  stpSet e { stpRun e s with skipCnt := sat16 (stpRun e s).skipCnt, late := none, prepared := none } s |> inc F.STP_SKIP_CNT_COUNT

/-- Release an instance of a launch entry: launched, or skipped when a LIN channel discards it (R264). -/
def stpLaunch (e : Nat) (s : State) : State :=
  let (ok, s) := stpRelease e s
  if ok then stpCount e (stpSet e { stpRun e s with prepared := none } s) else stpSkip e s

/-- A launch after its instant t, counted as late with its lateness (R113, R115). -/
def stpLaunchLate (e t : Nat) (s : State) : State :=
  let d := shortNs s - t
  let s := stpSet e { stpRun e s with late := none, lateCnt := sat16 (stpRun e s).lateCnt } s
  stpLaunch e (s |> inc F.STP_LATE_CNT_COUNT |> markMax F.STP_LATE_MAX_NS d |> histAdd (stpPer e s) 64 d |> extreme 4 d)

/-- The instant of a launch entry that is not ready in time, or that domain 0 has stepped over, when it is due (R113, R117):
skipped, or launched late within the late limit, or left waiting for its frames. -/
def stpMissed (e t : Nat) (s : State) : State :=
  if !bit (stpN e 1 1 s) 1 ∨ t + stpLimit e s < shortNs s then stpSkip e s
  else if stpReady e s then stpLaunchLate e t s
  else stpSet e { stpRun e s with late := some t } s

/-- The instant of a launch entry: on time when ready, else skipped or left waiting (R112, R113). An older instance that
still waits is skipped first. -/
def stpInstant (e t : Nat) (s : State) : State :=
  let s := if (stpRun e s).late.isSome then stpSkip e s else s
  if stpReady e s && !stpStepped t s then stpLaunch e s else stpMissed e t s

/-- Queue q has received a frame: entries that wait for it launch late (R113, R115). -/
def stpLateCheck (q : Nat) (s : State) : State :=
  each ((cfgIdx C.stpEntry s).filter fun e => (stpAct e s == 1 || stpAct e s == 2) && stpQueue e s == q) (fun e s =>
    match (stpRun e s).late with
    | none => s
    | some t => if stpReady e s && decide (shortNs s ≤ t + stpLimit e s) then stpLaunchLate e t s else s) s

/-- Entry e fires its next instant when it is due (R100, R106, R107, R116): suspended entries skip it; four entries fire in a
tick, those of lower index first, and a further one is deferred, for which `put` keeps what the instant needs. -/
def stpFireWith (act e : Nat) (put f : Nat → State → State) (s : State) : State :=
  if !(stpOn e s && stpAct e s == act && stpRunning s && stpLen e s != 0) then s
  else
    let t := stpNext e s
    if shortNs s < t then s
    else if stpSuspended e s then stpSkip e (stpSet e { stpRun e s with last := some t } s)
    else
      let n := if s.stp.tickNs = s.time.loc then s.stp.tickCnt else 0
      let put := if (stpRun e s).deferred = some t then fun s => s else put t
      if 4 ≤ n + stpLower e s then inc F.STP_DEFER_CNT_COUNT (stpSet e { stpRun e s with deferred := some t } (put s))
      else f t (put (stpSet e { stpRun e s with last := some t } { s with stp := { s.stp with tickNs := s.time.loc, tickCnt := n + 1 } }))

/-- Entry e fires with an action that keeps nothing beforehand. -/
def stpFire (act e : Nat) (f : Nat → State → State) (s : State) : State := stpFireWith act e (fun _ s => s) f s

/-- NOP_ACTION (R103). -/
def execNopAction (e : Fin 4096) (s : State) : Res := .next (stpFire 0 e (fun _ => stpCount e) s)

/-- LAUNCH_FRAME (R103, R112, R113). -/
def execLaunchFrame (e : Fin 4096) (s : State) : Res := .next (stpFire 1 e (stpInstant e) s)

/-- LAUNCH_PDU (R103, R112, R113). -/
def execLaunchPdu (e : Fin 4096) (s : State) : Res := .next (stpFire 2 e (stpInstant e) s)

/-- Force or release the gates of a port (R217); a frame in progress whose gate closes is counted. -/
def gateForce (p v : Nat) (s : State) : State :=
  let s := gateShow p (ethSet p { ethPort p s with forced := if bit v 8 then some (v % 256) else none } s)
  match sendingClass p s with
  | some c => when (bit v 8 && !bit v c) (inc (F.ETH_PORTpp_QBV_OVERRUN.u p)) s
  | none => s

/-- GATE (R217). -/
def execGate (e : Fin 4096) (s : State) : Res :=
  .next (stpFire 3 e (fun _ s => stpCount e (if stpTarget e s < 16 then gateForce (stpTarget e s) (stpParam e s) s else s)) s)

/-- SNAPSHOT (R118, R307, R315): the members as at the instant are kept, and the set's reserved engine gets the event. -/
def execSnapshot (e : Fin 4096) (s : State) : Res :=
  .next (stpFireWith 4 e (fun t s => snapCut (stpTarget e s) t s) (fun t s =>
    let k := stpTarget e s
    stpCount e (evRaise (k % 4) ⟨4, stpParam e s, k, stpParam2 e s, t⟩ s)) s)

/-- Drive an output of a stipple (R103): a pin below 4, or SBS output target − 256. -/
def stpDrive (target : Nat) (v : Bool) (s : State) : State :=
  if target < 4 then { s with stp := { s.stp with pins := putBit s.stp.pins target v } }
  else sbsWrite .stipple (target - 256) v s

/-- The present level of a stipple output. -/
def stpLevel (target : Nat) (s : State) : Bool :=
  if target < 4 then bit s.stp.pins target else bit s.sbs.outs (target - 256)

/-- OUTPUT (R103): low, high, toggle, or a pulse that is high for its width. -/
def execOutput (e : Fin 4096) (s : State) : Res :=
  .next (stpFire 5 e (fun _ s =>
    let o := stpTarget e s
    stpCount e (match stpParam e s with
      | 0 => stpDrive o false s
      | 1 => stpDrive o true s
      | 2 => stpDrive o (!stpLevel o s) s
      | _ =>
        let s := stpDrive o true s
        { s with stp := { s.stp with pulse := sins s.stp.pulse o } })) s)

/-- PLCA_BEACON (R227, R228). -/
def execPlcaBeacon (e : Fin 4096) (s : State) : Res :=
  .next (stpFire 6 e (fun t s => stpCount e (if stpTarget e s < 16 then t1sInstant (stpTarget e s) t s else s)) s)

/-- ENGINE_EVENT (R103, R315). -/
def execEngineEvent (e : Fin 4096) (s : State) : Res :=
  .next (stpFire 7 e (fun t s => stpCount e (evRaise (stpTarget e s % 4) ⟨5, stpParam e s, e, stpParam2 e s, t⟩ s)) s)

/-- OUTPUT_PULSE_END (R103): the output returns low. -/
def execOutputPulseEnd (o : StpOut) (s : State) : Res :=
  let k := match o with | .pin n => n.val | .sbs n => 256 + n.val
  .next (if s.stp.pulse.contains k then stpDrive k false { s with stp := { s.stp with pulse := sdel s.stp.pulse k } } else s)

/-- Entry e's preparation on graver gv is due: param2 before its next instant, and 2 µs more in IDLE (R103, R111). -/
def prepDue (e gv : Nat) (s : State) : Bool :=
  let t := stpNext e s
  stpOn e s && stpAct e s == 2 && stpRunning s && !stpSuspended e s && (stpRun e s).late.isNone && (stpRun e s).prepared != some t
    && pduN (stpTarget e s) 0x1C 1 s == gv && decide (t ≤ shortNs s + stpParam2 e s + if s.pwr.mode = 1 then 2000 else 0)

/-- PREPARATION_EVENT (R110, R111, R315): at instant − lead, and only once the instance before has been launched or skipped.
In IDLE the device is back in ACTIVE for it, 2 µs before that time. -/
def execPreparationEvent (e : Fin 4096) (gv : Fin 4) (s : State) : Res :=
  .next (if prepDue e gv s then
    evRaise gv ⟨3, 0, stpTarget e s, e, stpNext e s⟩
      (stpSet e { stpRun e s with prepared := some (stpNext e s) } { s with pwr := { s.pwr with mode := 0 } })
  else s)

/-- The guard window of a port [ns]: 1 538 byte times, or 143 with preemption active (R109). -/
def guardNs (p : Nat) (s : State) : Nat := cdiv ((if preemptOn p s then 143 else 1538) * 8000) (portMbit p s)

/-- GUARD_WINDOW (R109): from the window's length before the instant, the port of a launch entry's queue starts no frame of
another queue until the instant is past. -/
def execGuardWindow (e : Fin 4096) (s : State) : Res :=
  .next (match qTarget (stpQueue e s) s with
    | (0, p) =>
      if stpOn e s && (stpAct e s == 1 || stpAct e s == 2) && stpRunning s && decide (p < 16)
          && decide (stpNext e s ≤ shortNs s + guardNs p s + 4) then
        { s with stp := { s.stp with guard := tput s.stp.guard p (max (tget 0 s.stp.guard p) (stpNext e s)) } }
      else s
    | _ => s)

/-- LATE_LIMIT (R113): the instance that still waits is skipped. -/
def execLateLimit (e : Fin 4096) (s : State) : Res :=
  .next (match (stpRun e s).late with
    | some t => if t + stpLimit e s ≤ shortNs s then stpSkip e s else s
    | none => s)

end Sys2Proof.Machine
end

