-- ==== Sys2Proof/Machine/HostQueue.lean ====
section
/-! DEFINITION. Host queues: DMA rings, completions, waits, the delivery of transmit timestamps, and the pop stash
(15_host_interface.md, R480–R486; R93–R95). -/

namespace Sys2Proof.Machine

/-- Field o of width w of host queue record q (R488). -/
def hqN (q o w : Nat) (s : State) : Nat := cfgN C.hostQ q o w s
/-- Whether a host queue is enabled in the HOST section. -/
def hqOn (q : Nat) (s : State) : Bool := bit (hqN q 0 1 s) 0
/-- The interface a host queue belongs to: 0 PCIe, 1 xSPI. -/
def hqIf (q : Nat) (s : State) : Nat := bits (hqN q 0 1 s) 1 1
/-- The run state of a host queue. -/
def hostQ (q : Nat) (s : State) : HostQ := tget {} s.hst.queues q
/-- The run state changed. -/
def hostQSet (q : Nat) (x : HostQ) (s : State) : State := { s with hst := { s.hst with queues := tput s.hst.queues q x } }
/-- S: the entries of a send or receive ring (R481). -/
def hqSize (q : Nat) (s : State) : Nat := 2 ^ rd (F.HST_HQnn_CTRL_RING_LOG2.u q) s
/-- The base address of the rings. -/
def hqBase (q : Nat) (s : State) : Nat := rd (F.HST_HQnn_BASE_HI_ADDR.u q) s * 2 ^ 32 + rd (F.HST_HQnn_BASE_LO_ADDR.u q) s * 4096
/-- Host queues are served from the full stage (R64) while the device is not in STANDBY or SLEEP. -/
def hqServed (s : State) : Bool := isFull s && decide (s.pwr.mode ≤ 1)
/-- The endpoint moves frames of queue q: DMA mode, PCIe, enabled (R480). -/
def hqDma (q : Nat) (s : State) : Bool :=
  hqServed s && hqOn q s && hqIf q s == 0 && rdB (F.HST_HQnn_CTRL_EN.u q) s && rd (F.HST_HQnn_CTRL_MODE.u q) s == 0

/-! ### Completion records (R481–R483) -/

/-- The completion ring of queue q has no room (R482): one record stays unused, so that a full ring differs from an empty
one. -/
def cplFull (q : Nat) (s : State) : Bool :=
  (rd (F.HST_HQnn_PTRS_CPL_TAIL.u q) s + 1) % (2 * hqSize q s) == (hostQ q s).cplHead

/-- CPL_FULL follows the ring. -/
def cplShow (q : Nat) (s : State) : State := wrB (F.HST_HQnn_STAT_CPL_FULL.u q) (cplFull q s) s

/-- A completion record without its phase bit (R481). -/
def cplRecord (ts ring status flags idx len : Nat) : List Byte :=
  leBytes 8 ts ++ leBytes 1 ring ++ leBytes 1 status ++ leBytes 1 flags ++ leBytes 1 0 ++ leBytes 2 idx ++ leBytes 2 len

/-- The record of a send descriptor: its length field is open (log entry 82). -/
def sendRecord (ts : Nat) (st : Status) (flags idx : Nat) : List Byte := cplRecord ts 0 st.code flags idx (Config.sendLength idx)

/-- The counts that a written completion record moves (HST_HQnn_CNT). -/
def cplCount (q : Nat) (r : List Byte) (s : State) : State :=
  if byteAt r 8 = 0 then
    if byteAt r 9 = 0 then inc (F.HST_HQnn_CNT_SENT.u q) s
    else when (byteAt r 9 == 1 || byteAt r 9 == 2) (inc (F.HST_HQnn_CNT_REFUSED.u q)) s
  else when (bit (byteAt r 10) 2) (inc (F.HST_HQnn_CNT_TRUNC.u q)) s

/-- A completion wait ends with outcome n: 1 completion, 2 timeout (R483). -/
def waitEnd (q n : Nat) (irq : Bool) (s : State) : State :=
  s |> wrB (F.HST_HQnn_STAT_WAIT_ARMED.u q) false |> wr (F.HST_HQnn_STAT_LAST_WAIT.u q) n
    |> when irq (raiseVector (rd (F.HST_HQnn_CTRL_VECTOR.u q) s))

/-- Write a completion record into the ring (R481–R483): the phase inverts at each wrap, an armed wait ends, and a
completion with INTR raises the vector. -/
def cplWrite (q : Nat) (r : List Byte) (intr : Bool) (s : State) : State :=
  let n := 2 * hqSize q s
  let t := rd (F.HST_HQnn_PTRS_CPL_TAIL.u q) s % n
  let h := hostQ q s
  let b := spliceAt r 10 (leBytes 1 (byteAt r 10 + 128 * b2n h.phase))
  let s := emit (.dma (hqBase q s + 64 * hqSize q s + 16 * t) b) s
  let s := wr (F.HST_HQnn_PTRS_CPL_TAIL.u q) ((t + 1) % n) (hostQSet q { h with phase := h.phase != (t + 1 == n) } s)
  let s := cplCount q r s
  let s := when (intr && rdB (F.HST_HQnn_CTRL_CPL_INT.u q) s) (raiseVector (rd (F.HST_HQnn_CTRL_VECTOR.u q) s)) s
  when (rdB (F.HST_HQnn_STAT_WAIT_ARMED.u q) s) (waitEnd q 1 true) (cplShow q s)

/-- Complete a descriptor: at once, or when the ring has room again (R482). -/
def hostComplete (q : Nat) (r : List Byte) (intr : Bool) (s : State) : State :=
  if cplFull q s || !(hostQ q s).fill.isEmpty then hostQSet q { hostQ q s with fill := (hostQ q s).fill ++ [(r, intr)] } s
  else cplWrite q r intr s

/-- Write the held records while the ring has room; at most n of them. -/
def cplDrain (q : Nat) : Nat → State → State
  | 0, s => s
  | n + 1, s => match (hostQ q s).fill with
    | [] => s
    | (r, i) :: rest => if cplFull q s then s else cplDrain q n (cplWrite q r i (hostQSet q { hostQ q s with fill := rest } s))

/-! ### Transmit timestamps and their completion records (R93–R96, R482) -/

/-- A timestamp reaches the descriptor that asked for it: its completion record carries it, or TS_LOST (R94, R482). A
further capture of the same descriptor is not reported. -/
def stampDeliver (q i : Nat) (intr : Bool) (ns : Option Nat) (s : State) : State :=
  if (hostQ q s).stamps.contains (i, intr) then
    let s := hostQSet q { hostQ q s with stamps := (hostQ q s).stamps.erase (i, intr) } s
    hostComplete q (sendRecord (ns.getD 0) .ok (if ns.isSome then 1 else 2) i) intr s
  else s

/-- A frame with TS_REQ has left port p (R90, R93, R94). -/
def hostCapture (p : Nat) (c : Nat × Nat × Bool) (s : State) : State :=
  let room := tsRoom p s
  let s := tsCapture p (.host c.1 c.2.1 c.2.2) s
  if room then s else stampDeliver c.1 c.2.1 c.2.2 none s

/-- A timestamp in its completion record: CC0's for a gPTP message, else the host's (R93). -/
def stampEnd (p : Nat) (st : Stamp) (s : State) : State := match st.of_ with
  | .host q i intr => stampDeliver q i intr (some st.ns) s
  | o => gptpStamp p o st.ns s
/-- A full completion ring holds a host's timestamp back (R93). -/
def stampHeld (st : Stamp) (s : State) : Bool := match st.of_ with
  | .host q _ _ => cplFull q s
  | _ => false

/-- TIMESTAMP_DRAIN (R93): the oldest timestamp goes into its completion record, and the FIFO refills from the pool; a full
completion ring holds it back. -/
def execTimestampDrain (port : Fin 32) (s : State) : Res :=
  .next (match tsFifo port s with
    | [] => s
    | st :: r =>
      if stampHeld st s || !awake s then s
      else
        { s with time := { s.time with fifo := tput s.time.fifo port r } }
          |> emit (.stamp port st.of_ (some st.ns)) |> stampEnd port st
          |> tsRefill port |> tsCounts port)

/-! ### Doorbells (R481) -/

/-- Ring r of queue q is passed to the device up to index v: only by the queue's own interface in DMA mode; an index out of
range is refused (R477, R480, R481). -/
def doorbell (who : Initiator) (ring q v : Nat) (s : State) : Status × State :=
  let n := bits v 0 11
  if (if ring = 2 then 2 * hqSize q s else hqSize q s) ≤ n ∨ 3 ≤ ring then (.fault, s)
  else if hostOf who ≠ some (hqIf q s) ∨ hqIf q s ≠ 0 ∨ !hqOn q s then (.denied, s)
  else
    let h := hostQ q s
    match ring with
    | 0 => (.ok, hostQSet q { h with sendTail := n } s)
    | 1 => (.ok, hostQSet q { h with recvTail := n } s)
    | _ => (.ok, cplShow q (cplDrain q h.fill.length (hostQSet q { h with cplHead := n } s)))

/-- The address of HST_HQnn_DOORBELL. -/
def doorbellAddr (q : Nat) : Nat := F.HST_HQnn_DOORBELL_RING.addr + q * F.HST_HQnn_DOORBELL_RING.step

/-- SEND_TAIL (R481). -/
def execSendTail (who : Initiator) (q : Fin 64) (v : Word) (s : State) : Res :=
  .next (hostWrite who (doorbellAddr q) (doorbell who 0 q v.toNat) s)
/-- RECEIVE_TAIL (R481). -/
def execReceiveTail (who : Initiator) (q : Fin 64) (v : Word) (s : State) : Res :=
  .next (hostWrite who (doorbellAddr q) (doorbell who 1 q v.toNat) s)
/-- COMPLETION_HEAD (R481). -/
def execCompletionHead (who : Initiator) (q : Fin 64) (v : Word) (s : State) : Res :=
  .next (hostWrite who (doorbellAddr q) (doorbell who 2 q v.toNat) s)

/-! ### Descriptors (R481, R482) -/

/-- Whether DIRECT may name queue d (R481, R487). -/
def directOk (d : Nat) (s : State) : Bool :=
  bit (hostPerm 0 s) 8
    && (decide (d ≤ 671) || (decide (736 ≤ d) && decide (d ≤ 767))
        || (decide (816 ≤ d) && decide (d ≤ 943) && bit (leAt (cfgRec C.hostIf 0 s) 16 16) (d - 816)))

/-- The status of a send descriptor before its frame enters (R481, R482, R487). -/
def sendStatus (q : Nat) (d : List Byte) (s : State) : Status :=
  let len := leAt d 8 2
  let cls := byteAt d 0x0E
  if len < 16 ∨ hqN q 4 2 s < len ∨ (8 ≤ cls ∧ cls ≠ 0xFF) then .fault
  else if bit (byteAt d 0x0A) 0 && !directOk (leAt d 0x0C 2) s then .denied
  else .ok

/-- The frame of a send descriptor (R137, R138, R482). -/
def sendFrame (q i : Nat) (d buf : List Byte) (s : State) : Fr :=
  let fl := byteAt d 0x0A
  let cls := byteAt d 0x0E
  let dst := leAt d 0x0C 2
  let direct := bit fl 0
  { data := if bit fl 2 then buf ++ fcsBytes buf else buf, src := 8 * 4096 + q, tsReq := bit fl 1,
    cls := if cls = 0xFF then hqN q 1 1 s % 8 else cls, user := leAt d 0x10 4, untag := direct, lookup := if direct then directedKind else 0,
    rsv := direct && isRsvQueue dst, dests := if direct then [(dst, false, 0)] else [], cpl := some (q, i, bit fl 3) }

/-- The frame of a send descriptor is linked or consumed by lookup (R482): it completes, or waits for its timestamp. -/
def sendLinked (x : Fr) (s : State) : State := match x.cpl with
  | none => s
  | some (q, i, intr) =>
    if x.tsReq then hostQSet q { hostQ q s with stamps := (hostQ q s).stamps ++ [(i, intr)] } s
    else hostComplete q (sendRecord 0 .ok 0 i) intr s

/-- The frame of a send descriptor has found no queue (R482): dropped by lookup it completes OK, without a timestamp;
refused at admission it completes BUSY. -/
def sendEnded (refused : Bool) (x : Fr) (s : State) : State := match x.cpl with
  | none => s
  | some (q, i, intr) =>
    if refused then hostComplete q (sendRecord 0 .busy 0 i) intr s
    else hostComplete q (sendRecord 0 .ok (if x.tsReq then 2 else 0) i) intr s

/-- Thermal shedding from level 2 on holds queue q back: one send descriptor in 10 µs (R495). -/
def sendHeld (q : Nat) (s : State) : Bool :=
  decide (2 ≤ rd F.PWR_STAT_THERM s) && (hostQ q s).takenAt.any fun t => decide (s.time.loc < t + 10000)

/-- SEND_DESCRIPTOR (R481, R482, R495): the next send descriptor, with the buffer it names. It waits while FN8's staging is
full (R127); a frame longer than the buffer stores is consumed and dropped there (R124). -/
def execSendDescriptor (q : Fin 64) (desc buf : List Byte) (s : State) : Res :=
  guardWf (decide (desc.length = 32) && decide (buf.length = leAt desc 8 2)) "send descriptor" (.next (
    let h := rd (F.HST_HQnn_PTRS_SEND_HEAD.u q) s % hqSize q s
    let x := sendFrame q h desc buf s
    if !hqDma q s || h == (hostQ q s).sendTail || cplFull q s || sourceWaits x.rsv 8 s || sendHeld q s then s
    else
      let s := wr (F.HST_HQnn_PTRS_SEND_HEAD.u q) ((h + 1) % hqSize q s) (hostQSet q { hostQ q s with takenAt := some s.time.loc } s)
      match sendStatus q desc s with
      | .ok =>
        if bit (byteAt desc 0x0A) 0 then
          match submit 8 x s with
          | (some _, s) => s
          | (none, s) => sendEnded (decide (x.data.length ≤ 16384)) x s
        else match submitLookup 8 x s with
          | (some _, s) => s
          | (none, s) => sendEnded false x s
      | st => hostComplete q (sendRecord 0 st 0 h) (bit (byteAt desc 0x0A) 3) s))

/-- A queue's head frame is complete in the buffer and can be handed over whole (R149). -/
def headWhole (q : Nat) (s : State) : Bool := match (qu q s).ents with
  | [] => false
  | e :: _ => (fr e.fid s).phase == 3 && !(fr e.fid s).inProg

/-- Every cell of queue q's head frame has been read for its consumer (R131). -/
def headRead (q : Nat) (s : State) : Bool := match (qu q s).ents with
  | [] => false
  | e :: _ => headWhole q s && decide (entLen e s ≤ e.read)

/-- RECEIVE_DESCRIPTOR (R481, R482): the head frame, its cells read through FN8, goes into the buffer behind its 32-byte
descriptor, cut at the buffer's length; the completion carries the total length. -/
def execReceiveDescriptor (q : Fin 64) (desc : List Byte) (s : State) : Res :=
  guardWf (decide (desc.length = 32)) "receive descriptor" (.next (
    let h := rd (F.HST_HQnn_PTRS_RECV_HEAD.u q) s % hqSize q s
    let len := leAt desc 8 2
    let intr := bit (leAt desc 10 2) 3
    if !hqDma q s || h == (hostQ q s).recvTail || cplFull q s then s
    else if decide (len < 64) || decide (16416 < len) || len % 8 != 0 then
      hostComplete q (cplRecord 0 1 Status.fault.code 0 h 0) intr
        (wr (F.HST_HQnn_PTRS_RECV_HEAD.u q) ((h + 1) % hqSize q s) s)
    else if !headRead (672 + q) s then s
    else match popHead (672 + q) s with
      | (none, s) => s
      | (some e, s) =>
        let b := entDesc e s ++ (fr e.fid s).data
        emit (.dma (leAt desc 0 8) (b.take len)) (wr (F.HST_HQnn_PTRS_RECV_HEAD.u q) ((h + 1) % hqSize q s) s)
          |> releaseFrame e.fid
          |> hostComplete q (cplRecord 0 1 0 (if len < b.length then 4 else 0) h b.length) intr))

/-! ### Completion waits (R483) -/

/-- A write of HST_HQnn_WAIT. -/
def waitWrite (who : Initiator) (q v : Nat) (s : State) : Status × State :=
  if hostOf who ≠ some (hqIf q s) ∨ !hqOn q s then (.denied, s)
  else (.ok, hostQSet q { hostQ q s with waitAt := s.time.loc }
    (s |> wr (F.HST_HQnn_WAIT_TICKS.u q) v |> wrB (F.HST_HQnn_STAT_WAIT_ARMED.u q) (v != 0)))

/-- HST_HQNN_WAIT (R483). -/
def execHstHqnnWait (who : Initiator) (q : Fin 64) (v : Word) (s : State) : Res :=
  .next (hostWrite who (F.HST_HQnn_WAIT_TICKS.addr + q * F.HST_HQnn_WAIT_TICKS.step) (waitWrite who q v.toNat) s)

/-- The timeout of queue q's armed wait has come, in ticks of the time base since it was armed (R79, R483). -/
def waitDue (q : Nat) (s : State) : Bool :=
  rdB (F.HST_HQnn_STAT_WAIT_ARMED.u q) s && decide ((hostQ q s).waitAt + 4 * rd (F.HST_HQnn_WAIT_TICKS.u q) s ≤ s.time.loc)

/-- COMPLETION_WAIT (R483): the timeout of an armed wait; a completion record ends the wait when it is written. -/
def execCompletionWait (q : Fin 64) (s : State) : Res :=
  .next (when (waitDue q s) (fun s => waitEnd q 2 (rdB (F.HST_HQnn_CTRL_TO_INT.u q) s) s) s)

/-! ### The pop stash (R484–R486) -/

/-- T_STASH [ns] (R488). -/
def tStash (s : State) : Nat := (let v := cfgN C.hostHdr 0 0 2 s; if v = 0 then 20 else v) * 100000
/-- The stash entries of an interface: 0–7 PCIe, 8–15 xSPI. -/
def stashOf (i : Nat) (s : State) : List (Nat × Stash) := s.hst.stash.filter fun e => e.1 / 8 == i
/-- The entry that stashes an item of queue q, if any. -/
def stashFind (q : Nat) (s : State) : Option (Nat × Stash) := s.hst.stash.find? fun e => e.2.q == q
/-- The counts of held entries. -/
def stashShow (s : State) : State :=
  s |> wr F.HST_STASH_STAT_USED_PCIE (stashOf 0 s).length |> wr F.HST_STASH_STAT_USED_XSPI (stashOf 1 s).length
/-- Free entry e: the item's cells return. -/
def stashFree (e : Nat) (s : State) : State := match tfind s.hst.stash e with
  | none => s
  | some x => stashShow (releaseFrame x.fid (readStop (· == .stash e) { s with hst := { s.hst with stash := terase s.hst.stash e } }))
/-- An unclaimed pop (R485). -/
def stashUnclaimed (e : Nat) (s : State) : State := match tfind s.hst.stash e with
  | none => s
  | some x => s |> record 0x0B00 x.q (fr x.fid s).data.length |> inc F.HST_STASH_STAT_UNCLAIMED
      |> irqCause F.HST_IRQ_UNCLAIMED |> stashFree e

/-- The pop word of an entry (R484). -/
def popWord (rep full : Bool) (e len : Nat) : Nat := 2 ^ 31 + 2 ^ 30 * b2n rep + 2 ^ 29 * b2n full + e % 16 * 2 ^ 20 + len % 2 ^ 15

/-- A read of HST_HQnn_POP by interface i that pops (R484). -/
def popRead (i q : Nat) (s : State) : (Status × Nat) × State :=
  if !isFull s then ((.busy, 0xFFFFFFFF), s)
  else if !hqOn q s ∨ hqIf q s ≠ i then ((.denied, 0xFFFFFFFF), s)
  else if !rdB (F.HST_HQnn_CTRL_EN.u q) s ∨ rd (F.HST_HQnn_CTRL_MODE.u q) s ≠ 1 ∨ !bit (hqN q 0 1 s) 2 then ((.ok, 0), s)
  else match stashFind (672 + q) s with
    | some (e, x) =>
      ((.ok, popWord true false e (fr x.fid s).data.length),
        inc F.HST_STASH_STAT_REPEATS { s with hst := { s.hst with stash := tput s.hst.stash e { x with at_ := s.time.loc } } })
    | none =>
      if !headWhole (672 + q) s then ((.ok, 0), s)
      else match (List.range 8).find? fun k => (tfind s.hst.stash (8 * i + k)).isNone with
        | none => ((.busy, 2 ^ 29), s)
        | some k => match popHead (672 + q) s with
          | (none, s) => ((.ok, 0), s)
          | (some x, s) =>
            ((.ok, popWord false false (8 * i + k) (fr x.fid s).data.length),
              stashShow (readAsk (.stash (8 * i + k)) (672 + q) x.fid 0 (entLen x s) { s with hst := { s.hst with stash := tput s.hst.stash (8 * i + k) ⟨672 + q, x.fid, s.time.loc⟩ } }))

/-- The answer to a read of n bytes (R473, R477, R479): the xSPI target sends the status and its complement first; PCIe
returns the data, ones where xSPI would answer DENIED, ABSENT or FAULT. -/
def answer (via : View) (st : Status) (b : List Byte) (s : State) : State := match via with
  | .xspiPlain => emit (.resp (leBytes 1 st.code ++ leBytes 1 (255 - st.code) ++ b)) s
  | .xspiPop => emit (.resp (leBytes 1 st.code ++ leBytes 1 (255 - st.code) ++ b)) s
  | _ => emit (.resp (if st = .denied ∨ st = .absent ∨ st = .fault then List.replicate b.length 0xFF else b)) s

/-- A write of HST_HQnn_ACK (R485). -/
def ackWrite (who : Initiator) (q : Nat) (s : State) : Status × State :=
  if hostOf who ≠ some (hqIf q s) ∨ !hqOn q s then (.denied, s)
  else (.ok, match stashFind (672 + q) s with
    | some (e, _) => stashFree e s
    | none => s)

/-- HST_HQNN_ACK (R485). -/
def execHstHqnnAck (who : Initiator) (q : Fin 64) (s : State) : Res :=
  .next (hostWrite who (F.HST_HQnn_ACK_ACK.addr + q * F.HST_HQnn_ACK_ACK.step) (ackWrite who q) s)

/-- T_STASH (R485): the item's time is over since its pop or its latest repeat. -/
def execTStash (e : Fin 16) (s : State) : Res :=
  .next (match tfind s.hst.stash e with
    | some x => if x.at_ + tStash s ≤ s.time.loc then stashUnclaimed e s else s
    | none => s)

/-! ### Endpoint resets (R470, R472) -/

/-- The endpoint and the DMA state of the PCIe host queues are reset (R472). -/
def pcieReset (s : State) : State :=
  let s := each ((List.range 64).filter fun q => hqIf q s == 0) (fun q s =>
    hostQSet q {} s |> wrB (F.HST_HQnn_CTRL_EN.u q) false |> wr (F.HST_HQnn_PTRS_CPL_TAIL.u q) 0
      |> wr (F.HST_HQnn_PTRS_RECV_HEAD.u q) 0 |> wr (F.HST_HQnn_PTRS_SEND_HEAD.u q) 0
      |> wrB (F.HST_HQnn_STAT_CPL_FULL.u q) false |> wrB (F.HST_HQnn_STAT_WAIT_ARMED.u q) false) s
  let s := { s with qm := { s.qm with frames := tmap (fun _ x =>
      if x.cpl.any (fun c => hqIf c.1 s == 0) then { x with cpl := none } else x) s.qm.frames } }
  each ((stashOf 0 s).map (·.1)) stashUnclaimed { s with hst := { s.hst with msix := [] } }

/-- PCIE_RESET (R472): the link is down as well. -/
def execPcieReset (s : State) : Res :=
  .next (pcieReset s |> wrB F.HST_STAT_PCIE_LINK false |> wr F.HST_STAT_PCIE_SPEED 0 |> wr F.HST_STAT_PCIE_WIDTH 0)
/-- FUNCTION_LEVEL_RESET (R472). -/
def execFunctionLevelReset (s : State) : Res := .next (pcieReset s)

/-- PCIE_LINK_CHANGE (R470): speed 0 is a link that is down. -/
def execPcieLinkChange (speed : Fin 5) (width : Fin 3) (s : State) : Res :=
  .next (s |> wrB F.HST_STAT_PCIE_LINK (speed.val != 0) |> wr F.HST_STAT_PCIE_SPEED speed
    |> wr F.HST_STAT_PCIE_WIDTH (if speed.val = 0 then 0 else width.val))

end Sys2Proof.Machine
end

