-- ==== Sys2Proof/Machine/CtlMem.lean ====
section
/-! DEFINITION. The control cores' state: slots, windows, frame holders and waits (10_control_cores_counterproof.md,
R344–R350, R365). -/

namespace Sys2Proof.Machine

/-- The major frame of core n [µs] (R348, R365). -/
def majorUs (n : Nat) (s : State) : Nat := cfgN C.ctlHdr 0 (0x10 + 4 * n) 4 s
/-- Field o of width w of window record i: offset, length, core, slot. -/
def winN (i o w : Nat) (s : State) : Nat := cfgN C.ctlWin i o w s
/-- The window records of core n, in their order. -/
def winsOf (n : Nat) (s : State) : List Nat := (cfgIdx C.ctlWin s).filter fun i => winN i 6 1 s == n
/-- The position of local time in the major frame of core n [ns] (R348). -/
def framePos (n : Nat) (s : State) : Nat := s.time.loc % (majorUs n s * 1000)
/-- Local time lies in window i, and the time that remains in it [ns]. -/
def winLeft (n i : Nat) (s : State) : Option Nat :=
  let o := winN i 0 4 s * 1000
  let e := o + winN i 4 2 s * 1000
  if o ≤ framePos n s ∧ framePos n s < e then some (e - framePos n s) else none
/-- The window that runs: the one that began last, while local time lies in it. -/
def winNow (n : Nat) (s : State) : Option Nat := match (core n s).cur with
  | some i => if (winLeft n i s).isSome then some i else none
  | none => none
/-- The core runs its schedule: the plate uses it, and it is not fenced. -/
def coreUsed (n : Nat) (s : State) : Bool := majorUs n s != 0 && !(slotsOn n s).isEmpty
/-- CTL_CCn_STAT.STATE: 0 stopped, 1 running, 2 waiting, 3 outside windows, 4 fenced, 6 halted by debug. -/
def coreState (n : Nat) (s : State) : Nat :=
  if (core n s).fenced then 4
  else if (core n s).halted then 6
  else if !coreUsed n s then 0
  else match winNow n s with
    | none => 3
    | some i => if (task n (winN i 7 1 s) s).st = 2 then 2 else 1

/-! ### Frame holders and queue ports (R346, R350, R353) -/

/-- A free holder. -/
def holderFree (n : Nat) (s : State) : Option Nat := (List.range 16).find? fun h => (tfind (core n s).holders h).isNone
/-- The holders changed; CTL_CCn_ECC.HELD follows. -/
def holdersSet (n : Nat) (t : Tbl Nat) (s : State) : State :=
  wr (F.CTL_CCn_ECC_HELD.u n) t.length (coreSet n { core n s with holders := t } s)
/-- Pop queue q into a free holder: the holder, none when the queue has no frame to give or no holder is free. -/
def popHolder (n q : Nat) (s : State) : Option Nat × State := match holderFree n s with
  | none => (none, s)
  | some h =>
    if !headWhole q s then (none, s)
    else match popHead q s with
      | (some e, s) => (some h, readAsk (.holder n h) q e.fid 0 (entLen e s) (holdersSet n (tput (core n s).holders h e.fid) s))
      | (none, s) => (none, s)
/-- Release the frame in holder h. -/
def holderRelease (n h : Nat) (s : State) : State := match tfind (core n s).holders h with
  | some f => releaseFrame f (readStop (· == .holder n h) (holdersSet n (terase (core n s).holders h) s))
  | none => s
/-- A load of POP_k (R346): the holder number, or bit 31. -/
def popPort (n k : Nat) (s : State) : Nat × State := match popHolder n (736 + 8 * n + k) s with
  | (some h, s) => (h, s)
  | (none, s) => (2 ^ 31, s)

/-! ### Waits (R154, R155, R350) -/

/-- Slot k of core n leaves every wait list. -/
def coreUnwait (n k : Nat) (s : State) : State :=
  each ((List.range 8).map fun j => 736 + 8 * n + j) (fun q s =>
    quSet q { qu q s with waits := (qu q s).waits.filter fun w => !(w.eng == 16 + n && w.ctx == k) } s) s
/-- The wait of slot k ends with an outcome: a holder, or 2^31 for none. -/
def waitOver (n k out : Nat) (s : State) : State :=
  taskSet n k { task n k s with st := 1, waitQ := 0, outcome := some out } (coreUnwait n k s)
/-- A frame has been linked into queue q of core n: the first waiter takes it (R155, R350). -/
def coreLinked (q : Nat) (s : State) : State := match (qu q s).waits with
  | [] => s
  | w :: _ => match popHolder (w.eng - 16) q s with
    | (some h, s) => waitOver (w.eng - 16) w.ctx h s
    | (none, s) => s
/-- The wait begins (R154, R350): a masked queue that holds a frame ends it at once, so does a timeout of 0; otherwise the
slot enters the wait list of every masked queue. -/
def waitBegin (n k mask timeout : Nat) (s : State) : State :=
  let qs := (bitList mask 8).map fun j => 736 + 8 * n + j
  match qs.find? fun q => headWhole q s && (holderFree n s).isSome with
  | some q => match popHolder n q s with
    | (some h, s) => waitOver n k h s
    | (none, s) => s
  | none =>
    if timeout = 0 then waitOver n k (2 ^ 31) s
    else taskSet n k { task n k s with st := 2, waitQ := mask % 256, until_ := waitUntil timeout s }
      (each qs (fun q s => quSet q { qu q s with waits := (qu q s).waits ++ [⟨16 + n, k, 0⟩] } s) s)
/-- The timeout of a core's wait has run out with its queues still empty (R154). -/
def waitExpire (n k : Nat) (s : State) : State :=
  if (task n k s).st = 2 && waitOverdue (task n k s).until_ s then waitOver n k (2 ^ 31) (inc F.QM_POP_TIMEOUT_COUNT s) else s

/-- WAIT_END (R29, R154, R350): a frame in a masked queue ends the wait, else the timeout does. -/
def execWaitEnd (n : Fin 4) (slot : Fin 16) (s : State) : Res :=
  .next (if (task n slot s).st = 2 then
    match ((bitList (task n slot s).waitQ 8).map fun j => 736 + 8 * n.val + j).find? fun q => headWhole q s && (holderFree n s).isSome with
    | some q => match popHolder n q s with
      | (some h, s) => waitOver n slot h s
      | (none, s) => s
    | none => waitExpire n slot s
  else s)

/-- POP_K (R346): the popped queue's answer goes to the core. -/
def execPopK (n : Fin 4) (k : Fin 8) (s : State) : Res :=
  .next (if (core n s).fenced || !domRuns .ctl s then s else let (v, s) := popPort n k s; emit (.resp (leBytes 4 v)) s)
/-- REL_H (R346). -/
def execRelH (n : Fin 4) (h : Fin 16) (s : State) : Res := .next (if (core n s).fenced || !domRuns .ctl s then s else holderRelease n h s)

end Sys2Proof.Machine
end

