-- ==== Sys2Proof/Machine/Switch.lean ====
section
/-! DEFINITION. The path of a frame through the switch core: reception, lookup result, cell writes and reads, linking,
transmission and collisions (R20, R90–R92, R123–R165, R193–R195, R204–R209, R222, R229). -/

namespace Sys2Proof.Machine

/-! ### Taking frames out (R137, R143, R150, R158) -/

/-- Remove the entry of frame f from queue q; its reference is finished. -/
def removeEntry (q f : Nat) (s : State) : State :=
  let Q := qu q s
  match Q.ents.find? (·.fid == f) with
  | none => s
  | some e =>
    unref f (quSet q { Q with ents := Q.ents.filter (·.fid != f), cells := Q.cells - entCells e s } s)

/-- A frame leaves every queue and is forgotten; with `orphan` its cells stay marked as used until the scraper finds
them (R156, R158). -/
def dropEverywhere (orphan : Bool) (f : Nat) (s : State) : State :=
  let s := each (queuesOf f s) (fun q s =>
    let Q := qu q s
    let n := ((Q.ents.filter (·.fid == f)).map (entCells · s)).sum
    quSet q { Q with ents := Q.ents.filter (·.fid != f), cells := Q.cells - n } s) s
  let s := { s with qm := { s.qm with stage := tmap (fun _ l => l.filter (· != f)) s.qm.stage, cur := s.qm.cur.filter (·.2.2 != f) } }
  if orphan then
    let s := unhold (fr f s).need (fr f s).dests s
    { s with qm := { s.qm with frames := terase s.qm.frames f } }
  else dropFrame f s

/-- Whether the forwarding of a frame has started (R149). -/
def forwarding (f : Nat) (s : State) : Bool :=
  s.qm.cur.any (·.2.2 == f) || s.qm.queues.any fun e => e.2.ents.any fun x => x.fid == f && decide (0 < x.read)

/-! ### Reception (R90, R204–R206, R223, R415) -/

/-- The bit of a destination address in a port's hash map (R206). -/
def hashPass (p dst : Nat) (s : State) : Bool :=
  !(p < 16 && ethFlag p 3 s) || !isGroup dst || dst == bcast || dst / 16 == 0x0180C200000
    || (let i := crc32 (beBytes 6 dst) % 512
        bit (byteAt (cfgRec C.ethHash p s) (i / 8)) (i % 8))

/-- Count a received frame's error (R205, R225). -/
def rxError (p : Nat) (len : Bool) (s : State) : State :=
  if p < 16 then inc (if len then F.ETH_PORTpp_RX_ERR_LENGTH.u p else F.ETH_PORTpp_RX_ERR_FCS.u p) s
  else inc (if len then F.T1S_SGnn_ERR_LENGTH.u (p - 16) else F.T1S_SGnn_ERR_FCS.u (p - 16)) s

/-- The staging of FN0 to FN6 is full: a write waits for a free cell and 16 cells or more stand behind it (R127). -/
def stagingFull (node : Nat) (s : State) : Bool := s.qm.blocked.contains node && decide (16 ≤ unwritten false node s)

/-- A frame that the MAC passes on enters its node's staging (R92, R127); x says what the MAC found of it. -/
def rxEnter (p : Nat) (x : Fr) (s : State) : State :=
  let node := portNode p
  if stagingFull node s then inc F.FAB_STAGE_DROP_COUNT s
  else
    let (t, s) := rawCapture s
    let (f, s) := newFrame { x with need := cellsOf x.data.length, ts := t + cfgN C.timePort p 0 2 s, src := node * 4096 + p } s
    stagePush node f s

/-- The MACsec and FRER functions of a port on a frame without its FCS; `bad` for one whose FCS was wrong. -/
def rxSecurity (p : Nat) (body : List Byte) (bad : Bool) (s : State) : State :=
  if bad then rxEnter p { data := body ++ fcsBytes body, rxBad := true, fcsErr := true } s
  else
    let (r, late, s) := if p < 16 then msValidate p body s else (some body, false, s)
    match r with
    | none => s
    | some b =>
      if late then rxEnter p { data := b ++ fcsBytes b, rxBad := true } s
      else match frerIngress p b s with
        | (none, s) => s
        | (some b, s) => rxEnter p { data := b ++ fcsBytes b } s

/-- FRAME_RECEIVED (R204–R206, R214): bytes from the destination address to the FCS, and what the MAC finds at the end. A
frame in a segment's transmit opportunity uses it (R226). -/
def execFrameReceived (port : Fin 32) (bytes : List Byte) (rx : RxEnd) (s : State) : Res :=
  .next (
    if !portUp port s ∨ !domRuns .fab s then s
    else if rx = .assembly then when (decide (port.val < 16)) (inc (F.ETH_PORTpp_RX_FILT_ASM.u port)) s
    else
      let p := port.val
      let fcsOk := rx == .good
      let s := when (decide (16 ≤ p)) (t1sUsed (p - 16)) s
      let s := if p < 16 then incWrap (F.ETH_PORTpp_RX_FRAMES_COUNT.u p) s else incWrap (F.T1S_SGnn_RX_FRAMES_COUNT.u (p - 16)) s
      if bytes.length < 64 then rxError p true s
      else
        let big := decide (portMax p s < bytes.length)
        let s := if big then rxError p true s else if fcsOk then s else rxError p false s
        if frEt bytes = 0x8808 then s
        else if !hashPass p (frDst bytes) s then inc (F.ETH_PORTpp_RX_FILT_HASH.u p) s
        else if 16384 < bytes.length then inc F.FAB_STAGE_DROP_COUNT s
        else if big then rxEnter p { data := bytes.take (portMax p s + 1), cut := true, rxBad := true, fcsErr := !fcsOk } s
        else rxSecurity p (bytes.take (bytes.length - 4)) (!fcsOk) s)

/-! ### The lookup result (R141, R147, R161–R163, R179, R193–R195) -/

/-- A copy of a frame's first 128 bytes to a queue, with its kind in the lookup data (R163, R179, R193). -/
def copyTo (node : Nat) (x : Fr) (kind cls q : Nat) (s : State) : Bool × State :=
  let (r, s) := submit node { data := x.data.take 128, ts := x.ts, src := x.src, cls := cls, lookup := kind * 8192 + 0xFFF,
                              untag := true, dests := [(q, false, 0)] } s
  (r.isSome, s)

/-- Sampling of a port (R193). -/
def sampleFrame (x : Fr) (s : State) : State :=
  let node := x.src / 4096
  let p := x.src % 4096
  let N := cfgN C.l2Port p 6 2 s
  if 6 < node ∨ x.fcsErr ∨ N = 0 then s
  else
    let n := tget 0 s.lkp.sample p + 1
    if n < N then { s with lkp := { s.lkp with sample := tput s.lkp.sample p n } }
    else
      let pipe := if node ≤ 5 then 0 else 1
      let (ok, s) := copyTo node x 5 0 (804 + pipe) { s with lkp := { s.lkp with sample := tput s.lkp.sample p 0 } }
      if ok then incWrap (F.MIR_SAMPLE_Pp_COUNT.u pipe) s else inc (F.MIR_SAMPLE_DROP_Pp_COUNT.u pipe) s

/-- The copy that lets a control core answer with ICMP, at no more than the section's rate (R179): the frame's first 128
bytes to the section's queue whenever the rate is above 0. -/
def icmpCopy (node : Nat) (x : Fr) (s : State) : State :=
  let sec := s.time.loc / 1000000000
  let n := if s.lkp.icmp.1 = sec then s.lkp.icmp.2 else 0
  if cfgN C.l3Hdr 0 4 2 s = 0 then s
  else (copyTo node x 3 x.cls (cfgN C.l3Hdr 0 6 2 s) { s with lkp := { s.lkp with icmp := (sec, n + 1) } }).2

/-- The sessions of mirror copies, as a mask (R195). -/
def mirMask (ms : List (Nat × Bool × Nat)) : Nat := ofBits (ms.map fun m => m.1 - 800)

/-- Admission of mirror copies, counted per session (R195): those that are admitted and find an entry. `own` entries are
still to be taken for the original. -/
def mirrorAdmit (need cls own : Nat) (ms : List (Nat × Bool × Nat)) (s : State) : List (Nat × Bool × Nat) × State :=
  ms.foldl (fun (a : List (Nat × Bool × Nat) × State) m =>
    let n := m.1 - 800
    let (ds, s) := if entriesFree (own + a.1.length + 1) a.2 then admitAll false need cls false [m] a.2 else ([], a.2)
    if ds = [] then (a.1, inc (F.MIR_SESSn_DROP_COUNT.u n) s) else (a.1 ++ ds, incWrap (F.MIR_SESSn_COPY_COUNT.u n) s)) ([], s)

/-- Whether a destination queue takes frame f of a port cut-through (R147): no frame is linked there, and none of the same
port is still to be linked there, so that the port's frames keep their order (R140). -/
def ctOk (node port f q : Nat) (s : State) : Bool :=
  decide (node ≤ 5) && decide (q < 128) && bit (qFlags q s) 1 && decide (portMbit (q / 8) s ≤ portMbit port s)
    && (linked q s).isEmpty && bit (gatesNow (q / 8) s) (q % 8) && creditOk (q / 8) (q % 8) s
    && !(staged node s).any fun g => g != f && (fr g s).src == (fr f s).src && (fr g s).dests.any fun d => d.1 == q

/-- An admitted frame takes the result of its lookup: it waits for its cells with the destinations `later` and is forwarded
at once to `now`; a frame that is bad and has neither is forgotten (R141, R147). -/
def admitTaken (f : Nat) (k : Lk) (d : List Byte) (ds now later : List (Nat × Bool × Nat)) (tried : Bool) (s : State) : State :=
  let x := fr f s
  let s := if ds = [] then sendEnded tried x s else s
  frSet f { x with data := d, cls := k.cls, vlan := k.vlan, stream := k.stream, lookup := lookupData k, noEvict := k.prot,
                   dests := later, refs := now.length + later.length, phase := 1, ct := !now.isEmpty,
                   inProg := !now.isEmpty, cpl := if ds = [] then none else x.cpl } s

/-- The bytes that go on: a routed frame has a new FCS (R177); one whose storing stopped holds none. -/
def lookedBytes (cut : Bool) (k : Lk) : List Byte :=
  if k.routed && !k.ports.isEmpty && !cut then k.d.take (k.d.length - 4) ++ fcsBytes (k.d.take (k.d.length - 4)) else k.d

/-- A frame that leaves the staging unadmitted. -/
def lookedGone (node f : Nat) (s : State) : State := dropFrame f (stageDrop node f s)

/-- A frame that no queue admits: dropped and counted under R141 when it had destinations. -/
def lookedRefused (qs : List Nat) (s : State) : State := dropThr (qs.map fun q => (q, false, 0)) s

/-- Admission of a looked-up frame to its queues and mirror copies; `ct` are the queues that take it cut-through. A frame
is mirrored on egress by the queues that admit it (R195). -/
def admitQueues (node f : Nat) (k : Lk) (qs ct : List Nat) (upset : Option TableUpset) (s : State) : State :=
  let x := fr f s
  let a := admitAll false x.need k.cls k.prot (qs.map fun q => (q, false, 0)) s
  let s := if a.1 = [] then lookedRefused qs a.2 else a.2
  let b := if a.1 = [] then (true, s) else admitLinks x.need a.1 s
  let ok := if b.1 then a.1 else []
  let ms := mirrorDests upset k.pipe k.port k.mirAcl (ok.map (·.1)) b.2
  let m := if x.rxBad || !b.1 then ([], b.2) else mirrorAdmit x.need k.cls ok.length ms b.2
  if ok = [] ∧ m.1 = [] then sendEnded (!qs.isEmpty) x (lookedGone node f m.2)
  else
    let now := ok.filter fun e => ct.contains e.1
    let s := if x.rxBad then unhold x.need (ok.filter fun e => !ct.contains e.1) m.2 else m.2
    let later := if x.rxBad then [] else ok.filter (fun e => !ct.contains e.1) ++ m.1
    let s := admitTaken f k (lookedBytes x.cut k) ok now later (!qs.isEmpty) s
    let s := frSet f { fr f s with mirs := mirMask m.1 } s
    if now.isEmpty ∧ later.isEmpty then lookedGone node f s
    else
      let s := each now (fun e => linkFrame f e.1 false 0) (when (!now.isEmpty) (incWrap F.FAB_CT_CNT_COUNT) s)
      bulkMark (when (!now.isEmpty) (frerGenerate f) s)

/-- The result of a lookup meets admission (R141, R147): the frame waits for its cells with the destinations that admit it,
linked at once where it is cut through; with none it is gone. -/
def admitLooked (node f : Nat) (k : Lk) (upset : Option TableUpset) (s : State) : State :=
  let x := fr f s
  let qs := k.dests.eraseDups
  let ct := qs.filter (ctOk node k.port f · s)
  if x.rxBad && ct.isEmpty then lookedGone node f s
  else admitQueues node f k qs ct upset s

/-- LOOKUP_RESULT (R161): the oldest header of the node leaves the pipeline. -/
def execLookupResult (node : Fin 11) (upset : Option TableUpset) (s : State) : Res :=
  .next (if !domRuns .fab s then s else match (staged node s).find? fun f => (fr f s).phase == 0 with
    | none => s
    | some f =>
      let x := fr f s
      let port := if node.val ≤ 6 then x.src % 4096 else 255
      let s := sampleFrame x s
      let (k, s) := pipeline upset node port x.cls false x.data s
      let s := if k.icmp && k.drop.isSome then icmpCopy node x s else s
      admitLooked node f k upset s)

/-! ### Cell writes (R126–R130, R142) -/

/-- The frame that a node writes next: a stipple-bound frame waits for no bulk frame (R27, R35); else the first that is not
fully written, once its destinations are known. -/
def writing (node : Nat) (s : State) : Option Nat :=
  match (staged node s).find? fun f => (fr f s).rsv && (fr f s).phase == 1 with
  | some f => some f
  | none => match (staged node s).find? fun f => (fr f s).phase != 2 with
    | some f => if (fr f s).phase = 1 then some f else none
    | none => none

/-- The first spare bank of rotor r that is untaken and has a free cell (R130). -/
def spareBank (r : Nat) (taken : List Nat) (rsv : Bool) (s : State) : Option Nat :=
  ((List.range 5).map fun i => (11 + i + r) % 16).find? fun b => !taken.contains b && bankFree b rsv s

/-- Write one cell of frame f from a node into a bank; with the tail cell the frame waits for its link (R140). -/
def writeCell (node f bank : Nat) (s : State) : State :=
  let x := fr f s
  let (c, s) := takeCell bank x.rsv s
  let cells := x.cells ++ [c]
  let done := decide (x.need ≤ cells.length)
  frSet f { x with cells := cells, phase := if done then 2 else 1, inProg := x.inProg && !done } s
    |> incWrap (F.FAB_FNn_WR_CELLS.u node)

/-- A node that finds no bank keeps its cell; on FN0 to FN6 a full staging ends the frame (R127, R130, R142). -/
def writeBlocked (node f : Nat) (s : State) : State :=
  let s := { s with qm := { s.qm with blocked := sins s.qm.blocked node } }
  if node ≤ 6 ∧ 16 ≤ unwritten false node s then
    let s := inc F.QM_DROP_POOL_COUNT s
    if forwarding f s then stopStoring f s else dropEverywhere false f s
  else s

/-- The next cell of a discarded frame arrives at its node and is discarded (R150); with the last one the frame is
forgotten, and the cells it held return in the background. -/
def discardCell (node f : Nat) (s : State) : State :=
  let x := fr f s
  if x.need ≤ x.cells.length + x.skip + 1 then sendEnded false x (dropFrameBg false f (stageDrop node f s))
  else frSet f { x with skip := x.skip + 1 } s

/-- The writes of a cell time with rotor r: assigned banks first, then spare banks in ascending node order (R129, R130). -/
def cellWrites (r : Nat) (s : State) : State :=
  let want := (List.range 11).filterMap fun n => (writing n s).map fun f => (n, f)
  let s := { s with qm := { s.qm with blocked := [] } }
  let gone := want.filter fun w => (fr w.2 s).gone
  let want := want.filter fun w => !(fr w.2 s).gone
  let s := each gone (fun w => discardCell w.1 w.2) s
  let own := want.filter fun w => bankFree ((w.1 + r) % 16) (fr w.2 s).rsv s
  let rest := want.filter fun w => !bankFree ((w.1 + r) % 16) (fr w.2 s).rsv s
  let s := each own (fun w => writeCell w.1 w.2 ((w.1 + r) % 16)) s
  (rest.foldl (fun (a : List Nat × State) w =>
    match spareBank r a.1 (fr w.2 a.2).rsv a.2 with
    | some b => (b :: a.1, writeCell w.1 w.2 b a.2)
    | none => (a.1, writeBlocked w.1 w.2 a.2)) ([], s)).2

/-! ### What a port sends (R20, R165, R222, R414) -/

/-- The tagging of a frame (without its FCS) on egress (R165). -/
def egressTag (p : Nat) (x : Fr) (b : List Byte) (s : State) : List Byte :=
  if x.untag then b
  else if bit (cfgN C.l2Vlan x.vlan 8 4 s) p then
    if frTagged b then b.take 12 ++ b.drop 16 else b
  else if frTagged b then spliceAt b 14 (beBytes 2 (beAt b 14 2 / 4096 * 4096 + x.vlan))
  else b.take 12 ++ beBytes 2 0x8100 ++ beBytes 2 (x.cls * 8192 + x.vlan) ++ b.drop 12

/-- The bytes of an entry's copy without an FCS: the frame's; of a copy that a flush has ended or a frame whose storing has
stopped all the bytes held (R20); a truncated mirror copy fills its cells with its FCS (R195). -/
def entBytes (x : Fr) (e : QEnt) : List Byte :=
  if e.stop ≠ 0 ∧ e.stop < x.need ∧ (e.trunc = 0 ∨ e.stop < e.trunc) then x.data.take (128 * e.stop)
  else if e.trunc ≠ 0 ∧ e.trunc < x.need then x.data.take (128 * e.trunc - 4)
  else if x.cut then x.data else x.data.take (x.data.length - 4)

/-- The bytes of a frame on the wire of port p, without the FCS: none when it is discarded (R165, R222, R414). -/
def egressBytes (p : Nat) (x : Fr) (e : QEnt) (s : State) : Option (List Byte) × State :=
  let b := egressTag p x (entBytes x e) s
  let (b, big) := match x.frer with
    | some n =>
      let port := decide (p < 4) && ((frerFind 0 (bit · p) (frDst x.data) (if x.vlan = 0 then frVid x.data else x.vlan) s).isSome)
      if port then (addRtag n b, decide (portMax p s < b.length + 10)) else (b, false)
    | none => (b, false)
  if big then (none, inc (F.ETH_PORTpp_TX_DROP_OVERSIZE.u p) s)
  else if p < 16 then msProtect p b s else (some b, s)

/-! ### Cell reads (R131–R134, R207, R208, R214) -/

/-- The ports of an egress node. -/
def nodePorts (node : Nat) : List Nat :=
  if node < 4 then [node] else if node = 4 then (List.range 6).map (4 + ·) else if node = 5 then (List.range 6).map (10 + ·)
  else (List.range 16).map (16 + ·)

/-- The entry of a port's frame in progress. -/
def curEnt (k : Nat) (s : State) : Option QEnt := (tfind s.qm.cur k).bind fun c => (qu c.1 s).ents.find? (·.fid == c.2)
/-- What has left a transmit FIFO of the frame in progress, in 1/1000 bit: no more than its cells read. A preempted frame,
key 32 + p, stands still (R208). -/
def txSent (k : Nat) (s : State) : Nat :=
  let x := tget {} s.qm.fifo k
  let dt := if k < 32 then s.time.loc - x.at_ else 0
  min (((curEnt k s).map fun e => e.read * 1024000).getD 0) (x.sent + dt * portMbit (k % 32) s)
/-- The FIFO's count brought to the present time. -/
def txAdvance (p : Nat) (s : State) : State :=
  { s with qm := { s.qm with fifo := tput s.qm.fifo p { sent := txSent p s, at_ := s.time.loc } } }
/-- The cells in a port's transmit FIFO (R208). -/
def txFill (p : Nat) (s : State) : Nat :=
  ([p, 32 + p].map fun k => ((curEnt k s).map fun e => e.read - txSent k s / 1024000).getD 0).sum
/-- The FIFO has room for a cell: 8 cells on an XG port, 2 on a GE or SG port (R208). -/
def txRoom (p : Nat) (s : State) : Bool := decide (txFill p s < if p < 4 then 8 else 2)

/-- The queues that a port offers, highest first (R207): nothing while its transmitter is gated, its link is down, its
transmit FIFO is full or the medium of a segment is not its own; a preemptable frame in progress gives way to express
frames, and stands while its gate is closed (R216). -/
def portOffers (p : Nat) (s : State) : List Nat :=
  if !portOpen p s || !portUp p s || !txRoom p s then []
  else match tfind s.qm.cur p with
    | some (q, _) =>
      let rest := if headReady q s && !heldAtGate p q s then [q] else []
      if preemptable p q s && (tfind s.qm.cur (32 + p)).isNone then
        rsvReleased 0 p s ++ (([7, 6, 5, 4, 3, 2, 1, 0].filter fun c => bit (ethN p 7 1 s) c && classEligible p c s).map (8 * p + ·)) ++ rest
      else rest
    | none => if 16 ≤ p && !t1sMaySend (p - 16) s then [] else portSchedule p s

/-- Take one rank after the other from several lists. -/
def interleave : Nat → List (List Nat) → List Nat
  | 0, _ => []
  | n + 1, l => l.filterMap List.head? ++ interleave n (l.map List.tail)

/-- The bank of the head cell of queue q. -/
def headBank (q : Nat) (s : State) : Nat := match (qu q s).ents with
  | [] => 0
  | e :: _ => bankOf ((fr e.fid s).cells.getD e.read 0)

/-- A request for a cell (R131): its bank, the queue its frame comes from, and the consumer that holds the frame; none when
the frame is still the head of its queue. -/
abbrev CellReq := Nat × Nat × Option ReadReq

/-- The node through which a reader reads (R15). -/
def Reader.node : Reader → Nat
  | .can _ | .lin _ | .slot _ _ => 7
  | .stash _ => 8
  | .holder _ _ => 9
/-- FN7's ranks (R323): stipple-reserved queues, slots of GV0 to GV3, CAN and LIN transmit reads, slots of GV4 to GV15. -/
def ReadReq.rank (r : ReadReq) : Nat :=
  if isRsvQueue r.q then 0 else match r.who with
    | .slot e _ => if e < 4 then 1 else 3
    | _ => 2
/-- The readers of a node, by rank and then oldest first (R323). -/
def nodeReaders (node : Nat) (s : State) : List ReadReq :=
  let l := s.qm.reads.filter (·.who.node == node)
  [0, 1, 2, 3].flatMap fun k => l.filter (·.rank == k)
/-- The request of a reader: the next cell it waits for. -/
def readerReq (s : State) (r : ReadReq) : CellReq := (bankOf ((fr r.fid s).cells.getD r.next 0), r.q, some r)
/-- A queue whose head frame is complete and has cells still to be read by its consumer (R131). -/
def headUnread (q : Nat) (s : State) : Bool := headWhole q s && headReady q s
/-- The host queues whose head frame the endpoint reads: in DMA mode with a receive descriptor at hand (R136, R482). The
spec ranks them in no way: the model goes by number (log entry 33). -/
def hostHeads (s : State) : List Nat :=
  ((List.range 64).filter fun q => hqDma q s && rd (F.HST_HQnn_PTRS_RECV_HEAD.u q) s % hqSize q s != (hostQ q s).recvTail
    && headUnread (672 + q) s).map (672 + ·)
/-- The cipher queues whose head frame is read for a frame job (R136, R412). -/
def cipherHeads (s : State) : List Nat :=
  if !domRuns .cip s then []
  else ((List.range 32).filter fun j => cfgHas C.msJob j s && headUnread (768 + j) s).map (768 + ·)

/-- What an egress node asks for, highest rank first (R131, R208, R323). -/
def nodeRanks (node : Nat) (s : State) : List CellReq :=
  let heads (l : List Nat) : List CellReq := l.map fun q => (headBank q s, q, none)
  if node ≤ 6 then
    let ps := nodePorts node
    let k := tget 0 s.qm.portPtr node % ps.length
    heads (interleave 4 ((ps.drop k ++ ps.take k).map (portOffers · s)))
  else
    let rd := (nodeReaders node s).map (readerReq s)
    if node = 8 then heads (hostHeads s) ++ rd else if node = 10 then heads (cipherHeads s) else rd

/-- The requests of an egress node: its first four, one per bank (R131). -/
def nodeRequests (node : Nat) (s : State) : List CellReq :=
  ((nodeRanks node s).take 4).foldl (fun a r => if a.any (·.1 == r.1) then a else a ++ [r]) []

/-- The port that drains queue q in its egress node. -/
def drainPort (q : Nat) (s : State) : Nat :=
  if q < 256 then q / 8 else if q < 816 then cfgN C.mirror (q - 800) 1 1 s else (qTarget q s).2

/-- The head entry of queue q has its next cell read: with a single reference the cell returns at once (R137). -/
def readHead (q : Nat) (s : State) : State := match (qu q s).ents with
  | [] => s
  | e :: rest =>
    let x := fr e.fid s
    let Q := qu q s
    let s := quSet q { Q with ents := { e with read := e.read + 1 } :: rest, cells := if e.out then Q.cells else Q.cells - 1 } s
    let s := if e.read = 0 then { s with qm := { s.qm with firstRead := e.fid :: s.qm.firstRead } } else s
    if x.refs = 1 ∧ x.freed = e.read then
      freeCell (x.cells.getD e.read 0) (frSet e.fid { x with freed := e.read + 1 } s) else s

/-- A frame starts on a port (R91, R109, R207, R292): mirror and class 0 take turns, a preempted frame is put aside, the PDU
it carries has left, and its transmit timestamp is taken as its first fragment starts. -/
def startFrame (p q : Nat) (e : QEnt) (s : State) : State :=
  let s := match tfind s.qm.cur p with
    | some c =>
      let s := txAdvance p s
      { s with qm := { s.qm with cur := tput (terase s.qm.cur p) (32 + p) c,
                                 fifo := tput (terase s.qm.fifo p) (32 + p) (tget {} s.qm.fifo p) } }
    | none => s
  let turn := if 800 ≤ q ∧ q < 804 then sdel s.qm.mirTurn p else if q = 8 * p then sins s.qm.mirTurn p else s.qm.mirTurn
  let x := fr e.fid s
  let s := pduLeft x.pdu { s with qm := { s.qm with cur := tput s.qm.cur p (q, e.fid), mirTurn := turn,
                                                    fifo := tput s.qm.fifo p { sent := 0, at_ := s.time.loc } } }
  match x.tsReq && !e.mir && (egressBytes p x e s).1.isSome, x.cpl with
  | true, some c => hostCapture p c s
  | _, _ => s

/-- A matched cell of queue q goes to its port (R131): the frame that starts is the one whose head cell has been matched. -/
def readCell (q : Nat) (s : State) : State := match (qu q s).ents with
  | [] => s
  | e :: _ =>
    let p := drainPort q s
    readHead q (if tfind s.qm.cur p = some (q, e.fid) then txAdvance p s else startFrame p q e s)

/-- A matched cell goes to the reader that asked for it; with the last one the request ends, and a LIN channel releases the
frame, whose bytes it has taken into its response buffer (R260). -/
def readHeld (r : ReadReq) (s : State) : State :=
  let on (l : List ReadReq) : State := { s with qm := { s.qm with reads := l } }
  if r.next + 1 < r.last then on (s.qm.reads.map fun x => if x == r then { r with next := r.next + 1 } else x)
  else
    let s := on (s.qm.reads.erase r)
    match r.who with
    | .lin _ => releaseFrame r.fid s
    | _ => s

/-- A match of node n is read (R131): by a consumer that holds the frame, by the endpoint or a cipher pair from the head of
its queue, or by a port. -/
def readMatch (node : Nat) (m : CellReq) (s : State) : State :=
  incWrap (F.FAB_FNn_RD_CELLS.u node) (match m.2.2 with
    | some r => readHeld r s
    | none => if node ≤ 6 then readCell m.2.1 s else readHead m.2.1 s)

/-- The first element of l, counted cyclically from position k. -/
def cyclicFrom (k n : Nat) (ok : Nat → Bool) : Option Nat := ((List.range n).map fun i => (k + i) % n).find? ok

/-- The reserved round (R132): matches of node and request. -/
def reservedRound (req : List (Nat × List CellReq)) (ptr : Nat) : List (Nat × CellReq) :=
  ((List.range 11).map fun i => (ptr + i) % 11).foldl (fun a n =>
    match (req.find? (·.1 == n)).bind fun r => r.2.find? fun b => isRsvQueue b.2.1 with
    | some b => if a.any (fun m => m.2.1 == b.1) then a else a ++ [(n, b)]
    | none => a) []

/-- One round of request, grant and accept (R133): the new matches. Requests of stipple-reserved queues keep to their own
round (R27). -/
def rgaRound (req : List (Nat × List CellReq)) (grant accept : Tbl Nat) (done : List (Nat × CellReq)) : List (Nat × CellReq) :=
  let wants (n b : Nat) : Option CellReq :=
    (req.find? (·.1 == n)).bind fun r => r.2.find? fun c => c.1 == b && !isRsvQueue c.2.1
  let freeN (n : Nat) : Bool := done.all (·.1 != n)
  let freeB (b : Nat) : Bool := done.all (·.2.1 != b)
  let grants := ((List.range 16).filter freeB).filterMap fun b =>
    (cyclicFrom (tget 0 grant b) 11 fun n => freeN n && (wants n b).isSome).map fun n => (b, n)
  (List.range 11).filterMap fun n =>
    (cyclicFrom (tget 0 accept n) 16 fun b => grants.contains (b, n)).bind fun b => (wants n b).map fun c => (n, c)

/-- The reads of a cell time (R131–R134): the reserved round, two rounds of request, grant and accept, and the pointers. -/
def cellReads (s : State) : State :=
  let req := ((List.range 11).map fun n => (n, nodeRequests n s)).filter fun r => !r.2.isEmpty
  let m0 := reservedRound req s.qm.rsvPtr
  let m1 := rgaRound req s.qm.grant s.qm.accept m0
  let m2 := rgaRound req s.qm.grant s.qm.accept (m0 ++ m1)
  let all := m0 ++ m1 ++ m2
  let s := each m1 (fun m s => { s with qm := { s.qm with grant := tput s.qm.grant m.2.1 ((m.1 + 1) % 11), accept := tput s.qm.accept m.1 ((m.2.1 + 1) % 16) } }) s
  let pp := [4, 5, 6].foldl (fun t n => tput t n ((tget 0 t n + 1) % (nodePorts n).length)) s.qm.portPtr
  let s := { s with qm := { s.qm with rsvPtr := (s.qm.rsvPtr + 1) % 11, portPtr := pp, firstRead := [] } }
  let s := each m0 (fun _ => incWrap F.FAB_RSV_CNT_COUNT) s
  let s := each (req.filter fun r => all.all (·.1 != r.1)) (fun r => inc (F.FAB_FNn_MISS_COUNT.u r.1)) s
  each all (fun m => readMatch m.1 m.2) s

/-! ### Links that are down (R209) -/

/-- The head of queue q leaves without being sent. -/
def discardHead (q : Nat) (s : State) : State := match popHead q s with
  | (none, s) => s
  | (some e, s) =>
    let pdu := (fr e.fid s).pdu
    pduLeft pdu (releaseFrame e.fid { s with qm := { s.qm with cur := s.qm.cur.filter (·.2 != (q, e.fid)) } })

/-- The queue whose head a port with a link that is down discards: highest-ranked and not empty (R207, R209). -/
def downQueue (p : Nat) (s : State) : Option Nat :=
  let rsv := ((List.range 128).map (816 + ·)).filter fun q => qEnabled q s && qTarget q s == (0, p) && headReleased q s
  let mir := ([0, 1, 2, 3].filter fun n => cfgHas C.mirror n s && cfgN C.mirror n 1 1 s == p).map (800 + ·)
  (rsv ++ [7, 6, 5, 4, 3, 2, 1, 0].map (8 * p + ·) ++ mir).find? fun q => headWhole q s

/-- One discard of a port whose link is down, or of a segment in low-power mode (R209). -/
def downDiscard (p : Nat) (s : State) : State :=
  if portUp p s || (16 ≤ p && !t1sLow (p - 16) s) then s
  else match downQueue p s with
    | none => s
    | some q => discardHead q (if p < 16 then inc (F.ETH_PORTpp_TX_DROP_LINKDOWN.u p) s else inc (F.T1S_SGnn_ERR_LINKDOWN.u (p - 16)) s)

/-! ### Memory errors (R157, R158) -/

/-- An error report: the memory, the index in it. -/
def memReport (mem idx : Nat) (s : State) : State :=
  s |> wr F.QM_PAR_ERR_MEM mem |> wr F.QM_PAR_ERR_INDEX idx |> inc F.QM_PAR_ERR_COUNT |> record 0x0300 mem idx

/-- The frame that holds a cell. -/
def cellOwner (c : Nat) (s : State) : Option Nat := (s.qm.frames.find? fun e => (e.2.cells.drop e.2.freed).contains c).map (·.1)

/-- An error on a frame (R158): marked at its tail if its forwarding has started, else dropped. -/
def frameError (orphan : Bool) (f : Nat) (s : State) : State :=
  if (tfind s.qm.frames f).isNone then s else if forwarding f s then markBad f s else dropEverywhere orphan f s

/-- An error found in a cell time (R157, R158). -/
def memError (e : MemError) (s : State) : State := match e with
  | .cellCorrected => inc F.QM_ECC_CORR_COUNT s
  | .cellUncorrectable c => let s := memReport 3 c s; match cellOwner c s with | some f => frameError false f s | none => s
  | .link c => let s := memReport 0 c s; match cellOwner c s with | some f => frameError true f s | none => s
  | .queue q =>
    let s := memReport 1 q s
    let sent (e : QEnt) : Bool := s.qm.cur.any fun c => c.2 == (q, e.fid)
    let fs := ((qu q s).ents.filter fun e => !sent e).map (·.fid)
    let on := ((qu q s).ents.filter fun e => sent e && !e.out).map (·.fid)
    let s := each on (flushSent q) (quSet q { qu q s with ents := (qu q s).ents.filter sent, cells := 0 } s)
    each fs (fun f s => let x := fr f s
      if x.phase = 1 then flushWritten f 1 s
      else if x.refs ≤ 1 then { s with qm := { s.qm with frames := terase s.qm.frames f } } else frSet f { x with refs := x.refs - 1 } s) s
  | .frame f => frameError true f (memReport 2 f s)
  | .freeList c lost =>
    let s := memReport 0 c s
    { s with qm := { s.qm with used := lost.foldl sins s.qm.used } }

/-- What moves in a cell time with rotor r (R129–R134, R209): background returns, writes, reads, discards of links that are
down. -/
def cellMoves (r : Nat) (s : State) : State := bgReturn s |> cellWrites r |> cellReads |> each (List.range 32) downDiscard

/-- CELL_TIME (R129–R134): an error met, the moves of the cell time, and the rotor advances. -/
def execCellTime (err : Option MemError) (s : State) : Res :=
  .next (if !domRuns .fab s then s
  else
    let t := bulkMark (pauseUpdate (cellMoves s.qm.rotor (match err with | some e => memError e s | none => s)))
    { t with qm := { t.qm with rotor := (s.qm.rotor + 1) % 16 } })

/-! ### Linking (R29, R140, R152–R155, R222, R241, R315) -/

/-- Register r of a context written; g0 keeps no value (R323). -/
def Ctx.put (r v : Nat) (c : Ctx) : Ctx := if r = 0 then c else { c with regs := tput c.regs r (BitVec.ofNat 64 v) }
/-- A slot of a context. -/
def Ctx.slot (k : Nat) (c : Ctx) : Slot := if k = 0 then c.f0 else c.f1
/-- A slot of a context changed. -/
def Ctx.setSlot (k : Nat) (x : Slot) (c : Ctx) : Ctx := if k = 0 then { c with f0 := x } else { c with f1 := x }

/-- A frame is linked into an inter-engine queue: the first waiter takes it, else the engine gets a QUEUE event (R155,
R315, R334). -/
def graverLinked (q : Nat) (s : State) : State := match (qu q s).waits with
  | w :: rest => match popHead q (quSet q { qu q s with waits := rest } s) with
    | (some e, s) =>
      let s := frameTaken w.eng (fr e.fid s).data s
      let c := ctx w.eng w.ctx s
      ctxSet w.eng w.ctx { (c.put c.dreg 0).setSlot w.slot (.buf e.fid []) with st := 1, stall := .none } s
    | (none, s) => s
  | [] =>
    let e := (q - 944) / 5
    if evThere e 1 q s then s else evRaise e ⟨1, (q - 944) % 5, q, 0, shortNs s⟩ s

/-- The stipple entries whose abandoned preparation frame f completes (R113). -/
def abandonedBy (x : Fr) (s : State) : Option Nat :=
  (cfgIdx C.stpEntry s).find? fun e => (stpRun e s).abandon && stpAct e s == 2 && x.pdu == some (stpTarget e s)
    && x.dests.any fun d => d.1 == stpQueue e s

/-- What linking into queue q sets off. -/
def linkedInto (q : Nat) (s : State) : State :=
  if 944 ≤ q then graverLinked q s
  else if isRsvQueue q then stpLateCheck q s
  else if 256 ≤ q ∧ q < 640 then canFill ((q - 256) / 4) s
  else if 736 ≤ q ∧ q < 768 then coreLinked q s else s

/-- The PDU counter of a frame that carries one (R312). -/
def pduSent (p : Option Nat) (s : State) : State := match p with
  | none => s
  | some p => pduSet p { pduRun p s with sent := sat32 (pduRun p s).sent } s

/-- A frame is linked into the queues that admitted it (R140). -/
def linkAll (node f : Nat) (s : State) : State :=
  let x := fr f s
  let directed := x.lookup / 8192 == 4
  let ms := if directed && x.dests.all (fun d => d.1 < 816) then
      (mirrorDests none 1 255 none (x.dests.map (·.1)) s).filter fun m => !bit x.mirs (m.1 - 800) else []
  let (mds, s) := mirrorAdmit x.need x.cls 0 ms s
  let ds := x.dests ++ mds
  let s := frSet f { x with dests := [], phase := 3, inProg := false, refs := x.refs + mds.length, mirs := x.mirs ||| mirMask mds } s
  let s := each ds (fun d => linkFrame f d.1 d.2.1 d.2.2) (stageDrop node f s)
  let s := if x.frer.isNone && ds.any (fun d => d.1 < 128) then frerGenerate f s else s
  s |> pduSent x.pdu |> snapUnpin f |> sendLinked x |> each ds fun d => linkedInto d.1

/-- A consumer that holds frame f links it into a further queue (R137, R153): the queue admits it or not, an entry must be
free, and it is mirrored on egress at most once per session (R195). -/
def linkMore (f q : Nat) (s : State) : Bool × State :=
  let y := fr f s
  match admitAll false y.need y.cls (y.noEvict || y.exempt) [(q, false, 0)] s with
  | ([], s) => (false, s)
  | (ds, s) =>
    if 262144 ≤ entriesUsed s then (false, inc F.QM_DROP_POOL_COUNT (unhold y.need ds s))
    else
      let (ms, s) := mirrorAdmit y.need y.cls 1 ((mirrorDests none 1 255 none [q] s).filter fun m => !bit y.mirs (m.1 - 800)) s
      let z := fr f s
      let s := frSet f { z with refs := z.refs + 1 + ms.length, mirs := z.mirs ||| mirMask ms } s
      let s := each (ds ++ ms) (fun d => linkFrame f d.1 d.2.1 d.2.2) s
      (true, each (ds ++ ms) (fun d => linkedInto d.1) (if z.frer.isNone && decide (q < 128) then frerGenerate f s else s))

/-- ENQUEUE (R140): the oldest fully written frame of the node is linked; a frame found bad at its tail goes only where it
is already being forwarded, marked at its tail (R149); an abandoned preparation is dropped (R113). -/
def execEnqueue (node : Fin 11) (s : State) : Res :=
  .next (if !domRuns .fab s then s else match (staged node s).find? fun f => (fr f s).phase == 2 with
    | none => s
    | some f =>
      let x := fr f s
      if x.rxBad ∨ x.bad then
        let s := stageDrop node f (if x.rxBad then markBad f s else s)
        let y := fr f s
        if y.refs ≤ y.dests.length then sendEnded false y (dropFrame f s)
        else frSet f { y with dests := [], refs := y.refs - y.dests.length, phase := 3, inProg := false } (unhold y.need y.dests s)
      else if x.gone ∨ (x.dests = [] ∧ !x.ct) then dropFrame f (stageDrop node f s)
      else match abandonedBy x s with
        | some e => dropFrame f (stageDrop node f (stpSet e { stpRun e s with abandon := false } s))
        | none => linkAll node f s)

/-! ### Transmission (R20, R90, R165, R207, R222, R414) -/

/-- The frame of a port has gone out: its entry is finished (R137), and a preempted frame goes on. -/
def endFrame (p q : Nat) (s : State) : State :=
  let cur := terase s.qm.cur p
  let back := { tget {} s.qm.fifo (32 + p) with at_ := s.time.loc }
  let qm := match tfind cur (32 + p) with
    | some c => { s.qm with cur := tput (terase cur (32 + p)) p c, fifo := tput (terase s.qm.fifo (32 + p)) p back }
    | none => { s.qm with cur := cur, fifo := terase s.qm.fifo p }
  match popHead q { s with qm := qm } with
  | (some e, s) => pauseUpdate (releaseFrame e.fid s)
  | (none, s) => s

/-- Whether a port may end the frame of queue q now: every cell has been read, it does not stand preempted at its gate
(R216), and a segment is not in a back-off. -/
def mayEnd (p q : Nat) (e : QEnt) (s : State) : Bool :=
  let x := fr e.fid s
  decide (entLen e s ≤ e.read) && !heldAtGate p q s && !(x.inProg && e.stop == 0) && !(16 ≤ p && (t1sSeg (p - 16) s).backoff.isSome)

/-- The bytes that close a frame on the wire (R20, R149): the FCS; on a frame marked at its tail a wrong ICV where MACsec
protects the egress, else a wrong FCS. How a wrong value comes about is open: a free number that is not 0 changes it. -/
def closeFrame (icv bad : Bool) (n : Nat) (b : List Byte) : List Byte :=
  let wrong := 1 + n % (2 ^ 32 - 1)
  if !bad then b ++ fcsBytes b
  else if icv then
    let b := b.take (b.length - 4) ++ beBytes 4 (beAt b (b.length - 4) 4 ^^^ wrong)
    b ++ fcsBytes b
  else b ++ leBytes 4 (crc32 b ^^^ wrong)

/-- TRANSMISSION_END (R207): the frame in progress leaves port p with its FCS, or with a stomped one (R20). -/
def execTransmissionEnd (port : Fin 32) (s : State) : Res :=
  .next (if !domRuns .fab s then s else match tfind s.qm.cur port with
    | none => s
    | some (q, f) => match (qu q s).ents with
      | [] => s
      | e :: _ =>
        if e.fid ≠ f ∨ !mayEnd port q e s then s
        else
          let x := fr f s
          let (b, s) := egressBytes port x e s
          let s := match b with
            | none => s
            | some b =>
              let icv := decide (port.val < 16) && macsecOn port s && !msClear port (x.data.take (x.data.length - 4)) s
              let bad := x.bad || e.bad
              let (n, s) := if bad then fresh s else (0, s)
              let s := transmit (portDomain port) (.frame port (closeFrame icv bad n b) bad) s
              if port.val < 16 then incWrap (F.ETH_PORTpp_TX_FRAMES_COUNT.u port) s else incWrap (F.T1S_SGnn_TX_FRAMES_COUNT.u (port - 16)) s
          let s := endFrame port q (when (decide (16 ≤ port.val)) (t1sSent (port - 16)) s)
          when (decide (16 ≤ port.val)) (t1sTry (port - 16)) s)

/-! ### Collisions (R229) -/

/-- COLLISION (R229, R233): in CSMA/CD the frame in progress, or the wake pattern on the medium, is retried after a
back-off, or dropped after a late collision or the sixteenth attempt. -/
def execCollision (sg : Fin 16) (late : Bool) (s : State) : Res :=
  .next (
    let cur := tfind s.qm.cur (16 + sg)
    let air := t1sOnAir sg s
    if !t1sCsma sg s ∨ (cur.isNone ∧ air.isNone) then s
    else
      let x := t1sSeg sg s
      let s := s |> inc (F.T1S_SGnn_COLL_COLLISIONS.u sg) |> transmit .fld (.line 4 sg [])
      let drop (s : State) : State :=
        let s := t1sSet sg { x with tries := 0, patTries := 0, backoff := none, pat := none } s
        match cur with
        | some (q, _) => t1sTry sg (discardHead q s)
        | none => s
      let n := (if cur.isSome then x.tries else x.patTries) + 1
      if late then drop (inc (F.T1S_SGnn_COLL_LATE.u sg) s)
      else if 16 ≤ n then drop (inc (F.T1S_SGnn_COLL_EXCESS.u sg) s)
      else
        let (v, s) := fresh s
        let x := { x with backoff := some (v % 2 ^ min n 10) }
        match cur, air with
        | none, some m => t1sSet sg { x with patTries := n, pat := none, wake := some (x.wake.getD 0 ||| m) } s
        | _, _ => t1sSet sg { x with tries := n } s)

end Sys2Proof.Machine
end

