-- ==== Sys2Proof/Machine/Operands.lean ====
section
/-! DEFINITION. Instruction fields and operand access of the graver engines, and the issue, fault and end of a context
(09_graver_engines.md, R313–R340). -/

namespace Sys2Proof.Machine

/-! ### Instruction fields (R325) -/

/-- D of formats G, I and C. -/
def wD (w : BitVec 26) : Nat := bits w.toNat 22 4
/-- A of formats G, I and C. -/
def wA (w : BitVec 26) : Nat := bits w.toNat 18 4
/-- B of format G. -/
def wB (w : BitVec 26) : Nat := bits w.toNat 14 4
/-- SUB of format G. -/
def wSub (w : BitVec 26) : Nat := bits w.toNat 0 14
/-- IMM18 of format I, or OFF18 of format C. -/
def wImm (w : BitVec 26) : Nat := bits w.toNat 0 18
/-- IMM18 read as signed. -/
def wImmS (w : BitVec 26) : Int := sext 18 (wImm w)
/-- The slot that SUB[13] names. -/
def wSlot (w : BitVec 26) : Nat := bits w.toNat 13 1

/-- Register r of a context; g0 reads 0 (R314). -/
def Ctx.get (r : Nat) (x : Ctx) : Nat := if r = 0 then 0 else (tget 0 x.regs r).toNat
/-- The signed reading of a register. -/
def Ctx.getS (r : Nat) (x : Ctx) : Int := sext 64 (x.get r)
/-- A register written with the low 64 bits of an integer. -/
def Ctx.putI (r : Nat) (v : Int) (x : Ctx) : Ctx := x.put r (twos 64 v)

/-! ### Fault codes (R339) -/

/-- ECC: an uncorrectable DMEM error or a register parity error. -/
def gvEcc : Nat := 9
/-- ILLEGAL. -/
def gvIllegal : Nat := 1
/-- DMEM. -/
def gvDmem : Nat := 2
/-- FRAME. -/
def gvFrame : Nat := 3
/-- SLOT. -/
def gvSlot : Nat := 4
/-- OPERAND. -/
def gvOperand : Nat := 5
/-- PRIV. -/
def gvPriv : Nat := 6
/-- GROUP. -/
def gvGroup : Nat := 7
/-- BUDGET. -/
def gvBudget : Nat := 8
/-- HOOK. -/
def gvHook : Nat := 10

/-- What an instruction leaves: its context after it, or the code of its fault, and the rest of the state. -/
abbrev GvOut := Except Nat Ctx × State

/-! ### Frames in slots (R322, R327) -/

/-- The bytes that a slot's frame offers: at most the first 4 096 (R322). -/
def slotData (k : Nat) (x : Ctx) (s : State) : Option (List Byte) := match x.slot k with
  | .empty => none
  | .loc f n => some (f.data.take (min n 4096))
  | .buf f _ => some ((fr f s).data.take 4096)

/-- The descriptor of a slot's frame; a local frame's has its present length. -/
def slotFr (k : Nat) (x : Ctx) (s : State) : Option (Fr × Nat) := match x.slot k with
  | .empty => none
  | .loc f n => some (f, n)
  | .buf f _ => some (fr f s, (fr f s).data.length)

/-- Whether a slot holds a buffered frame. -/
def slotBuffered (k : Nat) (x : Ctx) : Bool := match x.slot k with
  | .buf _ _ => true
  | _ => false

/-- Write bytes into a local frame. -/
def slotWrite (k o : Nat) (b : List Byte) (x : Ctx) : Ctx := match x.slot k with
  | .loc f n => x.setSlot k (.loc { f with data := spliceAt f.data o b } n)
  | _ => x

/-- Release the frame in a slot (R153, R326). -/
def slotRelease (y : Slot) (s : State) : State := match y with
  | .buf f _ => releaseFrame f s
  | _ => s

/-- The first access to the bytes o to o + n − 1 of a slot's buffered frame fetches their cells through FN7 (R322, R323):
the context with the cells noted, and the requests made. -/
def slotFetch (e c k o n : Nat) (x : Ctx) (s : State) : Ctx × State := match x.slot k with
  | .buf f got =>
    let new := ((List.range (cdiv (o + n) 128)).drop (o / 128)).filter fun i => decide (i < (fr f s).need) && !got.contains i
    (x.setSlot k (.buf f (got ++ new)), each new (fun i => readAsk (.slot e c) 0 f i (i + 1)) s)
  | _ => (x, s)

/-! ### The end of a context (R155, R336, R339, R340) -/

/-- A context leaves any queue wait (R155). -/
def leaveWait (e c : Nat) (x : Ctx) (s : State) : State := match x.stall with
  | .queue q => quSet q { qu q s with waits := (qu q s).waits.filter fun w => !(w.eng == e && w.ctx == c) } s
  | _ => s

/-- A context is freed: its group is discarded and its slots are released. -/
def ctxFree (e c : Nat) (s : State) : State :=
  let x := ctx e c s
  ctxSet e c {} (s |> leaveWait e c x |> readStop (· == .slot e c) |> slotRelease x.f0 |> slotRelease x.f1)

/-- The state of an engine: 0 stopped, 1 running, 2 fenced, 3 reloading. -/
def engState (e : Nat) (s : State) : Nat := rd (F.GRV_GVn_STAT_STATE.u e) s

/-! ### Loading (R321, R341, R342) -/

/-- The image index of engine e (R342); 0xFF for none. -/
def engImage (e : Nat) (s : State) : Nat := if cfgHas C.grvHdr 0 s then cfgN C.grvHdr 0 (4 + e) 1 s else 255

/-- Load an image into an engine: instructions, vectors, initial DMEM; DMEM beyond it starts at 0. -/
def engFill (e : Nat) (img : List Byte) (s : State) : State :=
  let n := leAt img 0 2
  let m := leAt img 2 2
  engSet e { eng e s with
    imem := (List.range n).map fun i => (i, leAt img (48 + 4 * i) 4)
    count := n
    vecs := (List.range 16).map fun k => leAt img (4 + 2 * k) 2
    dmem := mboxPut 0 (slice img (48 + 4 * n) m) []
    next := none } s

/-- Image i is loaded and the engine runs. -/
def engLoad (e i : Nat) (s : State) : State :=
  engFill e (cfgRec C.grvImg i s) s |> wr (F.GRV_GVn_STAT_IMAGE.u e) i |> wr (F.GRV_GVn_STAT_STATE.u e) 1

/-- Some context of an engine holds an event. -/
def engBusy (e : Nat) (s : State) : Bool := (List.range 8).any fun c => (ctx e c s).st != 0

/-- Start engine e on its image, if it has one; one that runs another lets its contexts reach END before (R341). -/
def engStart (e : Nat) (s : State) : State :=
  let i := engImage e s
  if i = 255 ∨ !cfgHas C.grvImg i s then s
  else if engState e s = 1 ∧ engBusy e s then
    wr (F.GRV_GVn_STAT_STATE.u e) 3 (engSet e { eng e s with next := some i } s)
  else engLoad e i s

/-- The last running context of an engine whose image is being replaced has ended: the new one is loaded (R341). -/
def engSettle (e : Nat) (s : State) : State := match (eng e s).next with
  | some i => if engBusy e s then s else engLoad e i s
  | none => s

/-- An engine is fenced (R340): it stops dispatching and its contexts end; a second fence within 60 s is a domain fault. -/
def engFence (e : Nat) (s : State) : State :=
  let again := match (eng e s).fence with | some t => decide (s.time.loc < t + 60000000000) | none => false
  let s := each (List.range 8) (fun c s => if (ctx e c s).st = 0 then s else ctxFree e c s) s
  engSet e { eng e s with fence := some s.time.loc, next := none } s |> wr (F.GRV_GVn_STAT_STATE.u e) 2
    |> inc (F.GRV_GVn_FCNT_FENCES.u e) |> record 0x0601 e 0 |> when again (domainFault .grv)

/-- A fault of context c at address pc (R339): recorded and counted, the context ends, and beyond the limit of a second the
engine is fenced (R340). -/
def gvFault (e c code pc : Nat) (s : State) : State :=
  let kind := (ctx e c s).ev.kind
  let s := s |> wr (F.GRV_GVn_FAULT_CODE.u e) code |> wr (F.GRV_GVn_FAULT_CTX.u e) c |> wr (F.GRV_GVn_FAULT_KIND.u e) kind
    |> wr (F.GRV_GVn_FAULT_PC.u e) pc |> inc (F.GRV_GVn_FCNT_FAULTS.u e)
    |> record 0x0600 e (code * 2 ^ 28 + c * 2 ^ 25 + kind * 2 ^ 20 + pc) |> ctxFree e c
  let sec := s.time.loc / 1000000000
  let x := eng e s
  let n := if x.fltSec = sec then x.fltCnt + 1 else 1
  let s := engSet e { x with fltSec := sec, fltCnt := n } s
  if rd F.GRV_CFG_FAULT_LIMIT s < n then engFence e s else engSettle e s

/-! ### Issue (R313, R336) -/

/-- Whether a context can issue: it is ready, its engine runs or lets its contexts reach END (R341), and the GRV domain
is on and clocked (R24). -/
def gvReady (e c : Nat) (s : State) : Bool :=
  (ctx e c s).st == 1 && (engState e s == 1 || engState e s == 3) && domRuns .grv s

/-- The context of an issued instruction: the next address, and one more instruction of its budgets. -/
def gvIssued (x : Ctx) : Ctx :=
  { x with pc := (x.pc + 1) % 16384, used := x.used + 1, hook := x.hook.map fun h => (h.1, h.2.1 + 1, h.2.2) }

/-- An issued instruction is within the handler's budget and its hook's (R336). -/
def gvWithin (x : Ctx) (s : State) : Bool :=
  decide (x.used ≤ rd F.GRV_CFG_BUDGET s) && (match x.hook with | some h => decide (h.2.1 ≤ h.2.2) | none => true)

/-- Issue one instruction of context c of engine e: f gives its effect on the context that already points to the next
instruction. -/
def gvIssue (e c : Nat) (f : Ctx → State → GvOut) (s : State) : State :=
  if !gvReady e c s then s
  else
    let x := gvIssued (ctx e c s)
    if !gvWithin x s then gvFault e c gvBudget (ctx e c s).pc s
    else match f x s with
      | (.ok y, s) => ctxSet e c y s
      | (.error k, s) => gvFault e c k (ctx e c s).pc s

/-- Issue an instruction that works on its context alone. -/
def gvLocal (e c : Nat) (f : Ctx → Except Nat Ctx) (s : State) : State := gvIssue e c (fun x s => (f x, s)) s

/-- Fault unless the condition holds. -/
def gvNeed (b : Bool) (code : Nat) (r : GvOut) (s : State) : GvOut := if b then r else (.error code, s)

/-- Jump to an instruction address within the image (R328). -/
def gvJump (e t : Nat) (x : Ctx) (s : State) : GvOut :=
  if t < (eng e s).count then (.ok { x with pc := t }, s) else (.error gvIllegal, s)

/-- Stall for an access: the result stands already, and STALL_END makes the context ready (R337). -/
def gvAccess (x : Ctx) : Ctx := { x with st := 2, stall := .access }

end Sys2Proof.Machine
end

