-- ==== Sys2Proof/Machine/Graver.lean ====
section
/-! DEFINITION. The graver instructions on registers, DMEM, timers, messages and hooks (09_graver_engines.md, R313–R328,
R335, R336). -/

namespace Sys2Proof.Machine

/-! ### Formats (R325) -/

/-- A format G instruction whose SUB bits outside the mask m are 0; any other value is ILLEGAL. -/
def gvG (m : Nat) (e c : Nat) (w : BitVec 26) (f : Ctx → State → GvOut) (s : State) : State :=
  gvIssue e c (fun x s => gvNeed (clearBits (wSub w) m == 0) gvIllegal (f x s) s) s
/-- A format N instruction. -/
def gvN (e c : Nat) (w : BitVec 26) (f : Ctx → State → GvOut) (s : State) : State :=
  gvIssue e c (fun x s => gvNeed (w == 0) gvIllegal (f x s) s) s
/-- A format J instruction. -/
def gvJ (e c : Nat) (w : BitVec 26) (f : Ctx → State → GvOut) (s : State) : State :=
  gvIssue e c (fun x s => gvNeed (bits w.toNat 14 12 == 0) gvIllegal (f x s) s) s

/-- D ← f A B (format G). -/
def gvAlu (e c : Nat) (w : BitVec 26) (f : Nat → Nat → Nat) (s : State) : State :=
  gvG 0 e c w (fun x s => (.ok (x.put (wD w) (f (x.get (wA w)) (x.get (wB w)))), s)) s
/-- D ← f A (format I). -/
def gvImm (e c : Nat) (w : BitVec 26) (f : Nat → Nat) (s : State) : State :=
  gvLocal e c (fun x => .ok (x.put (wD w) (f (x.get (wA w))))) s
/-- Branch when p D A (format C): OFF18 counts from the next instruction. -/
def gvBranch (e c : Nat) (w : BitVec 26) (p : Nat → Nat → Bool) (s : State) : State :=
  gvIssue e c (fun x s =>
    if p (x.get (wD w)) (x.get (wA w)) then
      let t := (x.pc : Int) + wImmS w
      if t < 0 then (.error gvIllegal, s) else gvJump e t.toNat x s
    else (.ok x, s)) s

/-- The signed order of two register values. -/
def ltS (a b : Nat) : Bool := decide (sext 64 a < sext 64 b)
/-- An arithmetic right shift of a register value. -/
def sar64 (a n : Nat) : Nat := twos 64 (sext 64 a / (2 ^ n : Nat))

/-! ### Arithmetic and logic (R326) -/

/-- NOP (R326). -/
def execNop (e : Fin 16) (c : Fin 8) (w : BitVec 26) (s : State) : Res := .next (gvN e c w (fun x s => (.ok x, s)) s)
/-- ADD (R326). -/
def execAdd (e : Fin 16) (c : Fin 8) (w : BitVec 26) (s : State) : Res := .next (gvAlu e c w (· + ·) s)
/-- SUB (R326). -/
def execSub (e : Fin 16) (c : Fin 8) (w : BitVec 26) (s : State) : Res := .next (gvAlu e c w (fun a b => a + 2 ^ 64 - b) s)
/-- AND (R326). -/
def execAnd (e : Fin 16) (c : Fin 8) (w : BitVec 26) (s : State) : Res := .next (gvAlu e c w (· &&& ·) s)
/-- OR (R326). -/
def execOr (e : Fin 16) (c : Fin 8) (w : BitVec 26) (s : State) : Res := .next (gvAlu e c w (· ||| ·) s)
/-- XOR (R326). -/
def execXor (e : Fin 16) (c : Fin 8) (w : BitVec 26) (s : State) : Res := .next (gvAlu e c w (· ^^^ ·) s)
/-- SHL (R326). -/
def execShl (e : Fin 16) (c : Fin 8) (w : BitVec 26) (s : State) : Res := .next (gvAlu e c w (fun a b => a * 2 ^ (b % 64)) s)
/-- SHR (R326). -/
def execShr (e : Fin 16) (c : Fin 8) (w : BitVec 26) (s : State) : Res := .next (gvAlu e c w (fun a b => a / 2 ^ (b % 64)) s)
/-- SAR (R326). -/
def execSar (e : Fin 16) (c : Fin 8) (w : BitVec 26) (s : State) : Res := .next (gvAlu e c w (fun a b => sar64 a (b % 64)) s)
/-- MUL (R326). -/
def execMul (e : Fin 16) (c : Fin 8) (w : BitVec 26) (s : State) : Res := .next (gvAlu e c w (· * ·) s)
/-- SLT (R326). -/
def execSlt (e : Fin 16) (c : Fin 8) (w : BitVec 26) (s : State) : Res := .next (gvAlu e c w (fun a b => b2n (ltS a b)) s)
/-- SLTU (R326). -/
def execSltu (e : Fin 16) (c : Fin 8) (w : BitVec 26) (s : State) : Res :=
  .next (gvAlu e c w (fun a b => b2n (decide (a < b))) s)
/-- ADDI (R326): the immediate is signed. -/
def execAddi (e : Fin 16) (c : Fin 8) (w : BitVec 26) (s : State) : Res :=
  .next (gvImm e c w (fun a => twos 64 ((a : Int) + wImmS w)) s)
/-- ANDI (R326). -/
def execAndi (e : Fin 16) (c : Fin 8) (w : BitVec 26) (s : State) : Res := .next (gvImm e c w (· &&& wImm w) s)
/-- ORI (R326). -/
def execOri (e : Fin 16) (c : Fin 8) (w : BitVec 26) (s : State) : Res := .next (gvImm e c w (· ||| wImm w) s)
/-- XORI (R326). -/
def execXori (e : Fin 16) (c : Fin 8) (w : BitVec 26) (s : State) : Res := .next (gvImm e c w (· ^^^ wImm w) s)
/-- SHLI (R326). -/
def execShli (e : Fin 16) (c : Fin 8) (w : BitVec 26) (s : State) : Res := .next (gvImm e c w (fun a => a * 2 ^ bits (wImm w) 0 6) s)
/-- SHRI (R326). -/
def execShri (e : Fin 16) (c : Fin 8) (w : BitVec 26) (s : State) : Res := .next (gvImm e c w (fun a => a / 2 ^ bits (wImm w) 0 6) s)
/-- SARI (R326). -/
def execSari (e : Fin 16) (c : Fin 8) (w : BitVec 26) (s : State) : Res := .next (gvImm e c w (fun a => sar64 a (bits (wImm w) 0 6)) s)

/-- LSH (R326): A and IMM18[17:16] are 0. -/
def execLsh (e : Fin 16) (c : Fin 8) (w : BitVec 26) (s : State) : Res :=
  .next (gvLocal e c (fun x =>
    if wA w ≠ 0 ∨ bits (wImm w) 16 2 ≠ 0 then .error gvIllegal
    else .ok (x.put (wD w) (x.get (wD w) * 2 ^ 16 % 2 ^ 64 ||| bits (wImm w) 0 16))) s)

/-- Position and width of a bit field (R326). -/
def wField (w : BitVec 26) : Nat × Nat := (bits (wImm w) 12 6, bits (wImm w) 6 6 + 1)

/-- BFX (R326, R327). -/
def execBfx (e : Fin 16) (c : Fin 8) (w : BitVec 26) (s : State) : Res :=
  .next (gvLocal e c (fun x =>
    let (p, n) := wField w
    if 64 < p + n then .error gvIllegal
    else
      let v := bits (x.get (wA w)) p n
      .ok (x.put (wD w) (if bit (wImm w) 5 then twos 64 (sext n v) else v))) s)

/-- BFI (R326, R327): bit 5 is 0. -/
def execBfi (e : Fin 16) (c : Fin 8) (w : BitVec 26) (s : State) : Res :=
  .next (gvLocal e c (fun x =>
    let (p, n) := wField w
    if 64 < p + n ∨ bit (wImm w) 5 then .error gvIllegal
    else .ok (x.put (wD w) (putBits (x.get (wD w)) p n (x.get (wA w))))) s)

/-- BSW (R326): n from 1 to 3. -/
def execBsw (e : Fin 16) (c : Fin 8) (w : BitVec 26) (s : State) : Res :=
  .next (gvLocal e c (fun x =>
    let n := bits (wImm w) 0 2
    if n = 0 then .error gvIllegal else .ok (x.put (wD w) (beNat (leBytes (2 ^ n) (x.get (wA w)))))) s)

/-! ### Branches and jumps (R326, R328) -/

/-- BEQ (R326). -/
def execBeq (e : Fin 16) (c : Fin 8) (w : BitVec 26) (s : State) : Res := .next (gvBranch e c w (· == ·) s)
/-- BNE (R326). -/
def execBne (e : Fin 16) (c : Fin 8) (w : BitVec 26) (s : State) : Res := .next (gvBranch e c w (· != ·) s)
/-- BLT (R326). -/
def execBlt (e : Fin 16) (c : Fin 8) (w : BitVec 26) (s : State) : Res := .next (gvBranch e c w ltS s)
/-- BGE (R326). -/
def execBge (e : Fin 16) (c : Fin 8) (w : BitVec 26) (s : State) : Res := .next (gvBranch e c w (fun a b => !ltS a b) s)
/-- BLTU (R326). -/
def execBltu (e : Fin 16) (c : Fin 8) (w : BitVec 26) (s : State) : Res := .next (gvBranch e c w (fun a b => decide (a < b)) s)
/-- BGEU (R326). -/
def execBgeu (e : Fin 16) (c : Fin 8) (w : BitVec 26) (s : State) : Res := .next (gvBranch e c w (fun a b => decide (b ≤ a)) s)
/-- JMP (R326). -/
def execJmp (e : Fin 16) (c : Fin 8) (w : BitVec 26) (s : State) : Res :=
  .next (gvJ e c w (gvJump e (bits w.toNat 0 14)) s)
/-- CALL (R314, R326): g15 takes the address of the next instruction. -/
def execCall (e : Fin 16) (c : Fin 8) (w : BitVec 26) (s : State) : Res :=
  .next (gvJ e c w (fun x => gvJump e (bits w.toNat 0 14) (x.put 15 x.pc)) s)
/-- JR (R326, R328). -/
def execJr (e : Fin 16) (c : Fin 8) (w : BitVec 26) (s : State) : Res :=
  .next (gvG 0 e c w (fun x => gvJump e (x.get (wA w) % 2 ^ 14) x) s)

/-! ### DMEM (R321, R327) -/

/-- n bytes of DMEM. -/
def dmemBytes (e a n : Nat) (s : State) : List Byte := (List.range n).map fun i => tget 0 (eng e s).dmem (a + i)
/-- Bytes written to DMEM. -/
def dmemPut (e a : Nat) (b : List Byte) (s : State) : State := engSet e { eng e s with dmem := mboxPut a b (eng e s).dmem } s
/-- The address and size of LD and ST. -/
def dmemAddr (w : BitVec 26) (x : Ctx) : Nat × Nat := ((x.get (wA w) + bits (wImm w) 0 15) % 2 ^ 64, 2 ^ bits (wImm w) 16 2)
/-- The access is aligned and inside the 32 KiB (R327). -/
def dmemOk (a : Nat × Nat) : Bool := a.1 % a.2 == 0 && decide (a.1 + a.2 ≤ 32768)
/-- A loaded value of n bytes, extended. -/
def loaded (n : Nat) (sign : Bool) (v : Nat) : Nat := if sign then twos 64 (sext (8 * n) v) else v

/-- LD (R326, R327). -/
def execLd (e : Fin 16) (c : Fin 8) (w : BitVec 26) (s : State) : Res :=
  .next (gvIssue e c (fun x s =>
    let a := dmemAddr w x
    gvNeed (dmemOk a) gvDmem (.ok (x.put (wD w) (loaded a.2 (bit (wImm w) 15) (leNat (dmemBytes e a.1 a.2 s)))), s) s) s)

/-- ST (R326, R327): IMM18[15] is 0. -/
def execSt (e : Fin 16) (c : Fin 8) (w : BitVec 26) (s : State) : Res :=
  .next (gvIssue e c (fun x s =>
    let a := dmemAddr w x
    gvNeed (!bit (wImm w) 15) gvIllegal
      (gvNeed (dmemOk a) gvDmem (.ok x, dmemPut e a.1 (leBytes a.2 (x.get (wD w))) s) s) s) s)

/-! ### Frame slots (R322, R326, R327) -/

/-- Slot, offset and size of FLD and FST. -/
def slotAddr (w : BitVec 26) (x : Ctx) : Nat × Nat × Nat :=
  (bits (wImm w) 17 1, (x.get (wA w) + bits (wImm w) 0 14) % 2 ^ 64, 2 ^ bits (wImm w) 15 2)

/-- FLD (R326, R327, R337): within the frame and its first 4 096 bytes; on a buffered frame a first access waits for the
cells to be fetched. -/
def execFld (e : Fin 16) (c : Fin 8) (w : BitVec 26) (s : State) : Res :=
  .next (gvIssue e c (fun x s =>
    let (k, o, n) := slotAddr w x
    match slotData k x s with
    | none => (.error gvFrame, s)
    | some d =>
      let (y, t) := slotFetch e c k o n (x.put (wD w) (loaded n (bit (wImm w) 14) (leAt d o n))) s
      gvNeed (decide (o + n ≤ d.length)) gvFrame
        (.ok (if reading (.slot e c) t then { y with st := 2, stall := .fetch } else y), t) s) s)

/-- FST (R322, R326, R327): only on a local frame; IMM18[14] is 0. -/
def execFst (e : Fin 16) (c : Fin 8) (w : BitVec 26) (s : State) : Res :=
  .next (gvIssue e c (fun x s =>
    let (k, o, n) := slotAddr w x
    gvNeed (!bit (wImm w) 14) gvIllegal (match slotData k x s with
      | none => (.error gvFrame, s)
      | some d => gvNeed (!slotBuffered k x && decide (o + n ≤ d.length)) gvFrame
          (.ok (slotWrite k o (leBytes n (x.get (wD w))) x), s) s) s) s)

/-! ### Time, timers, messages, counters (R326, R335) -/

/-- TIME (R326): 0 short time, 1 local time, 2 domain 0's state and error. -/
def execTime (e : Fin 16) (c : Fin 8) (w : BitVec 26) (s : State) : Res :=
  .next (gvIssue e c (fun x s => match bits (wImm w) 0 2 with
    | 0 => (.ok (x.put (wD w) (shortNs s)), s)
    | 1 => (.ok (x.put (wD w) s.time.loc), s)
    | 2 => (.ok (x.put (wD w) (domState 0 s + 2 ^ 32 * errNow 0 s)), s)
    | _ => (.error gvOperand, s)) s)

/-- An armed timer that has run out raises its event (R315, R335). -/
def timerRaise (e t : Nat) (s : State) : State := match tfind (eng e s).timers t with
  | none => s
  | some at_ =>
    if shortNs s < at_ then s
    else evRaise e ⟨7, t, 0, 0, at_⟩ (engSet e { eng e s with timers := terase (eng e s).timers t } s)

/-- TARM (R335): arms a timer, or with A = 0 disarms it; an expiry of this tick is raised first. -/
def execTarm (e : Fin 16) (c : Fin 8) (w : BitVec 26) (s : State) : Res :=
  .next (gvIssue e c (fun x s =>
    let t := bits (wImm w) 0 4
    let a := x.get (wA w)
    let s := timerRaise e t s
    let y := eng e s
    (.ok x, engSet e { y with timers := if a = 0 then terase y.timers t else tput y.timers t a } s)) s)

/-- A message to the queue of 32 of engine t (R315, R316): whether it had room. -/
def msgPut (t sender arg : Nat) (s : State) : Bool × State :=
  if 32 ≤ (eng t s).msgs.length then (false, inc (F.GRV_GVn_MISC_MSGFULL.u t) s)
  else (true, pendMark t (engShow t (engSet t { eng t s with msgs := (eng t s).msgs ++ [⟨8, sender, 0, arg % 2 ^ 32, shortNs s⟩] } s)))

/-- RAISE (R315, R335). -/
def execRaise (e : Fin 16) (c : Fin 8) (w : BitVec 26) (s : State) : Res :=
  .next (gvG 0 e c w (fun x s =>
    let t := x.get (wA w)
    if 16 ≤ t then (.error gvOperand, s)
    else
      let (ok, s) := msgPut t e (x.get (wB w)) s
      (.ok (x.put (wD w) (b2n (!ok))), s)) s)

/-- CNT (R326): a user counter, saturating. -/
def execCnt (e : Fin 16) (c : Fin 8) (w : BitVec 26) (s : State) : Res :=
  .next (gvIssue e c (fun x s =>
    let k := bits (wImm w) 0 6
    let y := eng e s
    (.ok x, engSet e { y with users := tput y.users k (min (tget 0 y.users k + 1) 0xFFFFFFFF) } s)) s)

/-! ### Hooks and the end (R336) -/

/-- HOOK (R336): a call within the hook's own budget. -/
def execHook (e : Fin 16) (c : Fin 8) (w : BitVec 26) (s : State) : Res :=
  .next (gvIssue e c (fun x s =>
    let h := bits (wImm w) 0 8
    if x.hook.isSome then (.error gvHook, s)
    else if !cfgHas C.grvHook h s then (.error gvOperand, s)
    else gvJump e (cfgN C.grvHook h 0 2 s) { x with hook := some (x.pc, 0, cfgN C.grvHook h 2 2 s) } s) s)

/-- HRET (R336). -/
def execHret (e : Fin 16) (c : Fin 8) (w : BitVec 26) (s : State) : Res :=
  .next (gvN e c w (fun x s => match x.hook with
    | none => (.error gvHook, s)
    | some (r, _, _) => (.ok { x with pc := r, hook := none }, s)) s)

/-- END (R319, R331, R336, R341): frames still in slots are released and counted, and the context is free; the last context
of an engine whose image is being replaced lets the new one in. -/
def execEnd (e : Fin 16) (c : Fin 8) (w : BitVec 26) (s : State) : Res :=
  .next (engSettle e (gvN e c w (fun x s =>
    let n := (([x.f0, x.f1] : List Slot).filter (· ≠ .empty)).length
    (.ok {}, ctxFree e c (incBy (F.GRV_GVn_MISC_ENDREL.u e) n s))) s))

end Sys2Proof.Machine
end

