-- ==== Sys2Proof/Machine/GraverSig.lean ====
section
/-! DEFINITION. The graver instructions on signals, PDUs, frames, queues and the cipher engine (09_graver_engines.md,
R326, R329–R338; R297–R300). -/

namespace Sys2Proof.Machine

/-! ### Tables and signals (R329–R331) -/

/-- Record i of table t of TLD, if it exists (R329). -/
def tldRec (t i : Nat) (s : State) : Option (List Byte) :=
  let get (k : Nat) : Option (List Byte) := if cfgHas k i s then some (cfgRec k i s) else none
  match t with
  | 0 => get C.sigDef | 1 => get C.sigPdu | 2 => get C.sigMap | 3 => get C.sigRoute | 4 => get C.sigCarrier
  | 5 => get C.sigTempl | 6 => get C.sigE2e | 7 => get C.sigAuth | 8 => get C.sigSnap
  | 9 =>
    if cfgHas C.sigMember (8 * i) s then
      some ((List.range 8).flatMap fun j => slice (cfgRec C.sigMember (8 * i + j) s) 0 2)
    else none
  | 10 => if i = 0 then get C.sigChan else none
  | 11 => get C.grvHook
  | _ => none

/-- TLD (R329, R337). -/
def execTld (e : Fin 16) (c : Fin 8) (w : BitVec 26) (s : State) : Res :=
  .next (gvIssue e c (fun x s => match tldRec (bits (wImm w) 12 6) (x.get (wA w)) s with
    | none => (.error gvOperand, s)
    | some b => (.ok (gvAccess (x.put (wD w) (leAt b (bits (wImm w) 0 12) 8))), s)) s)

/-- SGET (R330). -/
def execSget (e : Fin 16) (c : Fin 8) (w : BitVec 26) (s : State) : Res :=
  .next (gvIssue e c (fun x s =>
    let i := x.get (wA w)
    let v := match bits (wImm w) 0 2 with
      | 0 => sigVal i s
      | 1 => (sigEnt i s).time
      | 2 => sigStatus i s + 2 ^ 16 * (sigEnt i s).cnt + 2 ^ 32 * (sigEnt i s).writer
      | _ => sigSubst i s
    gvNeed (decide (i < sigCount s)) gvOperand (.ok (gvAccess (x.put (wD w) v)), s) s) s)

/-- Stage writes in the commit group of 64 (R331). -/
def gvStage (l : List Staged) (x : Ctx) (s : State) : GvOut :=
  if 64 < x.group.length + l.length then (.error gvGroup, s) else (.ok { x with group := x.group ++ l }, s)

/-- SPUT (R331): not to an array. -/
def execSput (e : Fin 16) (c : Fin 8) (w : BitVec 26) (s : State) : Res :=
  .next (gvG 0 e c w (fun x s =>
    let i := x.get (wA w)
    if sigCount s ≤ i ∨ sigType i s = 4 then (.error gvOperand, s)
    else gvStage [⟨i, x.get (wD w), [], 0x9000 + e⟩] x s) s)

/-- COMMIT (R280, R309, R331): the group is applied in one tick; from an RX handler its latency is kept. -/
def execCommit (e : Fin 16) (c : Fin 8) (w : BitVec 26) (s : State) : Res :=
  .next (gvN e c w (fun x s =>
    let d := shortNs s - x.ev.time
    let s := if x.group = [] then s else sigCommit x.group s
    let s := if x.ev.kind = 0 ∧ x.group ≠ [] then s |> markMax F.SIG_LATE_MAX_NS d |> histAdd 18 128 d |> extreme 5 d else s
    (.ok (gvAccess { x with group := [] }), s)) s)

/-! ### PDUs (R284–R300, R332) -/

/-- UNPACK (R286, R296, R332): a secured PDU only after SECV; a PDU of a refused node is discarded (R467). -/
def execUnpack (e : Fin 16) (c : Fin 8) (w : BitVec 26) (s : State) : Res :=
  .next (gvG 0x2000 e c w (fun x s =>
    let p := x.get (wA w)
    let src := pduN p 0x20 2 s
    if !cfgHas C.sigPdu p s || (pduN p 0x15 1 s != 0xFF && !x.secOk.contains (p, wSlot w)) then (.error gvOperand, s)
    else match slotData (wSlot w) x s with
      | none => (.error gvFrame, s)
      | some d =>
        let (x, s) := slotFetch e c (wSlot w) (x.get (wB w)) (pduN p 0 2 s) x s
        if src ≠ 0xFFFF ∧ nodeRefused src s then (.ok (gvAccess (x.put (wD w) 1)), s)
        else
          let (st, l, s) := pduUnpack p (d.drop (x.get (wB w))) s
          gvStage l (gvAccess (x.put (wD w) st)) s) s)

/-- Whether n bytes from offset o of a slot's local frame exist. -/
def localRoom (k o n : Nat) (x : Ctx) (s : State) : Bool := match slotData k x s with
  | none => false
  | some d => !slotBuffered k x && decide (o + n ≤ d.length)

/-- The frame of a slot carries an instance of a PDU (R292), packed from bank b where it names a snapshot set (R120). -/
def slotPdu (k p b : Nat) (x : Ctx) : Ctx := match x.slot k with
  | .loc f n => x.setSlot k (.loc { f with pdu := some p, bank := b } n)
  | _ => x

/-- PACK (R287, R293, R295, R311, R332): into a local frame. -/
def execPack (e : Fin 16) (c : Fin 8) (w : BitVec 26) (s : State) : Res :=
  .next (gvG 0x2000 e c w (fun x s =>
    let p := x.get (wA w)
    let k := wSlot w
    let o := x.get (wB w)
    if !cfgHas C.sigPdu p s then (.error gvOperand, s)
    else if !localRoom k o (pduN p 0 2 s) x s then (.error gvFrame, s)
    else match pduPack p s with
      | (none, s) => (.ok (gvAccess (x.put (wD w) 1)), s)
      | (some d, s) => (.ok (gvAccess ((slotPdu k p (snap (pduN p 0x1D 1 s) s).cur (slotWrite k o d x)).put (wD w) 0)), s)) s)

/-! ### Secured PDUs (R297–R300, R332, R338) -/

/-- Field o of width w of the authentication profile of PDU p (R312). -/
def authN (p o w : Nat) (s : State) : Nat := cfgN C.sigAuth (pduN p 0x15 1 s) o w s
/-- Freshness bytes of PDU p. -/
def authFb (p : Nat) (s : State) : Nat := authN p 3 1 s
/-- Tag bytes of PDU p. -/
def authTag (p : Nat) (s : State) : Nat := authN p 2 1 s / 8
/-- The length of the secured PDU (R297). -/
def securedLen (p : Nat) (s : State) : Nat := pduN p 0 2 s + authFb p s + authTag p s
/-- F_own (R299). -/
def freshOwn (p : Nat) (s : State) : Nat := shortNs s / 2 ^ authN p 4 1 s
/-- The profile's key slot is empty or blocked (R300). -/
def authNoKey (p : Nat) (s : State) : Bool :=
  (slotKey (authN p 0 2 s) s).isNone || slotBlocked (authN p 0 2 s) s || tamperBlocks s
/-- AUTH_SYNC_REQ forbids the PDU now (R300). -/
def authNoSync (p : Nat) (s : State) : Bool := bit (pduN p 3 1 s) 3 && domState 0 s == 0

/-- The value nearest to f whose low bits modulo m are r, the lower of two equally near (R299). -/
def nearest (f m r : Nat) : Nat :=
  let b := f - f % m + r
  let d (v : Nat) : Nat := if f ≤ v then v - f else f - v
  ([b - m, b, b + m].filter fun v => v % m == r).foldl (fun a v => if d v < d a then v else a) (if m ≤ b then b - m else b)

/-- The freshness candidates of a received PDU, in the order in which they are tried (R299). -/
def freshCands (p : Nat) (fb : List Byte) (s : State) : List Nat :=
  let f := freshOwn p s
  let w := authN p 5 1 s
  let l := if authFb p s = 0 then (List.range (min w f + 1)).map (f - ·) else [nearest f (2 ^ (8 * authFb p s)) (leNat fb)]
  l.filter fun v => decide ((pduRun p s).accF < v) && decide ((if f ≤ v then v - f else f - v) ≤ w)

/-- A CMAC request over a secured PDU (R297, R402): mode 6 generates, 7 verifies. -/
def authReq (e c p mode f : Nat) (d tag : List Byte) (s : State) : CipReq :=
  let input := leBytes 2 (pduN p 0x16 2 s) ++ d ++ leBytes 8 f
  { id := 0, src := e, ctx := c, kind := if mode = 7 then 2 else 3, input := input,
    desc := leBytes 1 mode ++ zeros 1 ++ leBytes 2 (authN p 0 2 s) ++ zeros 2 ++ leBytes 1 (authTag p s) ++ zeros 9
      ++ leBytes 2 input.length ++ zeros 6 ++ zeros 16 ++ slice tag 0 16 ++ zeros 8 }

/-- A context waits for a cipher request that it submits (R337, R338). -/
def gvCipher (e c : Nat) (r : CipReq) (x : Ctx) (s : State) : GvOut :=
  let s := ctxSet e c { x with st := 2, stall := .cipher s.cip.nextId } s
  let s := (cipSubmit r s).2
  (.ok (ctx e c s), s)

/-- The discard of a PDU that fails R299 (R300). -/
def authFail (p : Nat) (s : State) : State :=
  let r := pduRun p s
  let first := r.authSec != some s.rcd.secs
  s |> inc F.SIG_AUTH_ERR_VERIFY |> pduSet p { r with auth := sat16 r.auth, authSec := some s.rcd.secs } |> pduFlag p 3 true
    |> when first (record 0x0A00 p 0)

/-- The next candidate goes to the cipher engine, or the PDU has failed (R299). -/
def secvTry (e c p o : Nat) (cands : List Nat) (x : Ctx) (s : State) : GvOut := match cands with
  | [] => (.ok { x.put x.dreg 1 with st := 1, stall := .none }, authFail p s)
  | f :: rest =>
    let d := ((slotData x.dslot x s).getD []).drop o
    let n := pduN p 0 2 s
    gvCipher e c (authReq e c p 7 f (d.take n) ((d.drop (n + authFb p s)).take (authTag p s)) s)
      { x with arg0 := p, arg1 := f, arg2 := o, sop := 2, cand := rest } s

/-- SECV (R299, R300, R332). -/
def execSecv (e : Fin 16) (c : Fin 8) (w : BitVec 26) (s : State) : Res :=
  .next (gvG 0x2000 e c w (fun x s =>
    let p := x.get (wA w)
    let o := x.get (wB w)
    let n := pduN p 0 2 s
    if !cfgHas C.sigPdu p s || pduN p 0x15 1 s == 0xFF then (.error gvOperand, s)
    else match slotData (wSlot w) x s with
      | none => (.error gvFrame, s)
      | some d =>
        if d.length < o + securedLen p s then (.error gvFrame, s)
        else if authNoKey p s then (.ok (x.put (wD w) 2), inc F.SIG_AUTH_ERR_KEY s)
        else if authNoSync p s then (.ok (x.put (wD w) 3), inc F.SIG_AUTH_ERR_SYNC s)
        else
          let (x, s) := slotFetch e c (wSlot w) o (securedLen p s) x s
          secvTry e c p o (freshCands p (slice d (o + n) (authFb p s)) s) { x with dreg := wD w, dslot := wSlot w } s) s)

/-- SECG (R297, R298, R300, R332). -/
def execSecg (e : Fin 16) (c : Fin 8) (w : BitVec 26) (s : State) : Res :=
  .next (gvG 0x2000 e c w (fun x s =>
    let p := x.get (wA w)
    let o := x.get (wB w)
    let k := wSlot w
    if !cfgHas C.sigPdu p s || pduN p 0x15 1 s == 0xFF then (.error gvOperand, s)
    else if !localRoom k o (securedLen p s) x s then (.error gvFrame, s)
    else if authNoKey p s then (.ok (x.put (wD w) 2), inc F.SIG_AUTH_ERR_KEY s)
    else if authNoSync p s then (.ok (x.put (wD w) 3), inc F.SIG_AUTH_ERR_SYNC s)
    else
      let f := match (pduRun p s).lastF with
        | none => freshOwn p s
        | some l => max (freshOwn p s) (l + 1)
      let s := pduSet p { pduRun p s with lastF := some f } s
      let d := slice ((slotData k x s).getD []) o (pduN p 0 2 s)
      gvCipher e c (authReq e c p 6 f d [] s) { x with dreg := wD w, dslot := k, arg0 := p, arg1 := f, arg2 := o, sop := 3 } s) s)

/-- A request without a usable key ends SECV or SECG with status 2 (R332). -/
def secNoKey (x : Ctx) (s : State) : Ctx × State :=
  ({ x.put x.dreg 2 with st := 1, stall := .none }, inc F.SIG_AUTH_ERR_KEY s)

/-- SECV's result (R299, R300). -/
def secvEnd (e c : Nat) (r : CipRes) (x : Ctx) (s : State) : GvOut :=
  let p := x.arg0
  if r.status = 2 ∨ r.status = 3 then let y := secNoKey x s; (.ok y.1, y.2)
  else if r.status = 0 ∧ r.verdict = 0 then
    (.ok { x.put x.dreg 0 with st := 1, stall := .none, secOk := (p, x.dslot) :: x.secOk },
      pduFlag p 3 false (pduSet p { pduRun p s with accF := x.arg1 } s))
  else if r.status = 0 then secvTry e c p x.arg2 x.cand x s
  else (.ok { x.put x.dreg 1 with st := 1, stall := .none }, authFail p s)

/-- SECG's result: the freshness bytes and the tag behind the PDU (R297). -/
def secgEnd (r : CipRes) (x : Ctx) (s : State) : GvOut :=
  let p := x.arg0
  if r.status = 0 then
    (.ok { (slotWrite x.dslot (x.arg2 + pduN p 0 2 s) (leBytes (authFb p s) x.arg1 ++ r.tag) x).put x.dreg 0 with
      st := 1, stall := .none }, s)
  else let y := secNoKey x s; (.ok y.1, y.2)

/-! ### CIPH (R338, R402) -/

/-- The memory of a request's space: its bytes and how many may be written. -/
def ciphSpace (e k : Nat) (x : Ctx) (s : State) : List Byte × Nat := match k with
  | 0 => (dmemBytes e 0 32768 s, 32768)
  | 1 => let d := (slotData 0 x s).getD []; (d, if slotBuffered 0 x then 0 else d.length)
  | 2 => let d := (slotData 1 x s).getD []; (d, if slotBuffered 1 x then 0 else d.length)
  | _ => ([], 0)

/-- CIPH (R338): the descriptor at DMEM address A. -/
def execCiph (e : Fin 16) (c : Fin 8) (w : BitVec 26) (s : State) : Res :=
  .next (gvG 0 e c w (fun x s =>
    let a := x.get (wA w)
    if 32768 < a + 64 then (.error gvDmem, s)
    else
      let d := dmemBytes e a 64 s
      let i := leAt d 8 4
      let o := leAt d 12 4
      let n := leAt d 0x12 2 + leAt d 0x10 2
      let out := modeArea d
      let m := ciphSpace e (byteAt d 1) x s
      let (x, s) := if byteAt d 1 = 1 ∨ byteAt d 1 = 2 then slotFetch e c (byteAt d 1 - 1) i n x s else (x, s)
      gvCipher e c { id := 0, src := e, ctx := c, kind := 1, desc := d, addr := a, input := (m.1.drop i).take n,
                     more := slice m.1 o 8, ok := decide (i + n ≤ m.1.length) && (out == 0 || decide (o + out ≤ m.2)) }
        { x with dreg := wD w, arg0 := a, sop := 1 } s) s)

/-! ### Queues (R152–R155, R334) -/

/-- POP (R154, R155, R334): only the engine's own queues, into an empty slot. -/
def execPop (e : Fin 16) (c : Fin 8) (w : BitVec 26) (s : State) : Res :=
  .next (gvG 0x2000 e c w (fun x s =>
    let q := x.get (wA w)
    let k := wSlot w
    if q < 944 + 5 * e ∨ 948 + 5 * e < q then (.error gvOperand, s)
    else if x.slot k ≠ .empty then (.error gvSlot, s)
    else match popHead q s with
      | (some n, s) => (.ok ((x.put (wD w) 0).setSlot k (.buf n.fid [])), frameTaken e (fr n.fid s).data s)
      | (none, s) =>
        if x.get (wB w) = 0 then (.ok (x.put (wD w) 1), s)
        else (.ok { x with st := 2, stall := .queue q, dreg := wD w, dslot := k, until_ := waitUntil (x.get (wB w)) s },
          quSet q { qu q s with waits := (qu q s).waits ++ [⟨e, c, k⟩] } s)) s)

/-- Whether engine e may push into queue q (R320, R334, R488): none, or the code of the fault. -/
def pushFault (e q : Nat) (s : State) : Option Nat :=
  if q ≤ 671 then none
  else if q ≤ 735 then (if bit (hqN (q - 672) 0 1 s) 3 then none else some gvOperand)
  else if q ≤ 767 then none
  else if q ≤ 815 then some gvOperand
  else if q ≤ 943 then (if e < 4 then none else some gvPriv)
  else if q ≤ 1023 then none else some gvOperand

/-- The descriptor of a local frame as it is pushed into queue q: a new frame (R125, R137, R162, R334). -/
def pushFr (q len : Nat) (f : Fr) : Fr :=
  { data := f.data.take len, src := f.src, ts := f.ts, cls := f.cls, vlan := f.vlan, stream := f.stream, user := f.user,
    noEvict := f.noEvict, tsReq := f.tsReq, pdu := f.pdu, bank := f.bank, lookup := directedKind, untag := true, rsv := isRsvQueue q,
    dests := [(q, false, 0)] }

/-- A PDU that names a snapshot set pins the bank it was packed from until its frame is enqueued (R120, R311). -/
def pushPin (f : Nat) (x : Fr) (s : State) : State := match x.pdu with
  | none => s
  | some p => if pduN p 0x1D 1 s = 0xFF then s else snapPinBank (pduN p 0x1D 1 s) x.bank f s

/-- PUSH of a local frame: it is written into the buffer through FN7, and the context stalls until it is linked. While
FN7's staging is full the instruction waits to be taken again (R127). -/
def pushLocal (e c q k : Nat) (keep : Bool) (d : Nat) (f : Fr) (len : Nat) (x : Ctx) (s : State) : GvOut :=
  if sourceWaits (isRsvQueue q) 7 s then (.ok (ctx e c s), s)
  else match submitAs true 7 (pushFr q len f) s with
  | (none, s) => (.ok (x.put d 1), s)
  | (some n, s) => (.ok { x with st := 2, stall := .write n, dreg := d, dslot := k, arg0 := b2n keep }, pushPin n f s)

/-- PUSH of a buffered frame: a further entry of it (R137, R334). Its cells are bulk cells, so that no stipple-reserved queue
can take it (R125). -/
def pushBuffered (q k : Nat) (keep : Bool) (d f : Nat) (x : Ctx) (s : State) : GvOut :=
  if isRsvQueue q then (.ok (x.put d 1), refuseAt q s)
  else match linkMore f q s with
    | (false, s) => (.ok (x.put d 1), s)
    | (true, s) => if keep then (.ok (x.put d 0), s) else (.ok ((x.put d 0).setSlot k .empty), releaseFrame f s)

/-- PUSH (R334). -/
def execPush (e : Fin 16) (c : Fin 8) (w : BitVec 26) (s : State) : Res :=
  .next (gvG 0x3000 e c w (fun x s =>
    let q := x.get (wA w)
    let k := wSlot w
    match pushFault e q s with
    | some code => (.error code, s)
    | none => match x.slot k with
      | .empty => (.error gvSlot, s)
      | .loc f len => pushLocal e c q k (bit (wSub w) 12) (wD w) f len x s
      | .buf f _ => pushBuffered q k (bit (wSub w) 12) (wD w) f x s) s)

/-! ### Frames (R322, R326, R333, R334) -/

/-- FNEW (R320, R334): a local frame of A zero bytes, when its pool could supply its cells. -/
def execFnew (e : Fin 16) (c : Fin 8) (w : BitVec 26) (s : State) : Res :=
  .next (gvG 0x3000 e c w (fun x s =>
    let n := x.get (wA w)
    let rsv := bit (wSub w) 12
    if rsv && decide (4 ≤ e.val) then (.error gvPriv, s)
    else if n = 0 ∨ 4096 < n then (.error gvOperand, s)
    else if x.slot (wSlot w) ≠ .empty then (.error gvSlot, s)
    else if cellsFree rsv (cellsOf n) s then
      (.ok ((x.put (wD w) 0).setSlot (wSlot w) (.loc { data := zeros n, src := 7 * 4096 + e, rsv := rsv } n)), s)
    else (.ok (x.put (wD w) 1), s)) s)

/-- FREL (R326, R334): D, A and B are 0. -/
def execFrel (e : Fin 16) (c : Fin 8) (w : BitVec 26) (s : State) : Res :=
  .next (gvG 0x2000 e c w (fun x s =>
    let k := wSlot w
    if wD w ≠ 0 ∨ wA w ≠ 0 ∨ wB w ≠ 0 then (.error gvIllegal, s)
    else if x.slot k = .empty then (.error gvSlot, s)
    else (.ok (x.setSlot k .empty), slotRelease (x.slot k) s)) s)

/-- The flags of a descriptor (R138). -/
def frFlags (f : Fr) : Nat := b2n f.ct + 2 * b2n f.bad + 4 * b2n f.noEvict + 8 * b2n f.tsReq + 32 * b2n f.inProg

/-- A descriptor field of FGET (R333). -/
def frField (i len : Nat) (f : Fr) : Option Nat := match i with
  | 0 => some len | 1 => some f.ts | 2 => some f.src | 3 => some (frFlags f) | 4 => some f.cls | 5 => some f.vlan
  | 6 => some f.stream | 7 => some f.lookup | 8 => some f.user | _ => none

/-- FGET (R333, R334). -/
def execFget (e : Fin 16) (c : Fin 8) (w : BitVec 26) (s : State) : Res :=
  .next (gvIssue e c (fun x s => match slotFr (bits (wImm w) 17 1) x s with
    | none => (.error gvSlot, s)
    | some (f, n) => match frField (bits (wImm w) 0 4) n f with
      | none => (.error gvOperand, s)
      | some v => (.ok (x.put (wD w) v), s)) s)

/-- A descriptor with a field that FPUT may write (R333): class, user word, NO_EVICT and TS_REQ. -/
def frPut (i v : Nat) (f : Fr) : Option Fr := match i with
  | 3 => if clearBits v 12 = 0 then some { f with noEvict := bit v 2, tsReq := bit v 3 } else none
  | 4 => if v < 8 then some { f with cls := v } else none
  | 8 => some { f with user := v % 2 ^ 32 }
  | _ => none

/-- FPUT (R333, R334): the length only of a local frame, up to its memory. -/
def execFput (e : Fin 16) (c : Fin 8) (w : BitVec 26) (s : State) : Res :=
  .next (gvIssue e c (fun x s =>
    let k := bits (wImm w) 17 1
    let i := bits (wImm w) 0 4
    let v := x.get (wA w)
    match x.slot k with
    | .empty => (.error gvSlot, s)
    | .loc f n =>
      if i = 0 then
        if 0 < v ∧ v ≤ f.data.length then (.ok (x.setSlot k (.loc f v)), s) else (.error gvOperand, s)
      else match frPut i v f with
        | some g => (.ok (x.setSlot k (.loc g n)), s)
        | none => (.error gvOperand, s)
    | .buf f _ => match frPut i v (fr f s) with
      | some g => (.ok x, frSet f g s)
      | none => (.error gvOperand, s)) s)

/-- The bus_id and URGENT flag with which a frame joins a carrier: those of the first route of action 1 to it (R302, R303). -/
def acfRoute (src k : Nat) (f : CanFrame) (s : State) : Nat × Bool :=
  let id := f.id + 2 ^ 29 * b2n f.ide
  match (routesAll 0 (src % 4096) 0 id s).find? fun r => routeN r 3 1 s == 1 && routeN r 0x0C 1 s == k with
  | some r => (routeN r 0x0F 1 s, bit (routeN r 2 1 s) 0)
  | none => (0, false)

/-- ACFADD (R303, R332). -/
def execAcfadd (e : Fin 16) (c : Fin 8) (w : BitVec 26) (s : State) : Res :=
  .next (gvG 0x2000 e c w (fun x s =>
    let k := x.get (wA w)
    match slotFr (wSlot w) x s, slotData (wSlot w) x s with
    | some (f, _), some d =>
      if !cfgHas C.sigCarrier k s then (.error gvOperand, s)
      else if sourceWaits false 7 s then (.ok (ctx e c s), s)
      else
        let g := canOfBytes d
        let (x, s) := slotFetch e c (wSlot w) 0 d.length x s
        let (bus, urgent) := acfRoute f.src k g s
        let (st, s) := carAdd k bus f.ts urgent g s
        (.ok (x.put (wD w) st), s)
    | _, _ => (.error gvFrame, s)) s)

/-! ### Snapshots (R118–R120, R310, R458, R459) -/

/-- A part for this device's own snapshot host queue (R459). -/
def snapLocal (set : Nat) (b : List Byte) (s : State) : State :=
  let q := cfgN C.almHdr 0 0x30 2 s
  let id := s.qm.nextId
  match submit 7 { data := b, src := 7 * 4096 + set % 4, lookup := directedKind, untag := true, dests := [(q, false, 0)] } s with
  | (some _, s) => snapPin set id s
  | (none, s) => inc F.PRF_SNAP_INCOMPLETE s

/-- The bytes from the latched bank that fragment i carries, behind its sub-header (R458). -/
def snapFragment (set seq i n : Nat) (b : List Byte) : List Byte :=
  leBytes 1 set ++ leBytes 1 i ++ leBytes 1 n ++ zeros 1 ++ leBytes 4 seq ++ leBytes 4 (1456 * i) ++ (b.drop (1456 * i)).take 1456

/-- Send the current bank of a set as SNAPSHOT messages to the collector (R458, R459). -/
def snapSend (set : Nat) (s : State) : State :=
  let x := snap set s
  let b := x.bank x.cur
  let col := cfgN C.almHdr 0 0x12 2 s
  let n := cdiv b.length 1456
  if col = ownNode s then snapLocal set b s
  else match peerOf col s with
    | none => inc F.PRF_SNAP_INCOMPLETE s
    | some i =>
      ((List.range n).foldl (fun (a : Bool × State) j =>
        if !a.1 then a
        else
          let id := a.2.qm.nextId
          let (ok, s) := if portUp (peerPort i a.2) a.2 then almTo i 7 0 (snapFragment set x.seq j n b) a.2 else (false, a.2)
          if ok then (true, incWrap F.PRF_SNAP_SENT (snapPin set id s))
          else (false, inc F.PRF_SNAP_INCOMPLETE
            (snapSet set { snap set s with pin := (snap set s).pin.filter fun p => p.1 != x.cur } s))) (true, s)).2

/-- LATCH (R118, R315, R320, R332): in a SNAP handler of GV0 to GV3; a set whose stipple asks for it is sent at once. -/
def execLatch (e : Fin 16) (c : Fin 8) (w : BitVec 26) (s : State) : Res :=
  .next (gvG 0 e c w (fun x s =>
    let k := x.get (wA w)
    if 4 ≤ e.val then (.error gvPriv, s)
    else if x.ev.kind ≠ 4 ∨ !cfgHas C.sigSnap k s then (.error gvOperand, s)
    else
      let (ok, s) := snapLatch k x.ev.time s
      (.ok (gvAccess (x.put (wD w) (b2n (!ok)))), when (ok && x.ev.sub == 1) (snapSend k) s)) s)

/-! ### Frames routed by the channel that receives them (R301, R302, R306) -/

/-- The routes of a frame received from channel ch, as far as they are the device's own (R301, R302, R306). -/
def rxRoutes (ch : Nat) (data : List Byte) (s : State) : State := if 96 ≤ ch then s else frameRoutes 0 ch 0 ch data s

end Sys2Proof.Machine
end

