-- ==== Sys2Proof/Machine/GraverEvent.lean ====
section
/-! DEFINITION. Dispatch of events, the end of a stall, timers, and the loading of a graver engine (09_graver_engines.md,
R315–R319, R335, R337, R341, R342). -/

namespace Sys2Proof.Machine

/-- The GRAVER_CODE values in GRV_CFG. -/
def grvShow (s : State) : State :=
  s |> wr F.GRV_CFG_BUDGET (cfgN C.grvHdr 0 0x14 2 s) |> wr F.GRV_CFG_FAULT_LIMIT (cfgN C.grvHdr 0 2 1 s)
    |> wr F.GRV_CFG_HOOKS (cfgN C.grvHdr 0 1 1 s)

/-! ### Dispatch (R315–R318) -/

/-- An engine that works: it runs or lets its contexts reach END, with its domain on and clocked. -/
def gvClocked (e : Nat) (s : State) : Bool := (engState e s == 1 || engState e s == 3) && domRuns .grv s

/-- The serialisation key of an event (R318): DUE and PREP share the PDU; STP and MSG have none. -/
def evKey (v : Ev) : Option (Nat × Nat × Nat) := match v.kind with
  | 2 => some (2, 0, v.src) | 3 => some (2, 0, v.src) | 5 => none | 7 => some (7, 0, v.sub) | 8 => none
  | 0 => some (0, v.sub, v.src)
  | k => some (k, 0, v.src)

/-- The key of an event is held by a context that handles another one. -/
def keyHeld (e : Nat) (v : Ev) (s : State) : Bool :=
  (evKey v).isSome && (List.range 8).any fun c => decide ((ctx e c s).st ≠ 0) && evKey (ctx e c s).ev == evKey v

/-- The RX event of the frame at the head of a channel's FIFO (R315). -/
def rxEvent (ch : Nat) (f : RxFr) : Ev := ⟨0, if ch < 96 then 0 else 1, if ch < 96 then ch else ch - 96, 0, f.at_⟩

/-- The events that engine e could dispatch: of RX, the oldest frame of each channel. -/
def dispatchable (e : Nat) (s : State) : List Ev :=
  let rx := (chansOf e s).filterMap fun ch => (rxFifo ch s).head?.map (rxEvent ch)
  (rx ++ (eng e s).evs ++ (eng e s).msgs).filter fun v => !keyHeld e v s

/-- Event a is dispatched before event b (R317). -/
def evBefore (a b : Ev) : Bool :=
  let rank (v : Ev) : Nat := if 3 ≤ v.kind ∧ v.kind ≤ 5 then 0 else 1
  let x := [rank a, a.time, a.kind, a.src]
  let y := [rank b, b.time, b.kind, b.src]
  x < y

/-- The event that engine e dispatches next. -/
def nextEvent (e : Nat) (s : State) : Option Ev := match dispatchable e s with
  | [] => none
  | v :: l => some (l.foldl (fun a b => if evBefore b a then b else a) v)

/-- The field channel of an RX event. -/
def evChannel (v : Ev) : Nat := if v.sub = 0 then v.src else 96 + v.src

/-- An event leaves its source; of RX, with its frame. -/
def takeEvent (e : Nat) (v : Ev) (s : State) : Option RxFr × State :=
  if v.kind = 0 then
    let ch := evChannel v
    ((rxFifo ch s).head?, { s with can := { s.can with fifo := tput s.can.fifo ch (rxFifo ch s).tail } })
  else if v.kind = 8 then (none, engShow e (engSet e { eng e s with msgs := (eng e s).msgs.erase v } s))
  else (none, engSet e { eng e s with evs := (eng e s).evs.erase v } s)

/-- The event word in g1 (R315). -/
def evWord (v : Ev) : Nat := v.kind * 2 ^ 56 + v.sub * 2 ^ 48 + v.src * 2 ^ 32 + v.arg

/-- n free values. -/
def freshes : Nat → State → List Nat × State
  | 0, s => ([], s)
  | n + 1, s => let (v, s) := fresh s; let (l, s) := freshes n s; (v :: l, s)

/-- The registers at a dispatch (R314): g1 the event word, g2 its time, the others undefined. -/
def dispatchRegs (v : Ev) (l : List Nat) : Tbl W64 :=
  (([evWord v, v.time] ++ l).zipIdx).map fun e => (e.2 + 1, BitVec.ofNat 64 e.1)

/-- The frame of an RX event, local in f0 (R315, R333). -/
def rxSlot (ch : Nat) (f : RxFr) : Slot :=
  .loc { data := f.data, src := 7 * 4096 + ch, ts := f.ts, need := cellsOf f.data.length } f.data.length

/-- Dispatch an event to context c, at the vector of its kind (R316, R317). -/
def dispatchTo (e c : Nat) (v : Ev) (s : State) : State :=
  let (f, s) := takeEvent e v s
  let vec := (eng e s).vecs.getD v.kind 0xFFFF
  if vec = 0xFFFF then inc (F.GRV_GVn_MISC_NOVEC.u e) s
  else
    let s := match f with | some f => rxRoutes (evChannel v) f.data s | none => s
    let (l, s) := freshes 13 s
    ctxSet e c { st := 1, regs := dispatchRegs v l, pc := vec, ev := v,
                 f0 := match f with | some f => rxSlot (evChannel v) f | none => .empty } s
      |> incWrap (F.GRV_GVn_EVENTS_COUNT.u e)

/-- An upset of an engine's memories (R321, R339, R340). -/
def engUpset (e : Nat) (u : GvUpset) (s : State) : State := match u with
  | .corrected => inc (F.GRV_GVn_ECC_CORR.u e) s
  | .context c => if (ctx e c s).st = 0 then s else gvFault e c gvEcc (ctx e c s).pc s
  | .imem => engFence e s

/-- DISPATCH (R317): the next event goes to the lowest free context of a running engine, after an upset that the engine
meets (R339, R340). -/
def execDispatch (x : GvDispatch) (s : State) : Res :=
  let e := x.eng
  let s := match x.upset with
    | some u => if gvClocked e s then engUpset e u s else s
    | none => s
  .next (if engState e s ≠ 1 ∨ !domRuns .grv s then s
  else match (List.range 8).find? (fun c => (ctx e c s).st == 0), nextEvent e s with
    | some c, some v => dispatchTo e c v s
    | _, _ => s)

/-! ### The end of a stall (R337) -/

/-- A pushed frame is linked, or has gone (R334): the slot is emptied unless it is kept. -/
def pushEnd (x : Ctx) : Ctx :=
  let y := { x.put x.dreg 0 with st := 1, stall := .none }
  if x.arg0 = 0 then y.setSlot x.dslot .empty else y

/-- What a released result does to the context that waits for it (R320, R331): the end of SECV, of SECG or of CIPH. -/
def cipherOut (e c : Nat) (r : CipRes) (x : Ctx) (s : State) : GvOut := match x.sop with
  | 2 => secvEnd e c r x s
  | 3 => secgEnd r x s
  | _ => (.ok { x.put x.dreg r.status with st := 1, stall := .none }, s)

/-- A cipher result reaches the instruction that waits for it. -/
def cipherEnd (e c id : Nat) (x : Ctx) (s : State) : State := match tfind s.cip.done id with
  | none => s
  | some r =>
    match cipherOut e c r x { s with cip := { s.cip with done := terase s.cip.done id } } with
    | (.ok y, s) => ctxSet e c y s
    | (.error _, s) => s

/-- STALL_END (R337): a store access completes, fetched cells have been read through FN7, a pushed frame has been linked, or
a checked result returns. -/
def execStallEnd (e : Fin 16) (c : Fin 8) (s : State) : Res :=
  let x := ctx e c s
  .next (if x.st ≠ 2 ∨ !domRuns .grv s ∨ reading (.slot e c) s then s
  else match x.stall with
    | .access | .fetch => ctxSet e c { x with st := 1, stall := .none } s
    | .write f => match tfind s.qm.frames f with
      | some y => if y.phase = 3 then ctxSet e c (pushEnd x) s else s
      | none => ctxSet e c (pushEnd x) s
    | .cipher id => cipherEnd e c id x s
    | _ => s)

/-- ENGINE_TIMER (R315, R335): an armed timer expires. -/
def execEngineTimer (e : Fin 16) (t : Fin 16) (s : State) : Res := .next (when (awake s) (timerRaise e t) s)

end Sys2Proof.Machine
end

