-- ==== Sys2Proof/Machine/Jobs.lean ====
section
/-! DEFINITION. Frame jobs of the cipher queues (12_cipher_engine.md, R411, R412). -/

namespace Sys2Proof.Machine

/-- Field o of width w of frame-job template j (R419). -/
def jobN (j o w : Nat) (s : State) : Nat := cfgN C.msJob j o w s

/-- The salt and the 8 bytes behind it of a job's IV (R412). -/
def jobIv (j : Nat) (b : List Byte) (s : State) : List Byte := slice (cfgRec C.msJob j s) 8 4 ++ slice b 0 8

/-- The cipher request of template j on a frame without its FCS, for template counter n; none when the frame is too short
or too long for it (R412). -/
def jobReq (j n : Nat) (b : List Byte) (s : State) : Option CipReq :=
  let mode := jobN j 0 1 s
  let t := jobN j 1 1 s
  let h := jobN j 4 2 s
  let mk (iv aad data tag : List Byte) : CipReq :=
    { id := 0, src := 16, kind := 4, input := aad ++ data,
      desc := leBytes 1 mode ++ zeros 1 ++ leBytes 2 (jobN j 2 2 s) ++ zeros 2 ++ leBytes 1 t ++ zeros 9
        ++ leBytes 2 data.length ++ leBytes 2 aad.length ++ zeros 4 ++ slice iv 0 16 ++ slice tag 0 16 ++ zeros 8 }
  let tagAt := b.length - t
  if 4096 < b.length + 4 ∨ b.length < h then none
  else match mode with
    | 2 => some (mk (jobIv j (leBytes 8 n) s) (b.take h) (b.drop h) [])
    | 3 => if b.length < h + 8 + t then none
           else some (mk (jobIv j (b.drop h) s) (b.take h) ((b.take tagAt).drop (h + 8)) (b.drop tagAt))
    | 6 => some (mk [] [] b [])
    | 7 => if b.length < t then none else some (mk [] [] (b.take tagAt) (b.drop tagAt))
    | _ => none

/-- The output frame of a job, without its FCS (R412). -/
def jobOut (j n : Nat) (b : List Byte) (x : CipRes) (s : State) : List Byte :=
  let h := jobN j 4 2 s
  match jobN j 0 1 s with
  | 2 => b.take h ++ leBytes 8 n ++ x.out ++ x.tag
  | 3 => b.take h ++ x.out
  | 6 => b ++ x.tag
  | _ => b.take (b.length - jobN j 1 1 s)

/-- The checked result of a job: the frame re-enters through FN10, or is dropped (R412). -/
def jobEnd (j n k : Nat) (b : List Byte) (x : CipRes) (s : State) : State :=
  let s := cipCount k x s
  if x.status ≠ 0 then inc F.CIP_JOB_DROP_OTHER s
  else if x.verdict ≠ 0 then inc F.CIP_JOB_DROP_VERIFY s
  else
    let o := jobOut j n b x s
    (submitLookup 10 { data := o ++ fcsBytes o, src := 10 * 4096, cls := jobN j 6 1 s % 8 } s).2

/-- The lanes of pair k check a job's result x before it is released (R404–R406). -/
def jobCheck (j n k : Nat) (b : List Byte) (x : CipRes) (c : LaneCheck) (s : State) : State :=
  let fault : CipRes := { status := Status.fault.code }
  if x.status ≠ 0 then jobEnd j n k b x s
  else match c with
    | .agree => jobEnd j n k b x s
    | .differ katPass again =>
      let s := pairMismatch k s
      if katPass && !again then jobEnd j n k b x s
      else pairFence k (jobEnd j n k b fault (pairFailed katPass k s))

/-- A job on the head frame of cipher queue 768 + j. -/
def jobRun (j k : Nat) (c : LaneCheck) (s : State) : State := match (qu (768 + j) s).ents with
  | [] => s
  | e :: _ =>
    let d := (fr e.fid s).data
    let b := d.take (d.length - 4)
    let n := tget 0 s.cip.jobs j + 1
    match jobReq j n b s with
    | none => inc F.CIP_JOB_DROP_OTHER (releaseFrame e.fid (popHead (768 + j) s).2)
    | some r =>
      let x := cipResult r s
      let (go, s') := if cipStatus r s = .ok then useCount r.slot s else (true, s)
      if !go then s'
      else
        let s := releaseFrame e.fid (popHead (768 + j) s').2
        let s := if r.mode = 2 then { s with cip := { s.cip with jobs := tput s.cip.jobs j n } } else s
        jobCheck j n k b x c s

/-- With every bulk pair fenced, the head frame of the first cipher queue of fenced pair k that FN10 has read whole is
answered FAULT and dropped (R406, R412). -/
def jobStranded (k : Nat) (s : State) : State :=
  match (((List.range 32).filter fun j => j % 3 + 1 == k).map (768 + ·)).find? (headRead · s) with
  | none => s
  | some q => match (qu q s).ents with
    | [] => s
    | e :: _ => releaseFrame e.fid (popHead q s).2 |> cipCount k { status := Status.fault.code } |> inc F.CIP_JOB_DROP_OTHER

/-- FRAME_JOB (R400, R406, R411, R412): a free bulk pair without a waiting request of CC0 takes the head frame of the first of
its cipher queues whose head frame FN10 has read whole. The lanes wait while FN10's staging is full (R16, R127). -/
def execFrameJob (pair : Fin 4) (c : LaneCheck) (s : State) : Res :=
  .next (if pair.val ≠ 0 ∧ domRuns .cip s = true ∧ cipServed false s = false then jobStranded pair s
  else if pair.val = 0 || !domRuns .cip s || !pairFree pair s || s.cip.bulkQ.any (·.src == 16) || sourceWaits false 10 s then s
  else match (jobQueues pair s).find? (headRead · s) with
    | none => s
    | some q => jobRun (q - 768) pair c s)

end Sys2Proof.Machine
end

