-- ==== Sys2Proof/Machine/SleepRing.lean ====
section
/-! DEFINITION. The consent ring, wake sources, and the power states IDLE and STANDBY (13_sleep_wake_partial_networks.md,
R420, R421, R426–R441). -/

namespace Sys2Proof.Machine

/-! ### Tokens (R426–R428) -/

/-- The ring is configured, and the RING service runs (R364). -/
def ringOn (s : State) : Bool := cfgHas C.slpHdr 0 s && svcUp 2 s
/-- The node at ring position m. -/
def ringNode (m : Nat) (s : State) : Nat := slpN (0x20 + 2 * m) 2 s
/-- Number of members. -/
def ringCount (s : State) : Nat := slpN 0 1 s
/-- The place of group g's bitmap in a token body. -/
def mapAt (body : List Byte) (g : Nat) : Nat := 0x18 + 8 * popCount (leAt body 0xC 4 % 2 ^ g) 32
/-- The bitmap of group g. -/
def tokMap (body : List Byte) (g : Nat) : Nat := leAt body (mapAt body g) 8
/-- The groups of a token that are awake. -/
def tokAwake (body : List Byte) : List Nat := (bitList (leAt body 0xC 4) 32).filter fun g => !bit (leAt body 0x14 4) g
/-- A token body has the length of its layout (R427) and covers the groups of this device. -/
def tokOk (body : List Byte) (s : State) : Bool :=
  leAt body 0xC 4 == slpPresent s && body.length == 24 + 8 * popCount (slpPresent s) 32

/-- Member m is dormant under an asleep mask (R426). -/
def dormant (m asleep : Nat) (s : State) : Bool :=
  (bitList (slpPresent s) 32).all fun g => !bit (grpN g 0 8 s) m || bit asleep g

/-- The next member in ring order that is not dormant (R426). -/
def ringNext (asleep : Nat) (s : State) : Option Nat :=
  ((List.range (ringCount s)).map fun i => (slpIndex s + 1 + i) % ringCount s).find? fun m => !dormant m asleep s

/-- This device consents for group g (R424), or is no member of it (R428). -/
def consents (g : Nat) (s : State) : Bool := !bit (slpOwn s) g || !bit (slpDemand s) g

/-- Write this member's bits into a token of circuit 1 or 2 (R428, R432): 0 also for a group woken since circuit 1; VETO with
a cleared bit of a candidate group. -/
def writeBits (circuit : Nat) (body : List Byte) (s : State) : List Byte :=
  (tokAwake body).foldl (fun b g =>
    let ok := consents g s && !(circuit == 2 && bit s.slp.toWake g)
    let b := spliceAt b (mapAt b g) (leBytes 8 (putBit (tokMap b g) (slpIndex s) ok))
    if circuit = 2 ∧ bit (leAt b 0x10 4) g ∧ !ok then spliceAt b 7 (leBytes 1 (putBit (byteAt b 7) 0 true)) else b) body

/-- The bitmaps that the originator starts a round with (R428): every excluded and every dormant member's bit is set. -/
def startMap (g asleep : Nat) (s : State) : Nat :=
  ofBits ((List.range 64).filter fun m => ringCount s ≤ m || !bit (grpN g 0 8 s) m || dormant m asleep s)

/-- A token of circuit 1 (R427, R429). -/
def startToken (epoch round : Nat) (s : State) : List Byte :=
  leBytes 4 epoch ++ leBytes 2 round ++ leBytes 1 1 ++ zeros 1 ++ leBytes 2 (ownNode s) ++ zeros 2 ++ leBytes 4 (slpPresent s)
    ++ zeros 4 ++ leBytes 4 s.slp.asleep ++ (bitList (slpPresent s) 32).flatMap fun g => leBytes 8 (startMap g s.slp.asleep s)

/-- The position registers follow a token. -/
def tokShow (body : List Byte) (s : State) : State :=
  s |> wr F.SLP_RING_EPOCH_EPOCH (leAt body 0 4) |> wr F.SLP_RING_POS_ROUND (leAt body 4 2)
    |> wr F.SLP_RING_POS_CIRCUIT (byteAt body 6) |> wrB F.SLP_RING_POS_VETO (bit (byteAt body 7) 0)

/-- The round that the originator runs is over. -/
def roundEnd (s : State) : State := { s with slp := { s.slp with running := false } }

/-- T_COMMIT starts for the candidate groups (R430). -/
def commitSet (cand : Nat) (s : State) : State :=
  { s with slp := { s.slp with commit := true, cand := cand, commitAt := s.time.loc + slpN 0x0C 2 s * 1000000 } }

/-- A token returns to its originator (R429). `send` passes one on. -/
def originReturn (send : List Byte → State → State) (body : List Byte) (s : State) : State :=
  let full (g : Nat) : Bool := tokMap body g == 2 ^ 64 - 1
  if !s.slp.running then s
  else match byteAt body 6 with
    | 1 =>
      let cand := ofBits ((tokAwake body).filter full)
      if cand = 0 then roundEnd s
      else
        let b := spliceAt (spliceAt body 6 (leBytes 1 2 ++ zeros 1)) 0x10 (leBytes 4 cand)
        let s := { s with slp := { s.slp with cand := cand } }
        send (writeBits 2 b s) s
    | 2 =>
      let cand := leAt body 0x10 4
      if bit (byteAt body 7) 0 ∨ !((bitList cand 32).all full) then
        inc F.SLP_ROUND_CNT_VETOES { s with slp := { s.slp with cand := 0, running := false } }
      else send (spliceAt body 6 (leBytes 1 3)) (commitSet cand s)
    | _ => roundEnd { s with slp := { s.slp with asleep := s.slp.asleep ||| (if s.slp.commit then s.slp.cand else 0) } }

/-- Pass a token on to the next member that is not dormant (R426); a ring in which that is this device itself hands it back. -/
def ringSend : Nat → List Byte → State → State
  | 0, _, s => s
  | n + 1, body, s =>
    let s := tokShow body { s with slp := { s.slp with last := some body } }
    match ringNext (leAt body 0x14 4) s with
    | none => s
    | some m =>
      if m = slpIndex s then originReturn (ringSend n) body s
      else match peerOf (ringNode m s) s with
        | some i => (almTo i 0 0 body s).2
        | none => s

/-- Start a round with circuit 1 (R428, R429). -/
def roundBegin (epoch round : Nat) (s : State) : State :=
  let s := { s with slp := { s.slp with running := true, cancelled := false, toWake := 0, origin := ownNode s,
                                        cand := if s.slp.commit then s.slp.cand else 0 } }
  slpShow (ringSend 4 (writeBits 1 (startToken epoch round s) s) s)

/-- ROUND_START (R429). -/
def execRoundStart (s : State) : Res :=
  .next (if ringOn s && rdB F.SLP_STAT_ORIGINATOR s && !s.slp.running then
    roundBegin (rd F.SLP_RING_EPOCH_EPOCH s) ((rd F.SLP_RING_POS_ROUND s + 1) % 65536) s else s)

/-- R438: the token's epoch lies above this member's, or is equal with an originator no higher than the current one. -/
def tokAccepted (body : List Byte) (s : State) : Bool :=
  let e := rd F.SLP_RING_EPOCH_EPOCH s
  serialAbove 32 (leAt body 0 4) e || (leAt body 0 4 == e && decide (leAt body 8 2 ≤ s.slp.origin))

/-- A token is a veto token (R432): it has VETO, and its circuit is none that is still to come to this member. -/
def isVetoToken (body : List Byte) (s : State) : Bool :=
  bit (byteAt body 7) 0
    && (byteAt body 6 != 2
      || (match s.slp.last with
          | some b => leAt b 0 4 == leAt body 0 4 && leAt b 4 2 == leAt body 4 2 && decide (byteAt body 6 ≤ byteAt b 6)
              && leAt body 8 2 != ownNode s
          | none => false))

/-- A veto token (R432, R433): forwarded once on the other ring links; before the commit point the round is cancelled,
afterwards it is a late wake. -/
def vetoTaken (port : Nat) (body : List Byte) (s : State) : State :=
  let k := (leAt body 0 4, leAt body 4 2)
  if s.slp.vetoes.contains k then s
  else
    let skip := match peerAt port s with | some i => [i] | none => []
    let s := almRing skip 0 0 body { s with slp := { s.slp with vetoes := (k :: s.slp.vetoes).take 16 } }
    let late := match s.slp.done with | some (e, r, _) => e == k.1 && r == k.2 | none => false
    if leAt body 0x10 4 = 0 then s else wakeReason 27 (leAt body 0x10 4) late s

/-- A token at a member that has not originated it (R428, R430). -/
def memberToken (body : List Byte) (s : State) : State :=
  let circuit := byteAt body 6
  let s := { s with slp := { s.slp with origin := leAt body 8 2, running := false } } |> wrB F.SLP_STAT_ORIGINATOR false
  match circuit with
  | 1 =>
    let s := { s with slp := { s.slp with toWake := 0, cancelled := false, cand := if s.slp.commit then s.slp.cand else 0 } }
    ringSend 1 (writeBits 1 body s) s
  | 2 =>
    let b := writeBits 2 body s
    let veto := bit (byteAt b 7) 0
    let mine := veto && !bit (byteAt body 7) 0 && s.slp.toWake &&& leAt body 0x10 4 != 0
    let s := { s with slp := { s.slp with cand := if veto then 0 else leAt body 0x10 4 } }
    ringSend 1 b (when mine (inc F.SLP_ROUND_CNT_VETOES) s)
  | _ =>
    let s := if s.slp.cancelled then s else commitSet (leAt body 0x10 4) s
    ringSend 1 body s

/-- TOKEN (R428–R432, R438). -/
def execToken (port : Fin 32) (msg : List Byte) (s : State) : Res :=
  .next (match almAccept 0 msg s with
    | (none, s) => s
    | (some body, s) =>
      if !cfgHas C.slpHdr 0 s then s
      else if !tokOk body s || !tokAccepted body s then inc F.SLP_RING_CNT_DISCARD s
      else
        let s := wr F.SLP_STAT_RING 1 { s with slp := { s.slp with ringAt := s.time.loc } }
        if isVetoToken body s then slpShow (vetoTaken port body s)
        else if !ringOn s then s
        else slpShow (let s := tokShow body s
          if leAt body 8 2 = ownNode s then originReturn (ringSend 4) body s else memberToken body s))

/-- COMMIT_POINT (R430). -/
def execCommitPoint (s : State) : Res := .next (when (commitDue s) (sleepEntry s.slp.cand) s)

/-- T_RING has expired (R438): no token in it, and none in this tick; while the loss stands it does not run again. -/
def ringDue (s : State) : Bool :=
  ringOn s && rd F.SLP_STAT_RING s != 2 && decide (s.slp.ringAt + slpN 0x10 2 s * 1000000 ≤ s.time.loc)

/-- RING_LOSS (R439): a round in progress is treated as vetoed, and the wait for regeneration starts. -/
def execRingLoss (s : State) : Res :=
  .next (if !ringDue s then s
  else
    let s := { s with slp := { s.slp with ringAt := s.time.loc } } |> wr F.SLP_STAT_RING 2 |> inc F.SLP_RING_CNT_LOSS
    slpShow (if s.slp.cand ≠ 0 ∨ s.slp.running ∨ s.slp.commit then roundCancel s else s))

/-- REGENERATION (R439): after member index × 1 ms without an acceptable token. DESIGN CHOICE: T_RING starts anew with the
regeneration, which the manual does not say (log entry 79). -/
def execRegeneration (s : State) : Res :=
  .next (if ringOn s && rd F.SLP_STAT_RING s == 2 && bit (slpN 3 1 s) 0
      && decide (s.slp.ringAt + slpIndex s * 1000000 ≤ s.time.loc) then
    { s with slp := { s.slp with ringAt := s.time.loc } } |> wr F.SLP_STAT_RING 3 |> wrB F.SLP_STAT_ORIGINATOR true |> inc F.SLP_RING_CNT_REGEN
      |> roundBegin ((rd F.SLP_RING_EPOCH_EPOCH s + 1) % 2 ^ 32) 0
  else s)

/-! ### Wake sources and outputs (R431, R434, R437, R440) -/

/-- WAKE_IN (R440): an enabled input becomes active. -/
def execWakeIn (i : Fin 8) (s : State) : Res :=
  .next (if bit (cfgN C.slpWakeIn i 0 1 s) 0 && !bit s.slp.active i && s.pwr.mode != 4 then
    slpEval (wakeReason i (cfgN C.slpWakeIn i 4 4 s) false { s with slp := { s.slp with active := putBit s.slp.active i true } })
  else s)

/-- WAKE_INPUT_INACTIVE (R423, R440): the input loses its level. -/
def execWakeInputInactive (i : Fin 8) (s : State) : Res :=
  .next (if bit s.slp.active i then slpEval { s with slp := { s.slp with active := putBit s.slp.active i false } } else s)

/-- AON_TIMER (R431). -/
def execAonTimer (s : State) : Res := .next (if slpN 0x18 4 s = 0 then s else wakeReason 24 (slpN 0x1C 4 s) false s)

/-- WAKE (R434). -/
def execWake (_port : Fin 32) (msg : List Byte) (s : State) : Res :=
  .next (match almAccept 8 msg s with
    | (none, s) => s
    | (some body, s) => if body.length = 8 ∧ leAt body 0 4 ≠ 0 then wakeReason 27 (leAt body 0 4) false s else s)

/-- WAKE_REPEAT (R434): the oldest broadcast is sent again, twice in all. -/
def execWakeRepeat (s : State) : Res :=
  .next (match s.slp.repeats with
    | [] => s
    | (w, r, f, n) :: rest =>
      if 1 < s.pwr.mode then s
      else almRing [] 8 0 (wakeBody w r f) { s with slp := { s.slp with repeats := if n ≤ 1 then rest else rest ++ [(w, r, f, n - 1)] } })

/-- WAKE_OUT_PULSE_END (R440). -/
def execWakeOutPulseEnd (o : Fin 4) (s : State) : Res := .next { s with slp := { s.slp with outs := putBit s.slp.outs o false } }

/-- FALSE_WAKE (R437): T_FALSE of a group that nothing has confirmed has passed. -/
def execFalseWake (g : Fin 32) (s : State) : Res :=
  .next (let s := slpConfirm s
    if bit (slpConfirming s) g && decide (s.pwr.mode ≤ 1)
        && decide (tget 0 s.slp.confAt g + slpN 0x12 2 s * 1000000 ≤ s.time.loc) then
      slpShow (s |> wr F.SLP_CONFIRMING_GROUPS (putBit (slpConfirming s) g false) |> inc F.SLP_FALSE_CNT_FALSE
        |> record 0x0901 (tget 0 s.slp.why g) (2 ^ g.val))
    else s)

/-- A write of SLP_HOST_DEMAND (R423): a host needs the sleep permission, and meets BUSY in the tick of a core's write
(R476). -/
def hostDemandWrite (who : Initiator) (v : Nat) (s : State) : Status × State :=
  match hostOf who with
  | some i =>
    if !(bit (hostPerm i s) 4 || stage s == 9) then (.denied, s)
    else if s.slp.demandAt = some s.time.loc then (.busy, s)
    else (.ok, slpEval (wr F.SLP_HOST_DEMAND_DEMAND v s))
  | none => match who with
    | .core _ => (.ok, slpEval (wr F.SLP_HOST_DEMAND_DEMAND v { s with slp := { s.slp with demandAt := some s.time.loc } }))
    | _ => (.denied, s)

/-- SLP_HOST_DEMAND (R423). -/
def execSlpHostDemand (who : Initiator) (v : Word) (s : State) : Res :=
  .next (hostWrite who F.SLP_HOST_DEMAND_DEMAND.addr (hostDemandWrite who v.toNat) s)

/-! ### IDLE and STANDBY (R420, R421) -/

/-- The conditions of IDLE (R421): no core is in a window with a ready slot, no engine has an event pending or in a context,
and the cipher request queue is empty. -/
def mayIdle (s : State) : Bool :=
  ((List.range 4).all fun n => match winNow n s with | some i => (task n (winN i 7 1 s) s).st != 1 | none => true)
    && ((List.range 16).all fun e => pendCount e s == 0 && (List.range 8).all fun c => (ctx e c s).st == 0)
    && s.cip.rsvQ.isEmpty && s.cip.bulkQ.isEmpty

/-- IDLE (R421). -/
def execIdle (s : State) : Res :=
  .next (if s.pwr.mode = 0 && mayIdle s then { s with pwr := { s.pwr with mode := 1 } } else s)

/-- IDLE_RESUME (R420). -/
def execIdleResume (s : State) : Res := .next (if s.pwr.mode = 1 then { s with pwr := { s.pwr with mode := 0 } } else s)

/-- STANDBY_RESUME (R420, R433–R435; R111, R391): a wake latched in STANDBY brings the device back, and is broadcast. -/
def execStandbyResume (s : State) : Res :=
  .next (if s.pwr.mode = 2 && s.slp.toWake != 0 then
    let w := s.slp.toWake
    { s with pwr := { s.pwr with mode := 0 }, stp := { s.stp with from_ := shortNs s + 1000000 },
             slp := { s.slp with ringAt := s.time.loc } }
      |> pairsPower true |> tamperTransfer |> wakeGroupsFor w s.slp.lastWhy s.slp.late
      |> fun s => slpShow { s with slp := { s.slp with toWake := clearBits s.slp.toWake w, late := false } }
  else s)

end Sys2Proof.Machine
end

