-- ==== Sys2Proof/Machine/Almoith.lean ====
section
/-! DEFINITION. The Almoith services on received messages: remote objects, snapshot parts, tunnels, time health
(14_almoith_link_and_proof_rounds.md, R449–R460, R462). -/

namespace Sys2Proof.Machine

/-! ### Remote objects (R451–R457) -/

/-- The status of a request for signal i (R451, R455): only the owner answers OK; a signal of its own writers alone is not
writable. -/
def remoteStatus (i : Nat) (write : Bool) (s : State) : Status :=
  if sigCount s ≤ i ∨ (sigOwner i s).isSome then .absent
  else if write && sigN i 6 2 s == 0xFFFF then .denied else .ok

/-- Answer a request (R452). -/
def remoteAnswer (node id i : Nat) (st : Status) (write : Bool) (s : State) : State :=
  let ok := st == .ok
  let body := leBytes 4 id ++ leBytes 2 i ++ leBytes 1 st.code ++ leBytes 1 (b2n write)
    ++ leBytes 8 (if ok then sigShown i s else 0) ++ leBytes 8 (if ok then (sigEnt i s).time else 0)
    ++ leBytes 2 (if ok then sigStatus i s else 0) ++ zeros 2
  match peerOf node s with
  | some k => (almTo k 5 1 body s).2
  | none => s

/-- REMOTE_READ (R451, R454). -/
def execRemoteRead (_port : Fin 32) (msg : List Byte) (s : State) : Res :=
  .next (match almAccept 4 msg s with
    | (none, s) => s
    | (some b, s) =>
      if b.length ≠ 8 then inc F.PRF_LINK_DROP_FORMAT s
      else remoteAnswer (msgNode msg) (leAt b 0 4) (leAt b 4 2) (remoteStatus (leAt b 4 2) false s) false s)

/-- The bytes of an array signal with its first eight replaced (R452). -/
def arrayHead (i v : Nat) (s : State) : List Byte := slice (leBytes 8 v ++ (sigArr i s).drop 8) 0 (sigWidth i s)

/-- A REMOTE_WRITE is applied as a device-initiated commit; a retransmission whose ID is held is not applied again (R454,
R455). -/
def remoteApply (retry : Bool) (node id i v : Nat) (s : State) : Status × State :=
  let ids := tget [] s.alm.writes node
  if nodeRefused node s then (.denied, s)
  else match remoteStatus i true s with
    | .ok =>
      if retry && ids.contains id then (.ok, s)
      else
        let s := { s with alm := { s.alm with writes := tput s.alm.writes node ((id :: ids).take 64) } }
        (.ok, sigCommit [⟨i, v, arrayHead i v s, 0xA000⟩] s)
    | st => (st, s)

/-- REMOTE_WRITE (R452, R454, R455). -/
def execRemoteWrite (_port : Fin 32) (msg : List Byte) (s : State) : Res :=
  .next (match almAccept 6 msg s with
    | (none, s) => s
    | (some b, s) =>
      if b.length ≠ 16 then inc F.PRF_LINK_DROP_FORMAT s
      else
        let (st, s) := remoteApply (bit (msgFlags msg) 1) (msgNode msg) (leAt b 0 4) (leAt b 4 2) (leAt b 8 8) s
        remoteAnswer (msgNode msg) (leAt b 0 4) (leAt b 4 2) st true s)

/-- The owner's value enters the local copy, with the owner's commit time (R453). -/
def copyCommit (i v time : Nat) (s : State) : State :=
  let s := sigPut i v (arrayHead i v s) 0xA000 time s
  let old := if s.sig.devNow.1 = s.time.loc then s.sig.devNow.2 else []
  slpEval (afterCommit [i] 0xA000 { s with sig := { s.sig with devNow := (s.time.loc, sins old i) } })

/-- An open request answered by a message. -/
def openFor (kind node id i : Nat) (s : State) : Option OpenReq :=
  s.alm.opens.find? fun r => r.kind == kind && r.node == node && r.id == id && r.sig == i
/-- A request is no longer open. -/
def openDone (r : OpenReq) (s : State) : State := { s with alm := { s.alm with opens := s.alm.opens.erase r } }

/-- REMOTE_READ_RSP (R453, R455, R456): the answer to an open request, or discarded; a write answered DENIED has failed. -/
def execRemoteReadRsp (_port : Fin 32) (msg : List Byte) (s : State) : Res :=
  .next (match almAccept 5 msg s with
    | (none, s) => s
    | (some b, s) =>
      if b.length ≠ 28 then inc F.PRF_LINK_DROP_FORMAT s
      else match openFor (b2n (bit (byteAt b 7) 0)) (msgNode msg) (leAt b 0 4) (leAt b 4 2) s with
        | none => s
        | some r =>
          let s := openDone r s
          if byteAt b 6 = 0 ∧ (sigOwner r.sig s).isSome then
            when (r.kind == 0) (irqCause F.HST_IRQ_REMOTE) (copyCommit r.sig (leAt b 8 8) (leAt b 16 8) s)
          else when (r.kind == 1 && byteAt b 6 == 2) (inc F.PRF_RW_FAILS) s)

/-- The body of an open request (R452, R465). -/
def openBody (r : OpenReq) : List Byte :=
  if r.kind = 2 then leBytes 1 (r.sig / 256) ++ zeros 1 ++ leBytes 2 (r.sig % 256)
  else leBytes 4 r.id ++ leBytes 2 r.sig ++ zeros 2 ++ (if r.kind = 1 then leBytes 8 r.val else [])
/-- The type of an open request's message. -/
def openType (r : OpenReq) : Nat := match r.kind with | 0 => 4 | 1 => 6 | _ => 3

/-- A request has failed (R456). -/
def openFail (r : OpenReq) (s : State) : State := match r.kind with
  | 0 => inc F.PRF_RR_FAILS s
  | 1 => s |> inc F.PRF_RW_FAILS |> record 0x0A01 r.sig r.node
  | _ => s

/-- The retry time T_RR of an open request has passed since it was sent last (R456, R468). -/
def retryDue (r : OpenReq) (s : State) : Bool :=
  let t := cfgN C.almHdr 0 0xE 2 s
  decide (r.at_ + (if t = 0 then 20 else t) * 100000 ≤ s.time.loc)

/-- REMOTE_RETRY (R456): T_RR of an open request. -/
def execRemoteRetry (id : Nat) (s : State) : Res :=
  .next (match s.alm.opens.find? (·.id == id) with
    | none => s
    | some r =>
      if !svcUp (msgSvc (openType r)) s || !retryDue r s then s
      else if r.tries < cfgN C.almHdr 0 0x10 1 s then
        let again (x : OpenReq) : OpenReq := if x.id = id then { x with tries := x.tries + 1, at_ := s.time.loc } else x
        let s := { s with alm := { s.alm with opens := s.alm.opens.map again } }
        let s := match r.kind with | 0 => inc F.PRF_RR_RETRIES s | 1 => inc F.PRF_RW_RETRIES s | _ => s
        match peerOf r.node s with
        | some i => (almTo i (openType r) 2 (openBody r) s).2
        | none => s
      else openFail r (openDone r s))

/-! ### Snapshots and tunnels (R458–R460) -/

/-- A complete part goes into the snapshot host queue; without one it is discarded (R458, R468). -/
def partPlace (p : SnapPart) (s : State) : State :=
  if cfgN C.almHdr 0 0x30 2 s = 0xFFFF then inc F.PRF_SNAP_INCOMPLETE s
  else (submit 9 { data := p.frags.flatMap (fun e => e.2.2), src := 9 * 4096, lookup := directedKind, untag := true,
                   dests := [(cfgN C.almHdr 0 0x30 2 s, false, 0)] } s).2

/-- One fragment joins its part (R458). -/
def partAdd (node : Nat) (b : List Byte) (s : State) : State :=
  let (set, i, n, seq) := (byteAt b 0, byteAt b 1, byteAt b 2, leAt b 4 4)
  if b.length < 12 ∨ n ≤ i then inc F.PRF_LINK_DROP_FORMAT s
  else
    let same (p : SnapPart) : Bool := p.sender == node && p.set_ == set && p.seq == seq
    let p := (s.alm.parts.find? same).getD ⟨node, set, seq, n, [], s.time.loc⟩
    let p := { p with frags := tput p.frags i (leAt b 8 4, b.drop 12) }
    let rest := s.alm.parts.filter fun x => !same x
    if p.frags.length = p.count then partPlace p { s with alm := { s.alm with parts := rest } }
    else { s with alm := { s.alm with parts := if s.alm.parts.any same then s.alm.parts.map (fun x => if same x then p else x) else rest ++ [p] } }

/-- SNAPSHOT_MESSAGE (R458): at the collector. -/
def execSnapshotMessage (_port : Fin 32) (msg : List Byte) (s : State) : Res :=
  .next (match almAccept 7 msg s with
    | (none, s) => s
    | (some b, s) => if cfgN C.almHdr 0 0x12 2 s = ownNode s then partAdd (msgNode msg) b s else s)

/-- SNAPSHOT_REASSEMBLY (R458): 10 ms after the first fragment the part is still incomplete. -/
def execSnapshotReassembly (sender : Fin 4096) (set : Fin 64) (seq : Nat) (s : State) : Res :=
  let same (p : SnapPart) : Bool := p.sender == sender.val && p.set_ == set.val && p.seq == seq
  .next (if svcUp 5 s && s.alm.parts.any (fun p => same p && decide (p.at_ + 10000000 ≤ s.time.loc)) then
    inc F.PRF_SNAP_INCOMPLETE { s with alm := { s.alm with parts := s.alm.parts.filter fun p => !same p } } else s)

/-- A route of source kind 3 on a tunnelled frame (R302, R303, R306). -/
def tunnelRoute (ch : Nat) (data : List Byte) (r : Nat) (s : State) : State :=
  let f := canOfBytes data
  match routeN r 3 1 s with
  | 0 => match routeConvert r f s with
    | none => inc F.SIG_ROUTE_DROP_FORMAT s
    | some g =>
      (submit 9 { data := canBytes g, src := 9 * 4096, cls := 0, lookup := directedKind, untag := true,
                  dests := [(256 + 4 * routeN r 0x0C 1 s + routeN r 0x0E 1 s, false, 0)] } s).2
  | 1 => (carAdd (routeN r 0x0C 1 s) (routeN r 0x0F 1 s) s.time.loc (bit (routeN r 2 1 s) 0) f s).2
  | _ => tunnelSend (routeN r 0x14 2 s) (routeN r 0x16 1 s) ch data s

/-- A request inside a tunnel goes to the DIAG queue (R509, R511). -/
def tunnelDiag (data : List Byte) (s : State) : State :=
  (submit 9 { data := data, src := 9 * 4096, lookup := directedKind, untag := true,
              dests := [(cfgN C.recorder 0 0 2 s, false, 0)] } s).2

/-- TUNNEL (R460, R467, R509): to DIAG, or through the routes of source kind 3. -/
def execTunnel (_port : Fin 32) (msg : List Byte) (s : State) : Res :=
  .next (match almAccept 9 msg s with
    | (none, s) => s
    | (some b, s) =>
      let d := b.drop 4
      if b.length < 20 then inc F.PRF_LINK_DROP_FORMAT s
      else if nodeRefused (msgNode msg) s then inc F.PRF_TUNNEL_REFUSED s
      else if byteAt b 0 = 0xFF then tunnelDiag d s
      else
        let (l, s) := routesFor 3 0 0 (leAt d 0 4 % 2 ^ 30) s
        each l (tunnelRoute (byteAt b 1) d) s)

/-! ### Time health and the end of RESYNC (R449, R462) -/

/-- TIME_HEALTH (R462): the latest body of each peer is kept. -/
def execTimeHealth (_port : Fin 32) (msg : List Byte) (s : State) : Res :=
  .next (match almAccept 10 msg s with
    | (none, s) => s
    | (some b, s) => match peerOf (msgNode msg) s with
      | some i => if b.length = 64 then { s with alm := { s.alm with health := tput s.alm.health i b } } else inc F.PRF_LINK_DROP_FORMAT s
      | none => s)

/-- The identity of domain d's grandmaster: this device's, or the one that BMCA selected; with static port roles no message
names it, and it is a free value (R462, log entry 77). -/
def healthGm (d : Nat) (s : State) : Nat × State :=
  if domState d s = 4 then (Config.clockIdentity.toNat, s)
  else match (dom d s).gm with
    | some v => (v.toNat, s)
    | none => fresh s

/-- The TIME_HEALTH record of domain d (R462). -/
def healthRec (d : Nat) (s : State) : List Byte × State :=
  let (v, s) := healthGm d s
  (leBytes 1 d ++ leBytes 1 (domState d s) ++ leBytes 1 (rd (F.TIME_Dn_STAT_SOURCE.u d) s) ++ zeros 1 ++ leBytes 4 (errNow d s)
    ++ beBytes 8 v, s)

/-- TIME_HEALTH_INTERVAL (R462). -/
def execTimeHealthInterval (s : State) : Res :=
  .next (if !svcUp 1 s ∨ !cfgHas C.almHdr 0 s then s
  else
    let (b, s) := [0, 1, 2, 3].foldl (fun (a : List Byte × State) d => let r := healthRec d a.2; (a.1 ++ r.1, r.2)) ([], s)
    almRing [] 10 0 b s)

/-- RESYNC_END (R449): 10 s after the replay state was lost. -/
def execResyncEnd (s : State) : Res := .next (when (awake s && decide (s.alm.lostAt + 10000000000 ≤ s.time.loc)) (fun s => { s with alm := { s.alm with resync := false } }) s)

end Sys2Proof.Machine
end

