-- ==== Sys2Proof/Machine/Proof.lean ====
section
/-! DEFINITION. Proof rounds: beacons, node states, the digest tree and its exchange
(14_almoith_link_and_proof_rounds.md, R461–R467). -/

namespace Sys2Proof.Machine

/-- Field o of width w of the roster record of node n (R469). -/
def rosN (n o w : Nat) (s : State) : Nat := cfgN C.roster n o w s
/-- The roster epoch (R58). -/
def rosterEpoch (s : State) : Nat := cfgN C.system 0 4 4 s
/-- This device observes node n (R461). -/
def observes (n : Nat) (s : State) : Bool := cfgHas C.roster n s && rosN n 0x20 2 s == ownNode s

/-! ### The digest tree (R463, R464) -/

/-- The 32 bytes of the leaf record of node n (R463). -/
def leafBytes (n : Nat) (s : State) : List Byte :=
  let l := leaf n s
  leBytes 2 n ++ leBytes 1 l.st ++ leBytes 1 l.form ++ leBytes 4 l.plate ++ slice l.digest 0 16
    ++ leBytes 2 (rosN n 0x20 2 s) ++ zeros 2 ++ leBytes 4 l.seq
/-- The digest of a leaf. -/
def leafDigest (n : Nat) (s : State) : List Byte := if cfgHas C.roster n s then (sha256 (leafBytes n s)).take 16 else zeros 16
/-- The digest of node (2, j). -/
def digest2 (j : Nat) (s : State) : List Byte :=
  (sha256 ((List.range 16).flatMap fun k => leafDigest (16 * j + k) s)).take 16
/-- The digest of node (1, i). -/
def digest1 (i : Nat) (s : State) : List Byte := (sha256 ((List.range 16).flatMap fun k => digest2 (16 * i + k) s)).take 16
/-- The 16 level-1 digests. -/
def digests1 (s : State) : List Byte := (List.range 16).flatMap (digest1 · s)
/-- The root digest. -/
def rootDigest (s : State) : List Byte := (sha256 (digests1 s)).take 16

/-- The counts of node states and ROOT_EQUAL. -/
def prfShow (s : State) : State :=
  let ns := cfgIdx C.roster s
  let n (k : Nat) : Nat := (ns.filter fun i => (leaf i s).st == k).length
  s |> wr F.PRF_STAT_NODES ns.length |> wr F.PRF_CNT_A_MATCH (n 0) |> wr F.PRF_CNT_A_COMPATIBLE (n 1)
    |> wr F.PRF_CNT_B_MISMATCH (n 2) |> wr F.PRF_CNT_B_SILENT (n 3) |> wr F.PRF_EPOCH_EPOCH (rosterEpoch s)
    |> wrB F.PRF_STAT_ROOT_EQUAL ((ringLinks s).all fun i => tfind s.alm.roots i == some (rootDigest s))

/-- A leaf record changes: a change of the node's state is counted and recorded (R467). -/
def leafSet (n : Nat) (l : Leaf) (s : State) : State :=
  let old := (leaf n s).st
  prfShow (when (old != l.st) (fun s => s |> inc F.PRF_CHANGES_COUNT |> record 0x0A02 n (old * 256 + l.st))
    { s with alm := { s.alm with leaves := tput s.alm.leaves n l } })

/-! ### Beacons and silence (R461, R462) -/

/-- The state of a node from a beacon (R462). -/
def classify (n plate : Nat) (pre : List Byte) (early : Bool) (s : State) : Nat :=
  let same := plate == rosN n 4 4 s
  if early then 2
  else if same && slice (cfgRec C.roster n s) 0x10 pre.length == pre then 0
  else if same then 2
  else if rosN n 8 4 s ≤ plate ∧ plate ≤ rosN n 0xC 4 s then 1 else 2

/-- The observer classifies a node: the observation sequence counts every change of the record (R463). -/
def observe (n form plate : Nat) (pre : List Byte) (early : Bool) (s : State) : State :=
  let l := leaf n s
  let x : Leaf := { l with st := classify n plate pre early s, form := form, plate := plate, digest := slice pre 0 16 }
  let s := { s with alm := { s.alm with spoken := sins s.alm.spoken n, beacons := tput s.alm.beacons n s.time.loc } }
  if x = l then prfShow s else leafSet n { x with seq := (l.seq + 1) % 2 ^ 32 } s

/-- A beacon is used by the node's observer only (R461). -/
def beaconUse (n form plate : Nat) (pre : List Byte) (early : Bool) (s : State) : State :=
  if observes n s then observe n form plate pre early s else inc F.PRF_MERGE_IGNORED s

/-- The plate state that the 20 bits r of a CAN beacon stand for: the 32-bit value nearest the expected state, the lower of
two (R462). -/
def beaconPlate (n r : Nat) (s : State) : Nat :=
  let v := nearest (rosN n 4 4 s) (2 ^ 20) r
  if v < 2 ^ 32 then v else v - 2 ^ 20

/-- A BEACON of a sender outside the peer table is checked under the beacon key slot (R447, R448). -/
def beaconAccept (m : List Byte) (s : State) : Option (List Byte) × State :=
  if (peerOf (msgNode m) s).isSome then almAccept 1 m s
  else if !almListens 1 s ∨ !cfgHas C.almHdr 0 s then (none, s)
  else if !msgFormatOk m then (none, inc F.PRF_LINK_DROP_FORMAT s)
  else if msgType m ≠ 1 then (none, s)
  else
    let (k, s) := if bit (msgFlags m) 2 then (none, s) else tagUse (cfgN C.almHdr 0 0x28 2 s) s
    if !msgTagOk k m then (none, inc F.PRF_LINK_AUTH_TAG s) else
    let n := msgNode m
    let r := replay n s
    if match r.high with | some h => !serialAbove 32 (msgSeq m) h | none => false then (none, inc F.PRF_LINK_AUTH_REPLAY s)
    else (some (msgBody m), replaySet n { r with high := some (msgSeq m), seen := (msgSeq m :: r.seen).take 64 } s)

/-- BEACON (R461, R462): the Ethernet form, or the CAN form on a beacon channel. -/
def execBeacon (src : BeaconSrc) (s : State) : Res :=
  .next (match src with
    | .eth _ m => match beaconAccept m s with
      | (none, s) => s
      | (some b, s) =>
        if b.length ≠ 28 then inc F.PRF_LINK_DROP_FORMAT s
        else beaconUse (leAt b 0 2) 0 (leAt b 2 4) (slice b 6 16) (bit (leAt b 0x1A 2) 2) s
    | .can ch id b =>
      if !svcUp 4 s ∨ !cfgHas C.almHdr 0 s ∨ b.length ≠ 8 ∨ id ≠ cfgN C.almHdr 0 0x14 4 s
          ∨ !bit (cfgN C.almHdr 0 0x18 12 s) ch then s
      else
        let v := leAt b 0 4
        let n := v % 4096
        beaconUse n 1 (beaconPlate n (v / 4096) s) (slice b 4 4) false s)

/-- Node n has sent no beacon within its silence time, beacon interval × miss count; without any beacon the time counts from
the full stage (R462, R469). -/
def silenceDue (n : Nat) (s : State) : Bool :=
  decide ((tfind s.alm.beacons n).getD s.alm.fullAt + rosN n 0x22 2 s * rosN n 0x24 1 s * 10000000 ≤ s.time.loc)

/-- NODE_SILENCE (R462, R467): one silence time of a node without a beacon. -/
def execNodeSilence (n : Fin 4096) (s : State) : Res :=
  .next (if !cfgHas C.roster n s ∨ !svcUp 4 s ∨ !silenceDue n s then s
  else
    let s := { s with alm := { s.alm with spoken := sins s.alm.spoken n } }
    let l := leaf n s
    if observes n s && l.st != 3 then leafSet n { l with st := 3, seq := (l.seq + 1) % 2 ^ 32 } s else prfShow s)

/-- The digest prefix and the plate state that this device reports (R461). -/
def ownPlate (s : State) : Nat × List Byte := (leAt s.sys.header 0xC 4, slice s.sys.header 0x1C 16)
/-- The role flags that this device reports (R461). -/
def ownRole (s : State) : Nat := 1 + 2 * b2n (bit (leAt s.sys.header 6 2) 0) + 4 * b2n (stage s == 6)

/-- The Ethernet form of the own beacon out of port p (R461): to a peer under its record, else under the beacon key. -/
def beaconPort (p : Nat) (body : List Byte) (s : State) : State := match (peers s).find? fun i => peerPort i s == p with
  | some i => (almTo i 1 0 body s).2
  | none => match tagUse (cfgN C.almHdr 0 0x28 2 s) s with
    | (some k, s) => (almOut p 0 (groupMac s) 1 0 body (some k) s).2
    | (none, s) => s

/-- BEACON_INTERVAL (R461): both forms; the device observes itself where the roster says so. -/
def execBeaconInterval (s : State) : Res :=
  .next (if !svcUp 4 s ∨ !cfgHas C.almHdr 0 s then s
  else
    let (plate, pre) := ownPlate s
    let body := leBytes 2 (ownNode s) ++ leBytes 4 plate ++ pre ++ leBytes 4 (rosterEpoch s) ++ leBytes 2 (ownRole s)
    let can := canBytes { fmt := .cc, id := cfgN C.almHdr 0 0x14 4 s % 2 ^ 29, ide := bit (cfgN C.almHdr 0 0x14 4 s) 29, rtr := false,
                          brs := false, esi := false, sec := false, sdt := 0, vcid := 0, af := 0,
                          data := leBytes 4 (ownNode s + plate % 2 ^ 20 * 4096) ++ pre.take 4 }
    let ports := (bitList (cfgN C.almHdr 0 0x24 4 s) 32).filter fun p => (peerAt p s).isNone
    almRing [] 1 0 body s |> each ports (fun p => beaconPort p body)
      |> each (bitList (cfgN C.almHdr 0 0x18 12 s) 96) (fun c s =>
          (submit 9 { data := can, src := 9 * 4096, lookup := directedKind, untag := true, exempt := true,
                      dests := [(256 + 4 * c, false, 0)] } s).2)
      |> fun s => if observes (ownNode s) s then observe (ownNode s) 0 plate pre (stage s == 6) s else s)

/-! ### Exchange of digests (R465, R466) -/

/-- PROOF_PERIOD (R465). -/
def execProofPeriod (s : State) : Res :=
  .next (if !svcUp 4 s ∨ !cfgHas C.almHdr 0 s then s
  else almRing [] 2 0 (leBytes 4 (rosterEpoch s) ++ zeros 4 ++ rootDigest s ++ digests1 s) s)

/-- Ask a peer for a range (R465). -/
def rangeAsk (i level idx : Nat) (s : State) : State :=
  let id := s.alm.nextId
  let r : OpenReq := { id := id, kind := 2, node := peerNode i s, sig := level * 256 + idx, at_ := s.time.loc }
  let s := { s with alm := { s.alm with nextId := (id + 1) % 2 ^ 32, opens := s.alm.opens ++ [r] } }
  inc F.PRF_DESCENT_RANGES (almTo i 3 0 (openBody r) s).2

/-- A peer's root and first-level digests are compared, and the ranges that differ are asked for (R465). -/
def digestTaken (i : Nat) (b : List Byte) (s : State) : State :=
  let s := prfShow { s with alm := { s.alm with roots := tput s.alm.roots i (slice b 8 16) } }
  if slice b 8 16 = rootDigest s then s
  else each ((List.range 16).filter fun k => slice b (24 + 16 * k) 16 != digest1 k s) (rangeAsk i 1) (inc F.PRF_DESCENT_DIFFER s)

/-- ROSTER_DIGEST (R465). -/
def execRosterDigest (_port : Fin 32) (msg : List Byte) (s : State) : Res :=
  .next (match almAccept 2 msg s with
    | (none, s) => s
    | (some b, s) =>
      if b.length ≠ 280 then inc F.PRF_LINK_DROP_FORMAT s
      else if leAt b 0 4 ≠ rosterEpoch s then inc F.PRF_LINK_DROP_EPOCH s
      else match peerOf (msgNode msg) s with
        | none => s
        | some i => digestTaken i b s)

/-- Merge one leaf record of a range (R466). -/
def leafMerge (b : List Byte) (s : State) : State :=
  let n := leAt b 0 2
  let seq := leAt b 28 4
  if cfgHas C.roster n s && !observes n s && decide (byteAt b 2 ≤ 3) && leAt b 24 2 == rosN n 0x20 2 s && serialAbove 32 seq (leaf n s).seq then
    inc F.PRF_MERGE_ACCEPTED
      (leafSet n { st := byteAt b 2, form := byteAt b 3, plate := leAt b 4 4, digest := slice b 8 16, seq := seq } s)
  else inc F.PRF_MERGE_IGNORED s

/-- The answer to a range request. -/
def rangeBody (level idx : Nat) (s : State) : List Byte :=
  leBytes 1 level ++ zeros 1 ++ leBytes 2 idx
    ++ (List.range 16).flatMap fun k => if level = 1 then digest2 (16 * idx + k) s else leafBytes (16 * idx + k) s

/-- An answered range: further requests, or a merge (R465, R466). -/
def rangeTaken (i level idx : Nat) (b : List Byte) (s : State) : State :=
  if level = 1 then
    each ((List.range 16).filter fun k => slice b (4 + 16 * k) 16 != digest2 (16 * idx + k) s) (fun k => rangeAsk i 2 (16 * idx + k)) s
  else each (List.range 16) (fun k => leafMerge (slice b (4 + 32 * k) 32)) s

/-- ROSTER_RANGE (R465, R466). -/
def execRosterRange (_port : Fin 32) (msg : List Byte) (s : State) : Res :=
  .next (match almAccept 3 msg s with
    | (none, s) => s
    | (some b, s) => match peerOf (msgNode msg) s with
      | none => s
      | some i =>
        let level := byteAt b 0
        let idx := leAt b 2 2
        let rsp := bit (msgFlags msg) 0
        let len := if rsp then 4 + (if level = 1 then 256 else 512) else 4
        if b.length ≠ len ∨ level = 0 ∨ 2 < level ∨ (if level = 1 then 16 else 256) ≤ idx then inc F.PRF_LINK_DROP_FORMAT s
        else if rsp then
          match s.alm.opens.find? fun r => r.kind == 2 && r.node == msgNode msg && r.sig == level * 256 + idx with
          | none => s
          | some r => rangeTaken i level idx b (openDone r s)
        else (almTo i 3 1 (rangeBody level idx s) s).2)

end Sys2Proof.Machine
end

