-- ==== Sys2Proof/Machine/Windows.lean ====
section
/-! DEFINITION. The table windows (17_register_map.md, R522–R524): where each lies and the bytes of each record. -/

namespace Sys2Proof.Machine

/-! ### Records of the windows -/

/-- LKP_FDB (R167): entry 4 × bucket + way of a pipeline; PAR_ERR marks one found with bad parity. -/
def wFdb (p i : Nat) (s : State) : List Byte := match tfind s.lkp.fdb (pk p i) with
  | none => zeros 16
  | some e => beBytes 6 e.mac ++ leBytes 2 e.vlan ++ leBytes 2 e.dest
      ++ leBytes 1 (1 + 2 * b2n e.static_ + 4 * b2n e.hit + 8 * b2n e.age + 16 * b2n e.sticky
          + 64 * b2n (s.lkp.bad.contains (1, p, i))) ++ leBytes 1 e.cls ++ zeros 4
/-- LKP_STREAM_STAT (R523). -/
def wStreamStat (p i : Nat) (s : State) : List Byte :=
  let r := streamRun p i s
  leBytes 4 r.passed ++ leBytes 4 r.dropped ++ leBytes 1 (b2n r.contained) ++ leBytes 1 (b2n r.blocked)
    ++ leBytes 2 r.changes ++ zeros 4
/-- LKP_POLICER (R523): the record, the buckets in bytes and the counts. -/
def wPolicer (p i : Nat) (s : State) : List Byte :=
  let b := tget {} s.lkp.pols (pk p i)
  slice (cfgRec (C.spPolicer + p) i s) 0 16 ++ leBytes 4 (b.c / 1024) ++ leBytes 4 (b.e / 1024) ++ leBytes 4 b.red
    ++ leBytes 4 b.yellow
/-- QM_QUEUE (R160). -/
def wQueue (q : Nat) (s : State) : List Byte :=
  let Q := qu q s
  let head := match Q.ents with | [] => false | e :: _ => (fr e.fid s).inProg
  let flushing := s.qm.flushing.contains q
  leBytes 4 Q.cells ++ leBytes 4 (linked q s).length
    ++ leBytes 2 (qFlags q s % 8 + 8 * b2n head + 16 * b2n flushing)
    ++ leBytes 1 Q.waits.length ++ leBytes 1 (qProfile q s) ++ leBytes 4 Q.high
/-- QM_QUEUE_CNT (R160). -/
def wQueueCnt (q : Nat) (s : State) : List Byte :=
  let Q := qu q s
  leBytes 4 Q.enq ++ leBytes 4 Q.refused ++ leBytes 4 Q.evicted ++ leBytes 4 Q.flushed
/-- STP_ENTRY_CNT (R115). -/
def wStpCnt (e : Nat) (s : State) : List Byte :=
  let r := stpRun e s
  leBytes 4 r.launched ++ leBytes 2 r.lateCnt ++ leBytes 2 r.skipCnt
/-- ETH_FRER_CNT (R523). -/
def wFrer (i : Nat) (s : State) : List Byte :=
  let r := frerRun i s
  leBytes 4 r.passed ++ leBytes 4 r.dups ++ leBytes 4 r.rogue ++ leBytes 2 (min r.resets 65535) ++ leBytes 2 (min r.noTag 65535)
/-- CTL_SLOT_STAT (R365): index 16 × core + slot. -/
def wTask (i : Nat) (s : State) : List Byte :=
  let t := task (i / 16) (i % 16) s
  leBytes 4 t.commits ++ leBytes 2 t.reruns ++ leBytes 2 t.skips ++ leBytes 4 t.longest ++ leBytes 1 t.st
    ++ leBytes 1 t.refused ++ zeros 2
/-- CIP_SA (R419, R523): AN, direction, slot, packet number, SSCI and salt of an installed SA. -/
def wSa (p i : Nat) (s : State) : List Byte := match msSa p i s with
  | none => zeros 32
  | some x => leBytes 1 x.an ++ leBytes 1 (if i < 4 then 0 else 1) ++ leBytes 2 x.slot ++ leBytes 8 x.nextPn
      ++ leBytes 4 x.ssci ++ slice x.salt 0 12 ++ zeros 4
/-- HST_STASH (R484): the descriptor, then the frame from 0x20. -/
def wStash (e : Nat) (s : State) : List Byte := match tfind s.hst.stash e with
  | some x => descBytes x.fid s ++ (fr x.fid s).data
  | none => []
/-- CTL_FRAME (R523): the frame in a holder, index 16 × core + holder. -/
def wHolder (i : Nat) (s : State) : List Byte := match tfind (core (i / 16) s).holders (i % 16) with
  | some f => (fr f s).data
  | none => []
/-- The byte at offset o of the array area (R279). -/
def sigAreaByte (o : Nat) (s : State) : Byte :=
  match (cfgIdx C.sigDef s).find? fun j => sigType j s == 4 && decide (sigArrayAt j s ≤ o) && decide (o < sigArrayAt j s + sigWidth j s) with
  | some j => BitVec.ofNat 8 (byteAt (sigArr j s) (o - sigArrayAt j s))
  | none => 0
/-- SIG_PDU_CNT (R312). -/
def wPduCnt (p : Nat) (s : State) : List Byte :=
  let r := pduRun p s
  leBytes 4 r.sent ++ leBytes 4 r.rcvd ++ leBytes 2 r.e2e ++ leBytes 2 r.auth ++ leBytes 2 r.supp ++ leBytes 2 r.gaps
/-- SIG_SNAP (R310): bank b of a set; a bank not yet latched reads as zeros. -/
def wSnap (i : Nat) (s : State) : List Byte := (snap (i / 2) s).bank (i % 2)

/-! ### The windows (R522) -/

/-- A window: base, record size, records of a unit, units and their stride, in R522's order of rows. -/
structure WinD where
  base   : Nat
  size   : Nat
  count  : Nat
  units  : Nat
  stride : Nat
  deriving Repr

/-- R522's table. -/
def windows : List WinD := [
  ⟨0x1000000, 16, 65536, 2, 0x100000⟩, ⟨0x1200000, 64, 8192, 2, 0x80000⟩, ⟨0x1300000, 16, 8192, 2, 0x20000⟩,
  ⟨0x1340000, 32, 4096, 2, 0x20000⟩, ⟨0x1380000, 16, 4096, 1, 0x10000⟩, ⟨0x1390000, 4, 2048, 2, 0x2000⟩,
  ⟨0x13A0000, 16, 1024, 1, 0x4000⟩, ⟨0x13A4000, 16, 1024, 1, 0x4000⟩, ⟨0x13B0000, 16, 16, 1, 0x100⟩,
  ⟨0x13C0000, 16, 4096, 1, 0x10000⟩, ⟨0x13D0000, 8, 4096, 1, 0x8000⟩, ⟨0x13E0000, 16, 512, 1, 0x2000⟩,
  ⟨0x13F0000, 32, 256, 1, 0x2000⟩, ⟨0x1400000, 4, 64, 16, 0x100⟩, ⟨0x1410000, 16, 64, 1, 0x400⟩,
  ⟨0x1420000, 32, 64, 16, 0x800⟩, ⟨0x1430000, 64, 64, 1, 0x1000⟩, ⟨0x1440000, 32, 4096, 1, 0x20000⟩,
  ⟨0x1480000, 73728, 1, 1, 73728⟩, ⟨0x1500000, 32768, 16, 1, 0x80000⟩, ⟨0x1600000, 16384, 64, 1, 0x100000⟩,
  ⟨0x1800000, 32, 65536, 1, 0x200000⟩, ⟨0x1A00000, 1048576, 1, 1, 0x100000⟩, ⟨0x1B00000, 64, 8192, 1, 0x80000⟩,
  ⟨0x1B80000, 16, 8192, 1, 0x20000⟩, ⟨0x1C00000, 32, 65536, 1, 0x200000⟩, ⟨0x2000000, 32768, 128, 1, 0x400000⟩]

/-- n bytes at offset o of record i of unit u of row w of R522's table; what lies beyond a record or a count is zero. -/
def winRecord (w u i o n : Nat) (s : State) : List Byte := match w with
  | 0 => slice (wFdb u i s) o n
  | 1 => slice (cfgRec (C.spStream + u) i s) o n
  | 2 => slice (wStreamStat u i s) o n
  | 3 => slice (wPolicer u i s) o n
  | 4 => slice (cfgRec C.l2Vlan i s) o n
  | 5 => slice (leBytes 4 (tget 0 s.lkp.aclCnt (pk u i))) o n
  | 6 => slice (wQueue i s) o n
  | 7 => slice (wQueueCnt i s) o n
  | 8 => slice (cfgRec C.stpPeriod i s) o n
  | 9 => slice (cfgRec C.stpEntry i s) o n
  | 10 => slice (wStpCnt i s) o n
  | 11 => slice (wFrer i s) o n
  | 12 => slice (cfgRec C.canDec i s) o n
  | 13 => slice (leBytes 4 (tget 0 (eng u s).users i)) o n
  | 14 => slice (wTask i s) o n
  | 15 => slice (wSa u i s) o n
  | 16 => slice (tget [] s.alm.health i) o n
  | 17 => slice (leafBytes i s) o n
  | 18 => recBytes o n s
  | 19 => slice (wStash i s) o n
  | 20 => slice (wHolder i s) o n
  | 21 => slice (if i < sigCount s then sigBytes i s else []) o n
  | 22 => (List.range n).map fun k => sigAreaByte (o + k) s
  | 23 => slice (cfgRec C.sigPdu i s) o n
  | 24 => slice (if cfgHas C.sigPdu i s then wPduCnt i s else []) o n
  | 25 => slice (cfgRec C.sigDef i s) o n
  | _ => slice (wSnap i s) o n

/-- The row of R522's table that holds BAR0 offset a, with its place in the table. -/
def windowOf (a : Nat) : Nat → List WinD → Option (Nat × WinD)
  | _, [] => none
  | k, d :: r => if d.base ≤ a ∧ a < d.base + d.units * d.stride then some (k, d) else windowOf a (k + 1) r

/-- The 32-bit word at BAR0 offset a of a table window, none where no object lies (R515, R522). -/
def windowWord (a : Nat) (s : State) : Option Nat := match windowOf a 0 windows with
  | none => none
  | some (k, d) =>
    let o := a - d.base
    let u := o / d.stride
    let i := o % d.stride / d.size
    some (if i < d.count then leNat (winRecord k u i (o % d.stride % d.size) 4 s) else 0)

end Sys2Proof.Machine
end

