-- ==== Sys2Proof/Machine/HostRegs.lean ====
section
/-! DEFINITION. Reads of the register space, of the table windows and of the signal window, through every view
(17_register_map.md R512–R527; 15_host_interface.md R473–R479; R550). -/

namespace Sys2Proof.Machine

/-! ### Values that the device forms at the read -/

/-- The word in core memory that DBG_CCn_SEL names: the pass-A value of the item (R525); an index outside its region
reads 0. -/
def dbgItem (n : Nat) (s : State) : Nat :=
  let c := core n s
  let slot := match c.cur with | some i => winN i 7 1 s | none => 0
  let x := match c.a with | some p => p.ctx | none => (task n slot s).ctx
  let i := rd (F.DBG_CCn_SEL_INDEX.u n) s
  match rd (F.DBG_CCn_SEL_SPACE.u n) s with
  | 0 => if 1 ≤ i ∧ i ≤ 31 then tget 0 x.regs i else 0
  | 1 => (tget 0 x.csrs i).toNat
  | 2 => if i < 0x60000 then (tget 0 c.itcm (i / 4)).toNat else 0
  | 3 => if i < 0x40000 then (tget 0 c.dtcm (i / 4)).toNat else 0
  | 4 => if i < 0x80000 then (tget 0 s.ctl.shared (i / 4)).toNat else 0
  | _ => 0

/-- The pc shown to the debugger while core n is halted. -/
def dbgPc (n : Nat) (s : State) : Nat :=
  let c := core n s
  let slot := match c.cur with | some i => winN i 7 1 s | none => 0
  match c.a with | some p => p.ctx.pc | none => (task n slot s).ctx.pc

/-- Debug is open on core n and the core is halted (R525). -/
def dbgSeen (n : Nat) (s : State) : Bool := (core n s).halted && bit (rd F.CTL_DEBUG_OPEN s) n

/-- The stipple periods suspended now (R116). -/
def stpSusp (s : State) : Nat :=
  ofBits ((List.range 16).filter fun p => cfgN C.stpPeriod p 0 4 s != 0 && bit (cfgN C.stpPeriod p 12 1 s) 0 && domState 0 s == 0)

/-- The present value of a field whose value the device forms at the read, by the field of unit 0 and the unit. -/
def fieldLive (f : Field) (n : Nat) (s : State) : Option Nat :=
  if f = F.SYS_ID_PART then some 0x9616
  else if f = F.SYS_ID_REV then some 0xA2
  else if f = F.TIME_LOCAL_LO_NS then some s.time.loc
  else if f = F.TIME_SHORT_LO_NS then some (shortNs s)
  else if f = F.TIME_Dn_NS_NS then some (domNs n s % 1000000000)
  else if f = F.TIME_Dn_ERR_ERR then some (errNow n s)
  else if f = F.STP_STAT_SUSP then some (stpSusp s)
  else if f = F.STP_STAT_ENABLED then some ((cfgIdx C.stpEntry s).filter (stpOn · s)).length
  else if f = F.QM_BULK_FREE_FREE then some (bulkFree s)
  else if f = F.QM_RSV_FREE_FREE then some (rsvFree s)
  else if f = F.QM_DESC_FREE_FREE then some (131072 - descUsed s)
  else if f = F.QM_QE_FREE_FREE then some (262144 - entriesUsed s)
  else if f = F.FAB_STAT_CLK_DIV then some (Nat.log2 (clockDiv s))
  else if f = F.FAB_STAT_ROTOR then some s.qm.rotor
  else if f = F.SIG_COUNT_SIGNALS then some (sigCount s)
  else if f = F.SIG_PDU_COUNT_PDUS then some (cfgIdx C.sigPdu s).length
  else if f = F.SIG_PDU_COUNT_FRAME_ROUTES then some (cfgIdx C.sigRoute s).length
  else if f = F.SIG_LOADn_DECLARED then some (cfgN C.sigHdr 0 (0x20 + n) 1 s)
  else if f = F.CTL_CCn_STAT_STATE then some (coreState n s)
  else if f = F.CTL_CCn_STAT_DEBUG then some (b2n (core n s).suspended)
  else if f = F.CTL_CCn_CFG_SLOTS then (if stage s = 9 then none else some (slotsOn n s).length)
  else if f = F.CTL_CCn_CFG_MAJOR_US then (if stage s = 9 then none else some (majorUs n s))
  else if f = F.SLP_STAT_MEMBER then some (if cfgHas C.slpRing 0 s then slpIndex s else 0)
  else if f = F.HST_STAT_XSPI_EN then some (bits (cfgN C.hostHdr 0 7 1 s) 1 1)
  else if f = F.REC_STAT_LOG then some (recSeen s).log.length
  else if f = F.REC_OPHOURS_HOURS then some (s.rcd.secs / 3600)
  else if f = F.REC_CMD_STAT_FREEZE_LEFT then
    some (if s.rcd.shadow.isSome then (s.rcd.frozenAt + 2000000000 - s.time.loc) / 1000000 else 0)
  else if f = F.DBG_CCn_STAT_HALTED then some (b2n (core n s).halted)
  else if f = F.DBG_CCn_STAT_PENDING then some (b2n (core n s).haltReq)
  else if f = F.DBG_CCn_PC_PC then some (if dbgSeen n s then dbgPc n s else 0)
  else if f = F.DBG_CCn_DATA_DATA then some (if dbgSeen n s then dbgItem n s else 0)
  else none

/-- The value that a field shows (R516): write-only fields read 0. -/
def fieldShown (f : Field) (n m : Nat) (s : State) : Nat :=
  if f.acc = .wo then 0 else ((fieldLive f n s).getD (rd (f.uu n m) s)) % 2 ^ f.w

/-- The value of a register (R8, R9): its fields in their places, reserved bits 0. -/
def regShown (d : RegD) (n m : Nat) (s : State) : Nat := (d.fields.map fun f => fieldShown f n m s * 2 ^ f.lo).sum

/-! ### What a read changes -/

/-- The related high registers that a read of a _LO or _NS register latches (TIME registers, R518). -/
def regLatch (d : RegD) (n : Nat) (s : State) : State :=
  if d.addr = F.TIME_LOCAL_LO_NS.addr then wr F.TIME_LOCAL_HI_NS (s.time.loc / 2 ^ 32) s
  else if d.addr = F.TIME_SHORT_LO_NS.addr then wr F.TIME_SHORT_HI_NS (shortNs s / 2 ^ 32) s
  else if d.addr = F.TIME_Dn_NS_NS.addr then
    let t := domNs n s / 1000000000
    wr (F.TIME_Dn_SEC_LO_SEC.u n) t (wr (F.TIME_Dn_SEC_HI_SEC.u n) (t / 2 ^ 32) s)
  else if d.addr = F.TIME_PPS_IN_LO_NS.addr then wr F.TIME_PPS_IN_HI_NS (s.time.ppsIn / 2 ^ 32) s
  else s

/-- What a mark restarts from when a read clears it (R550): its quantity's present value where it always has one, else 0; a
count returns to 0. -/
def rcRestart (f : Field) (n : Nat) (s : State) : Nat :=
  if f = F.QM_BULK_LOW_LOW then bulkFree s
  else if f = F.PWR_VCORE_MIN_MV then s.pwr.vcore
  else if f = F.PWR_TEMPn_MAX then rd (F.PWR_TEMPn_NOW.u n) s
  else if f = F.TIME_TSPOOL_STAT_HIGH then s.time.pool.length
  else if f = F.GRV_GVn_PEND_HIGH then pendCount n s
  else 0

/-- The RC fields of a register cleared (R550). -/
def regClear (d : RegD) (n m : Nat) (s : State) : State :=
  each (d.fields.filter fun f => f.acc == .rc) (fun f s => wr (f.uu n m) (rcRestart f n s) s) s

/-! ### The register space (R512–R519) -/

/-- The mailbox class of an initiator (R393); hosts share class 0. -/
def classOf : View → Nat
  | .core _ => 1
  | _ => 0

/-- A 4-byte read at BAR0 offset a (R514, R515): none where no object lies, else its value. `fx`: side effects happen
(R519). -/
def regRead (via : View) (fx : Bool) (a : Nat) (s : State) : Option Nat × State :=
  if 0x1000000 ≤ a then (windowWord a s, s)
  else if 0x1000 ≤ a ∧ a < 0x2000 then (some 0, s)
  else if 0x101000 ≤ a ∧ a < 0x102000 then
    (some (leNat ((List.range 4).map fun k => tget 0 s.key.mbox (4096 * classOf via + (a - 0x101000) + k))), s)
  else if 0xF2000 ≤ a ∧ a < 0xFC000 then
    (some (leNat ((List.range 4).map fun k => tget 0 s.cip.buf (a - 0xF2000 + k))), s)
  else if (0x138000 ≤ a ∧ a < 0x138400) ∨ (0x138800 ≤ a ∧ a < 0x138808) then (some (msixWord ((a - 0x138000) / 4) s), s)
  else match findReg a regMap with
    | none => (none, s)
    | some (d, n, m) =>
      let v := match via with
        | .core _ =>
          if a = 0x100104 then s.key.coreStat.1 % 65536 * 65536 + s.key.coreStat.2.1 % 256 * 256 + s.key.coreStat.2.2 % 256 else regShown d n m s
        | _ => regShown d n m s
      (some v, if fx then regClear d n m (regLatch d n s) else regLatch d n s)

/-- Whether a view has side effects on a 4-byte read (R519). -/
def viewFx : View → Bool
  | .bar0 => true
  | .xspiPop => true
  | .core _ => true
  | _ => false

/-- The host of a view. -/
def viewWho : View → Initiator
  | .bar0 => .pcie
  | .bar2 => .pcie
  | .xspiPlain => .xspi
  | .xspiPop => .xspi
  | .core n => .core n

/-- The queue whose HST_HQnn_POP lies at offset a. -/
def popAddr (a : Nat) : Option Nat :=
  if 0x131020 ≤ a ∧ a < 0x132000 ∧ (a - 0x131020) % 0x40 = 0 then some ((a - 0x131020) / 0x40) else none

/-- The worse of two statuses in the order of R477's table. -/
def statusWorse (a b : Status) : Status :=
  let rank : Status → Nat := fun x => match x with
    | .fault => 0 | .busy => 1 | .denied => 2 | .absent => 3 | .retry => 4 | .stale => 5 | .ok => 6
  if rank a ≤ rank b then a else b

/-- Read one word at BAR0 offset a (R64, R514, R515, R519): the status, the data and what the read changes. A pop register
pops only where the read has side effects. -/
def wordRead (via : View) (fx : Bool) (a : Nat) (s : State) : (Status × List Byte) × State :=
  match (if (hostOf (viewWho via)).isSome then hostGate false a s else none) with
  | some st => ((st, List.replicate 4 0xFF), s)
  | none => match popAddr a, hostOf (viewWho via) with
    | some q, some i => if fx then let r := popRead i q s; ((r.1.1, leBytes 4 r.1.2), r.2) else ((.ok, zeros 4), s)
    | _, _ => match regRead via fx a s with
      | (some v, s) => ((.ok, leBytes 4 v), s)
      | (none, s) => ((.absent, List.replicate 4 0xFF), s)

/-- Read n bytes at BAR0 offset a, each word as its own access (R514); the answer is the first status that applies (R477). -/
def spaceRead (via : View) (a n : Nat) (s : State) : (Status × List Byte) × State :=
  if a % 4 ≠ 0 ∨ n % 4 ≠ 0 then ((.fault, List.replicate n 0xFF), s)
  else
    (List.range (n / 4)).foldl (fun (x : (Status × List Byte) × State) (k : Nat) =>
      let r := wordRead via (viewFx via && n == 4) (a + 4 * k) x.2
      ((statusWorse x.1.1 r.1.1, x.1.2 ++ r.1.2), r.2)) ((.ok, []), s)

/-! ### The signal window (R474, R475) -/

/-- Whether reading signal i's value starts a fetch: a remote signal whose copy was never filled or is too old (R475). -/
def sigFetches (i : Nat) (s : State) : Bool := (sigOwner i s).isSome && (bit (sigStatus i s) 1)

/-- The answer to a read of signal i's value or status, its fetch started (R475, R477): ABSENT when undefined, RETRY for a
value whose copy is being fetched, STALE when its status says so. -/
def sigReadStatus (value : Bool) (i : Nat) (s : State) : Status :=
  if !cfgHas C.sigDef i s then .absent
  else if value && sigFetches i s && s.alm.opens.any (fun r => r.kind == 0 && r.sig == i) then .retry
  else if bit (sigStatus i s) 1 then .stale else .ok

/-- The byte at offset o of the signal window. -/
def sigWinByte (o : Nat) (s : State) : Nat :=
  if o < 0x80000 then (if cfgHas C.sigDef (o / 8) s then sigVal (o / 8) s / 256 ^ (o % 8) % 256 else 0)
  else if o < 0xA0000 then
    let i := (o - 0x80000) / 2
    (if cfgHas C.sigDef i s then sigStatus i s / 256 ^ (o % 2) % 256 else 0)
  else if 0xC0000 ≤ o ∧ o < 0xE0000 then
    let k := 4 * rd F.HST_SNAP_PAGE_PAGE s + (o - 0xC0000) / 0x8000
    byteAt ((snap k s).bank (snap k s).cur) (o % 0x8000)
  else if 0xF0000 ≤ o then 0xFF else 0

/-- The signals whose value or status an n-byte read at offset o covers. -/
def sigCovered (o n : Nat) : List Nat :=
  ((List.range n).map fun k =>
    if o + k < 0x80000 then [(o + k) / 8] else if o + k < 0xA0000 then [(o + k - 0x80000) / 2] else []).flatten.eraseDups

/-- Read n bytes at offset o of the signal window (R474, R475, R477): remote values that are not current are fetched; the
read never waits. -/
def sigWinRead (via : View) (o n : Nat) (s : State) : (Status × List Byte) × State :=
  let who := viewWho via
  if o % 4 ≠ 0 ∨ n % 4 ≠ 0 then ((.fault, List.replicate n 0xFF), s)
  else match (if (hostOf who).isSome then hostGate false (0x4000000 + o) s else none) with
    | some st => ((st, if st = .busy then List.replicate n 0xFF else zeros n), s)
    | none =>
      let sigs := sigCovered o n
      let hole := (List.range (n / 4)).any fun k => (0xA8000 ≤ o + 4 * k && o + 4 * k < 0xC0000) || 0xE0000 ≤ o + 4 * k
      let b := (List.range n).map fun k => BitVec.ofNat 8 (sigWinByte (o + k) s)
      let vals := if o < 0x80000 then sigs else []
      let s := each (vals.filter fun i => cfgHas C.sigDef i s && sigFetches i s) (fun i => remoteFetch i) s
      ((sigs.foldl (fun a i => statusWorse a (sigReadStatus (decide (o < 0x80000)) i s)) (if hole then .absent else .ok), b), s)

/-- The answer to a read of the signal window: PCIe and a core get what R474 gives, whatever xSPI would answer (R477). -/
def sigAnswer (via : View) (r : (Status × List Byte) × State) : State := match via with
  | .xspiPlain => answer via r.1.1 r.1.2 r.2
  | .xspiPop => answer via r.1.1 r.1.2 r.2
  | _ => answer via .ok r.1.2 r.2

/-! ### xSPI commands that read (R473, R477–R479) -/

/-- HOST_IRQ_N (R479): low while a cause of HST_IRQ is pending and the xSPI target is enabled (log entry 83). -/
def hostIrqN (s : State) : Bool :=
  !(decide (s.pwr.mode ≤ 2) && !ifaceOff 1 s && (rdB F.HST_IRQ_STAGE s || rdB F.HST_IRQ_WSTAT s || rdB F.HST_IRQ_UNCLAIMED s || rdB F.HST_IRQ_REMOTE s))

/-- The xSPI window (R473): where an address leads. -/
inductive XAddr where
  | space (pop : Bool) (a : Nat)
  | signal (o : Nat)
  | stash (o : Nat)
  | reserved
  deriving DecidableEq, Repr

/-- The decoding of an xSPI address (R473). -/
def xspiAddr (a : Nat) (s : State) : XAddr :=
  if a < 0x200000 then .space false a
  else if a < 0x400000 then .space true (a - 0x200000)
  else if a < 0x500000 then .signal (a - 0x400000)
  else if a < 0x580000 then .stash (a - 0x500000)
  else if a < 0x800000 then .reserved
  else .space false (0x1000000 + 0x800000 * rd F.HST_XSPI_TPAGE_PAGE s + (a - 0x800000))

/-- A READ's address and length can exist (R473, R478): 24 address bits, 4 to 4 096 bytes. -/
def xspiLenOk (addr n : Nat) : Bool := decide (addr < 2 ^ 24) && decide (4 ≤ n) && decide (n ≤ 4096)

/-- READ (R473, R477, R479). -/
def execRead (addr n : Nat) (s : State) : Res :=
  guardWf (xspiLenOk addr n) "xSPI length" (.next (
    if !reachable .xspi s then s
    else
      let s := { s with hst := { s.hst with rstEn := false } }
      match xspiAddr addr s with
      | .space pop a =>
        let via := if pop then View.xspiPop else View.xspiPlain
        let r := spaceRead via a n s
        answer via r.1.1 r.1.2 r.2
      | .signal o => sigAnswer .xspiPlain (sigWinRead .xspiPlain o n s)
      | .stash o =>
        let r := spaceRead .xspiPlain (0x1500000 + o) n s
        answer .xspiPlain r.1.1 r.1.2 r.2
      | .reserved =>
        let st := if addr % 4 ≠ 0 ∨ n % 4 ≠ 0 then .fault else (hostGate false 0x4000000 s).getD .absent
        answer .xspiPlain st (List.replicate n 0xFF) s))

/-- RC_READ (R519, R550): a 4-byte read through a view; RC fields clear where the view has side effects. -/
def execRcRead (via : View) (addr : Nat) (s : State) : Res :=
  .next (if !reachable (viewWho via) s then s
  else match via with
    | .bar2 => sigAnswer via (sigWinRead via addr 4 s)
    | .core _ =>
      -- a core's read of no object returns 0 (R515)
      let r := regRead via true addr s
      answer via .ok (leBytes 4 (if addr % 4 = 0 then r.1.getD 0 else 0)) (if addr % 4 = 0 then r.2 else s)
    | _ => let r := spaceRead via addr 4 s; answer via r.1.1 r.1.2 r.2)

/-- RDID (R478): SYS_ID and the interface version. -/
def execRdid (s : State) : Res :=
  .next (if !reachable .xspi s then s
  else answer .xspiPlain .ok (leBytes 4 0x961600A2 ++ leBytes 4 0x00010000) { s with hst := { s.hst with rstEn := false } })

/-- RDSR (R478, R479): the status of the latest WRITE, BUSY while one is not applied; the refused writes counted restart. -/
def execRdsr (s : State) : Res :=
  .next (if !reachable .xspi s then s
  else
    let st := if s.hst.posted.isEmpty then s.hst.last else 1
    answer .xspiPlain .ok (leBytes 4 (st + 256 * s.hst.refused)) { s with hst := { s.hst with rstEn := false, refused := 0 } })

/-- WRITE (R473, R478, R479): posted, to be applied within 200 ns. -/
def execWrite (addr : Nat) (data : List Byte) (s : State) : Res :=
  guardWf (xspiLenOk addr data.length) "xSPI length" (.next (
    if !reachable .xspi s then s
    else { s with hst := { s.hst with rstEn := false, posted := s.hst.posted ++ [(addr, data)] } }))

/-- RSTEN (R478). -/
def execRsten (s : State) : Res :=
  .next (if !reachable .xspi s then s else { s with hst := { s.hst with rstEn := true } })

/-- RST (R478): after RSTEN, the write status, the xSPI stash entries and HST_XSPI_TPAGE are reset; the items count as
unclaimed pops. -/
def execRst (s : State) : Res :=
  .next (if !reachable .xspi s ∨ !s.hst.rstEn then { s with hst := { s.hst with rstEn := false } }
  else
    let s := each ((stashOf 1 s).map (·.1)) stashUnclaimed s
    wr F.HST_XSPI_TPAGE_PAGE 0 { s with hst := { s.hst with rstEn := false, last := 0, refused := 0 } })

/-- SIGNAL_VALUE_READ (R474, R475): the eight bytes of a signal's value, through the view's own signal window. -/
def execSignalValueRead (via : View) (i : Fin 65536) (s : State) : Res :=
  .next (if !reachable (viewWho via) s then s else sigAnswer via (sigWinRead via (8 * i) 8 s))

/-- HST_HQNN_POP (R473, R484, R486): only BAR0 and the xSPI pop region pop. -/
def execHstHqnnPop (via : View) (q : Fin 64) (s : State) : Res :=
  .next (if !reachable (viewWho via) s then s
  else match via with
    | .bar2 => answer via .ok (leBytes 4 0xFFFFFFFF) s
    | .core _ => answer via .ok (zeros 4) s
    | _ =>
      let r := spaceRead via (F.HST_HQnn_POP_ITEM.addr + q * F.HST_HQnn_POP_ITEM.step) 4 s
      answer via r.1.1 r.1.2 r.2)

end Sys2Proof.Machine
end

