-- ==== Sys2Proof/Machine/RegWrite.lean ====
section
/-! DEFINITION. Writes to the register space and to the signal window (17_register_map.md R514–R521; 15_host_interface.md
R474–R487). Staging commands, debug commands and SYS_RST_REQ with their own rows are joined in HostCmd. -/

namespace Sys2Proof.Machine

/-! ### The signal window (R474, R476, R281) -/

/-- Whether an initiator may write signal i: a host needs SIG_WR and HOST_WR (R476); a core may write any (R281). -/
def maySigWrite (who : Initiator) (i : Nat) (s : State) : Bool := match who with
  | .core _ => true
  | .link => false
  | .pcie => stage s == 9 || (bit (hostPerm 0 s) 0 && bit (sigN i 1 1 s) 0)
  | .xspi => stage s == 9 || (bit (hostPerm 1 s) 0 && bit (sigN i 1 1 s) 0)

/-- The last-writer code of an initiator (R277). -/
def sigWriter : Initiator → Nat
  | .core n => 0x8001 + n
  | _ => 0x8000

/-- A write of signal i's value (R281, R457, R476): applied, forwarded to the owner, or refused; a host that meets a
device-initiated commit of the same tick is answered BUSY. -/
def sigValueWrite (who : Initiator) (i v : Nat) (meets : Bool) (s : State) : Status × State :=
  if !cfgHas C.sigDef i s then (.absent, s)
  else if (hostOf who).isSome && (sigOwner i s).isNone && (meets || devCommitted i s) then (.busy, inc F.SIG_HOST_BUSY_COUNT s)
  else if !maySigWrite who i s then (.denied, s)
  else (.ok, sigCommit [⟨i, v, arrayHead i v s, sigWriter who⟩] s)

/-- A request for PDU p (R290, R474): a PDU in mode 4 falls due. -/
def pduRequested (who : Initiator) (p : Nat) (s : State) : Status × State :=
  let may := match who with
    | .core _ => true
    | .link => false
    | .pcie => stage s == 9 || bit (hostPerm 0 s) 0
    | .xspi => stage s == 9 || bit (hostPerm 1 s) 0
  if !may then (.denied, s)
  else if cfgHas C.sigPdu p s && pduMode p s == 4 then (.ok, pduDue p s)
  else (.absent, s)

/-- Write the bytes b, whose length is a multiple of 4, at offset o of the signal window: a part of a value leaves its other
bytes. -/
def sigWinWrite (who : Initiator) (o : Nat) (b : List Byte) (s : State) : Status × State :=
  if o % 4 ≠ 0 ∨ b.length % 4 ≠ 0 then (.fault, s)
  else if o < 0x80000 then
    let sigs := sigCovered o b.length
    sigs.foldl (fun (a : Status × State) i =>
      let old := leBytes 8 (sigShown i a.2)
      let new := (List.range 8).map fun k => if o ≤ 8 * i + k ∧ 8 * i + k < o + b.length then BitVec.ofNat 8 (byteAt b (8 * i + k - o))
        else BitVec.ofNat 8 (byteAt old k)
      let r := sigValueWrite who i (leNat new) false a.2
      (statusWorse a.1 r.1, r.2)) (.ok, s)
  else if 0xA0000 ≤ o ∧ o < 0xA8000 then
    (List.range (b.length / 4)).foldl (fun (a : Status × State) k =>
      let r := pduRequested who ((o - 0xA0000) / 4 + k) a.2
      (statusWorse a.1 r.1, r.2)) (.ok, s)
  else if o < 0xA0000 ∨ (0xC0000 ≤ o ∧ o < 0xE0000) then (.denied, s)
  else (.absent, s)

/-- SIGNAL_VALUE_WRITE (R476). -/
def execSignalValueWrite (who : Initiator) (i : Fin 65536) (v : BitVec 64) (meets : Bool) (s : State) : Res :=
  .next (hostWrite who (0x4000000 + 8 * i) (sigValueWrite who i v.toNat meets) s)

/-- PDU_REQUEST (R474). -/
def execPduRequest (who : Initiator) (p : Fin 8192) (s : State) : Res :=
  .next (hostWrite who (0x40A0000 + 4 * p) (pduRequested who p) s)

/-! ### Registers with an effect of their own -/

/-- SYS_RST_REQ (R36, R38, R487): REQ with the key requests a WRST when the interface holds RESET. -/
def rstReqWrite (who : Initiator) (v : Nat) (s : State) : Status × State :=
  let may := match hostOf who with
    | some i => stage s == 9 || bit (hostPerm i s) 2
    | none => false
  if bit v 0 = false then (.ok, s)
  else if v / 65536 = 0xA5C3 && may then (.ok, requestReset .hostReq s)
  else (.denied, s)

/-- SYS_RST_REQ. -/
def execSysRstReq (who : Initiator) (v : Word) (s : State) : Res := .next (hostWrite who 0x24 (rstReqWrite who v.toNat) s)

/-- HST_HQnn_CTRL (R480, R481): only the queue's interface configures it; MODE and RING_LOG2 change while EN is clear, and a
mode that the queue may not run is not enabled. -/
def hqCtrlWrite (who : Initiator) (q v : Nat) (s : State) : Status × State :=
  let en := rdB (F.HST_HQnn_CTRL_EN.u q) s
  let mode := if en then rd (F.HST_HQnn_CTRL_MODE.u q) s else bits v 30 1
  let lg := if en then rd (F.HST_HQnn_CTRL_RING_LOG2.u q) s else bits v 16 4
  let good := if mode = 1 then bit (hqN q 0 1 s) 2 else hqIf q s == 0 && decide (4 ≤ lg) && decide (lg ≤ 10)
  if bit v 31 && !en && !good then (.fault, s)
  else if hostOf who ≠ some (hqIf q s) ∨ !hqOn q s then (.denied, s)
  else (.ok, s |> wr (F.HST_HQnn_CTRL_EN.u q) (bits v 31 1) |> wr (F.HST_HQnn_CTRL_MODE.u q) mode
    |> wr (F.HST_HQnn_CTRL_RING_LOG2.u q) lg |> wr (F.HST_HQnn_CTRL_TO_INT.u q) (bits v 1 1)
    |> wr (F.HST_HQnn_CTRL_CPL_INT.u q) (bits v 0 1))

/-- HST_HQnn_BASE_LO and _HI: written by the queue's interface while EN is clear. -/
def hqBaseWrite (who : Initiator) (q : Nat) (f : Field) (v : Nat) (s : State) : Status × State :=
  if hostOf who ≠ some (hqIf q s) ∨ !hqOn q s ∨ rdB (F.HST_HQnn_CTRL_EN.u q) s then (.denied, s)
  else (.ok, wr (f.u q) (v / 2 ^ f.lo) s)

/-- A word of the MSI-X table (R470, R471): unmasking a vector that pends raises it; the PBA is read only. -/
def msixWrite (i v : Nat) (s : State) : Status × State :=
  if 256 ≤ i then (.denied, s)
  else
    let s := msixSet i (if i % 4 = 3 then v % 2 else if i % 4 = 0 then v / 4 * 4 else v) s
    let n := i / 4
    if i % 4 = 3 && v % 2 == 0 && bit (msixWord (512 + n / 32) s) (n % 32) then
      (.ok, emit (.irq n) (msixSet (512 + n / 32) (putBit (msixWord (512 + n / 32) s) (n % 32) false) s))
    else (.ok, s)

/-- REC_CMD by an initiator of a register write (R508). -/
def recCmdWrite (who : RecUser) (v : Nat) (s : State) : Status × State :=
  let r := match v % 4 with
    | 1 => recFreeze s
    | 2 => (.ok, recThaw s)
    | 3 => recClearKey who (bits v 8 4) (v / 2 ^ 24) s
    | _ => (.ok, s)
  (.ok, if v % 4 = 0 then s else wr F.REC_CMD_STAT_STATUS r.1.code r.2)

/-- CIP_WINw_CMD (R409): only the window's own requester; w = 0 is the host's. -/
def cipCmdWrite (who : Initiator) (w v : Nat) (s : State) : Status × State := match who with
  | .core n => if w = n + 1 then winGo w true v s else (.ok, s)
  | .link => (.ok, s)
  | .pcie => if w = 0 then winGo 0 (stage s == 9 || bit (hostPerm 0 s) 6) v s else (.ok, s)
  | .xspi => if w = 0 then winGo 0 (stage s == 9 || bit (hostPerm 1 s) 6) v s else (.ok, s)

/-- The window of the cipher that an initiator owns. -/
def cipOwn : Initiator → Nat
  | .core n => n + 1
  | .link => 5
  | _ => 0

/-- The bytes of a word written under byte enables into a byte table. -/
def putEn (o v en : Nat) (t : Tbl Byte) : Tbl Byte :=
  (bitList en 4).foldl (fun t k => tset 0 t (o + k) (BitVec.ofNat 8 (v / 256 ^ k))) t

/-- The configuration registers (R521). -/
def isConfigReg (d : RegD) : Bool :=
  d.addr == F.QM_CFG_AUDIT_MS.addr || d.addr == F.QM_PROFn_ALPHA.addr || d.addr == F.LKP_CFG_SWEEP_S.addr
    || d.addr == F.GRV_CFG_BUDGET.addr || d.addr == F.CTL_CCn_CFG_SLOTS.addr || d.addr == F.HST_PERMi_PERM.addr
    || d.addr == F.PRF_EPOCH_EPOCH.addr || d.addr == F.SYS_PLATE_COMPAT_FROM.addr

/-- The writable fields take their bits (R11, R516): RW fields the value, W1C fields clear where it is 1. -/
def fieldsWrite (d : RegD) (n m v : Nat) (s : State) : State :=
  each d.fields (fun f s => match f.acc with
    | .rw => wr (f.uu n m) (bits v f.lo f.w) s
    | .w1c => wr (f.uu n m) (clearBits (rd (f.uu n m) s) (bits v f.lo f.w)) s
    | _ => s) s

/-- A register without an effect of its own (R516, R521): refused when no field is writable by the initiator. -/
def plainWrite (who : Initiator) (d : RegD) (n m v : Nat) (s : State) : Status × State :=
  if isConfigReg d then
    (if stage s = 9 ∧ (hostOf who).isSome then (.ok, each d.fields (fun f => wr (f.uu n m) (bits v f.lo f.w)) s) else (.denied, s))
  else if d.addr = F.HST_XSPI_TPAGE_PAGE.addr ∧ who ≠ .xspi then (.denied, s)
  else if d.fields.any fun f => f.acc == .rw || f.acc == .w1c || f.acc == .wo then (.ok, fieldsWrite d n m v s)
  else (.denied, s)

/-- KEY_CMD by its writer: the host over PCIe or xSPI and the cores have a mailbox (R393). -/
def keyCmdBy (who : Initiator) (v : Nat) (s : State) : Status × State := match who with
  | .pcie => (.ok, keyCmdWrite .pcie v s)
  | .xspi => (.ok, keyCmdWrite .xspi v s)
  | .core n => (.ok, keyCmdWrite (.core n) v s)
  | .link => (.denied, s)

/-- The recorder's user behind an initiator (R508). -/
def recUserOf : Initiator → RecUser
  | .pcie => .host .pcie
  | .xspi => .host .xspi
  | .link => .link
  | .core _ => .diag

/-- A write of the word v to a register of unit n (R514, R516). -/
def regEffect (who : Initiator) (d : RegD) (n m v : Nat) (s : State) : Status × State :=
  if d.addr = F.SYS_RST_REQ_REQ.addr then rstReqWrite who v s
  else if d.addr = F.QM_FLUSH_QUEUE.addr then qmFlushWrite who v s
  else if d.addr = F.PWR_HEARTBEAT_KEY.addr then heartbeat v s
  else if d.addr = F.ETH_PORTpp_MDIO_CMD_OP.addr then mdioWrite who (bits v 28 2) n v s
  else if d.addr = F.ETH_PORTpp_MDIO_DATA_DATA.addr then (if mayMdio who s then mdioMeets who n (plainWrite who d n m v) s else (.denied, s))
  else if d.addr = F.CIP_WINw_CMD_GO.addr then cipCmdWrite who n v s
  else if d.addr = F.SLP_HOST_DEMAND_DEMAND.addr then hostDemandWrite who v s
  else if d.addr = F.HST_HQnn_DOORBELL_RING.addr then doorbell who (v / 2 ^ 30) n v s
  else if d.addr = F.HST_HQnn_WAIT_TICKS.addr then waitWrite who n v s
  else if d.addr = F.HST_HQnn_ACK_ACK.addr then ackWrite who n s
  else if d.addr = F.HST_HQnn_CTRL_EN.addr then hqCtrlWrite who n v s
  else if d.addr = F.HST_HQnn_BASE_LO_ADDR.addr then hqBaseWrite who n F.HST_HQnn_BASE_LO_ADDR v s
  else if d.addr = F.HST_HQnn_BASE_HI_ADDR.addr then hqBaseWrite who n F.HST_HQnn_BASE_HI_ADDR v s
  else if d.addr = F.REC_CMD_CMD.addr then
    recCmdWrite (recUserOf who) v s
  else if d.addr = F.KEY_CMD_CODE.addr then
    keyCmdBy who v s
  else plainWrite who d n m v s

/-- A write into SYS_STAGE_BUF (R67). -/
def stageBufWrite (a v en : Nat) (s : State) : State :=
  { s with sys := { s.sys with bufBytes := putEn (a - 0x1000) v en s.sys.bufBytes } }

/-- A write into the mailbox of the writer's class (R393). -/
def mboxWrite (who : Initiator) (a v en : Nat) (s : State) : Status × State :=
  let c := match who with | .core _ => 1 | _ => 0
  if who = .link then (.denied, s)
  else (.ok, { s with key := { s.key with mbox := putEn (4096 * c + (a - 0x101000)) v en s.key.mbox } })

/-- A write into a cipher window's buffer; one by another than the window's own requester is ignored (R409). -/
def cipBufWrite (who : Initiator) (a v en : Nat) (s : State) : State :=
  if (a - 0xF2000) / 8192 = cipOwn who then { s with cip := { s.cip with buf := putEn (a - 0xF2000) v en s.cip.buf } } else s

/-- A write of the word v under byte enables en at BAR0 offset a (R514–R516). Staging commands and the DBG block are the
host's own (HostCmd); here they are refused, and DBG writes are ignored (R525). -/
def regWriteBase (who : Initiator) (a v en : Nat) (s : State) : Status × State :=
  if a % 4 ≠ 0 then (.fault, s)
  else if 0x1000000 ≤ a then (if (windowOf a 0 windows).isSome then .denied else .absent, s)
  else if 0x1000 ≤ a ∧ a < 0x2000 then (.ok, stageBufWrite a v en s)
  else if 0x101000 ≤ a ∧ a < 0x102000 then mboxWrite who a v en s
  else if 0xF2000 ≤ a ∧ a < 0xFC000 then (.ok, cipBufWrite who a v en s)
  else if (0x138000 ≤ a ∧ a < 0x138400) ∨ (0x138800 ≤ a ∧ a < 0x138808) then
    (if en = 15 then msixWrite ((a - 0x138000) / 4) v s else (.fault, s))
  else match findReg a regMap with
    | none => (.absent, s)
    | some (d, n, m) =>
      if en ≠ 15 then (.fault, s)
      else if 0x150000 ≤ a ∧ a < 0x160000 then (if who = .link ∨ (hostOf who).isNone then .ok else .denied, s)
      else if a = F.SYS_STAGE_CTRL_CMD.addr then (.denied, s)
      else regEffect who d n m v s

end Sys2Proof.Machine
end

