-- ==== Sys2Proof/Machine/Rv.lean ====
section
/-! DEFINITION. RV32IMC with Zicsr (R344): decoding, and the datapath of the two passes, pass A on 32-bit values and pass B on
the 40-bit values of R352. Encodings are those of the RISC-V standard the rule names. -/

namespace Sys2Proof.Machine

/-- Two-operand operations of the base and M instructions. -/
inductive AluOp where
  | add | sub | sll | slt | sltu | xor | srl | sra | or | and
  | mul | mulh | mulhsu | mulhu | div | divu | rem | remu
  deriving DecidableEq, Repr

/-- An instruction as decoded; immediates are sign-extended to 32 bits. -/
inductive Rv where
  | lui (rd imm : Nat)
  | auipc (rd imm : Nat)
  | jal (rd imm : Nat)
  | jalr (rd rs1 imm : Nat)
  | branch (f3 rs1 rs2 imm : Nat)
  | load (f3 rd rs1 imm : Nat)
  | store (f3 rs1 rs2 imm : Nat)
  | opImm (op : AluOp) (rd rs1 imm : Nat)
  | op (op : AluOp) (rd rs1 rs2 : Nat)
  | fence
  | ecall
  | ebreak
  | mret
  | wfi
  | csr (f3 rd rs1 num : Nat)
  | illegal
  deriving DecidableEq, Repr

/-! ### Decoding -/

/-- Sign-extend the low w bits of v to 32 bits. -/
def sx (w v : Nat) : Nat := twos 32 (sext w v)
/-- The immediate of an I-type word. -/
def immI (w : Nat) : Nat := sx 12 (bits w 20 12)
/-- The immediate of an S-type word. -/
def immS (w : Nat) : Nat := sx 12 (bits w 7 5 + 32 * bits w 25 7)
/-- The immediate of a B-type word. -/
def immB (w : Nat) : Nat := sx 13 (2 * bits w 8 4 + 32 * bits w 25 6 + 2048 * bits w 7 1 + 4096 * bits w 31 1)
/-- The immediate of a J-type word. -/
def immJ (w : Nat) : Nat := sx 21 (2 * bits w 21 10 + 2048 * bits w 20 1 + 4096 * bits w 12 8 + 1048576 * bits w 31 1)

/-- OP instructions by funct7 and funct3. -/
def opOf (f7 f3 : Nat) : Option AluOp := match f7, f3 with
  | 0, 0 => some .add | 0, 1 => some .sll | 0, 2 => some .slt | 0, 3 => some .sltu
  | 0, 4 => some .xor | 0, 5 => some .srl | 0, 6 => some .or | 0, 7 => some .and
  | 0x20, 0 => some .sub | 0x20, 5 => some .sra
  | 1, 0 => some .mul | 1, 1 => some .mulh | 1, 2 => some .mulhsu | 1, 3 => some .mulhu
  | 1, 4 => some .div | 1, 5 => some .divu | 1, 6 => some .rem | 1, 7 => some .remu
  | _, _ => none

/-- OP-IMM instructions. -/
def opImmOf (f3 f7 : Nat) : Option AluOp := match f3 with
  | 0 => some .add | 2 => some .slt | 3 => some .sltu | 4 => some .xor | 6 => some .or | 7 => some .and
  | 1 => if f7 = 0 then some .sll else none
  | _ => if f7 = 0 then some .srl else if f7 = 0x20 then some .sra else none

/-- A 32-bit instruction. -/
def rv32 (w : Nat) : Rv :=
  let rd := bits w 7 5
  let f3 := bits w 12 3
  let rs1 := bits w 15 5
  let rs2 := bits w 20 5
  match w % 128 with
  | 0x37 => .lui rd (w / 4096 * 4096)
  | 0x17 => .auipc rd (w / 4096 * 4096)
  | 0x6F => .jal rd (immJ w)
  | 0x67 => if f3 = 0 then .jalr rd rs1 (immI w) else .illegal
  | 0x63 => if f3 = 2 ∨ f3 = 3 then .illegal else .branch f3 rs1 rs2 (immB w)
  | 0x03 => if f3 = 3 ∨ 6 ≤ f3 then .illegal else .load f3 rd rs1 (immI w)
  | 0x23 => if 3 ≤ f3 then .illegal else .store f3 rs1 rs2 (immS w)
  | 0x13 => match opImmOf f3 (bits w 25 7) with
    | some o => .opImm o rd rs1 (if f3 = 1 ∨ f3 = 5 then rs2 else immI w)
    | none => .illegal
  | 0x33 => match opOf (bits w 25 7) f3 with
    | some o => .op o rd rs1 rs2
    | none => .illegal
  | 0x0F => if f3 ≤ 1 then .fence else .illegal
  | 0x73 =>
    if f3 = 0 then
      if w = 0x73 then .ecall else if w = 0x100073 then .ebreak else if w = 0x30200073 then .mret
      else if w = 0x10500073 then .wfi else .illegal
    else if f3 = 4 then .illegal else .csr f3 rd rs1 (bits w 20 12)
  | _ => .illegal

/-- A register of the compressed formats' three-bit fields. -/
def creg (w lo : Nat) : Nat := 8 + bits w lo 3

/-- The six-bit immediate of the CI format. -/
def immCi (w : Nat) : Nat := sx 6 (bits w 2 5 + 32 * bits w 12 1)

/-- The jump offset of C.J and C.JAL. -/
def immCj (w : Nat) : Nat :=
  sx 12 (2 * bits w 3 3 + 16 * bits w 11 1 + 32 * bits w 2 1 + 64 * bits w 7 1 + 128 * bits w 6 1 + 256 * bits w 9 2
    + 1024 * bits w 8 1 + 2048 * bits w 12 1)

/-- The branch offset of C.BEQZ and C.BNEZ. -/
def immCb (w : Nat) : Nat :=
  sx 9 (2 * bits w 3 2 + 8 * bits w 10 2 + 32 * bits w 2 1 + 64 * bits w 5 2 + 256 * bits w 12 1)

/-- A compressed instruction of quadrant 1 with funct3 4. -/
def rvcAlu (w : Nat) : Rv :=
  let rd := creg w 7
  match bits w 10 2 with
  | 0 => if bit w 12 then .illegal else .opImm .srl rd rd (bits w 2 5)
  | 1 => if bit w 12 then .illegal else .opImm .sra rd rd (bits w 2 5)
  | 2 => .opImm .and rd rd (immCi w)
  | _ => if bit w 12 then .illegal else match bits w 5 2 with
    | 0 => .op .sub rd rd (creg w 2)
    | 1 => .op .xor rd rd (creg w 2)
    | 2 => .op .or rd rd (creg w 2)
    | _ => .op .and rd rd (creg w 2)

/-- A 16-bit instruction. -/
def rvc (w : Nat) : Rv :=
  let rd := bits w 7 5
  match w % 4, bits w 13 3 with
  | 0, 0 =>
    let i := 4 * bits w 6 1 + 8 * bits w 5 1 + 16 * bits w 11 2 + 64 * bits w 7 4
    if i = 0 then .illegal else .opImm .add (creg w 2) 2 i
  | 0, 2 => .load 2 (creg w 2) (creg w 7) (4 * bits w 6 1 + 8 * bits w 10 3 + 64 * bits w 5 1)
  | 0, 6 => .store 2 (creg w 7) (creg w 2) (4 * bits w 6 1 + 8 * bits w 10 3 + 64 * bits w 5 1)
  | 1, 0 => .opImm .add rd rd (immCi w)
  | 1, 1 => .jal 1 (immCj w)
  | 1, 2 => .opImm .add rd 0 (immCi w)
  | 1, 3 =>
    if rd = 2 then
      let i := 16 * bits w 6 1 + 32 * bits w 2 1 + 64 * bits w 5 1 + 128 * bits w 3 2 + 512 * bits w 12 1
      if i = 0 then .illegal else .opImm .add 2 2 (sx 10 i)
    else if immCi w = 0 then .illegal else .lui rd (immCi w * 4096 % 2 ^ 32)
  | 1, 4 => rvcAlu w
  | 1, 5 => .jal 0 (immCj w)
  | 1, 6 => .branch 0 (creg w 7) 0 (immCb w)
  | 1, 7 => .branch 1 (creg w 7) 0 (immCb w)
  | 2, 0 => if bit w 12 then .illegal else .opImm .sll rd rd (bits w 2 5)
  | 2, 2 => if rd = 0 then .illegal else .load 2 rd 2 (4 * bits w 4 3 + 32 * bits w 12 1 + 64 * bits w 2 2)
  | 2, 4 =>
    let rs2 := bits w 2 5
    if bit w 12 then
      if rs2 ≠ 0 then .op .add rd rd rs2 else if rd = 0 then .ebreak else .jalr 1 rd 0
    else if rs2 ≠ 0 then .op .add rd 0 rs2 else if rd = 0 then .illegal else .jalr 0 rd 0
  | 2, 6 => .store 2 2 (bits w 2 5) (4 * bits w 9 4 + 64 * bits w 7 2)
  | _, _ => .illegal

/-- The instruction in the 32 bits at the pc, and its length: 16-bit words have bits [1:0] other than 3. -/
def rvDecode (w : Nat) : Rv × Nat := if w % 4 = 3 then (rv32 (w % 2 ^ 32), 4) else (rvc (w % 65536), 2)

/-! ### Pass A (R352) -/

/-- The normal datapath on 32-bit values. -/
def aluA (op : AluOp) (a b : Nat) : Nat := match op with
  | .add => (a + b) % 2 ^ 32
  | .sub => (a + (2 ^ 32 - b)) % 2 ^ 32
  | .sll => a * 2 ^ (b % 32) % 2 ^ 32
  | .slt => b2n (decide (sext 32 a < sext 32 b))
  | .sltu => b2n (decide (a < b))
  | .xor => a ^^^ b
  | .srl => a / 2 ^ (b % 32)
  | .sra => twos 32 (sext 32 a / (2 ^ (b % 32) : Nat))
  | .or => a ||| b
  | .and => a &&& b
  | .mul => a * b % 2 ^ 32
  | .mulh => twos 32 (sext 32 a * sext 32 b / (2 ^ 32 : Nat))
  | .mulhsu => twos 32 (sext 32 a * (b : Int) / (2 ^ 32 : Nat))
  | .mulhu => a * b / 2 ^ 32
  | .div => if b = 0 then 2 ^ 32 - 1 else twos 32 (Int.tdiv (sext 32 a) (sext 32 b))
  | .divu => if b = 0 then 2 ^ 32 - 1 else a / b
  | .rem => if b = 0 then a else twos 32 (Int.tmod (sext 32 a) (sext 32 b))
  | .remu => if b = 0 then a else a % b

/-! ### Pass B (R352) -/

/-- Carries above bit 35 are discarded and bits [39:36] refilled from bit 35. -/
def refill (v : Nat) : Nat := v % 2 ^ 36 + (if bit v 35 then 15 * 2 ^ 36 else 0)
/-- A 32-bit value shifted left by 4 on entry. -/
def shiftIn (v : Nat) : Nat := refill (v % 2 ^ 32 * 16)
/-- A 40-bit value shifted right by 4 on exit. -/
def shiftOut (v : Nat) : Nat := v / 16 % 2 ^ 32
/-- Bits [3:0] are 0 and bits [39:36] are copies of bit 35; anything else is a mismatch at the write. -/
def formOk (v : Nat) : Bool := v % 16 == 0 && refill v == v
/-- A right-shifted value with bits [3:0] forced to 0. -/
def lowCleared (v : Nat) : Nat := v / 16 * 16

/-- The transformed datapath on 40-bit values; the multiplier takes rs2, rs1. -/
def aluB (op : AluOp) (x y : Nat) : Nat := match op with
  | .add => refill (x + y)
  | .sub => refill (x + (2 ^ 40 - y))
  | .sll => refill (x * 2 ^ bits y 4 5)
  | .slt => 16 * b2n (decide (sext 40 x < sext 40 y))
  | .sltu => 16 * b2n (decide (x % 2 ^ 36 < y % 2 ^ 36))
  | .xor => x ^^^ y
  | .srl => refill (lowCleared (x % 2 ^ 36 / 2 ^ bits y 4 5))
  | .sra => refill (lowCleared (twos 40 (sext 40 x / (2 ^ bits y 4 5 : Nat))))
  | .or => x ||| y
  | .and => x &&& y
  | .mul => shiftIn (aluA .mul (shiftOut y) (shiftOut x))
  | .mulh => shiftIn (aluA .mulh (shiftOut y) (shiftOut x))
  | .mulhsu => shiftIn (twos 32 ((shiftOut y : Int) * sext 32 (shiftOut x) / (2 ^ 32 : Nat)))
  | .mulhu => shiftIn (aluA .mulhu (shiftOut y) (shiftOut x))
  | .div => shiftIn (aluA .div (shiftOut x) (shiftOut y))
  | .divu => shiftIn (aluA .divu (shiftOut x) (shiftOut y))
  | .rem => shiftIn (aluA .rem (shiftOut x) (shiftOut y))
  | .remu => shiftIn (aluA .remu (shiftOut x) (shiftOut y))

/-- The datapath of a pass. -/
def alu (passB : Bool) (op : AluOp) (a b : Nat) : Nat := if passB then aluB op a b else aluA op a b
/-- A value as a pass holds it. -/
def held (passB : Bool) (v : Nat) : Nat := if passB then shiftIn v else v % 2 ^ 32
/-- The 32-bit value that a pass holds. -/
def plain (passB : Bool) (v : Nat) : Nat := if passB then shiftOut v else v

/-- Whether a branch is taken (f3: BEQ 0, BNE 1, BLT 4, BGE 5, BLTU 6, BGEU 7). -/
def branchTaken (passB : Bool) (f3 a b : Nat) : Bool :=
  let lt := alu passB .slt a b != 0
  let ltu := alu passB .sltu a b != 0
  match f3 with
  | 0 => a == b
  | 1 => a != b
  | 4 => lt
  | 5 => !lt
  | 6 => ltu
  | _ => !ltu

end Sys2Proof.Machine
end

