-- ==== Sys2Proof/Machine/CtlExec.lean ====
section
/-! DEFINITION. One instruction of a control core in one pass of a slice: PMP, CSRs, loads, stores, the sample log and the
store buffer, exceptions (10_control_cores_counterproof.md, R344–R355). -/

namespace Sys2Proof.Machine

/-! ### Registers and CSRs of a pass (R351, R352, R355) -/

/-- Register r as the pass holds it. -/
def Pass.get (r : Nat) (p : Pass) : Nat := if r = 0 then 0 else tget 0 p.ctx.regs r
/-- Write register r with a value as the pass holds it; pass B checks its form (R352). -/
def Pass.put (passB : Bool) (r v : Nat) (p : Pass) : Pass :=
  if r = 0 then p
  else { p with ctx := { p.ctx with regs := tset 0 p.ctx.regs r v }, bad := p.bad || (passB && !formOk v) }
/-- A CSR. -/
def Pass.csr (k : Nat) (p : Pass) : Nat := (tget 0 p.ctx.csrs k).toNat
/-- A CSR written. -/
def Pass.csrPut (k v : Nat) (p : Pass) : Pass :=
  { p with ctx := { p.ctx with csrs := tset 0 p.ctx.csrs k (BitVec.ofNat 32 v) } }

/-- The CSRs that the checkpoint and the commit signature hold (R355), in its order. -/
def ctlCsrs : List Nat :=
  [0x300, 0x304, 0x305, 0x340, 0x341, 0x342, 0x343, 0x3A0, 0x3A1, 0x3A2, 0x3A3] ++ (List.range 16).map (0x3B0 + ·)
    ++ [0x800, 0x801]

/-- The read-only CSRs that identify a core: misa, vendor, architecture and implementation IDs, the hart number. -/
def csrConst (n k : Nat) : Option Nat := match k with
  | 0x301 => some 0x40101104
  | 0xF11 => some 0
  | 0xF12 => some 0
  | 0xF13 => some 0
  | 0xF14 => some n
  | _ => none

/-- The CSRs whose reads go through the sample log (R353): mip, cycle, time and instret with their high halves. -/
def csrSampled (k : Nat) : Bool := k == 0x344 || (0xC00 ≤ k && k ≤ 0xC02) || (0xC80 ≤ k && k ≤ 0xC82)

/-- Entry i of the PMP configuration. -/
def pmpCfg (i : Nat) (p : Pass) : Nat := bits (p.csr (0x3A0 + i / 4)) (8 * (i % 4)) 8
/-- The address register of PMP entry i. -/
def pmpAddr (i : Nat) (p : Pass) : Nat := p.csr (0x3B0 + i)

/-- What a PMP configuration byte becomes: a locked one stays, reserved bits read 0, W without R is not kept. -/
def pmpByte (old new : Nat) : Nat :=
  if bit old 7 then old
  else
    let v := bits new 0 5 + 128 * bits new 7 1
    if bit v 1 && !bit v 0 then putBit v 1 false else v

/-- What writing v to CSR k leaves in it. -/
def csrKeep (k v : Nat) (p : Pass) : Nat :=
  if k = 0x300 then
    let mpp := if bits v 11 2 = 3 ∨ bits v 11 2 = 0 then bits v 11 2 else bits (p.csr 0x300) 11 2
    8 * bits v 3 1 + 128 * bits v 7 1 + 2048 * mpp + 131072 * bits v 17 1
  else if k = 0x305 then (if bit v 1 then v / 4 * 4 + p.csr 0x305 % 4 else v)
  else if k = 0x341 then v / 2 * 2
  else if 0x3A0 ≤ k ∧ k ≤ 0x3A3 then
    ((List.range 4).map fun j => pmpByte (bits (p.csr k) (8 * j) 8) (bits v (8 * j) 8) * 256 ^ j).sum
  else if 0x3B0 ≤ k ∧ k ≤ 0x3BF then
    let i := k - 0x3B0
    if bit (pmpCfg i p) 7 ∨ (i < 15 ∧ bit (pmpCfg (i + 1) p) 7 ∧ bits (pmpCfg (i + 1) p) 3 2 = 1) then p.csr k else v
  else v

/-! ### Physical memory protection (R344, R345) -/

/-- The byte range of PMP entry i, by its mode: off, top of range, four bytes, or a power of two. -/
def pmpRange (i : Nat) (p : Pass) : Option (Nat × Nat) := match bits (pmpCfg i p) 3 2 with
  | 0 => none
  | 1 => some (if i = 0 then 0 else 4 * pmpAddr (i - 1) p, 4 * pmpAddr i p)
  | 2 => some (4 * pmpAddr i p, 4 * pmpAddr i p + 4)
  | _ =>
    let ones := (firstIn 0 (fun k => !bit (pmpAddr i p) k) 33).getD 32
    let size := 2 ^ (ones + 3)
    some (4 * pmpAddr i p / size * size, 4 * pmpAddr i p / size * size + size)

/-- Whether the PMP lets an access through: `kind` 0 read, 1 write, 2 fetch. The first entry that meets the access decides;
it must hold all of it. -/
def pmpOk (user : Bool) (addr size kind : Nat) (p : Pass) : Bool :=
  match (List.range 16).find? fun i => match pmpRange i p with
    | some (a, b) => decide (addr < b) && decide (a < addr + size) && decide (a < b)
    | none => false with
  | none => !user
  | some i => match pmpRange i p with
    | some (a, b) =>
      decide (a ≤ addr) && decide (addr + size ≤ b) && ((!user && !bit (pmpCfg i p) 7) || bit (pmpCfg i p) kind)
    | none => !user

/-- The mode in which loads and stores are checked: MPRV takes MPP's. -/
def dataUser (p : Pass) : Bool :=
  if !p.ctx.user && bit (p.csr 0x300) 17 then bits (p.csr 0x300) 11 2 == 0 else p.ctx.user

/-! ### Regions and the sample log (R345, R353, R354) -/

/-- The regions of R345. -/
inductive Region where
  | itcm | dtcm | shared | ports | device | signal | none
  deriving DecidableEq, Repr

/-- The region of an address (R345). -/
def regionOf (a : Nat) : Region :=
  if a < 0x60000 then .itcm
  else if 0x10000000 ≤ a ∧ a < 0x10040000 then .dtcm
  else if 0x20000000 ≤ a ∧ a < 0x20080000 then .shared
  else if 0x30000000 ≤ a ∧ a < 0x30001000 then .ports
  else if 0x40000000 ≤ a ∧ a < 0x44000000 then .device
  else if 0x50000000 ≤ a ∧ a < 0x50100000 then .signal
  else .none

/-- The place of an address in its region: every region begins at a multiple of 2^28 (R345). -/
def regionOff (a : Nat) : Nat := a % 2 ^ 28

/-- A load from the queue ports (R346): POP_k pops with a 4-byte load; HOLD_h gives the descriptor; the rest reads 0. -/
def portLoad (n o size : Nat) (s : State) : Nat × State :=
  if o < 0x80 ∧ o % 0x10 = 0 then (if size = 4 then popPort n (o / 0x10) s else (0, s))
  else if 0x800 ≤ o ∧ o < 0xC00 ∧ (o - 0x800) % 0x40 < 0x20 then
    (match tfind (core n s).holders ((o - 0x800) / 0x40) with
      | some f => leAt (descBytes f s) ((o - 0x800) % 0x40) 4
      | none => 0, s)
  else (0, s)

/-- The word at word address a of a logged region, read by an access of `size` bytes, with what the read changes. -/
def outerLoad (n : Fin 4) (a size : Nat) (s : State) : Nat × State := match regionOf a with
  | .shared => ((tget 0 s.ctl.shared (regionOff a / 4)).toNat, s)
  | .ports => portLoad n (regionOff a) size s
  | .device => let r := regRead (.core n) (size == 4) (regionOff a) s; (r.1.getD 0, r.2)
  | .signal => let r := sigWinRead (.core n) (regionOff a) 4 s; (leNat r.1.2, r.2)
  | _ => (0, s)

/-- Take a value through the sample log (R353): pass A makes the access once and records it; a rerun and pass B take the
entries in order, and another address, or no entry left for pass B, is a mismatch. -/
def sampled (n : Nat) (passB : Bool) (key : Nat) (acc : State → Nat × State) (p : Pass) (s : State) : Nat × Pass × State :=
  match (core n s).log[p.at_]? with
  | some (k, v) => (v, { p with at_ := p.at_ + 1, bad := p.bad || k != key }, s)
  | none =>
    if passB then (0, { p with bad := true }, s)
    else
      let (v, s) := acc s
      (v, { p with at_ := p.at_ + 1 }, coreSet n { core n s with log := (core n s).log ++ [(key, v)] } s)

/-- Byte k of word address a in a pass's own store buffer: the newest entry that holds it (R354). -/
def bufByte (a k : Nat) (p : Pass) : Option Nat :=
  (p.buf.find? fun e => e.addr == a && bit e.mask k).map fun e => e.data / 256 ^ k % 256

/-- A pass's load of `size` bytes: the cause of the exception, or the value, zero-extended (R345, R353, R354). -/
def rvLoad (n : Fin 4) (passB : Bool) (a size : Nat) (p : Pass) (s : State) : Except Nat Nat × Pass × State :=
  if a % size ≠ 0 then (.error 4, p, s)
  else if regionOf a = .none ∨ !pmpOk (dataUser p) a size 0 p then (.error 5, p, s)
  else
    let w := a / 4 * 4
    let need := (List.range size).map (a % 4 + ·)
    let own := need.all fun k => (bufByte w k p).isSome
    let (v, p, s) : Nat × Pass × State :=
      if own then (0, p, s)
      else match regionOf a with
        | .itcm => ((tget 0 (core n s).itcm (w / 4)).toNat, p, s)
        | .dtcm => ((tget 0 (core n s).dtcm (regionOff w / 4)).toNat, p, s)
        | _ => sampled n passB a (outerLoad n w size) p s
    (.ok ((need.map fun k => ((bufByte w k p).getD (v / 256 ^ k % 256)) * 256 ^ (k - a % 4)).sum), p, s)

/-- A pass's store of the low `size` bytes of v: the cause of the exception, or a further store-buffer entry (R354). -/
def rvStore (a size v : Nat) (p : Pass) : Except Nat Unit × Pass :=
  if a % size ≠ 0 then (.error 6, p)
  else if regionOf a = .none ∨ regionOf a = .itcm ∨ !pmpOk (dataUser p) a size 1 p then (.error 7, p)
  else
    let k := a % 4
    (.ok (), { p with buf := ⟨a / 4 * 4, v % 256 ^ size * 256 ^ k, (2 ^ size - 1) * 2 ^ k⟩ :: p.buf })

/-! ### Exceptions and returns -/

/-- Take an exception or interrupt (the RISC-V standard that R344 names): cause and value are saved, the pc and the mode
too, and the pc goes to the trap vector; an interrupt adds its number in vectored mode. -/
def rvTrap (intr : Bool) (cause tval : Nat) (p : Pass) : Pass :=
  let st := p.csr 0x300
  let st' := putBits (putBits (putBits st 7 1 (bits st 3 1)) 3 1 0) 11 2 (if p.ctx.user then 0 else 3)
  let v := p.csr 0x305
  let target := v / 4 * 4 + (if intr ∧ v % 4 = 1 then 4 * cause else 0)
  let q := p.csrPut 0x341 p.ctx.pc |>.csrPut 0x342 (cause + if intr then 2 ^ 31 else 0) |>.csrPut 0x343 tval |>.csrPut 0x300 st'
  { q with ctx := { q.ctx with pc := target % 2 ^ 32, user := false } }

/-- MRET. -/
def rvReturn (p : Pass) : Pass :=
  let st := p.csr 0x300
  let user := bits st 11 2 == 0
  let st' := putBits (putBits (putBits st 3 1 (bits st 7 1)) 7 1 1) 11 2 0
  let q := p.csrPut 0x300 (if user then putBits st' 17 1 0 else st')
  { q with ctx := { q.ctx with pc := p.csr 0x341, user := user } }

/-! ### One instruction -/

/-- The bytes of the instruction at a: they lie in ITCM, the only region that is fetched from (R345). -/
def rvFetch (n a : Nat) (p : Pass) (s : State) : Option Nat :=
  let half := fun a => (tget 0 (core n s).itcm (a / 4)).toNat / 256 ^ (a % 4) % 65536
  let ok := fun a => regionOf a == .itcm && pmpOk p.ctx.user a 2 2 p
  if !ok a then none
  else if half a % 4 = 3 then (if ok (a + 2) then some (half a + 65536 * half (a + 2)) else none)
  else some (half a)

/-- The pc moves on. -/
def Pass.goto (a : Nat) (p : Pass) : Pass := { p with ctx := { p.ctx with pc := a % 2 ^ 32 } }
/-- The slice ends in this pass (R351). -/
def Pass.stop (wfi : Bool) (p : Pass) : Pass := { p with ended := true, wfi := wfi }

/-- Read CSR k: none where it does not exist or the mode may not. -/
def csrRead (n : Nat) (passB : Bool) (k : Nat) (p : Pass) (s : State) : Option (Nat × Pass × State) :=
  if p.ctx.user && bits k 8 2 == 3 then none
  else if csrSampled k then some (sampled n passB k (fun s => let (v, s) := fresh s; (v % 2 ^ 32, s)) p s)
  else match csrConst n k with
    | some v => some (v, p, s)
    | none => if ctlCsrs.contains k then some (p.csr k, p, s) else none

/-- Whether CSR k may be written in the pass's mode. -/
def csrWritable (k : Nat) (p : Pass) : Bool :=
  !(p.ctx.user && bits k 8 2 == 3) && bits k 10 2 != 3 && (ctlCsrs.contains k || k == 0x344 || k == 0x301)

/-- Write CSR k: mip and misa keep what they hold. -/
def csrWrite (k v : Nat) (p : Pass) : Pass := if k = 0x344 ∨ k = 0x301 then p else p.csrPut k (csrKeep k v p)

/-- A Zicsr instruction (f3: CSRRW 1, CSRRS 2, CSRRC 3, and 5 to 7 with an immediate). -/
def rvCsr (n : Nat) (passB : Bool) (f3 rd rs1 k w next : Nat) (p : Pass) (s : State) : Pass × State :=
  let src := if 4 ≤ f3 then rs1 else plain passB (p.get rs1)
  let op := f3 % 4
  let writes := op = 1 ∨ rs1 ≠ 0
  let reads := op ≠ 1 ∨ rd ≠ 0
  if (writes ∧ !csrWritable k p) then (rvTrap false 2 w p, s)
  else match (if reads then csrRead n passB k p s else some (0, p, s)) with
    | none => (rvTrap false 2 w p, s)
    | some (old, p, s) =>
      let new := if op = 1 then src else if op = 2 then old ||| src else clearBits old src
      let p := if writes then csrWrite k new p else p
      ((if reads then p.put passB rd (held passB old) else p).goto next, s)

/-- The effect of a decoded instruction of `len` bytes (R344, R345, R352). -/
def rvExec (n : Fin 4) (passB : Bool) (i : Rv) (w len : Nat) (p : Pass) (s : State) : Pass × State :=
  let pc := p.ctx.pc
  let next := pc + len
  match i with
  | .lui rd imm => ((p.put passB rd (held passB imm)).goto next, s)
  | .auipc rd imm => ((p.put passB rd (alu passB .add (held passB pc) (held passB imm))).goto next, s)
  | .jal rd imm => ((p.put passB rd (held passB next)).goto (pc + imm), s)
  | .jalr rd rs1 imm =>
    let t := plain passB (alu passB .add (p.get rs1) (held passB imm)) / 2 * 2
    ((p.put passB rd (held passB next)).goto t, s)
  | .branch f3 rs1 rs2 imm => (p.goto (if branchTaken passB f3 (p.get rs1) (p.get rs2) then pc + imm else next), s)
  | .load f3 rd rs1 imm =>
    let a := plain passB (alu passB .add (p.get rs1) (held passB imm))
    match rvLoad n passB a (2 ^ (f3 % 4)) p s with
    | (.error c, p, s) => (rvTrap false c a p, s)
    | (.ok v, p, s) => ((p.put passB rd (held passB (if f3 < 2 then sx (8 * 2 ^ f3) v else v))).goto next, s)
  | .store f3 rs1 rs2 imm =>
    let a := plain passB (alu passB .add (p.get rs1) (held passB imm))
    match rvStore a (2 ^ f3) (plain passB (p.get rs2)) p with
    | (.error c, p) => (rvTrap false c a p, s)
    | (.ok _, p) => (p.goto next, s)
  | .opImm op rd rs1 imm => ((p.put passB rd (alu passB op (p.get rs1) (held passB imm))).goto next, s)
  | .op op rd rs1 rs2 => ((p.put passB rd (alu passB op (p.get rs1) (p.get rs2))).goto next, s)
  | .fence => (p.goto next, s)
  | .ecall => ((rvTrap false (if p.ctx.user then 8 else 11) 0 p).stop false, s)
  | .ebreak => (rvTrap false 3 pc p, s)
  | .mret => if p.ctx.user then (rvTrap false 2 w p, s) else (rvReturn p, s)
  | .wfi => ((p.goto next).stop true, s)
  | .csr f3 rd rs1 k => rvCsr n passB f3 rd rs1 k w next p s
  | .illegal => (rvTrap false 2 w p, s)

/-- One instruction retires in a pass. -/
def rvStep (n : Fin 4) (passB : Bool) (p : Pass) (s : State) : Pass × State :=
  let p := { p with n := p.n + 1 }
  match rvFetch n p.ctx.pc p s with
  | none => (rvTrap false 1 p.ctx.pc p, s)
  | some w => let (i, len) := rvDecode w; rvExec n passB i w len p s

/-! ### Signatures (R355) -/

/-- The 64-bit commit signature over a list of bytes. -/
def ctlCrc (l : List Byte) : Nat := crc 64 0x42F0E1EBA9EA3693 (2 ^ 64 - 1) false 0 l

/-- The bytes that a pass's signature covers, in order: stores, x1 to x31 and the pc, the CSRs. -/
def passBytes (passB : Bool) (p : Pass) : List Byte :=
  (p.buf.reverse.flatMap fun e => leBytes 4 e.addr ++ leBytes 4 e.data ++ leBytes 1 e.mask)
    ++ ((List.range 31).flatMap fun r => leBytes 4 (plain passB (p.get (r + 1)))) ++ leBytes 4 p.ctx.pc
    ++ (ctlCsrs.flatMap fun k => leBytes 4 (p.csr k))

/-- A pass's commit signature. -/
def passSig (passB : Bool) (p : Pass) : Nat := ctlCrc (passBytes passB p)

end Sys2Proof.Machine
end

