-- ==== Sys2Proof/Machine/Ctl.lean ====
section
/-! DEFINITION. Windows, slices, commits, reruns and fences of the control cores, and their debugger
(10_control_cores_counterproof.md, R346–R363; R525). -/

namespace Sys2Proof.Machine

/-! ### Pushing frames (R139, R346) -/

/-- A push of core n that is ignored (R346): counted in the slot's record. -/
def pushRefused (n : Nat) (s : State) : State :=
  let k := rd (F.CTL_CCn_STAT_SLOT.u n) s
  taskSet n k { task n k s with refused := min 255 ((task n k s).refused + 1) } s

/-- A store of v to PUSH_h (R137, R139, R346): the holder's frame gets a further entry in the queue named, or, bound for a
stipple-reserved queue, is written again into reserved cells (R125); bit 16 keeps the holder. -/
def pushPort (n h v : Nat) (s : State) : State :=
  let q := v % 65536
  match tfind (core n s).holders h with
  | none => s
  | some f =>
    let y := fr f s
    let done := fun s => if bit v 16 then s else holderRelease n h s
    if isRsvQueue q then
      match submitAs true 9 { data := y.data, src := y.src, ts := y.ts, cls := y.cls, vlan := y.vlan, stream := y.stream,
                                user := y.user, noEvict := y.noEvict, tsReq := y.tsReq, pdu := y.pdu, lookup := directedKind, untag := true,
                                rsv := true, dests := [(q, false, 0)] } s with
      | (some _, s) => done s
      | (none, s) => pushRefused n s
    else if 768 ≤ q then pushRefused n s
    else match linkMore f q s with
      | (false, s) => pushRefused n s
      | (true, s) => done s

/-- PUSH_H (R346): while FN9's staging is full, a frame that must be written waits (R127). -/
def execPushH (n : Fin 4) (h : Fin 16) (v : Word) (s : State) : Res :=
  .next (if (core n s).fenced || !domRuns .ctl s || (isRsvQueue (v.toNat % 65536) && sourceWaits true 9 s) then s else pushPort n h v.toNat s)

/-! ### Committed outputs (R345, R354, R356) -/

/-- A memory word with the masked bytes of v. -/
def maskWord (old v mask : Nat) : Word :=
  BitVec.ofNat 32 ((List.range 4).map fun k => (if bit mask k then v / 256 ^ k % 256 else old / 256 ^ k % 256) * 256 ^ k).sum

/-- A store to the queue ports. -/
def portStore (n o v : Nat) (s : State) : State :=
  if 0x800 ≤ o ∧ o < 0xC00 then
    let h := (o - 0x800) / 0x40
    if (o - 0x800) % 0x40 = 0x20 then pushPort n h v s
    else if (o - 0x800) % 0x40 = 0x24 then holderRelease n h s else s
  else s

/-- A store to the signal window: whole words; a core's part of a word leaves the word's other bytes. -/
def sigStore (n : Fin 4) (o v mask : Nat) (s : State) : State :=
  let old := leNat ((List.range 4).map fun k => BitVec.ofNat 8 (sigWinByte (o + k) s))
  (sigWinWrite (.core n) o (leBytes 4 (maskWord old v mask).toNat) s).2

/-- One entry of the store buffer drains (R356). -/
def coreOut (n : Fin 4) (e : StoreEnt) (s : State) : State := match regionOf e.addr with
  | .dtcm =>
    let i := regionOff e.addr / 4
    coreSet n { core n s with dtcm := tset 0 (core n s).dtcm i (maskWord (tget 0 (core n s).dtcm i).toNat e.data e.mask) } s
  | .shared =>
    let i := regionOff e.addr / 4
    { s with ctl := { s.ctl with shared := tset 0 s.ctl.shared i (maskWord (tget 0 s.ctl.shared i).toNat e.data e.mask) } }
  | .ports => portStore n (regionOff e.addr) e.data s
  | .device => (regWriteBase (.core n) (regionOff e.addr) e.data e.mask s).2
  | .signal => sigStore n (regionOff e.addr) e.data e.mask s
  | _ => s

/-! ### Debug (R363, R525) -/

/-- Counterproof is suspended while the debugger holds the core or has a breakpoint in it; evaluated at a checkpoint. -/
def dbgCheckpoint (n : Nat) (s : State) : State :=
  let c := core n s
  let open_ := bit (rd F.CTL_DEBUG_OPEN s) n
  let halted := c.halted || (c.haltReq && open_)
  let want := halted || (open_ && rdB (F.DBG_CCn_BP_EN.u n) s)
  let s := coreSet n { c with halted := halted, haltReq := false, suspended := want } s
  if want = c.suspended then s
  else (when want (wrB (F.CTL_CCn_STAT_UNVERIFIED.u n) true) s) |> record 0x0702 n (b2n want)

/-- The core halts at its breakpoint (R525). -/
def bpHalt (n : Nat) (s : State) : State :=
  let c := core n s
  wrB (F.DBG_CCn_STAT_BP_HIT.u n) true (coreSet n { c with halted := true, haltReq := false } s)

/-- A pass stands at the breakpoint of core n. -/
def atBp (n : Nat) (p : Pass) (s : State) : Bool :=
  bit (rd F.CTL_DEBUG_OPEN s) n && rdB (F.DBG_CCn_BP_EN.u n) s && p.ctx.pc == 2 * rd (F.DBG_CCn_BP_ADDR.u n) s

/-! ### Slices (R349–R356) -/

/-- The slot of the window that began last. -/
def curSlot (n : Nat) (s : State) : Nat := match (core n s).cur with
  | some i => winN i 7 1 s
  | none => 0

/-- The pass at its checkpoint (R350, R351): after a wait its outcome is the first entry of the log; the pending set is
sampled, and an enabled interrupt is taken. -/
def passBegin (n : Nat) (passB : Bool) (ctx : CoreCtx) (s : State) : Pass × State :=
  let p : Pass := { ctx := if passB then { ctx with regs := tmap (fun _ v => shiftIn v) ctx.regs } else ctx }
  let (p, s) := match (task n (curSlot n s) s).outcome with
    | some o => (sampled n passB 0x800 (fun s => (o, s)) p s).2
    | none => (p, s)
  let (v, p, s) := sampled n passB 0x344 (fun s => let (v, s) := fresh s; (v % 2 ^ 32, s)) p s
  let pend := v &&& p.csr 0x304
  let on := p.ctx.user || bit (p.csr 0x300) 3
  match (if on then ([11, 3, 7] ++ (List.range 32)).find? (bit pend) else none) with
  | some c => (rvTrap true c 0 p, s)
  | none => (p, s)

/-- Pass A may go on: it has not ended, and neither the slice limit, the store buffer nor the sample log is reached (R351). -/
def passRuns (n k : Nat) (p : Pass) (s : State) : Bool :=
  !p.ended && decide (p.n < slotN n k 8 4 s) && decide (p.buf.length < 256) && decide ((core n s).log.length < 64)

/-- Pass A of slot k until it ends or stands at the breakpoint; at most `fuel` instructions. -/
def runA (n : Fin 4) (k : Nat) : Nat → Pass → State → Pass × State
  | 0, p, s => (p, s)
  | fuel + 1, p, s =>
    if passRuns n k p s then
      let (p, s) := rvStep n false p s
      if atBp n p s then (p, s) else runA n k fuel p s
    else (p, s)

/-- Pass B for `fuel` more instructions. -/
def runB (n : Fin 4) : Nat → Pass → State → Pass × State
  | 0, p, s => (p, s)
  | fuel + 1, p, s => let (p, s) := rvStep n true p s; runB n fuel p s

/-- The slice's result (R351): none while it still runs, and what the comparison of both passes says: no cause, or the cause
of a mismatch less one: 0 signature, 1 pass-B form, 2 replay address. -/
def sliceVerdict (a b : Pass) : Option Nat :=
  if a.bad then some 2
  else if b.bad then (if (List.range 31).any fun r => !formOk (b.get (r + 1)) then some 1 else some 2)
  else if passSig false a = passSig true b then none else some 0

/-- The slice ends: both passes and the sample log are gone. -/
def sliceClear (n : Nat) (s : State) : State := coreSet n { core n s with a := none, b := none, log := [] } s

/-- The cycles of a slice whose passes take a and b, and which drains n stores (R357): of pass A alone while counterproof is
suspended (R363), of both passes, or of both with their rerun. -/
def sliceCycles (suspended again : Bool) (a b n : Nat) : Nat :=
  if suspended then a + n else if again then a + 24 + b + 48 + 24 + a + 24 + b + 48 + n else a + 24 + b + 48 + n

/-- The slice of slot k commits (R350, R356): its stores drain in order, the end state is the next checkpoint, a WFI begins
its wait. The passes' cycles are free values (R357); the slice's time is kept (R505). -/
def sliceCommit (n : Fin 4) (k : Nat) (again : Bool) (p : Pass) (s : State) : State :=
  let (ca, s) := fresh s
  let (cb, s) := fresh s
  let cycles := min (sliceCycles (core n s).suspended again ca cb p.buf.length) 0xFFFFFFFF
  let s := s |> histAdd 19 64 (5 * cycles * clockDiv s / 6) |> extreme 6 cycles
  let s := each p.buf.reverse (coreOut n) (sliceClear n s)
  let t := task n k s
  let s := taskSet n k { t with ctx := p.ctx, outcome := none, commits := min (t.commits + 1) 0xFFFFFFFF,
                                longest := max t.longest cycles } s
  let s := s |> incWrap (F.CTL_CCn_COMMITS_COUNT.u n) |> markMax (F.CTL_CCn_SLICE_MAX_CYCLES.u n) cycles
  let s := if p.wfi then waitBegin n k (p.csr 0x800 % 256) (p.csr 0x801) s else s
  dbgCheckpoint n s

/-! ### Fences (R361, R362) -/

/-- The safe-state action of a slot (R361). -/
def safeAction (n k : Nat) (s : State) : State := match slotN n k 4 1 s with
  | 0 => taskSet n k { task n k s with st := 3 } (coreSet n { core n s with held := sins (core n s).held k } s)
  | 1 => s
  | 2 => gateSilent 3 (assertFault s)
  | _ => requestReset .fence s

/-- Core n is fenced (R361, R362): it stops, its slices are discarded, its frames released and its waits left; a second fence
within 60 s is a domain fault. -/
def coreFence (n cause : Nat) (s : State) : State :=
  let k := curSlot n s
  let s := each (List.range 16) (fun h => holderRelease n h) (sliceClear n s)
  let s := each (List.range 16) (fun j => coreUnwait n j) s
  let again := (core n s).fences.any fun t => decide (s.time.loc < t + 60000000000)
  let s := coreSet n { core n s with fenced := true, cur := none, fences := (s.time.loc :: (core n s).fences).take 2 } s
  let s := s |> inc (F.CTL_CCn_FENCE_FENCES.u n) |> wr (F.CTL_CCn_FENCE_SLOT.u n) k |> wr (F.CTL_CCn_FENCE_CAUSE.u n) cause
    |> record 0x0701 (16 * n + k) cause
  let s := if n = 0 then each ((List.range 4).filter fun d => domState d s == 2) toHoldover s else s
  when again (domainFault .ctl) (safeAction n k s)

/-- A slice's passes have disagreed (R356). -/
def sliceRerun (n k cause : Nat) (s : State) : State :=
  let t := task n k s
  taskSet n k { t with reruns := min (t.reruns + 1) 0xFFFF } s
    |> inc (F.CTL_CCn_RERUN_RERUNS.u n) |> wr (F.CTL_CCn_RERUN_SLOT.u n) k |> wr (F.CTL_CCn_RERUN_CAUSE.u n) (cause + 1)
    |> record 0x0700 (16 * n + k) (cause + 1)

/-- Pass B of a slice whose pass A has ended, from where it stands. -/
def finishB (n : Fin 4) (k : Nat) (a : Pass) (s : State) : Pass × State :=
  let (b, s) := match (core n s).b with
    | some b => (b, s)
    | none => passBegin n true (task n k s).ctx s
  runB n (a.n - b.n) b s

/-- The rerun of a slice (R356): both passes again from the checkpoint, with the sample log. -/
def rerun (n : Fin 4) (k : Nat) (s : State) : Pass × Option Nat × State :=
  let (a, s) := passBegin n false (task n k s).ctx s
  let (a, s) := runA n k (slotN n k 8 4 s) a s
  let (b, s) := passBegin n true (task n k s).ctx s
  let (b, s) := runB n a.n b s
  (a, sliceVerdict a b, s)

/-- The first verdict of a slice: the upset's own, else what the comparison of the passes finds (R354, R356). -/
def firstVerdict (u : SliceUpset) (a b : Pass) : Option Nat := match u with
  | .mismatch _ c => some c.val
  | _ => sliceVerdict a b

/-- Whether the rerun disagrees as well (R357). -/
def againVerdict (u : SliceUpset) (v : Option Nat) : Bool := match u with
  | .mismatch again _ => again || v.isSome
  | _ => v.isSome

/-- The rerun of a slice whose passes disagreed: a second disagreement fences the core, agreement commits (R357). -/
def sliceAgain (n : Fin 4) (k c : Nat) (u : SliceUpset) (s : State) : State :=
  let (a, v, s) := rerun n k (sliceRerun n k c (coreSet n { core n s with a := none, b := none } s))
  if againVerdict u v then coreFence n 1 s else sliceCommit n k true a s

/-- The comparison at the end of a slice, with what disturbs it (R355–R361). -/
def sliceEnd (n : Fin 4) (k : Nat) (u : SliceUpset) (a : Pass) (s : State) : State :=
  let (b, s) := finishB n k a s
  if u = .comparator ∧ slotN n k 3 1 s = 1 then coreFence n 2 s
  else match firstVerdict u a b with
    | none => sliceCommit n k false a s
    | some c => sliceAgain n k c u s

/-- The core may run slot k in the window that runs (R349, R363): it is ready and enabled; while counterproof is suspended a
Class S slot is not scheduled. -/
def slotRuns (n k : Nat) (s : State) : Bool :=
  (task n k s).st == 1 && slotOn n k s && !((core n s).suspended && slotN n k 3 1 s == 1)

/-- A slice fits in what remains of window i: the declared worst case in cycles of 5/6 ns at the present divisor (R349). -/
def sliceFits (n k i : Nat) (s : State) : Bool := match winLeft n i s with
  | some left => decide (5 * slotN n k 12 4 s * clockDiv s ≤ 6 * left)
  | none => false

/-- The slice of slot k runs from where its passes stand to its end. -/
def sliceRun (n : Fin 4) (k : Nat) (u : SliceUpset) (s : State) : State :=
  let (a, s) := match (core n s).a with
    | some a => (a, s)
    | none => passBegin n false (task n k s).ctx s
  let (a, s) := runA n k (slotN n k 8 4 s) a s
  let s := coreSet n { core n s with a := some a } s
  let s := when (u == .corrected) (inc (F.CTL_CCn_ECC_CORR.u n)) s
  if atBp n a s && passRuns n k a s then bpHalt n s
  else if (core n s).suspended then sliceCommit n k false a s
  else sliceEnd n k u a s

/-- The control domain has its clock (R24). -/
def ctlClocked (s : State) : Bool := decide (s.pwr.mode ≤ 1)

/-- SLICE (R349, R351, R356): a slice that runs goes on to its end; otherwise one starts when the window leaves the time for
it, else it is skipped. An ITCM error fences the core. -/
def execSlice (n : Fin 4) (u : SliceUpset) (s : State) : Res :=
  .next (
    let c := core n s
    let k := curSlot n s
    if c.fenced || c.halted || !ctlClocked s then s
    else if u = .itcm then (if (winNow n s).isSome && slotRuns n k s then coreFence n 3 s else s)
    else if c.a.isSome then sliceRun n k u s
    else match winNow n s with
      | none => s
      | some i =>
        if !slotRuns n k s then s
        else if sliceFits n k i s then sliceRun n k u s
        else
          let t := task n k s
          inc (F.CTL_CCn_SKIP_COUNT.u n) (taskSet n k { t with skips := min (t.skips + 1) 0xFFFF } s))

/-- One instruction of the slice of core n (R351, R352): in pass A until it ends, then in pass B; a slice starts when one
may. -/
def oneInstr (n : Fin 4) (s : State) : State :=
  let c := core n s
  let k := curSlot n s
  if c.fenced || c.halted || !ctlClocked s then s
  else match c.a with
    | some a =>
      if passRuns n k a s then
        let (a, s) := rvStep n false a s
        let s := coreSet n { core n s with a := some a } s
        if atBp n a s then bpHalt n s else s
      else
        let (b, s) := match c.b with
          | some b => (b, s)
          | none => passBegin n true (task n k s).ctx s
        let (b, s) := if b.n < a.n then rvStep n true b s else (b, s)
        coreSet n { core n s with b := some b } s
    | none => match winNow n s with
      | none => s
      | some i =>
        if slotRuns n k s && sliceFits n k i s then
          let (a, s) := passBegin n false (task n k s).ctx s
          let (a, s) := rvStep n false a s
          let s := coreSet n { core n s with a := some a } s
          if atBp n a s then bpHalt n s else s
        else s

/-- RV32IMC_INSTRUCTION (R344, R352). -/
def execRv32imcInstruction (n : Fin 4) (s : State) : Res := .next (oneInstr n s)

/-- The instruction that the running task executes next in pass A, or at its checkpoint. -/
def nextInstr (n : Nat) (s : State) : Option Rv :=
  let p : Pass := match (core n s).a with
    | some p => p
    | none => { ctx := (task n (curSlot n s) s).ctx }
  if p.ended then none else (rvFetch n p.ctx.pc p s).map fun w => (rvDecode w).1

/-- WFI (R350, R351): the task's next instruction ends the slice, which goes on to its commit and the wait. -/
def execWfi (n : Fin 4) (s : State) : Res :=
  .next (if nextInstr n s = some .wfi then
    let s := oneInstr n s
    if (core n s).a.isSome && !(core n s).halted then sliceRun n (curSlot n s) .clean s else s
  else s)

/-- ECALL (R351): the task's next instruction traps and ends the slice. -/
def execEcall (n : Fin 4) (s : State) : Res :=
  .next (if nextInstr n s = some .ecall then
    let s := oneInstr n s
    if (core n s).a.isSome && !(core n s).halted then sliceRun n (curSlot n s) .clean s else s
  else s)

/-- WINDOW (R348, R349): the window of the record begins; never while a slice runs, nor on a fenced core. -/
def execWindow (n : Fin 4) (w : Fin 128) (s : State) : Res :=
  .next (if (core n s).fenced || (core n s).a.isSome || !ctlClocked s || !(winsOf n s).contains w.val
      || (winLeft n w s).isNone then s
    else
      let s := coreSet n { core n s with cur := some w.val } s
      s |> wr (F.CTL_CCn_STAT_SLOT.u n) (winN w 7 1 s) |> wr (F.CTL_CCn_STAT_WINDOW.u n) (((winsOf n s).idxOf w.val)))

/-- POP_TIMEOUT (R29, R154): the wait on an empty queue ends with "empty", counted. -/
def execPopTimeout (w : Waiter) (s : State) : Res :=
  .next (match w with
    | .gv e c =>
      let x := ctx e c s
      match x.stall with
      | .queue _ =>
        if !waitOverdue x.until_ s then s
        else ctxSet e c { (x.put x.dreg 1) with st := 1, stall := .none } (inc F.QM_POP_TIMEOUT_COUNT (leaveWait e c x s))
      | _ => s
    | .cc n slot => waitExpire n slot s)

/-! ### Images (R347, R360, R362, R365) -/

/-- Words written from byte offset o into a memory of words. -/
def memFill (o : Nat) (b : List Byte) (t : Tbl Word) : Tbl Word :=
  (List.range ((b.length + 3 + o % 4) / 4)).foldl (fun t i =>
    let a := o / 4 + i
    let v := ((List.range 4).map fun k =>
      let j := 4 * a + k
      (if o ≤ j ∧ j < o + b.length then byteAt b (j - o) else (tget 0 t a).toNat / 256 ^ k % 256) * 256 ^ k).sum
    tset 0 t a (BitVec.ofNat 32 v)) t

/-- An image loaded: its code into ITCM, its initial data into DTCM (R365). -/
def loadImage (b : List Byte) (c : Core) : Core :=
  { c with itcm := memFill (leAt b 4 4) (slice b 32 (leAt b 0 4)) c.itcm,
           dtcm := memFill (leAt b 12 4) (slice b (32 + leAt b 0 4) (leAt b 8 4)) c.dtcm }

/-- The images that the slots of core n name. -/
def coreImages (n : Nat) (s : State) : List Nat := ((slotsOn n s).map fun k => slotN n k 2 1 s).eraseDups

/-- The memories of core n are loaded and its slots start at their entry points in machine mode; a held slot stays stopped. -/
def coreStart (n : Nat) (keepHeld : Bool) (s : State) : State :=
  let held := if keepHeld then (core n s).held else []
  let c := (coreImages n s).foldl (fun c i => loadImage (cfgRec C.ctlImg i s) c) { core n s with itcm := [], dtcm := [] }
  let s := coreSet n { c with cur := none, a := none, b := none, log := [], fenced := false, held := held } s
  each (slotsOn n s) (fun k s =>
    let t := task n k s
    taskSet n k (if held.contains k then { t with st := 3 }
      else { t with st := 1, ctx := { pc := slotN n k 24 4 s }, waitQ := 0, outcome := none }) s) s

/-- The test of R360 on core n: TESTED and PASSED, and SELFTEST_FAIL. -/
def coreTested (n : Nat) (ok : Bool) (s : State) : State :=
  s |> wr F.CTL_SELFTEST_TESTED (putBit (rd F.CTL_SELFTEST_TESTED s) n true)
    |> wr F.CTL_SELFTEST_PASSED (putBit (rd F.CTL_SELFTEST_PASSED s) n ok) |> wrB (F.CTL_CCn_STAT_SELFTEST_FAIL.u n) (!ok)

/-! ### The debugger (R525) -/

/-- A halt request: at once when no slice runs, else at the slice's end (R358, R525). -/
def dbgHalt (n : Nat) (s : State) : State :=
  let s := coreSet n { core n s with haltReq := true } s
  if (core n s).a.isSome then s else dbgCheckpoint n s

/-- One instruction of a halted core (R363, R525): pass A only; it goes on in the slice that was stopped, or is a slice of its
own. -/
def dbgStep (n : Fin 4) (s : State) : State :=
  let k := curSlot n s
  let c := core n s
  if !c.halted || c.fenced || !slotOn n k s then s
  else match c.a with
    | some a =>
      let (a, s) := rvStep n false a s
      let s := coreSet n { core n s with a := some a } s
      if passRuns n k a s then s else sliceCommit n k false a s
    | none =>
      let (a, s) := passBegin n false (task n k s).ctx s
      let (a, s) := rvStep n false a s
      sliceCommit n k false a s

/-- A halted core runs again; counterproof resumes at the next checkpoint unless a breakpoint stands. -/
def dbgResume (n : Nat) (s : State) : State :=
  let s := coreSet n { core n s with halted := false, haltReq := false } s
  if (core n s).a.isSome then s else dbgCheckpoint n s

/-- Whether the debugger reaches core n (R363, R525). -/
def dbgOpen (n : Nat) (s : State) : Bool := bit (rd F.CTL_DEBUG_OPEN s) n

/-- A write of DBG_CCn_CTRL (R525): the key must stand in the same write. -/
def dbgCtrl (n : Fin 4) (v : Nat) (s : State) : Status × State :=
  if !dbgOpen n s then (.denied, s)
  else if v / 65536 ≠ 0xD3B6 then (.ok, s)
  else match v % 4 with
    | 1 => (.ok, dbgHalt n s)
    | 2 => (.ok, dbgStep n s)
    | 3 => (.ok, dbgResume n s)
    | _ => (.ok, s)

/-- A write of DBG_CCn_BP: enabling it suspends counterproof from the next checkpoint (R363). -/
def dbgBp (n : Nat) (v : Nat) (s : State) : Status × State :=
  if !dbgOpen n s then (.denied, s)
  else
    let s := s |> wr (F.DBG_CCn_BP_ADDR.u n) (v / 2) |> wr (F.DBG_CCn_BP_EN.u n) (v % 2)
    (.ok, if (core n s).a.isSome then s else dbgCheckpoint n s)

/-- A host's write to the DBG block at offset o of it (R515, R516, R525). -/
def dbgWrite (who : Initiator) (o v : Nat) (s : State) : Status × State :=
  if (hostOf who).isNone then (.ok, s)
  else if h : o / 256 < 4 then
    let n : Fin 4 := ⟨o / 256, h⟩
    if !dbgOpen n s then (.denied, s)
    else match o % 256 with
      | 0 => dbgCtrl n v s
      | 4 => (.ok, wr (F.DBG_CCn_STAT_BP_HIT.u n) (clearBits (rd (F.DBG_CCn_STAT_BP_HIT.u n) s) (bits v 30 1)) s)
      | 12 => dbgBp n v s
      | 16 => (.ok, s |> wr (F.DBG_CCn_SEL_SPACE.u n) (bits v 28 4) |> wr (F.DBG_CCn_SEL_INDEX.u n) (bits v 0 28))
      | _ => (.denied, s)
  else (.absent, s)

/-- A debug command takes effect when a host wrote it, with the command that the row names in CMD. -/
def dbgCommand (who : Initiator) (n : Fin 4) (cmd v : Nat) (s : State) : State :=
  hostWrite who (0x150000 + 256 * n) (fun s => if (hostOf who).isNone ∨ v % 4 ≠ cmd then (.ok, s) else dbgCtrl n v s) s

/-- HALT (R525). -/
def execHalt (who : Initiator) (n : Fin 4) (v : Word) (s : State) : Res := .next (dbgCommand who n 1 v.toNat s)
/-- STEP (R525). -/
def execStep (who : Initiator) (n : Fin 4) (v : Word) (s : State) : Res := .next (dbgCommand who n 2 v.toNat s)
/-- RESUME (R525). -/
def execResume (who : Initiator) (n : Fin 4) (v : Word) (s : State) : Res := .next (dbgCommand who n 3 v.toNat s)
/-- DBG_CCN_BP (R363, R525). -/
def execDbgCcnBp (who : Initiator) (n : Fin 4) (v : Word) (s : State) : Res :=
  .next (hostWrite who (0x15000C + 256 * n) (fun s => if (hostOf who).isNone then (.ok, s) else dbgBp n v.toNat s) s)
/-- BP_HIT (R525): the running core reaches its breakpoint address. -/
def execBpHit (n : Fin 4) (s : State) : Res :=
  .next (let p : Pass := match (core n s).a with
      | some p => p
      | none => { ctx := (task n (curSlot n s) s).ctx }
    if !(core n s).fenced && !(core n s).halted && (winNow n s).isSome && atBp n p s then bpHalt n s else s)

end Sys2Proof.Machine
end

