-- ==== Sys2Proof/Machine/FieldCommands.lean ====
section
/-! DEFINITION. What reaches the device on its field lines and links: received CAN frames, LIN and T1S wakes, link changes
(R204, R213, R231, R232, R234, R238, R241, R249, R270, R271, R434). -/

namespace Sys2Proof.Machine

/-- CAN_FRAME_RECEIVED (R238, R241, R253, R270): in STANDBY a channel with WAKE_RX listens for its decoders; otherwise a
channel that takes part on its bus receives. A guarded frame that the channel cancels is never received. -/
def execCanFrameReceived (ch : Fin 96) (r : CanRx) (s : State) : Res :=
  let f := r.frame
  guardWf (canFrameOk f) "CAN frame" (.next (
    if s.pwr.mode = 2 then
      if canMode ch s ≠ 0 ∧ canFlag ch 5 s = true ∧ canKnows ch f s = true ∧ domRuns .fld s = true then
        each (decFind ch f s) (fun i s =>
          s |> inc F.FLD_WAKE_STAT_MATCH |> wr F.FLD_WAKE_STAT_LAST i |> wakeReason 25 (cfgN C.canDec i 12 4 s) false) s
      else s
    else if 1 < s.pwr.mode ∨ canLive ch s = false ∨ (canCh ch s).asleep = true then s
    else if !canKnows ch f s then wr (F.FLD_CANnn_STAT_STATE.u ch) 1 s
    else if canCancels ch f s then s
    else canReceive ch f r.ago s))

/-- LIN_WAKE (R271): a dominant level of 150 µs to 5 ms in STANDBY. -/
def execLinWake (ch : Fin 32) (us : Nat) (s : State) : Res :=
  .next (if s.pwr.mode = 2 ∧ domRuns .fld s = true ∧ linMode ch s ≠ 0 ∧ bit (linN ch 1 1 s) 0 = true ∧ 150 ≤ us ∧ us ≤ 5000 then
    wakeReason 26 (linN ch 0x10 4 s) false s
  else s)

/-- WAKE_PATTERN (R231, R232): a burst that the detector accepts is a match, or is counted. -/
def execWakePattern (sg : Fin 16) (pat : WakeBurst) (s : State) : Res :=
  .next (if s.pwr.mode = 4 ∨ t1sMode sg s = 0 ∨ t1sFlag sg 2 s = false ∨ burstOk pat = false then s
  else match wakeGroups sg pat s with
    | some m => wakeReason (8 + sg) m false (inc (F.T1S_SGnn_WAKE_MATCH.u sg) s)
    | none => inc (F.T1S_SGnn_WAKE_NOMATCH.u sg) s)

/-- A ring link that comes up gets the wakes whose repeats are still to come (R434). -/
def wakeOnLink (port : Nat) (s : State) : State := match peerAt port s with
  | none => s
  | some i => each s.slp.repeats (fun x s =>
      almRing ((ringLinks s).filter (· != i)) 8 0 (wakeBody x.1 x.2.1 x.2.2.1) s) s

/-- LINK_CHANGE (R204, R213, R234): the in-band word or the PHY reports the link; without a speed that the port may run it
stays down. -/
def execLinkChange (port : Fin 16) (up : Bool) (speed : Option (Fin 5)) (s : State) : Res :=
  .next (if ethN port 0 1 s = 0 ∨ 1 < s.pwr.mode ∨ s.sys.domHeld.contains (Domain.num .sds) = true then s
  else match (if up then linkSpeed port (speed.map (·.val)) s else none) with
    | some sp =>
      let was := portUp port s
      let s := linkUp port sp s
      if was then s else wakeOnLink port s
    | none => linkDown port s)

end Sys2Proof.Machine
end

