-- ==== Sys2Proof/Machine/Plate.lean ====
section
/-! DEFINITION. The plate: flash bytes, header checks, the walk over the section TLVs, decryption, and how sections become
the records in force (02_start_up_and_plate.md, R50–R61, R68, R69, R548, R549). -/

namespace Sys2Proof.Machine

/-! ### Plate flash (R68, R69) -/

/-- A flash byte; an erased one reads 0xFF. -/
def flashByte (a : Nat) (s : State) : Byte := tget 0xFF s.sys.flash a
/-- n flash bytes from address a. -/
def flashBytes (a n : Nat) (s : State) : List Byte := (List.range n).map fun k => flashByte (a + k) s
/-- Program bytes from address a. -/
def flashPut (a : Nat) (b : List Byte) (s : State) : State :=
  { s with sys := { s.sys with flash := (List.range b.length).foldl (fun t k => tset 0xFF t (a + k) (BitVec.ofNat 8 (byteAt b k))) s.sys.flash } }
/-- Erase n bytes from address a. -/
def flashErase (a n : Nat) (s : State) : State :=
  { s with sys := { s.sys with flash := tfilter (fun k _ => k < a || a + n ≤ k) s.sys.flash } }
/-- The first address of a copy: false A, true B. -/
def copyBase (b : Bool) : Nat := if b then 0x1000000 else 0
/-- The bytes a copy may hold (R69). -/
def copyMax : Nat := 16773120
/-- The first address of the staging page. -/
def pageBase : Nat := 0x1FFF000

/-- The staging page's 0x34 bytes, when its magic and CRC-32 hold (R68). -/
def pageRead (s : State) : Option (List Byte) :=
  let p := flashBytes pageBase 0x34 s
  if leAt p 0 4 = 0x96165354 ∧ leAt p 0x30 4 = crc32 (p.take 0x30) then some p else none
/-- The staging page holds a request: the page. -/
def pageRequest (s : State) : Option (List Byte) := (pageRead s).bind fun p => if byteAt p 9 = 1 then some p else none
/-- The staging page's bytes (R68): magic, sequence, copy, request, result, reason, plate state, digest, CRC. -/
def pageBytes (seq : Nat) (copyB : Bool) (req result reason state : Nat) (digest : List Byte) : List Byte :=
  let b := leBytes 4 0x96165354 ++ leBytes 4 seq ++ ofNats [b2n copyB, req, result, reason] ++ leBytes 4 state ++ slice digest 0 32
  b ++ leBytes 4 (crc32 b)

/-- Write the staging page by page erase and program: staged copy, request, result, reason, plate state, digest. -/
def pageWrite (copyB : Bool) (req result reason state : Nat) (digest : List Byte) (s : State) : State :=
  let seq := match pageRead s with | some p => leAt p 4 4 + 1 | none => 1
  flashPut pageBase (pageBytes seq copyB req result reason state digest) (flashErase pageBase 4096 s)
    |> wrB F.SYS_STAGE_STAT_PENDING (req == 1)

/-- The page rewritten with request 0 and an outcome (R70). -/
def pageOutcome (result reason : Nat) (s : State) : State := match pageRead s with
  | none => s
  | some p => pageWrite (byteAt p 8 == 1) 0 result reason (leAt p 0xC 4) (slice p 0x10 32) s

/-! ### Header (R51–R53) -/

/-- A number of a plate header. -/
def hdrN (h : List Byte) (o w : Nat) : Nat := leAt h o w
/-- Bytes o to o + n − 1 are 0. -/
def zs (b : List Byte) (o n : Nat) : Bool := (slice b o n).all (· == 0)
/-- The plate verification key of signer i, if its slot holds a valid one (R53, R374, R375). -/
def signerKey (i : Nat) (s : State) : Option (List Byte) :=
  if i ≤ 3 ∧ slotBlocked (4 + i) s = false ∧ (slotKey (4 + i) s).any (fun c => bit c.attrs 8) then slotPublic (4 + i) s else none
/-- The checks of R53, in order: 0, or the code of R74 of the first that fails. -/
def headerCode (h : List Byte) (s : State) : Nat :=
  if hdrN h 0 4 ≠ 0x9616504C then 2
  else if hdrN h 4 2 ≠ 1 ∨ !zs h 0x5D 99 ∨ 8 ≤ hdrN h 6 2 then 3
  else if hdrN h 0xC 4 < hdrN h 0x10 4 ∨ 1048576 < hdrN h 0x14 4 ∨ hdrN h 0x14 4 % 16 ≠ 0 ∨ hdrN h 0x18 4 = 0
      ∨ 2048 < hdrN h 0x18 4 then 3
  else if !bit (hdrN h 8 4) 2 then 4
  else if bit (hdrN h 6 2) 2 ∧ lcState s ≠ 1 ∧ lcState s ≠ 4 then 5
  else match signerKey (byteAt h 0x5C) s with
    | none => 6
    | some pk =>
      if !ecdsaVerify pk (sha256 (h.take 0xC0)) (slice h 0xC0 64) then 7
      else if hdrN h 0xC 4 < s.mram.start.floor then 8 else 0

/-! ### The walk over the TLVs (R54–R57, R60) -/

/-- A section as the walk finds it: its type, whether it is encrypted, the first tweak, the content length, and the TLV's
bytes as stored. -/
structure Sec where
  type   : Nat
  enc    : Bool
  tweak  : Nat
  len    : Nat
  stored : List Byte
  early  : Bool
  deriving DecidableEq, Repr

/-- Section types that the 9616 knows (R56). -/
def secKnown (t : Nat) : Bool := decide (1 ≤ t) && decide (t ≤ 0x19)
/-- Section types permitted in the early range (R56). -/
def secEarly (t : Nat) : Bool := secKnown t && !(([0x04, 0x0A, 0x12, 0x13, 0x14, 0x15, 0x16, 0x17, 0x18, 0x19] : List Nat).contains t)

/-- Walk TLVs from pos until `stop`, at most n of them: the sections, how many TLVs are left, and the position; none when a
TLV breaks the format. Skipped sections of unknown types are kept with type 0. -/
def tlvWalk (get : Nat → Nat → List Byte) (early : Bool) (stop : Nat) : Nat → Nat → Option (List Sec × Nat × Nat)
  | 0, pos => some ([], 0, pos)
  | n + 1, pos =>
    if stop ≤ pos then some ([], n + 1, pos)
    else
      let h := get pos 16
      let t := leAt h 0 2
      let fl := leAt h 2 2
      let len := leAt h 4 4
      let fin := pos + 16 + cdiv len 16 * 16
      if copyMax < pos + 16 ∨ copyMax < fin then none
      else if 4 ≤ fl ∨ leAt h 12 4 ≠ 0 ∨ (!bit fl 0 ∧ leAt h 8 4 ≠ 0) then none
      else if early ∧ (stop < fin ∨ !secEarly t) then none
      else if !secKnown t ∧ !bit fl 1 then none
      else
        let b := get pos (fin - pos)
        if !bit fl 0 ∧ !zs b (16 + len) (fin - pos - 16 - len) then none
        else match tlvWalk get early stop n fin with
          | none => none
          | some (r, m, e) => some (⟨if secKnown t then t else 0, bit fl 0, leAt h 8 4, len, b, early⟩ :: r, m, e)

/-- The tweaks of the encrypted sections: first and count (R60). -/
def tweaks (l : List Sec) : List (Nat × Nat) := (l.filter (·.enc)).map fun x => (x.tweak, cdiv (x.stored.length - 16) 4096)
/-- No two tweak ranges overlap (R60). -/
def tweaksOk : List (Nat × Nat) → Bool
  | [] => true
  | (a, n) :: r => r.all (fun x => a + n ≤ x.1 || x.1 + x.2 ≤ a || n == 0 || x.2 == 0) && tweaksOk r
/-- At most n sections of type t. -/
def atMost (n t : Nat) (l : List Sec) : Bool := decide ((l.filter (·.type == t)).length ≤ n)

/-- The early range (R57): its sections, the TLVs left and the position after it. -/
def walkEarly (base : Nat) (h : List Byte) (s : State) : Option (List Sec × Nat × Nat) :=
  let stop := 0x100 + hdrN h 0x14 4
  match tlvWalk (fun o n => flashBytes (base + o) n s) true stop (hdrN h 0x18 4) 0x100 with
  | none => none
  | some (l, n, e) =>
    if e = stop ∧ (l = [] ∨ (l.head?.any (·.type == 1)) = true) ∧ atMost 1 1 l ∧ atMost 1 0x10 l ∧ atMost 1 0x11 l ∧ tweaksOk (tweaks l)
    then some (l, n, e) else none

/-- The rest of the plate (R54–R57): its sections and the plate's length P. -/
def walkFull (base : Nat) (h : List Byte) (early : List Sec × Nat × Nat) (s : State) : Option (List Sec × Nat) :=
  match tlvWalk (fun o n => flashBytes (base + o) n s) false (copyMax + 1) early.2.1 early.2.2 with
  | none => none
  | some (l, _, e) =>
    let all := early.1 ++ l
    if all.head?.any (·.type == 1) ∧ atMost 1 1 all ∧ atMost 1 0x10 l ∧ atMost 1 0x11 l ∧ tweaksOk (tweaks all)
      ∧ (hdrN h 0x14 4 = 0 ∨ early.1 ≠ []) then some (l, e) else none

/-- The stored bytes of sections in order. -/
def storedBytes (l : List Sec) : List Byte := (l.map (·.stored)).flatten
/-- The early digest agrees (R51, R59). -/
def earlyDigestOk (h : List Byte) (early : List Sec) : Bool :=
  slice h 0x3C 32 == if hdrN h 0x14 4 = 0 then zeros 32 else sha256 (storedBytes early)
/-- The plate digest agrees (R51, R59). -/
def plateDigestOk (h : List Byte) (all : List Sec) : Bool := slice h 0x1C 32 == sha256 (storedBytes all)

/-- The plate key of KS001, unless the slot is empty, blocked or not usable by the plate loader (R60, R74, R374). -/
def plateKey (s : State) : Option (List Byte) := match slotKey 1 s with
  | some c => if slotBlocked 1 s || aSize c.attrs != 2 || !bit c.attrs 3 || !bit c.attrs 19 then none else some c.key
  | none => none
/-- The content of a section: an encrypted one is decrypted in 4 KiB units under consecutive tweaks (R60). -/
def secBody (key : List Byte) (x : Sec) : List Byte :=
  let c := x.stored.drop 16
  let c := if x.enc then
      ((List.range (cdiv c.length 4096)).map fun i => xts false key (leBytes 16 (x.tweak + i)) ((c.drop (4096 * i)).take 4096)).flatten
    else c
  c.take x.len
/-- The padding of encrypted sections is 0 before encryption (R54). -/
def padsOk (l : List Sec) (s : State) : Bool :=
  l.all fun x => !x.enc ||
    ((secBody ((plateKey s).getD []) { x with len := x.stored.length - 16 }).drop x.len).all (· == 0)
/-- Whether the sections can be read: without an encrypted one no key is needed (R74). -/
def readable (l : List Sec) (s : State) : Bool := !(l.any (·.enc)) || (plateKey s).isSome
/-- The sections as type and content, skipped ones left out. -/
def secBodies (l : List Sec) (s : State) : List (Nat × List Byte) :=
  (l.filter (·.type != 0)).map fun x => (x.type, secBody ((plateKey s).getD []) x)

/-! ### Records in force (R548, R549) -/

/-- The records of a plate by table and index. -/
abbrev Cfg := Tbl (List Byte)
/-- Record i of table t. -/
def cGet (t i : Nat) (c : Cfg) : List Byte := tget [] c (cfgKey t i)
/-- A field of it. -/
def cN (t i o w : Nat) (c : Cfg) : Nat := leAt (cGet t i c) o w
/-- Whether it exists. -/
def cHas (t i : Nat) (c : Cfg) : Bool := !(cGet t i c).isEmpty
/-- Record i of table t replaced. -/
def cPut (t i : Nat) (r : List Byte) (c : Cfg) : Cfg := tput c (cfgKey t i) r
/-- The indices of table t. -/
def cIdx (t : Nat) (c : Cfg) : List Nat := (c.filter fun e => e.1 / 2 ^ 160 == t).map fun e => e.1 % 2 ^ 160
/-- The records of table t whose index satisfies p are removed. -/
def cDrop (t : Nat) (p : Nat → Bool) (c : Cfg) : Cfg := tfilter (fun k _ => !(k / 2 ^ 160 == t && p (k % 2 ^ 160))) c
/-- n records of a size from offset o. -/
def recsAt (b : List Byte) (o size n : Nat) : List (Nat × List Byte) := (List.range n).map fun i => (i, slice b (o + i * size) size)
/-- Records by index from k on. -/
def cAll (t k : Nat) (l : List (Nat × List Byte)) (c : Cfg) : Cfg := l.foldl (fun c e => cPut t (k + e.1) e.2 c) c
/-- The records that are in use, by unit. -/
def cUse (t : Nat) (use : Nat → List Byte → Bool) (l : List (Nat × List Byte)) (c : Cfg) : Cfg :=
  cAll t 0 (l.filter fun e => use e.1 e.2) c
/-- A table replaced whole. -/
def cWhole (t : Nat) (use : Nat → List Byte → Bool) (l : List (Nat × List Byte)) (c : Cfg) : Cfg :=
  cUse t use l (cDrop t (fun _ => true) c)
/-- A list that belongs to a unit: it replaces the unit's earlier list. Unit u's entries have the indices u × 2^16 +
position. -/
def cList (t u : Nat) (l : List (List Byte)) (c : Cfg) : Cfg :=
  ((List.range l.length).zip l).foldl (fun c e => cPut t (u * 65536 + e.1) e.2 c) (cDrop t (fun i => i / 65536 == u) c)
/-- Bytes of a per-unit byte map: an entry of 0xFF is not in use. -/
def mapOver (old new : List Byte) (n : Nat) : List Byte :=
  (List.range n).map fun i => BitVec.ofNat 8 (if byteAt new i = 255 then (if i < old.length then byteAt old i else 255) else byteAt new i)

/-- TIME (R99, R549): whole. -/
def loadTime (b : List Byte) (c : Cfg) : Cfg :=
  c |> cPut C.timeHdr 0 (slice b 0 16) |> cWhole C.timeDom (fun d _ => bit (byteAt b 0) d) (recsAt b 16 32 4)
    |> cWhole C.timePort (fun _ _ => true) (recsAt b 144 16 32)
/-- STIPPLE (R122). -/
def loadStipple (b : List Byte) (c : Cfg) : Cfg :=
  c |> cUse C.stpPeriod (fun _ r => leAt r 0 4 != 0) (recsAt b 16 16 16) |> cAll C.stpEntry 0 (recsAt b 0x110 16 (leAt b 0 2))
/-- QUEUE (R159). -/
def loadQueue (b : List Byte) (c : Cfg) : Cfg :=
  c |> cPut C.queueHdr 0 (slice b 0 16) |> cAll C.queueProf 0 (recsAt b 16 8 16)
    |> cUse C.queueRec (fun _ r => bit (byteAt r 1) 0) (recsAt b 0x90 8 1024)
/-- The mode of Ethernet port p in the plate. -/
def portModeIn (p : Nat) (c : Cfg) : Nat := if p < 16 then cN C.ethPort p 0 1 c else cN C.t1s (p - 16) 0 1 c
/-- LOOKUP_L2 (R198). -/
def loadL2 (b : List Byte) (c : Cfg) : Cfg :=
  let nv := leAt b 0 2
  let ng := leAt b 2 2
  let o := 48 + 32 * 16
  let c := c |> cPut C.l2Hdr 0 (slice b 0 48) |> cUse C.l2Port (fun p _ => portModeIn p c != 0) (recsAt b 48 16 32)
  let c := (recsAt b o 16 nv).foldl (fun c e => cPut C.l2Vlan (leAt e.2 0 2) e.2 c) c
  let c := cAll C.l2Group 0 (recsAt b (o + 16 * nv) 8 ng) c
  (recsAt b (o + 16 * nv + 8 * ng) 16 (leAt b 4 2)).foldl (fun c e => cPut C.l2Fdb (beAt e.2 0 6 * 4096 + leAt e.2 6 2 % 4096) e.2 c) c
/-- The index of a route: prefix length, then the prefix with the bits beyond it cleared. -/
def routeKey (r : List Byte) : Nat :=
  let w := if byteAt r 0 = 4 then 32 else 128
  let n := min (byteAt r 1) w
  n * 2 ^ 128 + beAt r 8 (w / 8) / 2 ^ (w - n) * 2 ^ (w - n)
/-- LOOKUP_L3 (R199). -/
def loadL3 (b : List Byte) (c : Cfg) : Cfg :=
  let nh := leAt b 2 2
  let c := c |> cPut C.l3Hdr 0 (slice b 0 16) |> cAll C.l3Hop 0 (recsAt b 16 16 nh)
  (recsAt b (16 + 16 * nh) 24 (leAt b 0 2)).foldl
    (fun c e => cPut (if byteAt e.2 0 = 4 then C.l3V4 else C.l3V6) (routeKey e.2) e.2 c) c
/-- Whether containment unit u is kept (R189, R548). -/
def unitInUse (u : Nat) (r : List Byte) (c : Cfg) : Bool :=
  if u < 32 then bit (cN C.l2Port u 2 2 c) 5 else leAt r 0 2 != 0
/-- STREAM_POLICE (R200). -/
def loadStream (b : List Byte) (c : Cfg) : Cfg :=
  let n (k : Nat) := leAt b (2 * k) 2
  let p0 := 8 + 40 * (n 0 + n 1)
  c |> cAll C.spStream 0 (recsAt b 8 40 (n 0)) |> cAll (C.spStream + 1) 0 (recsAt b (8 + 40 * n 0) 40 (n 1))
    |> cAll C.spPolicer 0 (recsAt b p0 16 (n 2)) |> cAll (C.spPolicer + 1) 0 (recsAt b (p0 + 16 * n 2) 16 (n 3))
    |> cUse C.spUnit (unitInUse · · c) (recsAt b (p0 + 16 * (n 2 + n 3)) 24 33)
/-- ACL (R201). -/
def loadAcl (b : List Byte) (c : Cfg) : Cfg :=
  c |> cAll C.aclRule 0 (recsAt b 16 80 (leAt b 0 2)) |> cAll (C.aclRule + 1) 0 (recsAt b (16 + 80 * leAt b 0 2) 80 (leAt b 2 2))
/-- MIRROR (R202). -/
def loadMirror (b : List Byte) (c : Cfg) : Cfg := cUse C.mirror (fun _ r => bit (byteAt r 0) 0) (recsAt b 0 16 4) c
/-- Index of the record by a numeric condition, listed in order. -/
def recsWhere (l : List (Nat × List Byte)) (p : List Byte → Bool) : List (List Byte) := (l.map (·.2)).filter p
/-- ETH_PORT (R236). -/
def loadEth (b : List Byte) (c : Cfg) : Cfg :=
  let ng := leAt b 0 2
  let nr := leAt b 2 2
  let gates := recsAt b 0xA10 8 ng
  let mdio := recsAt b (0xA10 + 8 * ng + 16 * nr) 8 (leAt b 4 2)
  let c := cAll C.ethFrer (cIdx C.ethFrer c).length (recsAt b (0xA10 + 8 * ng) 16 nr) c
  (recsAt b 0x10 96 16).foldl (fun c e =>
    if byteAt e.2 0 = 0 then c
    else
      let g := recsWhere gates fun r => byteAt r 0 == e.1
      let c := c |> cPut C.ethPort e.1 e.2 |> cPut C.ethHash e.1 (slice b (0x610 + 64 * e.1) 64)
        |> cDrop C.ethGate (fun i => i / 256 == e.1)
      let c := ((List.range g.length).zip g).foldl (fun c x => cPut C.ethGate (256 * e.1 + x.1) x.2 c) c
      cList C.ethMdio e.1 (recsWhere mdio fun r => byteAt r 0 == e.1) c) c
/-- T1S (R237). -/
def loadT1s (b : List Byte) (c : Cfg) : Cfg := cUse C.t1s (fun _ r => byteAt r 0 != 0) (recsAt b 0 32 16) c
/-- CAN (R273). -/
def loadCan (b : List Byte) (c : Cfg) : Cfg :=
  let ne := leAt b 0 2
  let ents := recsAt b (16 + 48 * 96) 12 ne
  let c := cAll C.canDec 0 (recsAt b (16 + 48 * 96 + 12 * ne) 32 (leAt b 2 2)) c
  (recsAt b 16 48 96).foldl (fun c e =>
    if byteAt e.2 0 = 0 then c
    else cList C.canEnt e.1 (recsWhere ents fun r => byteAt r 0 == e.1) (cPut C.canCh e.1 e.2 c)) c
/-- LIN (R274). -/
def loadLin (b : List Byte) (c : Cfg) : Cfg :=
  let slots := recsAt b (16 + 96 * 32) 8 (leAt b 0 2)
  (recsAt b 16 96 32).foldl (fun c e =>
    if byteAt e.2 0 = 0 then c
    else cList C.linSlot e.1 (recsWhere slots fun r => byteAt r 0 == e.1) (cPut C.linCh e.1 e.2 c)) c
/-- The offsets of the parts of a SIGNAL section (R312): signals, PDUs, mappings, routes, carriers, templates, E2E,
authentication, snapshot sets, members, end. -/
def sigOffs (b : List Byte) : List Nat :=
  [(24, leAt b 0 4), (48, leAt b 8 2), (8, leAt b 0xA 2), (24, leAt b 0xC 2), (32, byteAt b 0xE), (32, byteAt b 0xF),
   (16, byteAt b 0x10), (16, byteAt b 0x11), (8, 64), (2, leAt b 4 4)].foldl (fun l e => l ++ [l.getLastD 0 + e.1 * e.2]) [192]
/-- A part of a SIGNAL section by index. -/
def sigPart (b : List Byte) (k size : Nat) : List (Nat × List Byte) :=
  let o := (sigOffs b).getD k 0
  recsAt b o size (((sigOffs b).getD (k + 1) 0 - o) / size)
/-- SIGNAL (R312): tables by index, the counts in force one above the highest index. -/
def loadSignal (b : List Byte) (c : Cfg) : Cfg :=
  let hdr := spliceAt (slice b 0 64) 0 (leBytes 4 (max (leAt b 0 4) (cN C.sigHdr 0 0 4 c)))
  c |> cPut C.sigHdr 0 hdr |> cPut C.sigChan 0 (mapOver (cGet C.sigChan 0 c) (slice b 64 128) 128)
    |> cAll C.sigDef 0 (sigPart b 0 24) |> cAll C.sigPdu 0 (sigPart b 1 48) |> cAll C.sigMap 0 (sigPart b 2 8)
    |> cAll C.sigRoute 0 (sigPart b 3 24) |> cAll C.sigCarrier 0 (sigPart b 4 32) |> cAll C.sigTempl 0 (sigPart b 5 32)
    |> cAll C.sigE2e 0 (sigPart b 6 16) |> cAll C.sigAuth 0 (sigPart b 7 16) |> cAll C.sigSnap 0 (sigPart b 8 8)
    |> cAll C.sigMember 0 (sigPart b 9 2)
/-- The images of a section from offset o: each as long as `size` says, padded to 16. -/
def imagesAt (size : List Byte → Nat) (b : List Byte) : Nat → Nat → List (List Byte)
  | 0, _ => []
  | n + 1, o =>
    let m := size (b.drop o)
    slice b o m :: imagesAt size b n (o + cdiv m 16 * 16)
/-- The bytes of a graver image (R342). -/
def grvImgLen (b : List Byte) : Nat := 48 + 4 * leAt b 0 2 + leAt b 2 2
/-- The bytes of a graver image as stored, padding included. -/
def grvImages (b : List Byte) : List (List Byte) := imagesAt grvImgLen b (byteAt b 0) (32 + cdiv (4 * byteAt b 1) 16 * 16)
/-- GRAVER_CODE (R342). -/
def loadGraver (b : List Byte) (c : Cfg) : Cfg :=
  let hdr := spliceAt (slice b 0 32) 4 (mapOver (slice (cGet C.grvHdr 0 c) 4 (if cHas C.grvHdr 0 c then 16 else 0)) (slice b 4 16) 16)
  let hdr := spliceAt hdr 1 (leBytes 1 (max (byteAt b 1) (cN C.grvHdr 0 1 1 c)))
  let imgs := grvImages b
  c |> cPut C.grvHdr 0 hdr |> cAll C.grvHook 0 (recsAt b 32 4 (byteAt b 1)) |> cAll C.grvImg 0 ((List.range imgs.length).zip imgs)
/-- The bytes of a control-core image without a vendor's signature (R365). -/
def ctlImgLen (b : List Byte) : Nat := 32 + leAt b 0 4 + leAt b 8 4
/-- The images of a CTL_IMAGE section: each with the signature that follows a vendor image. -/
def ctlImages (b : List Byte) : Nat → Nat → List (List Byte × List Byte)
  | 0, _ => []
  | n + 1, o =>
    let h := b.drop o
    let m := ctlImgLen h
    let e := o + cdiv m 16 * 16
    (slice b o m, if byteAt h 16 = 0 then [] else slice b e 64) :: ctlImages b n (e + if byteAt h 16 = 0 then 0 else 64)
/-- Where the images of a CTL_IMAGE section begin. -/
def ctlImgAt (b : List Byte) : Nat := 32 + 32 * byteAt b 1 + 8 * leAt b 2 2
/-- CTL_IMAGE (R365): the windows are numbered anew, core by core. -/
def loadCtl (b : List Byte) (c : Cfg) : Cfg :=
  let wins := recsAt b (32 + 32 * byteAt b 1) 8 (leAt b 2 2)
  let old := (cIdx C.ctlWin c).map (cGet C.ctlWin · c)
  let major (n : Nat) := leAt b (16 + 4 * n) 4
  let all := (List.range 4).flatMap fun n =>
    if major n ≠ 0 then recsWhere wins fun r => byteAt r 6 == n else old.filter fun r => byteAt r 6 == n
  let hdr := slice b 0 16 ++ (List.range 4).flatMap fun n => leBytes 4 (if major n ≠ 0 then major n else cN C.ctlHdr 0 (16 + 4 * n) 4 c)
  let imgs := (ctlImages b (byteAt b 0) (ctlImgAt b)).map (·.1)
  let c := c |> cPut C.ctlHdr 0 hdr |> cDrop C.ctlWin (fun _ => true) |> cAll C.ctlWin 0 ((List.range all.length).zip all)
    |> cAll C.ctlImg 0 ((List.range imgs.length).zip imgs)
  (recsAt b 32 32 (byteAt b 1)).foldl (fun c e => cPut C.ctlSlot (16 * byteAt e.2 0 + byteAt e.2 1) e.2 c) c
/-- MACSEC (R419). -/
def loadMacsec (b : List Byte) (c : Cfg) : Cfg :=
  c |> cUse C.msPort (fun _ r => byteAt r 0 != 0) (recsAt b 16 32 16) |> cAll C.msJob 0 (recsAt b 528 16 (byteAt b 0))
/-- SLEEP_PN (R443). -/
def loadSleep (b : List Byte) (c : Cfg) : Cfg :=
  c |> cPut C.slpHdr 0 b |> cPut C.slpRing 0 (slice b 0x20 128)
    |> cUse C.slpGroup (fun g _ => bit (leAt b 4 4) g) (recsAt b 0xA0 48 32)
    |> cUse C.slpWakeIn (fun _ r => bit (byteAt r 0) 0) (recsAt b 0x6A0 8 8)
    |> cUse C.slpWakeOut (fun _ r => leAt r 4 4 != 0) (recsAt b 0x6E0 8 4)
/-- ALMOITH (R468): a peer record replaces the one of its node, or is added. -/
def loadAlm (b : List Byte) (c : Cfg) : Cfg :=
  (recsAt b 64 16 (byteAt b 2)).foldl (fun c e =>
    match (cIdx C.almPeer c).find? fun i => cN C.almPeer i 0 2 c == leAt e.2 0 2 with
    | some i => cPut C.almPeer i e.2 c
    | none => cPut C.almPeer (cIdx C.almPeer c).length e.2 c) (cPut C.almHdr 0 (slice b 0 64) c)
/-- ROSTER (R469). -/
def loadRoster (b : List Byte) (c : Cfg) : Cfg :=
  (recsAt b 16 48 (leAt b 0 2)).foldl (fun c e => cPut C.roster (leAt e.2 0 2) e.2 c) c
/-- HOST (R488): whole. -/
def loadHost (b : List Byte) (c : Cfg) : Cfg :=
  c |> cPut C.hostHdr 0 b |> cWhole C.hostIf (fun i _ => bit (byteAt b 7) i) (recsAt b 0x10 32 2)
    |> cWhole C.hostQ (fun _ r => bit (byteAt r 0) 0) (recsAt b 0x50 8 64)

/-- A section applied to the records (R549). -/
def loadSec (t : Nat) (b : List Byte) (c : Cfg) : Cfg := match t with
  | 0x01 => cPut C.system 0 b c
  | 0x02 => cPut C.clockPower 0 b c
  | 0x03 => loadTime b c
  | 0x04 => loadStipple b c
  | 0x05 => loadQueue b c
  | 0x06 => loadL2 b c
  | 0x07 => loadL3 b c
  | 0x08 => loadStream b c
  | 0x09 => loadAcl b c
  | 0x0A => loadMirror b c
  | 0x0B => loadEth b c
  | 0x0C => loadT1s b c
  | 0x0D => loadCan b c
  | 0x0E => loadLin b c
  | 0x0F => cPut C.sbs 0 b c
  | 0x10 => loadSignal b c
  | 0x11 => loadGraver b c
  | 0x12 => loadCtl b c
  | 0x13 => cPut C.keyPol 0 b c
  | 0x14 => loadMacsec b c
  | 0x15 => loadSleep b c
  | 0x16 => loadAlm b c
  | 0x17 => loadRoster b c
  | 0x18 => loadHost b c
  | 0x19 => cPut C.recorder 0 b c
  | _ => c

/-- Sections applied in plate order; the ports come first, since their mode decides which LOOKUP_L2 and STREAM_POLICE
records are in use (R548). -/
def loadAll (l : List (Nat × List Byte)) : Cfg :=
  let ports := l.filter fun x => x.1 == 0x0B || x.1 == 0x0C
  let l2 := l.filter (·.1 == 0x06)
  let rest := l.filter fun x => x.1 != 0x0B && x.1 != 0x0C && x.1 != 0x06
  (ports ++ l2 ++ rest).foldl (fun c x => loadSec x.1 x.2 c) []

end Sys2Proof.Machine
end

