-- ==== Sys2Proof/Machine/Checks.lean ====
section
/-! DEFINITION. The content checks of a start: every field and index range that the owning chapters give their sections
(R58, R99–R104, R122, R159, R198–R202, R215, R219, R236–R239, R273–R275, R285, R301, R307, R308, R312, R342, R343, R364, R365,
R395, R419, R443, R468, R469, R488, R510, R511), and R548 for records not in use. -/

namespace Sys2Proof.Machine

/-! ### Fields -/

/-- Every field of a list lies in its range: offset, width, lowest, highest. -/
def flds (b : List Byte) (l : List (Nat × Nat × Nat × Nat)) : Bool :=
  l.all fun f => decide (f.2.2.1 ≤ leAt b f.1 f.2.1) && decide (leAt b f.1 f.2.1 ≤ f.2.2.2)
/-- A field that lies in a range or holds the value for "none". -/
def orNone (none v lo hi : Nat) : Bool := v == none || (decide (lo ≤ v) && decide (v ≤ hi))
/-- A signed field in a range. -/
def sfld (b : List Byte) (o w : Nat) (lo hi : Int) : Bool :=
  decide (lo ≤ sext (8 * w) (leAt b o w)) && decide (sext (8 * w) (leAt b o w) ≤ hi)
/-- Every record of a list satisfies p. -/
def every (l : List (Nat × List Byte)) (p : Nat → List Byte → Bool) : Bool := l.all fun e => p e.1 e.2
/-- Numbers rise strictly. -/
def rising : List Nat → Bool
  | a :: b :: r => decide (a < b) && rising (b :: r)
  | _ => true
/-- A bulk queue. -/
def isBulk (q : Nat) : Bool := decide (q < 816) || (decide (944 ≤ q) && decide (q < 1024))
/-- A control-core queue. -/
def isCcQueue (q : Nat) : Bool := decide (736 ≤ q) && decide (q ≤ 767)

/-! ### Sections by themselves -/

/-- SYSTEM (R58). -/
def okSystem (b : List Byte) : Bool :=
  b.length == 16 && flds b [(0, 2, 0, 4095), (2, 2, 0, 3), (8, 2, 100, 1000)] && zs b 0xA 6
/-- CLOCK_POWER (R510). -/
def okClock (b : List Byte) : Bool :=
  b.length == 32 && flds b [(0, 1, 0, 1), (1, 1, 0, 0), (2, 2, 100, 4700), (4, 2, 100, 500), (6, 2, 2500, 4500), (8, 1, 100, 148),
    (9, 1, 100, 148), (10, 1, 100, 148), (11, 1, 2, 20), (12, 1, 0, 7), (13, 1, 0, 7), (14, 1, 0, 7), (15, 1, 0, 0),
    (0x10, 2, 10, 10000), (0x12, 2, 100, 50000), (0x14, 2, 10, 1000)] && zs b 0x16 10
    && rising [byteAt b 8, byteAt b 9, byteAt b 10] && decide (byteAt b 12 ≤ byteAt b 13) && decide (byteAt b 13 ≤ byteAt b 14)
/-- TIME (R82, R99). -/
def okTime (b : List Byte) : Bool :=
  let doms := (recsAt b 16 32 4).filter fun e => bit (byteAt b 0) e.1
  b.length == 656 && bit (byteAt b 0) 0 && flds b [(0, 1, 0, 15), (2, 2, 10, 60000), (4, 4, 100, 1000000000), (8, 2, 1, 500),
      (10, 1, 0, 3), (11, 1, 0, 7), (12, 4, 1, 500000)]
    && every doms (fun _ r => flds r [(0, 1, 0, 127), (1, 1, 0, 1), (5, 1, 2, 10), (6, 1, 0, 1)] && sfld r 4 1 (-5) 0
      && zs r 0x15 1 && zs r 0x18 8
      && (byteAt r 1 == 1 || byteAt r 6 == 1
          || ((List.range 32).filter fun p => bits (leAt r 8 8) (2 * p) 2 == 2).length == 1))
    && every (recsAt b 144 16 32) (fun p r => flds r [(0, 2, 0, 10000), (2, 2, 0, 10000), (7, 1, 0, 3)] && sfld r 4 2 (-5000) 5000
      && zs r 0xE 2 && (!(doms.any fun d => bit (leAt d.2 0x10 4) p) || (decide (1 ≤ leAt r 0xC 2) && sfld r 6 1 (-3) 3)))
/-- A stipple entry on its own (R102, R103). -/
def okEntry (r : List Byte) (len late : Nat) : Bool :=
  let tg := leAt r 2 2
  let pa := leAt r 0xA 2
  let p2 := leAt r 0xC 4
  decide (byteAt r 1 < 4) && byteAt r 9 == 0 && len != 0 && decide (leAt r 4 4 < len) && match byteAt r 8 with
    | 0 => tg == 0 && pa == 0 && p2 == 0
    | 1 => isRsvQueue tg && decide (1 ≤ pa) && decide (pa ≤ 16) && p2 == 0
    | 2 => decide (tg < 8192) && decide (pa < 128) && decide (1000 ≤ p2) && decide (p2 ≤ len) && decide (p2 + late ≤ len)
    | 3 => decide (tg < 16) && decide (pa < 512) && p2 == 0
    | 4 => decide (tg < 64) && decide (pa ≤ 2) && (if pa = 2 then decide (p2 < 8192) else p2 == 0)
    | 5 => (decide (tg < 4) || (decide (0x100 ≤ tg) && decide (tg < 0x200))) && decide (pa ≤ 3)
      && (if pa = 3 then decide (8 ≤ p2) && decide (p2 ≤ 1000000000) else p2 == 0)
    | 6 => decide (tg < 16) && pa == 0 && p2 == 0
    | 7 => decide (tg < 4) && decide (pa < 16)
    | _ => false
/-- STIPPLE (R101, R122). -/
def okStipple (b : List Byte) : Bool :=
  decide (leAt b 0 2 ≤ 4096) && zs b 2 14 && b.length == 0x110 + 16 * leAt b 0 2
    && every ((recsAt b 16 16 16).filter fun e => leAt e.2 0 4 != 0) (fun _ r =>
      flds r [(0, 4, 1000, 4000000000), (12, 1, 0, 1)] && leAt r 0 4 % 4 == 0 && decide (leAt r 4 4 < leAt r 0 4)
        && decide (leAt r 8 4 < leAt r 0 4) && zs r 13 3)
/-- QUEUE (R159). -/
def okQueue (b : List Byte) : Bool :=
  b.length == 8336 && flds b [(0, 2, 0, 4096), (2, 2, 1, 100)] && zs b 4 12
    && every (recsAt b 16 8 16) (fun _ r => flds r [(0, 1, 0, 7), (1, 1, 0, 0), (2, 2, 0, 1024)] && zs r 4 4)
    && every ((recsAt b 0x90 8 1024).filter fun e => bit (byteAt e.2 1) 0) (fun q r =>
      decide (byteAt r 1 < 8) && (!bit (byteAt r 1) 1 || decide (q < 128)) && zs r 6 2
        && if isRsvQueue q then flds r [(2, 2, 1, 8192)] && (match leAt r 4 2 / 4096 with
            | 0 => decide (leAt r 4 2 % 4096 < 32) | 1 => decide (leAt r 4 2 % 4096 < 96) | 2 => decide (leAt r 4 2 % 4096 < 32)
            | _ => false)
          else decide (byteAt r 0 < 16) && zs r 2 4)
/-- A VLAN ID. -/
def okVid (v : Nat) : Bool := decide (1 ≤ v) && decide (v ≤ 4094)
/-- LOOKUP_L2 (R167, R173, R175, R198); `inUse` says which port records are in use. -/
def okL2 (b : List Byte) (inUse : Nat → Bool) : Bool :=
  let nv := leAt b 0 2
  let ng := leAt b 2 2
  let nf := leAt b 4 2
  b.length == 560 + 16 * nv + 8 * ng + 16 * nf && decide (nv ≤ 4096) && decide (ng ≤ 1024) && flds b [(6, 2, 1, 3600)]
    && zs b 14 2 && zs b 0x28 8
    && every ((recsAt b 48 32 0) ++ (recsAt b 48 16 32).filter fun e => inUse e.1) (fun _ r =>
      okVid (leAt r 0 2) && decide (leAt r 2 2 < 64) && decide (bits (leAt r 2 2) 3 2 ≤ 2) && zs r 11 1 && decide (byteAt r 12 < 8) && zs r 13 3)
    && every (recsAt b 560 16 nv) (fun _ r => okVid (leAt r 0 2) && decide (leAt r 2 2 < 8) && zs r 12 4)
    && every (recsAt b (560 + 16 * nv) 8 ng) (fun _ r => decide (leAt r 4 2 < 2) && (leAt r 4 2 == 0 || isCcQueue (leAt r 6 2)))
    && every (recsAt b (560 + 16 * nv + 8 * ng) 16 nf) (fun _ r =>
      decide (leAt r 6 2 < 4096) && bits (leAt r 8 2) 13 1 == 0 && zs r 12 4 && bits (byteAt r 11) 3 4 == 0
        && bits (byteAt r 10) 5 1 == 0 && bits (byteAt r 10) 7 1 == 0
        && match leAt r 8 2 / 16384 with
        | 0 => decide (leAt r 8 2 % 8192 < 32) | 1 => decide (leAt r 8 2 % 8192 < 1024) | 2 => true | _ => isCcQueue (leAt r 8 2 % 8192))
/-- LOOKUP_L3 (R176, R178, R180, R199). -/
def okL3 (b : List Byte) : Bool :=
  let nr := leAt b 0 2
  let nh := leAt b 2 2
  let routes := recsAt b (16 + 16 * nh) 24 nr
  b.length == 16 + 16 * nh + 24 * nr && decide (nh ≤ 4096) && flds b [(4, 2, 0, 1000)] && isCcQueue (leAt b 6 2) && zs b 8 8
    && decide ((routes.filter fun e => byteAt e.2 0 == 4).length ≤ 16384) && decide ((routes.filter fun e => byteAt e.2 0 == 6).length ≤ 4096)
    && every (recsAt b 16 16 nh) (fun _ r => decide (byteAt r 1 < 2) && zs r 10 6
      && (bit (byteAt r 1) 0 || (decide (byteAt r 0 < 32) && okVid (leAt r 2 2))))
    && every routes (fun _ r => zs r 4 4 && ((byteAt r 0 == 4 && decide (byteAt r 1 ≤ 32)) || (byteAt r 0 == 6 && decide (byteAt r 1 ≤ 64))))
/-- STREAM_POLICE (R181–R189, R200); `inUse` says which containment unit records are in use. -/
def okStream (b : List Byte) (inUse : Nat → List Byte → Bool) : Bool :=
  let n (k : Nat) := leAt b (2 * k) 2
  let p0 := 8 + 40 * (n 0 + n 1)
  let u0 := p0 + 16 * (n 2 + n 3)
  let flush (v : Nat) : Bool := v == 0xFFFF || isBulk v
  b.length == u0 + 24 * 33 && decide (n 0 ≤ 8192) && decide (n 1 ≤ 8192) && decide (n 2 ≤ 4096) && decide (n 3 ≤ 4096)
    && every (recsAt b 8 40 (n 0 + n 1)) (fun _ r => decide (byteAt r 0 ≤ 3) && (byteAt r 0 == 3
      || (flds r [(1, 1, 0, 1), (0xA, 2, 64, 16384), (0x19, 1, 0, 0), (0x1E, 2, 1, 1000), (0x20, 2, 1, 60000)]
          && (byteAt r 0 == 2 || okVid (leAt r 2 2)) && orNone 0xFFFF (leAt r 0x1A 2) 0 4095 && flush (leAt r 0x22 2)
          && bits (byteAt r 0x24) 3 4 == 0 && zs r 0x25 3)))
    && every (recsAt b p0 16 (n 2 + n 3)) (fun _ r => decide (byteAt r 12 < 16) && zs r 13 3)
    && every ((recsAt b u0 24 33).filter fun e => inUse e.1 e.2) (fun _ r =>
      flds r [(0, 2, 1, 1000), (5, 1, 1, 255)] && orNone 0xFFFF (leAt r 14 2) 0 4095 && rising [leAt r 6 2, leAt r 8 2, leAt r 10 2]
        && [16, 18, 20, 22].all fun o => flush (leAt r o 2))
/-- ACL (R187, R188, R201). -/
def okAcl (b : List Byte) : Bool :=
  let n := leAt b 0 2 + leAt b 2 2
  b.length == 16 + 80 * n && decide (leAt b 0 2 ≤ 2048) && decide (leAt b 2 2 ≤ 2048) && zs b 4 12
    && every (recsAt b 16 80 n) (fun _ r =>
      let act := leAt r 64 2
      decide (act < 256) && (!bit act 1 || decide (byteAt r 66 < 8)) && zs r 73 7 && (!bit act 5 || decide (byteAt r 67 < 4))
        && (!bit act 2 || decide (leAt r 68 2 < 4096)) && (!bit act 3 || isCcQueue (leAt r 70 2)) && (!bit act 4 || isBulk (leAt r 70 2)))
/-- MIRROR (R202). -/
def okMirror (b : List Byte) : Bool :=
  b.length == 64 && every ((recsAt b 0 16 4).filter fun e => bit (byteAt e.2 0) 0) fun _ r =>
    flds r [(0, 1, 0, 3), (1, 1, 0, 31), (2, 1, 0, 128), (3, 1, 0, 0)] && zs r 12 4
/-- An ETH_PORT port record in use, with its gate list (R203, R215, R219, R220, R236). -/
def okEthPort (p : Nat) (r : List Byte) (gates : List (List Byte)) : Bool :=
  let m := byteAt r 0
  let sp := byteAt r 1
  let fl := leAt r 4 2
  let rate := [10000000, 5000000, 2500000, 1000000, 100000].getD sp 0
  let top := if m = 1 then 10000000 else rate
  (if p < 4 then decide (1 ≤ m) && decide (m ≤ 3) else m == 4)
    && (if m = 1 then true else if p < 4 then decide (sp ≤ 3) && (m != 3 || sp == 3) else sp == 3 || sp == 4)
    && flds r [(2, 2, 1522, 9216), (8, 2, 1, 8192), (0xC, 2, 1, 65535), (0xE, 1, 0, 3), (0xF, 1, 1, 128), (0x11, 1, 0, 0), (0x12, 2, 0, 256),
      (0x24, 2, 0, 10000), (0x26, 1, 0, 1), (0x27, 1, 0, 31)]
    && decide (fl < 256) && (!bit fl 7 || decide (p < 4)) && decide (leAt r 0xA 2 < leAt r 8 2) && gates.length == leAt r 0x12 2
    && orNone 0xFFFF (leAt r 0x20 2) 0 255 && orNone 0xFFFF (leAt r 0x22 2) 0 255 && zs r 0x48 24
    && (!bit fl 6 || (flds r [(0x14, 4, 1000, 1000000000)] && gates.all (fun g => decide (8 ≤ leAt g 4 4))
        && (gates.map fun g => leAt g 4 4).sum == leAt r 0x14 4))
    && decide (((bitList (byteAt r 0x10) 8).map fun c => leAt r (0x28 + 4 * c) 4).sum ≤ top)
    && (m != 1 || (!bit fl 6 && byteAt r 0x10 == 0))
/-- ETH_PORT (R236). -/
def okEth (b : List Byte) : Bool :=
  let ng := leAt b 0 2
  let nr := leAt b 2 2
  let nm := leAt b 4 2
  let gates := recsAt b 0xA10 8 ng
  b.length == 0xA10 + 8 * ng + 16 * nr + 8 * nm && decide (ng ≤ 4096) && decide (nr ≤ 512) && decide (nm ≤ 2048) && zs b 6 10
    && every gates (fun _ g => decide (byteAt g 0 < 16) && zs g 2 2)
    && ((List.range (ng - 1)).all fun i => decide (byteAt b (0xA10 + 8 * i) ≤ byteAt b (0xA10 + 8 * (i + 1))))
    && every ((recsAt b 0x10 96 16).filter fun e => byteAt e.2 0 != 0) (fun p r => okEthPort p r (recsWhere gates fun g => byteAt g 0 == p))
    && every (recsAt b (0xA10 + 8 * ng) 16 nr) (fun _ r =>
      flds r [(0, 1, 0, 1), (1, 1, 0, 15), (0xA, 1, 1, 32), (0xB, 1, 0, 1), (0xC, 2, 1, 1000)] && okVid (leAt r 2 2) && zs r 0xE 2)
    && every (recsAt b (0xA10 + 8 * ng + 16 * nr) 8 nm) fun _ r => flds r [(0, 1, 0, 15), (1, 1, 0, 2), (2, 1, 0, 31), (3, 1, 0, 0)]
/-- T1S (R227, R237). -/
def okT1s (b : List Byte) : Bool :=
  b.length == 512 && every ((recsAt b 0 32 16).filter fun e => byteAt e.2 0 != 0) fun _ r =>
    flds r [(0, 1, 1, 3), (3, 1, 20, 255), (6, 2, 0, 15), (8, 2, 64, 1522)] && zs r 0xA 2 && zs r 0x10 16
      && (byteAt r 0 != 1 || (byteAt r 1 == 0 && flds r [(2, 1, 1, 32)])) && (byteAt r 0 != 2 || flds r [(1, 1, 1, 31)])
      && (!bit (leAt r 6 2) 0 || (byteAt r 0 == 1
        && decide (2000 + byteAt r 2 * (1 + byteAt r 4) * (20 + leAt r 8 2) * 800 ≤ 380000)))
/-- The bit timing of a CAN channel (R238, R239). -/
def okCanTiming (r : List Byte) : Bool :=
  let tq := byteAt r 2 * (1 + leAt r 4 2 + byteAt r 6)
  let dq := 1 + byteAt r 8 + byteAt r 9
  let dtq := byteAt r 3 * dq
  flds r [(2, 1, 1, 32), (4, 2, 2, 256), (6, 1, 1, 128), (7, 1, 1, byteAt r 6)]
    && decide (80 ≤ tq) && decide (tq ≤ 8000)
    && (byteAt r 0 == 1 || (flds r [(3, 1, 1, 8), (8, 1, 1, 64), (9, 1, 1, 32), (10, 1, 1, byteAt r 9)] && decide (4 ≤ dq)
        && decide (80000 ≤ (if byteAt r 0 = 2 then 8000 else 20000) * dtq) && (decide (80 ≤ dtq) || bit (byteAt r 0xB) 7)))
/-- CAN (R238–R240, R247, R273). -/
def okCan (b : List Byte) : Bool :=
  let ne := leAt b 0 2
  let nw := leAt b 2 2
  let ents := recsAt b (16 + 48 * 96) 12 ne
  let count (c k : Nat) := (ents.filter fun e => byteAt e.2 0 == c && byteAt e.2 1 == k).length
  b.length == 16 + 48 * 96 + 12 * ne + 32 * nw && decide (nw ≤ 256) && zs b 4 12
    && every ents (fun _ r => flds r [(0, 1, 0, 95), (1, 1, 0, 1), (2, 2, 0, 0)])
    && every (recsAt b (16 + 48 * 96 + 12 * ne) 32 nw) (fun _ r => flds r [(0, 1, 0, 95), (1, 1, 0, 3), (3, 1, 0, 0)]
      && (decide (byteAt r 2 ≤ 15) || byteAt r 2 == 255))
    && every ((recsAt b 16 48 96).filter fun e => byteAt e.2 0 != 0) fun c r =>
      flds r [(0, 1, 1, 3), (1, 1, 0, 127), (0x11, 1, 0, 64), (0x12, 1, 0, 32), (0x13, 1, 0, 0), (0x14, 2, 0, 1000)] && okCanTiming r
        && count c 0 == byteAt r 0x11 && count c 1 == byteAt r 0x12
        && (if bit (byteAt r 1) 0 then flds r [(0x22, 2, 1, 60000)] else byteAt r 0x12 == 0)
        && (!(bit (byteAt r 1) 1 && byteAt r 0 == 3) || flds r [(0xC, 1, 1, 63), (0xD, 1, 1, 63), (0xE, 1, 0, 63)])
        && orNone 0xFFFF (leAt r 0x16 2) 0 255 && orNone 0xFFFF (leAt r 0x18 2) 0 253
        && (leAt r 0x1C 2 == 0 || flds r [(0x1A, 2, 1, 1000), (0x1E, 2, 1, 1000), (0x20, 2, 1, 60000)]) && zs r 0x28 8
/-- LIN (R261, R274). -/
def okLin (b : List Byte) : Bool :=
  let n := leAt b 0 2
  let slots := recsAt b (16 + 96 * 32) 8 n
  b.length == 16 + 96 * 32 + 8 * n && decide (n ≤ 16384) && zs b 2 14
    && every slots (fun _ r => flds r [(0, 1, 0, 31), (1, 1, 0, 15), (2, 1, 0, 4), (3, 1, 0, 63), (4, 2, 10, 10000), (7, 1, 0, 0)]
      && (byteAt r 2 != 1 || decide (byteAt r 6 ≤ 15))
      && decide ((slots.filter fun e => byteAt e.2 0 == byteAt r 0 && byteAt e.2 1 == byteAt r 1).length ≤ 64))
    && every ((recsAt b 16 96 32).filter fun e => byteAt e.2 0 != 0) fun _ r =>
      flds r [(0, 1, 1, 2), (1, 1, 0, 7), (2, 2, 1000, 20000), (5, 1, 0, 0)] && (byteAt r 0 == 2 || decide (byteAt r 4 ≤ 15))
        && orNone 0xFFFF (leAt r 6 2) 0 255 && orNone 0xFFFF (leAt r 8 2) 0 255
        && (leAt r 0xC 2 == 0 || flds r [(0xA, 2, 10, 1000), (0xE, 2, 1, 60000)]) && zs r 0x14 12
        && (List.range 64).all fun i => decide (byteAt r (0x20 + i) < 128) && decide (byteAt r (0x20 + i) % 4 ≤ 2)
          && decide (bits (byteAt r (0x20 + i)) 3 4 ≤ 7)
/-- SBS (R275). -/
def okSbs (b : List Byte) : Bool := b.length == 80 && flds b [(0, 2, 0, 1), (2, 1, 1, 8)] && zs b 3 13
/-- KEY_POLICY (R395). -/
def okKeyPol (b : List Byte) : Bool :=
  b.length == 32 && flds b ([(0, 2, 1, 3600), (2, 2, 0, 0)] ++ (List.range 6).map fun i => (4 + i, 1, 1, 3)) && zs b 10 22
/-- MACSEC (R413, R419). -/
def okMacsec (b : List Byte) : Bool :=
  b.length == 528 + 16 * byteAt b 0 && decide (byteAt b 0 ≤ 32) && zs b 1 15
    && every ((recsAt b 16 32 16).filter fun e => byteAt e.2 0 != 0) (fun _ r =>
      flds r [(0, 1, 1, 1), (1, 1, 0, 3), (2, 1, 0, 2), (3, 1, 0, 15), (5, 1, 1, 8), (6, 2, 0, 255), (12, 4, 1, 2147483648)]
        && [0, 30, 50].contains (byteAt r 4) && zs r 0x18 8)
    && every (recsAt b 528 16 (byteAt b 0)) fun _ r =>
      [2, 3, 6, 7].contains (byteAt r 0) && flds r [(1, 1, 4, 16), (4, 2, 14, 256), (6, 1, 0, 7), (7, 1, 0, 0)] && zs r 12 4
        && (decide (leAt r 2 2 < 256) || (decide (0x100 ≤ leAt r 2 2) && decide (leAt r 2 2 < 0x140)))
/-- The 32-byte records of SLEEP_PN's wake inputs and outputs, groups and ring (R443); `node` is this device's. -/
def okSleep (b : List Byte) (node : Nat) : Bool :=
  let n := byteAt b 0
  let ring := (List.range 64).map fun m => leAt b (0x20 + 2 * m) 2
  let used := (recsAt b 0xA0 48 32).filter fun e => bit (leAt b 4 4) e.1
  b.length == 1856 && flds b [(0, 1, 1, 64), (1, 1, 0, n - 1), (2, 1, 0, 1), (3, 1, 0, 1), (0xC, 2, 1, 100), (0xE, 2, 10, 1000),
      (0x10, 2, 50, 10000), (0x12, 2, 100, 60000), (0x16, 2, 0, 0), (0x18, 4, 0, 86400)]
    && (ring.take n).all (fun v => decide (v ≤ 4095)) && (ring.drop n).all (fun v => v == 0xFFFF)
    && leAt b (0x20 + 2 * byteAt b 1) 2 == node && (ring.take n).contains (leAt b 0x14 2)
    && decide (leAt b 0xE 2 + 20 ≤ leAt b 0x10 2)
    && leAt b 8 4 == ofBits ((used.filter fun e => bit (leAt e.2 0 8) (byteAt b 1)).map (·.1))
    && every used (fun _ r => decide (leAt r 0 8 < 2 ^ n) && zs r 0x26 10 && orNone 0xFFFF (leAt r 0x24 2) 0 8191)
    && every ((recsAt b 0x6A0 8 8).filter fun e => bit (byteAt e.2 0) 0) (fun _ r => flds r [(0, 1, 0, 7), (1, 1, 1, 255), (2, 2, 0, 0)])
    && every ((recsAt b 0x6E0 8 4).filter fun e => leAt e.2 4 4 != 0) fun _ r => flds r [(0, 2, 1, 1000), (2, 2, 0, 0)]
/-- ALMOITH (R468). -/
def okAlm (b : List Byte) : Bool :=
  b.length == 64 + 16 * byteAt b 2 && flds b [(2, 1, 0, 64), (3, 1, 0, 7), (0xA, 2, 100, 10000), (0xC, 2, 10, 10000), (0x10, 1, 0, 15),
      (0x11, 1, 0, 0), (0x28, 2, 0, 255), (0x2A, 2, 736, 743), (0x2C, 2, 744, 767), (0x2E, 2, 744, 767)]
    && bit (byteAt b 4) 0 && orNone 0 (leAt b 0xE 2) 5 1000 && orNone 0xFFFF (leAt b 0x12 2) 0 4095
    && orNone 0xFFFF (leAt b 0x30 2) 672 735 && zs b 0x32 14
    && every (recsAt b 64 16 (byteAt b 2)) fun _ r => flds r [(0, 2, 0, 4095), (2, 1, 0, 3), (3, 1, 0, 31), (14, 2, 0, 0)]
      && (decide (leAt r 12 2 < 256) || (decide (0x100 ≤ leAt r 12 2) && decide (leAt r 12 2 < 0x140)))
/-- ROSTER (R469); the observer is this device or a peer. -/
def okRoster (b : List Byte) (node : Nat) (peer : Nat → Bool) : Bool :=
  let n := leAt b 0 2
  let l := recsAt b 16 48 n
  b.length == 16 + 48 * n && flds b [(0, 2, 1, 4096)] && zs b 2 14 && rising (l.map fun e => leAt e.2 0 2)
    && l.any (fun e => leAt e.2 0 2 == node)
    && every l fun _ r => flds r [(0, 2, 0, 4095), (2, 1, 0, 1), (3, 1, 0, 0), (8, 4, 0, leAt r 4 4), (0x22, 2, 1, 6000), (0x24, 1, 1, 255),
        (0x25, 1, 0, 63)]
      && decide (leAt r 4 4 ≤ leAt r 12 4) && [0, 2, 4].all (fun k => decide (bits (byteAt r 0x25) k 2 ≤ 2)) && zs r 0x26 10
      && (leAt r 0x20 2 == node || peer (leAt r 0x20 2))
/-- HOST (R488). -/
def okHost (b : List Byte) : Bool :=
  b.length == 592 && orNone 0 (leAt b 0 2) 1 1000 && flds b [(6, 1, 0, 63), (7, 1, 0, 3)] && zs b 8 8
    && every ((recsAt b 0x10 32 2).filter fun e => bit (byteAt b 7) e.1) (fun _ r => decide (leAt r 0 4 < 512) && zs r 4 12)
    && every ((recsAt b 0x50 8 64).filter fun e => bit (byteAt e.2 0) 0) fun _ r =>
      flds r [(0, 1, 0, 15), (1, 1, 0, 7), (2, 1, 0, 63), (3, 1, 0, 0), (4, 2, 64, 16384), (6, 2, 0, 0)]
        && (!bit (byteAt r 0) 1 || bit (byteAt r 0) 2)
/-- RECORDER (R511). -/
def okRecorder (b : List Byte) : Bool :=
  b.length == 32 && flds b [(0, 2, 744, 767)] && zs b 2 6 && zs b 24 8
    && (List.range 8).all fun i => orNone 0xFFFF (leAt b (8 + 2 * i) 2) 0 8191

/-! ### SIGNAL (R279, R284, R285, R293, R301, R307, R308, R312) -/

/-- The header, the channel map and the length. -/
def okSigHead (b : List Byte) : Bool :=
  decide (192 ≤ b.length) && flds b [(0, 4, 0, 65536), (4, 4, 0, 65536), (8, 2, 0, 8192), (10, 2, 0, 16384), (12, 2, 0, 4096), (14, 1, 0, 64),
      (16, 1, 0, 64), (17, 1, 0, 64)] && zs b 18 14 && zs b 48 16
    && (List.range 16).all (fun i => decide (byteAt b (32 + i) ≤ 75))
    && (List.range 128).all (fun i => orNone 255 (byteAt b (64 + i)) 4 15) && (sigOffs b).getLastD 0 == b.length
/-- A signal definition. -/
def okSig (r : List Byte) : Bool :=
  let w := leAt r 2 2
  decide (byteAt r 1 ≤ 1) && zs r 0x14 4 && orNone 0xFFFF (leAt r 6 2) 0 4095 && match byteAt r 0 with
    | 0 => decide (1 ≤ w) && decide (w ≤ 64) | 1 => decide (1 ≤ w) && decide (w ≤ 64) | 2 => w == 32 | 3 => w == 64
    | 4 => decide (1 ≤ w) && decide (w ≤ 2048) | _ => false
/-- The records of a carrier, a template, an end-to-end and an authentication profile. -/
def okCarrier (r : List Byte) : Bool :=
  flds r [(0, 1, 0, 1), (1, 1, 0, 1), (2, 1, 1, 64), (3, 1, 0, 7), (4, 2, 10, 10000), (6, 2, 64, 1500), (24, 1, 0, 31), (25, 1, 4, 15)] && zs r 26 6
/-- A template. -/
def okTempl (r : List Byte) : Bool := flds r [(0, 1, 0, 1), (1, 1, 0, 31), (2, 1, 0, 7), (3, 1, 0, 1)] && zs r 14 2 && zs r 30 2
/-- An end-to-end profile. -/
def okE2e (r : List Byte) : Bool := decide (byteAt r 0 ≤ 6) && [4, 8, 16].contains (byteAt r 1) && flds r [(6, 1, 1, 255)] && zs r 7 9
/-- An authentication profile. -/
def okAuth (r : List Byte) : Bool :=
  (decide (leAt r 0 2 < 256) || (decide (0x100 ≤ leAt r 0 2) && decide (leAt r 0 2 < 0x140)))
    && flds r [(2, 1, 24, 64), (3, 1, 0, 2), (4, 1, 10, 24), (5, 1, 1, 255)] && byteAt r 2 % 8 == 0
    && (byteAt r 3 != 0 || decide (byteAt r 5 ≤ 3)) && zs r 6 10
/-- The secured length of PDU p (R297). -/
def pduSecured (p : Nat) (s : State) : Nat :=
  let a := pduN p 0x15 1 s
  pduN p 0 2 s + if a = 255 then 0 else cfgN C.sigAuth a 3 1 s + cfgN C.sigAuth a 2 1 s / 8
/-- Everything a PDU's mappings, end-to-end fields and update bits cover. -/
def pduCover (p : Nat) (s : State) : List Nat :=
  (pduMaps p s).flatMap (fun m => mapBits m s ++ if mapN m 6 2 s = 0xFFFF then [] else [mapN m 6 2 s])
    ++ if hasE2e p s then e2eCounterBits p s ++ (List.range (e2eCrc (e2eN p 0 1 s)).1).map (8 * e2eN p 2 2 s + ·) else []
/-- PDU p with the tables it refers to. -/
def okPdu (p : Nat) (s : State) : Bool :=
  let r := cfgRec C.sigPdu p s
  let m := byteAt r 2
  let sec := pduSecured p s
  let cover := pduCover p s
  decide (m ≤ 5) && bits (byteAt r 3) 0 1 == 0 && bits (byteAt r 3) 4 4 == 0 && decide (bits (byteAt r 3) 1 2 ≤ 2) && zs r 0x28 8
    && (match byteAt r 4 with
      | 0 => decide (byteAt r 5 < 96) && decide (byteAt r 6 < 4) && (match byteAt r 0x1E % 4 with
          | 0 => decide (sec ≤ 8) | 1 => decide (sec ≤ 64) | 2 => decide (sec ≤ 2048) | _ => false)
      | 1 => decide (byteAt r 5 < 32) && decide (sec ≤ 8) && decide (leAt r 8 4 < 64)
      | 2 => (m == 5 || cfgHas C.sigTempl (byteAt r 5) s) && decide (sec ≤ 1472)
      | 4 => decide (sec ≤ 2048)
      | _ => false)
    && decide (1 ≤ leAt r 0 2) && orNone 0 (leAt r 0xC 2) 10 65535 && (leAt r 0xC 2 == 0 || decide (leAt r 0x10 2 < leAt r 0xC 2))
    && (m != 0 || leAt r 0xC 2 != 0)
    && (if m = 3 then cfgHas C.sigPdu (leAt r 0x12 2) s && pduMode (leAt r 0x12 2) s == 5 else leAt r 0x12 2 == 0xFFFF)
    && (byteAt r 0x14 == 255 || cfgHas C.sigE2e (byteAt r 0x14) s) && (byteAt r 0x15 == 255 || cfgHas C.sigAuth (byteAt r 0x15) s)
    && (List.range (leAt r 0x1A 2)).all (fun k => cfgHas C.sigMap (leAt r 0x18 2 + k) s)
    && decide (byteAt r 0x1C < 16) && (byteAt r 0x1D != 255 || byteAt r 4 == 4 || (m == 2) == decide (byteAt r 0x1C < 4))
    && orNone 255 (byteAt r 0x1D) 0 63 && bits (byteAt r 0x1E) 2 2 == 0 && bits (byteAt r 0x1E) 5 3 == 0
    && (byteAt r 0x1F == 255 || cfgHas C.grvHook (byteAt r 0x1F) s) && orNone 0xFFFF (leAt r 0x20 2) 0 4095
    && cover.all (fun k => decide (k < 8 * leAt r 0 2)) && decide cover.Nodup
/-- Mapping m (R285, R287). -/
def okMap (m : Nat) (s : State) : Bool :=
  let i := mapSig m s
  decide (i < sigCount s) && cfgHas C.sigDef i s && decide (mapN m 4 1 s ≤ 3) && decide (mapN m 5 1 s ≤ 64)
    && (sigType i s != 2 && sigType i s != 3 || mapWidth m s == sigWidth i s)
    && (sigType i s != 4 || (mapN m 2 2 s % 8 == 0 && mapN m 5 1 s == 0))
/-- Frame route r (R301, R312). -/
def okRoute (r : Nat) (s : State) : Bool :=
  let b := cfgRec C.sigRoute r s
  (match byteAt b 0 with
    | 0 => decide (byteAt b 1 < 96) | 2 => cfgHas C.sigCarrier (byteAt b 1) s && carN (byteAt b 1) 0 1 s == 1 | 3 => byteAt b 1 == 0
    | _ => false)
    && (match byteAt b 3 with
    | 0 => decide (byteAt b 0xC < 96) | 1 => cfgHas C.sigCarrier (byteAt b 0xC) s && carN (byteAt b 0xC) 0 1 s == 0
    | 2 => decide (leAt b 0x14 2 ≤ 4095) && decide (byteAt b 0x16 < 96) | _ => false)
    && flds b [(2, 1, 0, 1), (0xD, 1, 0, 3), (0xE, 1, 0, 3), (0xF, 1, 0, 31), (0x17, 1, 0, 0)]
    && decide ((routesAll (byteAt b 0) (byteAt b 1) (byteAt b 0xF) (leAt b 4 4) s).length ≤ 8)
/-- The snapshot sets and members (R310, R312). -/
def okSnap (k : Nat) (s : State) : Bool :=
  let n := cfgN C.sigSnap k 0 2 s
  decide (n ≤ 1024) && cfgN C.sigSnap k 6 2 s == 0
    && (List.range n).all fun j => cfgHas C.sigMember (cfgN C.sigSnap k 2 4 s + j) s
/-- The tables of the SIGNAL sections together. -/
def okSignals (s : State) : Bool :=
  (cfgIdx C.sigDef s).all (fun i => okSig (cfgRec C.sigDef i s))
    && decide ((((cfgIdx C.sigDef s).filter fun i => sigType i s == 4).map fun i => sigWidth i s).sum ≤ 1048576)
    && (cfgIdx C.sigPdu s).all (okPdu · s) && (cfgIdx C.sigMap s).all (okMap · s) && (cfgIdx C.sigRoute s).all (okRoute · s)
    && (cfgIdx C.sigCarrier s).all (fun k => okCarrier (cfgRec C.sigCarrier k s))
    && (cfgIdx C.sigTempl s).all (fun k => okTempl (cfgRec C.sigTempl k s))
    && (cfgIdx C.sigE2e s).all (fun k => okE2e (cfgRec C.sigE2e k s)) && (cfgIdx C.sigAuth s).all (fun k => okAuth (cfgRec C.sigAuth k s))
    && (List.range 64).all (fun k => okSnap k s)
    && (cfgIdx C.sigMember s).all (fun m => cfgHas C.sigDef (cfgN C.sigMember m 0 2 s) s)
    -- every enabled field channel has a receive engine (R307)
    && (!cfgHas C.sigHdr 0 s || ((List.range 96).all (fun c => cfgN C.canCh c 0 1 s == 0 || cfgN C.sigChan 0 c 1 s != 255)
      && (List.range 32).all fun c => cfgN C.linCh c 0 1 s == 0 || cfgN C.sigChan 0 (96 + c) 1 s != 255))

/-! ### STIPPLE references (R104, R227, R311, R459) -/

/-- The snapshot collector is this device, with a snapshot host queue, or a node of the peer table (R459). -/
def okCollector (s : State) : Bool :=
  let c := cfgN C.almHdr 0 0x12 2 s
  cfgHas C.almHdr 0 s && if c = ownNode s then cfgN C.almHdr 0 0x30 2 s != 0xFFFF else (peerOf c s).isSome
/-- Every enabled entry in force (R104, R227, R311, R459). -/
def okEntries (s : State) : Bool :=
  (cfgIdx C.stpEntry s).all fun e =>
    let r := cfgRec C.stpEntry e s
    !bit (byteAt r 1) 0 || (decide (byteAt r 0 < 16) && okEntry r (cfgN C.stpPeriod (byteAt r 0) 0 4 s) (cfgN C.stpPeriod (byteAt r 0) 8 4 s)
      && !(byteAt r 8 == 4 && leAt r 0xA 2 == 2 && pduN (leAt r 0xC 4) 0x1D 1 s != leAt r 2 2)
      && (byteAt r 8 != 4 || leAt r 0xA 2 != 1 || okCollector s)
      && (byteAt r 8 != 6 || (cfgN C.t1s (leAt r 2 2) 0 1 s == 1 && bit (cfgN C.t1s (leAt r 2 2) 6 2 s) 0)))

/-! ### GRAVER_CODE (R325, R326, R342, R343) -/

/-- An instruction word decodes: its opcode is defined and every bit that its format or its row marks 0 is 0. -/
def gvWordOk (w : Nat) : Bool :=
  let op := w / 2 ^ 26
  let imm := bits w 0 18
  let sub := bits w 0 14
  if [0x01, 0x28, 0x39, 0x3C].contains op then w % 2 ^ 26 == 0
  else if op = 0x1E ∨ op = 0x1F then bits w 14 12 == 0
  else if (0x02 ≤ op ∧ op ≤ 0x0C) ∨ [0x20, 0x27, 0x33, 0x37, 0x3A].contains op then sub == 0
  else if (0x29 ≤ op ∧ op ≤ 0x2D) ∨ op = 0x34 then sub % 8192 == 0
  else if op = 0x2E ∨ op = 0x2F then sub % 4096 == 0
  else if op = 0x30 then sub % 8192 == 0 && bits w 14 12 == 0
  else if op = 0x14 then bits w 18 4 == 0 && decide (imm < 2 ^ 16)
  else if op = 0x16 then bits imm 5 1 == 0
  else if op = 0x22 then bits imm 15 1 == 0
  else if op = 0x24 then bits imm 14 1 == 0
  else decide (1 ≤ op) && decide (op ≤ 0x3C)
/-- The jump target of the word at address i, if it names one. -/
def gvTarget (i w : Nat) : Option Int :=
  let op := w / 2 ^ 26
  if op = 0x1E ∨ op = 0x1F then some (bits w 0 14 : Nat)
  else if 0x18 ≤ op ∧ op ≤ 0x1D then some ((i : Int) + 1 + sext 18 (bits w 0 18)) else none
/-- A graver image. -/
def okImage (b : List Byte) : Bool :=
  let n := leAt b 0 2
  flds b [(0, 2, 1, 16384), (2, 2, 0, 32768)] && zs b 36 12
    && (List.range 16).all (fun k => leAt b (4 + 2 * k) 2 == 0xFFFF || decide (leAt b (4 + 2 * k) 2 < n))
    && (List.range n).all fun i =>
      let w := leAt b (48 + 4 * i) 4
      gvWordOk w && match gvTarget i w with
        | none => true
        | some t => decide (0 ≤ t) && decide (t < n)
/-- The section by itself. -/
def okGraver (b : List Byte) : Bool :=
  flds b [(0, 1, 1, 16), (2, 1, 1, 255), (3, 1, 0, 0), (0x14, 2, 64, 65535)] && zs b 0x16 10
    && (recsAt b 32 4 (byteAt b 1)).all (fun e => decide (16 ≤ leAt e.2 2 2) && decide (leAt e.2 2 2 ≤ 4096))
    && zs b (32 + 4 * byteAt b 1) (cdiv (4 * byteAt b 1) 16 * 16 - 4 * byteAt b 1)
    && (grvImages b).all okImage
    && b.length == 32 + cdiv (4 * byteAt b 1) 16 * 16 + ((grvImages b).map fun i => cdiv i.length 16 * 16).sum
/-- The image of engine e, if it has one. -/
def imageOf (e : Nat) (s : State) : Option (List Byte) :=
  if engImage e s = 255 ∨ !cfgHas C.grvImg (engImage e s) s then none else some (cfgRec C.grvImg (engImage e s) s)
/-- Engine e has an image with a vector for event kind k. -/
def canDo (e k : Nat) (s : State) : Bool := (imageOf e s).any fun b => leAt b (4 + 2 * k) 2 != 0xFFFF
/-- The work that the SIGNAL and STIPPLE sections name for engines: engine and event kind (R315, R343). -/
def gvWork (s : State) : List (Nat × Nat) :=
  ((List.range 128).filterMap fun c => if cfgHas C.sigChan 0 s ∧ cfgN C.sigChan 0 c 1 s ≠ 255 then some (cfgN C.sigChan 0 c 1 s, 0) else none)
    ++ ((cfgIdx C.sigPdu s).filterMap fun p => match pduMode p s with
      | 2 => some (pduN p 0x1C 1 s, 3)
      | 5 => if pduN p 4 1 s = 2 then some (pduN p 0x1C 1 s, 1) else none
      | _ => if pduN p 4 1 s = 4 then none else some (pduN p 0x1C 1 s, 2))
    ++ ((cfgIdx C.sigCarrier s).map fun k => (carN k 25 1 s, if carN k 0 1 s = 0 then 6 else 1))
/-- The engines have what their work needs, and each hook lies in the image of every engine that runs it (R343). -/
def okEngines (s : State) : Bool :=
  (List.range 16).all (fun e => !cfgHas C.grvHdr 0 s || engImage e s == 255 || cfgHas C.grvImg (engImage e s) s)
    && (gvWork s).all (fun w => canDo w.1 w.2 s)
    && (cfgIdx C.sigPdu s).all fun p => pduN p 0x1F 1 s == 255
      || (imageOf (pduN p 0x1C 1 s) s).any fun b => decide (cfgN C.grvHook (pduN p 0x1F 1 s) 0 2 s < leAt b 0 2)

/-! ### CTL_IMAGE (R348, R364, R365) -/

/-- The vendor key in the boot ROM (R365), which the manual does not give. -/
def vendorKey : List Byte := ofNats (4 :: (List.range 64).map (Config.vendorByte 1))
/-- Cores that a service may run on (R364). -/
def serviceCore (svc n : Nat) : Bool := match svc with
  | 0 => n != 0 | 1 => n == 0 | 2 => n == 0 | _ => n != 0 && decide (svc ≤ 7)
/-- The section by itself: header, slot records, windows, images with vendor signatures. -/
def okCtlSec (b : List Byte) : Bool :=
  let ns := byteAt b 1
  let nw := leAt b 2 2
  let wins := recsAt b (32 + 32 * ns) 8 nw
  let imgs := ctlImages b (byteAt b 0) (ctlImgAt b)
  flds b [(0, 1, 1, 32), (1, 1, 1, 64), (2, 2, 1, 128)] && zs b 4 12
    && (List.range 4).all (fun n => orNone 0 (leAt b (16 + 4 * n) 4) 100 1000000)
    && every (recsAt b 32 32 ns) (fun _ r => flds r [(0, 1, 0, 3), (1, 1, 0, 15), (3, 1, 0, 1), (4, 1, 0, 3), (5, 1, 0, 7), (7, 1, 0, 1),
        (8, 4, 1000, 50000), (0x1C, 4, 0, 0)] && decide (leAt r 0x10 4 + leAt r 0x14 4 ≤ 262144) && serviceCore (byteAt r 5) (byteAt r 0))
    && every wins (fun _ r => decide (byteAt r 6 < 4) && decide (byteAt r 7 < 16)
      && decide (leAt r 0 4 + leAt r 4 2 ≤ leAt b (16 + 4 * byteAt r 6) 4))
    && (List.range 4).all (fun n =>
      let l := recsWhere wins fun r => byteAt r 6 == n
      decide (l.length ≤ 32) && (List.range (l.length - 1)).all fun i =>
        decide (leAt (l.getD i []) 0 4 + leAt (l.getD i []) 4 2 ≤ leAt (l.getD (i + 1) []) 0 4))
    && imgs.all (fun x => decide (byteAt x.1 16 ≤ 7) && zs x.1 17 3 && zs x.1 24 8
      && decide (leAt x.1 4 4 + leAt x.1 0 4 ≤ 393216) && decide (leAt x.1 12 4 + leAt x.1 8 4 ≤ 262144)
      && (byteAt x.1 16 == 0 || ecdsaVerify vendorKey (sha256 x.1) x.2))
    && b.length == ctlImgAt b + (imgs.map fun x => cdiv x.1.length 16 * 16 + x.2.length).sum
/-- No two ranges overlap: first and length. -/
def disjoint : List (Nat × Nat) → Bool
  | [] => true
  | (a, n) :: r => r.all (fun x => a + n ≤ x.1 || x.1 + x.2 ≤ a || n == 0 || x.2 == 0) && disjoint r
/-- The services that the slots in force run. -/
def services (s : State) : List Nat := (List.range 4).flatMap fun n => (slotsOn n s).map fun k => slotN n k 5 1 s
/-- Everything the cores need (R364, R365), judged on the whole plate. The required services are content checks of
CTL_IMAGE: a plate with no such section holds nothing that they could fail (DEDUCED, log entry 12). -/
def okCores (s : State) : Bool :=
  let sv := services s
  (List.range 4).all (fun n =>
    (slotsOn n s).all (fun k => cfgHas C.ctlImg (slotN n k 2 1 s) s && cfgN C.ctlImg (slotN n k 2 1 s) 16 1 s == slotN n k 5 1 s)
      && disjoint ((slotsOn n s).map fun k => (slotN n k 0x10 4 s, slotN n k 0x14 4 s))
      && disjoint ((coreImages n s).map fun i => (cfgN C.ctlImg i 4 4 s, cfgN C.ctlImg i 0 4 s))
      && (winsOf n s).all fun i => decide (slotN n (winN i 7 1 s) 0xC 4 s ≤ winN i 4 2 s * 1200))
    && ((cfgIdx C.ctlImg s).isEmpty || ([1, 2, 4].all (sv.contains ·)
      && (!((List.range 16).any fun p => cfgN C.msPort p 0 1 s == 1) || sv.contains 3)
      && (!((cfgIdx C.sigDef s).any fun i => sigN i 6 2 s != 0xFFFF && sigN i 6 2 s != ownNode s) || sv.contains 5)
      && (!((cfgIdx C.sigRoute s).any fun r => cfgN C.sigRoute r 3 1 s == 2) || sv.contains 5)
      && (!((List.range 4).any fun i => cfgN C.recorder 0 (8 + 4 * i) 2 s != 0xFFFF && cfgHas C.recorder 0 s) || sv.contains 6)))

/-! ### A stage -/

/-- A section's own check. -/
def okSec (t : Nat) (b : List Byte) (s : State) : Bool := match t with
  | 0x01 => okSystem b
  | 0x02 => okClock b
  | 0x03 => okTime b
  | 0x04 => okStipple b
  | 0x05 => okQueue b
  | 0x06 => okL2 b fun p => portModeIn p s.cfg != 0
  | 0x07 => okL3 b
  | 0x08 => okStream b (unitInUse · · s.cfg)
  | 0x09 => okAcl b
  | 0x0A => okMirror b
  | 0x0B => okEth b
  | 0x0C => okT1s b
  | 0x0D => okCan b
  | 0x0E => okLin b
  | 0x0F => okSbs b
  | 0x10 => okSigHead b
  | 0x11 => okGraver b
  | 0x12 => okCtlSec b
  | 0x13 => okKeyPol b
  | 0x14 => okMacsec b
  | 0x15 => okSleep b (ownNode s)
  | 0x16 => okAlm b
  | 0x17 => okRoster b (ownNode s) fun n => (peerOf n s).isSome
  | 0x18 => okHost b
  | 0x19 => okRecorder b
  | _ => true

/-- Every policer that a stream, an ACL rule or a containment unit names stands in its pipeline's list (R183, R200; DEDUCED,
log entry 13). -/
def okPolicers (s : State) : Bool :=
  let has (p i : Nat) : Bool := cfgHas (C.spPolicer + p) i s
  [0, 1].all (fun p =>
      (cfgIdx (C.spStream + p) s).all (fun i => cfgN (C.spStream + p) i 0 1 s == 3 || cfgN (C.spStream + p) i 0x1A 2 s == 0xFFFF
        || has p (cfgN (C.spStream + p) i 0x1A 2 s))
      && (cfgIdx (C.aclRule + p) s).all fun i => !bit (cfgN (C.aclRule + p) i 64 2 s) 2 || has p (cfgN (C.aclRule + p) i 68 2 s))
    && (cfgIdx C.spUnit s).all fun u => !unitKept u s || cfgN C.spUnit u 14 2 s == 0xFFFF || has (if u < 16 then 0 else 1) (cfgN C.spUnit u 14 2 s)
/-- The keys of the blocks that the routes of a table need behind bit b of a w-bit address (R177, R178). -/
def trieBlocks (t w b : Nat) (s : State) : List Nat :=
  ((cfgIdx t s).filter fun i => decide (b < i / 2 ^ 128)).map fun i => i % 2 ^ 128 / 2 ^ (w - b)
/-- Both tries fit their block counts, and each tail block its 8 prefixes (R177, R178). -/
def okTries (s : State) : Bool :=
  let fits (t w b lim : Nat) : Bool := decide ((trieBlocks t w b s).eraseDups.length ≤ lim)
  [16, 24].all (fits C.l3V4 32 · 1024) && [16, 24, 32, 40, 48].all (fits C.l3V6 128 · 512) && fits C.l3V6 128 56 1024
    && (let l := trieBlocks C.l3V6 128 56 s
        l.all fun k => decide ((l.filter (· == k)).length ≤ 8))
    && decide ((cfgIdx C.l3V4 s).length ≤ 16384) && decide ((cfgIdx C.l3V6 s).length ≤ 4096)
/-- What the tables of all sections must satisfy together. -/
def okTables (s : State) : Bool :=
  (fdbLoad s).1 && ((cfgIdx C.l3V4 s).map (cfgN C.l3V4 · 2 2 s) ++ (cfgIdx C.l3V6 s).map (cfgN C.l3V6 · 2 2 s)).all (fun h => cfgHas C.l3Hop h s)
    && decide ((cfgIdx C.ethFrer s).length ≤ 512)
    -- a port that a stipple-reserved queue targets (R212), and that has PREEMPT set (R214)
    && (cfgIdx C.queueRec s).all (fun q => !isRsvQueue q || !(qTarget q s).1 == 0 || decide (16 ≤ (qTarget q s).2)
      || (!bit (cfgN C.ethPort (qTarget q s).2 4 2 s) 0
        && (!bit (cfgN C.ethPort (qTarget q s).2 4 2 s) 4 || cfgN C.ethPort (qTarget q s).2 0xE 1 s == 0)))
    && okPolicers s && okTries s
    && okSignals s && okEntries s && okEngines s

/-- The content checks of a stage on sections and the records they leave (R45 steps 10 and 13). -/
def contentOk (full : Bool) (l : List (Nat × List Byte)) (c : Cfg) (s : State) : Bool :=
  let s := { s with cfg := c }
  l.all (fun x => okSec x.1 x.2 s) && okTables s && (!full || okCores s)

end Sys2Proof.Machine
end

