-- ==== Sys2Proof/Machine/Start.lean ====
section
/-! DEFINITION. Starts: resets, the step sequence, copy selection, enabling, failures, and the states that a start ends in
(02_start_up_and_plate.md, R36–R65, R70–R77; R390, R498, R500–R503). A start runs within its command; what its
surroundings answer meanwhile is the command's StartEnv. -/

namespace Sys2Proof.Machine

/-! ### What a reset keeps (R12, R36, R499) -/

/-- Whether the register field with a key in the register table survives a WRST: its class is POR (R12). -/
def warmKeep (key : Nat) : Bool := match findReg (key / 32) regMap with
  | none => false
  | some (d, _, _) => d.fields.any fun f => !f.warm && f.lo == key % 32

/-- Only the MRAM, the flash and what the model keeps of its own outlive the supplies (R36, R499). An MRAM operation that has
started completes (R500). -/
def keepCold (s : State) : State :=
  let s := mramCompleteAll s
  { free := s.free, out := s.out, pending := s.pending,
    mram := { s.mram with started := [], waiting := [] },
    rcd := { areaA := s.rcd.areaA, areaB := s.rcd.areaB, era := s.rcd.era },
    key := { slots := tmap (fun _ (x : KeySlot) => { x with count := 0 }) s.key.slots, ident := s.key.ident,
             cert := s.key.cert, lcCount := s.key.lcCount },
    sys := { flash := s.sys.flash } }

/-- A WRST and a wake start keep the always-on domain too: the registers of class POR, the wake latches and inputs, the
operating seconds, the tamper monitor and the brown-out monitor (R12, R24, R36, R498). -/
def keepWarm (s : State) : State :=
  let s := mramCompleteAll s
  let c := keepCold s
  { c with
    regs := tfilter (fun k _ => warmKeep k) s.regs,
    mram := { c.mram with waiting := s.mram.waiting.filter fun o => match o with
      | .tamperLatch _ _ _ => true
      | .lifeCycle _ => true
      | _ => false },
    rcd := { c.rcd with secs := s.rcd.secs },
    key := { c.key with refusedTokens := s.key.refusedTokens, latched := s.key.latched },
    pwr := { brown := s.pwr.brown, brownRec := s.pwr.brownRec },
    slp := { active := s.slp.active, outs := s.slp.outs, toWake := s.slp.toWake, lastWhy := s.slp.lastWhy, late := s.slp.late,
             lateRecs := s.slp.lateRecs } }

/-- A further step of a start: the records made before it are of an earlier tick (R506). -/
def nextEra (s : State) : State := { s with rcd := { s.rcd with era := s.rcd.era + 1 } }

/-- Step 1 of every start (R41, R45, R48, R502): every transmitter is gated, WDT_OUT is released and toggles, INH is high, and
the cause is shown. At a POR and a WRST FAULT_N is low until the full stage (R501, R530). -/
def startBegin (c : Cause) (env : StartEnv) (s : State) : State :=
  let s := { s with sys := { s.sys with running := true },
                    slp := { s.slp with inh := true },
                    pwr := { s.pwr with mode := 0, gated := true, sbsClrN := false, wdtRun := true, wdtLow := false,
                                        faultN := decide (c ≠ .wake) } }
  let s := s |> wr F.SYS_RST_CAUSE_POR (b2n (c == .por)) |> wr F.SYS_RST_CAUSE_WRST_PIN (b2n (c == .wrstPin))
    |> wr F.SYS_RST_CAUSE_HOST_REQ (b2n (c == .hostReq)) |> wr F.SYS_RST_CAUSE_WDOG (b2n (c == .wdog))
    |> wr F.SYS_RST_CAUSE_LIFECYCLE (b2n (c == .lifeCycle)) |> wr F.SYS_RST_CAUSE_FENCE (b2n (c == .fence))
    |> wr F.SYS_RST_CAUSE_WAKE (b2n (c == .wake)) |> wr F.SYS_RST_CAUSE_PROTECT (b2n (c == .protect))
  s |> wr F.PWR_STAT_SILENT 1 |> wrB F.PWR_STAT_FAULT (c ≠ .wake) |> wrB F.SYS_STAGE_STAT_PENDING (pageRequest s).isSome
    |> wr F.SYS_FLOOR_FLOOR s.mram.start.floor |> gaugeSample env.huMv |> recLoad (c == .por) |> nextEra
    |> (fun s => each s.slp.lateRecs (fun l => record 0x0900 l.1 l.2) { s with slp := { s.slp with lateRecs := [] } })
    |> fun s => match s.pwr.brownRec with
      | some mv => record 0x0205 0 mv { s with pwr := { s.pwr with brownRec := none } }
      | none => s

/-! ### Stages and failures (R74–R77) -/

/-- SYS_BOOT_STAT.STAGE changes: HST_IRQ shows it. -/
def setStage (n : Nat) (s : State) : State :=
  if stage s = n then s else irqCause F.HST_IRQ_STAGE (wr F.SYS_BOOT_STAT_STAGE n s)

/-- A failure is shown and recorded (R74): copy 0 A, 1 B, 3 none. -/
def startFail (copy code : Nat) (s : State) : State :=
  nextEra (s |> wr F.SYS_BOOT_STAT_FAIL_CODE code |> wr F.SYS_BOOT_STAT_FAIL_COPY copy |> record 0x0100 copy code)

/-- The start is over. -/
def startOver (s : State) : State :=
  { s with sys := { s.sys with running := false, held := false, waitEnv := none } }

/-- The halted state (R76). -/
def startHalt (s : State) : State := startOver (s |> gateSilent 4 |> assertFault |> setStage 7)

/-- A staged copy that failed: its page is rewritten as rejected (R70). -/
def stagedFail (st : Option Bool) (b : Bool) (code : Nat) (s : State) : State :=
  if st = some b then pageOutcome 2 code s else s

/-- The start flags of the SYSTEM section of a copy: of the records in force, else as they stand in the copy's first section,
decrypted where it is encrypted and the key is there (R57, R58, R60). -/
def startFlags (b : Bool) (s : State) : Nat :=
  if cfgHas C.system 0 s then cfgN C.system 0 2 2 s
  else
    let t := flashBytes (copyBase b + 0x100) 32 s
    let x : Sec := ⟨leAt t 0 2, bit (leAt t 2 2) 0, leAt t 8 4, 16, t, false⟩
    if x.type = 1 ∧ readable [x] s = true then leAt (secBody ((plateKey s).getD []) x) 2 2 else 0

/-- The early-only state (R77): the failure mark is written; with HALT_ON_EARLY_ONLY the early ports close and the device
halts. -/
def earlyOnly (b : Bool) (s : State) : State :=
  let s := startRecWrite { failMark := some (some b) } s
  if bit (startFlags b s) 1 then startHalt s
  else startOver (s |> wr F.SYS_LOCK_LOCK 1 |> assertFault |> setStage 6)

/-! ### Enabling (R41, R45 steps 10 and 13, R61) -/

/-- Record i of table t differs between the records formerly in force and those in force now. -/
def cfgNew (old : Cfg) (t i : Nat) (s : State) : Bool := cGet t i old != cfgRec t i s
/-- Some record of table t differs. -/
def cfgNewAny (old : Cfg) (t : Nat) (s : State) : Bool :=
  (cIdx t old ++ cfgIdx t s).any fun i => cfgNew old t i s

/-- The units whose records are new or changed are enabled on them; registers that report plate values follow. -/
def unitsEnable (old : Cfg) (s : State) : State :=
  s |> when ([C.timeHdr, C.timeDom, C.timePort].any (cfgNewAny old · s)) timeEnable
    |> queueEnable
    |> when ([C.l2Hdr, C.l2Port, C.l2Vlan, C.l2Group, C.l2Fdb, C.l3Hdr, C.l3Hop, C.l3V4, C.l3V6, C.spStream, C.spStream + 1,
        C.spPolicer, C.spPolicer + 1, C.spUnit, C.aclRule, C.aclRule + 1].any (cfgNewAny old · s)) lookupEnable
    |> when (cfgNew old C.sbs 0 s) sbsEnable
    |> each ((List.range 16).filter (cfgNew old C.ethPort · s)) ethEnable
    |> each ((List.range 16).filter (cfgNew old C.t1s · s)) t1sEnable
    |> each ((List.range 96).filter (cfgNew old C.canCh · s)) canEnable
    |> each ((List.range 32).filter (cfgNew old C.linCh · s)) linEnable
    |> each ((List.range 16).filter fun e =>
        let i := engImage e s
        i != 255 && (cfgNew old C.grvImg i s || engState e s != 1)) engStart
    |> grvShow

/-- Step 10: the early entries are enabled and the early ports open. A brown-out still in force keeps them closed (R491). -/
def earlyEnter (b fell quick : Bool) (h : List Byte) (bodies : List (Nat × List Byte)) (s : State) : State :=
  let s := { s with cfg := loadAll bodies, sys := { s.sys with header := h } }
  let s := s |> wr F.SYS_BOOT_STAT_COPY (b2n b) |> wrB F.SYS_BOOT_STAT_FALLBACK fell |> wr F.SYS_PLATE_STATE_STATE (hdrN h 0xC 4)
    |> wr F.SYS_PLATE_COMPAT_FROM (hdrN h 0x10 4)
  let s := if s.pwr.brown then s else wr F.PWR_STAT_SILENT 0 { s with pwr := { s.pwr with gated := false } }
  let (t, s) := fresh s
  -- the time of the early stage is open within its bound (R46, R48) [10 µs]
  s |> wr F.SYS_BOOT_TIME_EARLY_T (t % (if quick then 501 else 1501)) |> unitsEnable [] |> setStage 3

/-- The digests recorded at the end of a full start (R39): one for each section, and one for each graver and control-core
image. -/
def sectionDigest (x : Sec) : List Byte := sha256 x.stored
/-- The images of a section of graver code or core images by index, with offset and length within the content. -/
def imageSpans (t : Nat) (c : List Byte) : List (Nat × Nat) :=
  if t = 0x11 then
    (grvImages c).foldl (fun (a : List (Nat × Nat) × Nat) x => (a.1 ++ [(a.2, x.length)], a.2 + cdiv x.length 16 * 16))
      ([], 32 + cdiv (4 * byteAt c 1) 16 * 16) |>.1
  else
    (ctlImages c (byteAt c 0) (ctlImgAt c)).foldl (fun (a : List (Nat × Nat) × Nat) x =>
      (a.1 ++ [(a.2, x.1.length)], a.2 + cdiv x.1.length 16 * 16 + x.2.length)) ([], ctlImgAt c) |>.1
/-- The images of type t in the sections, by index; a later section's image replaces an earlier one's (R549): the digest over
the bytes as stored (R39) and the image. -/
def imageTable (t : Nat) (l : List Sec) (s : State) : Tbl (List Byte × List Byte) :=
  (l.filter (·.type == t)).foldl (fun tab x =>
    let c := secBody ((plateKey s).getD []) x
    let sp := imageSpans t c
    ((List.range sp.length).zip sp).foldl (fun tab e =>
      tput tab e.1 (sha256 (slice x.stored (16 + e.2.1) e.2.2), slice c e.2.1 e.2.2)) tab) []

/-- What the full stage writes of the start record (R42, R43, R48, R62, R510). -/
def fullRecord (b : Bool) (h : List Byte) (s : State) : StartWrite :=
  let cp := cfgRec C.clockPower 0 s
  { active := some (some b), header := some h, fallbackOk := some (some (bit (cfgN C.system 0 2 2 s) 0))
    failMark := if (startRecNow s).failMark = some b then some none else none
    floor := if bit (hdrN h 6 2) 1 then some (hdrN h 0xC 4) else none
    gauge := if cp = [] then none else some (leAt cp 2 2, leAt cp 4 2, leAt cp 6 2)
    therm := if cp = [] then none else some ((List.range 10).map fun i => byteAt cp (8 + i)) }

/-- HOST registers that report plate values (R488). -/
def hostShow (s : State) : State :=
  s |> wr F.HST_IRQ_VECTOR (cfgN C.hostHdr 0 6 1 s)
    |> each [0, 1] (fun i s => wr (F.HST_PERMi_PERM.u i) (if bit (cfgN C.hostHdr 0 7 1 s) i then cfgN C.hostIf i 0 4 s else 0) s)
    |> each (List.range 64) (fun q s => wr (F.HST_HQnn_CTRL_VECTOR.u q) (cfgN C.hostQ q 2 1 s) s)

/-- The network's groups at the full stage: all present ones are awake; those whose wake caused the start enter CONFIRMING and
the wake is passed on (R435, R437). -/
def groupsStart (s : State) : State :=
  let w := s.slp.toWake &&& slpPresent s
  let s := wr F.SLP_GROUP_AWAKE_AWAKE (clearBits (slpPresent s) w) s
  let s := if cfgHas C.slpHdr 0 s then
      wrB F.SLP_STAT_ORIGINATOR (slpN 0x14 2 s == ownNode s) { s with slp := { s.slp with origin := slpN 0x14 2 s } }
    else s
  let s := if w = 0 then s else wakeGroupsFor w s.slp.lastWhy s.slp.late s
  slpShow { s with slp := { s.slp with toWake := 0, late := false, ringAt := s.time.loc } }

/-- The whole plate comes into force with the digests that a reload compares (R39, R61). -/
def fullLoad (all : List Sec) (s : State) : State :=
  let s := { s with cfg := loadAll (secBodies all s) }
  { s with
    sys := { s.sys with digests := all.map sectionDigest,
                        imgGrv := (imageTable 0x11 all s).map fun e => (e.1, e.2.1),
                        imgCtl := (imageTable 0x12 all s).map fun e => (e.1, e.2.1) }
    stp := { s.stp with from_ := shortNs s + 1000000 } }

/-- The units of the full stage are enabled, the lock is set and the stage shown. -/
def fullUnits (old : Cfg) (quick : Bool) (s : State) : State :=
  let (t, s) := fresh s
  let e := rd F.SYS_BOOT_TIME_EARLY_T s
  s |> unitsEnable old |> each (List.range 16) msShow |> mirrorEvaluate (lcState s) |> hostShow
    |> each ((List.range 4).filter (coreUsed · s)) (fun n => coreStart n false)
    |> (fun s => prfShow { s with alm := { s.alm with fullAt := s.time.loc } }) |> wr F.SYS_LOCK_LOCK 1
    -- the time of the full stage is open within its bound (R46, R48) [10 µs]
    |> wr F.SYS_BOOT_TIME_FULL_T (e + t % ((if quick then 5001 else 6001) - e)) |> setStage 5

/-- SYS_RST_CAUSE as one number. -/
def causeBits (s : State) : Nat :=
  rd F.SYS_RST_CAUSE_POR s + 2 * rd F.SYS_RST_CAUSE_WRST_PIN s + 4 * rd F.SYS_RST_CAUSE_HOST_REQ s
    + 8 * rd F.SYS_RST_CAUSE_WDOG s + 16 * rd F.SYS_RST_CAUSE_LIFECYCLE s + 32 * rd F.SYS_RST_CAUSE_FENCE s
    + 64 * rd F.SYS_RST_CAUSE_WAKE s + 128 * rd F.SYS_RST_CAUSE_PROTECT s

/-- The start's end is noted: FAULT_N is released, the event recorded and the start record written (R43, R63, R506). -/
def fullNote (b : Bool) (h : List Byte) (s : State) : State :=
  let s := nextEra (if s.pwr.gated then s else wr F.PWR_STAT_FAULT 0 { s with pwr := { s.pwr with faultN := false } })
  record 0x0101 0 (causeBits s) s |> startRecWrite (fullRecord b h s)

/-- The staging page says that the staged copy started, as soon as the start record is written (R70). -/
def fullPage (st : Option Bool) (b : Bool) (s : State) : State :=
  if st = some b then
    (if s.mram.waiting.any MramOp.isStart then { s with sys := { s.sys with pageDue := true } } else pageOutcome 1 0 s)
  else s

/-- The tamper policy of the plate goes to MRAM (R392). -/
def fullPolicy (s : State) : State :=
  if cfgHas C.keyPol 0 s then mramStart (.tamperPolicy (slice (cfgRec C.keyPol 0 s) 4 6)) s else s

/-- Step 13: every remaining entry is enabled, and what the full stage leaves behind (R39, R45, R63, R70, R106, R194, R388,
R501, R510). -/
def fullEnter (st : Option Bool) (b quick : Bool) (h : List Byte) (all : List Sec) (s : State) : State :=
  startOver (groupsStart (fullPolicy (fullPage st b (fullNote b h (fullUnits s.cfg quick (fullLoad all s))))))

/-- The header of a copy. -/
def copyHeader (b : Bool) (s : State) : List Byte := flashBytes (copyBase b) 256 s

/-- Steps 8 to 10 (R45): 0, or the code of the first check that fails. A wake start checks no contents (R48). -/
def earlyCode (quick b : Bool) (s : State) : Nat :=
  let h := copyHeader b s
  match walkEarly (copyBase b) h s with
  | none => 0x0A
  | some (l, _, _) =>
    if !readable l s then 0x0C
    else if !earlyDigestOk h l then 0x09
    else if !padsOk l s then 0x0A
    else if !quick && !contentOk false (secBodies l s) (loadAll (secBodies l s)) s then 0x0B else 0

/-- Every section of a copy, when its walk holds. -/
def copySections (b : Bool) (h : List Byte) (s : State) : Option (List Sec × Nat) :=
  match walkEarly (copyBase b) h s with
  | none => none
  | some e => (walkFull (copyBase b) h e s).map fun r => (e.1 ++ r.1, r.2)

/-- Steps 11 to 13 (R45), the comparator test apart: 0, or the code of the first check that fails. -/
def fullCode (quick b : Bool) (s : State) : Nat :=
  let h := copyHeader b s
  match copySections b h s with
  | none => 0x0A
  | some (l, _) =>
    if !readable l s then 0x0C
    else if !plateDigestOk h l then 0x0F
    else if !padsOk l s then 0x0A
    else if !quick && !contentOk true (secBodies l s) (loadAll (secBodies l s)) s then 0x0B else 0

/-- The full stage of a copy that has reached its early stage. -/
def fullStage (env : StartEnv) (st : Option Bool) (b quick : Bool) (s : State) : State :=
  let s := setStage 4 s
  if env.upTo = .early then s
  else
    let failed (code : Nat) (s : State) : State := earlyOnly b (stagedFail st b code (startFail (b2n b) code s))
    let c := fullCode quick b s
    if c ≠ 0 then failed c s
    else
      let s := each (List.range 4) (fun n => coreTested n (!bit env.cmpFail.toNat n)) s
      if env.cmpFail ≠ 0 then failed 0x10 s
      else fullEnter st b quick (copyHeader b s) (((copySections b (copyHeader b s) s).map (·.1)).getD []) s

/-- The copies of a list tried in turn, until one reaches its early stage; with none left the device halts (R43–R46). `st`
names the staged copy; `quick` holds for the first copy of a wake start under R48. -/
def tryCopies (env : StartEnv) (st : Option Bool) : Bool → Bool → List Bool → State → State
  | _, _, [], s => startHalt s
  | quick, fell, b :: r, s =>
    let s := { s with sys := { s.sys with trying := some b } }
    let s := setStage 1 (if st = some b then wr F.SYS_BOOT_STAT_STAGED_TRY 1 s else s)
    let c := if !env.flashAnswers then 1 else if quick then 0 else headerCode (copyHeader b s) s
    if c ≠ 0 then tryCopies env st false true r (stagedFail st b c (startFail (b2n b) c s))
    else
      let s := setStage 2 s
      if env.upTo = .none then s
      else
        let c := earlyCode quick b s
        if c ≠ 0 then tryCopies env st false true r (stagedFail st b c (startFail (b2n b) c s))
        else
          let h := copyHeader b s
          let l := match walkEarly (copyBase b) h s with | some e => e.1 | none => []
          fullStage env st b quick (earlyEnter b fell quick h (secBodies l s) s)

/-- The active copy: A when the marker is blank (R43). -/
def activeCopy (s : State) : Bool := s.mram.start.active.getD false

/-- The staging page names the active copy with its stored header: the request counts as accepted (R70). -/
def pageDone (p : List Byte) (s : State) : Bool :=
  (byteAt p 8 == 1) == activeCopy s && s.mram.start.header != [] && slice p 0x10 32 == slice s.mram.start.header 0x1C 32

/-- The staged copy that a start tries, with the page completed where it counts as accepted (R43, R70). -/
def stagedCopy (s : State) : Option Bool × State := match pageRequest s with
  | none => (none, s)
  | some p => if pageDone p s then (none, pageOutcome 1 0 s) else (some (byteAt p 8 == 1), s)

/-- The list of R43. -/
def copyList (st : Option Bool) (s : State) : List Bool :=
  let a := activeCopy s
  let l := st.toList ++ [a] ++ (if s.mram.start.fallbackOk.getD true || st.isSome then [!a] else [])
  let l := match s.mram.start.failMark with
    | some m => if l.contains m then l.filter (· != m) ++ [m] else l
    | none => l
  l.eraseDups

/-- Steps 5 to 13 on the copies that BOOT_SEL selects (R42, R43). -/
def plateStart (env : StartEnv) (sel : Nat) (s : State) : State :=
  if sel = 1 then tryCopies env none false false [true] s
  else
    let (st, s) := stagedCopy s
    tryCopies env st false false (copyList st s) s

/-- Step 4 and on: recovery, or a plate start. Recovery is not accepted in SCRAPPED (R72). -/
def startGo (env : StartEnv) (s : State) : State :=
  if rd F.SYS_STRAP_BOOT_SEL s = 2 then
    (if lcState s = 5 then startHalt (startFail 3 5 s) else startOver (setStage 8 s))
  else plateStart env (rd F.SYS_STRAP_BOOT_SEL s) s

/-- An active tamper input stops a start (R45 step 4, R74, R390): the response of each source is applied. -/
def tamperHold (src : Nat) (s : State) : State :=
  let s := each (bitList src 6) tamperDetect s
  startFail 3 0x0D { s with sys := { s.sys with held := true } }

/-- Steps 3 and 4 of R45, once the power-cycle count is written. -/
def startCheck (env : StartEnv) (s : State) : State :=
  let s := { s with sys := { s.sys with waitEnv := none } }
  let sel := rd F.SYS_STRAP_BOOT_SEL s
  let lc := lcState s
  if sel = 3 then (if lc = 1 then startOver (setStage 9 s) else startHalt (startFail 3 0x0E s))
  else if sel ≠ 2 ∧ (lc = 0 ∨ lc = 5) then startHalt (startFail 3 5 s)
  else if env.tamper ≠ 0 then tamperHold env.tamper.toNat s
  else startGo env s

/-- What step 3 of every start reads and does: detections latched while the device slept are applied (R391), the slots are
read (R376, R377, R385), and the link's start counter moves on (R448). -/
def startRead (s : State) : State :=
  almRebase ({ s with alm := { s.alm with resync := true } } |> tamperTransfer |> keyStart)

/-- POWER_ON_RESET (R36, R37, R45, R498, R503): the power-cycle count is written first; until that write starts the start
waits at step 3. -/
def execPowerOnReset (env : StartEnv) (s : State) : Res :=
  .next (let s := startBegin .por env (wr F.SYS_STRAP_BOOT_SEL env.bootSel (keepCold s))
    let (ok, s) := mramNow .powerCycle s
    let s := startRead s
    if ok then startCheck env s else { s with sys := { s.sys with waitEnv := some env } })

/-- WARM_RESET (R36, R38): WRST_N, or a WRST that has been requested; without either nothing happens. -/
def execWarmReset (pin : Bool) (env : StartEnv) (s : State) : Res :=
  .next (if s.pwr.mode = 4 ∨ (pin = false ∧ s.sys.request = none) then s
  else startCheck env (startRead (startBegin (s.sys.request.getD .wrstPin) env (keepWarm s))))

/-- MRAM_RETRY (R498): every operation that R63 does not retry; in STANDBY and SLEEP the MRAM takes no new one (R24). A POR
that waits for the power-cycle count goes on once its write starts. -/
def execMramRetry (s : State) : Res :=
  .next (if !awake s then s else
    let n := s.mram.waiting.contains .powerCycle
    let s := mramRetry (fun o => !o.isStart) s
    match s.sys.waitEnv with
    | some env => if n && !s.mram.waiting.contains .powerCycle then startCheck env s else s
    | none => s)

/-- START_RECORD_RETRY (R63, R70): once the record is written, a staged copy's page is completed. -/
def execStartRecordRetry (s : State) : Res :=
  .next (if !awake s then s else
    let s := mramRetry MramOp.isStart s
    if s.sys.pageDue && !s.mram.waiting.any MramOp.isStart then
      pageOutcome 1 0 { s with sys := { s.sys with pageDue := false } }
    else s)

/-- The wake start takes the path of R48 when the stored header matches, no request is pending and no failure mark is set
(R49). -/
def wakeQuick (s : State) : Bool :=
  s.mram.start.header != [] && copyHeader (activeCopy s) s == s.mram.start.header && (pageRequest s).isNone
    && s.mram.start.failMark.isNone && (rd F.SYS_STRAP_BOOT_SEL s == 0 || activeCopy s)

/-- The active copy, then the rest of the list of R43; with copy B forced only that. -/
def wakeList (s : State) : List Bool :=
  activeCopy s :: (if rd F.SYS_STRAP_BOOT_SEL s = 0 && s.mram.start.fallbackOk.getD true then [!activeCopy s] else [])

/-- Steps 4 and on of a wake start (R48, R49): on the short path header, signature and contents are not checked. -/
def wakeGo (env : StartEnv) (s : State) : State :=
  if wakeQuick s && env.flashAnswers then tryCopies env none true false (wakeList s) s
  else startGo env s

/-- WAKE_START (R36, R48, R49, R390, R391): a wake latched in SLEEP. -/
def execWakeStart (env : StartEnv) (s : State) : Res :=
  .next (if s.pwr.mode = 3 ∧ s.slp.inh = true ∧ sleepEntering s = false then
    let s := startRead (startBegin .wake env (keepWarm s))
    let sel := rd F.SYS_STRAP_BOOT_SEL s
    let lc := lcState s
    if 1 < sel ∨ lc = 0 ∨ lc = 5 then startCheck env s
    else if env.tamper ≠ 0 then tamperHold env.tamper.toNat s
    else wakeGo env s
  else s)

/-- START_WATCHDOG (R58, R74): a start that has not reached its end fails with TIMEOUT: early-only, or halted before the early
stage. -/
def execStartWatchdog (s : State) : Res :=
  .next (if !s.sys.running then s
  else
    let st := if rdB F.SYS_BOOT_STAT_STAGED_TRY s then (pageRequest s).map fun p => byteAt p 8 == 1 else none
    match s.sys.trying with
    | none => startHalt (startFail 3 0x11 s)
    | some b =>
      let s := stagedFail st b 0x11 (startFail (b2n b) 0x11 s)
      if stage s = 3 ∨ stage s = 4 then earlyOnly b s else startHalt s)

/-- TAMPER_HOLD_CLEARED (R74, R390): the inputs are inactive and no WRST is under way: the start resumes at step 5 of R45, a
wake start too. -/
def execTamperHoldCleared (env : StartEnv) (s : State) : Res :=
  .next (if s.sys.held && s.sys.request.isNone && env.tamper == 0 then
    let s := wr F.KEY_TAMPER_STAT_ACTIVE 0 { s with sys := { s.sys with held := false } } |> tamperQuiet 2
    startGo env s
  else s)

/-- SUPPLIES_REMOVED (R420, R499, R500): MRAM operations that have started complete; the device is off. -/
def execSuppliesRemoved (s : State) : Res := .next (keepCold s)

end Sys2Proof.Machine
end

