-- ==== Sys2Proof/Machine/Staging.lean ====
section
/-! DEFINITION. Staging a plate, RECOVER_START, domain resets and reloads, restored table entries, and diagnostic reads
(02_start_up_and_plate.md, R39, R66–R71; R197, R340, R362, R509, R520). -/

namespace Sys2Proof.Machine

/-! ### Staging (R66–R71) -/

/-- The states in which both interfaces may stage: halted and recovery (R66, R72, R76). -/
def stageFree (s : State) : Bool := stage s == 7 || stage s == 8
/-- Whether an interface may stage (R66, R487). -/
def mayStage (who : Initiator) (s : State) : Bool := match hostOf who with
  | some i => stageFree s || bit (hostPerm i s) 1
  | none => false
/-- The status byte of the latest command. -/
def stageStatus (st : Status) (s : State) : State := wr F.SYS_STAGE_STAT_STATUS st.code s
/-- A command's flash work begins: BUSY until STAGE_COMMAND_DONE. -/
def stageBusy (cmd : Nat) (st : Status) (code : Nat) (s : State) : State :=
  stageStatus .busy { s with sys := { s.sys with done := some (cmd, st.code, code) } }
/-- The session as the status register shows it. -/
def sessionShow (x : Option Session) (s : State) : State :=
  let s := wrB F.SYS_STAGE_STAT_SESSION x.isSome { s with sys := { s.sys with session := x } }
  match x with
  | some x => wr F.SYS_STAGE_STAT_COPY (b2n x.copyB) s
  | none => s
/-- The bytes that OPEN erases for a plate of P bytes: 64 KiB blocks that lie wholly within the copy's range, else 4 KiB
sectors (R67). -/
def eraseLen (P : Nat) : Nat :=
  if P ≤ 255 * 65536 then cdiv P 65536 * 65536 else 255 * 65536 + cdiv (P - 255 * 65536) 4096 * 4096

/-- The session on a copy begins: its flash that covers P is erased and the command takes its time (R67). -/
def stageOpened (c : Bool) (P : Nat) (s : State) : State :=
  stageBusy 1 .ok 0 (sessionShow (some ⟨c, P, []⟩) (flashErase (copyBase c) (eraseLen P) { s with sys := { s.sys with closedB := none } }))

/-- OPEN. -/
def stageOpen (copyB : Bool) (s : State) : State :=
  let P := rd F.SYS_STAGE_ARG_ARG s
  if s.sys.session.isSome then stageStatus .busy s
  else if P < 256 ∨ copyMax < P then stageStatus .fault s
  else
    stageOpened (if stageFree s then copyB else rd F.SYS_BOOT_STAT_COPY s == 0) P
      (if (pageRequest s).isSome then pageOutcome 0 0 s else s)

/-- WRITE. -/
def stageWriteCmd (s : State) : State :=
  let o := rd F.SYS_STAGE_ARG_ARG s
  match s.sys.session with
  | none => stageStatus .fault s
  | some x =>
    if o % 4096 ≠ 0 ∨ x.len ≤ o ∨ x.written.contains o then stageStatus .fault s
    else
      let b := (List.range (min 4096 (x.len - o))).map fun k => tget 0 s.sys.bufBytes k
      stageBusy 2 .ok 0 (sessionShow (some { x with written := o :: x.written }) (flashPut (copyBase x.copyB + o) b s))

/-- The checks of CLOSE: 0, or the code of the first that fails (R67). -/
def closeCode (b : Bool) (s : State) : Nat :=
  let h := copyHeader b s
  let c := headerCode h s
  if c ≠ 0 then c
  else match walkEarly (copyBase b) h s with
    | none => 0x0A
    | some e => match walkFull (copyBase b) h e s with
      | none => 0x0A
      | some (l, _) =>
        if !earlyDigestOk h e.1 then 0x09 else if !plateDigestOk h (e.1 ++ l) then 0x0F else 0

/-- CLOSE: the outcome stands when its flash work is done. -/
def stageClose (s : State) : State := match s.sys.session with
  | none => stageStatus .fault s
  | some x =>
    let c := closeCode x.copyB s
    stageBusy 3 (if c = 0 then .ok else .fault) c s

/-- ABORT. -/
def stageAbort (s : State) : State := match s.sys.session with
  | none => stageStatus .fault s
  | some _ => stageStatus .ok (sessionShow none s)

/-- RECOVER_START closes the session and begins a start from the halted or recovery state (R67). -/
def recoverBegin (s : State) : State :=
  sessionShow none (stageStatus .ok { s with cfg := [], sys := { s.sys with trying := none, running := true } })
    |> wr F.SYS_BOOT_STAT_STAGED_TRY 0 |> wr F.SYS_BOOT_STAT_FALLBACK 0 |> wr F.SYS_BOOT_STAT_COPY 3

/-- RECOVER_START: the copies of R43 with the closed copy first, whatever the strap says. -/
def stageRecover (env : StartEnv) (s : State) : State :=
  if stage s ≠ 7 ∧ stage s ≠ 8 then stageStatus .denied s
  else
    let s := recoverBegin s
    if lcState s = 0 ∨ lcState s = 5 then startHalt (startFail 3 5 s)
    else
      let c := s.sys.closedB
      let (st, s) := stagedCopy s
      tryCopies env st false false (c.toList ++ copyList st s).eraseDups s

/-- A write of SYS_STAGE_CTRL: refused without the permission, and while a command runs (R66, R477). -/
def stageCommand (who : Initiator) (f : State → State) (s : State) : Status × State :=
  if !mayStage who s then (.denied, stageStatus .denied s)
  else if s.sys.done.isSome then (.busy, s)
  else (.ok, f s)

/-- The initiator of a host interface. -/
def ifaceInit : Iface → Initiator
  | .pcie => .pcie
  | .xspi => .xspi

/-- OPEN (R67). -/
def execOpen (who : Iface) (copyB : Bool) (s : State) : Res :=
  .next (hostWrite (ifaceInit who) 0x30 (stageCommand (ifaceInit who) (stageOpen copyB)) s)
/-- STAGE_WRITE (R67). -/
def execStageWrite (who : Iface) (s : State) : Res :=
  .next (hostWrite (ifaceInit who) 0x30 (stageCommand (ifaceInit who) stageWriteCmd) s)
/-- CLOSE (R67). -/
def execClose (who : Iface) (s : State) : Res :=
  .next (hostWrite (ifaceInit who) 0x30 (stageCommand (ifaceInit who) stageClose) s)
/-- ABORT (R67). -/
def execAbort (who : Iface) (s : State) : Res :=
  .next (hostWrite (ifaceInit who) 0x30 (stageCommand (ifaceInit who) stageAbort) s)
/-- RECOVER_START (R67). -/
def execRecoverStart (who : Iface) (env : StartEnv) (s : State) : Res :=
  .next (hostWrite (ifaceInit who) 0x30 (stageCommand (ifaceInit who) (stageRecover env)) s)

/-- The environment of a RECOVER_START that a plain register write of SYS_STAGE_CTRL asks for: what the flash and the tests
answer is open, the rest does not matter there. -/
def recoverEnv (s : State) : StartEnv × State :=
  let (a, s) := fresh s
  let (b, s) := fresh s
  let (c, s) := fresh s
  ({ bootSel := 0, tamper := 0, flashAnswers := a % 2 == 1, huMv := 0, cmpFail := BitVec.ofNat 4 b,
     upTo := if c % 3 = 0 then .full else if c % 3 = 1 then .early else .none }, s)

/-- A word written to SYS_STAGE_CTRL (R67): the command of its CMD field; others return FAULT. -/
def stageCtrlWrite (who : Initiator) (v : Nat) (s : State) : Status × State :=
  stageCommand who (fun s => match v % 16 with
    | 1 => stageOpen (bits v 4 2 == 1) s
    | 2 => stageWriteCmd s
    | 3 => stageClose s
    | 4 => stageAbort s
    | 5 => let (env, s) := recoverEnv s; stageRecover env s
    | _ => stageStatus .fault s) s

/-- The end of CLOSE (R66–R68): the session ends, the verify code shows, and after a good copy the staging page asks for
its start. -/
def closeEnd (st code : Nat) (s : State) : State := match s.sys.session with
  | none => s
  | some x =>
    let h := copyHeader x.copyB s
    let t := wr F.SYS_STAGE_STAT_VERIFY_CODE code (sessionShow none s)
    if st ≠ 0 then t
    else pageWrite x.copyB 1 0 0 (hdrN h 0xC 4) (slice h 0x1C 32) { t with sys := { t.sys with closedB := some x.copyB } }

/-- STAGE_COMMAND_DONE (R67): the status byte replaces BUSY; a CLOSE that has passed leaves the request in the staging page. -/
def execStageCommandDone (s : State) : Res :=
  .next (match s.sys.done with
    | none => s
    | some (cmd, st, code) =>
      let s := wr F.SYS_STAGE_STAT_STATUS st { s with sys := { s.sys with done := none } }
      if cmd = 3 then closeEnd st code s else s)

/-! ### Domain resets (R39, R340, R362, R449, R520) -/

/-- The section types that configure a domain: those whose blocks the domain serves (R24, R56, R513). SYSTEM, CLOCK_POWER,
SLEEP and RECORDER configure the AON domain, which is never reset so. -/
def domTypes : Domain → List Nat
  | .fld => [0x0C, 0x0D, 0x0E, 0x0F]
  | .fab => [0x03, 0x04, 0x05, 0x06, 0x07, 0x08, 0x09, 0x0A, 0x0B]
  | .grv => [0x10, 0x11]
  | .ctl => [0x12, 0x13, 0x16, 0x17]
  | .cip => [0x14]
  | .sds => [0x0B, 0x18]
  | .aon => []
  | .mram => []

/-- The sections of the copy in use, as they stand in the flash now. -/
def activeSections (s : State) : Option (List Sec × Nat) := copySections (rd F.SYS_BOOT_STAT_COPY s == 1) s.sys.header s

/-- The sections of some types read again agree with their digests in the start-record memory (R39). -/
def digestsAgree (types : List Nat) (s : State) : Bool := match activeSections s with
  | none => false
  | some (l, _) => l.length == s.sys.digests.length
      && (l.zip s.sys.digests).all fun x => !types.contains x.1.type || sectionDigest x.1 == x.2

/-- A slot without its buffered frame. -/
def slotLost : Slot → Slot
  | .buf _ _ => .empty
  | x => x

/-- What a queue keeps when the FAB domain loses its frames: its counts, the high-water mark that only a WRST clears (R160),
and the consumers that wait on it (log entry 84). -/
def queueKept (x : Queue) : Queue :=
  { high := x.high, enq := x.enq, refused := x.refused, evicted := x.evicted, flushed := x.flushed, waits := x.waits }

/-- The internal state of a domain is lost (R24, R39, R340, R449, R520); registers and table counters stay. -/
def domLost (d : Domain) (s : State) : State := match d with
  | .fld =>
    let s := each (s.can.chans.filterMap fun c => c.2.slot.map (·.2)) releaseFrame s
    let s := readStop (fun r => match r with | .can _ => true | .lin _ => true | _ => false) s
    { s with can := {}, lin := {}, t1s := {}, sbs := {} }
  | .fab =>
    { s with qm := { nextId := s.qm.nextId, queues := tmap (fun _ q => queueKept q) s.qm.queues }, hst := { s.hst with stash := [] },
             sig := { s.sig with snaps := tmap (fun _ x => { x with pin := [] }) s.sig.snaps },
             can := { s.can with chans := tmap (fun _ c => c.noSlot) s.can.chans },
             grv := { engs := tmap (fun _ e => { e with ctxs := tmap (fun _ c => { c with f0 := slotLost c.f0, f1 := slotLost c.f1 }) e.ctxs }) s.grv.engs },
             ctl := { s.ctl with cores := tmap (fun _ c => { c with holders := [] }) s.ctl.cores } }
  | .grv =>
    let s := each (List.range 16) (fun e s =>
      let s := each (List.range 8) (fun c s => if (ctx e c s).st = 0 then s else ctxFree e c s) s
      let s := engSet e { users := (eng e s).users, fence := (eng e s).fence } s
      if engImage e s = 255 then s else wr (F.GRV_GVn_STAT_STATE.u e) 3 s) s
    { s with sig := { pdus := tmap (fun _ p => { sent := p.sent, rcvd := p.rcvd, e2e := p.e2e, auth := p.auth, supp := p.supp, gaps := p.gaps }) s.sig.pdus } }
  | .ctl =>
    let s := each (List.range 4) (fun n s =>
      let s := each (List.range 16) (fun h => holderRelease n h) (sliceClear n s)
      let s := each (List.range 16) (fun j => coreUnwait n j) s
      coreSet n { core n s with fenced := true, cur := none, held := [] } s) s
    { s with ctl := { s.ctl with shared := [] }, alm := { seq := s.alm.seq, resync := true, lostAt := s.time.loc, fullAt := s.time.loc } }
  | .cip => cipLost s
  | .sds => each (List.range 16) linkDown { s with eth := { s.eth with ports := [], mdio := [] } }
  | .aon => s
  | .mram => s

/-- DOMAIN_RESET (R39): the domain's outputs are held fail-silent and its internal state is lost, until its sections have been
read again. The AON domain and the MRAM have no sections and are never reset so; without a plate in force nothing is. -/
def execDomainReset (d : Domain) (s : State) : Res :=
  .next (if domTypes d = [] ∨ (stage s ≠ 5 ∧ stage s ≠ 6) ∨ 1 < s.pwr.mode then s
  else
    let s := { s with sys := { s.sys with domDue := s.sys.domDue.filter (· != Domain.num d), domHeld := sins s.sys.domHeld (Domain.num d) } }
    { domLost d s with sys := s.sys })

/-- The domain's entries are enabled again. -/
def domEnable (d : Domain) (s : State) : State := match d with
  | .fld => s |> sbsEnable |> each (List.range 96) canEnable |> each (List.range 32) linEnable |> each (List.range 16) t1sEnable
  | .fab => s |> queueEnable |> lookupEnable
  | .grv => each (List.range 16) engStart s |> grvShow
  | .ctl => almRebase (each ((List.range 4).filter (coreUsed · s)) (fun n => coreStart n false) s)
  | .cip => each (List.range 16) msShow s
  | .sds => each (List.range 16) ethEnable s
  | .aon => s
  | .mram => s

/-- DOMAIN_RELOAD_DONE (R39): the domain is released when every digest agrees; otherwise a WRST with FENCE follows. -/
def execDomainReloadDone (d : Domain) (s : State) : Res :=
  .next (if !s.sys.domHeld.contains (Domain.num d) then s
  else if digestsAgree (domTypes d) s then
    let s := { s with sys := { s.sys with domHeld := s.sys.domHeld.filter (· != Domain.num d) } }
    -- cell times are counted from the release of the FAB domain (R129)
    let s := if d = .fab then { s with qm := { s.qm with rotor := 0 } } else s
    { domEnable d s with sys := s.sys }
  else requestReset .fence s)

/-- The images of type t in the copy in use. -/
def activeImages (t : Nat) (s : State) : Tbl (List Byte × List Byte) := match activeSections s with
  | some (l, _) => if readable l s then imageTable t l s else []
  | none => []

/-- A domain is being reset, or is about to be. -/
def domBusy (d : Domain) (s : State) : Bool := s.sys.domDue.contains (Domain.num d) || s.sys.domHeld.contains (Domain.num d)

/-- ENGINE_RELOAD (R340): a fenced engine runs again on its image when the image's digest agrees; otherwise the GRV domain has
a fault. -/
def execEngineReload (e : Fin 16) (s : State) : Res :=
  .next (if !awake s ∨ engState e s ≠ 2 ∨ domBusy .grv s = true then s
  else match tfind (activeImages 0x11 s) (engImage e s) with
    | some (d, img) =>
      if tfind s.sys.imgGrv (engImage e s) = some d then wr (F.GRV_GVn_STAT_STATE.u e) 1 (engFill e img s)
      else domainFault .grv s
    | none => domainFault .grv s)

/-- CORE_RELOAD (R360, R362): after a fence with action 0 or 1, the core's images are read again and checked, the comparator
is tested, and all slots but a held one restart; a digest that differs is a fault of the CTL domain. -/
def execCoreReload (core : Fin 4) (testOk : Bool) (s : State) : Res :=
  .next (if !awake s ∨ (Machine.core core s).fenced = false ∨ domBusy .ctl s = true ∨ 1 < slotN core (rd (F.CTL_CCn_FENCE_SLOT.u core) s) 4 1 s then s
  else
    let t := activeImages 0x12 s
    if (coreImages core s).all (fun i => match tfind t i with | some (d, _) => tfind s.sys.imgCtl i == some d | none => false) then
      let s := coreTested core testOk s
      if testOk then coreStart core true s else coreFence core 4 s
    else domainFault .ctl s)

/-! ### Restored table entries (R197) -/

/-- The section type that a lookup table's entries come from. -/
def lookupType (t : Nat) : Nat :=
  if t ≤ 2 then 0x06 else if t ≤ 5 then 0x07 else if t ≤ 7 then 0x08 else if t = 8 then 0x09 else 0x0A

/-- The static entry that the plate gives a place of the FDB, if any (R197, R198). -/
def fdbStatic (k : Nat) (s : State) : Option FdbE := tfind (fdbLoad s).2.lkp.fdb k

/-- One entry is rewritten (R197): a static FDB entry at its place, a policer with full buckets (R183). -/
def restoreEntry (x : Nat × Nat × Nat) (s : State) : State :=
  if x.1 = 1 then match fdbStatic (pk x.2.1 x.2.2) s with
    | some e => fdbCount x.2.1 (fdbPut (pk x.2.1 x.2.2) e s)
    | none => s
  else if x.1 = 7 then polFill x.2.1 x.2.2 s else s

/-- RESTORE (R197): each entry that the scrub has removed is rewritten when its section's digest agrees; otherwise it stays
absent, with a fault record. -/
def execRestore (s : State) : Res :=
  let good := fun (x : Nat × Nat × Nat) => digestsAgree [lookupType x.1] s
  let back := s.lkp.gone.filter good
  let stay := s.lkp.gone.filter fun x => !good x
  .next (if !domRuns .fab s then s else
    { s with lkp := { s.lkp with gone := stay } }
      |> incBy F.LKP_RESTORE_DONE back.length |> wr F.LKP_RESTORE_PENDING stay.length
      |> each back restoreEntry |> each stay (fun x => record 0x0403 x.1 x.2.2))

/-! ### Diagnostics (R509) -/

/-- The response PDU of a request PDU in the RECORDER section. -/
def diagPair (p : Nat) (s : State) : Option Nat :=
  ((List.range 4).find? fun i => cfgHas C.recorder 0 s && cfgN C.recorder 0 (8 + 4 * i) 2 s == p && p != 0xFFFF).map
    fun i => cfgN C.recorder 0 (10 + 4 * i) 2 s

/-- What a request does, with its status and the data of a read. -/
def diagRun (rsp : Nat) (req : List Byte) (s : State) : (Status × List Byte) × State :=
  let n := leAt req 2 2
  let o := leAt req 4 4
  match byteAt req 0 with
  | 1 =>
    if n < 4 ∨ pduN rsp 0 2 s < n + 8 ∨ o % 4 ≠ 0 then ((.fault, []), s)
    else if 0x12000 < o + n then ((.absent, []), s)
    else ((.ok, recBytes o n s), s)
  | 2 => let r := recFreeze s; ((r.1, []), r.2)
  | 3 => ((.ok, []), recThaw s)
  | 4 => let r := recClear .diag (byteAt req 1 % 16) s; ((r.1, []), r.2)
  | _ => ((.fault, []), s)

/-- DIAGNOSTIC_READ (R509): the response is a status byte, 3 reserved bytes, the offset, and the data; it goes out in the
response PDU. -/
def execDiagnosticRead (pdu : Fin 8192) (req : List Byte) (s : State) : Res :=
  guardWf (decide (req.length = 8)) "diagnostic request" (.next (if !awake s then s else match diagPair pdu s with
    | none => s
    | some rsp =>
      let (r, s) := diagRun rsp req s
      let b := leBytes 1 r.1.code ++ zeros 3 ++ slice req 4 4 ++ r.2
      pduDue rsp (emit (.resp b) { s with rcd := { s.rcd with resp := tput s.rcd.resp rsp b } })))

end Sys2Proof.Machine
end

