-- ==== Sys2Proof/Machine/HostCmd.lean ====
section
/-! DEFINITION. Register writes in full, and the xSPI writes that are applied (R473, R476–R479, R514–R516, R525). -/

namespace Sys2Proof.Machine

/-- A write of the word v under byte enables en at BAR0 offset a: the staging commands and the DBG block are the host's
(R67, R525), everything else as for every initiator. -/
def regWrite (who : Initiator) (a v en : Nat) (s : State) : Status × State :=
  if a = F.SYS_STAGE_CTRL_CMD.addr ∧ (hostOf who).isSome = true ∧ en = 15 then stageCtrlWrite who v s
  else if 0x150000 ≤ a ∧ a < 0x160000 ∧ a % 4 = 0 ∧ en = 15 ∧ (hostOf who).isSome = true then dbgWrite who (a - 0x150000) v s
  else regWriteBase who a v en s

/-- A write that is misaligned is refused before anything else is looked at (R477). -/
def alignedWrite (who : Initiator) (ok : Bool) (addr : Nat) (f : State → Status × State) (s : State) : State :=
  if ok then hostWrite who addr f s else if reachable who s then writeDone who addr (.fault, s) else s

/-- REGISTER_WRITE (R514–R516): one word at a BAR0 offset. -/
def execRegisterWrite (who : Initiator) (addr : Nat) (v : Word) (en : BitVec 4) (s : State) : Res :=
  .next (alignedWrite who (addr % 4 == 0) addr (regWrite who addr v.toNat en.toNat) s)

/-- One word of a host's write, as far as the host may reach it (R64, R72, R514). -/
def wordWrite (who : Initiator) (a v : Nat) (s : State) : Status × State :=
  match hostGate true a s with
  | some st => (st, s)
  | none => regWrite who a v 15 s

/-- The words of a host's write, each written in its turn; the answer is the
first status that applies (R477). -/
def wordsWrite (who : Initiator) (a : Nat) (b : List Byte) (s : State) : Status × State :=
  if a % 4 ≠ 0 ∨ b.length % 4 ≠ 0 then (.fault, s)
  else (List.range (b.length / 4)).foldl (fun (r : Status × State) k =>
    let x := wordWrite who (a + 4 * k) (leAt b (4 * k) 4) r.2
    (statusWorse r.1 x.1, x.2)) (.ok, s)

/-- WRITE_APPLIED (R473, R477, R479): the oldest posted write takes effect. -/
def execWriteApplied (s : State) : Res :=
  .next (match s.hst.posted with
    | [] => s
    | (addr, b) :: r =>
      let s := { s with hst := { s.hst with posted := r } }
      let al := addr % 4 == 0 && b.length % 4 == 0
      match xspiAddr addr s with
      | .space _ a => if reachable .xspi s then writeDone .xspi a (wordsWrite .xspi a b s) else s
      | .signal o => alignedWrite .xspi al (0x4000000 + o) (sigWinWrite .xspi o b) s
      | .stash o => alignedWrite .xspi al (0x1500000 + o) (fun s => (.denied, s)) s
      | .reserved => alignedWrite .xspi al addr (fun s => (.absent, s)) s)

end Sys2Proof.Machine
end

