-- ==== Sys2Proof/Machine/Dispatch.lean ====
section
/-! DEFINITION. Which meaning each command has: one arm per constructor of Instr. -/

namespace Sys2Proof.Machine

def exec (i : Instr) (s : State) : Host.Outcome State Fault Refusal :=
  match i with
  | .powerOnReset env => Sys2Proof.Machine.execPowerOnReset env s
  | .warmReset pin env => Sys2Proof.Machine.execWarmReset pin env s
  | .sysRstReq who v => Sys2Proof.Machine.execSysRstReq who v s
  | .domainReset d => Sys2Proof.Machine.execDomainReset d s
  | .domainReloadDone d => Sys2Proof.Machine.execDomainReloadDone d s
  | .wakeStart env => Sys2Proof.Machine.execWakeStart env s
  | .startWatchdog => Sys2Proof.Machine.execStartWatchdog s
  | .tamperHoldCleared env => Sys2Proof.Machine.execTamperHoldCleared env s
  | .openStage who copyB => Sys2Proof.Machine.execOpen who copyB s
  | .stageWrite who => Sys2Proof.Machine.execStageWrite who s
  | .closeStage who => Sys2Proof.Machine.execClose who s
  | .abortStage who => Sys2Proof.Machine.execAbort who s
  | .recoverStart who env => Sys2Proof.Machine.execRecoverStart who env s
  | .stageCommandDone => Sys2Proof.Machine.execStageCommandDone s
  | .startRecordRetry => Sys2Proof.Machine.execStartRecordRetry s
  | .sync d port m => Sys2Proof.Machine.execSync d port m s
  | .followUp d port m => Sys2Proof.Machine.execFollowUp d port m s
  | .pdelayReq d port m => Sys2Proof.Machine.execPdelayReq d port m s
  | .pdelayResp d port m => Sys2Proof.Machine.execPdelayResp d port m s
  | .syncInterval d port ns => Sys2Proof.Machine.execSyncInterval d port ns s
  | .pdelayReqInterval d port => Sys2Proof.Machine.execPdelayReqInterval d port s
  | .bmca d l => Sys2Proof.Machine.execBmca d l s
  | .syncReceiptTimeout d => Sys2Proof.Machine.execSyncReceiptTimeout d s
  | .holdoverLimit d => Sys2Proof.Machine.execHoldoverLimit d s
  | .timestampDrain port => Sys2Proof.Machine.execTimestampDrain port s
  | .ppsOut => Sys2Proof.Machine.execPpsOut s
  | .ppsOutWidth => Sys2Proof.Machine.execPpsOutWidth s
  | .ppsIn => Sys2Proof.Machine.execPpsIn s
  | .nopAction e => Sys2Proof.Machine.execNopAction e s
  | .launchFrame e => Sys2Proof.Machine.execLaunchFrame e s
  | .launchPdu e => Sys2Proof.Machine.execLaunchPdu e s
  | .gate e => Sys2Proof.Machine.execGate e s
  | .snapshot e => Sys2Proof.Machine.execSnapshot e s
  | .output e => Sys2Proof.Machine.execOutput e s
  | .plcaBeacon e => Sys2Proof.Machine.execPlcaBeacon e s
  | .engineEvent e => Sys2Proof.Machine.execEngineEvent e s
  | .outputPulseEnd o => Sys2Proof.Machine.execOutputPulseEnd o s
  | .preparationEvent e gv => Sys2Proof.Machine.execPreparationEvent e gv s
  | .guardWindow e => Sys2Proof.Machine.execGuardWindow e s
  | .lateLimit e => Sys2Proof.Machine.execLateLimit e s
  | .cellTime err => Sys2Proof.Machine.execCellTime err s
  | .frameReceived port bytes rx => Sys2Proof.Machine.execFrameReceived port bytes rx s
  | .lookupResult node upset => Sys2Proof.Machine.execLookupResult node upset s
  | .enqueue node => Sys2Proof.Machine.execEnqueue node s
  | .transmissionEnd port => Sys2Proof.Machine.execTransmissionEnd port s
  | .qmFlush who v => Sys2Proof.Machine.execQmFlush who v s
  | .flushDone => Sys2Proof.Machine.execFlushDone s
  | .popTimeout w => Sys2Proof.Machine.execPopTimeout w s
  | .scraper => Sys2Proof.Machine.execScraper s
  | .learn p => Sys2Proof.Machine.execLearn p s
  | .burnisher => Sys2Proof.Machine.execBurnisher s
  | .scrub bad => Sys2Proof.Machine.execScrub bad s
  | .restore => Sys2Proof.Machine.execRestore s
  | .policerRefill => Sys2Proof.Machine.execPolicerRefill s
  | .streamGuardWindow p st => Sys2Proof.Machine.execStreamGuardWindow p st s
  | .streamGuardRelease p st => Sys2Proof.Machine.execStreamGuardRelease p st s
  | .containmentWindow u => Sys2Proof.Machine.execContainmentWindow u s
  | .linkChange port up speed => Sys2Proof.Machine.execLinkChange port up speed s
  | .pauseReceived port m => Sys2Proof.Machine.execPauseReceived port m s
  | .pauseExpiry port cls => Sys2Proof.Machine.execPauseExpiry port cls s
  | .pauseRepeat port cls => Sys2Proof.Machine.execPauseRepeat port cls s
  | .verifyTimer port => Sys2Proof.Machine.execVerifyTimer port s
  | .verifyResponse port => Sys2Proof.Machine.execVerifyResponse port s
  | .gateControlEntry port => Sys2Proof.Machine.execGateControlEntry port s
  | .frerResetTimer e => Sys2Proof.Machine.execFrerResetTimer e s
  | .plcaCycle sg => Sys2Proof.Machine.execPlcaCycle sg s
  | .toTimer sg => Sys2Proof.Machine.execToTimer sg s
  | .beaconReceived sg => Sys2Proof.Machine.execBeaconReceived sg s
  | .beaconTimeout sg => Sys2Proof.Machine.execBeaconTimeout sg s
  | .collision sg late => Sys2Proof.Machine.execCollision sg late s
  | .backoff sg => Sys2Proof.Machine.execBackoff sg s
  | .lowPowerExit sg => Sys2Proof.Machine.execLowPowerExit sg s
  | .wakePattern sg pat => Sys2Proof.Machine.execWakePattern sg pat s
  | .resetReleaseDelay port => Sys2Proof.Machine.execResetReleaseDelay port s
  | .mdioScriptAccess port => Sys2Proof.Machine.execMdioScriptAccess port s
  | .clause22Write who port v => Sys2Proof.Machine.execClause22Write who port v s
  | .clause22Read who port v => Sys2Proof.Machine.execClause22Read who port v s
  | .clause45Write who port v => Sys2Proof.Machine.execClause45Write who port v s
  | .clause45Read who port v => Sys2Proof.Machine.execClause45Read who port v s
  | .mdioCommandDone bus data => Sys2Proof.Machine.execMdioCommandDone bus data s
  | .canFrameReceived ch r => Sys2Proof.Machine.execCanFrameReceived ch r s
  | .cancellation ch f => Sys2Proof.Machine.execCancellation ch f s
  | .canFrameSent x => Sys2Proof.Machine.execCanFrameSent x s
  | .arbitrationLost ch => Sys2Proof.Machine.execArbitrationLost ch s
  | .canError ch k => Sys2Proof.Machine.execCanError ch k s
  | .busOffRecoveryDelay ch => Sys2Proof.Machine.execBusOffRecoveryDelay ch s
  | .busOffRecovery ch => Sys2Proof.Machine.execBusOffRecovery ch s
  | .integration ch => Sys2Proof.Machine.execIntegration ch s
  | .cancelRelease ch => Sys2Proof.Machine.execCancelRelease ch s
  | .babbleWindow ch load => Sys2Proof.Machine.execBabbleWindow ch load s
  | .babbleRelease ch => Sys2Proof.Machine.execBabbleRelease ch s
  | .linSlot ch => Sys2Proof.Machine.execLinSlot ch s
  | .scheduleSwitch ch table => Sys2Proof.Machine.execScheduleSwitch ch table s
  | .linHeader ch h => Sys2Proof.Machine.execLinHeader ch h s
  | .linResponse ch r => Sys2Proof.Machine.execLinResponse ch r s
  | .linWake ch us => Sys2Proof.Machine.execLinWake ch us s
  | .sbsInputScan bits => Sys2Proof.Machine.execSbsInputScan bits s
  | .sbsOutputUpdate o v => Sys2Proof.Machine.execSbsOutputUpdate o v s
  | .sbsUpdateEnd => Sys2Proof.Machine.execSbsUpdateEnd s
  | .sbsRefresh => Sys2Proof.Machine.execSbsRefresh s
  | .pduDue p => Sys2Proof.Machine.execPduDue p s
  | .minimumGap p => Sys2Proof.Machine.execMinimumGap p s
  | .maximumBatchingDelay k => Sys2Proof.Machine.execMaximumBatchingDelay k s
  | .dispatch x => Sys2Proof.Machine.execDispatch x s
  | .stallEnd e c => Sys2Proof.Machine.execStallEnd e c s
  | .engineTimer e t => Sys2Proof.Machine.execEngineTimer e t s
  | .engineReload e => Sys2Proof.Machine.execEngineReload e s
  | .nop e c w => Sys2Proof.Machine.execNop e c w s
  | .add e c w => Sys2Proof.Machine.execAdd e c w s
  | .sub e c w => Sys2Proof.Machine.execSub e c w s
  | .andOp e c w => Sys2Proof.Machine.execAnd e c w s
  | .orOp e c w => Sys2Proof.Machine.execOr e c w s
  | .xorOp e c w => Sys2Proof.Machine.execXor e c w s
  | .shl e c w => Sys2Proof.Machine.execShl e c w s
  | .shr e c w => Sys2Proof.Machine.execShr e c w s
  | .sar e c w => Sys2Proof.Machine.execSar e c w s
  | .mul e c w => Sys2Proof.Machine.execMul e c w s
  | .slt e c w => Sys2Proof.Machine.execSlt e c w s
  | .sltu e c w => Sys2Proof.Machine.execSltu e c w s
  | .addi e c w => Sys2Proof.Machine.execAddi e c w s
  | .andi e c w => Sys2Proof.Machine.execAndi e c w s
  | .ori e c w => Sys2Proof.Machine.execOri e c w s
  | .xori e c w => Sys2Proof.Machine.execXori e c w s
  | .shli e c w => Sys2Proof.Machine.execShli e c w s
  | .shri e c w => Sys2Proof.Machine.execShri e c w s
  | .sari e c w => Sys2Proof.Machine.execSari e c w s
  | .lsh e c w => Sys2Proof.Machine.execLsh e c w s
  | .bfx e c w => Sys2Proof.Machine.execBfx e c w s
  | .bfi e c w => Sys2Proof.Machine.execBfi e c w s
  | .bsw e c w => Sys2Proof.Machine.execBsw e c w s
  | .beq e c w => Sys2Proof.Machine.execBeq e c w s
  | .bne e c w => Sys2Proof.Machine.execBne e c w s
  | .blt e c w => Sys2Proof.Machine.execBlt e c w s
  | .bge e c w => Sys2Proof.Machine.execBge e c w s
  | .bltu e c w => Sys2Proof.Machine.execBltu e c w s
  | .bgeu e c w => Sys2Proof.Machine.execBgeu e c w s
  | .jmp e c w => Sys2Proof.Machine.execJmp e c w s
  | .call e c w => Sys2Proof.Machine.execCall e c w s
  | .jr e c w => Sys2Proof.Machine.execJr e c w s
  | .ld e c w => Sys2Proof.Machine.execLd e c w s
  | .st e c w => Sys2Proof.Machine.execSt e c w s
  | .fld e c w => Sys2Proof.Machine.execFld e c w s
  | .fst e c w => Sys2Proof.Machine.execFst e c w s
  | .tld e c w => Sys2Proof.Machine.execTld e c w s
  | .sget e c w => Sys2Proof.Machine.execSget e c w s
  | .sput e c w => Sys2Proof.Machine.execSput e c w s
  | .commit e c w => Sys2Proof.Machine.execCommit e c w s
  | .unpack e c w => Sys2Proof.Machine.execUnpack e c w s
  | .pack e c w => Sys2Proof.Machine.execPack e c w s
  | .secv e c w => Sys2Proof.Machine.execSecv e c w s
  | .secg e c w => Sys2Proof.Machine.execSecg e c w s
  | .pop e c w => Sys2Proof.Machine.execPop e c w s
  | .push e c w => Sys2Proof.Machine.execPush e c w s
  | .fnew e c w => Sys2Proof.Machine.execFnew e c w s
  | .frel e c w => Sys2Proof.Machine.execFrel e c w s
  | .fget e c w => Sys2Proof.Machine.execFget e c w s
  | .fput e c w => Sys2Proof.Machine.execFput e c w s
  | .ciph e c w => Sys2Proof.Machine.execCiph e c w s
  | .acfadd e c w => Sys2Proof.Machine.execAcfadd e c w s
  | .timeOp e c w => Sys2Proof.Machine.execTime e c w s
  | .tarm e c w => Sys2Proof.Machine.execTarm e c w s
  | .raise e c w => Sys2Proof.Machine.execRaise e c w s
  | .hook e c w => Sys2Proof.Machine.execHook e c w s
  | .hret e c w => Sys2Proof.Machine.execHret e c w s
  | .latch e c w => Sys2Proof.Machine.execLatch e c w s
  | .cnt e c w => Sys2Proof.Machine.execCnt e c w s
  | .endHandler e c w => Sys2Proof.Machine.execEnd e c w s
  | .window core w => Sys2Proof.Machine.execWindow core w s
  | .slice core u => Sys2Proof.Machine.execSlice core u s
  | .coreReload core testOk => Sys2Proof.Machine.execCoreReload core testOk s
  | .rv32imcInstruction core => Sys2Proof.Machine.execRv32imcInstruction core s
  | .wfi core => Sys2Proof.Machine.execWfi core s
  | .ecall core => Sys2Proof.Machine.execEcall core s
  | .waitEnd core slot => Sys2Proof.Machine.execWaitEnd core slot s
  | .popK core k => Sys2Proof.Machine.execPopK core k s
  | .pushH core h v => Sys2Proof.Machine.execPushH core h v s
  | .relH core h => Sys2Proof.Machine.execRelH core h s
  | .keyUpdate who args => Sys2Proof.Machine.execKeyUpdate who args s
  | .keyDerive who args => Sys2Proof.Machine.execKeyDerive who args s
  | .ecdh who args => Sys2Proof.Machine.execEcdh who args s
  | .vsZeroise who args => Sys2Proof.Machine.execVsZeroise who args s
  | .slotInfo who args => Sys2Proof.Machine.execSlotInfo who args s
  | .getIdentity who args => Sys2Proof.Machine.execGetIdentity who args s
  | .signChallenge who args => Sys2Proof.Machine.execSignChallenge who args s
  | .lcRequest who args => Sys2Proof.Machine.execLcRequest who args s
  | .debugToken who args => Sys2Proof.Machine.execDebugToken who args s
  | .certInstall who args formed => Sys2Proof.Machine.execCertInstall who args formed s
  | .lcEnterMfg who => Sys2Proof.Machine.execLcEnterMfg who s
  | .lcScrap who => Sys2Proof.Machine.execLcScrap who s
  | .tamperDetection src => Sys2Proof.Machine.execTamperDetection src s
  | .l2Release => Sys2Proof.Machine.execL2Release s
  | .ctr pair => Sys2Proof.Machine.execCtr pair s
  | .gcmEncrypt pair => Sys2Proof.Machine.execGcmEncrypt pair s
  | .gcmDecryptAndVerify pair => Sys2Proof.Machine.execGcmDecryptAndVerify pair s
  | .gmacGenerate pair => Sys2Proof.Machine.execGmacGenerate pair s
  | .gmacVerify pair => Sys2Proof.Machine.execGmacVerify pair s
  | .cmacGenerate pair => Sys2Proof.Machine.execCmacGenerate pair s
  | .cmacVerify pair => Sys2Proof.Machine.execCmacVerify pair s
  | .cbcEncrypt pair => Sys2Proof.Machine.execCbcEncrypt pair s
  | .cbcDecrypt pair => Sys2Proof.Machine.execCbcDecrypt pair s
  | .xtsEncrypt pair => Sys2Proof.Machine.execXtsEncrypt pair s
  | .xtsDecrypt pair => Sys2Proof.Machine.execXtsDecrypt pair s
  | .keyWrap pair => Sys2Proof.Machine.execKeyWrap pair s
  | .keyUnwrap pair => Sys2Proof.Machine.execKeyUnwrap pair s
  | .sha256 pair => Sys2Proof.Machine.execSha256 pair s
  | .hmacSha256Generate pair => Sys2Proof.Machine.execHmacSha256Generate pair s
  | .hmacSha256Verify pair => Sys2Proof.Machine.execHmacSha256Verify pair s
  | .checkingBeforeRelease pair c => Sys2Proof.Machine.execCheckingBeforeRelease pair c s
  | .frameJob pair c => Sys2Proof.Machine.execFrameJob pair c s
  | .sakInstallation port sa => Sys2Proof.Machine.execSakInstallation port sa s
  | .saSwitch port an => Sys2Proof.Machine.execSaSwitch port an s
  | .idle => Sys2Proof.Machine.execIdle s
  | .idleResume => Sys2Proof.Machine.execIdleResume s
  | .standbyResume => Sys2Proof.Machine.execStandbyResume s
  | .roundStart => Sys2Proof.Machine.execRoundStart s
  | .token port msg => Sys2Proof.Machine.execToken port msg s
  | .commitPoint => Sys2Proof.Machine.execCommitPoint s
  | .wakeIn n => Sys2Proof.Machine.execWakeIn n s
  | .aonTimer => Sys2Proof.Machine.execAonTimer s
  | .wake port msg => Sys2Proof.Machine.execWake port msg s
  | .wakeRepeat => Sys2Proof.Machine.execWakeRepeat s
  | .wakeOutPulseEnd o => Sys2Proof.Machine.execWakeOutPulseEnd o s
  | .falseWake g => Sys2Proof.Machine.execFalseWake g s
  | .ringLoss => Sys2Proof.Machine.execRingLoss s
  | .regeneration => Sys2Proof.Machine.execRegeneration s
  | .slpHostDemand who v => Sys2Proof.Machine.execSlpHostDemand who v s
  | .beacon src => Sys2Proof.Machine.execBeacon src s
  | .beaconInterval => Sys2Proof.Machine.execBeaconInterval s
  | .nodeSilence n => Sys2Proof.Machine.execNodeSilence n s
  | .proofPeriod => Sys2Proof.Machine.execProofPeriod s
  | .rosterDigest port msg => Sys2Proof.Machine.execRosterDigest port msg s
  | .rosterRange port msg => Sys2Proof.Machine.execRosterRange port msg s
  | .remoteRead port msg => Sys2Proof.Machine.execRemoteRead port msg s
  | .remoteReadRsp port msg => Sys2Proof.Machine.execRemoteReadRsp port msg s
  | .remoteWrite port msg => Sys2Proof.Machine.execRemoteWrite port msg s
  | .remoteRetry id => Sys2Proof.Machine.execRemoteRetry id s
  | .snapshotMessage port msg => Sys2Proof.Machine.execSnapshotMessage port msg s
  | .snapshotReassembly sender set seq => Sys2Proof.Machine.execSnapshotReassembly sender set seq s
  | .tunnel port msg => Sys2Proof.Machine.execTunnel port msg s
  | .timeHealth port msg => Sys2Proof.Machine.execTimeHealth port msg s
  | .timeHealthInterval => Sys2Proof.Machine.execTimeHealthInterval s
  | .resyncEnd => Sys2Proof.Machine.execResyncEnd s
  | .pcieReset => Sys2Proof.Machine.execPcieReset s
  | .functionLevelReset => Sys2Proof.Machine.execFunctionLevelReset s
  | .sendTail who q v => Sys2Proof.Machine.execSendTail who q v s
  | .receiveTail who q v => Sys2Proof.Machine.execReceiveTail who q v s
  | .completionHead who q v => Sys2Proof.Machine.execCompletionHead who q v s
  | .sendDescriptor q desc buf => Sys2Proof.Machine.execSendDescriptor q desc buf s
  | .receiveDescriptor q desc => Sys2Proof.Machine.execReceiveDescriptor q desc s
  | .hstHqnnWait who q v => Sys2Proof.Machine.execHstHqnnWait who q v s
  | .completionWait q => Sys2Proof.Machine.execCompletionWait q s
  | .hstHqnnPop via q => Sys2Proof.Machine.execHstHqnnPop via q s
  | .hstHqnnAck who q => Sys2Proof.Machine.execHstHqnnAck who q s
  | .tStash e => Sys2Proof.Machine.execTStash e s
  | .rdid => Sys2Proof.Machine.execRdid s
  | .rdsr => Sys2Proof.Machine.execRdsr s
  | .read addr n => Sys2Proof.Machine.execRead addr n s
  | .write addr data => Sys2Proof.Machine.execWrite addr data s
  | .writeApplied => Sys2Proof.Machine.execWriteApplied s
  | .rsten => Sys2Proof.Machine.execRsten s
  | .rst => Sys2Proof.Machine.execRst s
  | .signalValueRead via n => Sys2Proof.Machine.execSignalValueRead via n s
  | .signalValueWrite who n v meets => Sys2Proof.Machine.execSignalValueWrite who n v meets s
  | .pduRequest who p => Sys2Proof.Machine.execPduRequest who p s
  | .rcRead via addr => Sys2Proof.Machine.execRcRead via addr s
  | .registerWrite who addr v en => Sys2Proof.Machine.execRegisterWrite who addr v en s
  | .brownOut mv => Sys2Proof.Machine.execBrownOut mv s
  | .brownOutRecovery => Sys2Proof.Machine.execBrownOutRecovery s
  | .droop mv => Sys2Proof.Machine.execDroop mv s
  | .droopHalfCheck mv => Sys2Proof.Machine.execDroopHalfCheck mv s
  | .droopRelease => Sys2Proof.Machine.execDroopRelease s
  | .thermalSample t => Sys2Proof.Machine.execThermalSample t s
  | .releaseHold => Sys2Proof.Machine.execReleaseHold s
  | .mramRetry => Sys2Proof.Machine.execMramRetry s
  | .mramCompletion => Sys2Proof.Machine.execMramCompletion s
  | .watchdogPeriod => Sys2Proof.Machine.execWatchdogPeriod s
  | .pwrHeartbeat who v => Sys2Proof.Machine.execPwrHeartbeat who v s
  | .heartbeatWindow => Sys2Proof.Machine.execHeartbeatWindow s
  | .operatingSeconds => Sys2Proof.Machine.execOperatingSeconds s
  | .recorderFlush => Sys2Proof.Machine.execRecorderFlush s
  | .flushRetry => Sys2Proof.Machine.execFlushRetry s
  | .freeze who => Sys2Proof.Machine.execFreeze who s
  | .thaw who => Sys2Proof.Machine.execThaw who s
  | .clear who cats key => Sys2Proof.Machine.execClear who cats key s
  | .automaticThaw => Sys2Proof.Machine.execAutomaticThaw s
  | .diagnosticRead pdu req => Sys2Proof.Machine.execDiagnosticRead pdu req s
  | .halt who core v => Sys2Proof.Machine.execHalt who core v s
  | .stepCore who core v => Sys2Proof.Machine.execStep who core v s
  | .resume who core v => Sys2Proof.Machine.execResume who core v s
  | .dbgCcnBp who core v => Sys2Proof.Machine.execDbgCcnBp who core v s
  | .bpHit core => Sys2Proof.Machine.execBpHit core s
  | .holdUpGaugeSample mv => Sys2Proof.Machine.execHoldUpGaugeSample mv s
  | .wakeInputInactive n => Sys2Proof.Machine.execWakeInputInactive n s
  | .tamperSourceInactive src => Sys2Proof.Machine.execTamperSourceInactive src s
  | .pcieLinkChange speed width => Sys2Proof.Machine.execPcieLinkChange speed width s
  | .suppliesRemoved => Sys2Proof.Machine.execSuppliesRemoved s
  | .signalingMessage port d sync pdelay => Sys2Proof.Machine.execSignalingMessage port d sync pdelay s

end Sys2Proof.Machine
end

