-- ==== Sys2Proof/Machine/Idle.lean ====
section
/-! DEFINITION. What an idle step does. -/

namespace Sys2Proof.Machine

/-- One 4 ns tick with no command waiting (R15, R79): the credits of shaped classes and the clocks advance while the device is
not in SLEEP or OFF (R219), CAN transmit slots whose frame a flush of the past tick took become empty (R245), and PDUs whose
unsent instance has gone fall due again (R292). In SLEEP only the time since its entry is kept, which tells when sleep entry
is over (R433; log entry 1). -/
def idleTick (s : State) : State :=
  if s.pwr.mode ≤ 2 then each (tkeys s.sig.pdus) pduSettle <| each (tkeys s.can.chans) canSettle (timeTick (each (List.range 16) creditTick s))
  else if s.pwr.mode = 3 then { s with slp := { s.slp with entry := s.slp.entry + 4 } }
  else s

end Sys2Proof.Machine
end

