-- ==== Sys2Proof/Machine/Step.lean ====
section
/-! DEFINITION. One step: the command at the front of the queue, or an idle tick. -/

namespace Sys2Proof.Machine

/-- One step: the command at the front runs on the state with the queue's rest; with none waiting the clocks move on
(log entry 1). -/
def step (s : State) : Host.Outcome State Fault Refusal := match s.pending with
  | [] => .next (idleTick s)
  | c :: r => exec c { s with pending := r }

/-- The state with a command put at the front of its queue. -/
def State.withCommand (s : State) (c : Instr) : State := { s with pending := c :: s.pending }

/-- The state with the command that a table word spells put at the front of its queue; unchanged when it spells none. -/
def State.withFetchWord (s : State) (nbits w : Nat) : State := match decodeTableWord nbits w with
  | none => s
  | some c => s.withCommand c

end Sys2Proof.Machine
end

