-- ==== Sys2Proof/Safety.lean ====
section
/-! DEFINITION. What counts as a safe step and a safe run, and the words the claims are stated in. -/

namespace Sys2Proof

open Sys2Proof.Machine

/-- A step that neither stops nor is turned away. -/
def SafeStep (s : State) : Prop := ∃ t, step s = .next t

/-- n steps from s, none of which stops, end in t. -/
inductive Runs : Nat → State → State → Prop
  | zero (s : State) : Runs 0 s s
  | succ (n : Nat) (s t u : State) : step s = .next t → Runs n t u → Runs (n + 1) s u

namespace Machine

/-- The open staging session, if any, is no longer than a copy (R66). -/
def SessionOk (x : Option Session) : Prop := ∀ y, x = some y → y.len ≤ copyMax

/-- Plate flash that staging writes: copy A, and copy B with the staging page above it (R69). -/
def Stageable (a : Nat) : Prop := a < 0xFFF000 ∨ (0x1000000 ≤ a ∧ a < 0x2000000)

/-- Every register field but those listed reads in t as in s. -/
def RegsKept (l : List Field) (s t : State) : Prop := ∀ g : Field, (∀ f ∈ l, g.key ≠ f.key) → rd g t = rd g s

/-- A write by `who` at a BAR0 offset reaches the block: the device answers the initiator, and for a host the start's stage
opens the offset (R64, R65, R473, R479). -/
abbrev Admits (who : Initiator) (addr : Nat) (s : State) : Prop :=
  reachable who s = true ∧ ((hostOf who).isSome = true → hostGate true addr s = none)

/-- Stipple entry e, with action `act`, has reached its next instant, and the instant fires (R103, R106, R107, R116): the
entry is enabled, the scheduler runs, the entry's period is not suspended, and in the running tick the entries that have
fired and the entries of lower index that are due are fewer than four. -/
abbrev StippleDue (act e : Nat) (s : State) : Prop :=
  stpOn e s = true ∧ stpAct e s = act ∧ stpRunning s = true ∧ stpLen e s ≠ 0 ∧ stpNext e s ≤ shortNs s ∧
    stpSuspended e s = false ∧ (if s.stp.tickNs = s.time.loc then s.stp.tickCnt else 0) + stpLower e s < 4

/-- Context c of engine e issues its next instruction: it is ready, the engine runs, the device is in ACTIVE, and neither
the handler's nor the hook's budget is spent (R313, R336). -/
abbrev GvRuns (e c : Nat) (s : State) : Prop := gvReady e c s = true ∧ gvWithin (gvIssued (ctx e c s)) s = true

/-- Register r of a context. -/
def gReg (e c r : Nat) (s : State) : BitVec 64 := BitVec.ofNat 64 ((ctx e c s).get r)

/-- From s to t, context c of engine e has issued one instruction that writes v to register d, and nothing else has changed;
a write to g0 is discarded. -/
def GvWrote (e c d : Nat) (v : BitVec 64) (s t : State) : Prop :=
  (∀ r, gReg e c r t = if r = d ∧ d ≠ 0 then v else gReg e c r s) ∧
    t = ctxSet e c { gvIssued (ctx e c s) with regs := (ctx e c t).regs } s

/-- The same for an instruction that then stalls for its access; u is s with what the access changed outside the context. -/
def GvAccessed (e c d : Nat) (v : BitVec 64) (s u t : State) : Prop :=
  (∀ r, gReg e c r t = if r = d ∧ d ≠ 0 then v else gReg e c r s) ∧
    t = ctxSet e c { gvIssued (ctx e c s) with regs := (ctx e c t).regs, st := 2, stall := .access } u

/-- The target of a branch: the next instruction's address plus the signed OFF18 (R325). -/
def branchTarget (e c : Nat) (w : BitVec 26) (s : State) : Int :=
  ((gvIssued (ctx e c s)).pc : Int) + (w.extractLsb' 0 18).toInt

/-- From s to t, context c of engine e has issued one branch, taken when b holds, and nothing else has changed. -/
def GvBranched (e c : Nat) (w : BitVec 26) (b : Bool) (s t : State) : Prop :=
  t = ctxSet e c { gvIssued (ctx e c s) with pc := if b then (branchTarget e c w s).toNat else (gvIssued (ctx e c s)).pc } s

/-- The initiator behind a mailbox user. -/
def mboxInit : MboxUser → Initiator
  | .pcie => .pcie
  | .xspi => .xspi
  | .core n => .core n

/-- A vault command reaches the vault and is one that the user and the life-cycle state allow (R393, R479). -/
abbrev VaultAdmits (who : MboxUser) (code : Nat) (s : State) : Prop :=
  Admits (mboxInit who) 0x100100 s ∧ mboxPerm who s = true ∧ cmdState code s = true

/-- In t the vault shows `who` the answer of a command: its code, its status, and the answer's length and bytes (R393). -/
def VaultAnswers (who : MboxUser) (code : Nat) (st : Status) (out : List Byte) (s t : State) : Prop :=
  (match who with
    | .core _ => t.key.coreStat = (out.length, code, st.code)
    | _ => rd F.KEY_CMD_STAT_CODE t = code ∧ rd F.KEY_CMD_STAT_STATUS t = st.code ∧ rd F.KEY_CMD_STAT_LENGTH t = out.length) ∧
  (tsorted s.key.mbox = true → ∀ i, i < out.length →
    tget 0 t.key.mbox (4096 * mboxClass who + i) = BitVec.ofNat 8 (byteAt out i))

end Machine

end Sys2Proof
end

