-- ==== Sys2Proof/WellFormed.lean ====
section
/-! DEFINITION. Which commands can be spelled at all: the operands whose form the spec fixes. Every other operand is held
to its range by its type. -/

namespace Sys2Proof

open Sys2Proof.Machine

/-- A command that can exist: a CAN frame within its format (R238, R240), a LIN response of 1 to 8 bytes (R257), an SA key of
16 or 32 bytes with its 12-byte salt (R416), a 32-byte descriptor with the buffer it names (R482), an xSPI access of 4 to
4 096 bytes (R478), a mailbox content of at most 4 096 bytes (R393), a diagnostic request of 8 bytes (R509). -/
def Instr.wf : Instr → Bool
  | .powerOnReset _ => true
  | .warmReset _ _ => true
  | .sysRstReq _ _ => true
  | .domainReset _ => true
  | .domainReloadDone _ => true
  | .wakeStart _ => true
  | .startWatchdog => true
  | .tamperHoldCleared _ => true
  | .openStage _ _ => true
  | .stageWrite _ => true
  | .closeStage _ => true
  | .abortStage _ => true
  | .recoverStart _ _ => true
  | .stageCommandDone => true
  | .startRecordRetry => true
  | .sync _ _ _ => true
  | .followUp _ _ _ => true
  | .pdelayReq _ _ _ => true
  | .pdelayResp _ _ _ => true
  | .syncInterval _ _ _ => true
  | .pdelayReqInterval _ _ => true
  | .bmca _ _ => true
  | .syncReceiptTimeout _ => true
  | .holdoverLimit _ => true
  | .timestampDrain _ => true
  | .ppsOut => true
  | .ppsOutWidth => true
  | .ppsIn => true
  | .nopAction _ => true
  | .launchFrame _ => true
  | .launchPdu _ => true
  | .gate _ => true
  | .snapshot _ => true
  | .output _ => true
  | .plcaBeacon _ => true
  | .engineEvent _ => true
  | .outputPulseEnd _ => true
  | .preparationEvent _ _ => true
  | .guardWindow _ => true
  | .lateLimit _ => true
  | .cellTime _ => true
  | .frameReceived _ _ _ => true
  | .lookupResult _ _ => true
  | .enqueue _ => true
  | .transmissionEnd _ => true
  | .qmFlush _ _ => true
  | .flushDone => true
  | .popTimeout _ => true
  | .scraper => true
  | .learn _ => true
  | .burnisher => true
  | .scrub _ => true
  | .restore => true
  | .policerRefill => true
  | .streamGuardWindow _ _ => true
  | .streamGuardRelease _ _ => true
  | .containmentWindow _ => true
  | .linkChange _ _ _ => true
  | .pauseReceived _ _ => true
  | .pauseExpiry _ _ => true
  | .pauseRepeat _ _ => true
  | .verifyTimer _ => true
  | .verifyResponse _ => true
  | .gateControlEntry _ => true
  | .frerResetTimer _ => true
  | .plcaCycle _ => true
  | .toTimer _ => true
  | .beaconReceived _ => true
  | .beaconTimeout _ => true
  | .collision _ _ => true
  | .backoff _ => true
  | .lowPowerExit _ => true
  | .wakePattern _ _ => true
  | .resetReleaseDelay _ => true
  | .mdioScriptAccess _ => true
  | .clause22Write _ _ _ => true
  | .clause22Read _ _ _ => true
  | .clause45Write _ _ _ => true
  | .clause45Read _ _ _ => true
  | .mdioCommandDone _ _ => true
  | .canFrameReceived _ r => canFrameOk r.frame
  | .cancellation _ f => canFrameOk f
  | .canFrameSent _ => true
  | .arbitrationLost _ => true
  | .canError _ _ => true
  | .busOffRecoveryDelay _ => true
  | .busOffRecovery _ => true
  | .integration _ => true
  | .cancelRelease _ => true
  | .babbleWindow _ _ => true
  | .babbleRelease _ => true
  | .linSlot _ => true
  | .scheduleSwitch _ _ => true
  | .linHeader _ _ => true
  | .linResponse _ r => match r with | .data b => decide (0 < b.length) && decide (b.length ≤ 8) | _ => true
  | .linWake _ _ => true
  | .sbsInputScan _ => true
  | .sbsOutputUpdate _ _ => true
  | .sbsUpdateEnd => true
  | .sbsRefresh => true
  | .pduDue _ => true
  | .minimumGap _ => true
  | .maximumBatchingDelay _ => true
  | .dispatch _ => true
  | .stallEnd _ _ => true
  | .engineTimer _ _ => true
  | .engineReload _ => true
  | .nop _ _ _ => true
  | .add _ _ _ => true
  | .sub _ _ _ => true
  | .andOp _ _ _ => true
  | .orOp _ _ _ => true
  | .xorOp _ _ _ => true
  | .shl _ _ _ => true
  | .shr _ _ _ => true
  | .sar _ _ _ => true
  | .mul _ _ _ => true
  | .slt _ _ _ => true
  | .sltu _ _ _ => true
  | .addi _ _ _ => true
  | .andi _ _ _ => true
  | .ori _ _ _ => true
  | .xori _ _ _ => true
  | .shli _ _ _ => true
  | .shri _ _ _ => true
  | .sari _ _ _ => true
  | .lsh _ _ _ => true
  | .bfx _ _ _ => true
  | .bfi _ _ _ => true
  | .bsw _ _ _ => true
  | .beq _ _ _ => true
  | .bne _ _ _ => true
  | .blt _ _ _ => true
  | .bge _ _ _ => true
  | .bltu _ _ _ => true
  | .bgeu _ _ _ => true
  | .jmp _ _ _ => true
  | .call _ _ _ => true
  | .jr _ _ _ => true
  | .ld _ _ _ => true
  | .st _ _ _ => true
  | .fld _ _ _ => true
  | .fst _ _ _ => true
  | .tld _ _ _ => true
  | .sget _ _ _ => true
  | .sput _ _ _ => true
  | .commit _ _ _ => true
  | .unpack _ _ _ => true
  | .pack _ _ _ => true
  | .secv _ _ _ => true
  | .secg _ _ _ => true
  | .pop _ _ _ => true
  | .push _ _ _ => true
  | .fnew _ _ _ => true
  | .frel _ _ _ => true
  | .fget _ _ _ => true
  | .fput _ _ _ => true
  | .ciph _ _ _ => true
  | .acfadd _ _ _ => true
  | .timeOp _ _ _ => true
  | .tarm _ _ _ => true
  | .raise _ _ _ => true
  | .hook _ _ _ => true
  | .hret _ _ _ => true
  | .latch _ _ _ => true
  | .cnt _ _ _ => true
  | .endHandler _ _ _ => true
  | .window _ _ => true
  | .slice _ _ => true
  | .coreReload _ _ => true
  | .rv32imcInstruction _ => true
  | .wfi _ => true
  | .ecall _ => true
  | .waitEnd _ _ => true
  | .popK _ _ => true
  | .pushH _ _ _ => true
  | .relH _ _ => true
  | .keyUpdate _ args => decide (args.length ≤ 4096)
  | .keyDerive _ args => decide (args.length ≤ 4096)
  | .ecdh _ args => decide (args.length ≤ 4096)
  | .vsZeroise _ args => decide (args.length ≤ 4096)
  | .slotInfo _ args => decide (args.length ≤ 4096)
  | .getIdentity _ args => decide (args.length ≤ 4096)
  | .signChallenge _ args => decide (args.length ≤ 4096)
  | .lcRequest _ args => decide (args.length ≤ 4096)
  | .debugToken _ args => decide (args.length ≤ 4096)
  | .certInstall _ args _ => decide (args.length ≤ 4096)
  | .lcEnterMfg _ => true
  | .lcScrap _ => true
  | .tamperDetection _ => true
  | .l2Release => true
  | .ctr _ => true
  | .gcmEncrypt _ => true
  | .gcmDecryptAndVerify _ => true
  | .gmacGenerate _ => true
  | .gmacVerify _ => true
  | .cmacGenerate _ => true
  | .cmacVerify _ => true
  | .cbcEncrypt _ => true
  | .cbcDecrypt _ => true
  | .xtsEncrypt _ => true
  | .xtsDecrypt _ => true
  | .keyWrap _ => true
  | .keyUnwrap _ => true
  | .sha256 _ => true
  | .hmacSha256Generate _ => true
  | .hmacSha256Verify _ => true
  | .checkingBeforeRelease _ _ => true
  | .frameJob _ _ => true
  | .sakInstallation _ sa => (sa.key.length == 16 || sa.key.length == 32) && sa.salt.length == 12
  | .saSwitch _ _ => true
  | .idle => true
  | .idleResume => true
  | .standbyResume => true
  | .roundStart => true
  | .token _ _ => true
  | .commitPoint => true
  | .wakeIn _ => true
  | .aonTimer => true
  | .wake _ _ => true
  | .wakeRepeat => true
  | .wakeOutPulseEnd _ => true
  | .falseWake _ => true
  | .ringLoss => true
  | .regeneration => true
  | .slpHostDemand _ _ => true
  | .beacon _ => true
  | .beaconInterval => true
  | .nodeSilence _ => true
  | .proofPeriod => true
  | .rosterDigest _ _ => true
  | .rosterRange _ _ => true
  | .remoteRead _ _ => true
  | .remoteReadRsp _ _ => true
  | .remoteWrite _ _ => true
  | .remoteRetry _ => true
  | .snapshotMessage _ _ => true
  | .snapshotReassembly _ _ _ => true
  | .tunnel _ _ => true
  | .timeHealth _ _ => true
  | .timeHealthInterval => true
  | .resyncEnd => true
  | .pcieReset => true
  | .functionLevelReset => true
  | .sendTail _ _ _ => true
  | .receiveTail _ _ _ => true
  | .completionHead _ _ _ => true
  | .sendDescriptor _ desc buf => decide (desc.length = 32) && decide (buf.length = leAt desc 8 2)
  | .receiveDescriptor _ desc => decide (desc.length = 32)
  | .hstHqnnWait _ _ _ => true
  | .completionWait _ => true
  | .hstHqnnPop _ _ => true
  | .hstHqnnAck _ _ => true
  | .tStash _ => true
  | .rdid => true
  | .rdsr => true
  | .read addr n => xspiLenOk addr n
  | .write addr data => xspiLenOk addr data.length
  | .writeApplied => true
  | .rsten => true
  | .rst => true
  | .signalValueRead _ _ => true
  | .signalValueWrite _ _ _ _ => true
  | .pduRequest _ _ => true
  | .rcRead _ _ => true
  | .registerWrite _ _ _ _ => true
  | .brownOut _ => true
  | .brownOutRecovery => true
  | .droop _ => true
  | .droopHalfCheck _ => true
  | .droopRelease => true
  | .thermalSample _ => true
  | .releaseHold => true
  | .mramRetry => true
  | .mramCompletion => true
  | .watchdogPeriod => true
  | .pwrHeartbeat _ _ => true
  | .heartbeatWindow => true
  | .operatingSeconds => true
  | .recorderFlush => true
  | .flushRetry => true
  | .freeze _ => true
  | .thaw _ => true
  | .clear _ _ _ => true
  | .automaticThaw => true
  | .diagnosticRead _ req => decide (req.length = 8)
  | .halt _ _ _ => true
  | .stepCore _ _ _ => true
  | .resume _ _ _ => true
  | .dbgCcnBp _ _ _ => true
  | .bpHit _ => true
  | .holdUpGaugeSample _ => true
  | .wakeInputInactive _ => true
  | .tamperSourceInactive _ => true
  | .pcieLinkChange _ _ => true
  | .suppliesRemoved => true
  | .signalingMessage _ _ _ _ => true

end Sys2Proof
end

