-- ==== Sys2Proof/Certificates/Slice0/Obligations.lean ====
section
/-! DEFINITION. The statements for the provers. Each gathers, for one family of commands, what the rules say its
commands do when nothing stands in their way, each clause with its own conditions. -/

section

open Sys2Proof Sys2Proof.Machine

/-- After POWER_ON_RESET from every state, WARM_RESET (pin or a pending request) outside OFF, and WAKE_START in SLEEP with
INH high once sleep entry is over, the device is in ACTIVE with no staging session, the life-cycle counter and the queue of
waiting commands as before. SUPPLIES_REMOVED leaves it in OFF with every register at its reset value, no plate record in
force, and the plate flash and life-cycle counter as before. That the waiting commands survive a start is the model's choice
(log entry 2). (R36, R38, R45, R48, R66, R369, R420) -/
def Obligations.StartsBringTheDeviceUp : Prop :=
  (∀ (env : StartEnv) (s : State), (∃ t, exec (.powerOnReset env) s = .next t ∧ t.pwr.mode = 0 ∧ t.sys.session = none ∧ t.key.lcCount = s.key.lcCount ∧ t.pending = s.pending)) ∧
  (∀ (pin : Bool) (env : StartEnv) (s : State), (s.pwr.mode ≠ 4) → (pin = true ∨ s.sys.request.isSome = true) → (∃ t, exec (.warmReset pin env) s = .next t ∧ t.pwr.mode = 0 ∧ t.sys.session = none ∧ t.key.lcCount = s.key.lcCount ∧ t.pending = s.pending)) ∧
  (∀ (env : StartEnv) (s : State), (s.pwr.mode = 3) → (s.slp.inh = true) → (sleepEntering s = false) → (∃ t, exec (.wakeStart env) s = .next t ∧ t.pwr.mode = 0 ∧ t.sys.session = none ∧ t.key.lcCount = s.key.lcCount ∧ t.pending = s.pending)) ∧
  (∀ (s : State), (∃ t, exec .suppliesRemoved s = .next t ∧ t.pwr.mode = 4 ∧ t.regs = [] ∧ t.cfg = [] ∧ t.sys.flash = s.sys.flash ∧ t.key.lcCount = s.key.lcCount ∧ t.pending = s.pending))

/-- For a host interface that may stage, with no staging command running: OPEN with a length from 256 to 16 773 120 opens a
session on the copy that the device does not run from (on the given copy in the halted and recovery states), shows BUSY, and
every byte of the staged length reads erased. WRITE programs exactly the 4 KiB of the buffer at the offset, less the bytes
beyond the length, and leaves every other flash byte. CLOSE starts with the status and verify code that the copy earns.
ABORT ends the session with OK. Registers other than the staging status keep their values. ABORT's completing at once, and
BUSY's ending through STAGE_COMMAND_DONE, are the model's (log entry 30). (R66, R67, R69) -/
def Obligations.StagingCommandsComplete : Prop :=
  (∀ (who : Iface) (copyB : Bool) (s : State), (Admits (ifaceInit who) 0x30 s) → (mayStage (ifaceInit who) s = true) → (s.sys.done = none) → (s.sys.session = none) → (256 ≤ rd F.SYS_STAGE_ARG_ARG s) → (rd F.SYS_STAGE_ARG_ARG s ≤ copyMax) → (let c := if stageFree s then copyB else rd F.SYS_BOOT_STAT_COPY s == 0
      ∃ t, exec (.openStage who copyB) s = .next t ∧ t.sys.session = some ⟨c, rd F.SYS_STAGE_ARG_ARG s, []⟩ ∧ t.sys.done = some (1, 0, 0) ∧ rd F.SYS_STAGE_STAT_STATUS t = Status.busy.code ∧ rd F.SYS_STAGE_STAT_SESSION t = 1 ∧ (∀ a, copyBase c ≤ a → a < copyBase c + rd F.SYS_STAGE_ARG_ARG s → tget 0xFF t.sys.flash a = 0xFF) ∧ RegsKept [F.SYS_STAGE_STAT_STATUS, F.SYS_STAGE_STAT_SESSION, F.SYS_STAGE_STAT_COPY, F.SYS_STAGE_STAT_PENDING] s t ∧ t = { s with regs := t.regs, hst := t.hst, sys := t.sys })) ∧
  (∀ (who : Iface) (x : Session) (s : State), (Admits (ifaceInit who) 0x30 s) → (mayStage (ifaceInit who) s = true) → (s.sys.done = none) → (s.sys.session = some x) → (rd F.SYS_STAGE_ARG_ARG s % 4096 = 0) → (rd F.SYS_STAGE_ARG_ARG s < x.len) → (rd F.SYS_STAGE_ARG_ARG s ∉ x.written) → (tsorted s.sys.flash = true) → (let o := rd F.SYS_STAGE_ARG_ARG s
      ∃ t, exec (.stageWrite who) s = .next t ∧ t.sys.session = some { x with written := o :: x.written } ∧ t.sys.done = some (2, 0, 0) ∧ rd F.SYS_STAGE_STAT_STATUS t = Status.busy.code ∧ (∀ a, tget 0xFF t.sys.flash a = if copyBase x.copyB + o ≤ a ∧ a < copyBase x.copyB + o + min 4096 (x.len - o) then tget 0 s.sys.bufBytes (a - (copyBase x.copyB + o)) else tget 0xFF s.sys.flash a) ∧ RegsKept [F.SYS_STAGE_STAT_STATUS, F.SYS_STAGE_STAT_SESSION, F.SYS_STAGE_STAT_COPY] s t ∧ t = { s with regs := t.regs, hst := t.hst, sys := t.sys })) ∧
  (∀ (who : Iface) (x : Session) (s : State), (Admits (ifaceInit who) 0x30 s) → (mayStage (ifaceInit who) s = true) → (s.sys.done = none) → (s.sys.session = some x) → (∃ t, exec (.closeStage who) s = .next t ∧ t.sys.done = some (3, (if closeCode x.copyB s = 0 then Status.ok else .fault).code, closeCode x.copyB s) ∧ rd F.SYS_STAGE_STAT_STATUS t = Status.busy.code ∧ RegsKept [F.SYS_STAGE_STAT_STATUS] s t ∧ t = { s with regs := t.regs, hst := t.hst, sys := { s.sys with done := t.sys.done } })) ∧
  (∀ (who : Iface) (s : State), (Admits (ifaceInit who) 0x30 s) → (mayStage (ifaceInit who) s = true) → (s.sys.done = none) → (s.sys.session.isSome = true) → (∃ t, exec (.abortStage who) s = .next t ∧ t.sys.session = none ∧ rd F.SYS_STAGE_STAT_STATUS t = 0 ∧ rd F.SYS_STAGE_STAT_SESSION t = 0 ∧ RegsKept [F.SYS_STAGE_STAT_STATUS, F.SYS_STAGE_STAT_SESSION] s t ∧ t = { s with regs := t.regs, hst := t.hst, sys := { s.sys with session := none } }))

/-- START_WATCHDOG before any copy has been tried halts the start with code 0x11. TAMPER_HOLD_CLEARED with the recovery
strap resumes the start into recovery. RECOVER_START ends the session. STAGE_COMMAND_DONE shows the command's status; a
failed CLOSE shows its verify code, a good one leaves a pending staging request and remembers the closed copy.
START_RECORD_RETRY of an awake device with 90 µJ stored starts every waiting start-record write. SYS_RST_REQ with the key
and a grant gates the transmitters and requests a WRST. DOMAIN_RESET holds the domain fail-silent. DOMAIN_RELOAD_DONE with a
digest that differs requests a WRST. (R38, R39, R43, R58, R63, R67, R70, R76, R390) -/
def Obligations.StartEventsComplete : Prop :=
  (∀ (s : State), (s.sys.running = true) → (s.sys.trying = none) → (∃ t, exec .startWatchdog s = .next t ∧ rd F.SYS_BOOT_STAT_FAIL_CODE t = 17 ∧ rd F.SYS_BOOT_STAT_FAIL_COPY t = 3 ∧ stage t = 7 ∧ t.sys.running = false ∧ t.pwr.gated = true ∧ t.pwr.faultN = true)) ∧
  (∀ (env : StartEnv) (s : State), (s.sys.held = true) → (s.sys.request = none) → (env.tamper = 0) → (rd F.SYS_STRAP_BOOT_SEL s = 2) → (lcState s ≠ 5) → (∃ t, exec (.tamperHoldCleared env) s = .next t ∧ t.sys.held = false ∧ t.sys.running = false ∧ stage t = 8 ∧ rd F.KEY_TAMPER_STAT_ACTIVE t = 0)) ∧
  (∀ (who : Iface) (env : StartEnv) (s : State), (Admits (ifaceInit who) 0x30 s) → (mayStage (ifaceInit who) s = true) → (s.sys.done = none) → (stage s = 7 ∨ stage s = 8) → (∃ t, exec (.recoverStart who env) s = .next t ∧ t.sys.session = none ∧ t.pwr.mode = s.pwr.mode ∧ t.key.lcCount = s.key.lcCount)) ∧
  (∀ (cmd st code : Nat) (s : State), (s.sys.done = some (cmd, st, code)) → (st < 256) → (cmd ≠ 3) → (∃ t, exec .stageCommandDone s = .next t ∧ rd F.SYS_STAGE_STAT_STATUS t = st ∧ t.sys.done = none ∧ RegsKept [F.SYS_STAGE_STAT_STATUS] s t ∧ t = { s with regs := t.regs, sys := { s.sys with done := none } })) ∧
  (∀ (st code : Nat) (x : Session) (s : State), (s.sys.done = some (3, st, code)) → (s.sys.session = some x) → (0 < st) → (st < 256) → (code < 256) → (∃ t, exec .stageCommandDone s = .next t ∧ rd F.SYS_STAGE_STAT_STATUS t = st ∧ rd F.SYS_STAGE_STAT_VERIFY_CODE t = code ∧ t.sys.session = none ∧ t.sys.done = none ∧ t.sys.flash = s.sys.flash)) ∧
  (∀ (code : Nat) (x : Session) (s : State), (s.sys.done = some (3, 0, code)) → (s.sys.session = some x) → (code < 256) → (∃ t, exec .stageCommandDone s = .next t ∧ rd F.SYS_STAGE_STAT_STATUS t = 0 ∧ rd F.SYS_STAGE_STAT_PENDING t = 1 ∧ t.sys.session = none ∧ t.sys.closedB = some x.copyB)) ∧
  (∀ (s : State), (awake s = true) → (90 ≤ storedEnergy s) → (s.sys.pageDue = false) → (∃ t, exec .startRecordRetry s = .next t ∧ t.mram.started = s.mram.started ++ s.mram.waiting.filter MramOp.isStart ∧ t.mram.waiting = s.mram.waiting.filter (fun o => !o.isStart) ∧ t = { s with mram := t.mram, rcd := t.rcd })) ∧
  (∀ (who : Initiator) (i : Nat) (v : Word) (s : State), (hostOf who = some i) → (Admits who 0x24 s) → (bit v.toNat 0 = true) → (v.toNat / 65536 = 0xA5C3) → (stage s = 9 ∨ bit (hostPerm i s) 2 = true) → (∃ t, exec (.sysRstReq who v) s = .next t ∧ t.sys.request = some (s.sys.request.getD .hostReq) ∧ t.pwr.gated = true ∧ rd F.PWR_STAT_SILENT t = 1 ∧ RegsKept [F.PWR_STAT_SILENT] s t ∧ t = { s with regs := t.regs, rcd := t.rcd, pwr := t.pwr, sys := t.sys, hst := t.hst })) ∧
  (∀ (d : Domain) (s : State), (domTypes d ≠ []) → (stage s = 5 ∨ stage s = 6) → (s.pwr.mode ≤ 1) → (∃ t, exec (.domainReset d) s = .next t ∧ Domain.num d ∈ t.sys.domHeld ∧ Domain.num d ∉ t.sys.domDue ∧ silent d t = true ∧ t.sys.session = s.sys.session ∧ t.sys.flash = s.sys.flash ∧ t.pwr.mode = s.pwr.mode)) ∧
  (∀ (d : Domain) (s : State), (Domain.num d ∈ s.sys.domHeld) → (digestsAgree (domTypes d) s = false) → (∃ t, exec (.domainReloadDone d) s = .next t ∧ t.sys.request = some (s.sys.request.getD .fence) ∧ t.pwr.gated = true ∧ Domain.num d ∈ t.sys.domHeld ∧ RegsKept [F.PWR_STAT_SILENT] s t)) ∧
  (∀ (d : Domain) (s : State), (Domain.num d ∈ s.sys.domHeld) → (digestsAgree (domTypes d) s = true) → (∃ t, exec (.domainReloadDone d) s = .next t ∧ Domain.num d ∉ t.sys.domHeld ∧ t.sys.session = s.sys.session ∧ t.sys.flash = s.sys.flash))

/-- On an enabled port: a two-step Sync waits for its Follow_Up. With room for a transmit timestamp, a Pdelay_Req is
answered with Pdelay_Resp, a master port's Sync interval sends a Sync with the next sequence number, and a Pdelay interval
sends a request and counts an unanswered one; each captures its transmit timestamp. Once a Sync's timestamp is drained, its
Follow_Up goes out. A Pdelay_Resp gives the mean path delay and clears the losses when the request's own timestamp is there,
waits for it otherwise, and counts as lost without timestamps. Nothing else of the state changes. The bytes of the messages
are the forms of IEEE 802.1AS-2020 (PRESUMED, log entry 77). (R78, R82, R84, R90, R93, R96) -/
def Obligations.TimeMessagesComplete : Prop :=
  (∀ (d : Fin 4) (p : Fin 32) (m : SyncMsg) (s : State), (syncValid d p s = true) → (m.twoStep = true) → (∃ t, exec (.sync d p m) s = .next t ∧ gptp d p t = { gptp d p s with sync := some m } ∧ t = { s with time := { s.time with ports := t.time.ports } })) ∧
  (∀ (d : Fin 4) (p : Fin 32) (m : PdelayReq) (s : State), (gptpOn d p s = true) → (silent (portDomain p) s = false) → ((tsFifo p s).length < 64) → (tsPoolOf p s = 0) → (∃ t, exec (.pdelayReq d p m) s = .next t ∧ t.out = .gptp p (wirePdelayResp (delayDom d p s) 3 p m.seq m.from_ (m.ingress + cfgN C.timePort p 0 2 s) s) :: s.out ∧ (tsFifo p t).map (·.of_) = (tsFifo p s).map (·.of_) ++ [.pdelayResp d m.seq m.from_] ∧ RegsKept [F.TIME_PORTpp_TSF_FIFO.u p, F.TIME_PORTpp_TSF_POOL.u p, F.TIME_TSPOOL_STAT_USED, F.TIME_TSPOOL_STAT_HIGH] s t ∧ t = { s with regs := t.regs, free := t.free, out := t.out, time := { s.time with fifo := t.time.fifo } })) ∧
  (∀ (d : Fin 4) (p : Fin 32) (m : PdelayMsg) (t1 : Nat) (t2 t3 t4 : Int) (s : State), (gptpOn d p s = true) → ((gptp (delayDom d p s) p s).asked = some m.seq) → (m.ts = some (t2, t3, t4)) → ((gptp (delayDom d p s) p s).sentAt = some t1) → (∃ t, exec (.pdelayResp d p m) s = .next t ∧ gptp (delayDom d p s) p t = { gptp (delayDom d p s) p s with asked := none, sentAt := none, resp := none, lost := 0, delay := ((t4 + cfgN C.timePort p 0 2 s - t1) - (t3 - t2)) / 2 } ∧ t = { s with time := { s.time with ports := t.time.ports } })) ∧
  (∀ (d : Fin 4) (p : Fin 32) (m : PdelayMsg) (t2 t3 t4 : Int) (s : State), (gptpOn d p s = true) → ((gptp (delayDom d p s) p s).asked = some m.seq) → (m.ts = some (t2, t3, t4)) → ((gptp (delayDom d p s) p s).sentAt = none) → (∃ t, exec (.pdelayResp d p m) s = .next t ∧ gptp (delayDom d p s) p t = { gptp (delayDom d p s) p s with resp := some (t2, t3, t4 + cfgN C.timePort p 0 2 s) } ∧ t = { s with time := { s.time with ports := t.time.ports } })) ∧
  (∀ (d : Fin 4) (p : Fin 32) (m : PdelayMsg) (s : State), (gptpOn d p s = true) → ((gptp (delayDom d p s) p s).asked = some m.seq) → (m.ts = none) → (∃ t, exec (.pdelayResp d p m) s = .next t ∧ gptp (delayDom d p s) p t = { gptp (delayDom d p s) p s with asked := none, sentAt := none, resp := none, lost := (gptp (delayDom d p s) p s).lost + 1 } ∧ t = { s with time := { s.time with ports := t.time.ports } })) ∧
  (∀ (d : Fin 4) (p : Fin 32) (ns : Fin 4) (s : State), (isMaster d p s = true) → (silent (portDomain p) s = false) → ((tsFifo p s).length < 64) → (tsPoolOf p s = 0) → (∃ t, exec (.syncInterval d p ns) s = .next t ∧ t.out = .gptp p (wireSync d p (gptp d p s).seq s) :: s.out ∧ gptp d p t = { gptp d p s with seq := ((gptp d p s).seq + 1) % 65536 } ∧ tsFifo p t = tsFifo p s ++ [⟨.sync d (gptp d p s).seq, s.time.loc + ns + cfgN C.timePort p 2 2 s⟩] ∧ RegsKept [F.TIME_PORTpp_TSF_FIFO.u p, F.TIME_PORTpp_TSF_POOL.u p, F.TIME_TSPOOL_STAT_USED, F.TIME_TSPOOL_STAT_HIGH] s t ∧ t = { s with regs := t.regs, out := t.out, time := { s.time with ports := t.time.ports, fifo := t.time.fifo } })) ∧
  (∀ (d : Fin 4) (p : Fin 32) (x : Stamp) (q : Nat) (r : List Stamp) (s : State), (tsFifo p s = x :: r) → (x.of_ = .sync d q) → (isMaster d p s = true) → (silent (portDomain p) s = false) → (s.time.pool.all (fun e => e.1 != p.val) = true) → (∃ t, exec (.timestampDrain p) s = .next t ∧ t.out = .gptp p (wireFollowUp d p q x.ns s) :: .stamp p x.of_ (some x.ns) :: s.out ∧ tsFifo p t = r ∧ RegsKept [F.TIME_PORTpp_TSF_FIFO.u p, F.TIME_PORTpp_TSF_POOL.u p, F.TIME_TSPOOL_STAT_USED, F.TIME_TSPOOL_STAT_HIGH] s t ∧ t = { s with regs := t.regs, out := t.out, time := { s.time with fifo := t.time.fifo } })) ∧
  (∀ (d : Fin 4) (p : Fin 32) (s : State), (gptpOn d p s = true) → (silent (portDomain p) s = false) → ((tsFifo p s).length < 64) → (tsPoolOf p s = 0) → (let g := gptp (delayDom d p s) p s
      ∃ t, exec (.pdelayReqInterval d p) s = .next t ∧ t.out = .gptp p (wirePdelayReq (delayDom d p s) p g.seq s) :: s.out ∧ gptp (delayDom d p s) p t = { g with seq := (g.seq + 1) % 65536, asked := some g.seq, sentAt := none, resp := none, lost := if g.asked.isSome then g.lost + 1 else g.lost } ∧ (tsFifo p t).map (·.of_) = (tsFifo p s).map (·.of_) ++ [.pdelayReq (delayDom d p s) g.seq] ∧ RegsKept [F.TIME_PORTpp_TSF_FIFO.u p, F.TIME_PORTpp_TSF_POOL.u p, F.TIME_TSPOOL_STAT_USED, F.TIME_TSPOOL_STAT_HIGH] s t ∧ t = { s with regs := t.regs, free := t.free, out := t.out, time := { s.time with ports := t.time.ports, fifo := t.time.fifo } }))

/-- A valid one-step Sync, or the Follow_Up of a two-step one, takes a FREE or HOLDOVER domain to LOCKING, a LOCKING domain
to LOCKED at the eighth offset in a row below 200 ns, and no other domain anywhere. Where BMCA runs, its choice of this
device enters GM with slave port 0x3F, and its choice of another leaves GM for FREE with that Announce's port as the slave
port (DEDUCED, log entry 36; BMCA's order of grandmasters is PRESUMED, log entry 77). Once Syncs have been missing for the
receipt timeout, LOCKING falls to FREE and a LOCKED domain other than 0, which does not steer domain 0, to HOLDOVER with the
holdover counted; once its limit has passed, the holdover takes HOLDOVER to FREE. The error reads 0xFFFFFFFF in FREE. (R82,
R84, R85, R87) -/
def Obligations.DomainStatesFollowTheTable : Prop :=
  (∀ (d : Fin 4) (p : Fin 32) (m : SyncMsg) (s : State), (syncValid d p s = true) → (m.twoStep = false) → (domState d s ≤ 4) → (∃ t, exec (.sync d p m) s = .next t ∧ domState d t = (if domState d s = 0 ∨ domState d s = 3 then 1 else if domState d s = 1 ∧ (syncOffset d p m s).natAbs < 200 ∧ 7 ≤ (dom d s).low then 2 else domState d s))) ∧
  (∀ (d : Fin 4) (p : Fin 32) (m y : SyncMsg) (s : State), ((gptp d p s).sync = some y) → (syncValid d p s = true) → (y.seq = m.seq) → (domState d s ≤ 4) → (∃ t, exec (.followUp d p m) s = .next t ∧ (gptp d p t).sync = none ∧ domState d t = (if domState d s = 0 ∨ domState d s = 3 then 1 else if domState d s = 1 ∧ (syncOffset d p { y with origin := m.origin, corr := y.corr + m.corr } s).natAbs < 200 ∧ 7 ≤ (dom d s).low then 2 else domState d s))) ∧
  (∀ (d : Fin 4) (l : List Announce) (a : Announce) (s : State), (svcUp 1 s = true) → (domOn d s = true) → (cfgN C.timeDom d 1 1 s = 1) → (bmcaSelect d l s = some a) → (a.identity = Config.clockIdentity) → (∃ t, exec (.bmca d l) s = .next t ∧ domState d t = 4 ∧ rd (F.TIME_Dn_STAT_SLAVE_PORT.u d) t = 0x3F)) ∧
  (∀ (d : Fin 4) (l : List Announce) (a : Announce) (s : State), (svcUp 1 s = true) → (domOn d s = true) → (cfgN C.timeDom d 1 1 s = 1) → (bmcaSelect d l s = some a) → (a.identity ≠ Config.clockIdentity) → (domState d s = 4) → (∃ t, exec (.bmca d l) s = .next t ∧ domState d t = 0 ∧ rd (F.TIME_Dn_STAT_SLAVE_PORT.u d) t = a.port ∧ rd (F.TIME_Dn_ERR_ERR.u d) t = 0xFFFFFFFF)) ∧
  (∀ (d : Fin 4) (s : State), (domOn d s = true) → (domState d s = 1) → (syncDue d s ≤ s.time.loc) → (∃ t, exec (.syncReceiptTimeout d) s = .next t ∧ domState d t = 0 ∧ rd (F.TIME_Dn_ERR_ERR.u d) t = 0xFFFFFFFF)) ∧
  (∀ (d : Fin 4) (s : State), (domOn d s = true) → (domState d s = 2) → (d.val ≠ 0) → (rd (F.TIME_Dn_STAT_SOURCE.u 0) s ≠ d.val) → (syncDue d s ≤ s.time.loc) → (∃ t, exec (.syncReceiptTimeout d) s = .next t ∧ domState d t = 3 ∧ rd (F.TIME_Dn_CNT_HOLDS.u d) t = min (rd (F.TIME_Dn_CNT_HOLDS.u d) s + 1) 65535 ∧ (dom d t).holdAt = s.time.loc ∧ (dom d t).holdErr = rd (F.TIME_Dn_ERR_ERR.u d) s)) ∧
  (∀ (d : Fin 4) (s : State), (domState d s = 3) → ((dom d s).holdAt + cfgN C.timeHdr 0 2 2 s * 1000000 ≤ s.time.loc) → (∃ t, exec (.holdoverLimit d) s = .next t ∧ domState d t = 0 ∧ rd (F.TIME_Dn_ERR_ERR.u d) t = 0xFFFFFFFF ∧ RegsKept [F.TIME_Dn_STAT_STATE.u d, F.TIME_Dn_ERR_ERR.u d] s t ∧ t = { s with regs := t.regs, time := { s.time with ppsOut := t.time.ppsOut } }))

/-- A drain puts the port's oldest timestamp into its completion record and shortens the FIFO. PPS_OUT rises within 8 ns of
a whole second of a domain that is not FREE and falls once its width has passed. An edge on PPS_IN within 1 ms of a second,
with none in the half second before, is accepted and stored; one further away is rejected and counted. (R93, R97, R98) -/
def Obligations.TimePinsAndStampsComplete : Prop :=
  (∀ (p : Fin 32) (x : Stamp) (q i : Nat) (b : Bool) (r : List Stamp) (s : State), (tsFifo p s = x :: r) → (x.of_ = .host q i b) → (awake s = true) → (stampHeld x s = false) → ((hostQ q s).stamps.contains (i, b) = false) → (s.time.pool.all (fun e => e.1 != p.val) = true) → (∃ t, exec (.timestampDrain p) s = .next t ∧ t.out = .stamp p x.of_ (some x.ns) :: s.out ∧ tsFifo p t = r ∧ t.time.pool = s.time.pool ∧ t = { s with regs := t.regs, out := t.out, time := { s.time with fifo := t.time.fifo } })) ∧
  (∀ (s : State), (bit (cfgN C.timeHdr 0 0x0B 1 s) 0 = true) → (domOn (cfgN C.timeHdr 0 0x0A 1 s) s = true) → (domState (cfgN C.timeHdr 0 0x0A 1 s) s ≠ 0) → ((toSecond (domNs (cfgN C.timeHdr 0 0x0A 1 s) s)).natAbs ≤ 8) → (exec .ppsOut s = .next { s with time := { s.time with ppsOut := true, ppsRose := s.time.loc } })) ∧
  (∀ (s : State), (s.time.ppsRose + cfgN C.timeHdr 0 0x0C 4 s * 1000 ≤ s.time.loc) → (exec .ppsOutWidth s = .next { s with time := { s.time with ppsOut := false } })) ∧
  (∀ (s : State), (bit (cfgN C.timeHdr 0 0x0B 1 s) 1 = true) → (bit (cfgN C.timeHdr 0 0x0B 1 s) 2 = false) → (s.time.edge = none) → ((toSecond (shortNs s)).natAbs ≤ 1000000) → (∃ t, exec .ppsIn s = .next t ∧ t.time.ppsIn = shortNs s ∧ t.time.edge = some (shortNs s) ∧ rd F.TIME_PPS_STAT_ACCEPT t = min (rd F.TIME_PPS_STAT_ACCEPT s + 1) 65535 ∧ RegsKept [F.TIME_PPS_STAT_ACCEPT, F.TIME_PPS_IN_LO_NS] s t ∧ t = { s with regs := t.regs, time := { s.time with ppsIn := t.time.ppsIn, edge := t.time.edge } })) ∧
  (∀ (s : State), (bit (cfgN C.timeHdr 0 0x0B 1 s) 1 = true) → (1000000 < (toSecond (shortNs s)).natAbs) → (∃ t, exec .ppsIn s = .next t ∧ rd F.TIME_PPS_STAT_REJECT t = min (rd F.TIME_PPS_STAT_REJECT s + 1) 65535 ∧ RegsKept [F.TIME_PPS_STAT_REJECT] s t ∧ t = { s with regs := t.regs, time := { s.time with edge := some (shortNs s) } }))

/-- An instant of an enabled entry that fires counts as launched and becomes the entry's last instant: NOP_ACTION does
nothing else; GATE forces the port's gates or returns them to the list; SNAPSHOT raises the set's latch event on one of GV0
to GV3; OUTPUT drives the pin; PLCA_BEACON keeps the instant for a running cycle; ENGINE_EVENT raises an STP event.
LAUNCH_FRAME and LAUNCH_PDU with their frames linked release them to the queue's target; with too few linked they wait as
late, within the late limit, when the entry waits. The instants that fire are those of StippleDue. (R103, R106, R107, R113,
R118, R217, R227, R335) -/
def Obligations.StippleInstantsFire : Prop :=
  (∀ (e : Fin 4096) (s : State), (StippleDue 0 e s) → (∃ t, exec (.nopAction e) s = .next t ∧ (stpRun e t).launched = sat32 (stpRun e s).launched ∧ (stpRun e t).last = some (stpNext e s) ∧ t = { s with stp := t.stp })) ∧
  (∀ (e : Fin 4096) (s : State), (StippleDue 1 e s) → ((stpRun e s).late = none) → (stpReady e s = false) → (bit (stpN e 1 1 s) 1 = true) → (shortNs s ≤ stpNext e s + stpLimit e s) → (∃ t, exec (.launchFrame e) s = .next t ∧ (stpRun e t).late = some (stpNext e s) ∧ (stpRun e t).last = some (stpNext e s) ∧ t = { s with stp := t.stp })) ∧
  (∀ (e : Fin 4096) (s : State), (StippleDue 2 e s) → ((stpRun e s).late = none) → (stpReady e s = false) → (bit (stpN e 1 1 s) 1 = true) → (shortNs s ≤ stpNext e s + stpLimit e s) → (∃ t, exec (.launchPdu e) s = .next t ∧ (stpRun e t).late = some (stpNext e s) ∧ (stpRun e t).last = some (stpNext e s) ∧ t = { s with stp := t.stp })) ∧
  (∀ (e : Fin 4096) (r : State) (s : State), (StippleDue 1 e s) → ((stpRun e s).late = none) → (stpReady e s = true) → (stpStepped (stpNext e s) s = false) → (stpRelease e (stpSet e { stpRun e s with last := some (stpNext e s) } { s with stp := { s.stp with tickNs := s.time.loc, tickCnt := (if s.stp.tickNs = s.time.loc then s.stp.tickCnt else 0) + 1 } }) = (true, r)) → (∃ t, exec (.launchFrame e) s = .next t ∧ (stpRun e t).launched = sat32 (stpRun e r).launched ∧ t.qm = r.qm)) ∧
  (∀ (e : Fin 4096) (r : State) (s : State), (StippleDue 2 e s) → ((stpRun e s).late = none) → (stpReady e s = true) → (stpStepped (stpNext e s) s = false) → (stpRelease e (stpSet e { stpRun e s with last := some (stpNext e s) } { s with stp := { s.stp with tickNs := s.time.loc, tickCnt := (if s.stp.tickNs = s.time.loc then s.stp.tickCnt else 0) + 1 } }) = (true, r)) → (∃ t, exec (.launchPdu e) s = .next t ∧ (stpRun e t).launched = sat32 (stpRun e r).launched ∧ t.qm = r.qm)) ∧
  (∀ (e : Fin 4096) (s : State), (StippleDue 3 e s) → (stpTarget e s < 16) → (∃ t, exec (.gate e) s = .next t ∧ (stpRun e t).launched = sat32 (stpRun e s).launched ∧ (ethPort (stpTarget e s) t).forced = (if bit (stpParam e s) 8 then some (stpParam e s % 256) else none))) ∧
  (∀ (e : Fin 4096) (s : State), (StippleDue 4 e s) → (∃ t, exec (.snapshot e) s = .next t ∧ (stpRun e t).launched = sat32 (stpRun e s).launched ∧ (eng (stpTarget e s % 4) t).evs = (eng (stpTarget e s % 4) s).evs ++ [⟨4, stpParam e s, stpTarget e s, stpParam2 e s, stpNext e s⟩])) ∧
  (∀ (e : Fin 4096) (s : State), (StippleDue 5 e s) → (stpTarget e s < 4) → (stpParam e s = 1) → (∃ t, exec (.output e) s = .next t ∧ t.stp.pins = putBit s.stp.pins (stpTarget e s) true ∧ (stpRun e t).launched = sat32 (stpRun e s).launched ∧ t = { s with stp := t.stp })) ∧
  (∀ (e : Fin 4096) (s : State), (StippleDue 6 e s) → (stpTarget e s < 16) → (t1sMode (stpTarget e s) s = 1) → (t1sFlag (stpTarget e s) 0 s = true) → (t1sLow (stpTarget e s) s = false) → ((t1sSeg (stpTarget e s) s).cycle = true) → (∃ t, exec (.plcaBeacon e) s = .next t ∧ (t1sSeg (stpTarget e s) t).align = some (stpNext e s) ∧ (stpRun e t).launched = sat32 (stpRun e s).launched ∧ t = { s with stp := t.stp, t1s := t.t1s })) ∧
  (∀ (e : Fin 4096) (s : State), (StippleDue 7 e s) → (∃ t, exec (.engineEvent e) s = .next t ∧ (stpRun e t).launched = sat32 (stpRun e s).launched ∧ (eng (stpTarget e s % 4) t).evs = (eng (stpTarget e s % 4) s).evs ++ [⟨5, stpParam e s, e, stpParam2 e s, stpNext e s⟩]))

/-- OUTPUT_PULSE_END returns a pulsed pin to low. PREPARATION_EVENT raises a PREP event of the entry's PDU at its engine
once per instant, and leaves a device in IDLE in ACTIVE. GUARD_WINDOW, from the window's length before the instant, keeps
the port from starting other frames until the instant. LATE_LIMIT skips the waiting instant and counts the skip. (R103,
R109, R110, R111, R113) -/
def Obligations.StippleTimersComplete : Prop :=
  (∀ (n : Fin 4) (s : State), (n.val ∈ s.stp.pulse) → (∃ t, exec (.outputPulseEnd (.pin n)) s = .next t ∧ t.stp.pins = putBit s.stp.pins n false ∧ n.val ∉ t.stp.pulse ∧ t = { s with stp := t.stp })) ∧
  (∀ (e : Fin 4096) (gv : Fin 4) (s : State), (stpOn e s = true) → (stpAct e s = 2) → (stpRunning s = true) → (stpSuspended e s = false) → ((stpRun e s).late = none) → ((stpRun e s).prepared ≠ some (stpNext e s)) → (pduN (stpTarget e s) 0x1C 1 s = gv.val) → (stpNext e s ≤ shortNs s + stpParam2 e s) → (∃ t, exec (.preparationEvent e gv) s = .next t ∧ (stpRun e t).prepared = some (stpNext e s) ∧ (eng gv t).evs = (eng gv s).evs ++ [⟨3, 0, stpTarget e s, e, stpNext e s⟩] ∧ t.pwr.mode = 0)) ∧
  (∀ (e : Fin 4096) (p : Nat) (s : State), (qTarget (stpQueue e s) s = (0, p)) → (p < 16) → (stpOn e s = true) → (stpAct e s = 1 ∨ stpAct e s = 2) → (stpRunning s = true) → (stpNext e s ≤ shortNs s + guardNs p s + 4) → (∃ t, exec (.guardWindow e) s = .next t ∧ tget 0 t.stp.guard p = max (tget 0 s.stp.guard p) (stpNext e s) ∧ (∀ q, q ≠ p → tget 0 t.stp.guard q = tget 0 s.stp.guard q) ∧ t = { s with stp := { s.stp with guard := t.stp.guard } })) ∧
  (∀ (e : Fin 4096) (i : Nat) (s : State), ((stpRun e s).late = some i) → (i + stpLimit e s ≤ shortNs s) → (stpAct e s = 1) → (∃ t, exec (.lateLimit e) s = .next t ∧ (stpRun e t).late = none ∧ (stpRun e t).skipCnt = sat16 (stpRun e s).skipCnt ∧ RegsKept [F.STP_SKIP_CNT_COUNT] s t ∧ t = { s with regs := t.regs, stp := t.stp }))

/-- With the switch fabric running: CELL_TIME advances the rotor by one, modulo 16. FRAME_RECEIVED of a runt counts the
frame and stages nothing; a good frame of a segment enters staging with its FCS. LOOKUP_RESULT of a frame bound for one
queue that takes it gives the frame that destination; one bound for none leaves staging. ENQUEUE of a frame found bad drops
it from staging. TRANSMISSION_END on an Ethernet port takes the head entry out of its queue. ENQUEUE of a good frame with
one destination appends its entry there. POP_TIMEOUT resumes the waiting context or task once its wait is over. FLUSH_DONE
returns the flushed cells and clears BUSY. SCRAPER counts its pass. QM_FLUSH by an initiator that may flush marks the queue
and BUSY. (R126, R129, R137, R140, R149, R150, R154, R156, R161, R205, R207) -/
def Obligations.SwitchCoreEventsComplete : Prop :=
  (∀ (err : Option MemError) (s : State), (domRuns .fab s = true) → (∃ t, exec (.cellTime err) s = .next t ∧ t.qm.rotor = (s.qm.rotor + 1) % 16)) ∧
  (∀ (p : Fin 32) (b : List Byte) (rx : RxEnd) (s : State), (portUp p s = true) → (domRuns .fab s = true) → (rx ≠ .assembly) → (b.length < 64) → (16 ≤ p.val) → (∃ t, exec (.frameReceived p b rx) s = .next t ∧ rd (F.T1S_SGnn_RX_FRAMES_COUNT.u (p.val - 16)) t = (rd (F.T1S_SGnn_RX_FRAMES_COUNT.u (p.val - 16)) s + 1) % 2 ^ 32 ∧ t = { s with regs := t.regs, t1s := t.t1s })) ∧
  (∀ (p : Fin 32) (b : List Byte) (s : State), (portUp p s = true) → (domRuns .fab s = true) → (64 ≤ b.length) → (b.length ≤ portMax p s) → (b.length ≤ 16384) → (frEt b ≠ 0x8808) → (16 ≤ p.val) → (stagingFull 6 s = false) → (∃ t, exec (.frameReceived p b .good) s = .next t ∧ staged 6 t = staged 6 s ++ [s.qm.nextId] ∧ (fr s.qm.nextId t).data = b.take (b.length - 4) ++ fcsBytes (b.take (b.length - 4)) ∧ (fr s.qm.nextId t).src = 6 * 4096 + p.val ∧ (fr s.qm.nextId t).phase = 0 ∧ (fr s.qm.nextId t).rxBad = false ∧ t = { s with regs := t.regs, free := t.free, qm := t.qm, t1s := t.t1s })) ∧
  (∀ (node : Fin 11) (f q : Nat) (k : Lk) (r u v : State) (s : State), (domRuns .fab s = true) → ((staged node s).find? (fun f => (fr f s).phase == 0) = some f) → (pipeline none node (if node.val ≤ 6 then (fr f s).src % 4096 else 255) (fr f s).cls false (fr f s).data (sampleFrame (fr f s) s) = (k, r)) → (k.drop = none) → (k.dests = [q]) → (ctOk node k.port f q r = false) → ((fr f r).rxBad = false) → (admitAll false (fr f r).need k.cls k.prot [(q, false, 0)] r = ([(q, false, 0)], u)) → (admitLinks (fr f r).need [(q, false, 0)] u = (true, v)) → (mirrorDests none k.pipe k.port k.mirAcl [q] v = []) → (∃ t, exec (.lookupResult node none) s = .next t ∧ (fr f t).dests = [(q, false, 0)] ∧ (fr f t).phase = 1 ∧ (fr f t).refs = 1 ∧ (fr f t).cls = k.cls)) ∧
  (∀ (node : Fin 11) (f : Nat) (s : State), (domRuns .fab s = true) → ((staged node s).find? (fun f => (fr f s).phase == 2) = some f) → ((fr f s).rxBad = false) → ((fr f s).bad = true) → ((fr f s).refs ≤ (fr f s).dests.length) → (∃ t, exec (.enqueue node) s = .next t ∧ f ∉ tget [] t.qm.stage node)) ∧
  (∀ (node : Fin 11) (f q : Nat) (s : State), (domRuns .fab s = true) → ((staged node s).find? (fun f => (fr f s).phase == 2) = some f) → ((fr f s).rxBad = false) → ((fr f s).bad = false) → ((fr f s).gone = false) → ((fr f s).dests = [(q, false, 0)]) → (q < 256) → ((fr f s).lookup / 8192 ≠ 4) → ((fr f s).cpl = none) → (abandonedBy (fr f s) s = none) → (∃ t, exec (.enqueue node) s = .next t ∧ (qu q t).ents = (qu q s).ents ++ [{ fid := f }] ∧ (qu q t).enq = min ((qu q s).enq + 1) 0xFFFFFFFF ∧ (fr f t).phase = 3 ∧ f ∉ tget [] t.qm.stage node)) ∧
  (∀ (s : State), (domRuns .fab s = true) → (∃ t, exec .flushDone s = .next t ∧ rd F.QM_FLUSH_STAT_BUSY t = 0 ∧ t.qm.bgFlush = [] ∧ (∀ c ∈ s.qm.bgFlush, c ∉ t.qm.used) ∧ (∀ c, c ∉ s.qm.bgFlush → (c ∈ t.qm.used ↔ c ∈ s.qm.used)) ∧ RegsKept [F.QM_FLUSH_STAT_BUSY] s t ∧ t = { s with regs := t.regs, qm := { s.qm with bgFlush := [], flushing := [], used := t.qm.used } })) ∧
  (∀ (s : State), (domRuns .fab s = true) → (∃ t, exec .scraper s = .next t ∧ t.qm.queues = s.qm.queues ∧ t.qm.frames = s.qm.frames ∧ t = { s with regs := t.regs, rcd := t.rcd, qm := { s.qm with used := t.qm.used, unmarked := t.qm.unmarked } })) ∧
  (∀ (who : Initiator) (v : Word) (s : State), (Admits who 0x40020 s) → (rdB F.QM_FLUSH_STAT_BUSY s = false) → (mayFlush who (v.toNat % 1024) s = true) → (∃ t, exec (.qmFlush who v) s = .next t ∧ rd F.QM_FLUSH_STAT_BUSY t = 1 ∧ rd F.QM_FLUSH_STAT_QUEUE t = v.toNat % 1024)) ∧
  (∀ (e : Fin 16) (c : Fin 8) (q : Nat) (s : State), ((ctx e c s).stall = .queue q) → (waitOverdue (ctx e c s).until_ s = true) → (∃ t, exec (.popTimeout (.gv e c)) s = .next t ∧ (ctx e c t).stall = .none ∧ (ctx e c t).st = 1 ∧ t = { s with regs := t.regs, qm := t.qm, grv := t.grv })) ∧
  (∀ (n : Fin 4) (k : Fin 16) (s : State), ((task n k s).st = 2) → (waitOverdue (task n k s).until_ s = true) → (∃ t, exec (.popTimeout (.cc n k)) s = .next t ∧ (task n k t).st = 1 ∧ (task n k t).outcome = some (2 ^ 31))) ∧
  (∀ (p : Fin 32) (q f : Nat) (e : QEnt) (r : List QEnt) (s : State), (domRuns .fab s = true) → (tfind s.qm.cur p = some (q, f)) → ((qu q s).ents = e :: r) → (e.fid = f) → (mayEnd p q e s = true) → (p.val < 16) → (isRsvQueue q = false) → (∃ t, exec (.transmissionEnd p) s = .next t ∧ (qu q t).ents = r))

/-- With the FAB domain powered and out of reset: LEARN commits the oldest learn: a static or sticky entry stays and the
refused move is counted, another learned entry moves to the ingress port with HIT set and AGE clear, a full bucket counts a
failure. BURNISHER clears HIT, sets AGE or removes, counting what it removes and leaving static entries; an entry that a hit
or a learn of its tick meets keeps HIT set (log entry 10). SCRUB without upsets only counts its pass. RESTORE brings back
the entries whose section digests agree. POLICER_REFILL adds the rates to both buckets of a policer, unless a frame of its
tick has had the refill already. A stream guard window above its limit contains the stream, counts and sets the release a
release time later, which a further violation restarts; one at or below it restarts the count; the release opens the guard
once that time is reached. A containment window above a higher threshold raises the level at once, and quiet windows lower
it by one. (R169, R170, R173, R183, R185, R190, R197) -/
def Obligations.LookupEventsComplete : Prop :=
  (∀ (p : Fin 2) (r : LearnReq) (l : List LearnReq) (k : Nat) (e : FdbE) (s : State), (domRuns .fab s = true) → (tget [] s.lkp.learns p = r :: l) → (fdbFind none p r.mac r.vlan s = some k) → (tfind s.lkp.fdb k = some e) → (e.dest ≠ r.port) → (e.static_ = false) → (e.sticky = false) → (∃ t, exec (.learn p) s = .next t ∧ tget [] t.lkp.learns p = l ∧ tfind t.lkp.fdb k = some { e with dest := r.port, hit := true, age := false } ∧ RegsKept [F.LKP_Pp_MOVE_MOVED.u p] s t ∧ t = { s with regs := t.regs, lkp := t.lkp })) ∧
  (∀ (p : Fin 2) (r : LearnReq) (l : List LearnReq) (k : Nat) (e : FdbE) (s : State), (domRuns .fab s = true) → (tget [] s.lkp.learns p = r :: l) → (fdbFind none p r.mac r.vlan s = some k) → (tfind s.lkp.fdb k = some e) → (e.dest ≠ r.port) → (e.sticky = true) → (∃ t, exec (.learn p) s = .next t ∧ tget [] t.lkp.learns p = l ∧ t.lkp.fdb = s.lkp.fdb ∧ RegsKept [F.LKP_Pp_MOVE_REFUSED.u p] s t ∧ t = { s with regs := t.regs, lkp := t.lkp })) ∧
  (∀ (s : State), (domRuns .fab s = true) → (∃ t, exec .burnisher s = .next t ∧ t.lkp.fdb = s.lkp.fdb.filterMap (fun e => (burnish (visitMet e.1 s) e.2).map fun x => (e.1, x)) ∧ RegsKept [F.LKP_Pp_AGED_COUNT.u 0, F.LKP_Pp_AGED_COUNT.u 1, F.LKP_Pp_FDB_USED.u 0, F.LKP_Pp_FDB_USED.u 1, F.LKP_BURN_STAT_AGE_PASSES] s t ∧ t = { s with regs := t.regs, lkp := { s.lkp with fdb := t.lkp.fdb } })) ∧
  (∀ (s : State), (domRuns .fab s = true) → (s.lkp.bad = []) → (∃ t, exec (.scrub []) s = .next t ∧ RegsKept [F.LKP_BURN_STAT_SCRUB_PASSES] s t ∧ rd F.LKP_BURN_STAT_SCRUB_PASSES t = (rd F.LKP_BURN_STAT_SCRUB_PASSES s + 1) % 2 ^ F.LKP_BURN_STAT_SCRUB_PASSES.w ∧ t = { s with regs := t.regs })) ∧
  (∀ (s : State), (domRuns .fab s = true) → (s.lkp.gone.all (fun x => digestsAgree [lookupType x.1] s) = true) → (∃ t, exec .restore s = .next t ∧ t.lkp.gone = [] ∧ rd F.LKP_RESTORE_PENDING t = 0 ∧ RegsKept [F.LKP_RESTORE_PENDING, F.LKP_RESTORE_DONE] s t ∧ t = { s with regs := t.regs, lkp := { s.lkp with gone := [], fdb := t.lkp.fdb, pols := t.lkp.pols } })) ∧
  (∀ (k : Nat) (b : Pol) (s : State), (domRuns .fab s = true) → (s.lkp.refillMet = false) → (tfind s.lkp.pols k = some b) → (∃ t, exec .policerRefill s = .next t ∧ tfind t.lkp.pols k = some (polRefill (polN (k / 65536) (k % 65536) 0 4 s) (polN (k / 65536) (k % 65536) 4 4 s) (polN (k / 65536) (k % 65536) 8 2 s) (polN (k / 65536) (k % 65536) 10 2 s) (bit (polN (k / 65536) (k % 65536) 12 1 s) 1) b) ∧ t = { s with lkp := { s.lkp with pols := t.lkp.pols, refillAt := some s.time.loc, refillMet := false } })) ∧
  (∀ (p : Fin 2) (st : Fin 8192) (s : State), (domRuns .fab s = true) → (cfgN (C.spStream + p) st 0x1C 2 s ≠ 0) → (cfgN (C.spStream + p) st 0x1C 2 s < (streamRun p st s).count) → ((streamRun p st s).contained = false) → (cfgN (C.spStream + p) st 0x22 2 s = 0xFFFF) → (∃ t, exec (.streamGuardWindow p st) s = .next t ∧ streamRun p st t = { streamRun p st s with count := 0, contained := true, release := s.time.loc + cfgN (C.spStream + p) st 0x20 2 s * 1000000, changes := min ((streamRun p st s).changes + 1) 65535 } ∧ rd F.LKP_GUARD_CONTAINS t = min (rd F.LKP_GUARD_CONTAINS s + 1) (2 ^ F.LKP_GUARD_CONTAINS.w - 1) ∧ t = { s with regs := t.regs, rcd := t.rcd, lkp := { s.lkp with streams := t.lkp.streams } })) ∧
  (∀ (p : Fin 2) (st : Fin 8192) (s : State), (domRuns .fab s = true) → (cfgN (C.spStream + p) st 0x1C 2 s = 0 ∨ (streamRun p st s).count ≤ cfgN (C.spStream + p) st 0x1C 2 s) → (exec (.streamGuardWindow p st) s = .next (streamSet p st { streamRun p st s with count := 0 } s))) ∧
  (∀ (p : Fin 2) (st : Fin 8192) (s : State), (domRuns .fab s = true) → ((streamRun p st s).contained = true) → (cfgN (C.spStream + p) st 0x1C 2 s ≠ 0) → (cfgN (C.spStream + p) st 0x1C 2 s < (streamRun p st s).count) → (exec (.streamGuardWindow p st) s = .next (streamSet p st { streamRun p st s with count := 0, release := s.time.loc + cfgN (C.spStream + p) st 0x20 2 s * 1000000 } s))) ∧
  (∀ (p : Fin 2) (st : Fin 8192) (s : State), (domRuns .fab s = true) → ((streamRun p st s).contained = true) → ((streamRun p st s).release ≤ s.time.loc) → (∃ t, exec (.streamGuardRelease p st) s = .next t ∧ streamRun p st t = { streamRun p st s with contained := false, changes := min ((streamRun p st s).changes + 1) 65535 } ∧ rd F.LKP_GUARD_RELEASES t = min (rd F.LKP_GUARD_RELEASES s + 1) (2 ^ F.LKP_GUARD_RELEASES.w - 1) ∧ t = { s with regs := t.regs, rcd := t.rcd, lkp := { s.lkp with streams := t.lkp.streams } })) ∧
  (∀ (u : Fin 33) (s : State), (domRuns .fab s = true) → (unitKept u s = true) → (rd (F.LKP_CONTu_LEVEL.u u) s < 2) → (cfgN C.spUnit u 8 2 s ≤ tget 0 s.lkp.score u) → (tget 0 s.lkp.score u < cfgN C.spUnit u 10 2 s) → (∃ t, exec (.containmentWindow u) s = .next t ∧ rd (F.LKP_CONTu_LEVEL.u u) t = 2 ∧ rd (F.LKP_CONTu_QUIET.u u) t = 0 ∧ tget 0 t.lkp.score u = 0 ∧ RegsKept [F.LKP_CONTu_LEVEL.u u, F.LKP_CONTu_QUIET.u u, F.LKP_CONTu_CHANGES.u u] s t ∧ t = { s with regs := t.regs, rcd := t.rcd, lkp := { s.lkp with score := t.lkp.score } })) ∧
  (∀ (u : Fin 33) (s : State), (domRuns .fab s = true) → (unitKept u s = true) → (rd (F.LKP_CONTu_LEVEL.u u) s = 1) → (tget 0 s.lkp.score u < cfgN C.spUnit u 6 2 s) → (tget 0 s.lkp.score u < cfgN C.spUnit u 8 2 s) → (tget 0 s.lkp.score u < cfgN C.spUnit u 10 2 s) → (tget 0 s.lkp.score u < cfgN C.spUnit u 12 2 s) → (cfgN C.spUnit u 5 1 s ≤ rd (F.LKP_CONTu_QUIET.u u) s + 1) → (∃ t, exec (.containmentWindow u) s = .next t ∧ rd (F.LKP_CONTu_LEVEL.u u) t = 0 ∧ rd (F.LKP_CONTu_QUIET.u u) t = 0 ∧ tget 0 t.lkp.score u = 0))

/-- With the domains the rules name running: LINK_CHANGE up shows LINK and the speed, and down shows LINK clear and speed 7.
A pause frame received on a port with pause reception pauses it, zero quanta resumes it, and a PFC port with one class does
so for that class. The expiry clears it. PAUSE_REPEAT on an open port with link and the count at or above XON sends the
frame again and counts it. VERIFY_TIMER before the third mPacket sends another; after the third the verification has failed.
VERIFY_RESPONSE makes preemption active. GATE_CONTROL_ENTRY shows the gates of the current entry. FRER_RESET_TIMER, the
reset time since the last frame having passed, clears a recover entry's history and counts. (R204, R210, R211, R213, R215,
R217, R218, R223) -/
def Obligations.EthernetPortEventsComplete : Prop :=
  (∀ (p : Fin 16) (sp : Fin 5) (s : State), (ethN p 0 1 s ≠ 0) → (s.pwr.mode ≤ 1) → (s.sys.domHeld.contains (Domain.num .sds) = false) → (linkSpeed p (some sp.val) s = some sp.val) → (portUp p s = true) → (∃ t, exec (.linkChange p true (some sp)) s = .next t ∧ rd (F.ETH_PORTpp_STAT_LINK.u p) t = 1 ∧ rd (F.ETH_PORTpp_STAT_SPEED.u p) t = sp ∧ RegsKept [F.ETH_PORTpp_STAT_LINK.u p, F.ETH_PORTpp_STAT_SPEED.u p] s t ∧ t = { s with regs := t.regs })) ∧
  (∀ (p : Fin 16) (sp : Option (Fin 5)) (s : State), (ethN p 0 1 s ≠ 0) → (s.pwr.mode ≤ 1) → (s.sys.domHeld.contains (Domain.num .sds) = false) → (∃ t, exec (.linkChange p false sp) s = .next t ∧ rd (F.ETH_PORTpp_STAT_LINK.u p) t = 0 ∧ rd (F.ETH_PORTpp_STAT_SPEED.u p) t = 7 ∧ rd (F.ETH_PORTpp_STAT_VERIFY.u p) t = 0 ∧ rd (F.ETH_PORTpp_STAT_PREEMPT_ACTIVE.u p) t = 0 ∧ (ethPort p t).tries = 0 ∧ t = { s with regs := t.regs, eth := t.eth })) ∧
  (∀ (p : Fin 16) (q : Nat) (s : State), (portUp p s = true) → (ethFlag p 0 s = true) → (ethFlag p 2 s = false) → (∃ t, exec (.pauseReceived p (.pause q)) s = .next t ∧ rd (F.ETH_PORTpp_STAT_PAUSED.u p) t = (if q = 0 then 0 else 1) ∧ rd (F.ETH_PORTpp_PAUSE_RX.u p) t = min (rd (F.ETH_PORTpp_PAUSE_RX.u p) s + 1) (2 ^ F.ETH_PORTpp_PAUSE_RX.w - 1) ∧ RegsKept [F.ETH_PORTpp_STAT_PAUSED.u p, F.ETH_PORTpp_PAUSE_RX.u p, F.ETH_PORTpp_RX_FRAMES_COUNT.u p] s t ∧ t = { s with regs := t.regs })) ∧
  (∀ (p : Fin 16) (c : Fin 8) (s : State), (awake s = true) → (ethFlag p 2 s = false) → (∃ t, exec (.pauseExpiry p c) s = .next t ∧ rd (F.ETH_PORTpp_STAT_PAUSED.u p) t = 0 ∧ RegsKept [F.ETH_PORTpp_STAT_PAUSED.u p] s t ∧ t = { s with regs := t.regs })) ∧
  (∀ (p : Fin 16) (c : Fin 8) (s : State), (awake s = true) → (ethFlag p 2 s = true) → (∃ t, exec (.pauseExpiry p c) s = .next t ∧ rd (F.ETH_PORTpp_STAT_PFC_PAUSED.u p) t = putBit (rd (F.ETH_PORTpp_STAT_PFC_PAUSED.u p) s) c false % 256 ∧ RegsKept [F.ETH_PORTpp_STAT_PFC_PAUSED.u p] s t ∧ t = { s with regs := t.regs })) ∧
  (∀ (p : Fin 16) (c : Fin 8) (s : State), (ethFlag p 2 s = false) → (bit (rd (F.ETH_PORTpp_STAT_XOFF.u p) s) 0 = true) → (ethN p 0x0A 2 s ≤ pauseCount p none s) → (silent .sds s = false) → ((ethPort p s).open_ = true) → (portUp p s = true) → (∃ t, exec (.pauseRepeat p c) s = .next t ∧ t.out = .pause p false 0 (ethN p 0x0C 2 s) :: s.out ∧ rd (F.ETH_PORTpp_PAUSE_TX.u p) t = min (rd (F.ETH_PORTpp_PAUSE_TX.u p) s + 1) (2 ^ F.ETH_PORTpp_PAUSE_TX.w - 1) ∧ t = { s with regs := t.regs, out := t.out })) ∧
  (∀ (p : Fin 16) (s : State), (awake s = true) → (rd (F.ETH_PORTpp_STAT_VERIFY.u p) s = 1) → ((ethPort p s).tries < 3) → (silent .sds s = false) → ((ethPort p s).open_ = true) → (∃ t, exec (.verifyTimer p) s = .next t ∧ t.out = .line 5 p [] :: s.out ∧ (ethPort p t).tries = (ethPort p s).tries + 1 ∧ t = { s with out := t.out, eth := t.eth })) ∧
  (∀ (p : Fin 16) (s : State), (awake s = true) → (rd (F.ETH_PORTpp_STAT_VERIFY.u p) s = 1) → (3 ≤ (ethPort p s).tries) → (∃ t, exec (.verifyTimer p) s = .next t ∧ rd (F.ETH_PORTpp_STAT_VERIFY.u p) t = 3 ∧ RegsKept [F.ETH_PORTpp_STAT_VERIFY.u p] s t ∧ t = { s with regs := t.regs })) ∧
  (∀ (p : Fin 16) (s : State), (awake s = true) → (rd (F.ETH_PORTpp_STAT_VERIFY.u p) s = 1) → (∃ t, exec (.verifyResponse p) s = .next t ∧ rd (F.ETH_PORTpp_STAT_VERIFY.u p) t = 2 ∧ rd (F.ETH_PORTpp_STAT_PREEMPT_ACTIVE.u p) t = 1 ∧ RegsKept [F.ETH_PORTpp_STAT_VERIFY.u p, F.ETH_PORTpp_STAT_PREEMPT_ACTIVE.u p] s t ∧ t = { s with regs := t.regs })) ∧
  (∀ (p : Fin 16) (s : State), (domRuns .fab s = true) → (ethFlag p 6 s = true) → (∃ t, exec (.gateControlEntry p) s = .next t ∧ (ethPort p t).started = !gateWaits p s ∧ rd (F.ETH_PORTpp_STAT_GATES.u p) t = gatesNow p t % 256 ∧ RegsKept [F.ETH_PORTpp_STAT_GATES.u p, F.ETH_PORTpp_QBV_ENTRY.u p] s t ∧ t = { s with regs := t.regs, eth := t.eth })) ∧
  (∀ (e : Fin 512) (s : State), (domRuns .fab s = true) → (cfgN C.ethFrer e 0 1 s = 1) → (cfgHas C.ethFrer e s = true) → ((frerRun e s).hist.isSome = true) → ((frerRun e s).since + frerReset e s ≤ s.time.loc) → (∃ t, exec (.frerResetTimer e) s = .next t ∧ frerRun e t = { frerRun e s with hist := none, resets := min ((frerRun e s).resets + 1) 65535 } ∧ t = { s with eth := { s.eth with frer := t.eth.frer } }))

/-- With the device awake: a reset-release delay starts the port's script, or ends the bring-up where it has none. A script
access at the head of its bus's queue puts the access on the bus and moves on, and the last one opens the transmitter. Each
of the four commands, from an initiator that may use MDIO while the port's command register is not busy (and no device
access of the same tick has it), joins its bus's queue behind the others, shows BUSY with ERR clear, and holds the
operation, the device address and the register. The completion clears BUSY and, for the reads, stores the data. (R234, R235)
-/
def Obligations.MdioCommandsComplete : Prop :=
  (∀ (p : Fin 16) (s : State), (awake s = true) → ((ethPort p s).step = 2) → (∃ t, exec (.resetReleaseDelay p) s = .next t ∧ (ethPort p t).step = (if (mdioScript p s).isEmpty then 4 else 3) ∧ t = { s with eth := t.eth })) ∧
  (∀ (p : Fin 16) (c : MdioCmd) (r : List MdioCmd) (s : State), (awake s = true) → ((ethPort p s).step = 3) → ((ethPort p s).script + 1 < (mdioScript p s).length) → (byteAt (mdioEntry p s) 1 < 2) → (mdioBus (ethN p 0x26 1 s) s = c :: r) → (c.seq = true) → (c.port = p) → (∃ t, exec (.mdioScriptAccess p) s = .next t ∧ t.out = .line 2 p (mdioEntry p s) :: s.out ∧ (ethPort p t).script = (ethPort p s).script + 1 ∧ t = { s with out := t.out, eth := t.eth })) ∧
  (∀ (p : Fin 16) (c : MdioCmd) (r : List MdioCmd) (s : State), (awake s = true) → ((ethPort p s).step = 3) → ((mdioScript p s).length ≤ (ethPort p s).script + 1) → (byteAt (mdioEntry p s) 1 < 2) → (mdioBus (ethN p 0x26 1 s) s = c :: r) → (c.seq = true) → (c.port = p) → (∃ t, exec (.mdioScriptAccess p) s = .next t ∧ (ethPort p t).step = 4 ∧ (ethPort p t).open_ = true ∧ t = { s with out := t.out, eth := t.eth })) ∧
  (∀ (who : Initiator) (p : Fin 16) (v : Word) (s : State), (Admits who (0x80F00 + 0x1000 * p.val) s) → (mayMdio who s = true) → (rdB (F.ETH_PORTpp_MDIO_CMD_BUSY.u p) s = false) → ((ethPort p s).devAt ≠ some s.time.loc) → (∃ t, exec (.clause22Write who p v) s = .next t ∧ tget [] t.eth.mdio (ethN p 0x26 1 s) = tget [] s.eth.mdio (ethN p 0x26 1 s) ++ [⟨p.val, false, s.time.loc⟩] ∧ rd (F.ETH_PORTpp_MDIO_CMD_BUSY.u p) t = 1 ∧ rd (F.ETH_PORTpp_MDIO_CMD_ERR.u p) t = 0 ∧ rd (F.ETH_PORTpp_MDIO_CMD_OP.u p) t = 0 ∧ rd (F.ETH_PORTpp_MDIO_CMD_REG.u p) t = bits v.toNat 0 16 % 65536)) ∧
  (∀ (who : Initiator) (p : Fin 16) (v : Word) (s : State), (Admits who (0x80F00 + 0x1000 * p.val) s) → (mayMdio who s = true) → (rdB (F.ETH_PORTpp_MDIO_CMD_BUSY.u p) s = false) → ((ethPort p s).devAt ≠ some s.time.loc) → (∃ t, exec (.clause22Read who p v) s = .next t ∧ tget [] t.eth.mdio (ethN p 0x26 1 s) = tget [] s.eth.mdio (ethN p 0x26 1 s) ++ [⟨p.val, false, s.time.loc⟩] ∧ rd (F.ETH_PORTpp_MDIO_CMD_BUSY.u p) t = 1 ∧ rd (F.ETH_PORTpp_MDIO_CMD_ERR.u p) t = 0 ∧ rd (F.ETH_PORTpp_MDIO_CMD_OP.u p) t = 1 ∧ rd (F.ETH_PORTpp_MDIO_CMD_REG.u p) t = bits v.toNat 0 16 % 65536)) ∧
  (∀ (who : Initiator) (p : Fin 16) (v : Word) (s : State), (Admits who (0x80F00 + 0x1000 * p.val) s) → (mayMdio who s = true) → (rdB (F.ETH_PORTpp_MDIO_CMD_BUSY.u p) s = false) → ((ethPort p s).devAt ≠ some s.time.loc) → (∃ t, exec (.clause45Write who p v) s = .next t ∧ tget [] t.eth.mdio (ethN p 0x26 1 s) = tget [] s.eth.mdio (ethN p 0x26 1 s) ++ [⟨p.val, false, s.time.loc⟩] ∧ rd (F.ETH_PORTpp_MDIO_CMD_BUSY.u p) t = 1 ∧ rd (F.ETH_PORTpp_MDIO_CMD_ERR.u p) t = 0 ∧ rd (F.ETH_PORTpp_MDIO_CMD_OP.u p) t = 2 ∧ rd (F.ETH_PORTpp_MDIO_CMD_DEVAD.u p) t = bits v.toNat 16 5 % 32)) ∧
  (∀ (who : Initiator) (p : Fin 16) (v : Word) (s : State), (Admits who (0x80F00 + 0x1000 * p.val) s) → (mayMdio who s = true) → (rdB (F.ETH_PORTpp_MDIO_CMD_BUSY.u p) s = false) → ((ethPort p s).devAt ≠ some s.time.loc) → (∃ t, exec (.clause45Read who p v) s = .next t ∧ tget [] t.eth.mdio (ethN p 0x26 1 s) = tget [] s.eth.mdio (ethN p 0x26 1 s) ++ [⟨p.val, false, s.time.loc⟩] ∧ rd (F.ETH_PORTpp_MDIO_CMD_BUSY.u p) t = 1 ∧ rd (F.ETH_PORTpp_MDIO_CMD_ERR.u p) t = 0 ∧ rd (F.ETH_PORTpp_MDIO_CMD_OP.u p) t = 3 ∧ rd (F.ETH_PORTpp_MDIO_CMD_DEVAD.u p) t = bits v.toNat 16 5 % 32)) ∧
  (∀ (b : Fin 2) (data : BitVec 16) (p at_ : Nat) (r : List MdioCmd) (s : State), (awake s = true) → (tget [] s.eth.mdio b = ⟨p, false, at_⟩ :: r) → (rd (F.ETH_PORTpp_MDIO_CMD_OP.u p) s = 1 ∨ rd (F.ETH_PORTpp_MDIO_CMD_OP.u p) s = 3) → (∃ t, exec (.mdioCommandDone b data) s = .next t ∧ tget [] t.eth.mdio b = r ∧ rd (F.ETH_PORTpp_MDIO_CMD_BUSY.u p) t = 0 ∧ rd (F.ETH_PORTpp_MDIO_DATA_DATA.u p) t = data.toNat ∧ RegsKept [F.ETH_PORTpp_MDIO_CMD_BUSY.u p, F.ETH_PORTpp_MDIO_DATA_DATA.u p] s t))

/-- With the FLD domain powered and out of reset: on a coordinator with an aligned instant waiting and its cycle's
opportunities passed, PLCA_CYCLE starts the aligned cycle with a BEACON. TO_TIMER passes an open transmit opportunity on.
BEACON_RECEIVED starts a follower's cycle and BEACON_TIMEOUT takes it to CSMA/CD, counted. COLLISION jams and draws a
back-off of at most 2^min(n,10) slot times after attempt n (the drawn value is a free value); a late one drops the frame.
BACKOFF allows the retry. LOW_POWER_EXIT leaves the low-power mode. WAKE_PATTERN with a good burst that names no group
counts a non-match. (R226, R227, R229, R230, R232) -/
def Obligations.T1sSegmentEventsComplete : Prop :=
  (∀ (g : Fin 16) (i : Nat) (s : State), (domRuns .fld s = true) → (t1sPassed g s = true) → (t1sMode g s = 1) → (t1sLow g s = false) → (rdB (F.T1S_SGnn_STAT_HOLD.u g) s = false) → ((t1sSeg g s).align = some i) → (silent .fld s = false) → (∃ t, exec (.plcaCycle g) s = .next t ∧ (t1sSeg g t).cycle = true ∧ (t1sSeg g t).opp = 0 ∧ (t1sSeg g t).align = none ∧ (t1sSeg g t).aligned = true ∧ t.out = .line 3 g [] :: s.out ∧ rd (F.T1S_SGnn_STAT_PLCA_ACTIVE.u g) t = 1 ∧ t = { s with regs := t.regs, out := t.out, t1s := t.t1s })) ∧
  (∀ (g : Fin 16) (s : State), (t1sOpen g s = true) → (∃ t, exec (.toTimer g) s = .next t ∧ t1sSeg g t = { t1sSeg g s with opp := (t1sSeg g s).opp + 1, burst := 0 } ∧ t = { s with t1s := t.t1s })) ∧
  (∀ (g : Fin 16) (s : State), (domRuns .fld s = true) → (t1sMode g s = 2) → (t1sLow g s = false) → (∃ t, exec (.beaconReceived g) s = .next t ∧ t1sSeg g t = { t1sSeg g s with cycle := true, opp := 0, burst := 0 } ∧ rd (F.T1S_SGnn_STAT_PLCA_ACTIVE.u g) t = 1 ∧ RegsKept [F.T1S_SGnn_STAT_PLCA_ACTIVE.u g, F.T1S_SGnn_PLCA_CYCLES.u g] s t ∧ t = { s with regs := t.regs, t1s := t.t1s })) ∧
  (∀ (g : Fin 16) (s : State), (domRuns .fld s = true) → (t1sMode g s = 2) → (t1sPlca g s = true) → (∃ t, exec (.beaconTimeout g) s = .next t ∧ (t1sSeg g t).cycle = false ∧ rd (F.T1S_SGnn_STAT_PLCA_ACTIVE.u g) t = 0 ∧ rd (F.T1S_SGnn_PLCA_FALLBACK.u g) t = min (rd (F.T1S_SGnn_PLCA_FALLBACK.u g) s + 1) (2 ^ F.T1S_SGnn_PLCA_FALLBACK.w - 1) ∧ t = { s with regs := t.regs, t1s := t.t1s })) ∧
  (∀ (g : Fin 16) (x : Nat × Nat) (s : State), (tfind s.qm.cur (16 + g.val) = some x) → (t1sCsma g s = true) → ((t1sSeg g s).tries < 15) → (silent .fld s = false) → (∃ t, exec (.collision g false) s = .next t ∧ (t1sSeg g t).tries = (t1sSeg g s).tries + 1 ∧ (t1sSeg g t).backoff.any (fun b => decide (b < 2 ^ min ((t1sSeg g s).tries + 1) 10)) = true ∧ t.out = .line 4 g [] :: s.out ∧ t = { s with regs := t.regs, out := t.out, free := t.free, t1s := t.t1s })) ∧
  (∀ (g : Fin 16) (s : State), (domRuns .fld s = true) → ((t1sSeg g s).backoff.isSome = true) → ((t1sSeg g s).wake = none) → (exec (.backoff g) s = .next (t1sSet g { t1sSeg g s with backoff := none } s))) ∧
  (∀ (g : Fin 16) (s : State), (domRuns .fld s = true) → (t1sLow g s = true) → (t1sMode g s ≠ 1) → ((t1sSeg g s).wake = none) → (∃ t, exec (.lowPowerExit g) s = .next t ∧ t1sLow g t = false ∧ RegsKept [F.T1S_SGnn_STAT_LOWPOWER.u g] s t ∧ t = { s with regs := t.regs })) ∧
  (∀ (g : Fin 16) (b : WakeBurst) (s : State), (s.pwr.mode ≠ 4) → (t1sMode g s ≠ 0) → (t1sFlag g 2 s = true) → (burstOk b = true) → (wakeGroups g b s = none) → (∃ t, exec (.wakePattern g b) s = .next t ∧ rd (F.T1S_SGnn_WAKE_NOMATCH.u g) t = min (rd (F.T1S_SGnn_WAKE_NOMATCH.u g) s + 1) (2 ^ F.T1S_SGnn_WAKE_NOMATCH.w - 1) ∧ RegsKept [F.T1S_SGnn_WAKE_NOMATCH.u g] s t ∧ t = { s with regs := t.regs })) ∧
  (∀ (g : Fin 16) (b : WakeBurst) (m : Nat) (s : State), (s.pwr.mode = 2) → (t1sMode g s ≠ 0) → (t1sFlag g 2 s = true) → (burstOk b = true) → (wakeGroups g b s = some m) → (∃ t, exec (.wakePattern g b) s = .next t ∧ t.slp.toWake = s.slp.toWake ||| m ∧ t.slp.lastWhy = 8 + g.val))

/-- With the FLD domain powered and out of reset: a frame received on a live channel with no filter entry, no guard on it,
no containment and room in the FIFO joins the FIFO with the time of its SOF sample point and is counted; one that no filter
entry admits counts in DROP.FILTERED; in STANDBY nothing but selective wake looks at frames. A cancelled frame emits the
flag, counts CANCEL, and enters CANCELLING. The SOF of an attempt is remembered. A sent frame whose cells FN7 has read, with
no PDU and nothing waiting behind it, leaves its slot, counts TX, and lowers the transmit error counter. A lost arbitration
keeps the slot. A receive error raises REC by 1, a transmit error raises TEC by 8 and keeps the slot for the retry. After
bus-off the delay leads to recovery, recovery to integration with both counters 0, and integration to error active. The
cancel release and the babble release, once their time is reached, and a violated babble window move their loops. (R241,
R242, R243, R244, R250, R255, R256, R257) -/
def Obligations.CanEventsComplete : Prop :=
  (∀ (ch : Fin 96) (f : CanFrame) (ago : Nat) (s : State), (canFrameOk f = true) → (s.pwr.mode < 2) → (canLive ch s = true) → ((canCh ch s).asleep = false) → ((canCh ch s).tec < 256) → (canKnows ch f s = true) → (canGuarded ch f s = false) → (canEntries ch 0 s = []) → (rdB (F.FLD_CANnn_STAT_CONTAINED.u ch) s = false) → (((rxFifo ch s).map fun x => x.data.length).sum + (canBytes f).length ≤ 8192) → (∃ t, exec (.canFrameReceived ch ⟨f, ago⟩) s = .next t ∧ rxFifo ch t = rxFifo ch s ++ [⟨canBytes f, s.time.loc - ago, shortNs s⟩] ∧ rd (F.FLD_CANnn_RX_COUNT.u ch) t = (rd (F.FLD_CANnn_RX_COUNT.u ch) s + 1) % 2 ^ F.FLD_CANnn_RX_COUNT.w ∧ t = { s with regs := t.regs, can := t.can, free := t.free })) ∧
  (∀ (ch : Fin 96) (f : CanFrame) (ago : Nat) (s : State), (canFrameOk f = true) → (s.pwr.mode < 2) → (canLive ch s = true) → ((canCh ch s).asleep = false) → ((canCh ch s).tec < 256) → (canKnows ch f s = true) → (canGuarded ch f s = false) → (canEntries ch 0 s ≠ []) → ((canEntries ch 0 s).any (entMatch (idWord f)) = false) → (∃ t, exec (.canFrameReceived ch ⟨f, ago⟩) s = .next t ∧ rxFifo ch t = rxFifo ch s ∧ rd (F.FLD_CANnn_DROP_FILTERED.u ch) t = min (rd (F.FLD_CANnn_DROP_FILTERED.u ch) s + 1) (2 ^ F.FLD_CANnn_DROP_FILTERED.w - 1) ∧ t = { s with regs := t.regs, can := t.can, free := t.free })) ∧
  (∀ (ch : Fin 96) (f : CanFrame) (s : State), (canFrameOk f = true) → (canCancels ch f s = true) → (rdB (F.FLD_CANnn_STAT_CANCELLING.u ch) s = false) → (∃ t, exec (.cancellation ch f) s = .next t ∧ t.out = .cancel ch :: s.out ∧ rd (F.FLD_CANnn_STAT_CANCELLING.u ch) t = 1 ∧ rd (F.FLD_CANnn_GUARD_CANCEL.u ch) t = min (rd (F.FLD_CANnn_GUARD_CANCEL.u ch) s + 1) (2 ^ F.FLD_CANnn_GUARD_CANCEL.w - 1) ∧ canCh ch t = { canCh ch s with cancelEnd := s.time.loc + canN ch 0x22 2 s * 1000000 } ∧ t = { s with regs := t.regs, out := t.out, can := t.can, rcd := t.rcd })) ∧
  (∀ (ch : Fin 96) (x : Nat × Nat) (s : State), ((canCh ch s).slot = some x) → (canDrives ch s = true) → ((canCh ch s).sof = false) → ((fr x.2 s).pdu = none) → (exec (.canFrameSent ⟨ch, .sof⟩) s = .next (canSet ch { canCh ch s with sof := true, trying := true } s))) ∧
  (∀ (ch : Fin 96) (x : Nat × Nat) (s : State), ((canCh ch s).slot = some x) → (canDrives ch s = true) → (canNosig ch s = false) → (reading (.can ch) s = false) → ((canCh ch s).gone = false) → ((fr x.2 s).pdu = none) → ((canCh ch s).tec ≤ 256) → (∀ q ∈ canQueues ch s, (qu q s).ents = []) → (∃ t, exec (.canFrameSent ⟨ch, .all⟩) s = .next t ∧ t.out = .can ch (canOnBus ch (fr x.2 s).data s) :: s.out ∧ (canCh ch t).slot = none ∧ (canCh ch t).tec = (canCh ch s).tec - 1 ∧ rd (F.FLD_CANnn_TX_COUNT.u ch) t = (rd (F.FLD_CANnn_TX_COUNT.u ch) s + 1) % 2 ^ F.FLD_CANnn_TX_COUNT.w)) ∧
  (∀ (ch : Fin 96) (x : Nat × Nat) (s : State), ((canCh ch s).slot = some x) → (canDrives ch s = true) → ((canCh ch s).gone = false) → ((fr x.2 s).pdu = none) → (exec (.arbitrationLost ch) s = .next (canSet ch { canCh ch s with sof := true, trying := false } s))) ∧
  (∀ (ch : Fin 96) (s : State), (canLive ch s = true) → (canNosig ch s = false) → ((canCh ch s).tec < 256) → (∃ t, exec (.canError ch .rx) s = .next t ∧ (canCh ch t).rec_ = (canCh ch s).rec_ + 1 ∧ (canCh ch t).tec = (canCh ch s).tec ∧ rd (F.FLD_CANnn_ERR_ERRORS.u ch) t = min (rd (F.FLD_CANnn_ERR_ERRORS.u ch) s + 1) (2 ^ F.FLD_CANnn_ERR_ERRORS.w - 1) ∧ rd (F.FLD_CANnn_STAT_STATE.u ch) t = (if 127 < (canCh ch s).tec ∨ 127 < (canCh ch s).rec_ + 1 then 3 else 2) ∧ t = { s with regs := t.regs, can := t.can })) ∧
  (∀ (ch : Fin 96) (x : Nat × Nat) (s : State), (canLive ch s = true) → (canDrives ch s = true) → (canNosig ch s = false) → ((canCh ch s).slot = some x) → ((fr x.2 s).pdu = none) → ((canCh ch s).gone = false) → (canN ch 0x10 1 s = 0) → ((canCh ch s).tec + 8 < 256) → (∃ t, exec (.canError ch .tx) s = .next t ∧ canCh ch t = { canCh ch s with tec := (canCh ch s).tec + 8, sof := true, trying := false, tries := (canCh ch s).tries + 1 } ∧ rd (F.FLD_CANnn_STAT_TEC.u ch) t = (canCh ch s).tec + 8 ∧ t = { s with regs := t.regs, can := t.can })) ∧
  (∀ (ch : Fin 96) (s : State), (domRuns .fld s = true) → (rd (F.FLD_CANnn_STAT_STATE.u ch) s = 4) → (∃ t, exec (.busOffRecoveryDelay ch) s = .next t ∧ rd (F.FLD_CANnn_STAT_STATE.u ch) t = 5 ∧ RegsKept [F.FLD_CANnn_STAT_STATE.u ch] s t ∧ t = { s with regs := t.regs })) ∧
  (∀ (ch : Fin 96) (s : State), (domRuns .fld s = true) → (rd (F.FLD_CANnn_STAT_STATE.u ch) s = 5) → (∃ t, exec (.busOffRecovery ch) s = .next t ∧ rd (F.FLD_CANnn_STAT_STATE.u ch) t = 1 ∧ canCh ch t = { canCh ch s with tec := 0, rec_ := 0 } ∧ rd (F.FLD_CANnn_STAT_TEC.u ch) t = 0 ∧ rd (F.FLD_CANnn_STAT_REC.u ch) t = 0 ∧ t = { s with regs := t.regs, can := t.can })) ∧
  (∀ (ch : Fin 96) (s : State), (domRuns .fld s = true) → (rd (F.FLD_CANnn_STAT_STATE.u ch) s = 1) → ((canCh ch s).tec ≤ 127) → ((canCh ch s).rec_ ≤ 127) → (∀ q ∈ canQueues ch s, (qu q s).ents = []) → (∃ t, exec (.integration ch) s = .next t ∧ rd (F.FLD_CANnn_STAT_STATE.u ch) t = 2 ∧ canCh ch t = { canCh ch s with missed := 0 } ∧ rd (F.FLD_CANnn_GUARD_MISSED.u ch) t = min (rd (F.FLD_CANnn_GUARD_MISSED.u ch) s + (canCh ch s).missed) (2 ^ F.FLD_CANnn_GUARD_MISSED.w - 1) ∧ t = { s with regs := t.regs, can := t.can })) ∧
  (∀ (ch : Fin 96) (s : State), (domRuns .fld s = true) → (rdB (F.FLD_CANnn_STAT_CANCELLING.u ch) s = true) → ((canCh ch s).cancelEnd ≤ s.time.loc) → (∃ t, exec (.cancelRelease ch) s = .next t ∧ rd (F.FLD_CANnn_STAT_CANCELLING.u ch) t = 0 ∧ t = { s with regs := t.regs, rcd := t.rcd })) ∧
  (∀ (ch : Fin 96) (load : Nat) (s : State), (domRuns .fld s = true) → (canMode ch s ≠ 0) → (canN ch 0x1C 2 s ≠ 0) → (canN ch 0x1C 2 s < (canCh ch s).win ∨ canN ch 0x1E 2 s < load) → (rdB (F.FLD_CANnn_STAT_CONTAINED.u ch) s = false) → (canFlag ch 6 s = false) → (∃ t, exec (.babbleWindow (.can ch) load) s = .next t ∧ rd (F.FLD_CANnn_STAT_CONTAINED.u ch) t = 1 ∧ (canCh ch t).win = 0 ∧ rd (F.FLD_CANnn_LOAD_FRAMES.u ch) t = min (canCh ch s).win 65535 ∧ rd (F.FLD_CANnn_LOAD_LOAD.u ch) t = min load 1000 ∧ rd (F.FLD_CANnn_BABBLE_CONTAINS.u ch) t = min (rd (F.FLD_CANnn_BABBLE_CONTAINS.u ch) s + 1) (2 ^ F.FLD_CANnn_BABBLE_CONTAINS.w - 1) ∧ t = { s with regs := t.regs, rcd := t.rcd, can := t.can })) ∧
  (∀ (ch : Fin 96) (s : State), (domRuns .fld s = true) → (rdB (F.FLD_CANnn_STAT_CONTAINED.u ch) s = true) → ((canCh ch s).babbleEnd ≤ s.time.loc) → (∃ t, exec (.babbleRelease (.can ch)) s = .next t ∧ rd (F.FLD_CANnn_STAT_CONTAINED.u ch) t = 0 ∧ t = { s with regs := t.regs, rcd := t.rcd }))

/-- With the FLD domain powered and out of reset: at the start of a subscribed unconditional slot the commander sends the
header and awaits the response; the shown table and slot are those of the schedule. A schedule switch waits for the end of
the slot. A responder hearing the header of a subscribed ID awaits its response. A response without error joins the
channel's FIFO with the time of its header's break field and is counted; a checksum error is counted and discarded. The
babbling guard's release, once its time is reached, opens the channel. A dominant level of 150 µs to 5 ms wakes the
channel's groups in STANDBY. A good scan is debounced into the inputs; a bad one is counted, keeps the inputs, and the third
sets FAULT. An output changed by a writer that no higher one has preceded in the tick starts an update or waits behind the
running one; an update's end strobes the outputs; a refresh starts an update. (R257, R261, R263, R265, R266, R267, R271) -/
def Obligations.LinAndSideBandEventsComplete : Prop :=
  (∀ (ch : Fin 32) (tb k : Nat) (c : LinCh) (e : List Byte) (s : State), (domRuns .fld s = true) → (linMode ch s = 1) → (rdB (F.FLD_LINnn_STAT_ASLEEP.u ch) s = false) → ((linCh ch s).quiet ≤ s.time.loc) → (linReleased ch s = none) → (linNext ch (linSet ch { linCh ch s with head := none, extraRun := false } s) = ((tb, k), c)) → (tb < 16) → (k < 64) → ((linTable ch tb s)[k]? = some e) → (byteAt e 2 = 0) → (linId ch (byteAt e 3 % 64) s = 2) → (silent .fld s = false) → (∃ t, exec (.linSlot ch) s = .next t ∧ t.out = .lin ch (byteAt e 3 % 64) [] :: s.out ∧ linCh ch t = { c with started := true, head := some ⟨byteAt e 3 % 64, false, s.time.loc, false⟩ } ∧ rd (F.FLD_LINnn_STAT_TABLE.u ch) t = tb ∧ rd (F.FLD_LINnn_STAT_SLOT.u ch) t = k ∧ RegsKept [F.FLD_LINnn_STAT_TABLE.u ch, F.FLD_LINnn_STAT_SLOT.u ch] s t ∧ t = { s with regs := t.regs, out := t.out, lin := t.lin })) ∧
  (∀ (ch : Fin 32) (tb : Fin 16) (s : State), (domRuns .fld s = true) → (linMode ch s = 1) → (exec (.scheduleSwitch ch tb) s = .next (linSet ch { linCh ch s with next := some tb.val } s))) ∧
  (∀ (ch : Fin 32) (id : Fin 64) (ago : Nat) (s : State), (domRuns .fld s = true) → (linMode ch s = 2) → (linId ch id s = 2) → (∃ t, exec (.linHeader ch ⟨id, ago⟩) s = .next t ∧ linCh ch t = { linCh ch s with head := some ⟨id.val, false, s.time.loc - ago, false⟩ } ∧ rd (F.FLD_LINnn_STAT_ASLEEP.u ch) t = 0 ∧ RegsKept [F.FLD_LINnn_STAT_ASLEEP.u ch] s t ∧ t = { s with regs := t.regs, lin := t.lin })) ∧
  (∀ (ch : Fin 32) (b : List Byte) (x : LinHead) (s : State), (domRuns .fld s = true) → (0 < b.length) → (b.length ≤ 8) → ((linCh ch s).head = some x) → (x.own = false) → (x.id ≠ 0x3C) → (rdB (F.FLD_LINnn_STAT_CONTAINED.u ch) s = false) → (((rxFifo (96 + ch) s).map fun y => y.data.length).sum + (linBytes x.id b).length ≤ 8192) → (∃ t, exec (.linResponse ch (.data b)) s = .next t ∧ rxFifo (96 + ch) t = rxFifo (96 + ch) s ++ [⟨linBytes x.id b, x.at_, shortNs s⟩] ∧ (linCh ch t).head = none ∧ rd (F.FLD_LINnn_FRAMES_COUNT.u ch) t = (rd (F.FLD_LINnn_FRAMES_COUNT.u ch) s + 1) % 2 ^ F.FLD_LINnn_FRAMES_COUNT.w ∧ t = { s with regs := t.regs, can := t.can, lin := t.lin })) ∧
  (∀ (ch : Fin 32) (x : LinHead) (s : State), (domRuns .fld s = true) → ((linCh ch s).head = some x) → (x.own = false) → (∃ t, exec (.linResponse ch .checksum) s = .next t ∧ (linCh ch t).head = none ∧ rd (F.FLD_LINnn_ERR_CHECKSUM.u ch) t = min (rd (F.FLD_LINnn_ERR_CHECKSUM.u ch) s + 1) (2 ^ F.FLD_LINnn_ERR_CHECKSUM.w - 1) ∧ RegsKept [F.FLD_LINnn_ERR_CHECKSUM.u ch] s t ∧ t = { s with regs := t.regs, lin := t.lin })) ∧
  (∀ (ch : Fin 32) (s : State), (domRuns .fld s = true) → (rdB (F.FLD_LINnn_STAT_CONTAINED.u ch) s = true) → ((linCh ch s).babbleEnd ≤ s.time.loc) → (∃ t, exec (.babbleRelease (.lin ch)) s = .next t ∧ rd (F.FLD_LINnn_STAT_CONTAINED.u ch) t = 0 ∧ t = { s with regs := t.regs, rcd := t.rcd })) ∧
  (∀ (ch : Fin 32) (us : Nat) (s : State), (s.pwr.mode = 2) → (domRuns .fld s = true) → (linMode ch s ≠ 0) → (bit (linN ch 1 1 s) 0 = true) → (150 ≤ us) → (us ≤ 5000) → (∃ t, exec (.linWake ch us) s = .next t ∧ t.slp.toWake = s.slp.toWake ||| linN ch 0x10 4 s ∧ t.slp.lastWhy = 26 ∧ rd F.SLP_WAKE_LATCH_LIN t = 1 ∧ t.pwr.mode = 2)) ∧
  (∀ (v : BitVec 256) (s : State), (sbsRuns s = true) → (bit v.toNat 254 = false) → (bit v.toNat 255 = true) → (∃ t, exec (.sbsInputScan v) s = .next t ∧ t.sbs.scans = ((v.toNat ^^^ sbsMap 0x30 s) :: s.sbs.scans).take 8 ∧ t.sbs.ins = debounced (max 1 (cfgN C.sbs 0 2 1 s)) t.sbs.scans s.sbs.ins ∧ t.sbs.bad = 0 ∧ rd F.FLD_SBS_STAT_SCANS t = (rd F.FLD_SBS_STAT_SCANS s + 1) % 2 ^ F.FLD_SBS_STAT_SCANS.w)) ∧
  (∀ (v : BitVec 256) (s : State), (sbsRuns s = true) → (bit v.toNat 254 = true ∨ bit v.toNat 255 = false) → (∃ t, exec (.sbsInputScan v) s = .next t ∧ t.sbs.ins = s.sbs.ins ∧ t.sbs.bad = min (s.sbs.bad + 1) 3 ∧ t.sbs.good = 0 ∧ rd F.FLD_SBS_STAT_BAD t = min (rd F.FLD_SBS_STAT_BAD s + 1) (2 ^ F.FLD_SBS_STAT_BAD.w - 1) ∧ (s.sbs.bad = 2 → rd F.FLD_SBS_STAT_FAULT t = 1))) ∧
  (∀ (w : SbsWriter) (o : Fin 256) (v : Bool) (s : State), (sbsRuns s = true) → (bit s.sbs.outs o ≠ v) → (sbsMay w s o = true) → (∃ t, exec (.sbsOutputUpdate o ⟨w, v⟩) s = .next t ∧ t.sbs = { s.sbs with outs := putBit s.sbs.outs o v, busy := true, again := s.sbs.again || s.sbs.busy, wrote := t.sbs.wrote } ∧ t = { s with regs := t.regs, sbs := t.sbs })) ∧
  (∀ (s : State), (domRuns .fld s = true) → (s.sbs.busy = true) → (exec .sbsUpdateEnd s = .next { s with sbs := { s.sbs with pins := if s.pwr.sbsClrN then s.sbs.outs else 0, busy := s.sbs.again, again := false } })) ∧
  (∀ (s : State), (sbsRuns s = true) → (exec .sbsRefresh s = .next { s with sbs := { s.sbs with busy := true, again := s.sbs.again || s.sbs.busy } }))

/-- With the FLD domain powered and out of reset: an event-triggered slot awaits the responses of its ID, a go-to-sleep slot
sends 0x3C with first byte 0 and puts the channel to sleep, and a slot of a published ID with a response buffered sends it.
A commander's schedule switch is kept for the end of the slot. A responder ignores the header of an ID it neither publishes
nor subscribes, and publishes the buffered response of one it publishes. A response that is missing, framed wrongly or
collided (in an event-triggered slot) is counted, the last naming its collision resolution table. A wake-up signal in
STANDBY latches LIN, adds its groups, and leaves the field channels and the configuration alone. A good scan that changes no
input, and the third bad one, leave everything but the scan's own state and its records alone. An output update that changes
nothing starts nothing; one while another runs waits. A refresh starts an update, or waits behind the running one, and an
update's end strobes the outputs. (R259, R260, R261, R262, R263, R265, R266, R267, R271) -/
def Obligations.LinAndSideBandCommandsRun : Prop :=
  (∀ (ch : Fin 32) (tb k : Nat) (c : LinCh) (e : List Byte) (s : State), (domRuns .fld s = true) → (linMode ch s = 1) → (rdB (F.FLD_LINnn_STAT_ASLEEP.u ch) s = false) → ((linCh ch s).quiet ≤ s.time.loc) → (linReleased ch s = none) → (linNext ch (linSet ch { linCh ch s with head := none, extraRun := false } s) = ((tb, k), c)) → (tb < 16) → (k < 64) → ((linTable ch tb s)[k]? = some e) → (byteAt e 2 = 1) → (linId ch (byteAt e 3 % 64) s = 2) → (silent .fld s = false) → (∃ t, exec (.linSlot ch) s = .next t ∧ t.out = .lin ch (byteAt e 3 % 64) [] :: s.out ∧ linCh ch t = { c with started := true, head := some ⟨byteAt e 3 % 64, true, s.time.loc, false⟩ } ∧ RegsKept [F.FLD_LINnn_STAT_TABLE.u ch, F.FLD_LINnn_STAT_SLOT.u ch] s t ∧ t = { s with regs := t.regs, out := t.out, lin := t.lin })) ∧
  (∀ (ch : Fin 32) (tb k : Nat) (c : LinCh) (e : List Byte) (s : State), (domRuns .fld s = true) → (linMode ch s = 1) → (rdB (F.FLD_LINnn_STAT_ASLEEP.u ch) s = false) → ((linCh ch s).quiet ≤ s.time.loc) → (linReleased ch s = none) → (linNext ch (linSet ch { linCh ch s with head := none, extraRun := false } s) = ((tb, k), c)) → ((linTable ch tb s)[k]? = some e) → (byteAt e 2 = 4) → (silent .fld s = false) → (∃ t, exec (.linSlot ch) s = .next t ∧ t.out = .lin ch 0x3C (ofNats [0, 255, 255, 255, 255, 255, 255, 255]) :: s.out ∧ rd (F.FLD_LINnn_STAT_ASLEEP.u ch) t = 1 ∧ linCh ch t = { c with started := true } ∧ t = { s with regs := t.regs, out := t.out, lin := t.lin })) ∧
  (∀ (ch : Fin 32) (tb k : Nat) (c : LinCh) (e d : List Byte) (s : State), (domRuns .fld s = true) → (linMode ch s = 1) → (rdB (F.FLD_LINnn_STAT_ASLEEP.u ch) s = false) → ((linCh ch s).quiet ≤ s.time.loc) → (linReleased ch s = none) → (linNext ch (linSet ch { linCh ch s with head := none, extraRun := false } s) = ((tb, k), c)) → ((linTable ch tb s)[k]? = some e) → (byteAt e 2 = 0) → (linId ch (byteAt e 3 % 64) s = 1) → ((qu (640 + ch) s).ents = []) → (tfind (linCh ch s).buf (byteAt e 3 % 64) = some d) → (c.buf = (linCh ch s).buf) → (byteAt e 3 % 64 ≠ 0x3C) → (silent .fld s = false) → (∃ t, exec (.linSlot ch) s = .next t ∧ t.out = .lin ch (byteAt e 3 % 64) d :: s.out ∧ linCh ch t = { c with started := true, head := some ⟨byteAt e 3 % 64, false, s.time.loc, true⟩ } ∧ rd (F.FLD_LINnn_FRAMES_COUNT.u ch) t = (rd (F.FLD_LINnn_FRAMES_COUNT.u ch) s + 1) % 2 ^ F.FLD_LINnn_FRAMES_COUNT.w ∧ t = { s with regs := t.regs, out := t.out, lin := t.lin })) ∧
  (∀ (ch : Fin 32) (tb : Fin 16) (s : State), (domRuns .fld s = true) → (linMode ch s = 1) → (∃ t, exec (.scheduleSwitch ch tb) s = .next t ∧ (linCh ch t).next = some tb.val ∧ linCh ch t = { linCh ch s with next := (linCh ch t).next } ∧ t = { s with lin := t.lin })) ∧
  (∀ (ch : Fin 32) (id : Fin 64) (ago : Nat) (s : State), (domRuns .fld s = true) → (linMode ch s = 2) → (linId ch id s ≠ 1) → (linId ch id s ≠ 2) → (∃ t, exec (.linHeader ch ⟨id, ago⟩) s = .next t ∧ linCh ch t = { linCh ch s with head := none } ∧ rd (F.FLD_LINnn_STAT_ASLEEP.u ch) t = 0 ∧ RegsKept [F.FLD_LINnn_STAT_ASLEEP.u ch] s t ∧ t = { s with regs := t.regs, lin := t.lin })) ∧
  (∀ (ch : Fin 32) (id : Fin 64) (ago : Nat) (d : List Byte) (s : State), (domRuns .fld s = true) → (linMode ch s = 2) → (linId ch id s = 1) → (id.val ≠ 0x3C) → ((qu (640 + ch) s).ents = []) → (tfind (linCh ch s).buf id = some d) → (silent .fld s = false) → (∃ t, exec (.linHeader ch ⟨id, ago⟩) s = .next t ∧ t.out = .lin ch id d :: s.out ∧ linCh ch t = { linCh ch s with head := some ⟨id.val, false, s.time.loc - ago, true⟩ } ∧ t = { s with regs := t.regs, out := t.out, lin := t.lin })) ∧
  (∀ (ch : Fin 32) (x : LinHead) (s : State), (domRuns .fld s = true) → ((linCh ch s).head = some x) → (x.own = false) → (∃ t, exec (.linResponse ch .none) s = .next t ∧ linCh ch t = { linCh ch s with head := none } ∧ rd (F.FLD_LINnn_ERR_NORESP.u ch) t = min (rd (F.FLD_LINnn_ERR_NORESP.u ch) s + 1) (2 ^ F.FLD_LINnn_ERR_NORESP.w - 1) ∧ RegsKept [F.FLD_LINnn_ERR_NORESP.u ch] s t ∧ t = { s with regs := t.regs, lin := t.lin })) ∧
  (∀ (ch : Fin 32) (x : LinHead) (s : State), (domRuns .fld s = true) → ((linCh ch s).head = some x) → (∃ t, exec (.linResponse ch .framing) s = .next t ∧ linCh ch t = { linCh ch s with head := none } ∧ rd (F.FLD_LINnn_ERR_FRAMING.u ch) t = min (rd (F.FLD_LINnn_ERR_FRAMING.u ch) s + 1) (2 ^ F.FLD_LINnn_ERR_FRAMING.w - 1) ∧ RegsKept [F.FLD_LINnn_ERR_FRAMING.u ch] s t ∧ t = { s with regs := t.regs, lin := t.lin })) ∧
  (∀ (ch : Fin 32) (x : LinHead) (e : List Byte) (s : State), (domRuns .fld s = true) → ((linCh ch s).head = some x) → (x.own = false) → (x.et = true) → ((linTable ch (rd (F.FLD_LINnn_STAT_TABLE.u ch) s) s)[rd (F.FLD_LINnn_STAT_SLOT.u ch) s]? = some e) → (∃ t, exec (.linResponse ch .collision) s = .next t ∧ linCh ch t = { linCh ch s with head := none, coll := some (byteAt e 6) } ∧ rd (F.FLD_LINnn_ERR_COLLISION.u ch) t = min (rd (F.FLD_LINnn_ERR_COLLISION.u ch) s + 1) (2 ^ F.FLD_LINnn_ERR_COLLISION.w - 1) ∧ RegsKept [F.FLD_LINnn_ERR_COLLISION.u ch] s t ∧ t = { s with regs := t.regs, lin := t.lin })) ∧
  (∀ (ch : Fin 32) (us : Nat) (s : State), (s.pwr.mode = 2) → (domRuns .fld s = true) → (linMode ch s ≠ 0) → (bit (linN ch 1 1 s) 0 = true) → (150 ≤ us) → (us ≤ 5000) → (∃ t, exec (.linWake ch us) s = .next t ∧ rd F.SLP_WAKE_LATCH_LIN t = 1 ∧ t.slp.toWake = s.slp.toWake ||| linN ch 0x10 4 s ∧ t.slp.held = s.slp.held ∧ t.lin = s.lin ∧ t.can = s.can ∧ t.cfg = s.cfg)) ∧
  (∀ (v : BitVec 256) (s : State), (sbsRuns s = true) → (scanGood v.toNat = true) → (debounced (max 1 (cfgN C.sbs 0 2 1 s)) (((v.toNat ^^^ sbsMap 0x30 s) :: s.sbs.scans).take 8) s.sbs.ins = s.sbs.ins) → (∀ x ∈ s.eth.ports, x.2.step ≠ 1) → (∃ t, exec (.sbsInputScan v) s = .next t ∧ t.sbs = { s.sbs with scans := ((v.toNat ^^^ sbsMap 0x30 s) :: s.sbs.scans).take 8, bad := 0, good := min (s.sbs.good + 1) 3 } ∧ rd F.FLD_SBS_STAT_SCANS t = (rd F.FLD_SBS_STAT_SCANS s + 1) % 2 ^ F.FLD_SBS_STAT_SCANS.w ∧ t = { s with regs := t.regs, sbs := t.sbs })) ∧
  (∀ (v : BitVec 256) (s : State), (sbsRuns s = true) → (scanGood v.toNat = false) → (s.sbs.bad = 2) → (∀ x ∈ s.eth.ports, x.2.step ≠ 1) → (∃ t, exec (.sbsInputScan v) s = .next t ∧ t.sbs = { s.sbs with good := 0, bad := 3 } ∧ rd F.FLD_SBS_STAT_FAULT t = 1 ∧ t = { s with regs := t.regs, sbs := t.sbs, rcd := t.rcd })) ∧
  (∀ (w : SbsWriter) (o : Fin 256) (s : State), (sbsRuns s = true) → (∃ t, exec (.sbsOutputUpdate o ⟨w, bit s.sbs.outs o⟩) s = .next t ∧ t = { s with sbs := { s.sbs with wrote := t.sbs.wrote } })) ∧
  (∀ (w : SbsWriter) (o : Fin 256) (v : Bool) (s : State), (sbsRuns s = true) → (s.sbs.busy = true) → (bit s.sbs.outs o ≠ v) → (sbsMay w s o = true) → (∃ t, exec (.sbsOutputUpdate o ⟨w, v⟩) s = .next t ∧ t.sbs.outs = putBit s.sbs.outs o v ∧ t.sbs.again = true ∧ t.sbs.pins = s.sbs.pins)) ∧
  (∀ (s : State), (domRuns .fld s = true) → (s.sbs.busy = true) → (s.pwr.sbsClrN = true) → (∃ t, exec .sbsUpdateEnd s = .next t ∧ t.sbs.pins = s.sbs.outs ∧ t.sbs.busy = s.sbs.again ∧ t.sbs.again = false ∧ t = { s with sbs := t.sbs })) ∧
  (∀ (s : State), (sbsRuns s = true) → (s.sbs.busy = false) → (exec .sbsRefresh s = .next { s with sbs := { s.sbs with busy := true } })) ∧
  (∀ (s : State), (sbsRuns s = true) → (s.sbs.busy = true) → (exec .sbsRefresh s = .next { s with sbs := { s.sbs with again := true } }))

/-- With the device awake: PDU_DUE of a periodic PDU with no unsent frame and no pending event raises a TX event on its
engine. MINIMUM_GAP without a change in between ends the gap. MAXIMUM_BATCHING_DELAY closes a carrier that holds frames when
FN7 is not full: it empties, its sequence number advances and SENT counts. DISPATCH with GRV running and no upset gives the
next event to the lowest free context of a running engine: it becomes ready at the kind's vector, and EVENTS counts.
STALL_END makes a context ready whose store access has ended. ENGINE_TIMER at or after the expiry disarms the timer and
raises its event. ENGINE_RELOAD brings a fenced engine whose image's digest agrees back to running, with the image's
instructions, vectors and data. (R290, R291, R303, R317, R335, R337, R340) -/
def Obligations.SignalAndEngineEventsComplete : Prop :=
  (∀ (p : Fin 8192) (s : State), (awake s = true) → (pduN p 0x0C 2 s ≠ 0) → (pduMode p s ≤ 1) → (pduUnsent p s = false) → (evPends (pduN p 0x1C 1 s) 2 p s = false) → (pduN p 0x1C 1 s < 16) → (∃ t, exec (.pduDue p) s = .next t ∧ (eng (pduN p 0x1C 1 s) t).evs = (eng (pduN p 0x1C 1 s) s).evs ++ [⟨2, 0, p, 0, shortNs s⟩] ∧ t = { s with regs := t.regs, grv := t.grv })) ∧
  (∀ (p : Fin 8192) (s : State), (awake s = true) → ((pduRun p s).gap = true) → ((pduRun p s).change = false) → (exec (.minimumGap p) s = .next (pduSet p { pduRun p s with gap := false } s))) ∧
  (∀ (k : Fin 64) (s : State), (awake s = true) → ((car k s).count ≠ 0) → (sourceWaits false 7 s = false) → (∃ t, exec (.maximumBatchingDelay k) s = .next t ∧ car k t = { car k s with msgs := [], count := 0, seq := ((car k s).seq + 1) % 256 } ∧ rd F.SIG_ACF_STAT_SENT t = (rd F.SIG_ACF_STAT_SENT s + 1) % 2 ^ F.SIG_ACF_STAT_SENT.w)) ∧
  (∀ (e : Fin 16) (c : Nat) (v : Ev) (u : State) (s : State), (engState e s = 1) → (domRuns .grv s = true) → ((List.range 8).find? (fun c => (ctx e c s).st == 0) = some c) → (nextEvent e s = some v) → (takeEvent e v s = (none, u)) → ((eng e u).vecs.getD v.kind 0xFFFF ≠ 0xFFFF) → (∃ t, exec (.dispatch ⟨e, none⟩) s = .next t ∧ (ctx e c t).st = 1 ∧ (ctx e c t).pc = (eng e u).vecs.getD v.kind 0xFFFF ∧ (ctx e c t).ev = v ∧ (ctx e c t).group = [] ∧ rd (F.GRV_GVn_EVENTS_COUNT.u e) t = (rd (F.GRV_GVn_EVENTS_COUNT.u e) u + 1) % 2 ^ F.GRV_GVn_EVENTS_COUNT.w)) ∧
  (∀ (e : Fin 16) (c : Fin 8) (s : State), ((ctx e c s).st = 2) → (domRuns .grv s = true) → (reading (.slot e c) s = false) → ((ctx e c s).stall = .access) → (exec (.stallEnd e c) s = .next (ctxSet e c { ctx e c s with st := 1, stall := .none } s))) ∧
  (∀ (e : Fin 16) (k : Fin 16) (a : Nat) (s : State), (awake s = true) → (tfind (eng e s).timers k = some a) → (a ≤ shortNs s) → (∃ t, exec (.engineTimer e k) s = .next t ∧ (eng e t).timers = terase (eng e s).timers k ∧ (eng e t).evs = (eng e s).evs ++ [⟨7, k, 0, 0, a⟩] ∧ t = { s with regs := t.regs, grv := t.grv })) ∧
  (∀ (e : Fin 16) (d img : List Byte) (s : State), (awake s = true) → (engState e s = 2) → (domBusy .grv s = false) → (tfind (activeImages 0x11 s) (engImage e s) = some (d, img)) → (tfind s.sys.imgGrv (engImage e s) = some d) → (∃ t, exec (.engineReload e) s = .next t ∧ rd (F.GRV_GVn_STAT_STATE.u e) t = 1 ∧ (eng e t).count = leAt img 0 2 ∧ (eng e t).imem = (List.range (leAt img 0 2)).map (fun i => (i, leAt img (48 + 4 * i) 4)) ∧ (eng e t).vecs = (List.range 16).map (fun k => leAt img (4 + 2 * k) 2) ∧ RegsKept [F.GRV_GVn_STAT_STATE.u e] s t ∧ t = { s with regs := t.regs, grv := t.grv }))

/-- For a context that issues (ready, the engine running, ACTIVE, budgets left) and a word whose zero fields are 0, each of
NOP, ADD, SUB, AND, OR, XOR, SHL, SHR, SAR, MUL, SLT, SLTU, ADDI, ANDI, ORI, XORI, SHLI, SHRI, SARI, LSH, BFX, BFI and BSW
answers a next state in which register D holds the result of the opcode table modulo 2^64 (nothing, when D is g0), the
program counter has moved to the next word, one instruction is charged to the budgets, and every other register, context,
engine and piece of state is unchanged. (R319, R324, R325, R326, R327, R328) -/
def Obligations.GraverArithmeticComputes : Prop :=
  (∀ (e : Fin 16) (c : Fin 8) (s : State), (GvRuns e c s) → (exec (.nop e c 0) s = .next (ctxSet e c (gvIssued (ctx e c s)) s))) ∧
  (∀ (e : Fin 16) (c : Fin 8) (w : BitVec 26) (s : State), (GvRuns e c s) → (w.extractLsb' 0 14 = 0) → (∃ t, exec (.add e c w) s = .next t ∧ GvWrote e c (wD w) (gReg e c (wA w) s + gReg e c (wB w) s) s t)) ∧
  (∀ (e : Fin 16) (c : Fin 8) (w : BitVec 26) (s : State), (GvRuns e c s) → (w.extractLsb' 0 14 = 0) → (∃ t, exec (.sub e c w) s = .next t ∧ GvWrote e c (wD w) (gReg e c (wA w) s - gReg e c (wB w) s) s t)) ∧
  (∀ (e : Fin 16) (c : Fin 8) (w : BitVec 26) (s : State), (GvRuns e c s) → (w.extractLsb' 0 14 = 0) → (∃ t, exec (.andOp e c w) s = .next t ∧ GvWrote e c (wD w) (gReg e c (wA w) s &&& gReg e c (wB w) s) s t)) ∧
  (∀ (e : Fin 16) (c : Fin 8) (w : BitVec 26) (s : State), (GvRuns e c s) → (w.extractLsb' 0 14 = 0) → (∃ t, exec (.orOp e c w) s = .next t ∧ GvWrote e c (wD w) (gReg e c (wA w) s ||| gReg e c (wB w) s) s t)) ∧
  (∀ (e : Fin 16) (c : Fin 8) (w : BitVec 26) (s : State), (GvRuns e c s) → (w.extractLsb' 0 14 = 0) → (∃ t, exec (.xorOp e c w) s = .next t ∧ GvWrote e c (wD w) (gReg e c (wA w) s ^^^ gReg e c (wB w) s) s t)) ∧
  (∀ (e : Fin 16) (c : Fin 8) (w : BitVec 26) (s : State), (GvRuns e c s) → (w.extractLsb' 0 14 = 0) → (∃ t, exec (.shl e c w) s = .next t ∧ GvWrote e c (wD w) (gReg e c (wA w) s <<< ((gReg e c (wB w) s).toNat % 64)) s t)) ∧
  (∀ (e : Fin 16) (c : Fin 8) (w : BitVec 26) (s : State), (GvRuns e c s) → (w.extractLsb' 0 14 = 0) → (∃ t, exec (.shr e c w) s = .next t ∧ GvWrote e c (wD w) (gReg e c (wA w) s >>> ((gReg e c (wB w) s).toNat % 64)) s t)) ∧
  (∀ (e : Fin 16) (c : Fin 8) (w : BitVec 26) (s : State), (GvRuns e c s) → (w.extractLsb' 0 14 = 0) → (∃ t, exec (.sar e c w) s = .next t ∧ GvWrote e c (wD w) ((gReg e c (wA w) s).sshiftRight ((gReg e c (wB w) s).toNat % 64)) s t)) ∧
  (∀ (e : Fin 16) (c : Fin 8) (w : BitVec 26) (s : State), (GvRuns e c s) → (w.extractLsb' 0 14 = 0) → (∃ t, exec (.mul e c w) s = .next t ∧ GvWrote e c (wD w) (gReg e c (wA w) s * gReg e c (wB w) s) s t)) ∧
  (∀ (e : Fin 16) (c : Fin 8) (w : BitVec 26) (s : State), (GvRuns e c s) → (w.extractLsb' 0 14 = 0) → (∃ t, exec (.slt e c w) s = .next t ∧ GvWrote e c (wD w) (if (gReg e c (wA w) s).slt (gReg e c (wB w) s) then 1 else 0) s t)) ∧
  (∀ (e : Fin 16) (c : Fin 8) (w : BitVec 26) (s : State), (GvRuns e c s) → (w.extractLsb' 0 14 = 0) → (∃ t, exec (.sltu e c w) s = .next t ∧ GvWrote e c (wD w) (if (gReg e c (wA w) s).ult (gReg e c (wB w) s) then 1 else 0) s t)) ∧
  (∀ (e : Fin 16) (c : Fin 8) (w : BitVec 26) (s : State), (GvRuns e c s) → (∃ t, exec (.addi e c w) s = .next t ∧ GvWrote e c (wD w) (gReg e c (wA w) s + (w.extractLsb' 0 18).signExtend 64) s t)) ∧
  (∀ (e : Fin 16) (c : Fin 8) (w : BitVec 26) (s : State), (GvRuns e c s) → (∃ t, exec (.andi e c w) s = .next t ∧ GvWrote e c (wD w) (gReg e c (wA w) s &&& (w.extractLsb' 0 18).setWidth 64) s t)) ∧
  (∀ (e : Fin 16) (c : Fin 8) (w : BitVec 26) (s : State), (GvRuns e c s) → (∃ t, exec (.ori e c w) s = .next t ∧ GvWrote e c (wD w) (gReg e c (wA w) s ||| (w.extractLsb' 0 18).setWidth 64) s t)) ∧
  (∀ (e : Fin 16) (c : Fin 8) (w : BitVec 26) (s : State), (GvRuns e c s) → (∃ t, exec (.xori e c w) s = .next t ∧ GvWrote e c (wD w) (gReg e c (wA w) s ^^^ (w.extractLsb' 0 18).setWidth 64) s t)) ∧
  (∀ (e : Fin 16) (c : Fin 8) (w : BitVec 26) (s : State), (GvRuns e c s) → (∃ t, exec (.shli e c w) s = .next t ∧ GvWrote e c (wD w) (gReg e c (wA w) s <<< (w.extractLsb' 0 6).toNat) s t)) ∧
  (∀ (e : Fin 16) (c : Fin 8) (w : BitVec 26) (s : State), (GvRuns e c s) → (∃ t, exec (.shri e c w) s = .next t ∧ GvWrote e c (wD w) (gReg e c (wA w) s >>> (w.extractLsb' 0 6).toNat) s t)) ∧
  (∀ (e : Fin 16) (c : Fin 8) (w : BitVec 26) (s : State), (GvRuns e c s) → (∃ t, exec (.sari e c w) s = .next t ∧ GvWrote e c (wD w) ((gReg e c (wA w) s).sshiftRight (w.extractLsb' 0 6).toNat) s t)) ∧
  (∀ (e : Fin 16) (c : Fin 8) (w : BitVec 26) (s : State), (GvRuns e c s) → (wA w = 0) → (w.extractLsb' 16 2 = 0) → (∃ t, exec (.lsh e c w) s = .next t ∧ GvWrote e c (wD w) ((gReg e c (wD w) s <<< 16) ||| (w.extractLsb' 0 16).setWidth 64) s t)) ∧
  (∀ (e : Fin 16) (c : Fin 8) (w : BitVec 26) (s : State), (GvRuns e c s) → ((w.extractLsb' 12 6).toNat + ((w.extractLsb' 6 6).toNat + 1) ≤ 64) → (∃ t, exec (.bfx e c w) s = .next t ∧ GvWrote e c (wD w) (if w.getLsbD 5 then ((gReg e c (wA w) s >>> (w.extractLsb' 12 6).toNat).setWidth ((w.extractLsb' 6 6).toNat + 1)).signExtend 64 else ((gReg e c (wA w) s >>> (w.extractLsb' 12 6).toNat).setWidth ((w.extractLsb' 6 6).toNat + 1)).setWidth 64) s t)) ∧
  (∀ (e : Fin 16) (c : Fin 8) (w : BitVec 26) (s : State), (GvRuns e c s) → ((w.extractLsb' 12 6).toNat + ((w.extractLsb' 6 6).toNat + 1) ≤ 64) → (w.getLsbD 5 = false) → (∃ t, exec (.bfi e c w) s = .next t ∧ GvWrote e c (wD w) ((gReg e c (wD w) s &&& ~~~(BitVec.ofNat 64 (2 ^ ((w.extractLsb' 6 6).toNat + 1) - 1) <<< (w.extractLsb' 12 6).toNat)) ||| ((gReg e c (wA w) s &&& BitVec.ofNat 64 (2 ^ ((w.extractLsb' 6 6).toNat + 1) - 1)) <<< (w.extractLsb' 12 6).toNat)) s t)) ∧
  (∀ (e : Fin 16) (c : Fin 8) (w : BitVec 26) (s : State), (GvRuns e c s) → (w.extractLsb' 0 2 ≠ 0) → (∃ t, exec (.bsw e c w) s = .next t ∧ GvWrote e c (wD w) (BitVec.ofNat 64 (beNat (leBytes (2 ^ (w.extractLsb' 0 2).toNat) (gReg e c (wA w) s).toNat))) s t))

/-- For a context that issues: a branch whose target lies inside the image goes there when its condition on D and A holds
(signed for BLT and BGE, unsigned for BLTU and BGEU) and to the next word otherwise; JMP, CALL and JR go to their target
inside the image, and CALL leaves the next address in g15; LD reads 2^n bytes of DMEM little-endian, sign-extended when
asked, at an aligned address below 32 KiB; ST writes the low bytes of D there and no other byte. Nothing else changes.
(R324, R325, R326, R327, R328) -/
def Obligations.GraverBranchesAndMemoryComplete : Prop :=
  (∀ (e : Fin 16) (c : Fin 8) (w : BitVec 26) (s : State), (GvRuns e c s) → (0 ≤ branchTarget e c w s) → (branchTarget e c w s < (eng e s).count) → (∃ t, exec (.beq e c w) s = .next t ∧ GvBranched e c w (gReg e c (wD w) s == gReg e c (wA w) s) s t)) ∧
  (∀ (e : Fin 16) (c : Fin 8) (w : BitVec 26) (s : State), (GvRuns e c s) → (0 ≤ branchTarget e c w s) → (branchTarget e c w s < (eng e s).count) → (∃ t, exec (.bne e c w) s = .next t ∧ GvBranched e c w (gReg e c (wD w) s != gReg e c (wA w) s) s t)) ∧
  (∀ (e : Fin 16) (c : Fin 8) (w : BitVec 26) (s : State), (GvRuns e c s) → (0 ≤ branchTarget e c w s) → (branchTarget e c w s < (eng e s).count) → (∃ t, exec (.blt e c w) s = .next t ∧ GvBranched e c w ((gReg e c (wD w) s).slt (gReg e c (wA w) s)) s t)) ∧
  (∀ (e : Fin 16) (c : Fin 8) (w : BitVec 26) (s : State), (GvRuns e c s) → (0 ≤ branchTarget e c w s) → (branchTarget e c w s < (eng e s).count) → (∃ t, exec (.bge e c w) s = .next t ∧ GvBranched e c w (!((gReg e c (wD w) s).slt (gReg e c (wA w) s))) s t)) ∧
  (∀ (e : Fin 16) (c : Fin 8) (w : BitVec 26) (s : State), (GvRuns e c s) → (0 ≤ branchTarget e c w s) → (branchTarget e c w s < (eng e s).count) → (∃ t, exec (.bltu e c w) s = .next t ∧ GvBranched e c w ((gReg e c (wD w) s).ult (gReg e c (wA w) s)) s t)) ∧
  (∀ (e : Fin 16) (c : Fin 8) (w : BitVec 26) (s : State), (GvRuns e c s) → (0 ≤ branchTarget e c w s) → (branchTarget e c w s < (eng e s).count) → (∃ t, exec (.bgeu e c w) s = .next t ∧ GvBranched e c w (!((gReg e c (wD w) s).ult (gReg e c (wA w) s))) s t)) ∧
  (∀ (e : Fin 16) (c : Fin 8) (w : BitVec 26) (s : State), (GvRuns e c s) → (w.extractLsb' 14 12 = 0) → ((w.extractLsb' 0 14).toNat < (eng e s).count) → (exec (.jmp e c w) s = .next (ctxSet e c { gvIssued (ctx e c s) with pc := (w.extractLsb' 0 14).toNat } s))) ∧
  (∀ (e : Fin 16) (c : Fin 8) (w : BitVec 26) (s : State), (GvRuns e c s) → (w.extractLsb' 14 12 = 0) → ((w.extractLsb' 0 14).toNat < (eng e s).count) → (∃ t, exec (.call e c w) s = .next t ∧ (ctx e c t).pc = (w.extractLsb' 0 14).toNat ∧ (∀ r, gReg e c r t = if r = 15 then BitVec.ofNat 64 (gvIssued (ctx e c s)).pc else gReg e c r s) ∧ t = ctxSet e c { gvIssued (ctx e c s) with pc := (w.extractLsb' 0 14).toNat, regs := (ctx e c t).regs } s)) ∧
  (∀ (e : Fin 16) (c : Fin 8) (w : BitVec 26) (s : State), (GvRuns e c s) → (w.extractLsb' 0 14 = 0) → ((gReg e c (wA w) s).toNat % 2 ^ 14 < (eng e s).count) → (exec (.jr e c w) s = .next (ctxSet e c { gvIssued (ctx e c s) with pc := (gReg e c (wA w) s).toNat % 2 ^ 14 } s))) ∧
  (∀ (e : Fin 16) (c : Fin 8) (w : BitVec 26) (s : State), (GvRuns e c s) → ((((gReg e c (wA w) s).toNat + (w.extractLsb' 0 15).toNat) % 2 ^ 64) % 2 ^ (w.extractLsb' 16 2).toNat = 0) → ((((gReg e c (wA w) s).toNat + (w.extractLsb' 0 15).toNat) % 2 ^ 64) + 2 ^ (w.extractLsb' 16 2).toNat ≤ 32768) → (∃ t, exec (.ld e c w) s = .next t ∧ GvWrote e c (wD w) (BitVec.ofNat 64 (loaded (2 ^ (w.extractLsb' 16 2).toNat) (w.getLsbD 15) (leNat (dmemBytes e (((gReg e c (wA w) s).toNat + (w.extractLsb' 0 15).toNat) % 2 ^ 64) (2 ^ (w.extractLsb' 16 2).toNat) s)))) s t)) ∧
  (∀ (e : Fin 16) (c : Fin 8) (w : BitVec 26) (s : State), (GvRuns e c s) → (tsorted (eng e s).dmem = true) → (w.getLsbD 15 = false) → ((((gReg e c (wA w) s).toNat + (w.extractLsb' 0 15).toNat) % 2 ^ 64) % 2 ^ (w.extractLsb' 16 2).toNat = 0) → ((((gReg e c (wA w) s).toNat + (w.extractLsb' 0 15).toNat) % 2 ^ 64) + 2 ^ (w.extractLsb' 16 2).toNat ≤ 32768) → (∃ t, exec (.st e c w) s = .next t ∧ (∀ a, tget 0 (eng e t).dmem a = if (((gReg e c (wA w) s).toNat + (w.extractLsb' 0 15).toNat) % 2 ^ 64) ≤ a ∧ a < (((gReg e c (wA w) s).toNat + (w.extractLsb' 0 15).toNat) % 2 ^ 64) + 2 ^ (w.extractLsb' 16 2).toNat then BitVec.ofNat 8 ((gReg e c (wD w) s).toNat / 256 ^ (a - (((gReg e c (wA w) s).toNat + (w.extractLsb' 0 15).toNat) % 2 ^ 64))) else tget 0 (eng e s).dmem a) ∧ ctx e c t = gvIssued (ctx e c s) ∧ (∀ n, n ≠ e.val → eng n t = eng n s) ∧ t = { s with regs := t.regs, grv := t.grv }))

/-- For a context that issues: FLD reads 1 to 8 bytes inside a local frame, or inside the fetched cells of a buffered one,
and otherwise asks FN10 for the cells and stalls; FST writes them and nothing else of the frame; TLD and SGET read a table
record and a signal entry; SPUT stages a write with writer 0x9000 plus the engine; COMMIT of one staged write of an own
plain signal stores the fitted value, the time, one more update and the writer, and empties the group; UNPACK without
profile and source node stages what the PDU maps; PACK writes the packed PDU into the slot; SECV and SECG submit their
request and wait for it; ACFADD adds the frame to the carrier with the route of its channel. TLD, SGET, COMMIT, UNPACK and
PACK then stall for their access. (R297, R299, R303, R322, R326, R327, R329, R330, R331, R332) -/
def Obligations.GraverSignalsAndFramesComplete : Prop :=
  (∀ (e : Fin 16) (c : Fin 8) (w : BitVec 26) (d : List Byte) (s : State), (GvRuns e c s) → (slotData (w.extractLsb' 17 1).toNat (ctx e c s) s = some d) → (slotFetch e c (w.extractLsb' 17 1).toNat (((gReg e c (wA w) s).toNat + (w.extractLsb' 0 14).toNat) % 2 ^ 64) (2 ^ (w.extractLsb' 15 2).toNat) (ctx e c s) s = (ctx e c s, s)) → (reading (.slot e c) s = false) → ((((gReg e c (wA w) s).toNat + (w.extractLsb' 0 14).toNat) % 2 ^ 64) + 2 ^ (w.extractLsb' 15 2).toNat ≤ d.length) → (∃ t, exec (.fld e c w) s = .next t ∧ GvWrote e c (wD w) (BitVec.ofNat 64 (loaded (2 ^ (w.extractLsb' 15 2).toNat) (w.getLsbD 14) (leAt d (((gReg e c (wA w) s).toNat + (w.extractLsb' 0 14).toNat) % 2 ^ 64) (2 ^ (w.extractLsb' 15 2).toNat)))) s t)) ∧
  (∀ (e : Fin 16) (c : Fin 8) (w : BitVec 26) (d : List Byte) (y : Ctx) (u : State) (s : State), (GvRuns e c s) → (slotData (w.extractLsb' 17 1).toNat (ctx e c s) s = some d) → ((((gReg e c (wA w) s).toNat + (w.extractLsb' 0 14).toNat) % 2 ^ 64) + (2 ^ (w.extractLsb' 15 2).toNat) ≤ d.length) → (slotFetch e c (w.extractLsb' 17 1).toNat (((gReg e c (wA w) s).toNat + (w.extractLsb' 0 14).toNat) % 2 ^ 64) (2 ^ (w.extractLsb' 15 2).toNat) ((gvIssued (ctx e c s)).put (wD w) (loaded (2 ^ (w.extractLsb' 15 2).toNat) (w.getLsbD 14) (leAt d (((gReg e c (wA w) s).toNat + (w.extractLsb' 0 14).toNat) % 2 ^ 64) (2 ^ (w.extractLsb' 15 2).toNat)))) s = (y, u)) → (reading (.slot e c) u = true) → (exec (.fld e c w) s = .next (ctxSet e c { y with st := 2, stall := .fetch } u))) ∧
  (∀ (e : Fin 16) (c : Fin 8) (w : BitVec 26) (f : Fr) (n : Nat) (s : State), (GvRuns e c s) → ((ctx e c s).slot (w.extractLsb' 17 1).toNat = .loc f n) → (w.getLsbD 14 = false) → ((((gReg e c (wA w) s).toNat + (w.extractLsb' 0 14).toNat) % 2 ^ 64) + 2 ^ (w.extractLsb' 15 2).toNat ≤ (f.data.take (min n 4096)).length) → (exec (.fst e c w) s = .next (ctxSet e c ((gvIssued (ctx e c s)).setSlot (w.extractLsb' 17 1).toNat (.loc { f with data := spliceAt f.data (((gReg e c (wA w) s).toNat + (w.extractLsb' 0 14).toNat) % 2 ^ 64) (leBytes (2 ^ (w.extractLsb' 15 2).toNat) (gReg e c (wD w) s).toNat) } n)) s))) ∧
  (∀ (e : Fin 16) (c : Fin 8) (w : BitVec 26) (b : List Byte) (s : State), (GvRuns e c s) → (tldRec (w.extractLsb' 12 6).toNat (gReg e c (wA w) s).toNat s = some b) → (∃ t, exec (.tld e c w) s = .next t ∧ GvAccessed e c (wD w) (BitVec.ofNat 64 (leAt b (w.extractLsb' 0 12).toNat 8)) s s t)) ∧
  (∀ (e : Fin 16) (c : Fin 8) (w : BitVec 26) (s : State), (GvRuns e c s) → ((gReg e c (wA w) s).toNat < sigCount s) → (∃ t, exec (.sget e c w) s = .next t ∧ GvAccessed e c (wD w) (BitVec.ofNat 64 (match (w.extractLsb' 0 2).toNat with | 0 => sigVal (gReg e c (wA w) s).toNat s | 1 => (sigEnt (gReg e c (wA w) s).toNat s).time | 2 => sigStatus (gReg e c (wA w) s).toNat s + 2 ^ 16 * (sigEnt (gReg e c (wA w) s).toNat s).cnt + 2 ^ 32 * (sigEnt (gReg e c (wA w) s).toNat s).writer | _ => sigSubst (gReg e c (wA w) s).toNat s)) s s t)) ∧
  (∀ (e : Fin 16) (c : Fin 8) (w : BitVec 26) (s : State), (GvRuns e c s) → (w.extractLsb' 0 14 = 0) → ((gReg e c (wA w) s).toNat < sigCount s) → (sigType (gReg e c (wA w) s).toNat s ≠ 4) → ((ctx e c s).group.length < 64) → (exec (.sput e c w) s = .next (ctxSet e c { gvIssued (ctx e c s) with group := (ctx e c s).group ++ [⟨(gReg e c (wA w) s).toNat, (gReg e c (wD w) s).toNat, [], 0x9000 + e.val⟩] } s))) ∧
  (∀ (e : Fin 16) (c : Fin 8) (i v wr_ : Nat) (s : State), (GvRuns e c s) → ((ctx e c s).group = [⟨i, v, [], wr_⟩]) → (0x9000 ≤ wr_) → (sigOwner i s = none) → (sigType i s ≠ 4) → (∃ t, exec (.commit e c 0) s = .next t ∧ (ctx e c t).group = [] ∧ (ctx e c t).st = 2 ∧ (ctx e c t).stall = .access ∧ sigEnt i t = { val := sigFit (sigType i s) (sigWidth i s) v, time := shortNs s, status := putBit (putBit (sigEnt i s).status 0 true) 6 false, cnt := ((sigEnt i s).cnt + 1) % 65536, writer := wr_, arr := [] })) ∧
  (∀ (e : Fin 16) (c : Fin 8) (w : BitVec 26) (d : List Byte) (y : Ctx) (r : State) (st : Nat) (l : List Staged) (u : State) (s : State), (GvRuns e c s) → (w.extractLsb' 0 13 = 0) → (cfgHas C.sigPdu (gReg e c (wA w) s).toNat s = true) → (pduN (gReg e c (wA w) s).toNat 0x15 1 s = 0xFF) → (pduN (gReg e c (wA w) s).toNat 0x20 2 s = 0xFFFF) → (slotData (wSlot w) (ctx e c s) s = some d) → (slotFetch e c (wSlot w) (gReg e c (wB w) s).toNat (pduN (gReg e c (wA w) s).toNat 0 2 s) (gvIssued (ctx e c s)) s = (y, r)) → (pduUnpack (gReg e c (wA w) s).toNat (d.drop (gReg e c (wB w) s).toNat) r = (st, l, u)) → ((ctx e c s).group.length + l.length ≤ 64) → (∃ t, exec (.unpack e c w) s = .next t ∧ (∀ r, gReg e c r t = if r = wD w ∧ wD w ≠ 0 then BitVec.ofNat 64 st else gReg e c r s) ∧ t = ctxSet e c { y with regs := (ctx e c t).regs, st := 2, stall := .access, group := (ctx e c s).group ++ l } u)) ∧
  (∀ (e : Fin 16) (c : Fin 8) (w : BitVec 26) (f : Fr) (n : Nat) (d : List Byte) (u : State) (s : State), (GvRuns e c s) → (w.extractLsb' 0 13 = 0) → (cfgHas C.sigPdu (gReg e c (wA w) s).toNat s = true) → ((ctx e c s).slot (wSlot w) = .loc f n) → ((gReg e c (wB w) s).toNat + pduN (gReg e c (wA w) s).toNat 0 2 s ≤ (f.data.take (min n 4096)).length) → (pduPack (gReg e c (wA w) s).toNat s = (some d, u)) → (∃ t, exec (.pack e c w) s = .next t ∧ (∀ r, gReg e c r t = if r = wD w ∧ wD w ≠ 0 then 0 else gReg e c r s) ∧ (ctx e c t).slot (wSlot w) = .loc { f with data := spliceAt f.data (gReg e c (wB w) s).toNat d, pdu := some (gReg e c (wA w) s).toNat, bank := (snap (pduN (gReg e c (wA w) s).toNat 0x1D 1 s) s).cur } n ∧ (ctx e c t).st = 2 ∧ (ctx e c t).stall = .access ∧ t = ctxSet e c (ctx e c t) u)) ∧
  (∀ (e : Fin 16) (c : Fin 8) (w : BitVec 26) (d : List Byte) (f : Nat) (l : List Nat) (y : Ctx) (r : State) (s : State), (GvRuns e c s) → (w.extractLsb' 0 13 = 0) → (cfgHas C.sigPdu (gReg e c (wA w) s).toNat s = true) → (pduN (gReg e c (wA w) s).toNat 0x15 1 s ≠ 0xFF) → (cipServed (decide (e.val < 4)) s = true) → (authNoKey (gReg e c (wA w) s).toNat s = false) → (authNoSync (gReg e c (wA w) s).toNat s = false) → (slotData (wSlot w) (ctx e c s) s = some d) → ((gReg e c (wB w) s).toNat + securedLen (gReg e c (wA w) s).toNat s ≤ d.length) → (freshCands (gReg e c (wA w) s).toNat (slice d ((gReg e c (wB w) s).toNat + pduN (gReg e c (wA w) s).toNat 0 2 s) (authFb (gReg e c (wA w) s).toNat s)) s = f :: l) → (slotFetch e c (wSlot w) (gReg e c (wB w) s).toNat (securedLen (gReg e c (wA w) s).toNat s) (gvIssued (ctx e c s)) s = (y, r)) → (∃ t, exec (.secv e c w) s = .next t ∧ ctx e c t = { y with st := 2, stall := .cipher s.cip.nextId, dreg := wD w, dslot := (wSlot w), arg0 := (gReg e c (wA w) s).toNat, arg1 := f, arg2 := (gReg e c (wB w) s).toNat, sop := 2, cand := l } ∧ t.cip.nextId = s.cip.nextId + 1)) ∧
  (∀ (e : Fin 16) (c : Fin 8) (w : BitVec 26) (s : State), (GvRuns e c s) → (w.extractLsb' 0 13 = 0) → (cfgHas C.sigPdu (gReg e c (wA w) s).toNat s = true) → (pduN (gReg e c (wA w) s).toNat 0x15 1 s ≠ 0xFF) → (cipServed (decide (e.val < 4)) s = true) → (authNoKey (gReg e c (wA w) s).toNat s = false) → (authNoSync (gReg e c (wA w) s).toNat s = false) → (localRoom (wSlot w) (gReg e c (wB w) s).toNat (securedLen (gReg e c (wA w) s).toNat s) (ctx e c s) s = true) → ((pduRun (gReg e c (wA w) s).toNat s).lastF = none) → (∃ t, exec (.secg e c w) s = .next t ∧ ctx e c t = { gvIssued (ctx e c s) with st := 2, stall := .cipher s.cip.nextId, dreg := wD w, dslot := (wSlot w), arg0 := (gReg e c (wA w) s).toNat, arg1 := freshOwn (gReg e c (wA w) s).toNat s, arg2 := (gReg e c (wB w) s).toNat, sop := 3 } ∧ (pduRun (gReg e c (wA w) s).toNat t).lastF = some (freshOwn (gReg e c (wA w) s).toNat s) ∧ t.cip.nextId = s.cip.nextId + 1)) ∧
  (∀ (e : Fin 16) (c : Fin 8) (w : BitVec 26) (f : Fr) (n bus st : Nat) (urgent : Bool) (d : List Byte) (y : Ctx) (r u : State) (s : State), (GvRuns e c s) → (w.extractLsb' 0 13 = 0) → (cfgHas C.sigCarrier (gReg e c (wA w) s).toNat s = true) → (sourceWaits false 7 s = false) → (slotFr (wSlot w) (ctx e c s) s = some (f, n)) → (slotData (wSlot w) (ctx e c s) s = some d) → (slotFetch e c (wSlot w) 0 d.length (gvIssued (ctx e c s)) s = (y, r)) → (acfRoute f.src (gReg e c (wA w) s).toNat (canOfBytes d) r = (bus, urgent)) → (carAdd (gReg e c (wA w) s).toNat bus f.ts urgent (canOfBytes d) r = (st, u)) → (∃ t, exec (.acfadd e c w) s = .next t ∧ (∀ r, gReg e c r t = if r = wD w ∧ wD w ≠ 0 then BitVec.ofNat 64 st else gReg e c r s) ∧ t = ctxSet e c { y with regs := (ctx e c t).regs } u))

/-- For a context that issues: POP takes the head of one of its queues into an empty slot with status 0; PUSH of a local
frame that is admitted stalls until the frame is written, and one of a buffered frame links it at once and keeps or empties
the slot; FNEW creates a zero-filled local frame where the pool has room; FREL empties a slot; FGET and FPUT read and write
a descriptor field; CIPH submits a request and waits; TIME reads the chosen time; TARM arms and disarms a timer; RAISE
queues a message; HOOK and HRET enter and leave a hook with its budget; LATCH latches a set; CNT counts, saturating; END
frees the context and counts the frames it still held. (R118, R319, R326, R333, R334, R335, R336, R338) -/
def Obligations.GraverQueuesAndControlComplete : Prop :=
  (∀ (e : Fin 16) (c : Fin 8) (w : BitVec 26) (n : QEnt) (l : List QEnt) (s : State), (GvRuns e c s) → (w.extractLsb' 0 13 = 0) → (944 + 5 * e.val ≤ (gReg e c (wA w) s).toNat) → ((gReg e c (wA w) s).toNat ≤ 948 + 5 * e.val) → ((ctx e c s).slot (wSlot w) = .empty) → ((qu (gReg e c (wA w) s).toNat s).ents = n :: l) → (∃ t, exec (.pop e c w) s = .next t ∧ (∀ r, gReg e c r t = if r = wD w ∧ wD w ≠ 0 then 0 else gReg e c r s) ∧ (ctx e c t).slot (wSlot w) = .buf n.fid [] ∧ (ctx e c t).st = 1 ∧ (qu (gReg e c (wA w) s).toNat t).ents = l)) ∧
  (∀ (e : Fin 16) (c : Fin 8) (w : BitVec 26) (f : Fr) (len n : Nat) (u : State) (s : State), (GvRuns e c s) → (w.extractLsb' 0 12 = 0) → (pushFault e (gReg e c (wA w) s).toNat s = none) → (sourceWaits (isRsvQueue (gReg e c (wA w) s).toNat) 7 s = false) → ((ctx e c s).slot (wSlot w) = .loc f len) → (submitAs true 7 (pushFr (gReg e c (wA w) s).toNat len f) s = (some n, u)) → (∃ t, exec (.push e c w) s = .next t ∧ ctx e c t = { gvIssued (ctx e c s) with st := 2, stall := .write n, dreg := wD w, dslot := (wSlot w), arg0 := b2n (w.getLsbD 12) } ∧ t.qm = u.qm)) ∧
  (∀ (e : Fin 16) (c : Fin 8) (w : BitVec 26) (f : Nat) (got : List Nat) (u : State) (s : State), (GvRuns e c s) → (w.extractLsb' 0 12 = 0) → (pushFault e (gReg e c (wA w) s).toNat s = none) → (isRsvQueue (gReg e c (wA w) s).toNat = false) → ((ctx e c s).slot (wSlot w) = .buf f got) → (linkMore f (gReg e c (wA w) s).toNat s = (true, u)) → (∃ t, exec (.push e c w) s = .next t ∧ (∀ r, gReg e c r t = if r = wD w ∧ wD w ≠ 0 then 0 else gReg e c r s) ∧ (ctx e c t).st = 1 ∧ (ctx e c t).slot (wSlot w) = (if w.getLsbD 12 then .buf f got else .empty))) ∧
  (∀ (e : Fin 16) (c : Fin 8) (w : BitVec 26) (s : State), (GvRuns e c s) → (w.extractLsb' 0 12 = 0) → (w.getLsbD 12 = true → e.val < 4) → (0 < (gReg e c (wA w) s).toNat) → ((gReg e c (wA w) s).toNat ≤ 4096) → ((ctx e c s).slot (wSlot w) = .empty) → (cellsFree (w.getLsbD 12) (cellsOf (gReg e c (wA w) s).toNat) s = true) → (∃ t, exec (.fnew e c w) s = .next t ∧ (∀ r, gReg e c r t = if r = wD w ∧ wD w ≠ 0 then 0 else gReg e c r s) ∧ t = ctxSet e c (({ gvIssued (ctx e c s) with regs := (ctx e c t).regs } : Ctx).setSlot (wSlot w) (.loc { data := zeros (gReg e c (wA w) s).toNat, src := 7 * 4096 + e.val, rsv := w.getLsbD 12 } (gReg e c (wA w) s).toNat)) s)) ∧
  (∀ (e : Fin 16) (c : Fin 8) (w : BitVec 26) (s : State), (GvRuns e c s) → (w.extractLsb' 14 12 = 0) → (w.extractLsb' 0 13 = 0) → ((ctx e c s).slot (wSlot w) ≠ .empty) → (exec (.frel e c w) s = .next (ctxSet e c ((gvIssued (ctx e c s)).setSlot (wSlot w) .empty) (slotRelease ((ctx e c s).slot (wSlot w)) s)))) ∧
  (∀ (e : Fin 16) (c : Fin 8) (w : BitVec 26) (f : Fr) (n v : Nat) (s : State), (GvRuns e c s) → (slotFr (w.extractLsb' 17 1).toNat (ctx e c s) s = some (f, n)) → (frField (w.extractLsb' 0 4).toNat n f = some v) → (∃ t, exec (.fget e c w) s = .next t ∧ GvWrote e c (wD w) (BitVec.ofNat 64 v) s t)) ∧
  (∀ (e : Fin 16) (c : Fin 8) (w : BitVec 26) (f g : Fr) (n : Nat) (s : State), (GvRuns e c s) → ((ctx e c s).slot (w.extractLsb' 17 1).toNat = .loc f n) → (w.extractLsb' 0 4 ≠ 0) → (frPut (w.extractLsb' 0 4).toNat (gReg e c (wA w) s).toNat f = some g) → (exec (.fput e c w) s = .next (ctxSet e c ((gvIssued (ctx e c s)).setSlot (w.extractLsb' 17 1).toNat (.loc g n)) s))) ∧
  (∀ (e : Fin 16) (c : Fin 8) (w : BitVec 26) (y : Ctx) (r : State) (s : State), (GvRuns e c s) → (w.extractLsb' 0 14 = 0) → ((gReg e c (wA w) s).toNat + 64 ≤ 32768) → (cipServed (decide (e.val < 4)) s = true) → ((if byteAt (dmemBytes e (gReg e c (wA w) s).toNat 64 s) 1 = 1 ∨ byteAt (dmemBytes e (gReg e c (wA w) s).toNat 64 s) 1 = 2 then slotFetch e c (byteAt (dmemBytes e (gReg e c (wA w) s).toNat 64 s) 1 - 1) (leAt (dmemBytes e (gReg e c (wA w) s).toNat 64 s) 8 4) (leAt (dmemBytes e (gReg e c (wA w) s).toNat 64 s) 0x12 2 + leAt (dmemBytes e (gReg e c (wA w) s).toNat 64 s) 0x10 2) (gvIssued (ctx e c s)) s else (gvIssued (ctx e c s), s)) = (y, r)) → (∃ t, exec (.ciph e c w) s = .next t ∧ ctx e c t = { y with st := 2, stall := .cipher s.cip.nextId, dreg := wD w, arg0 := (gReg e c (wA w) s).toNat, sop := 1 } ∧ t.cip.nextId = s.cip.nextId + 1)) ∧
  (∀ (e : Fin 16) (c : Fin 8) (w : BitVec 26) (s : State), (GvRuns e c s) → (w.extractLsb' 0 2 ≠ 3) → (∃ t, exec (.timeOp e c w) s = .next t ∧ GvWrote e c (wD w) (BitVec.ofNat 64 (match (w.extractLsb' 0 2).toNat with | 0 => shortNs s | 1 => s.time.loc | _ => domState 0 s + 2 ^ 32 * errNow 0 s)) s t)) ∧
  (∀ (e : Fin 16) (c : Fin 8) (w : BitVec 26) (s : State), (GvRuns e c s) → (∃ t, exec (.tarm e c w) s = .next t ∧ (eng e t).timers = (if (gReg e c (wA w) s).toNat = 0 then terase (eng e s).timers (w.extractLsb' 0 4).toNat else tput (eng e s).timers (w.extractLsb' 0 4).toNat (gReg e c (wA w) s).toNat) ∧ ctx e c t = gvIssued (ctx e c s) ∧ t = { s with regs := t.regs, grv := t.grv })) ∧
  (∀ (e : Fin 16) (c : Fin 8) (w : BitVec 26) (s : State), (GvRuns e c s) → (w.extractLsb' 0 14 = 0) → ((gReg e c (wA w) s).toNat < 16) → ((eng (gReg e c (wA w) s).toNat s).msgs.length < 32) → (∃ t, exec (.raise e c w) s = .next t ∧ (eng (gReg e c (wA w) s).toNat t).msgs = (eng (gReg e c (wA w) s).toNat s).msgs ++ [⟨8, e, 0, (gReg e c (wB w) s).toNat % 2 ^ 32, shortNs s⟩] ∧ (∀ r, gReg e c r t = if r = wD w ∧ wD w ≠ 0 then 0 else gReg e c r s) ∧ t = { s with regs := t.regs, grv := t.grv })) ∧
  (∀ (e : Fin 16) (c : Fin 8) (w : BitVec 26) (s : State), (GvRuns e c s) → ((ctx e c s).hook = none) → (cfgHas C.grvHook (w.extractLsb' 0 8).toNat s = true) → (cfgN C.grvHook (w.extractLsb' 0 8).toNat 0 2 s < (eng e s).count) → (exec (.hook e c w) s = .next (ctxSet e c { gvIssued (ctx e c s) with pc := cfgN C.grvHook (w.extractLsb' 0 8).toNat 0 2 s, hook := some ((gvIssued (ctx e c s)).pc, 0, cfgN C.grvHook (w.extractLsb' 0 8).toNat 2 2 s) } s))) ∧
  (∀ (e : Fin 16) (c : Fin 8) (h : Nat × Nat × Nat) (s : State), (GvRuns e c s) → ((ctx e c s).hook = some h) → (exec (.hret e c 0) s = .next (ctxSet e c { gvIssued (ctx e c s) with pc := h.1, hook := none } s))) ∧
  (∀ (e : Fin 16) (c : Fin 8) (w : BitVec 26) (u : State) (s : State), (GvRuns e c s) → (w.extractLsb' 0 14 = 0) → (e.val < 4) → ((ctx e c s).ev.kind = 4) → ((ctx e c s).ev.sub ≠ 1) → (cfgHas C.sigSnap (gReg e c (wA w) s).toNat s = true) → (snapLatch (gReg e c (wA w) s).toNat (ctx e c s).ev.time s = (true, u)) → (∃ t, exec (.latch e c w) s = .next t ∧ GvAccessed e c (wD w) 0 s u t)) ∧
  (∀ (e : Fin 16) (c : Fin 8) (w : BitVec 26) (s : State), (GvRuns e c s) → (∃ t, exec (.cnt e c w) s = .next t ∧ tget 0 (eng e t).users (w.extractLsb' 0 6).toNat = min (tget 0 (eng e s).users (w.extractLsb' 0 6).toNat + 1) 0xFFFFFFFF ∧ ctx e c t = gvIssued (ctx e c s) ∧ t = { s with regs := t.regs, grv := t.grv })) ∧
  (∀ (e : Fin 16) (c : Fin 8) (s : State), (GvRuns e c s) → (∃ t, exec (.endHandler e c 0) s = .next t ∧ ctx e c t = {} ∧ rd (F.GRV_GVn_MISC_ENDREL.u e) t = min (rd (F.GRV_GVn_MISC_ENDREL.u e) s + (([(ctx e c s).f0, (ctx e c s).f1] : List Slot).filter (· ≠ .empty)).length) (2 ^ F.GRV_GVn_MISC_ENDREL.w - 1)))

/-- WINDOW makes the window the core's current one and shows its slot. SLICE of a ready slot whose worst case fits, with
both passes agreeing and no stores, commits: the task takes the pass's checkpoint and one more commit; one that does not fit
is skipped and counted. An uncorrectable ITCM error fences the core with cause 3. CORE_RELOAD with agreeing digests and a
passed test ends the fence. An instruction of pass A advances the running slice by the RISC-V step; WFI and ECALL end it.
With the CTL domain running: WAIT_END gives the first frame of a masked queue to the lowest free holder. POP_k answers the
holder, PUSH_h links the frame, REL_h empties the holder. (R346, R348, R350, R351, R352, R353, R361, R362) -/
def Obligations.ControlCoreEventsComplete : Prop :=
  (∀ (n : Fin 4) (w : Fin 128) (s : State), ((core n s).fenced = false) → ((core n s).a = none) → (s.pwr.mode ≤ 1) → (w.val ∈ winsOf n s) → ((winLeft n w s).isSome = true) → (winN w 7 1 s < 16) → (∃ t, exec (.window n w) s = .next t ∧ core n t = { core n s with cur := some w.val } ∧ rd (F.CTL_CCn_STAT_SLOT.u n) t = winN w 7 1 s ∧ RegsKept [F.CTL_CCn_STAT_SLOT.u n, F.CTL_CCn_STAT_WINDOW.u n] s t ∧ t = { s with regs := t.regs, ctl := t.ctl })) ∧
  (∀ (n : Fin 4) (i : Nat) (p0 p b : Pass) (s0 s1 s3 : State) (s : State), ((core n s).fenced = false) → ((core n s).halted = false) → (s.pwr.mode ≤ 1) → ((core n s).a = none) → (winNow n s = some i) → (slotRuns n (curSlot n s) s = true) → (sliceFits n (curSlot n s) i s = true) → (passBegin n false (task n (curSlot n s) s).ctx s = (p0, s0)) → (runA n (curSlot n s) (slotN n (curSlot n s) 8 4 s0) p0 s0 = (p, s1)) → (rdB (F.DBG_CCn_BP_EN.u n) s1 = false) → ((core n s1).suspended = false) → (finishB n (curSlot n s) p (coreSet n { core n s1 with a := some p } s1) = (b, s3)) → (firstVerdict .clean p b = none) → (p.buf = []) → (p.wfi = false) → ((core n s3).haltReq = false) → (∃ t, exec (.slice n .clean) s = .next t ∧ (task n (curSlot n s) t).ctx = p.ctx ∧ (task n (curSlot n s) t).commits = min ((task n (curSlot n s) s3).commits + 1) 0xFFFFFFFF ∧ (core n t).a = none)) ∧
  (∀ (n : Fin 4) (u : SliceUpset) (i : Nat) (s : State), ((core n s).fenced = false) → ((core n s).halted = false) → (s.pwr.mode ≤ 1) → (u ≠ .itcm) → ((core n s).a = none) → (winNow n s = some i) → (slotRuns n (curSlot n s) s = true) → (sliceFits n (curSlot n s) i s = false) → (∃ t, exec (.slice n u) s = .next t ∧ (task n (curSlot n s) t).skips = min ((task n (curSlot n s) s).skips + 1) 0xFFFF ∧ rd (F.CTL_CCn_SKIP_COUNT.u n) t = min (rd (F.CTL_CCn_SKIP_COUNT.u n) s + 1) (2 ^ F.CTL_CCn_SKIP_COUNT.w - 1) ∧ t = { s with regs := t.regs, ctl := t.ctl })) ∧
  (∀ (n : Fin 4) (i : Nat) (s : State), ((core n s).fenced = false) → ((core n s).halted = false) → (s.pwr.mode ≤ 1) → (winNow n s = some i) → (slotRuns n (curSlot n s) s = true) → (slotN n (curSlot n s) 4 1 s = 1) → (∃ t, exec (.slice n .itcm) s = .next t ∧ (core n t).fenced = true ∧ rd (F.CTL_CCn_FENCE_CAUSE.u n) t = 3 ∧ (core n t).a = none)) ∧
  (∀ (n : Fin 4) (s : State), (awake s = true) → ((core n s).fenced = true) → (domBusy .ctl s = false) → (slotN n (rd (F.CTL_CCn_FENCE_SLOT.u n) s) 4 1 s ≤ 1) → ((coreImages n s).all (fun i => match tfind (activeImages 0x12 s) i with | some (d, _) => tfind s.sys.imgCtl i == some d | none => false) = true) → (∃ t, exec (.coreReload n true) s = .next t ∧ (core n t).fenced = false ∧ (core n t).a = none ∧ rd (F.CTL_CCn_STAT_SELFTEST_FAIL.u n) t = 0 ∧ bit (rd F.CTL_SELFTEST_TESTED t) n = true)) ∧
  (∀ (n : Fin 4) (a b : Pass) (u : State) (s : State), ((core n s).fenced = false) → ((core n s).halted = false) → (s.pwr.mode ≤ 1) → ((core n s).a = some a) → (passRuns n (curSlot n s) a s = true) → (rvStep n false a s = (b, u)) → (rdB (F.DBG_CCn_BP_EN.u n) u = false) → (exec (.rv32imcInstruction n) s = .next (coreSet n { core n u with a := some b } u))) ∧
  (∀ (n : Fin 4) (a b : Pass) (w : Nat) (u : State) (s : State), ((core n s).fenced = false) → ((core n s).halted = false) → (s.pwr.mode ≤ 1) → ((core n s).a = some a) → (passRuns n (curSlot n s) a s = true) → (rvFetch n a.ctx.pc { a with n := a.n + 1 } s = some w) → (rvFetch n a.ctx.pc a s = some w) → ((rvDecode w).1 = .wfi) → (rdB (F.DBG_CCn_BP_EN.u n) s = false) → ((core n s).suspended = false) → (finishB n (curSlot n s) ((Pass.goto (a.ctx.pc + (rvDecode w).2) { a with n := a.n + 1 }).stop true) (coreSet n { core n s with a := some ((Pass.goto (a.ctx.pc + (rvDecode w).2) { a with n := a.n + 1 }).stop true) } s) = (b, u)) → (firstVerdict .clean ((Pass.goto (a.ctx.pc + (rvDecode w).2) { a with n := a.n + 1 }).stop true) b = none) → (exec (.wfi n) s = .next (sliceCommit n (curSlot n s) false ((Pass.goto (a.ctx.pc + (rvDecode w).2) { a with n := a.n + 1 }).stop true) u))) ∧
  (∀ (n : Fin 4) (a b : Pass) (w : Nat) (u : State) (s : State), ((core n s).fenced = false) → ((core n s).halted = false) → (s.pwr.mode ≤ 1) → ((core n s).a = some a) → (passRuns n (curSlot n s) a s = true) → (rvFetch n a.ctx.pc { a with n := a.n + 1 } s = some w) → (rvFetch n a.ctx.pc a s = some w) → ((rvDecode w).1 = .ecall) → (rdB (F.DBG_CCn_BP_EN.u n) s = false) → ((core n s).suspended = false) → (finishB n (curSlot n s) ((rvTrap false (if a.ctx.user then 8 else 11) 0 { a with n := a.n + 1 }).stop false) (coreSet n { core n s with a := some ((rvTrap false (if a.ctx.user then 8 else 11) 0 { a with n := a.n + 1 }).stop false) } s) = (b, u)) → (firstVerdict .clean ((rvTrap false (if a.ctx.user then 8 else 11) 0 { a with n := a.n + 1 }).stop false) b = none) → (exec (.ecall n) s = .next (sliceCommit n (curSlot n s) false ((rvTrap false (if a.ctx.user then 8 else 11) 0 { a with n := a.n + 1 }).stop false) u))) ∧
  (∀ (n : Fin 4) (k : Fin 16) (q h : Nat) (e : QEnt) (l : List QEnt) (s : State), ((task n k s).st = 2) → (((bitList (task n k s).waitQ 8).map fun j => 736 + 8 * n.val + j).find? (fun q => headWhole q s && (holderFree n s).isSome) = some q) → (holderFree n s = some h) → ((qu q s).ents = e :: l) → (∃ t, exec (.waitEnd n k) s = .next t ∧ (task n k t).st = 1 ∧ (task n k t).outcome = some h ∧ (task n k t).waitQ = 0 ∧ tfind (core n t).holders h = some e.fid ∧ (qu q t).ents = l)) ∧
  (∀ (n : Fin 4) (k : Fin 8) (h : Nat) (e : QEnt) (l : List QEnt) (s : State), ((core n s).fenced = false) → (domRuns .ctl s = true) → (holderFree n s = some h) → (headWhole (736 + 8 * n + k) s = true) → ((qu (736 + 8 * n + k) s).ents = e :: l) → (∃ t, exec (.popK n k) s = .next t ∧ t.out = .resp (leBytes 4 h) :: s.out ∧ tfind (core n t).holders h = some e.fid ∧ (qu (736 + 8 * n + k) t).ents = l)) ∧
  (∀ (n : Fin 4) (k : Fin 8) (s : State), ((core n s).fenced = false) → (domRuns .ctl s = true) → ((qu (736 + 8 * n + k) s).ents = [] ∨ holderFree n s = none) → (∃ t, exec (.popK n k) s = .next t ∧ t = { s with out := .resp (leBytes 4 (2 ^ 31)) :: s.out })) ∧
  (∀ (n : Fin 4) (h : Fin 16) (v : Word) (f q : Nat) (x : Nat × Bool × Nat) (l : List (Nat × Bool × Nat)) (u : State) (s : State), ((core n s).fenced = false) → (domRuns .ctl s = true) → (tfind (core n s).holders h = some f) → (v.toNat % 65536 = q) → (q < 256) → (admitAll false (fr f s).need (fr f s).cls ((fr f s).noEvict || (fr f s).exempt) [(q, false, 0)] s = (x :: l, u)) → (entriesUsed u < 262144) → (mirrorDests none 1 255 none [q] u = []) → (bit v.toNat 16 = true) → (∃ t, exec (.pushH n h v) s = .next t ∧ (qu q t).ents = (qu q u).ents ++ [{ fid := f }] ∧ (fr f t).refs = (fr f u).refs + 1 ∧ tfind (core n t).holders h = some f)) ∧
  (∀ (n : Fin 4) (h : Fin 16) (v : Word) (f q : Nat) (x : Nat × Bool × Nat) (l : List (Nat × Bool × Nat)) (u : State) (s : State), ((core n s).fenced = false) → (domRuns .ctl s = true) → (tfind (core n s).holders h = some f) → (v.toNat % 65536 = q) → (q < 256) → (admitAll false (fr f s).need (fr f s).cls ((fr f s).noEvict || (fr f s).exempt) [(q, false, 0)] s = (x :: l, u)) → (entriesUsed u < 262144) → (mirrorDests none 1 255 none [q] u = []) → (bit v.toNat 16 = false) → ((tsorted (core n u).holders) = true) → (0 < (fr f u).refs) → (∃ t, exec (.pushH n h v) s = .next t ∧ (qu q t).ents = (qu q u).ents ++ [{ fid := f }] ∧ (fr f t).refs = (fr f u).refs ∧ tfind (core n t).holders h = none)) ∧
  (∀ (n : Fin 4) (h : Fin 16) (f : Nat) (s : State), ((core n s).fenced = false) → (domRuns .ctl s = true) → (tfind (core n s).holders h = some f) → (tsorted (core n s).holders = true) → (∃ t, exec (.relH n h) s = .next t ∧ tfind (core n t).holders h = none ∧ (∀ k, k ≠ h.val → tfind (core n t).holders k = tfind (core n s).holders k)))

/-- For every arithmetic operation of RV32IM (add, subtract, shifts, compares, logic, multiply and divide) and all 32-bit
operands: the operation of pass B on the operands shifted left by 4 with copies of bit 35 above, shifted right by 4 on exit,
equals the operation of pass A; and the value that pass B writes has bits 3:0 zero and bits 39:36 equal to bit 35, so that
no comparison of the two passes reports a mismatch where the hardware computes right. Loads, stores and immediates pass
through the same two conversions, which undo each other. (R351, R352, R353) -/
def Obligations.PassBComputesWhatPassAComputes : Prop :=
  (∀ (op : AluOp) (a b : Nat), (a < 2 ^ 32) → (b < 2 ^ 32) → (shiftOut (alu true op (shiftIn a) (shiftIn b)) = alu false op a b ∧ formOk (alu true op (shiftIn a) (shiftIn b)) = true)) ∧
  (∀ (a : Nat), (a < 2 ^ 32) → (shiftOut (shiftIn a) = a ∧ formOk (shiftIn a) = true ∧ shiftIn a < 2 ^ 40))

/-- Each operation of pass A on two 32-bit words gives the word that RV32IM gives: addition, subtraction and multiplication
modulo 2^32, shifts by the low five bits, signed and unsigned compares, bitwise logic, the high halves of the signed and
unsigned products, and quotients and remainders with the results for a zero divisor. The encodings and results are those of
the RISC-V architecture, to which the spec refers (assumption log entry 20). (R344, R352) -/
def Obligations.RvOperationsAreRv32im : Prop :=
  (∀ (a b : BitVec 32), (aluA .add a.toNat b.toNat = (a + b).toNat ∧ aluA .sub a.toNat b.toNat = (a - b).toNat ∧ aluA .mul a.toNat b.toNat = (a * b).toNat ∧ aluA .mulhu a.toNat b.toNat = ((a.setWidth 64 * b.setWidth 64).extractLsb' 32 32).toNat ∧ aluA .mulh a.toNat b.toNat = ((a.signExtend 64 * b.signExtend 64).extractLsb' 32 32).toNat ∧ aluA .mulhsu a.toNat b.toNat = ((a.signExtend 64 * b.setWidth 64).extractLsb' 32 32).toNat)) ∧
  (∀ (a b : BitVec 32), (aluA .and a.toNat b.toNat = (a &&& b).toNat ∧ aluA .or a.toNat b.toNat = (a ||| b).toNat ∧ aluA .xor a.toNat b.toNat = (a ^^^ b).toNat ∧ aluA .sll a.toNat b.toNat = (a <<< (b.toNat % 32)).toNat ∧ aluA .srl a.toNat b.toNat = (a >>> (b.toNat % 32)).toNat ∧ aluA .sra a.toNat b.toNat = (a.sshiftRight (b.toNat % 32)).toNat ∧ aluA .slt a.toNat b.toNat = (if a.slt b then 1 else 0) ∧ aluA .sltu a.toNat b.toNat = (if a.ult b then 1 else 0))) ∧
  (∀ (a b : BitVec 32), (aluA .divu a.toNat b.toNat = (if b = 0 then 2 ^ 32 - 1 else (a / b).toNat) ∧ aluA .remu a.toNat b.toNat = (if b = 0 then a.toNat else (a % b).toNat) ∧ aluA .div a.toNat b.toNat = (if b = 0 then 2 ^ 32 - 1 else (a.sdiv b).toNat) ∧ aluA .rem a.toNat b.toNat = (if b = 0 then a.toNat else (a.srem b).toNat)))

/-- For a user that may reach the vault and a command that the life-cycle state allows: KEY_UPDATE of an accepted message,
with the energy there, writes the inactive copy of its slot and restarts its use count, and a refused one writes no slot.
The uses that a command makes of limited keys are counted, a reservation being there or written. KEY_DERIVE and ECDH put a
derived key into a free volatile slot; VS_ZEROISE clears one or all. SLOT_INFO, GET_IDENTITY and SIGN_CHALLENGE answer what
the rules list. An accepted LC_REQUEST enters its state and takes its counter, and a refused one changes neither. An
accepted token opens its cores, a refused one is counted. CERT_INSTALL stores a well-formed chain of DER certificates whose
first holds the device's own key. L2_RELEASE ends L2 once its release time has passed with every source quiet. LC_ENTER_MFG
leaves MANUFACTURING with an identity, LC_SCRAP leaves SCRAPPED with no keys. (R366, R369, R370, R371, R372, R373, R375,
R378, R379, R382, R384, R393) -/
def Obligations.VaultCommandsComplete : Prop :=
  (∀ (who : MboxUser) (args : List Byte) (s : State), (args.length ≤ 4096) → (VaultAdmits who 1 s) → (∃ t, exec (.keyUpdate who args) s = .next t ∧
      ((updCheck args s).reason = 0 → 60 ≤ storedEnergy s → (kslot (leAt args 6 2) t).count = 0 ∧ (if (kslot (leAt args 6 2) s).a.isSome && !(kslot (leAt args 6 2) s).useB then (kslot (leAt args 6 2) t).b else (kslot (leAt args 6 2) t).a).map (fun y => (y.key, y.limit, y.counter)) = some ((updCheck args s).key, leAt args 0x44 4, leAt args 0x38 8)) ∧
      ((updCheck args s).reason ≠ 0 → t.key.slots = s.key.slots) ∧ t.key.vols = s.key.vols ∧ t.key.lcCount = s.key.lcCount)) ∧
  (∀ (who : MboxUser) (args : List Byte) (p : KeyCopy) (s : State), (args.length ≤ 4096) → (VaultAdmits who 2 s) → (args.length = 11 + byteAt args 9 + byteAt args (10 + byteAt args 9)) → (byteAt args 2 < 64) → (0 < byteAt args 9 ∧ byteAt args 9 ≤ 32) → (0 < byteAt args (10 + byteAt args 9) ∧ byteAt args (10 + byteAt args 9) ≤ 32) → ((leAt args 7 2, aSize (derivedAttrs (leAt args 3 4))) ∈ [(128, 0), (256, 1), (512, 2)]) → (attrsOk (derivedAttrs (leAt args 3 4)) = true) → (slotKey (leAt args 0 2) s = some p) → (useStatus (leAt args 0 2) (fun a => bit a 7 && bit a (ownerBit who)) s = .ok) → (clearBits (bits (derivedAttrs (leAt args 3 4)) 2 8) (bits p.attrs 2 8) = 0) → (clearBits (bits (derivedAttrs (leAt args 3 4)) 16 5) (bits p.attrs 16 5) = 0) → (tfind s.key.vols (byteAt args 2) = none) → ((useCount (leAt args 0 2) s).1 = true) → (∃ t, exec (.keyDerive who args) s = .next t ∧ tfind t.key.vols (byteAt args 2) = some { key := vaultKdf p.key (slice args 10 (byteAt args 9)) (slice args (11 + byteAt args 9) (byteAt args (10 + byteAt args 9))) (leAt args 7 2), attrs := derivedAttrs (leAt args 3 4) } ∧ VaultAnswers who 2 .ok [] s t ∧ t.key.slots = (useCount (leAt args 0 2) s).2.key.slots)) ∧
  (∀ (who : MboxUser) (args : List Byte) (s : State), (VaultAdmits who 3 s) → (args.length = 70) → (byteAt args 0 < 64) → (aSize (derivedAttrs (leAt args 1 4)) < 3) → (attrsOk (derivedAttrs (leAt args 1 4)) = true) → (tamperBlocks s = false) → (tfind s.key.vols (byteAt args 0) = none) → (∃ t, exec (.ecdh who args) s = .next t ∧
      (ecdhSecret (randScalar s).1 (slice args 5 65) = none → t.key.vols = s.key.vols ∧ VaultAnswers who 3 .fault [] s t) ∧
      (ecdhSecret (randScalar s).1 (slice args 5 65) ≠ none → (tfind t.key.vols (byteAt args 0)).map (·.attrs) = some (derivedAttrs (leAt args 1 4)) ∧ VaultAnswers who 3 .ok (ecPublic (randScalar s).1) s t))) ∧
  (∀ (who : MboxUser) (n : Byte) (s : State), (VaultAdmits who 4 s) → (n.toNat < 64) → (∃ t, exec (.vsZeroise who [n]) s = .next t ∧ t.key.vols = terase s.key.vols n.toNat ∧ t.key.slots = s.key.slots ∧ VaultAnswers who 4 .ok [] s t)) ∧
  (∀ (who : MboxUser) (s : State), (VaultAdmits who 4 s) → (∃ t, exec (.vsZeroise who [0xFF]) s = .next t ∧ t.key.vols = [] ∧ t.key.slots = s.key.slots ∧ VaultAnswers who 4 .ok [] s t)) ∧
  (∀ (who : MboxUser) (args : List Byte) (x : KeyCopy) (s : State), (VaultAdmits who 5 s) → (args.length = 2) → (leAt args 0 2 < 0x140) → (slotCopy (leAt args 0 2) s = some x) → (x.key ≠ []) → (∃ t, exec (.slotInfo who args) s = .next t ∧ VaultAnswers who 5 .ok (leBytes 4 x.attrs ++ leBytes 4 x.limit ++ leBytes 4 (kslot (leAt args 0 2) s).count ++ leBytes 8 x.counter ++ leBytes 1 (if leAt args 0 2 < 256 then b2n (kslot (leAt args 0 2) s).useB else 0) ++ leBytes 1 (if slotBlocked (leAt args 0 2) s then 2 else 1)) s t ∧ t.key.slots = s.key.slots ∧ t.key.vols = s.key.vols)) ∧
  (∀ (who : MboxUser) (args : List Byte) (s : State), (VaultAdmits who 6 s) → (args.length = 2) → (leAt args 0 2 ≤ 4095) → (∃ t, exec (.getIdentity who args) s = .next t ∧ VaultAnswers who 6 .ok (uidBytes ++ slice (identPublic s) 0 65 ++ zeros 1 ++ leBytes 2 s.key.cert.length ++ leBytes 2 (leAt args 0 2) ++ (s.key.cert.drop (leAt args 0 2)).take 4000) s t ∧ t.key.slots = s.key.slots)) ∧
  (∀ (who : MboxUser) (args : List Byte) (d : Nat) (s : State), (VaultAdmits who 7 s) → (args.length = 32) → (s.key.ident = some d) → (∃ t, exec (.signChallenge who args) s = .next t ∧ VaultAnswers who 7 .ok (ecdsaSign d (randScalar s).1 (sha256 (ofNats [0x43, 0x6C, 0x65, 0x72, 0x65, 0x6E, 0x39, 0x36, 0x31, 0x36, 0x2D, 0x63, 0x68, 0x61, 0x6C, 0] ++ args))) s t ∧ t.key.slots = s.key.slots)) ∧
  (∀ (who : MboxUser) (args : List Byte) (s : State), (args.length ≤ 4096) → (VaultAdmits who 8 s) → (∃ t, exec (.lcRequest who args) s = .next t ∧
      (byteAt args 7 ≤ 3 → leAt args 0x1C 4 = 0 → signedStatus 0x96164C43 (8 + byteAt args 7) args s = .ok → s.key.lcCount < leAt args 0x18 4 → lcAllowed (byteAt args 6) s = true → 60 ≤ storedEnergy s → t.mram.lc = byteAt args 6 ∧ t.key.lcCount = leAt args 0x18 4 ∧ t.sys.request.isSome = true) ∧
      (signedStatus 0x96164C43 (8 + byteAt args 7) args s ≠ .ok → t.mram.lc = s.mram.lc ∧ t.key.lcCount = s.key.lcCount))) ∧
  (∀ (who : MboxUser) (args : List Byte) (s : State), (args.length ≤ 4096) → (VaultAdmits who 9 s) → (∃ t, exec (.debugToken who args) s = .next t ∧
      (signedStatus 0x96164454 3 args s = .ok → leAt args 0x18 4 = s.mram.pcycle → byteAt args 7 = 0 → byteAt args 6 < 16 → leAt args 0x1C 4 = 0 → (useCount 3 s).1 = true → rd F.CTL_DEBUG_OPEN t = (rd F.CTL_DEBUG_OPEN s ||| byteAt args 6) % 2 ^ F.CTL_DEBUG_OPEN.w) ∧
      (signedStatus 0x96164454 3 args s ≠ .ok → t.key.refusedTokens = s.key.refusedTokens + 1 ∧ rd F.CTL_DEBUG_OPEN t = rd F.CTL_DEBUG_OPEN s))) ∧
  (∀ (who : MboxUser) (args : List Byte) (s : State), (VaultAdmits who 10 s) → (certOk args s = true) → (∃ t, exec (.certInstall who args true) s = .next t ∧ t.key.cert = args ∧ t.key.slots = s.key.slots ∧ VaultAnswers who 10 .ok [] s t)) ∧
  (∀ (who : MboxUser) (s : State), (VaultAdmits who 11 s) → (60 ≤ storedEnergy s) → (∃ t, exec (.lcEnterMfg who) s = .next t ∧ t.mram.lc = 1 ∧ t.key.ident.isSome = true ∧ t.key.lcCount = s.key.lcCount ∧ t.sys.request.isSome = true)) ∧
  (∀ (who : MboxUser) (s : State), (VaultAdmits who 12 s) → (60 ≤ storedEnergy s) → (∃ t, exec (.lcScrap who) s = .next t ∧ t.mram.lc = 5 ∧ t.key.ident = none ∧ t.key.cert = [] ∧ t.key.slots = [] ∧ t.key.vols = [] ∧ t.sys.request.isSome = true)) ∧
  (∀ (src : Fin 6) (s : State), (s.pwr.mode ≠ 4) → (src.val < 4 ∨ s.pwr.mode ≠ 3) → (∃ t, exec (.tamperDetection src) s = .next t ∧ rd F.KEY_TAMPER_STAT_ACTIVE t = putBit (rd F.KEY_TAMPER_STAT_ACTIVE s) src true % 2 ^ F.KEY_TAMPER_STAT_ACTIVE.w ∧ rd F.KEY_TAMPER_CNT_DETECT t = min (rd F.KEY_TAMPER_CNT_DETECT s + 1) (2 ^ F.KEY_TAMPER_CNT_DETECT.w - 1) ∧ (2 ≤ tamperLevel src s → t.key.vols = []))) ∧
  (∀ (s : State), (rd F.KEY_TAMPER_STAT_LEVEL s = 2) → (l2Due s = true) → (∃ t, exec .l2Release s = .next t ∧ rd F.KEY_TAMPER_STAT_LEVEL t = 0 ∧ RegsKept [F.KEY_TAMPER_STAT_LEVEL, F.KEY_TAMPER_CNT_RELEASE] s t ∧ t = { s with regs := t.regs }))

/-- For a free pair whose next request names the mode, passes the checks of the key, the attributes, the owner and the
lengths, and whose use can be counted: the pair takes the request out of its queue and holds, until the check before
release, exactly the result of the mode on the request with the key of its slot: the cipher text, plain text, wrapped key or
digest, the tag cut to the tag length for a generating mode, and the verdict 1 for a verifying mode whose tag differs.
SHA-256 needs no key and counts no use. (R396, R400, R402, R403, R406) -/
def Obligations.CipherModesComplete : Prop :=
  (∀ (n : Fin 4) (r : CipReq) (k : KeyCopy) (u : State) (s : State), (pairNext n s = some r) → (r.mode = 1) → (cipStatus r s = .ok) → (slotKey r.slot s = some k) → (useCount r.slot s = (true, u)) → (∃ t, exec (.ctr n) s = .next t ∧ (pair n t).run = some (r, { out := ctrMode 128 k.key r.iv r.data }) ∧ (∀ q ∈ t.cip.rsvQ ++ t.cip.bulkQ, q.id ≠ r.id) ∧ t.cip.done = s.cip.done)) ∧
  (∀ (n : Fin 4) (r : CipReq) (k : KeyCopy) (u : State) (s : State), (pairNext n s = some r) → (r.mode = 2) → (cipStatus r s = .ok) → (slotKey r.slot s = some k) → (useCount r.slot s = (true, u)) → (∃ t, exec (.gcmEncrypt n) s = .next t ∧ (pair n t).run = some (r, { out := gcmCrypt k.key (r.iv.take 12) r.data, tag := (gcmTag k.key (r.iv.take 12) r.aad (gcmCrypt k.key (r.iv.take 12) r.data)).take r.tagLen }) ∧ (∀ q ∈ t.cip.rsvQ ++ t.cip.bulkQ, q.id ≠ r.id) ∧ t.cip.done = s.cip.done)) ∧
  (∀ (n : Fin 4) (r : CipReq) (k : KeyCopy) (u : State) (s : State), (pairNext n s = some r) → (r.mode = 3) → (cipStatus r s = .ok) → (slotKey r.slot s = some k) → (useCount r.slot s = (true, u)) → (∃ t, exec (.gcmDecryptAndVerify n) s = .next t ∧ (pair n t).run = some (r, { out := gcmCrypt k.key (r.iv.take 12) r.data, verdict := if (gcmTag k.key (r.iv.take 12) r.aad r.data).take r.tagLen = r.tag then 0 else 1 }) ∧ (∀ q ∈ t.cip.rsvQ ++ t.cip.bulkQ, q.id ≠ r.id) ∧ t.cip.done = s.cip.done)) ∧
  (∀ (n : Fin 4) (r : CipReq) (k : KeyCopy) (u : State) (s : State), (pairNext n s = some r) → (r.mode = 4) → (cipStatus r s = .ok) → (slotKey r.slot s = some k) → (useCount r.slot s = (true, u)) → (∃ t, exec (.gmacGenerate n) s = .next t ∧ (pair n t).run = some (r, { tag := (gcmTag k.key (r.iv.take 12) r.aad []).take r.tagLen }) ∧ (∀ q ∈ t.cip.rsvQ ++ t.cip.bulkQ, q.id ≠ r.id) ∧ t.cip.done = s.cip.done)) ∧
  (∀ (n : Fin 4) (r : CipReq) (k : KeyCopy) (u : State) (s : State), (pairNext n s = some r) → (r.mode = 5) → (cipStatus r s = .ok) → (slotKey r.slot s = some k) → (useCount r.slot s = (true, u)) → (∃ t, exec (.gmacVerify n) s = .next t ∧ (pair n t).run = some (r, { verdict := if (gcmTag k.key (r.iv.take 12) r.aad []).take r.tagLen = r.tag then 0 else 1 }) ∧ (∀ q ∈ t.cip.rsvQ ++ t.cip.bulkQ, q.id ≠ r.id) ∧ t.cip.done = s.cip.done)) ∧
  (∀ (n : Fin 4) (r : CipReq) (k : KeyCopy) (u : State) (s : State), (pairNext n s = some r) → (r.mode = 6) → (cipStatus r s = .ok) → (slotKey r.slot s = some k) → (useCount r.slot s = (true, u)) → (∃ t, exec (.cmacGenerate n) s = .next t ∧ (pair n t).run = some (r, { tag := (cmac k.key r.data).take r.tagLen }) ∧ (∀ q ∈ t.cip.rsvQ ++ t.cip.bulkQ, q.id ≠ r.id) ∧ t.cip.done = s.cip.done)) ∧
  (∀ (n : Fin 4) (r : CipReq) (k : KeyCopy) (u : State) (s : State), (pairNext n s = some r) → (r.mode = 7) → (cipStatus r s = .ok) → (slotKey r.slot s = some k) → (useCount r.slot s = (true, u)) → (∃ t, exec (.cmacVerify n) s = .next t ∧ (pair n t).run = some (r, { verdict := if (cmac k.key r.data).take r.tagLen = r.tag then 0 else 1 }) ∧ (∀ q ∈ t.cip.rsvQ ++ t.cip.bulkQ, q.id ≠ r.id) ∧ t.cip.done = s.cip.done)) ∧
  (∀ (n : Fin 4) (r : CipReq) (k : KeyCopy) (u : State) (s : State), (pairNext n s = some r) → (r.mode = 8) → (cipStatus r s = .ok) → (slotKey r.slot s = some k) → (useCount r.slot s = (true, u)) → (∃ t, exec (.cbcEncrypt n) s = .next t ∧ (pair n t).run = some (r, { out := cbcEnc k.key r.iv r.data }) ∧ (∀ q ∈ t.cip.rsvQ ++ t.cip.bulkQ, q.id ≠ r.id) ∧ t.cip.done = s.cip.done)) ∧
  (∀ (n : Fin 4) (r : CipReq) (k : KeyCopy) (u : State) (s : State), (pairNext n s = some r) → (r.mode = 9) → (cipStatus r s = .ok) → (slotKey r.slot s = some k) → (useCount r.slot s = (true, u)) → (∃ t, exec (.cbcDecrypt n) s = .next t ∧ (pair n t).run = some (r, { out := cbcDec k.key r.iv r.data }) ∧ (∀ q ∈ t.cip.rsvQ ++ t.cip.bulkQ, q.id ≠ r.id) ∧ t.cip.done = s.cip.done)) ∧
  (∀ (n : Fin 4) (r : CipReq) (k : KeyCopy) (u : State) (s : State), (pairNext n s = some r) → (r.mode = 10) → (cipStatus r s = .ok) → (slotKey r.slot s = some k) → (useCount r.slot s = (true, u)) → (∃ t, exec (.xtsEncrypt n) s = .next t ∧ (pair n t).run = some (r, { out := xts true k.key r.iv r.data }) ∧ (∀ q ∈ t.cip.rsvQ ++ t.cip.bulkQ, q.id ≠ r.id) ∧ t.cip.done = s.cip.done)) ∧
  (∀ (n : Fin 4) (r : CipReq) (k : KeyCopy) (u : State) (s : State), (pairNext n s = some r) → (r.mode = 11) → (cipStatus r s = .ok) → (slotKey r.slot s = some k) → (useCount r.slot s = (true, u)) → (∃ t, exec (.xtsDecrypt n) s = .next t ∧ (pair n t).run = some (r, { out := xts false k.key r.iv r.data }) ∧ (∀ q ∈ t.cip.rsvQ ++ t.cip.bulkQ, q.id ≠ r.id) ∧ t.cip.done = s.cip.done)) ∧
  (∀ (n : Fin 4) (r : CipReq) (k : KeyCopy) (u : State) (s : State), (pairNext n s = some r) → (r.mode = 12) → (cipStatus r s = .ok) → (slotKey r.slot s = some k) → (useCount r.slot s = (true, u)) → (∃ t, exec (.keyWrap n) s = .next t ∧ (pair n t).run = some (r, { out := keyWrapIv k.key (if r.iv.take 8 = zeros 8 then wrapIv else r.iv.take 8) r.data }) ∧ (∀ q ∈ t.cip.rsvQ ++ t.cip.bulkQ, q.id ≠ r.id) ∧ t.cip.done = s.cip.done)) ∧
  (∀ (n : Fin 4) (r : CipReq) (k : KeyCopy) (u : State) (s : State), (pairNext n s = some r) → (r.mode = 13) → (cipStatus r s = .ok) → (slotKey r.slot s = some k) → (useCount r.slot s = (true, u)) → (∃ t, exec (.keyUnwrap n) s = .next t ∧ (pair n t).run = some (r, { verdict := if (keyUnwrapIv k.key r.data).1 = (if r.iv.take 8 = zeros 8 then wrapIv else r.iv.take 8) then 0 else 1, out := (keyUnwrapIv k.key r.data).2 }) ∧ (∀ q ∈ t.cip.rsvQ ++ t.cip.bulkQ, q.id ≠ r.id) ∧ t.cip.done = s.cip.done)) ∧
  (∀ (n : Fin 4) (r : CipReq) (s : State), (pairNext n s = some r) → (r.mode = 14) → (cipStatus r s = .ok) → (∃ t, exec (.sha256 n) s = .next t ∧ (pair n t).run = some (r, { out := sha256 r.data }) ∧ (∀ q ∈ t.cip.rsvQ ++ t.cip.bulkQ, q.id ≠ r.id) ∧ t.cip.done = s.cip.done)) ∧
  (∀ (n : Fin 4) (r : CipReq) (k : KeyCopy) (u : State) (s : State), (pairNext n s = some r) → (r.mode = 15) → (cipStatus r s = .ok) → (slotKey r.slot s = some k) → (useCount r.slot s = (true, u)) → (∃ t, exec (.hmacSha256Generate n) s = .next t ∧ (pair n t).run = some (r, { tag := ((hmac k.key r.data).take r.tagLen).take 24, out := ((hmac k.key r.data).take r.tagLen).drop 24 }) ∧ (∀ q ∈ t.cip.rsvQ ++ t.cip.bulkQ, q.id ≠ r.id) ∧ t.cip.done = s.cip.done)) ∧
  (∀ (n : Fin 4) (r : CipReq) (k : KeyCopy) (u : State) (s : State), (pairNext n s = some r) → (r.mode = 16) → (cipStatus r s = .ok) → (slotKey r.slot s = some k) → (useCount r.slot s = (true, u)) → (∃ t, exec (.hmacSha256Verify n) s = .next t ∧ (pair n t).run = some (r, { verdict := if (hmac k.key r.data).take r.tagLen = r.tag then 0 else 1 }) ∧ (∀ q ∈ t.cip.rsvQ ++ t.cip.bulkQ, q.id ≠ r.id) ∧ t.cip.done = s.cip.done))

/-- CHECKING_BEFORE_RELEASE with agreeing lanes frees the pair and releases the result: to the window's status for a host,
to the waiting context for a graver engine. FRAME_JOB on a free pair other than the reserved one, with CIP running and FN10
not full, takes the head frame of its queue that FN10 has read whole, and a job whose template or frame length allows no
request drops it and counts it. SAK_INSTALLATION on an enabled port stores the key in its volatile slot and the association
with its first packet number. SA_SWITCH shows the new transmit association. (R404, R411, R412, R416, R417) -/
def Obligations.CipherReleaseAndSecureLinksComplete : Prop :=
  (∀ (n : Fin 4) (r : CipReq) (x : CipRes) (s : State), ((pair n s).run = some (r, x)) → (x.status = 0) → (r.src = 20) → (∃ t, exec (.checkingBeforeRelease n .agree) s = .next t ∧ (pair n t).run = none ∧ rd (F.CIP_WINw_STAT_STATUS.u 0) t = 0 ∧ (x.verdict = 1 → rd F.CIP_VERIFY_FAIL_COUNT t = min (rd F.CIP_VERIFY_FAIL_COUNT s + 1) (2 ^ F.CIP_VERIFY_FAIL_COUNT.w - 1)))) ∧
  (∀ (n : Fin 4) (r : CipReq) (x : CipRes) (s : State), ((pair n s).run = some (r, x)) → (x.status = 0) → (r.src < 16) → ((ctx r.src r.ctx s).stall = .cipher r.id) → (∃ t, exec (.checkingBeforeRelease n .agree) s = .next t ∧ (pair n t).run = none ∧ tfind t.cip.done r.id = some x)) ∧
  (∀ (n : Fin 4) (q : Nat) (e : QEnt) (l : List QEnt) (s : State), (n.val ≠ 0) → (domRuns .cip s = true) → (sourceWaits false 10 s = false) → (pairFree n s = true) → (s.cip.bulkQ.any (·.src == 16) = false) → ((jobQueues n s).find? (headRead · s) = some q) → ((qu q s).ents = e :: l) → (jobReq (q - 768) (tget 0 s.cip.jobs (q - 768) + 1) ((fr e.fid s).data.take ((fr e.fid s).data.length - 4)) s = none) → (∃ t, exec (.frameJob n .agree) s = .next t ∧ (qu q t).ents = l ∧ rd F.CIP_JOB_DROP_OTHER t = min (rd F.CIP_JOB_DROP_OTHER s + 1) (2 ^ F.CIP_JOB_DROP_OTHER.w - 1))) ∧
  (∀ (n : Fin 4) (q : Nat) (e : QEnt) (l : List QEnt) (r : CipReq) (u : State) (s : State), (n.val ≠ 0) → (domRuns .cip s = true) → (sourceWaits false 10 s = false) → (pairFree n s = true) → (s.cip.bulkQ.any (·.src == 16) = false) → ((jobQueues n s).find? (headRead · s) = some q) → ((qu q s).ents = e :: l) → (jobReq (q - 768) (tget 0 s.cip.jobs (q - 768) + 1) ((fr e.fid s).data.take ((fr e.fid s).data.length - 4)) s = some r) → (cipStatus r s = .ok) → (useCount r.slot s = (true, u)) → (exec (.frameJob n .agree) s = .next (jobEnd (q - 768) (tget 0 s.cip.jobs (q - 768) + 1) n ((fr e.fid s).data.take ((fr e.fid s).data.length - 4)) (cipCompute r (((slotKey r.slot s).map (·.key)).getD [])) (if r.mode = 2 then { releaseFrame e.fid (popHead q u).2 with cip := { (releaseFrame e.fid (popHead q u).2).cip with jobs := tput (releaseFrame e.fid (popHead q u).2).cip.jobs (q - 768) (tget 0 s.cip.jobs (q - 768) + 1) } } else releaseFrame e.fid (popHead q u).2)))) ∧
  (∀ (port : Fin 16) (sa : SaInstall) (s : State), (sa.key.length = 16 ∨ sa.key.length = 32) → (sa.salt.length = 12) → (macsecOn port s = true) → (sa.tx = true) → (∃ t, exec (.sakInstallation port sa) s = .next t ∧ tfind t.key.vols sa.slot = some { key := sa.key, attrs := sakAttrs sa.key.length } ∧ msSa port sa.an t = some { an := sa.an, slot := 0x100 + sa.slot.val, nextPn := sa.nextPn, ssci := sa.ssci, sci := sa.sci, salt := sa.salt, key := sa.key } ∧ t = { s with regs := t.regs, key := t.key, cip := t.cip })) ∧
  (∀ (port : Fin 16) (an : Fin 4) (s : State), (macsecOn port s = true) → (∃ t, exec (.saSwitch port an) s = .next t ∧ rd (F.CIP_MSpp_STAT_TX_AN.u port) t = an ∧ t = { s with regs := t.regs }))

/-- IDLE with nothing running enters IDLE and IDLE_RESUME leaves it; STANDBY_RESUME with a wake latched returns to ACTIVE
with the stipples held for 1 ms. The originator's ROUND_START begins the next round. An accepted token from another
originator makes this device a member with the ring up. COMMIT_POINT once its time has come, leaving own groups awake, takes
the candidates to sleep. A wake input, the always-on timer, a wake message and a wake repetition latch, count or send as the
rules say, and the pulse end lowers the output. FALSE_WAKE ends the confirmation after its time. RING_LOSS after T_RING
shows the loss and cancels a round in progress; REGENERATION, member index × 1 ms later, makes the device originator of the
next epoch. A host or core demand is stored and shown. (R420, R421, R423, R428, R429, R430, R431, R434, R437, R439, R440) -/
def Obligations.PowerModesAndSleepRingComplete : Prop :=
  (∀ (s : State), (s.pwr.mode = 0) → (mayIdle s = true) → (exec .idle s = .next { s with pwr := { s.pwr with mode := 1 } })) ∧
  (∀ (s : State), (s.pwr.mode = 1) → (exec .idleResume s = .next { s with pwr := { s.pwr with mode := 0 } })) ∧
  (∀ (s : State), (s.pwr.mode = 2) → (s.slp.toWake ≠ 0) → (∃ t, exec .standbyResume s = .next t ∧ t.pwr.mode = 0 ∧ t.stp.from_ = shortNs s + 1000000 ∧ t.slp.late = false ∧ t.key.latched = [])) ∧
  (∀ (s : State), (ringOn s = true) → (rd F.SLP_STAT_ORIGINATOR s = 1) → (s.slp.running = false) → (∃ t, exec .roundStart s = .next t ∧ t.slp.origin = ownNode s ∧ t.slp.cancelled = false ∧ t.slp.toWake = 0)) ∧
  (∀ (port : Fin 32) (msg body : List Byte) (u : State) (s : State), (almAccept 0 msg s = (some body, u)) → (cfgHas C.slpHdr 0 u = true) → (tokOk body u = true) → (tokAccepted body u = true) → (isVetoToken body u = false) → (ringOn u = true) → (leAt body 8 2 ≠ ownNode u) → (∃ t, exec (.token port msg) s = .next t ∧ rd F.SLP_STAT_RING t = 1 ∧ rd F.SLP_STAT_ORIGINATOR t = 0 ∧ t.slp.origin = leAt body 8 2)) ∧
  (∀ (s : State), (commitDue s = true) → (s.slp.held = []) → (clearBits (slpAwake s) s.slp.cand % 2 ^ 32 &&& slpOwn s ≠ 0) → (∃ t, exec .commitPoint s = .next t ∧ t.pwr.mode = s.pwr.mode ∧ t.slp.asleep = s.slp.asleep ||| s.slp.cand ∧ t.slp.commit = false ∧ rd F.SLP_GROUP_AWAKE_AWAKE t = clearBits (slpAwake s) s.slp.cand % 2 ^ 32 ∧ rd F.SLP_ROUND_CNT_COMMITS t = min (rd F.SLP_ROUND_CNT_COMMITS s + 1) (2 ^ F.SLP_ROUND_CNT_COMMITS.w - 1))) ∧
  (∀ (i : Fin 8) (s : State), (bit (cfgN C.slpWakeIn i 0 1 s) 0 = true) → (bit s.slp.active i = false) → (s.pwr.mode = 2) → (∃ t, exec (.wakeIn i) s = .next t ∧ t.slp.active = putBit s.slp.active i true ∧ t.slp.toWake = s.slp.toWake ||| cfgN C.slpWakeIn i 4 4 s ∧ t.slp.lastWhy = i)) ∧
  (∀ (s : State), (slpN 0x18 4 s ≠ 0) → (s.pwr.mode = 2) → (∃ t, exec .aonTimer s = .next t ∧ t.slp.toWake = s.slp.toWake ||| slpN 0x1C 4 s ∧ t.slp.lastWhy = 24 ∧ rd F.SLP_WAKE_LATCH_TIMER t = 1)) ∧
  (∀ (port : Fin 32) (msg body : List Byte) (u : State) (s : State), (almAccept 8 msg s = (some body, u)) → (body.length = 8) → (leAt body 0 4 ≠ 0) → (u.pwr.mode ≠ 4) → (commitDue u = false) → (∃ t, exec (.wake port msg) s = .next t ∧ t.slp.lastWhy = 27 ∧ rd F.SLP_WAKE_LATCH_LINK t = 1)) ∧
  (∀ (w r f n : Nat) (l : List (Nat × Nat × Nat × Nat)) (s : State), (s.slp.repeats = (w, r, f, n) :: l) → (s.pwr.mode ≤ 1) → (∃ t, exec .wakeRepeat s = .next t ∧ t.slp.repeats = if n ≤ 1 then l else l ++ [(w, r, f, n - 1)])) ∧
  (∀ (o : Fin 4) (s : State), (exec (.wakeOutPulseEnd o) s = .next { s with slp := { s.slp with outs := putBit s.slp.outs o false } })) ∧
  (∀ (g : Fin 32) (s : State), (bit (slpConfirming s) g = true) → (slpConfirming s &&& slpFirm s = 0) → (s.pwr.mode ≤ 1) → (tget 0 s.slp.confAt g + slpN 0x12 2 s * 1000000 ≤ s.time.loc) → (∃ t, exec (.falseWake g) s = .next t ∧ rd F.SLP_CONFIRMING_GROUPS t = putBit (slpConfirming s) g false % 2 ^ 32 ∧ rd F.SLP_FALSE_CNT_FALSE t = min (rd F.SLP_FALSE_CNT_FALSE s + 1) (2 ^ F.SLP_FALSE_CNT_FALSE.w - 1) ∧ t = { s with regs := t.regs, rcd := t.rcd, slp := t.slp })) ∧
  (∀ (s : State), (ringDue s = true) → (∃ t, exec .ringLoss s = .next t ∧ rd F.SLP_STAT_RING t = 2 ∧ rd F.SLP_RING_CNT_LOSS t = min (rd F.SLP_RING_CNT_LOSS s + 1) (2 ^ F.SLP_RING_CNT_LOSS.w - 1) ∧ t.slp.running = false ∧ t.slp.commit = false ∧ t.slp.cand = 0 ∧ t = { s with regs := t.regs, slp := t.slp })) ∧
  (∀ (s : State), (ringOn s = true) → (rd F.SLP_STAT_RING s = 2) → (bit (slpN 3 1 s) 0 = true) → (s.slp.ringAt + slpIndex s * 1000000 ≤ s.time.loc) → (∃ t, exec .regeneration s = .next t ∧ rd F.SLP_STAT_ORIGINATOR t = 1 ∧ t.slp.origin = ownNode s ∧ rd F.SLP_RING_CNT_REGEN t = min (rd F.SLP_RING_CNT_REGEN s + 1) (2 ^ F.SLP_RING_CNT_REGEN.w - 1))) ∧
  (∀ (who : Initiator) (v : Word) (s : State), (Admits who F.SLP_HOST_DEMAND_DEMAND.addr s) → ((∃ n, who = .core n) ∨ (∃ i, hostOf who = some i ∧ (bit (hostPerm i s) 4 = true ∨ stage s = 9))) → (∃ t, exec (.slpHostDemand who v) s = .next t ∧ rd F.SLP_HOST_DEMAND_DEMAND t = v.toNat))

/-- With the service that serves it running, and for an accepted message (format, peer, tag and sequence in order): a beacon
of an observed node sets its leaf to the state that the roster gives; this device's own beacon does the same for itself;
silence for T_SILENCE sets SILENT. PROOF_PERIOD sends the root digest on the ring; a digest is kept, a range is answered or
merged. A read is answered; a good answer ends the open request and commits the copy; a write commits the value at its
owner. A retry whose time has come sends again within the limit, and at the limit fails the request. A snapshot fragment
joins its part, and a timed-out part is dropped and counted. A tunnelled frame goes to its routes, a diagnostic one to the
recorder's queue. Time health is kept and sent. RESYNC_END clears RESYNC. (R449, R453, R454, R455, R456, R458, R460, R461,
R462, R463, R465, R466) -/
def Obligations.AlmoithAndProofComplete : Prop :=
  (∀ (port : Fin 32) (msg b : List Byte) (u : State) (s : State), (beaconAccept msg s = (some b, u)) → (b.length = 28) → (observes (leAt b 0 2) u = true) → (∃ t, exec (.beacon (.eth port msg)) s = .next t ∧ (leaf (leAt b 0 2) t).st = classify (leAt b 0 2) (leAt b 2 4) (slice b 6 16) (bit (leAt b 0x1A 2) 2) u ∧ (leaf (leAt b 0 2) t).plate = leAt b 2 4 ∧ leAt b 0 2 ∈ t.alm.spoken)) ∧
  (∀ (ch : Fin 96) (id : Nat) (b : List Byte) (s : State), (svcUp 4 s = true) → (cfgHas C.almHdr 0 s = true) → (b.length = 8) → (id = cfgN C.almHdr 0 0x14 4 s) → (bit (cfgN C.almHdr 0 0x18 12 s) ch = true) → (observes (leAt b 0 4 % 4096) s = true) → (∃ t, exec (.beacon (.can ch id b)) s = .next t ∧ (leaf (leAt b 0 4 % 4096) t).st = classify (leAt b 0 4 % 4096) (beaconPlate (leAt b 0 4 % 4096) (leAt b 0 4 / 4096) s) (slice b 4 4) false s ∧ leAt b 0 4 % 4096 ∈ t.alm.spoken)) ∧
  (∀ (s : State), (svcUp 4 s = true) → (cfgHas C.almHdr 0 s = true) → (observes (ownNode s) s = true) → (∃ t, exec .beaconInterval s = .next t ∧ (leaf (ownNode s) t).st = classify (ownNode s) (ownPlate s).1 (ownPlate s).2 (stage s == 6) s ∧ ownNode s ∈ t.alm.spoken)) ∧
  (∀ (n : Fin 4096) (s : State), (cfgHas C.roster n s = true) → (svcUp 4 s = true) → (silenceDue n s = true) → (observes n s = true) → ((leaf n s).st ≠ 3) → (∃ t, exec (.nodeSilence n) s = .next t ∧ leaf n t = { leaf n s with st := 3, seq := ((leaf n s).seq + 1) % 2 ^ 32 } ∧ n.val ∈ t.alm.spoken)) ∧
  (∀ (s : State), (svcUp 4 s = true) → (cfgHas C.almHdr 0 s = true) → (exec .proofPeriod s = .next (almRing [] 2 0 (leBytes 4 (rosterEpoch s) ++ zeros 4 ++ rootDigest s ++ digests1 s) s))) ∧
  (∀ (port : Fin 32) (msg b : List Byte) (i : Nat) (u : State) (s : State), (almAccept 2 msg s = (some b, u)) → (b.length = 280) → (leAt b 0 4 = rosterEpoch u) → (peerOf (msgNode msg) u = some i) → (∃ t, exec (.rosterDigest port msg) s = .next t ∧ tfind t.alm.roots i = some (slice b 8 16))) ∧
  (∀ (port : Fin 32) (msg b : List Byte) (i : Nat) (u : State) (s : State), (almAccept 3 msg s = (some b, u)) → (peerOf (msgNode msg) u = some i) → (bit (msgFlags msg) 0 = false) → (b.length = 4) → ((byteAt b 0 = 1 ∧ leAt b 2 2 < 16) ∨ (byteAt b 0 = 2 ∧ leAt b 2 2 < 256)) → (exec (.rosterRange port msg) s = .next (almTo i 3 1 (rangeBody (byteAt b 0) (leAt b 2 2) u) u).2)) ∧
  (∀ (port : Fin 32) (msg b : List Byte) (u : State) (s : State), (almAccept 4 msg s = (some b, u)) → (b.length = 8) → (exec (.remoteRead port msg) s = .next (remoteAnswer (msgNode msg) (leAt b 0 4) (leAt b 4 2) (remoteStatus (leAt b 4 2) false u) false u))) ∧
  (∀ (port : Fin 32) (msg b : List Byte) (r : OpenReq) (u : State) (s : State), (almAccept 5 msg s = (some b, u)) → (b.length = 28) → (openFor (b2n (bit (byteAt b 7) 0)) (msgNode msg) (leAt b 0 4) (leAt b 4 2) u = some r) → (∃ t, exec (.remoteReadRsp port msg) s = .next t ∧ t.alm.opens = u.alm.opens.erase r ∧ (byteAt b 6 = 0 → (sigOwner r.sig u).isSome = true → sigType r.sig u ≠ 4 → (sigEnt r.sig t).val = sigFit (sigType r.sig u) (sigWidth r.sig u) (leAt b 8 8) ∧ (sigEnt r.sig t).time = leAt b 16 8 ∧ (sigEnt r.sig t).writer = 0xA000))) ∧
  (∀ (port : Fin 32) (msg b : List Byte) (u : State) (s : State), (almAccept 6 msg s = (some b, u)) → (b.length = 16) → (nodeRefused (msgNode msg) u = false) → (remoteStatus (leAt b 4 2) true u = .ok) → (sigType (leAt b 4 2) u ≠ 4) → ((tget [] u.alm.writes (msgNode msg)).contains (leAt b 0 4) = false) → (∃ t, exec (.remoteWrite port msg) s = .next t ∧ (sigEnt (leAt b 4 2) t).val = sigFit (sigType (leAt b 4 2) u) (sigWidth (leAt b 4 2) u) (leAt b 8 8) ∧ (sigEnt (leAt b 4 2) t).writer = 0xA000 ∧ tget [] t.alm.writes (msgNode msg) = (leAt b 0 4 :: tget [] u.alm.writes (msgNode msg)).take 64)) ∧
  (∀ (id : Nat) (r : OpenReq) (s : State), (s.alm.opens.find? (·.id == id) = some r) → (svcUp 5 s = true) → (retryDue r s = true) → (r.tries < cfgN C.almHdr 0 0x10 1 s) → (r.kind = 0) → (∃ t, exec (.remoteRetry id) s = .next t ∧ t.alm.opens = s.alm.opens.map (fun x => if x.id = id then { x with tries := x.tries + 1, at_ := s.time.loc } else x) ∧ rd F.PRF_RR_RETRIES t = min (rd F.PRF_RR_RETRIES s + 1) (2 ^ F.PRF_RR_RETRIES.w - 1))) ∧
  (∀ (id : Nat) (r : OpenReq) (s : State), (s.alm.opens.find? (·.id == id) = some r) → (svcUp 5 s = true) → (retryDue r s = true) → (cfgN C.almHdr 0 0x10 1 s ≤ r.tries) → (r.kind = 0) → (∃ t, exec (.remoteRetry id) s = .next t ∧ t.alm = { s.alm with opens := s.alm.opens.erase r } ∧ rd F.PRF_RR_FAILS t = min (rd F.PRF_RR_FAILS s + 1) (2 ^ F.PRF_RR_FAILS.w - 1) ∧ RegsKept [F.PRF_RR_FAILS] s t)) ∧
  (∀ (port : Fin 32) (msg b : List Byte) (u : State) (s : State), (almAccept 7 msg s = (some b, u)) → (cfgN C.almHdr 0 0x12 2 u = ownNode u) → (12 ≤ b.length) → (byteAt b 1 < byteAt b 2) → (byteAt b 2 ≠ 1) → (u.alm.parts = []) → (∃ t, exec (.snapshotMessage port msg) s = .next t ∧ t.alm.parts = [⟨msgNode msg, byteAt b 0, leAt b 4 4, byteAt b 2, [(byteAt b 1, (leAt b 8 4, b.drop 12))], u.time.loc⟩])) ∧
  (∀ (n : Fin 4096) (k : Fin 64) (q : Nat) (s : State), (svcUp 5 s = true) → (s.alm.parts.any (fun p => p.sender == n.val && p.set_ == k.val && p.seq == q && decide (p.at_ + 10000000 ≤ s.time.loc)) = true) → (∃ t, exec (.snapshotReassembly n k q) s = .next t ∧ t.alm = { s.alm with parts := s.alm.parts.filter fun p => !(p.sender == n.val && p.set_ == k.val && p.seq == q) } ∧ rd F.PRF_SNAP_INCOMPLETE t = min (rd F.PRF_SNAP_INCOMPLETE s + 1) (2 ^ F.PRF_SNAP_INCOMPLETE.w - 1) ∧ t = { s with regs := t.regs, alm := t.alm })) ∧
  (∀ (port : Fin 32) (msg b : List Byte) (u : State) (s : State), (almAccept 9 msg s = (some b, u)) → (20 ≤ b.length) → (nodeRefused (msgNode msg) u = false) → (byteAt b 0 = 0xFF) → (exec (.tunnel port msg) s = .next (tunnelDiag (b.drop 4) u))) ∧
  (∀ (port : Fin 32) (msg b : List Byte) (l : List Nat) (v : State) (u : State) (s : State), (almAccept 9 msg s = (some b, u)) → (20 ≤ b.length) → (nodeRefused (msgNode msg) u = false) → (byteAt b 0 ≠ 0xFF) → (routesFor 3 0 0 (leAt b 4 4 % 2 ^ 30) u = (l, v)) → (exec (.tunnel port msg) s = .next (each l (tunnelRoute (byteAt b 1) (b.drop 4)) v))) ∧
  (∀ (port : Fin 32) (msg b : List Byte) (i : Nat) (u : State) (s : State), (almAccept 10 msg s = (some b, u)) → (b.length = 64) → (peerOf (msgNode msg) u = some i) → (∃ t, exec (.timeHealth port msg) s = .next t ∧ tfind t.alm.health i = some b ∧ t = { u with alm := { u.alm with health := t.alm.health } })) ∧
  (∀ (b0 b1 b2 b3 : List Byte) (s0 s1 s2 s3 : State) (s : State), (svcUp 1 s = true) → (cfgHas C.almHdr 0 s = true) → (healthRec 0 s = (b0, s0)) → (healthRec 1 s0 = (b1, s1)) → (healthRec 2 s1 = (b2, s2)) → (healthRec 3 s2 = (b3, s3)) → (exec .timeHealthInterval s = .next (almRing [] 10 0 (b0 ++ b1 ++ b2 ++ b3) s3))) ∧
  (∀ (s : State), (awake s = true) → (s.alm.lostAt + 10000000000 ≤ s.time.loc) → (exec .resyncEnd s = .next { s with alm := { s.alm with resync := false } }))

/-- With the interface powered and enabled: PCIE_RESET and FUNCTION_LEVEL_RESET empty the PCIe queues and disable them, and
the first takes the link down. A doorbell of an enabled PCIe queue with an index inside its ring is taken over. A good send
descriptor submits its frame and advances the head; a receive descriptor pops the head frame into the buffer. A WAIT arms
and its expiry shows 2. A pop of a queue with nothing stashed moves the head frame into a free stash entry, ACK frees it,
and T_STASH after the time frees it unclaimed. RDID, RDSR, READ, WRITE, RSTEN and RST answer and act as the target's command
table says; a posted WRITE is applied in order. A signal value is read as the window shows it and committed when the host or
core may write it; a PDU request raises the event. (R472, R474, R476, R477, R478, R479, R481, R482, R483, R484, R485) -/
def Obligations.HostInterfaceCommandsComplete : Prop :=
  (∀ (q : Fin 64) (s : State), (hqIf q s = 0) → (∃ t, exec .pcieReset s = .next t ∧ rd F.HST_STAT_PCIE_LINK t = 0 ∧ rd F.HST_STAT_PCIE_SPEED t = 0 ∧ rd F.HST_STAT_PCIE_WIDTH t = 0 ∧ t.hst.msix = [] ∧ hostQ q t = {} ∧ rd (F.HST_HQnn_CTRL_EN.u q) t = 0)) ∧
  (∀ (q : Fin 64) (s : State), (hqIf q s = 0) → (∃ t, exec .functionLevelReset s = .next t ∧ rd F.HST_STAT_PCIE_LINK t = rd F.HST_STAT_PCIE_LINK s ∧ t.hst.msix = [] ∧ hostQ q t = {} ∧ rd (F.HST_HQnn_CTRL_EN.u q) t = 0)) ∧
  (∀ (q : Fin 64) (v : Word) (s : State), (Admits .pcie (doorbellAddr q) s) → (hqIf q s = 0) → (hqOn q s = true) → (bits v.toNat 0 11 < hqSize q s) → (∃ t, exec (.sendTail .pcie q v) s = .next t ∧ hostQ q t = { hostQ q s with sendTail := bits v.toNat 0 11 } ∧ t = { s with hst := t.hst })) ∧
  (∀ (q : Fin 64) (v : Word) (s : State), (Admits .pcie (doorbellAddr q) s) → (hqIf q s = 0) → (hqOn q s = true) → (bits v.toNat 0 11 < hqSize q s) → (∃ t, exec (.receiveTail .pcie q v) s = .next t ∧ hostQ q t = { hostQ q s with recvTail := bits v.toNat 0 11 } ∧ t = { s with hst := t.hst })) ∧
  (∀ (q : Fin 64) (v : Word) (s : State), (Admits .pcie (doorbellAddr q) s) → (hqIf q s = 0) → (hqOn q s = true) → (bits v.toNat 0 11 < 2 * hqSize q s) → ((hostQ q s).fill = []) → (∃ t, exec (.completionHead .pcie q v) s = .next t ∧ hostQ q t = { hostQ q s with cplHead := bits v.toNat 0 11 } ∧ RegsKept [F.HST_HQnn_STAT_CPL_FULL.u q] s t ∧ t = { s with regs := t.regs, hst := t.hst })) ∧
  (∀ (q : Fin 64) (desc buf : List Byte) (s : State), (desc.length = 32) → (buf.length = leAt desc 8 2) → (hqDma q s = true) → (rd (F.HST_HQnn_PTRS_SEND_HEAD.u q) s % hqSize q s ≠ (hostQ q s).sendTail) → (cplFull q s = false) → (sendStatus q desc s = .ok) → (bit (byteAt desc 0x0A) 0 = false) → (sourceWaits false 8 s = false) → (sendHeld q s = false) → ((sendFrame q 0 desc buf s).data.length ≤ 16384) → (∃ t, exec (.sendDescriptor q desc buf) s = .next t ∧ staged 8 t = staged 8 s ++ [s.qm.nextId] ∧ (fr s.qm.nextId t).data = (if bit (byteAt desc 0x0A) 2 then buf ++ fcsBytes buf else buf) ∧ (fr s.qm.nextId t).src = 8 * 4096 + q.val ∧ rd (F.HST_HQnn_PTRS_SEND_HEAD.u q) t = (rd (F.HST_HQnn_PTRS_SEND_HEAD.u q) s % hqSize q s + 1) % hqSize q s % 2 ^ F.HST_HQnn_PTRS_SEND_HEAD.w ∧ hostQ q t = { hostQ q s with takenAt := some s.time.loc } ∧ t = { s with regs := t.regs, qm := t.qm, hst := t.hst })) ∧
  (∀ (q : Fin 64) (desc : List Byte) (e : QEnt) (l : List QEnt) (s : State), (desc.length = 32) → (hqDma q s = true) → (rd (F.HST_HQnn_PTRS_RECV_HEAD.u q) s % hqSize q s ≠ (hostQ q s).recvTail) → (cplFull q s = false) → (64 ≤ leAt desc 8 2) → (leAt desc 8 2 ≤ 16416) → (leAt desc 8 2 % 8 = 0) → (headRead (672 + q) s = true) → ((qu (672 + q) s).ents = e :: l) → (∃ t, exec (.receiveDescriptor q desc) s = .next t ∧ (qu (672 + q) t).ents = l ∧ .dma (leAt desc 0 8) ((entDesc e s ++ (fr e.fid s).data).take (leAt desc 8 2)) ∈ t.out ∧ rd (F.HST_HQnn_PTRS_RECV_HEAD.u q) t = (rd (F.HST_HQnn_PTRS_RECV_HEAD.u q) s % hqSize q s + 1) % hqSize q s % 2 ^ F.HST_HQnn_PTRS_RECV_HEAD.w)) ∧
  (∀ (who : Initiator) (q : Fin 64) (v : Word) (s : State), (Admits who (F.HST_HQnn_WAIT_TICKS.addr + q * F.HST_HQnn_WAIT_TICKS.step) s) → (hostOf who = some (hqIf q s)) → (hqOn q s = true) → (∃ t, exec (.hstHqnnWait who q v) s = .next t ∧ rd (F.HST_HQnn_WAIT_TICKS.u q) t = v.toNat ∧ rd (F.HST_HQnn_STAT_WAIT_ARMED.u q) t = (if v = 0 then 0 else 1) ∧ RegsKept [F.HST_HQnn_WAIT_TICKS.u q, F.HST_HQnn_STAT_WAIT_ARMED.u q] s t ∧ t = { s with regs := t.regs, hst := t.hst })) ∧
  (∀ (q : Fin 64) (s : State), (waitDue q s = true) → (∃ t, exec (.completionWait q) s = .next t ∧ rd (F.HST_HQnn_STAT_WAIT_ARMED.u q) t = 0 ∧ rd (F.HST_HQnn_STAT_LAST_WAIT.u q) t = 2 ∧ t = { s with regs := t.regs, out := t.out, hst := t.hst })) ∧
  (∀ (q : Fin 64) (k : Nat) (e : QEnt) (l : List QEnt) (s : State), (reachable .pcie s = true) → (isFull s = true) → (hqOn q s = true) → (hqIf q s = 0) → (rdB (F.HST_HQnn_CTRL_EN.u q) s = true) → (rd (F.HST_HQnn_CTRL_MODE.u q) s = 1) → (bit (hqN q 0 1 s) 2 = true) → (stashFind (672 + q) s = none) → (headWhole (672 + q) s = true) → ((List.range 8).find? (fun k => (tfind s.hst.stash (8 * 0 + k)).isNone) = some k) → ((qu (672 + q) s).ents = e :: l) → (∃ t, exec (.hstHqnnPop .bar0 q) s = .next t ∧ (qu (672 + q) t).ents = l ∧ tfind t.hst.stash k = some ⟨672 + q, e.fid, s.time.loc⟩ ∧ t.out = .resp (leBytes 4 (popWord false false k (fr e.fid s).data.length)) :: s.out)) ∧
  (∀ (who : Initiator) (q : Fin 64) (e : Nat) (x : Stash) (s : State), (Admits who (F.HST_HQnn_ACK_ACK.addr + q * F.HST_HQnn_ACK_ACK.step) s) → (hostOf who = some (hqIf q s)) → (hqOn q s = true) → (stashFind (672 + q) s = some (e, x)) → (tfind s.hst.stash e = some x) → (∃ t, exec (.hstHqnnAck who q) s = .next t ∧ t.hst.stash = terase s.hst.stash e)) ∧
  (∀ (e : Fin 16) (x : Stash) (s : State), (tfind s.hst.stash e = some x) → (x.at_ + tStash s ≤ s.time.loc) → (∃ t, exec (.tStash e) s = .next t ∧ t.hst.stash = terase s.hst.stash e ∧ rd F.HST_STASH_STAT_UNCLAIMED t = min (rd F.HST_STASH_STAT_UNCLAIMED s + 1) (2 ^ F.HST_STASH_STAT_UNCLAIMED.w - 1))) ∧
  (∀ (s : State), (reachable .xspi s = true) → (exec .rdid s = .next { s with out := .resp ([0, 0xFF] ++ leBytes 4 0x961600A2 ++ leBytes 4 0x00010000) :: s.out, hst := { s.hst with rstEn := false } })) ∧
  (∀ (s : State), (reachable .xspi s = true) → (s.hst.posted = []) → (exec .rdsr s = .next { s with out := .resp ([0, 0xFF] ++ leBytes 4 (s.hst.last + 256 * s.hst.refused)) :: s.out, hst := { s.hst with rstEn := false, refused := 0 } })) ∧
  (∀ (addr a n : Nat) (pop : Bool) (st : Status) (b : List Byte) (u : State) (s : State), (xspiLenOk addr n = true) → (reachable .xspi s = true) → (xspiAddr addr s = .space pop a) → (spaceRead (if pop then .xspiPop else .xspiPlain) a n { s with hst := { s.hst with rstEn := false } } = ((st, b), u)) → (exec (.read addr n) s = .next { u with out := .resp (leBytes 1 st.code ++ leBytes 1 (255 - st.code) ++ b) :: u.out })) ∧
  (∀ (addr : Nat) (data : List Byte) (s : State), (xspiLenOk addr data.length = true) → (reachable .xspi s = true) → (exec (.write addr data) s = .next { s with hst := { s.hst with rstEn := false, posted := s.hst.posted ++ [(addr, data)] } })) ∧
  (∀ (addr a : Nat) (b : List Byte) (pop : Bool) (r : List (Nat × List Byte)) (u : State) (s : State), (s.hst.posted = (addr, b) :: r) → (xspiAddr addr s = .space pop a) → (Admits .xspi a s) → (wordsWrite .xspi a b { s with hst := { s.hst with posted := r } } = (.ok, u)) → (∃ t, exec .writeApplied s = .next t ∧ t.hst.last = 0 ∧ t.hst.refused = u.hst.refused ∧ t = { u with hst := t.hst })) ∧
  (∀ (s : State), (reachable .xspi s = true) → (exec .rsten s = .next { s with hst := { s.hst with rstEn := true } })) ∧
  (∀ (s : State), (reachable .xspi s = true) → (s.hst.rstEn = true) → (∃ t, exec .rst s = .next t ∧ t.hst.last = 0 ∧ t.hst.refused = 0 ∧ t.hst.rstEn = false ∧ t.hst.posted = s.hst.posted ∧ rd F.HST_XSPI_TPAGE_PAGE t = 0)) ∧
  (∀ (i : Fin 65536) (s : State), (reachable .pcie s = true) → (hostGate false (0x4000000 + 8 * i) s = none) → (cfgHas C.sigDef i s = true) → (sigOwner i s = none) → (sigType i s ≠ 4) → (exec (.signalValueRead .bar2 i) s = .next { s with out := .resp (leBytes 8 (sigEnt i s).val) :: s.out })) ∧
  (∀ (who : Initiator) (i : Fin 65536) (v : BitVec 64) (s : State), (Admits who (0x4000000 + 8 * i) s) → (maySigWrite who i s = true) → (cfgHas C.sigDef i s = true) → (sigOwner i s = none) → (devCommitted i s = false) → (sigType i s ≠ 4) → (∃ t, exec (.signalValueWrite who i v false) s = .next t ∧ (sigEnt i t).val = sigFit (sigType i s) (sigWidth i s) v.toNat ∧ (sigEnt i t).writer = sigWriter who ∧ (sigEnt i t).time = shortNs s ∧ (sigEnt i t).cnt = ((sigEnt i s).cnt + 1) % 65536)) ∧
  (∀ (who : Initiator) (p : Fin 8192) (s : State), (Admits who (0x40A0000 + 4 * p) s) → ((∃ n, who = .core n) ∨ (∃ i, hostOf who = some i ∧ (stage s = 9 ∨ bit (hostPerm i s) 0 = true))) → (pduMode p s = 4) → (cfgHas C.sigPdu p s = true) → (pduUnsent p s = false) → (evPends (pduN p 0x1C 1 s) 2 p s = false) → (pduN p 0x1C 1 s < 16) → (∃ t, exec (.pduRequest who p) s = .next t ∧ (eng (pduN p 0x1C 1 s) t).evs = (eng (pduN p 0x1C 1 s) s).evs ++ [⟨2, 0, p, 0, shortNs s⟩])) ∧
  (∀ (addr v : Nat) (u : State) (s : State), (reachable .pcie s = true) → (addr % 4 = 0) → (hostGate false addr s = none) → (popAddr addr = none) → (regRead .bar0 true addr s = (some v, u)) → (exec (.rcRead .bar0 addr) s = .next { u with out := .resp (leBytes 4 v) :: u.out })) ∧
  (∀ (who : Initiator) (addr : Nat) (v : Word) (en : BitVec 4) (u : State) (s : State), (Admits who addr s) → (regWrite who addr v.toNat en.toNat s = (.ok, u)) → (∃ t, exec (.registerWrite who addr v en) s = .next t ∧ t = { u with hst := t.hst })) ∧
  (∀ (who : Initiator) (i addr : Nat) (v : Word) (en : BitVec 4) (st : Status) (u : State) (s : State), (Admits who addr s) → (hostOf who = some i) → (regWrite who addr v.toNat en.toNat s = (st, u)) → (st ≠ .ok) → (∃ t, exec (.registerWrite who addr v en) s = .next t ∧ rd (F.HST_WSTATi_STATUS.u i) t = st.code ∧ rd (F.HST_WSTATi_ADDR.u i) t = addr / 4 % 65536))

/-- With the rails up, and each release or retry at its time: a brown-out gates the transmitters and asserts FAULT, and its
recovery asks for a reset. A droop below 700 mV enters HALF, the half check QUARTER, the release NONE. A thermal sample
shows the temperatures and the state they reach; the release hold steps it down. MRAM operations start when the energy is
there and take effect at their completion. The watchdog toggles, a heartbeat with the key is noted, a window with every core
beating only restarts. The operating seconds count; a flush tries; FREEZE, THAW, CLEAR and diagnostic reads act on the
recorder. HALT, STEP, RESUME and the breakpoint act on an open core. Gauge samples, wake inputs, tamper sources and the PCIe
link show what they are told; SIGNALING_MESSAGE sets intervals within their ranges. (R82, R423, R470, R491, R492, R495,
R498, R502, R503, R508, R509, R525) -/
def Obligations.PowerRecorderAndDebugComplete : Prop :=
  (∀ (mv : Nat) (s : State), (railsUp s = true) → (mv < 650) → (∃ t, exec (.brownOut mv) s = .next t ∧ rd F.PWR_STAT_BROWNOUT t = 1 ∧ rd F.PWR_STAT_SILENT t = 1 ∧ rd F.PWR_STAT_FAULT t = 1 ∧ t.pwr.gated = true ∧ t.pwr.sbsClrN = false ∧ t.pwr.faultN = true ∧ t.pwr.brown = true ∧ t = { s with regs := t.regs, rcd := t.rcd, pwr := t.pwr })) ∧
  (∀ (s : State), (s.pwr.brown = true) → (railsUp s = true) → (s.pwr.dipAt + 1000000 ≤ s.time.loc) → (∃ t, exec .brownOutRecovery s = .next t ∧ t.sys.request = some (s.sys.request.getD .protect) ∧ t.pwr.brown = false ∧ t.pwr.gated = true)) ∧
  (∀ (mv : Nat) (s : State), (railsUp s = true) → (rd F.PWR_STAT_DROOP s = 0) → (mv < 700) → (675 ≤ mv) → (∃ t, exec (.droop mv) s = .next t ∧ rd F.PWR_STAT_DROOP t = 1 ∧ rd F.PWR_DROOP_CNT_HALF t = min (rd F.PWR_DROOP_CNT_HALF s + 1) (2 ^ F.PWR_DROOP_CNT_HALF.w - 1) ∧ t.pwr.droopAt = s.time.loc ∧ t = { s with regs := t.regs, rcd := t.rcd, pwr := t.pwr })) ∧
  (∀ (mv : Nat) (s : State), (railsUp s = true) → (rd F.PWR_STAT_DROOP s = 1) → (mv < 700) → (s.pwr.droopAt + 100 ≤ s.time.loc) → (∃ t, exec (.droopHalfCheck mv) s = .next t ∧ rd F.PWR_STAT_DROOP t = 2 ∧ rd F.PWR_DROOP_CNT_QUARTER t = min (rd F.PWR_DROOP_CNT_QUARTER s + 1) (2 ^ F.PWR_DROOP_CNT_QUARTER.w - 1) ∧ t = { s with regs := t.regs, rcd := t.rcd, pwr := t.pwr })) ∧
  (∀ (s : State), (railsUp s = true) → (rd F.PWR_STAT_DROOP s ≠ 0) → (s.pwr.lowAt + 1000 ≤ s.time.loc) → (∃ t, exec .droopRelease s = .next t ∧ rd F.PWR_STAT_DROOP t = 0 ∧ RegsKept [F.PWR_STAT_DROOP] s t)) ∧
  (∀ (x : TempSample) (s : State), (railsUp s = true) → (rd F.PWR_STAT_THERM s < thermReached (hottest [x.t0, x.t1, x.t2, x.t3]).2 s) → (∃ t, exec (.thermalSample x) s = .next t ∧ rd F.PWR_STAT_THERM t = thermReached (hottest [x.t0, x.t1, x.t2, x.t3]).2 s ∧ t.pwr.temps = [x.t0, x.t1, x.t2, x.t3] ∧ t.pwr.holdRun = false ∧ (310 ≤ (hottest [x.t0, x.t1, x.t2, x.t3]).2 → t.pwr.gated = true ∧ t.pwr.faultN = true))) ∧
  (∀ (s : State), (holdDue s = true) → (0 < rd F.PWR_STAT_THERM s) → (rd F.PWR_STAT_THERM s < 4) → (∃ t, exec .releaseHold s = .next t ∧ rd F.PWR_STAT_THERM t = rd F.PWR_STAT_THERM s - 1 ∧ RegsKept [F.PWR_STAT_THERM] s t ∧ t = { s with regs := t.regs, rcd := t.rcd, pwr := t.pwr })) ∧
  (∀ (op : MramOp) (s : State), (awake s = true) → (s.sys.waitEnv = none) → (s.mram.waiting = [op]) → (op.isStart = false) → ((mramNeed op).2 ≤ storedEnergy s) → (s.sys.pageDue = false) → (∃ t, exec .mramRetry s = .next t ∧ t.mram.started = s.mram.started ++ [op] ∧ t.mram.waiting = [] ∧ t = { s with regs := t.regs, rcd := t.rcd, mram := t.mram })) ∧
  (∀ (n q : Nat) (l : List MramOp) (s : State), (s.mram.started = .peerBase n q :: l) → (∃ t, exec .mramCompletion s = .next t ∧ t.mram.started = l ∧ tfind t.mram.peerBase n = some q ∧ rd F.PWR_NVM_CNT_DONE t = min (rd F.PWR_NVM_CNT_DONE s + 1) (2 ^ F.PWR_NVM_CNT_DONE.w - 1))) ∧
  (∀ (s : State), (s.pwr.wdtRun = true) → (exec .watchdogPeriod s = .next { s with pwr := { s.pwr with wdtLow := !s.pwr.wdtLow } })) ∧
  (∀ (n : Fin 4) (v : Word) (s : State), (reachable (.core n) s = true) → (v.toNat / 65536 = 0x5AF0) → (exec (.pwrHeartbeat (.core n) v) s = .next { s with pwr := { s.pwr with beats := s.pwr.beats ||| v.toNat % 16 } })) ∧
  (∀ (s : State), (clearBits (beatingCores s) s.pwr.beats = 0) → (exec .heartbeatWindow s = .next { s with pwr := { s.pwr with beats := 0 } })) ∧
  (∀ (s : State), (isFull s = true) → (awake s = true) → (clearBits (beatingCores s) s.pwr.beats ≠ 0) → (∃ t, exec .heartbeatWindow s = .next t ∧ t.sys.request = some (s.sys.request.getD .wdog) ∧ t.pwr.gated = true ∧ t.pwr.faultN = true ∧ t.pwr.wdtRun = false ∧ t.pwr.beats = 0)) ∧
  (∀ (s : State), (s.pwr.mode ≤ 2) → (∃ t, exec .operatingSeconds s = .next t ∧ t.rcd.secs = (s.rcd.secs + 1) % 2 ^ 32 ∧ rd F.REC_OPTIME_SECONDS t = (s.rcd.secs + 1) % 2 ^ 32 ∧ RegsKept [F.REC_OPTIME_SECONDS] s t)) ∧
  (∀ (u : State) (s : State), (awake s = true) → (recFlushTry s = (true, u)) → (exec .recorderFlush s = .next u)) ∧
  (∀ (u : State) (s : State), (awake s = true) → (recFlushTry s = (false, u)) → (∃ t, exec .recorderFlush s = .next t ∧ t.rcd.flushing = true ∧ rd F.REC_STAT_FLUSHING t = 1)) ∧
  (∀ (u : State) (s : State), (awake s = true) → (s.rcd.flushing = true) → (recFlushTry s = (true, u)) → (exec .flushRetry s = .next u)) ∧
  (∀ (s : State), (awake s = true) → (s.rcd.shadow = none) → (∃ t, exec (.freeze .link) s = .next t ∧ t.rcd = { s.rcd with shadow := some {}, frozenAt := s.time.loc, frozenTag := recTag s } ∧ rd F.REC_STAT_FROZEN t = 1 ∧ t.out = .resp [0] :: s.out ∧ RegsKept [F.REC_STAT_FROZEN] s t)) ∧
  (∀ (i : Iface) (s : State), (Admits (ifaceInit i) 0x140020 s) → (s.rcd.shadow = none) → (∃ t, exec (.freeze (.host i)) s = .next t ∧ t.rcd = { s.rcd with shadow := some {}, frozenAt := s.time.loc, frozenTag := recTag s } ∧ rd F.REC_STAT_FROZEN t = 1 ∧ rd F.REC_CMD_STAT_STATUS t = 0)) ∧
  (∀ (b : RecImage) (s : State), (awake s = true) → (s.rcd.shadow = some b) → (∃ t, exec (.thaw .diag) s = .next t ∧ t.rcd = { s.rcd with live := mergeShadow s.rcd.live b, shadow := none } ∧ rd F.REC_STAT_FROZEN t = 0)) ∧
  (∀ (c : BitVec 4) (s : State), (awake s = true) → (s.rcd.shadow = none) → (exec (.clear .link c 0) s = .next (emit (.resp [0]) (record 0x0C00 1 c.toNat { s with rcd := { s.rcd with live := clearCats c.toNat s.rcd.live } })))) ∧
  (∀ (b : RecImage) (s : State), (thawDue s = true) → (s.rcd.shadow = some b) → (∃ t, exec .automaticThaw s = .next t ∧ t.rcd = { s.rcd with live := mergeShadow s.rcd.live b, shadow := none } ∧ rd F.REC_STAT_FROZEN t = 0 ∧ RegsKept [F.REC_STAT_FROZEN] s t)) ∧
  (∀ (p : Fin 8192) (req : List Byte) (rsp : Nat) (s : State), (awake s = true) → (req.length = 8) → (diagPair p s = some rsp) → (byteAt req 0 = 1) → (4 ≤ leAt req 2 2) → (leAt req 2 2 + 8 ≤ pduN rsp 0 2 s) → (leAt req 4 4 % 4 = 0) → (leAt req 4 4 + leAt req 2 2 ≤ 0x12000) → (∃ t, exec (.diagnosticRead p req) s = .next t ∧ tget [] t.rcd.resp rsp = [0, 0, 0, 0] ++ slice req 4 4 ++ recBytes (leAt req 4 4) (leAt req 2 2) s ∧ t.out = .resp ([0, 0, 0, 0] ++ slice req 4 4 ++ recBytes (leAt req 4 4) (leAt req 2 2) s) :: s.out)) ∧
  (∀ (who : Initiator) (n : Fin 4) (v : Word) (s : State), (Admits who (0x150000 + 256 * n) s) → ((hostOf who).isSome = true) → (dbgOpen n s = true) → (v.toNat / 65536 = 0xD3B6) → (v.toNat % 4 = 1) → (∃ t, exec (.halt who n v) s = .next t ∧ t = { dbgHalt n s with hst := t.hst })) ∧
  (∀ (who : Initiator) (n : Fin 4) (v : Word) (s : State), (Admits who (0x150000 + 256 * n) s) → ((hostOf who).isSome = true) → (dbgOpen n s = true) → (v.toNat / 65536 = 0xD3B6) → (v.toNat % 4 = 2) → (∃ t, exec (.stepCore who n v) s = .next t ∧ t = { dbgStep n s with hst := t.hst })) ∧
  (∀ (who : Initiator) (n : Fin 4) (v : Word) (s : State), (Admits who (0x150000 + 256 * n) s) → ((hostOf who).isSome = true) → (dbgOpen n s = true) → (v.toNat / 65536 = 0xD3B6) → (v.toNat % 4 = 3) → (∃ t, exec (.resume who n v) s = .next t ∧ t = { dbgResume n s with hst := t.hst })) ∧
  (∀ (who : Initiator) (n : Fin 4) (v : Word) (s : State), (Admits who (0x15000C + 256 * n) s) → ((hostOf who).isSome = true) → (dbgOpen n s = true) → (∃ t, exec (.dbgCcnBp who n v) s = .next t ∧ rd (F.DBG_CCn_BP_ADDR.u n) t = v.toNat / 2 ∧ rd (F.DBG_CCn_BP_EN.u n) t = v.toNat % 2)) ∧
  (∀ (n : Fin 4) (a : Pass) (s : State), ((core n s).fenced = false) → ((core n s).halted = false) → ((winNow n s).isSome = true) → ((core n s).a = some a) → (atBp n a s = true) → (∃ t, exec (.bpHit n) s = .next t ∧ (core n t).halted = true ∧ (core n t).haltReq = false ∧ rd (F.DBG_CCn_STAT_BP_HIT.u n) t = 1 ∧ RegsKept [F.DBG_CCn_STAT_BP_HIT.u n] s t ∧ t = { s with regs := t.regs, ctl := t.ctl })) ∧
  (∀ (mv : Nat) (s : State), (railsUp s = true) → (∃ t, exec (.holdUpGaugeSample mv) s = .next t ∧ t.pwr = { s.pwr with samples := (min mv 1200 :: s.pwr.samples).take 4 } ∧ rd F.PWR_HOLDUP_ENERGY t = min (storedEnergy t) (2 ^ 20 - 1) ∧ RegsKept [F.PWR_HOLDUP_SENSE, F.PWR_HOLDUP_ENERGY] s t ∧ t = { s with regs := t.regs, pwr := t.pwr })) ∧
  (∀ (i : Fin 8) (s : State), (bit s.slp.active i = true) → (s.pwr.mode = 2) → (∃ t, exec (.wakeInputInactive i) s = .next t ∧ t.slp.active = putBit s.slp.active i false)) ∧
  (∀ (src : Fin 6) (s : State), (∃ t, exec (.tamperSourceInactive src) s = .next t ∧ rd F.KEY_TAMPER_STAT_ACTIVE t = putBit (rd F.KEY_TAMPER_STAT_ACTIVE s) src false % 2 ^ F.KEY_TAMPER_STAT_ACTIVE.w ∧ RegsKept [F.KEY_TAMPER_STAT_ACTIVE] s t ∧ t = { s with regs := t.regs, key := { s.key with quiet := t.key.quiet } })) ∧
  (∀ (sp : Fin 5) (w : Fin 3) (s : State), (∃ t, exec (.pcieLinkChange sp w) s = .next t ∧ rd F.HST_STAT_PCIE_LINK t = (if sp.val = 0 then 0 else 1) ∧ rd F.HST_STAT_PCIE_SPEED t = sp ∧ rd F.HST_STAT_PCIE_WIDTH t = (if sp.val = 0 then 0 else w.val) ∧ RegsKept [F.HST_STAT_PCIE_LINK, F.HST_STAT_PCIE_SPEED, F.HST_STAT_PCIE_WIDTH] s t ∧ t = { s with regs := t.regs })) ∧
  (∀ (port : Fin 32) (d : Fin 4) (a b : Int) (s : State), (gptpOn d port s = true) → (-5 ≤ a ∧ a ≤ 0) → (-3 ≤ b ∧ b ≤ 3) → (exec (.signalingMessage port d (some a) (some b)) s = .next (gptpSet d port { gptp d port s with logSync := a, logPd := b } s))) ∧
  (∀ (port : Fin 32) (d : Fin 4) (a b : Int) (s : State), (gptpOn d port s = true) → (a < -5 ∨ 0 < a) → (b < -3 ∨ 3 < b) → (∃ t, exec (.signalingMessage port d (some a) (some b)) s = .next t ∧ gptp d port t = gptp d port s ∧ t = { s with time := t.time }))

/-- With command c at the front of the queue, a step is exec of c on the state whose queue is the rest. With no command
waiting, a step is one tick of the clocks (the model's choice, log entry 1): in ACTIVE, IDLE and STANDBY the local clock
moves on by 4 ns and nothing but the clocks and the credits of shaped classes changes, unless a flushed CAN slot or a PDU
waits for the tick to end; in SLEEP only the time since its entry is kept (log entry 1), and in OFF nothing changes.
withCommand puts a command at the front, and no word of the opcode table spells a command. (R15, R79) -/
def Obligations.StepTakesTheFrontCommand : Prop :=
  (∀ (c : Instr) (r : List Instr) (s : State), (s.pending = c :: r) → (step s = exec c { s with pending := r })) ∧
  (∀ (c : Instr) (s : State), (step (s.withCommand c) = exec c s)) ∧
  (∀ (s : State), (s.pending = []) → (s.pwr.mode ≤ 2) → (∃ t, step s = .next t ∧ t.time.loc = (s.time.loc + 4) % 2 ^ 64 ∧ t.pending = [] ∧ t.pwr.mode = s.pwr.mode ∧ t.cfg = s.cfg ∧ t.sys.flash = s.sys.flash ∧ t.sys.session = s.sys.session)) ∧
  (∀ (s : State), (s.pending = []) → (s.pwr.mode ≤ 2) → (∀ p ∈ tkeys s.sig.pdus, (pduRun p s).again = false) → (∀ c ∈ tkeys s.can.chans, (canCh c s).gone = false) → (∃ t, step s = .next t ∧ t = { s with time := t.time, eth := t.eth })) ∧
  (∀ (s : State), (s.pending = []) → (s.pwr.mode = 3) → (step s = .next { s with slp := { s.slp with entry := s.slp.entry + 4 } })) ∧
  (∀ (s : State), (s.pending = []) → (3 < s.pwr.mode) → (step s = .next s)) ∧
  (∀ (nbits w : Nat) (s : State), (decodeTableWord nbits w = none ∧ s.withFetchWord nbits w = s))

/-- State.reset is the unpowered device that waits for POWER_ON_RESET (log entry 2): its queue is empty, its power mode is
OFF, no staging session is open, its plate flash is canonical and reads as erased, and its life-cycle counter is 0. (R45,
R69, R420) -/
def Obligations.ResetHoldsTheInvariants : Prop :=
  ((State.reset.pending = [] ∧ State.reset.pwr.mode = 4 ∧ SessionOk State.reset.sys.session ∧ State.reset.sys.session = none ∧ twf 0xFF State.reset.sys.flash = true ∧ (∀ a, tget 0xFF State.reset.sys.flash a = 0xFF) ∧ State.reset.key.lcCount = 0 ∧ State.reset.time.loc = 0))

/-- In every state, through every view and with or without read side effects, a read of BAR0 offset 0 answers 0x9616_00A2
and changes nothing. (R6) -/
def Obligations.IdentificationRegisterReadsTheRevision : Prop :=
  (∀ (via : View) (fx : Bool) (s : State), (regRead via fx 0 s = (some 0x961600A2, s)))

/-- In every state and through every view, a read of a register of the register map answers a 32-bit word in which every bit
that no field of the register covers is 0. The buffers, the MSI-X table and the table windows, which hold no register
fields, lie outside the map. (R9) -/
def Obligations.ReservedRegisterBitsReadZero : Prop :=
  (∀ (via : View) (fx : Bool) (a n m v k : Nat) (d : RegD) (s : State), (findReg a regMap = some (d, n, m)) → ((regRead via fx a s).1 = some v) → (a < 0x1000000) → (¬ (0x1000 ≤ a ∧ a < 0x2000)) → (¬ (0x101000 ≤ a ∧ a < 0x102000)) → (¬ (0xF2000 ≤ a ∧ a < 0xFC000)) → (¬ (0x138000 ≤ a ∧ a < 0x138400)) → (¬ (0x138800 ≤ a ∧ a < 0x138808)) → (∀ f ∈ d.fields, ¬ (f.lo ≤ k ∧ k < f.lo + f.w)) → (v.testBit k = false))

/-- With no command waiting and the time base running (ACTIVE, IDLE or STANDBY), a step is one tick and moves the local
clock on by 4 ns. POWER_ON_RESET, a WARM_RESET that happens and a WAKE_START that happens leave it at 0, as does the removal
of the supplies. No other command, whatever the state and the operands, changes the local clock: it is never stretched,
stepped or slewed. (R79) -/
def Obligations.LocalClockOnlyTicks : Prop :=
  (∀ (s : State), (s.pending = []) → (s.pwr.mode ≤ 2) → (∃ t, step s = .next t ∧ t.time.loc = (s.time.loc + 4) % 2 ^ 64)) ∧
  (∀ (env : StartEnv) (s : State), (∃ t, exec (.powerOnReset env) s = .next t ∧ t.time.loc = 0)) ∧
  (∀ (pin : Bool) (env : StartEnv) (s : State), (s.pwr.mode ≠ 4) → (pin = true ∨ s.sys.request ≠ none) → (∃ t, exec (.warmReset pin env) s = .next t ∧ t.time.loc = 0)) ∧
  (∀ (env : StartEnv) (s : State), (s.pwr.mode = 3) → (s.slp.inh = true) → (sleepEntering s = false) → (∃ t, exec (.wakeStart env) s = .next t ∧ t.time.loc = 0)) ∧
  (∀ (c : Instr) (s t : State), (exec c s = .next t) → (t.time.loc = s.time.loc ∨ (t.time.loc = 0 ∧ match c with
        | .powerOnReset _ => True
        | .warmReset pin _ => s.pwr.mode ≠ 4 ∧ (pin = true ∨ s.sys.request ≠ none)
        | .wakeStart _ => s.pwr.mode = 3 ∧ s.slp.inh = true
        | .suppliesRemoved => True
        | _ => False)))

/-- While the side-band scan runs, a scan that reads input 254 high or input 255 low is bad: it is counted in BAD, and the
debounced inputs and their registers keep their values. The third bad scan in a row sets FLD_SBS_STAT.FAULT and writes event
record 0x0505 of input 254 with data 1; the first two do neither. After a bad scan, FAULT stays through two good scans and
the third good scan in a row clears it. (R266) -/
def Obligations.SideBandFaultFollowsThreeScans : Prop :=
  (∀ (v : BitVec 256) (s : State), (sbsRuns s = true) → (bit v.toNat 254 = true ∨ bit v.toNat 255 = false) → (∃ t, exec (.sbsInputScan v) s = .next t ∧ t.sbs.ins = s.sbs.ins ∧ (∀ n, n < 8 → rd (F.FLD_SBS_INn_IN.u n) t = rd (F.FLD_SBS_INn_IN.u n) s) ∧ rd F.FLD_SBS_STAT_BAD t = min (rd F.FLD_SBS_STAT_BAD s + 1) (2 ^ F.FLD_SBS_STAT_BAD.w - 1) ∧ (s.sbs.bad ≠ 2 → rd F.FLD_SBS_STAT_FAULT t = rd F.FLD_SBS_STAT_FAULT s))) ∧
  (∀ (v1 v2 v3 : BitVec 256) (s : State), (sbsRuns s = true) → (s.sbs.bad = 0) → (∀ v ∈ [v1, v2, v3], bit v.toNat 254 = true ∨ bit v.toNat 255 = false) → (∃ t1 t2 t3, exec (.sbsInputScan v1) s = .next t1 ∧ exec (.sbsInputScan v2) t1 = .next t2 ∧ exec (.sbsInputScan v3) t2 = .next t3 ∧
        rd F.FLD_SBS_STAT_FAULT t2 = rd F.FLD_SBS_STAT_FAULT s ∧ t2.rcd = s.rcd ∧ rd F.FLD_SBS_STAT_FAULT t3 = 1 ∧ t3.sbs.ins = s.sbs.ins ∧
        ∃ u, t3 = record 0x0505 254 1 u ∧ u.rcd = s.rcd ∧ u.time.loc = s.time.loc)) ∧
  (∀ (v0 v1 v2 v3 : BitVec 256) (s : State), (sbsRuns s = true) → (bit v0.toNat 254 = true ∨ bit v0.toNat 255 = false) → (∀ v ∈ [v1, v2, v3], bit v.toNat 254 = false ∧ bit v.toNat 255 = true) → (∃ t0 t1 t2 t3, exec (.sbsInputScan v0) s = .next t0 ∧ exec (.sbsInputScan v1) t0 = .next t1 ∧ exec (.sbsInputScan v2) t1 = .next t2 ∧
        exec (.sbsInputScan v3) t2 = .next t3 ∧ rd F.FLD_SBS_STAT_FAULT t2 = rd F.FLD_SBS_STAT_FAULT t0 ∧ rd F.FLD_SBS_STAT_FAULT t3 = 0))

/-- Whatever command runs, in whatever state, the queue of waiting commands is afterwards what it was: commands wait in the
order in which they came, and none removes, adds or reorders another (log entry 2 for the starts). (R479, R515) -/
def Obligations.NoCommandTouchesTheQueue : Prop :=
  (∀ (c : Instr) (s t : State), (exec c s = .next t) → (t.pending = s.pending))

/-- In every state, a well-formed command answers a next state: no command of the table is refused, and none faults but for
an operand that no such command can carry. A command whose operands break their form (a CAN frame, an SA key, a LIN
response, a descriptor, an xSPI length, a mailbox content or a diagnostic request of a wrong size) faults by that name and
runs nothing. (R238, R257, R393, R416, R478, R482, R509) -/
def Obligations.WellFormedCommandsNeverStop : Prop :=
  (∀ (c : Instr) (s : State), (c.wf = true) → (∃ t, exec c s = .next t)) ∧
  (∀ (c : Instr) (s : State), (c.wf = false) → (∃ what, exec c s = .fault (.illFormed what)))

/-- Numbering ACTIVE, IDLE, STANDBY, SLEEP and OFF from 0 to 4: a command keeps the power mode, or it is IDLE leaving ACTIVE
with nothing to do, IDLE_RESUME, STANDBY_RESUME or a stipple's PREPARATION_EVENT back to ACTIVE, the consent ring's
COMMIT_POINT into STANDBY or SLEEP, WAKE_START from SLEEP with a wake latched, a POWER_ON_RESET, a WARM_RESET of a powered
device, or the removal of the supplies. No register write, host command or timer enters STANDBY or SLEEP, and a legal mode
stays legal. (R420, R421, R436) -/
def Obligations.PowerModeFollowsItsTable : Prop :=
  (∀ (c : Instr) (s t : State), (exec c s = .next t) → ((s.pwr.mode ≤ 4 → t.pwr.mode ≤ 4) ∧ (t.pwr.mode = s.pwr.mode ∨ match c with
        | .idle => s.pwr.mode = 0 ∧ mayIdle s = true ∧ t.pwr.mode = 1
        | .idleResume => s.pwr.mode = 1 ∧ t.pwr.mode = 0
        | .standbyResume => s.pwr.mode = 2 ∧ s.slp.toWake ≠ 0 ∧ t.pwr.mode = 0
        | .preparationEvent _ _ => s.pwr.mode ≤ 1 ∧ t.pwr.mode = 0
        | .commitPoint => s.pwr.mode ≤ 1 ∧ (t.pwr.mode = 2 ∨ t.pwr.mode = 3)
        | .wakeStart _ => s.pwr.mode = 3 ∧ s.slp.inh = true ∧ t.pwr.mode = 0
        | .powerOnReset _ => t.pwr.mode = 0
        | .warmReset _ _ => s.pwr.mode ≠ 4 ∧ t.pwr.mode = 0
        | .suppliesRemoved => t.pwr.mode = 4
        | _ => False)))

/-- From every state whose open staging session, if any, is no longer than a copy: a step that answers a next state keeps
that, keeps a canonical plate flash canonical, and leaves every flash byte outside copy A, copy B and the staging page as it
read before. So the 4 KiB between copy A and copy B and everything above 32 MiB are never written, by any command, in any
run. (R66, R67, R68, R69) -/
def Obligations.PlateFlashIsWrittenOnlyInItsRegions : Prop :=
  (∀ (s t : State), (SessionOk s.sys.session) → (step s = .next t) → (SessionOk t.sys.session ∧ (twf 0xFF s.sys.flash = true → twf 0xFF t.sys.flash = true) ∧ ∀ a, ¬ Stageable a → tget 0xFF t.sys.flash a = tget 0xFF s.sys.flash a)) ∧
  (∀ (n : Nat) (s t : State), (SessionOk s.sys.session) → (Runs n s t) → (SessionOk t.sys.session ∧ ∀ a, ¬ Stageable a → tget 0xFF t.sys.flash a = tget 0xFF s.sys.flash a))

/-- Over any number of steps, from any state, by any commands, resets and starts included, the stored life-cycle counter is
at the end at least what it was at the beginning. A life-cycle request therefore never counts twice: its counter must exceed
the stored one, which it becomes. (R368, R369) -/
def Obligations.LifeCycleCounterNeverFalls : Prop :=
  (∀ (c : Instr) (s t : State), (exec c s = .next t) → (s.key.lcCount ≤ t.key.lcCount)) ∧
  (∀ (n : Nat) (s t : State), (Runs n s t) → (s.key.lcCount ≤ t.key.lcCount))

/-- Outside the halted and recovery states, where RECOVER_START is a start of its own, a command that is no start leaves
every record of the plate in force as it was: configuration, stipple entries and period definitions, routes, policies and
schedules come from the plate alone, and no initiator, link message, engine, core or timer changes one. The clause leaves
out a posted xSPI write that covers SYS_STAGE_CTRL. (R13, R61, R105) -/
def Obligations.PlateRecordsComeFromStartsOnly : Prop :=
  (∀ (c : Instr) (s t : State), (exec c s = .next t) → (stage s ≠ 7) → (stage s ≠ 8) → (t.cfg = s.cfg ∨ match c with
        | .powerOnReset _ => True
        | .warmReset _ _ => True
        | .wakeStart _ => True
        | .startWatchdog => True
        | .tamperHoldCleared _ => True
        | .mramRetry => True
        | .suppliesRemoved => True
        | .writeApplied => ∃ addr b v a, s.hst.posted.head? = some (addr, b) ∧ xspiAddr addr s = .space v a ∧ a ≤ 0x30 ∧ 0x30 < a + b.length
        | _ => False))

end
end

