-- ==== Sys2Proof/Laws/Dispatch.lean ====
section
/-! SUPPORT. One lemma per command: what exec calls for it, and what a step does with a command in front. -/

namespace Sys2Proof.Machine

@[simp] theorem exec_powerOnReset (env : StartEnv) (s : State) :
    exec (.powerOnReset env) s = execPowerOnReset env s := rfl
@[simp] theorem exec_warmReset (pin : Bool) (env : StartEnv) (s : State) :
    exec (.warmReset pin env) s = execWarmReset pin env s := rfl
@[simp] theorem exec_sysRstReq (who : Initiator) (v : Word) (s : State) :
    exec (.sysRstReq who v) s = execSysRstReq who v s := rfl
@[simp] theorem exec_domainReset (d : Domain) (s : State) :
    exec (.domainReset d) s = execDomainReset d s := rfl
@[simp] theorem exec_domainReloadDone (d : Domain) (s : State) :
    exec (.domainReloadDone d) s = execDomainReloadDone d s := rfl
@[simp] theorem exec_wakeStart (env : StartEnv) (s : State) :
    exec (.wakeStart env) s = execWakeStart env s := rfl
@[simp] theorem exec_startWatchdog (s : State) :
    exec (.startWatchdog) s = execStartWatchdog s := rfl
@[simp] theorem exec_tamperHoldCleared (env : StartEnv) (s : State) :
    exec (.tamperHoldCleared env) s = execTamperHoldCleared env s := rfl
@[simp] theorem exec_openStage (who : Iface) (copyB : Bool) (s : State) :
    exec (.openStage who copyB) s = execOpen who copyB s := rfl
@[simp] theorem exec_stageWrite (who : Iface) (s : State) :
    exec (.stageWrite who) s = execStageWrite who s := rfl
@[simp] theorem exec_closeStage (who : Iface) (s : State) :
    exec (.closeStage who) s = execClose who s := rfl
@[simp] theorem exec_abortStage (who : Iface) (s : State) :
    exec (.abortStage who) s = execAbort who s := rfl
@[simp] theorem exec_recoverStart (who : Iface) (env : StartEnv) (s : State) :
    exec (.recoverStart who env) s = execRecoverStart who env s := rfl
@[simp] theorem exec_stageCommandDone (s : State) :
    exec (.stageCommandDone) s = execStageCommandDone s := rfl
@[simp] theorem exec_startRecordRetry (s : State) :
    exec (.startRecordRetry) s = execStartRecordRetry s := rfl
@[simp] theorem exec_sync (d : Fin 4) (port : Fin 32) (m : SyncMsg) (s : State) :
    exec (.sync d port m) s = execSync d port m s := rfl
@[simp] theorem exec_followUp (d : Fin 4) (port : Fin 32) (m : SyncMsg) (s : State) :
    exec (.followUp d port m) s = execFollowUp d port m s := rfl
@[simp] theorem exec_pdelayReq (d : Fin 4) (port : Fin 32) (m : PdelayReq) (s : State) :
    exec (.pdelayReq d port m) s = execPdelayReq d port m s := rfl
@[simp] theorem exec_pdelayResp (d : Fin 4) (port : Fin 32) (m : PdelayMsg) (s : State) :
    exec (.pdelayResp d port m) s = execPdelayResp d port m s := rfl
@[simp] theorem exec_syncInterval (d : Fin 4) (port : Fin 32) (ns : Fin 4) (s : State) :
    exec (.syncInterval d port ns) s = execSyncInterval d port ns s := rfl
@[simp] theorem exec_pdelayReqInterval (d : Fin 4) (port : Fin 32) (s : State) :
    exec (.pdelayReqInterval d port) s = execPdelayReqInterval d port s := rfl
@[simp] theorem exec_bmca (d : Fin 4) (l : List Announce) (s : State) :
    exec (.bmca d l) s = execBmca d l s := rfl
@[simp] theorem exec_syncReceiptTimeout (d : Fin 4) (s : State) :
    exec (.syncReceiptTimeout d) s = execSyncReceiptTimeout d s := rfl
@[simp] theorem exec_holdoverLimit (d : Fin 4) (s : State) :
    exec (.holdoverLimit d) s = execHoldoverLimit d s := rfl
@[simp] theorem exec_timestampDrain (port : Fin 32) (s : State) :
    exec (.timestampDrain port) s = execTimestampDrain port s := rfl
@[simp] theorem exec_ppsOut (s : State) :
    exec (.ppsOut) s = execPpsOut s := rfl
@[simp] theorem exec_ppsOutWidth (s : State) :
    exec (.ppsOutWidth) s = execPpsOutWidth s := rfl
@[simp] theorem exec_ppsIn (s : State) :
    exec (.ppsIn) s = execPpsIn s := rfl
@[simp] theorem exec_nopAction (e : Fin 4096) (s : State) :
    exec (.nopAction e) s = execNopAction e s := rfl
@[simp] theorem exec_launchFrame (e : Fin 4096) (s : State) :
    exec (.launchFrame e) s = execLaunchFrame e s := rfl
@[simp] theorem exec_launchPdu (e : Fin 4096) (s : State) :
    exec (.launchPdu e) s = execLaunchPdu e s := rfl
@[simp] theorem exec_gate (e : Fin 4096) (s : State) :
    exec (.gate e) s = execGate e s := rfl
@[simp] theorem exec_snapshot (e : Fin 4096) (s : State) :
    exec (.snapshot e) s = execSnapshot e s := rfl
@[simp] theorem exec_output (e : Fin 4096) (s : State) :
    exec (.output e) s = execOutput e s := rfl
@[simp] theorem exec_plcaBeacon (e : Fin 4096) (s : State) :
    exec (.plcaBeacon e) s = execPlcaBeacon e s := rfl
@[simp] theorem exec_engineEvent (e : Fin 4096) (s : State) :
    exec (.engineEvent e) s = execEngineEvent e s := rfl
@[simp] theorem exec_outputPulseEnd (o : StpOut) (s : State) :
    exec (.outputPulseEnd o) s = execOutputPulseEnd o s := rfl
@[simp] theorem exec_preparationEvent (e : Fin 4096) (gv : Fin 4) (s : State) :
    exec (.preparationEvent e gv) s = execPreparationEvent e gv s := rfl
@[simp] theorem exec_guardWindow (e : Fin 4096) (s : State) :
    exec (.guardWindow e) s = execGuardWindow e s := rfl
@[simp] theorem exec_lateLimit (e : Fin 4096) (s : State) :
    exec (.lateLimit e) s = execLateLimit e s := rfl
@[simp] theorem exec_cellTime (err : Option MemError) (s : State) :
    exec (.cellTime err) s = execCellTime err s := rfl
@[simp] theorem exec_frameReceived (port : Fin 32) (bytes : List Byte) (rx : RxEnd) (s : State) :
    exec (.frameReceived port bytes rx) s = execFrameReceived port bytes rx s := rfl
@[simp] theorem exec_lookupResult (node : Fin 11) (upset : Option TableUpset) (s : State) :
    exec (.lookupResult node upset) s = execLookupResult node upset s := rfl
@[simp] theorem exec_enqueue (node : Fin 11) (s : State) :
    exec (.enqueue node) s = execEnqueue node s := rfl
@[simp] theorem exec_transmissionEnd (port : Fin 32) (s : State) :
    exec (.transmissionEnd port) s = execTransmissionEnd port s := rfl
@[simp] theorem exec_qmFlush (who : Initiator) (v : Word) (s : State) :
    exec (.qmFlush who v) s = execQmFlush who v s := rfl
@[simp] theorem exec_flushDone (s : State) :
    exec (.flushDone) s = execFlushDone s := rfl
@[simp] theorem exec_popTimeout (w : Waiter) (s : State) :
    exec (.popTimeout w) s = execPopTimeout w s := rfl
@[simp] theorem exec_scraper (s : State) :
    exec (.scraper) s = execScraper s := rfl
@[simp] theorem exec_learn (p : Fin 2) (s : State) :
    exec (.learn p) s = execLearn p s := rfl
@[simp] theorem exec_burnisher (s : State) :
    exec (.burnisher) s = execBurnisher s := rfl
@[simp] theorem exec_scrub (bad : List TableUpset) (s : State) :
    exec (.scrub bad) s = execScrub bad s := rfl
@[simp] theorem exec_restore (s : State) :
    exec (.restore) s = execRestore s := rfl
@[simp] theorem exec_policerRefill (s : State) :
    exec (.policerRefill) s = execPolicerRefill s := rfl
@[simp] theorem exec_streamGuardWindow (p : Fin 2) (st : Fin 8192) (s : State) :
    exec (.streamGuardWindow p st) s = execStreamGuardWindow p st s := rfl
@[simp] theorem exec_streamGuardRelease (p : Fin 2) (st : Fin 8192) (s : State) :
    exec (.streamGuardRelease p st) s = execStreamGuardRelease p st s := rfl
@[simp] theorem exec_containmentWindow (u : Fin 33) (s : State) :
    exec (.containmentWindow u) s = execContainmentWindow u s := rfl
@[simp] theorem exec_linkChange (port : Fin 16) (up : Bool) (speed : Option (Fin 5)) (s : State) :
    exec (.linkChange port up speed) s = execLinkChange port up speed s := rfl
@[simp] theorem exec_pauseReceived (port : Fin 16) (m : PauseMsg) (s : State) :
    exec (.pauseReceived port m) s = execPauseReceived port m s := rfl
@[simp] theorem exec_pauseExpiry (port : Fin 16) (cls : Fin 8) (s : State) :
    exec (.pauseExpiry port cls) s = execPauseExpiry port cls s := rfl
@[simp] theorem exec_pauseRepeat (port : Fin 16) (cls : Fin 8) (s : State) :
    exec (.pauseRepeat port cls) s = execPauseRepeat port cls s := rfl
@[simp] theorem exec_verifyTimer (port : Fin 16) (s : State) :
    exec (.verifyTimer port) s = execVerifyTimer port s := rfl
@[simp] theorem exec_verifyResponse (port : Fin 16) (s : State) :
    exec (.verifyResponse port) s = execVerifyResponse port s := rfl
@[simp] theorem exec_gateControlEntry (port : Fin 16) (s : State) :
    exec (.gateControlEntry port) s = execGateControlEntry port s := rfl
@[simp] theorem exec_frerResetTimer (e : Fin 512) (s : State) :
    exec (.frerResetTimer e) s = execFrerResetTimer e s := rfl
@[simp] theorem exec_plcaCycle (sg : Fin 16) (s : State) :
    exec (.plcaCycle sg) s = execPlcaCycle sg s := rfl
@[simp] theorem exec_toTimer (sg : Fin 16) (s : State) :
    exec (.toTimer sg) s = execToTimer sg s := rfl
@[simp] theorem exec_beaconReceived (sg : Fin 16) (s : State) :
    exec (.beaconReceived sg) s = execBeaconReceived sg s := rfl
@[simp] theorem exec_beaconTimeout (sg : Fin 16) (s : State) :
    exec (.beaconTimeout sg) s = execBeaconTimeout sg s := rfl
@[simp] theorem exec_collision (sg : Fin 16) (late : Bool) (s : State) :
    exec (.collision sg late) s = execCollision sg late s := rfl
@[simp] theorem exec_backoff (sg : Fin 16) (s : State) :
    exec (.backoff sg) s = execBackoff sg s := rfl
@[simp] theorem exec_lowPowerExit (sg : Fin 16) (s : State) :
    exec (.lowPowerExit sg) s = execLowPowerExit sg s := rfl
@[simp] theorem exec_wakePattern (sg : Fin 16) (pat : WakeBurst) (s : State) :
    exec (.wakePattern sg pat) s = execWakePattern sg pat s := rfl
@[simp] theorem exec_resetReleaseDelay (port : Fin 16) (s : State) :
    exec (.resetReleaseDelay port) s = execResetReleaseDelay port s := rfl
@[simp] theorem exec_mdioScriptAccess (port : Fin 16) (s : State) :
    exec (.mdioScriptAccess port) s = execMdioScriptAccess port s := rfl
@[simp] theorem exec_clause22Write (who : Initiator) (port : Fin 16) (v : Word) (s : State) :
    exec (.clause22Write who port v) s = execClause22Write who port v s := rfl
@[simp] theorem exec_clause22Read (who : Initiator) (port : Fin 16) (v : Word) (s : State) :
    exec (.clause22Read who port v) s = execClause22Read who port v s := rfl
@[simp] theorem exec_clause45Write (who : Initiator) (port : Fin 16) (v : Word) (s : State) :
    exec (.clause45Write who port v) s = execClause45Write who port v s := rfl
@[simp] theorem exec_clause45Read (who : Initiator) (port : Fin 16) (v : Word) (s : State) :
    exec (.clause45Read who port v) s = execClause45Read who port v s := rfl
@[simp] theorem exec_mdioCommandDone (bus : Fin 2) (data : BitVec 16) (s : State) :
    exec (.mdioCommandDone bus data) s = execMdioCommandDone bus data s := rfl
@[simp] theorem exec_canFrameReceived (ch : Fin 96) (r : CanRx) (s : State) :
    exec (.canFrameReceived ch r) s = execCanFrameReceived ch r s := rfl
@[simp] theorem exec_cancellation (ch : Fin 96) (f : CanFrame) (s : State) :
    exec (.cancellation ch f) s = execCancellation ch f s := rfl
@[simp] theorem exec_canFrameSent (x : CanTx) (s : State) :
    exec (.canFrameSent x) s = execCanFrameSent x s := rfl
@[simp] theorem exec_arbitrationLost (ch : Fin 96) (s : State) :
    exec (.arbitrationLost ch) s = execArbitrationLost ch s := rfl
@[simp] theorem exec_canError (ch : Fin 96) (k : CanErr) (s : State) :
    exec (.canError ch k) s = execCanError ch k s := rfl
@[simp] theorem exec_busOffRecoveryDelay (ch : Fin 96) (s : State) :
    exec (.busOffRecoveryDelay ch) s = execBusOffRecoveryDelay ch s := rfl
@[simp] theorem exec_busOffRecovery (ch : Fin 96) (s : State) :
    exec (.busOffRecovery ch) s = execBusOffRecovery ch s := rfl
@[simp] theorem exec_integration (ch : Fin 96) (s : State) :
    exec (.integration ch) s = execIntegration ch s := rfl
@[simp] theorem exec_cancelRelease (ch : Fin 96) (s : State) :
    exec (.cancelRelease ch) s = execCancelRelease ch s := rfl
@[simp] theorem exec_babbleWindow (ch : FieldCh) (load : Nat) (s : State) :
    exec (.babbleWindow ch load) s = execBabbleWindow ch load s := rfl
@[simp] theorem exec_babbleRelease (ch : FieldCh) (s : State) :
    exec (.babbleRelease ch) s = execBabbleRelease ch s := rfl
@[simp] theorem exec_linSlot (ch : Fin 32) (s : State) :
    exec (.linSlot ch) s = execLinSlot ch s := rfl
@[simp] theorem exec_scheduleSwitch (ch : Fin 32) (table : Fin 16) (s : State) :
    exec (.scheduleSwitch ch table) s = execScheduleSwitch ch table s := rfl
@[simp] theorem exec_linHeader (ch : Fin 32) (h : LinHdr) (s : State) :
    exec (.linHeader ch h) s = execLinHeader ch h s := rfl
@[simp] theorem exec_linResponse (ch : Fin 32) (r : LinResp) (s : State) :
    exec (.linResponse ch r) s = execLinResponse ch r s := rfl
@[simp] theorem exec_linWake (ch : Fin 32) (us : Nat) (s : State) :
    exec (.linWake ch us) s = execLinWake ch us s := rfl
@[simp] theorem exec_sbsInputScan (bits : BitVec 256) (s : State) :
    exec (.sbsInputScan bits) s = execSbsInputScan bits s := rfl
@[simp] theorem exec_sbsOutputUpdate (o : Fin 256) (v : SbsValue) (s : State) :
    exec (.sbsOutputUpdate o v) s = execSbsOutputUpdate o v s := rfl
@[simp] theorem exec_sbsUpdateEnd (s : State) :
    exec (.sbsUpdateEnd) s = execSbsUpdateEnd s := rfl
@[simp] theorem exec_sbsRefresh (s : State) :
    exec (.sbsRefresh) s = execSbsRefresh s := rfl
@[simp] theorem exec_pduDue (p : Fin 8192) (s : State) :
    exec (.pduDue p) s = execPduDue p s := rfl
@[simp] theorem exec_minimumGap (p : Fin 8192) (s : State) :
    exec (.minimumGap p) s = execMinimumGap p s := rfl
@[simp] theorem exec_maximumBatchingDelay (k : Fin 64) (s : State) :
    exec (.maximumBatchingDelay k) s = execMaximumBatchingDelay k s := rfl
@[simp] theorem exec_dispatch (x : GvDispatch) (s : State) :
    exec (.dispatch x) s = execDispatch x s := rfl
@[simp] theorem exec_stallEnd (e : Fin 16) (c : Fin 8) (s : State) :
    exec (.stallEnd e c) s = execStallEnd e c s := rfl
@[simp] theorem exec_engineTimer (e : Fin 16) (t : Fin 16) (s : State) :
    exec (.engineTimer e t) s = execEngineTimer e t s := rfl
@[simp] theorem exec_engineReload (e : Fin 16) (s : State) :
    exec (.engineReload e) s = execEngineReload e s := rfl
@[simp] theorem exec_nop (e : Fin 16) (c : Fin 8) (w : BitVec 26) (s : State) :
    exec (.nop e c w) s = execNop e c w s := rfl
@[simp] theorem exec_add (e : Fin 16) (c : Fin 8) (w : BitVec 26) (s : State) :
    exec (.add e c w) s = execAdd e c w s := rfl
@[simp] theorem exec_sub (e : Fin 16) (c : Fin 8) (w : BitVec 26) (s : State) :
    exec (.sub e c w) s = execSub e c w s := rfl
@[simp] theorem exec_andOp (e : Fin 16) (c : Fin 8) (w : BitVec 26) (s : State) :
    exec (.andOp e c w) s = execAnd e c w s := rfl
@[simp] theorem exec_orOp (e : Fin 16) (c : Fin 8) (w : BitVec 26) (s : State) :
    exec (.orOp e c w) s = execOr e c w s := rfl
@[simp] theorem exec_xorOp (e : Fin 16) (c : Fin 8) (w : BitVec 26) (s : State) :
    exec (.xorOp e c w) s = execXor e c w s := rfl
@[simp] theorem exec_shl (e : Fin 16) (c : Fin 8) (w : BitVec 26) (s : State) :
    exec (.shl e c w) s = execShl e c w s := rfl
@[simp] theorem exec_shr (e : Fin 16) (c : Fin 8) (w : BitVec 26) (s : State) :
    exec (.shr e c w) s = execShr e c w s := rfl
@[simp] theorem exec_sar (e : Fin 16) (c : Fin 8) (w : BitVec 26) (s : State) :
    exec (.sar e c w) s = execSar e c w s := rfl
@[simp] theorem exec_mul (e : Fin 16) (c : Fin 8) (w : BitVec 26) (s : State) :
    exec (.mul e c w) s = execMul e c w s := rfl
@[simp] theorem exec_slt (e : Fin 16) (c : Fin 8) (w : BitVec 26) (s : State) :
    exec (.slt e c w) s = execSlt e c w s := rfl
@[simp] theorem exec_sltu (e : Fin 16) (c : Fin 8) (w : BitVec 26) (s : State) :
    exec (.sltu e c w) s = execSltu e c w s := rfl
@[simp] theorem exec_addi (e : Fin 16) (c : Fin 8) (w : BitVec 26) (s : State) :
    exec (.addi e c w) s = execAddi e c w s := rfl
@[simp] theorem exec_andi (e : Fin 16) (c : Fin 8) (w : BitVec 26) (s : State) :
    exec (.andi e c w) s = execAndi e c w s := rfl
@[simp] theorem exec_ori (e : Fin 16) (c : Fin 8) (w : BitVec 26) (s : State) :
    exec (.ori e c w) s = execOri e c w s := rfl
@[simp] theorem exec_xori (e : Fin 16) (c : Fin 8) (w : BitVec 26) (s : State) :
    exec (.xori e c w) s = execXori e c w s := rfl
@[simp] theorem exec_shli (e : Fin 16) (c : Fin 8) (w : BitVec 26) (s : State) :
    exec (.shli e c w) s = execShli e c w s := rfl
@[simp] theorem exec_shri (e : Fin 16) (c : Fin 8) (w : BitVec 26) (s : State) :
    exec (.shri e c w) s = execShri e c w s := rfl
@[simp] theorem exec_sari (e : Fin 16) (c : Fin 8) (w : BitVec 26) (s : State) :
    exec (.sari e c w) s = execSari e c w s := rfl
@[simp] theorem exec_lsh (e : Fin 16) (c : Fin 8) (w : BitVec 26) (s : State) :
    exec (.lsh e c w) s = execLsh e c w s := rfl
@[simp] theorem exec_bfx (e : Fin 16) (c : Fin 8) (w : BitVec 26) (s : State) :
    exec (.bfx e c w) s = execBfx e c w s := rfl
@[simp] theorem exec_bfi (e : Fin 16) (c : Fin 8) (w : BitVec 26) (s : State) :
    exec (.bfi e c w) s = execBfi e c w s := rfl
@[simp] theorem exec_bsw (e : Fin 16) (c : Fin 8) (w : BitVec 26) (s : State) :
    exec (.bsw e c w) s = execBsw e c w s := rfl
@[simp] theorem exec_beq (e : Fin 16) (c : Fin 8) (w : BitVec 26) (s : State) :
    exec (.beq e c w) s = execBeq e c w s := rfl
@[simp] theorem exec_bne (e : Fin 16) (c : Fin 8) (w : BitVec 26) (s : State) :
    exec (.bne e c w) s = execBne e c w s := rfl
@[simp] theorem exec_blt (e : Fin 16) (c : Fin 8) (w : BitVec 26) (s : State) :
    exec (.blt e c w) s = execBlt e c w s := rfl
@[simp] theorem exec_bge (e : Fin 16) (c : Fin 8) (w : BitVec 26) (s : State) :
    exec (.bge e c w) s = execBge e c w s := rfl
@[simp] theorem exec_bltu (e : Fin 16) (c : Fin 8) (w : BitVec 26) (s : State) :
    exec (.bltu e c w) s = execBltu e c w s := rfl
@[simp] theorem exec_bgeu (e : Fin 16) (c : Fin 8) (w : BitVec 26) (s : State) :
    exec (.bgeu e c w) s = execBgeu e c w s := rfl
@[simp] theorem exec_jmp (e : Fin 16) (c : Fin 8) (w : BitVec 26) (s : State) :
    exec (.jmp e c w) s = execJmp e c w s := rfl
@[simp] theorem exec_call (e : Fin 16) (c : Fin 8) (w : BitVec 26) (s : State) :
    exec (.call e c w) s = execCall e c w s := rfl
@[simp] theorem exec_jr (e : Fin 16) (c : Fin 8) (w : BitVec 26) (s : State) :
    exec (.jr e c w) s = execJr e c w s := rfl
@[simp] theorem exec_ld (e : Fin 16) (c : Fin 8) (w : BitVec 26) (s : State) :
    exec (.ld e c w) s = execLd e c w s := rfl
@[simp] theorem exec_st (e : Fin 16) (c : Fin 8) (w : BitVec 26) (s : State) :
    exec (.st e c w) s = execSt e c w s := rfl
@[simp] theorem exec_fld (e : Fin 16) (c : Fin 8) (w : BitVec 26) (s : State) :
    exec (.fld e c w) s = execFld e c w s := rfl
@[simp] theorem exec_fst (e : Fin 16) (c : Fin 8) (w : BitVec 26) (s : State) :
    exec (.fst e c w) s = execFst e c w s := rfl
@[simp] theorem exec_tld (e : Fin 16) (c : Fin 8) (w : BitVec 26) (s : State) :
    exec (.tld e c w) s = execTld e c w s := rfl
@[simp] theorem exec_sget (e : Fin 16) (c : Fin 8) (w : BitVec 26) (s : State) :
    exec (.sget e c w) s = execSget e c w s := rfl
@[simp] theorem exec_sput (e : Fin 16) (c : Fin 8) (w : BitVec 26) (s : State) :
    exec (.sput e c w) s = execSput e c w s := rfl
@[simp] theorem exec_commit (e : Fin 16) (c : Fin 8) (w : BitVec 26) (s : State) :
    exec (.commit e c w) s = execCommit e c w s := rfl
@[simp] theorem exec_unpack (e : Fin 16) (c : Fin 8) (w : BitVec 26) (s : State) :
    exec (.unpack e c w) s = execUnpack e c w s := rfl
@[simp] theorem exec_pack (e : Fin 16) (c : Fin 8) (w : BitVec 26) (s : State) :
    exec (.pack e c w) s = execPack e c w s := rfl
@[simp] theorem exec_secv (e : Fin 16) (c : Fin 8) (w : BitVec 26) (s : State) :
    exec (.secv e c w) s = execSecv e c w s := rfl
@[simp] theorem exec_secg (e : Fin 16) (c : Fin 8) (w : BitVec 26) (s : State) :
    exec (.secg e c w) s = execSecg e c w s := rfl
@[simp] theorem exec_pop (e : Fin 16) (c : Fin 8) (w : BitVec 26) (s : State) :
    exec (.pop e c w) s = execPop e c w s := rfl
@[simp] theorem exec_push (e : Fin 16) (c : Fin 8) (w : BitVec 26) (s : State) :
    exec (.push e c w) s = execPush e c w s := rfl
@[simp] theorem exec_fnew (e : Fin 16) (c : Fin 8) (w : BitVec 26) (s : State) :
    exec (.fnew e c w) s = execFnew e c w s := rfl
@[simp] theorem exec_frel (e : Fin 16) (c : Fin 8) (w : BitVec 26) (s : State) :
    exec (.frel e c w) s = execFrel e c w s := rfl
@[simp] theorem exec_fget (e : Fin 16) (c : Fin 8) (w : BitVec 26) (s : State) :
    exec (.fget e c w) s = execFget e c w s := rfl
@[simp] theorem exec_fput (e : Fin 16) (c : Fin 8) (w : BitVec 26) (s : State) :
    exec (.fput e c w) s = execFput e c w s := rfl
@[simp] theorem exec_ciph (e : Fin 16) (c : Fin 8) (w : BitVec 26) (s : State) :
    exec (.ciph e c w) s = execCiph e c w s := rfl
@[simp] theorem exec_acfadd (e : Fin 16) (c : Fin 8) (w : BitVec 26) (s : State) :
    exec (.acfadd e c w) s = execAcfadd e c w s := rfl
@[simp] theorem exec_timeOp (e : Fin 16) (c : Fin 8) (w : BitVec 26) (s : State) :
    exec (.timeOp e c w) s = execTime e c w s := rfl
@[simp] theorem exec_tarm (e : Fin 16) (c : Fin 8) (w : BitVec 26) (s : State) :
    exec (.tarm e c w) s = execTarm e c w s := rfl
@[simp] theorem exec_raise (e : Fin 16) (c : Fin 8) (w : BitVec 26) (s : State) :
    exec (.raise e c w) s = execRaise e c w s := rfl
@[simp] theorem exec_hook (e : Fin 16) (c : Fin 8) (w : BitVec 26) (s : State) :
    exec (.hook e c w) s = execHook e c w s := rfl
@[simp] theorem exec_hret (e : Fin 16) (c : Fin 8) (w : BitVec 26) (s : State) :
    exec (.hret e c w) s = execHret e c w s := rfl
@[simp] theorem exec_latch (e : Fin 16) (c : Fin 8) (w : BitVec 26) (s : State) :
    exec (.latch e c w) s = execLatch e c w s := rfl
@[simp] theorem exec_cnt (e : Fin 16) (c : Fin 8) (w : BitVec 26) (s : State) :
    exec (.cnt e c w) s = execCnt e c w s := rfl
@[simp] theorem exec_endHandler (e : Fin 16) (c : Fin 8) (w : BitVec 26) (s : State) :
    exec (.endHandler e c w) s = execEnd e c w s := rfl
@[simp] theorem exec_window (core : Fin 4) (w : Fin 128) (s : State) :
    exec (.window core w) s = execWindow core w s := rfl
@[simp] theorem exec_slice (core : Fin 4) (u : SliceUpset) (s : State) :
    exec (.slice core u) s = execSlice core u s := rfl
@[simp] theorem exec_coreReload (core : Fin 4) (testOk : Bool) (s : State) :
    exec (.coreReload core testOk) s = execCoreReload core testOk s := rfl
@[simp] theorem exec_rv32imcInstruction (core : Fin 4) (s : State) :
    exec (.rv32imcInstruction core) s = execRv32imcInstruction core s := rfl
@[simp] theorem exec_wfi (core : Fin 4) (s : State) :
    exec (.wfi core) s = execWfi core s := rfl
@[simp] theorem exec_ecall (core : Fin 4) (s : State) :
    exec (.ecall core) s = execEcall core s := rfl
@[simp] theorem exec_waitEnd (core : Fin 4) (slot : Fin 16) (s : State) :
    exec (.waitEnd core slot) s = execWaitEnd core slot s := rfl
@[simp] theorem exec_popK (core : Fin 4) (k : Fin 8) (s : State) :
    exec (.popK core k) s = execPopK core k s := rfl
@[simp] theorem exec_pushH (core : Fin 4) (h : Fin 16) (v : Word) (s : State) :
    exec (.pushH core h v) s = execPushH core h v s := rfl
@[simp] theorem exec_relH (core : Fin 4) (h : Fin 16) (s : State) :
    exec (.relH core h) s = execRelH core h s := rfl
@[simp] theorem exec_keyUpdate (who : MboxUser) (args : List Byte) (s : State) :
    exec (.keyUpdate who args) s = execKeyUpdate who args s := rfl
@[simp] theorem exec_keyDerive (who : MboxUser) (args : List Byte) (s : State) :
    exec (.keyDerive who args) s = execKeyDerive who args s := rfl
@[simp] theorem exec_ecdh (who : MboxUser) (args : List Byte) (s : State) :
    exec (.ecdh who args) s = execEcdh who args s := rfl
@[simp] theorem exec_vsZeroise (who : MboxUser) (args : List Byte) (s : State) :
    exec (.vsZeroise who args) s = execVsZeroise who args s := rfl
@[simp] theorem exec_slotInfo (who : MboxUser) (args : List Byte) (s : State) :
    exec (.slotInfo who args) s = execSlotInfo who args s := rfl
@[simp] theorem exec_getIdentity (who : MboxUser) (args : List Byte) (s : State) :
    exec (.getIdentity who args) s = execGetIdentity who args s := rfl
@[simp] theorem exec_signChallenge (who : MboxUser) (args : List Byte) (s : State) :
    exec (.signChallenge who args) s = execSignChallenge who args s := rfl
@[simp] theorem exec_lcRequest (who : MboxUser) (args : List Byte) (s : State) :
    exec (.lcRequest who args) s = execLcRequest who args s := rfl
@[simp] theorem exec_debugToken (who : MboxUser) (args : List Byte) (s : State) :
    exec (.debugToken who args) s = execDebugToken who args s := rfl
@[simp] theorem exec_certInstall (who : MboxUser) (args : List Byte) (formed : Bool) (s : State) :
    exec (.certInstall who args formed) s = execCertInstall who args formed s := rfl
@[simp] theorem exec_lcEnterMfg (who : MboxUser) (s : State) :
    exec (.lcEnterMfg who) s = execLcEnterMfg who s := rfl
@[simp] theorem exec_lcScrap (who : MboxUser) (s : State) :
    exec (.lcScrap who) s = execLcScrap who s := rfl
@[simp] theorem exec_tamperDetection (src : Fin 6) (s : State) :
    exec (.tamperDetection src) s = execTamperDetection src s := rfl
@[simp] theorem exec_l2Release (s : State) :
    exec (.l2Release) s = execL2Release s := rfl
@[simp] theorem exec_ctr (pair : Fin 4) (s : State) :
    exec (.ctr pair) s = execCtr pair s := rfl
@[simp] theorem exec_gcmEncrypt (pair : Fin 4) (s : State) :
    exec (.gcmEncrypt pair) s = execGcmEncrypt pair s := rfl
@[simp] theorem exec_gcmDecryptAndVerify (pair : Fin 4) (s : State) :
    exec (.gcmDecryptAndVerify pair) s = execGcmDecryptAndVerify pair s := rfl
@[simp] theorem exec_gmacGenerate (pair : Fin 4) (s : State) :
    exec (.gmacGenerate pair) s = execGmacGenerate pair s := rfl
@[simp] theorem exec_gmacVerify (pair : Fin 4) (s : State) :
    exec (.gmacVerify pair) s = execGmacVerify pair s := rfl
@[simp] theorem exec_cmacGenerate (pair : Fin 4) (s : State) :
    exec (.cmacGenerate pair) s = execCmacGenerate pair s := rfl
@[simp] theorem exec_cmacVerify (pair : Fin 4) (s : State) :
    exec (.cmacVerify pair) s = execCmacVerify pair s := rfl
@[simp] theorem exec_cbcEncrypt (pair : Fin 4) (s : State) :
    exec (.cbcEncrypt pair) s = execCbcEncrypt pair s := rfl
@[simp] theorem exec_cbcDecrypt (pair : Fin 4) (s : State) :
    exec (.cbcDecrypt pair) s = execCbcDecrypt pair s := rfl
@[simp] theorem exec_xtsEncrypt (pair : Fin 4) (s : State) :
    exec (.xtsEncrypt pair) s = execXtsEncrypt pair s := rfl
@[simp] theorem exec_xtsDecrypt (pair : Fin 4) (s : State) :
    exec (.xtsDecrypt pair) s = execXtsDecrypt pair s := rfl
@[simp] theorem exec_keyWrap (pair : Fin 4) (s : State) :
    exec (.keyWrap pair) s = execKeyWrap pair s := rfl
@[simp] theorem exec_keyUnwrap (pair : Fin 4) (s : State) :
    exec (.keyUnwrap pair) s = execKeyUnwrap pair s := rfl
@[simp] theorem exec_sha256 (pair : Fin 4) (s : State) :
    exec (.sha256 pair) s = execSha256 pair s := rfl
@[simp] theorem exec_hmacSha256Generate (pair : Fin 4) (s : State) :
    exec (.hmacSha256Generate pair) s = execHmacSha256Generate pair s := rfl
@[simp] theorem exec_hmacSha256Verify (pair : Fin 4) (s : State) :
    exec (.hmacSha256Verify pair) s = execHmacSha256Verify pair s := rfl
@[simp] theorem exec_checkingBeforeRelease (pair : Fin 4) (c : LaneCheck) (s : State) :
    exec (.checkingBeforeRelease pair c) s = execCheckingBeforeRelease pair c s := rfl
@[simp] theorem exec_frameJob (pair : Fin 4) (c : LaneCheck) (s : State) :
    exec (.frameJob pair c) s = execFrameJob pair c s := rfl
@[simp] theorem exec_sakInstallation (port : Fin 16) (sa : SaInstall) (s : State) :
    exec (.sakInstallation port sa) s = execSakInstallation port sa s := rfl
@[simp] theorem exec_saSwitch (port : Fin 16) (an : Fin 4) (s : State) :
    exec (.saSwitch port an) s = execSaSwitch port an s := rfl
@[simp] theorem exec_idle (s : State) :
    exec (.idle) s = execIdle s := rfl
@[simp] theorem exec_idleResume (s : State) :
    exec (.idleResume) s = execIdleResume s := rfl
@[simp] theorem exec_standbyResume (s : State) :
    exec (.standbyResume) s = execStandbyResume s := rfl
@[simp] theorem exec_roundStart (s : State) :
    exec (.roundStart) s = execRoundStart s := rfl
@[simp] theorem exec_token (port : Fin 32) (msg : List Byte) (s : State) :
    exec (.token port msg) s = execToken port msg s := rfl
@[simp] theorem exec_commitPoint (s : State) :
    exec (.commitPoint) s = execCommitPoint s := rfl
@[simp] theorem exec_wakeIn (i : Fin 8) (s : State) :
    exec (.wakeIn i) s = execWakeIn i s := rfl
@[simp] theorem exec_aonTimer (s : State) :
    exec (.aonTimer) s = execAonTimer s := rfl
@[simp] theorem exec_wake (port : Fin 32) (msg : List Byte) (s : State) :
    exec (.wake port msg) s = execWake port msg s := rfl
@[simp] theorem exec_wakeRepeat (s : State) :
    exec (.wakeRepeat) s = execWakeRepeat s := rfl
@[simp] theorem exec_wakeOutPulseEnd (o : Fin 4) (s : State) :
    exec (.wakeOutPulseEnd o) s = execWakeOutPulseEnd o s := rfl
@[simp] theorem exec_falseWake (g : Fin 32) (s : State) :
    exec (.falseWake g) s = execFalseWake g s := rfl
@[simp] theorem exec_ringLoss (s : State) :
    exec (.ringLoss) s = execRingLoss s := rfl
@[simp] theorem exec_regeneration (s : State) :
    exec (.regeneration) s = execRegeneration s := rfl
@[simp] theorem exec_slpHostDemand (who : Initiator) (v : Word) (s : State) :
    exec (.slpHostDemand who v) s = execSlpHostDemand who v s := rfl
@[simp] theorem exec_beacon (src : BeaconSrc) (s : State) :
    exec (.beacon src) s = execBeacon src s := rfl
@[simp] theorem exec_beaconInterval (s : State) :
    exec (.beaconInterval) s = execBeaconInterval s := rfl
@[simp] theorem exec_nodeSilence (n : Fin 4096) (s : State) :
    exec (.nodeSilence n) s = execNodeSilence n s := rfl
@[simp] theorem exec_proofPeriod (s : State) :
    exec (.proofPeriod) s = execProofPeriod s := rfl
@[simp] theorem exec_rosterDigest (port : Fin 32) (msg : List Byte) (s : State) :
    exec (.rosterDigest port msg) s = execRosterDigest port msg s := rfl
@[simp] theorem exec_rosterRange (port : Fin 32) (msg : List Byte) (s : State) :
    exec (.rosterRange port msg) s = execRosterRange port msg s := rfl
@[simp] theorem exec_remoteRead (port : Fin 32) (msg : List Byte) (s : State) :
    exec (.remoteRead port msg) s = execRemoteRead port msg s := rfl
@[simp] theorem exec_remoteReadRsp (port : Fin 32) (msg : List Byte) (s : State) :
    exec (.remoteReadRsp port msg) s = execRemoteReadRsp port msg s := rfl
@[simp] theorem exec_remoteWrite (port : Fin 32) (msg : List Byte) (s : State) :
    exec (.remoteWrite port msg) s = execRemoteWrite port msg s := rfl
@[simp] theorem exec_remoteRetry (id : Nat) (s : State) :
    exec (.remoteRetry id) s = execRemoteRetry id s := rfl
@[simp] theorem exec_snapshotMessage (port : Fin 32) (msg : List Byte) (s : State) :
    exec (.snapshotMessage port msg) s = execSnapshotMessage port msg s := rfl
@[simp] theorem exec_snapshotReassembly (sender : Fin 4096) (set : Fin 64) (seq : Nat) (s : State) :
    exec (.snapshotReassembly sender set seq) s = execSnapshotReassembly sender set seq s := rfl
@[simp] theorem exec_tunnel (port : Fin 32) (msg : List Byte) (s : State) :
    exec (.tunnel port msg) s = execTunnel port msg s := rfl
@[simp] theorem exec_timeHealth (port : Fin 32) (msg : List Byte) (s : State) :
    exec (.timeHealth port msg) s = execTimeHealth port msg s := rfl
@[simp] theorem exec_timeHealthInterval (s : State) :
    exec (.timeHealthInterval) s = execTimeHealthInterval s := rfl
@[simp] theorem exec_resyncEnd (s : State) :
    exec (.resyncEnd) s = execResyncEnd s := rfl
@[simp] theorem exec_pcieReset (s : State) :
    exec (.pcieReset) s = execPcieReset s := rfl
@[simp] theorem exec_functionLevelReset (s : State) :
    exec (.functionLevelReset) s = execFunctionLevelReset s := rfl
@[simp] theorem exec_sendTail (who : Initiator) (q : Fin 64) (v : Word) (s : State) :
    exec (.sendTail who q v) s = execSendTail who q v s := rfl
@[simp] theorem exec_receiveTail (who : Initiator) (q : Fin 64) (v : Word) (s : State) :
    exec (.receiveTail who q v) s = execReceiveTail who q v s := rfl
@[simp] theorem exec_completionHead (who : Initiator) (q : Fin 64) (v : Word) (s : State) :
    exec (.completionHead who q v) s = execCompletionHead who q v s := rfl
@[simp] theorem exec_sendDescriptor (q : Fin 64) (desc : List Byte) (buf : List Byte) (s : State) :
    exec (.sendDescriptor q desc buf) s = execSendDescriptor q desc buf s := rfl
@[simp] theorem exec_receiveDescriptor (q : Fin 64) (desc : List Byte) (s : State) :
    exec (.receiveDescriptor q desc) s = execReceiveDescriptor q desc s := rfl
@[simp] theorem exec_hstHqnnWait (who : Initiator) (q : Fin 64) (v : Word) (s : State) :
    exec (.hstHqnnWait who q v) s = execHstHqnnWait who q v s := rfl
@[simp] theorem exec_completionWait (q : Fin 64) (s : State) :
    exec (.completionWait q) s = execCompletionWait q s := rfl
@[simp] theorem exec_hstHqnnPop (via : View) (q : Fin 64) (s : State) :
    exec (.hstHqnnPop via q) s = execHstHqnnPop via q s := rfl
@[simp] theorem exec_hstHqnnAck (who : Initiator) (q : Fin 64) (s : State) :
    exec (.hstHqnnAck who q) s = execHstHqnnAck who q s := rfl
@[simp] theorem exec_tStash (e : Fin 16) (s : State) :
    exec (.tStash e) s = execTStash e s := rfl
@[simp] theorem exec_rdid (s : State) :
    exec (.rdid) s = execRdid s := rfl
@[simp] theorem exec_rdsr (s : State) :
    exec (.rdsr) s = execRdsr s := rfl
@[simp] theorem exec_read (addr : Nat) (n : Nat) (s : State) :
    exec (.read addr n) s = execRead addr n s := rfl
@[simp] theorem exec_write (addr : Nat) (data : List Byte) (s : State) :
    exec (.write addr data) s = execWrite addr data s := rfl
@[simp] theorem exec_writeApplied (s : State) :
    exec (.writeApplied) s = execWriteApplied s := rfl
@[simp] theorem exec_rsten (s : State) :
    exec (.rsten) s = execRsten s := rfl
@[simp] theorem exec_rst (s : State) :
    exec (.rst) s = execRst s := rfl
@[simp] theorem exec_signalValueRead (via : View) (i : Fin 65536) (s : State) :
    exec (.signalValueRead via i) s = execSignalValueRead via i s := rfl
@[simp] theorem exec_signalValueWrite (who : Initiator) (i : Fin 65536) (v : BitVec 64) (meets : Bool) (s : State) :
    exec (.signalValueWrite who i v meets) s = execSignalValueWrite who i v meets s := rfl
@[simp] theorem exec_pduRequest (who : Initiator) (p : Fin 8192) (s : State) :
    exec (.pduRequest who p) s = execPduRequest who p s := rfl
@[simp] theorem exec_rcRead (via : View) (addr : Nat) (s : State) :
    exec (.rcRead via addr) s = execRcRead via addr s := rfl
@[simp] theorem exec_registerWrite (who : Initiator) (addr : Nat) (v : Word) (en : BitVec 4) (s : State) :
    exec (.registerWrite who addr v en) s = execRegisterWrite who addr v en s := rfl
@[simp] theorem exec_brownOut (mv : Nat) (s : State) :
    exec (.brownOut mv) s = execBrownOut mv s := rfl
@[simp] theorem exec_brownOutRecovery (s : State) :
    exec (.brownOutRecovery) s = execBrownOutRecovery s := rfl
@[simp] theorem exec_droop (mv : Nat) (s : State) :
    exec (.droop mv) s = execDroop mv s := rfl
@[simp] theorem exec_droopHalfCheck (mv : Nat) (s : State) :
    exec (.droopHalfCheck mv) s = execDroopHalfCheck mv s := rfl
@[simp] theorem exec_droopRelease (s : State) :
    exec (.droopRelease) s = execDroopRelease s := rfl
@[simp] theorem exec_thermalSample (t : TempSample) (s : State) :
    exec (.thermalSample t) s = execThermalSample t s := rfl
@[simp] theorem exec_releaseHold (s : State) :
    exec (.releaseHold) s = execReleaseHold s := rfl
@[simp] theorem exec_mramRetry (s : State) :
    exec (.mramRetry) s = execMramRetry s := rfl
@[simp] theorem exec_mramCompletion (s : State) :
    exec (.mramCompletion) s = execMramCompletion s := rfl
@[simp] theorem exec_watchdogPeriod (s : State) :
    exec (.watchdogPeriod) s = execWatchdogPeriod s := rfl
@[simp] theorem exec_pwrHeartbeat (who : Initiator) (v : Word) (s : State) :
    exec (.pwrHeartbeat who v) s = execPwrHeartbeat who v s := rfl
@[simp] theorem exec_heartbeatWindow (s : State) :
    exec (.heartbeatWindow) s = execHeartbeatWindow s := rfl
@[simp] theorem exec_operatingSeconds (s : State) :
    exec (.operatingSeconds) s = execOperatingSeconds s := rfl
@[simp] theorem exec_recorderFlush (s : State) :
    exec (.recorderFlush) s = execRecorderFlush s := rfl
@[simp] theorem exec_flushRetry (s : State) :
    exec (.flushRetry) s = execFlushRetry s := rfl
@[simp] theorem exec_freeze (who : RecUser) (s : State) :
    exec (.freeze who) s = execFreeze who s := rfl
@[simp] theorem exec_thaw (who : RecUser) (s : State) :
    exec (.thaw who) s = execThaw who s := rfl
@[simp] theorem exec_clear (who : RecUser) (cats : BitVec 4) (key : BitVec 8) (s : State) :
    exec (.clear who cats key) s = execClear who cats key s := rfl
@[simp] theorem exec_automaticThaw (s : State) :
    exec (.automaticThaw) s = execAutomaticThaw s := rfl
@[simp] theorem exec_diagnosticRead (pdu : Fin 8192) (req : List Byte) (s : State) :
    exec (.diagnosticRead pdu req) s = execDiagnosticRead pdu req s := rfl
@[simp] theorem exec_halt (who : Initiator) (core : Fin 4) (v : Word) (s : State) :
    exec (.halt who core v) s = execHalt who core v s := rfl
@[simp] theorem exec_stepCore (who : Initiator) (core : Fin 4) (v : Word) (s : State) :
    exec (.stepCore who core v) s = execStep who core v s := rfl
@[simp] theorem exec_resume (who : Initiator) (core : Fin 4) (v : Word) (s : State) :
    exec (.resume who core v) s = execResume who core v s := rfl
@[simp] theorem exec_dbgCcnBp (who : Initiator) (core : Fin 4) (v : Word) (s : State) :
    exec (.dbgCcnBp who core v) s = execDbgCcnBp who core v s := rfl
@[simp] theorem exec_bpHit (core : Fin 4) (s : State) :
    exec (.bpHit core) s = execBpHit core s := rfl
@[simp] theorem exec_holdUpGaugeSample (mv : Nat) (s : State) :
    exec (.holdUpGaugeSample mv) s = execHoldUpGaugeSample mv s := rfl
@[simp] theorem exec_wakeInputInactive (i : Fin 8) (s : State) :
    exec (.wakeInputInactive i) s = execWakeInputInactive i s := rfl
@[simp] theorem exec_tamperSourceInactive (src : Fin 6) (s : State) :
    exec (.tamperSourceInactive src) s = execTamperSourceInactive src s := rfl
@[simp] theorem exec_pcieLinkChange (speed : Fin 5) (width : Fin 3) (s : State) :
    exec (.pcieLinkChange speed width) s = execPcieLinkChange speed width s := rfl
@[simp] theorem exec_suppliesRemoved (s : State) :
    exec (.suppliesRemoved) s = execSuppliesRemoved s := rfl
@[simp] theorem exec_signalingMessage (port : Fin 32) (d : Fin 4) (sync : Option Int) (pdelay : Option Int) (s : State) :
    exec (.signalingMessage port d sync pdelay) s = execSignalingMessage port d sync pdelay s := rfl

end Sys2Proof.Machine
end

