-- ==== Sys2Proof/Laws/Keep.lean ====
section
/-! SUPPORT. Folding and branching over operations that keep a part of the state: one lemma per shape and part. -/

namespace Sys2Proof.Machine

/-- t has the waiting commands, plate flash, staging session, life-cycle counter, power mode, local clock and plate records
of s. -/
@[simp] abbrev Kept (s t : State) : Prop := t.pending = s.pending ∧ t.sys.flash = s.sys.flash ∧ t.sys.session = s.sys.session ∧
  t.key.lcCount = s.key.lcCount ∧ t.pwr.mode = s.pwr.mode ∧ t.time.loc = s.time.loc ∧ t.cfg = s.cfg

theorem foldl_keepP {α β γ : Type} (l : List α) (g : β → α → β) (p : β → γ) (h : ∀ b a, p (g b a) = p b) (b : β) :
    p (l.foldl g b) = p b := by
  induction l generalizing b with
  | nil => rfl
  | cons a l ih => simp [ih, h]
@[simp] theorem each_pending {α : Type} (l : List α) (f : α → State → State) (s : State) (h : ∀ a s, (f a s).pending = s.pending) :
    (each l f s).pending = s.pending :=
  foldl_keepP l (fun s a => f a s) (fun s : State => s.pending) (fun b a => h a b) s
@[simp] theorem when_pending (b : Bool) (f : State → State) (s : State) (h : (f s).pending = s.pending) :
    (when b f s).pending = s.pending := by
  unfold when; split <;> simp [h]
@[simp] theorem foldl_pending {α : Type} (l : List α) (g : State → α → State) (s : State) (h : ∀ s a, (g s a).pending = s.pending) :
    (l.foldl g s).pending = s.pending :=
  foldl_keepP l g (fun s : State => s.pending) h s
@[simp] theorem foldl2_pending {α β : Type} (l : List α) (g : β × State → α → β × State) (s : β × State) (h : ∀ s a, (g s a).2.pending = s.2.pending) :
    (l.foldl g s).2.pending = s.2.pending :=
  foldl_keepP l g (fun s : β × State => s.2.pending) h s
@[simp] theorem foldl3_pending {α β γ : Type} (l : List α) (g : β × γ × State → α → β × γ × State) (s : β × γ × State) (h : ∀ s a, (g s a).2.2.pending = s.2.2.pending) :
    (l.foldl g s).2.2.pending = s.2.2.pending :=
  foldl_keepP l g (fun s : β × γ × State => s.2.2.pending) h s
@[simp] theorem ite_pending (c : Prop) [Decidable c] (a b : State) : (if c then a else b).pending = if c then a.pending else b.pending := by split <;> rfl

@[simp] theorem each_sys_flash {α : Type} (l : List α) (f : α → State → State) (s : State) (h : ∀ a s, (f a s).sys.flash = s.sys.flash) :
    (each l f s).sys.flash = s.sys.flash :=
  foldl_keepP l (fun s a => f a s) (fun s : State => s.sys.flash) (fun b a => h a b) s
@[simp] theorem when_sys_flash (b : Bool) (f : State → State) (s : State) (h : (f s).sys.flash = s.sys.flash) :
    (when b f s).sys.flash = s.sys.flash := by
  unfold when; split <;> simp [h]
@[simp] theorem foldl_sys_flash {α : Type} (l : List α) (g : State → α → State) (s : State) (h : ∀ s a, (g s a).sys.flash = s.sys.flash) :
    (l.foldl g s).sys.flash = s.sys.flash :=
  foldl_keepP l g (fun s : State => s.sys.flash) h s
@[simp] theorem foldl2_sys_flash {α β : Type} (l : List α) (g : β × State → α → β × State) (s : β × State) (h : ∀ s a, (g s a).2.sys.flash = s.2.sys.flash) :
    (l.foldl g s).2.sys.flash = s.2.sys.flash :=
  foldl_keepP l g (fun s : β × State => s.2.sys.flash) h s
@[simp] theorem foldl3_sys_flash {α β γ : Type} (l : List α) (g : β × γ × State → α → β × γ × State) (s : β × γ × State) (h : ∀ s a, (g s a).2.2.sys.flash = s.2.2.sys.flash) :
    (l.foldl g s).2.2.sys.flash = s.2.2.sys.flash :=
  foldl_keepP l g (fun s : β × γ × State => s.2.2.sys.flash) h s
@[simp] theorem ite_sys_flash (c : Prop) [Decidable c] (a b : State) : (if c then a else b).sys.flash = if c then a.sys.flash else b.sys.flash := by split <;> rfl

@[simp] theorem each_sys_session {α : Type} (l : List α) (f : α → State → State) (s : State) (h : ∀ a s, (f a s).sys.session = s.sys.session) :
    (each l f s).sys.session = s.sys.session :=
  foldl_keepP l (fun s a => f a s) (fun s : State => s.sys.session) (fun b a => h a b) s
@[simp] theorem when_sys_session (b : Bool) (f : State → State) (s : State) (h : (f s).sys.session = s.sys.session) :
    (when b f s).sys.session = s.sys.session := by
  unfold when; split <;> simp [h]
@[simp] theorem foldl_sys_session {α : Type} (l : List α) (g : State → α → State) (s : State) (h : ∀ s a, (g s a).sys.session = s.sys.session) :
    (l.foldl g s).sys.session = s.sys.session :=
  foldl_keepP l g (fun s : State => s.sys.session) h s
@[simp] theorem foldl2_sys_session {α β : Type} (l : List α) (g : β × State → α → β × State) (s : β × State) (h : ∀ s a, (g s a).2.sys.session = s.2.sys.session) :
    (l.foldl g s).2.sys.session = s.2.sys.session :=
  foldl_keepP l g (fun s : β × State => s.2.sys.session) h s
@[simp] theorem foldl3_sys_session {α β γ : Type} (l : List α) (g : β × γ × State → α → β × γ × State) (s : β × γ × State) (h : ∀ s a, (g s a).2.2.sys.session = s.2.2.sys.session) :
    (l.foldl g s).2.2.sys.session = s.2.2.sys.session :=
  foldl_keepP l g (fun s : β × γ × State => s.2.2.sys.session) h s
@[simp] theorem ite_sys_session (c : Prop) [Decidable c] (a b : State) : (if c then a else b).sys.session = if c then a.sys.session else b.sys.session := by split <;> rfl

@[simp] theorem each_key_lcCount {α : Type} (l : List α) (f : α → State → State) (s : State) (h : ∀ a s, (f a s).key.lcCount = s.key.lcCount) :
    (each l f s).key.lcCount = s.key.lcCount :=
  foldl_keepP l (fun s a => f a s) (fun s : State => s.key.lcCount) (fun b a => h a b) s
@[simp] theorem when_key_lcCount (b : Bool) (f : State → State) (s : State) (h : (f s).key.lcCount = s.key.lcCount) :
    (when b f s).key.lcCount = s.key.lcCount := by
  unfold when; split <;> simp [h]
@[simp] theorem foldl_key_lcCount {α : Type} (l : List α) (g : State → α → State) (s : State) (h : ∀ s a, (g s a).key.lcCount = s.key.lcCount) :
    (l.foldl g s).key.lcCount = s.key.lcCount :=
  foldl_keepP l g (fun s : State => s.key.lcCount) h s
@[simp] theorem foldl2_key_lcCount {α β : Type} (l : List α) (g : β × State → α → β × State) (s : β × State) (h : ∀ s a, (g s a).2.key.lcCount = s.2.key.lcCount) :
    (l.foldl g s).2.key.lcCount = s.2.key.lcCount :=
  foldl_keepP l g (fun s : β × State => s.2.key.lcCount) h s
@[simp] theorem foldl3_key_lcCount {α β γ : Type} (l : List α) (g : β × γ × State → α → β × γ × State) (s : β × γ × State) (h : ∀ s a, (g s a).2.2.key.lcCount = s.2.2.key.lcCount) :
    (l.foldl g s).2.2.key.lcCount = s.2.2.key.lcCount :=
  foldl_keepP l g (fun s : β × γ × State => s.2.2.key.lcCount) h s
@[simp] theorem ite_key_lcCount (c : Prop) [Decidable c] (a b : State) : (if c then a else b).key.lcCount = if c then a.key.lcCount else b.key.lcCount := by split <;> rfl

@[simp] theorem each_pwr_mode {α : Type} (l : List α) (f : α → State → State) (s : State) (h : ∀ a s, (f a s).pwr.mode = s.pwr.mode) :
    (each l f s).pwr.mode = s.pwr.mode :=
  foldl_keepP l (fun s a => f a s) (fun s : State => s.pwr.mode) (fun b a => h a b) s
@[simp] theorem when_pwr_mode (b : Bool) (f : State → State) (s : State) (h : (f s).pwr.mode = s.pwr.mode) :
    (when b f s).pwr.mode = s.pwr.mode := by
  unfold when; split <;> simp [h]
@[simp] theorem foldl_pwr_mode {α : Type} (l : List α) (g : State → α → State) (s : State) (h : ∀ s a, (g s a).pwr.mode = s.pwr.mode) :
    (l.foldl g s).pwr.mode = s.pwr.mode :=
  foldl_keepP l g (fun s : State => s.pwr.mode) h s
@[simp] theorem foldl2_pwr_mode {α β : Type} (l : List α) (g : β × State → α → β × State) (s : β × State) (h : ∀ s a, (g s a).2.pwr.mode = s.2.pwr.mode) :
    (l.foldl g s).2.pwr.mode = s.2.pwr.mode :=
  foldl_keepP l g (fun s : β × State => s.2.pwr.mode) h s
@[simp] theorem foldl3_pwr_mode {α β γ : Type} (l : List α) (g : β × γ × State → α → β × γ × State) (s : β × γ × State) (h : ∀ s a, (g s a).2.2.pwr.mode = s.2.2.pwr.mode) :
    (l.foldl g s).2.2.pwr.mode = s.2.2.pwr.mode :=
  foldl_keepP l g (fun s : β × γ × State => s.2.2.pwr.mode) h s
@[simp] theorem ite_pwr_mode (c : Prop) [Decidable c] (a b : State) : (if c then a else b).pwr.mode = if c then a.pwr.mode else b.pwr.mode := by split <;> rfl

@[simp] theorem each_time_loc {α : Type} (l : List α) (f : α → State → State) (s : State) (h : ∀ a s, (f a s).time.loc = s.time.loc) :
    (each l f s).time.loc = s.time.loc :=
  foldl_keepP l (fun s a => f a s) (fun s : State => s.time.loc) (fun b a => h a b) s
@[simp] theorem when_time_loc (b : Bool) (f : State → State) (s : State) (h : (f s).time.loc = s.time.loc) :
    (when b f s).time.loc = s.time.loc := by
  unfold when; split <;> simp [h]
@[simp] theorem foldl_time_loc {α : Type} (l : List α) (g : State → α → State) (s : State) (h : ∀ s a, (g s a).time.loc = s.time.loc) :
    (l.foldl g s).time.loc = s.time.loc :=
  foldl_keepP l g (fun s : State => s.time.loc) h s
@[simp] theorem foldl2_time_loc {α β : Type} (l : List α) (g : β × State → α → β × State) (s : β × State) (h : ∀ s a, (g s a).2.time.loc = s.2.time.loc) :
    (l.foldl g s).2.time.loc = s.2.time.loc :=
  foldl_keepP l g (fun s : β × State => s.2.time.loc) h s
@[simp] theorem foldl3_time_loc {α β γ : Type} (l : List α) (g : β × γ × State → α → β × γ × State) (s : β × γ × State) (h : ∀ s a, (g s a).2.2.time.loc = s.2.2.time.loc) :
    (l.foldl g s).2.2.time.loc = s.2.2.time.loc :=
  foldl_keepP l g (fun s : β × γ × State => s.2.2.time.loc) h s
@[simp] theorem ite_time_loc (c : Prop) [Decidable c] (a b : State) : (if c then a else b).time.loc = if c then a.time.loc else b.time.loc := by split <;> rfl

@[simp] theorem each_cfg {α : Type} (l : List α) (f : α → State → State) (s : State) (h : ∀ a s, (f a s).cfg = s.cfg) :
    (each l f s).cfg = s.cfg :=
  foldl_keepP l (fun s a => f a s) (fun s : State => s.cfg) (fun b a => h a b) s
@[simp] theorem when_cfg (b : Bool) (f : State → State) (s : State) (h : (f s).cfg = s.cfg) :
    (when b f s).cfg = s.cfg := by
  unfold when; split <;> simp [h]
@[simp] theorem foldl_cfg {α : Type} (l : List α) (g : State → α → State) (s : State) (h : ∀ s a, (g s a).cfg = s.cfg) :
    (l.foldl g s).cfg = s.cfg :=
  foldl_keepP l g (fun s : State => s.cfg) h s
@[simp] theorem foldl2_cfg {α β : Type} (l : List α) (g : β × State → α → β × State) (s : β × State) (h : ∀ s a, (g s a).2.cfg = s.2.cfg) :
    (l.foldl g s).2.cfg = s.2.cfg :=
  foldl_keepP l g (fun s : β × State => s.2.cfg) h s
@[simp] theorem foldl3_cfg {α β γ : Type} (l : List α) (g : β × γ × State → α → β × γ × State) (s : β × γ × State) (h : ∀ s a, (g s a).2.2.cfg = s.2.2.cfg) :
    (l.foldl g s).2.2.cfg = s.2.2.cfg :=
  foldl_keepP l g (fun s : β × γ × State => s.2.2.cfg) h s
@[simp] theorem ite_cfg (c : Prop) [Decidable c] (a b : State) : (if c then a else b).cfg = if c then a.cfg else b.cfg := by split <;> rfl

@[simp] theorem ite_fst2 {α β : Type} (c : Prop) [Decidable c] (a b : α × β) : (if c then a else b).1 = if c then a.1 else b.1 := by split <;> rfl
@[simp] theorem ite_snd2 {α β : Type} (c : Prop) [Decidable c] (a b : α × β) : (if c then a else b).2 = if c then a.2 else b.2 := by split <;> rfl
/-- The next state of an outcome, s where it stops. -/
def outState (r : Res) (s : State) : State := match r with | .next t => t | _ => s
@[simp] theorem outState_next (t s : State) : outState (.next t) s = t := rfl
@[simp] theorem outState_fault (t) (s : State) : outState (.fault t) s = s := rfl
@[simp] theorem outState_ref (t) (s : State) : outState (.refused t) s = s := rfl
@[simp] theorem outState_ite (b : Prop) [Decidable b] (x y : Res) (s : State) : outState (if b then x else y) s = if b then outState x s else outState y s := by split <;> rfl
end Sys2Proof.Machine
end

