-- ==== Sys2Proof/Laws/KeepCore.lean ====
section
/-! SUPPORT. The recorder, the vault, power and the named operations over State: each operation leaves
the waiting commands, the plate flash, the staging session, the life-cycle counter and the power mode as they were, but
for those that Flash.lean, LifeCycle.lean and Mode.lean take up. -/

namespace Sys2Proof.Machine

/-! Ops.lean -/

@[simp] theorem wr_keep (f : Field) (v : Nat) (s : State) :
    Kept s (wr f v s) := by
  simp [wr]

@[simp] theorem wrI_keep (f : Field) (v : Int) (s : State) :
    Kept s (wrI f v s) := by
  simp [wrI]

@[simp] theorem wrB_keep (f : Field) (b : Bool) (s : State) :
    Kept s (wrB f b s) := by
  simp [wrB]

@[simp] theorem incBy_keep (f : Field) (n : Nat) (s : State) :
    Kept s (incBy f n s) := by
  simp [incBy]

@[simp] theorem inc_keep (f : Field) (s : State) :
    Kept s (inc f s) := by
  simp [inc]

@[simp] theorem incWrap_keep (f : Field) (s : State) :
    Kept s (incWrap f s) := by
  simp [incWrap]

@[simp] theorem markMax_keep (f : Field) (v : Nat) (s : State) :
    Kept s (markMax f v s) := by
  simp [markMax]

@[simp] theorem markMin_keep (f : Field) (v : Nat) (s : State) :
    Kept s (markMin f v s) := by
  simp [markMin]

@[simp] theorem emit_keep (o : Out) (s : State) :
    Kept s (emit o s) := by
  simp [emit]

@[simp] theorem fresh_keep (s : State) :
    Kept s ((fresh s).2) := by
  simp [fresh]

theorem fresh_of {s : State} {rr} (h : fresh s = rr) :
    Kept s rr.2 := h ▸ fresh_keep s

@[simp] theorem recUpdate_keep (f : RecImage → RecImage) (s : State) :
    Kept s (recUpdate f s) := by
  simp only [recUpdate]; (repeat' split) <;> simp

@[simp] theorem record_keep (code src data : Nat) (s : State) :
    Kept s (record code src data s) := by
  simp [record]

@[simp] theorem histAdd_keep (h u v : Nat) (s : State) :
    Kept s (histAdd h u v s) := by
  simp [histAdd]

@[simp] theorem extreme_keep (x v : Nat) (s : State) :
    Kept s (extreme x v s) := by
  simp [extreme]

@[simp] theorem holdUpCheck_keep (row need : Nat) (s : State) :
    Kept s ((holdUpCheck row need s).2) := by
  simp [holdUpCheck]

theorem holdUpCheck_of {row : Nat} {need : Nat} {s : State} {rr} (h : holdUpCheck row need s = rr) :
    Kept s rr.2 := h ▸ holdUpCheck_keep row need s

@[simp] theorem mramStart_keep (op : MramOp) (s : State) :
    Kept s (mramStart op s) := by
  simp [mramStart]

@[simp] theorem mramRetry_keep (p : MramOp → Bool) (s : State) :
    Kept s (mramRetry p s) := by
  simp [mramRetry]

@[simp] theorem startRecWrite_keep (w : StartWrite) (s : State) :
    Kept s (startRecWrite w s) := by
  simp only [startRecWrite]; (repeat' split) <;> simp

@[simp] theorem gateSilent_keep (trigger : Nat) (s : State) :
    Kept s (gateSilent trigger s) := by
  simp [gateSilent]

@[simp] theorem assertFault_keep (s : State) :
    Kept s (assertFault s) := by
  simp [assertFault]

@[simp] theorem requestReset_keep (c : Cause) (s : State) :
    Kept s (requestReset c s) := by
  simp [requestReset]

@[simp] theorem transmit_keep (d : Domain) (o : Out) (s : State) :
    Kept s (transmit d o s) := by
  simp [transmit]

@[simp] theorem domainFault_keep (d : Domain) (s : State) :
    Kept s (domainFault d s) := by
  simp [domainFault]

@[simp] theorem msixSet_keep (i v : Nat) (s : State) :
    Kept s (msixSet i v s) := by
  simp [msixSet]

@[simp] theorem raiseVector_keep (v : Nat) (s : State) :
    Kept s (raiseVector v s) := by
  simp [raiseVector]

@[simp] theorem irqCause_keep (f : Field) (s : State) :
    Kept s (irqCause f s) := by
  simp [irqCause]

@[simp] theorem writeDone_keep (who : Initiator) (addr : Nat) (r : Status × State) :
    Kept r.2 (writeDone who addr r) := by
  simp only [writeDone]; (repeat' split) <;> simp

@[simp] theorem hostWrite_pending (who : Initiator) (addr : Nat) (f : State → Status × State) (s : State) (h : (f s).2.pending = s.pending) :
    (hostWrite who addr f s).pending = s.pending := by
  simp only [hostWrite]; (repeat' split) <;> simp [h]
@[simp] theorem hostWrite_sys_flash (who : Initiator) (addr : Nat) (f : State → Status × State) (s : State) (h : (f s).2.sys.flash = s.sys.flash) :
    (hostWrite who addr f s).sys.flash = s.sys.flash := by
  simp only [hostWrite]; (repeat' split) <;> simp [h]
@[simp] theorem hostWrite_sys_session (who : Initiator) (addr : Nat) (f : State → Status × State) (s : State) (h : (f s).2.sys.session = s.sys.session) :
    (hostWrite who addr f s).sys.session = s.sys.session := by
  simp only [hostWrite]; (repeat' split) <;> simp [h]
@[simp] theorem hostWrite_key_lcCount (who : Initiator) (addr : Nat) (f : State → Status × State) (s : State) (h : (f s).2.key.lcCount = s.key.lcCount) :
    (hostWrite who addr f s).key.lcCount = s.key.lcCount := by
  simp only [hostWrite]; (repeat' split) <;> simp [h]
@[simp] theorem hostWrite_pwr_mode (who : Initiator) (addr : Nat) (f : State → Status × State) (s : State) (h : (f s).2.pwr.mode = s.pwr.mode) :
    (hostWrite who addr f s).pwr.mode = s.pwr.mode := by
  simp only [hostWrite]; (repeat' split) <;> simp [h]
@[simp] theorem hostWrite_time_loc (who : Initiator) (addr : Nat) (f : State → Status × State) (s : State) (h : (f s).2.time.loc = s.time.loc) :
    (hostWrite who addr f s).time.loc = s.time.loc := by
  simp only [hostWrite]; (repeat' split) <;> simp [h]
@[simp] theorem hostWrite_cfg (who : Initiator) (addr : Nat) (f : State → Status × State) (s : State) (h : (f s).2.cfg = s.cfg) :
    (hostWrite who addr f s).cfg = s.cfg := by
  simp only [hostWrite]; (repeat' split) <;> simp [h]
@[simp] theorem coreSet_keep (n : Nat) (x : Core) (s : State) :
    Kept s (coreSet n x s) := by
  simp [coreSet]

@[simp] theorem taskSet_keep (n k : Nat) (t : Task) (s : State) :
    Kept s (taskSet n k t s) := by
  simp [taskSet]

/-! Vault.lean -/

@[simp] theorem keyShow_keep (s : State) :
    Kept s (keyShow s) := by
  simp [keyShow]

@[simp] theorem kslotSet_keep (k : Nat) (x : KeySlot) (s : State) :
    Kept s (kslotSet k x s) := by
  simp [kslotSet]

@[simp] theorem vslotSet_keep (n : Nat) (x : KeyCopy) (s : State) :
    Kept s (vslotSet n x s) := by
  simp [vslotSet]

@[simp] theorem randBytes_keep (n : Nat) (s : State) :
    Kept s ((randBytes n s).2) := by
  simp [randBytes]

theorem randBytes_of {n : Nat} {s : State} {rr} (h : randBytes n s = rr) :
    Kept s rr.2 := h ▸ randBytes_keep n s

@[simp] theorem lanesAbort_keep (s : State) :
    Kept s (lanesAbort s) := by
  simp [lanesAbort]

@[simp] theorem zeroise_keep (s : State) :
    Kept s (zeroise s) := by
  simp [zeroise]

@[simp] theorem lcShow_keep (s : State) :
    Kept s (lcShow s) := by
  simp [lcShow]

@[simp] theorem mirrorEvaluate_keep (lc : Nat) (s : State) :
    Kept s (mirrorEvaluate lc s) := by
  simp [mirrorEvaluate]

@[simp] theorem lcTransition_keep (st : Nat) (s : State) :
    Kept s (lcTransition st s) := by
  simp [lcTransition]

@[simp] theorem tamperL3_keep (s : State) :
    Kept s (tamperL3 s) := by
  simp [tamperL3]

@[simp] theorem tamperQuiet_keep (lvl : Nat) (s : State) :
    Kept s (tamperQuiet lvl s) := by
  simp only [tamperQuiet]; (repeat' split) <;> simp

@[simp] theorem tamperApply_keep (src lvl : Nat) (s : State) :
    Kept s (tamperApply src lvl s) := by
  simp [tamperApply]

@[simp] theorem tamperDetect_keep (src : Nat) (s : State) :
    Kept s (tamperDetect src s) := by
  simp [tamperDetect]

@[simp] theorem mramApply_keep (y0 : MramOp) (s : State) :
    Kept s (mramApply y0 s) := by
  simp only [mramApply]; (repeat' split) <;> simp

@[simp] theorem mramCompleteOne_keep (s : State) :
    Kept s (mramCompleteOne s) := by
  simp only [mramCompleteOne]; (repeat' split) <;> simp

@[simp] theorem mramCompleteAll_keep (s : State) :
    Kept s (mramCompleteAll s) := by
  simp [mramCompleteAll]

@[simp] theorem mramNow_keep (op : MramOp) (s : State) :
    Kept s ((mramNow op s).2) := by
  simp [mramNow]

theorem mramNow_of {op : MramOp} {s : State} {rr} (h : mramNow op s = rr) :
    Kept s rr.2 := h ▸ mramNow_keep op s

@[simp] theorem useCount_keep (k : Nat) (s : State) :
    Kept s ((useCount k s).2) := by
  simp only [useCount]; (repeat' split) <;> simp

theorem useCount_of {k : Nat} {s : State} {rr} (h : useCount k s = rr) :
    Kept s rr.2 := h ▸ useCount_keep k s

@[simp] theorem tamperTransfer_keep (s : State) :
    Kept s (tamperTransfer s) := by
  simp [tamperTransfer]

/-! Recorder.lean -/

@[simp] theorem recThaw_keep (s : State) :
    Kept s (recThaw s) := by
  simp only [recThaw]; (repeat' split) <;> simp

@[simp] theorem recFreeze_keep (s : State) :
    Kept s ((recFreeze s).2) := by
  simp only [recFreeze]; (repeat' split) <;> simp

theorem recFreeze_of {s : State} {rr} (h : recFreeze s = rr) :
    Kept s rr.2 := h ▸ recFreeze_keep s

@[simp] theorem recClear_keep (who : RecUser) (cats : Nat) (s : State) :
    Kept s ((recClear who cats s).2) := by
  simp only [recClear]; (repeat' split) <;> simp

theorem recClear_of {who : RecUser} {cats : Nat} {s : State} {rr} (h : recClear who cats s = rr) :
    Kept s rr.2 := h ▸ recClear_keep who cats s

@[simp] theorem recCommand_pending (who : RecUser) (f : State → Status × State) (s : State) (h : (f s).2.pending = s.pending) :
    (recCommand who f s).pending = s.pending := by
  simp only [recCommand]; (repeat' split) <;> simp [h]
@[simp] theorem recCommand_sys_flash (who : RecUser) (f : State → Status × State) (s : State) (h : (f s).2.sys.flash = s.sys.flash) :
    (recCommand who f s).sys.flash = s.sys.flash := by
  simp only [recCommand]; (repeat' split) <;> simp [h]
@[simp] theorem recCommand_sys_session (who : RecUser) (f : State → Status × State) (s : State) (h : (f s).2.sys.session = s.sys.session) :
    (recCommand who f s).sys.session = s.sys.session := by
  simp only [recCommand]; (repeat' split) <;> simp [h]
@[simp] theorem recCommand_key_lcCount (who : RecUser) (f : State → Status × State) (s : State) (h : (f s).2.key.lcCount = s.key.lcCount) :
    (recCommand who f s).key.lcCount = s.key.lcCount := by
  simp only [recCommand]; (repeat' split) <;> simp [h]
@[simp] theorem recCommand_pwr_mode (who : RecUser) (f : State → Status × State) (s : State) (h : (f s).2.pwr.mode = s.pwr.mode) :
    (recCommand who f s).pwr.mode = s.pwr.mode := by
  simp only [recCommand]; (repeat' split) <;> simp [h]
@[simp] theorem recCommand_time_loc (who : RecUser) (f : State → Status × State) (s : State) (h : (f s).2.time.loc = s.time.loc) :
    (recCommand who f s).time.loc = s.time.loc := by
  simp only [recCommand]; (repeat' split) <;> simp [h]
@[simp] theorem recCommand_cfg (who : RecUser) (f : State → Status × State) (s : State) (h : (f s).2.cfg = s.cfg) :
    (recCommand who f s).cfg = s.cfg := by
  simp only [recCommand]; (repeat' split) <;> simp [h]
@[simp] theorem execFreeze_keep (who : RecUser) (s : State) :
    Kept s (outState (execFreeze who s) s) := by
  simp [execFreeze]

@[simp] theorem execThaw_keep (who : RecUser) (s : State) :
    Kept s (outState (execThaw who s) s) := by
  simp [execThaw]

@[simp] theorem recClearKey_keep (who : RecUser) (cats key : Nat) (s : State) :
    Kept s ((recClearKey who cats key s).2) := by
  simp [recClearKey]

theorem recClearKey_of {who : RecUser} {cats : Nat} {key : Nat} {s : State} {rr} (h : recClearKey who cats key s = rr) :
    Kept s rr.2 := h ▸ recClearKey_keep who cats key s

@[simp] theorem execClear_keep (who : RecUser) (cats : BitVec 4) (key : BitVec 8) (s : State) :
    Kept s (outState (execClear who cats key s) s) := by
  simp only [execClear]; (repeat' split) <;> simp

@[simp] theorem execAutomaticThaw_keep (s : State) :
    Kept s (outState (execAutomaticThaw s) s) := by
  simp [execAutomaticThaw]

@[simp] theorem execOperatingSeconds_keep (s : State) :
    Kept s (outState (execOperatingSeconds s) s) := by
  simp [execOperatingSeconds]

@[simp] theorem recFlushTry_keep (s : State) :
    Kept s ((recFlushTry s).2) := by
  simp [recFlushTry]

theorem recFlushTry_of {s : State} {rr} (h : recFlushTry s = rr) :
    Kept s rr.2 := h ▸ recFlushTry_keep s

@[simp] theorem recFlushPeriodic_keep (s : State) :
    Kept s (recFlushPeriodic s) := by
  simp only [recFlushPeriodic]; (repeat' split) <;> (try have hk0 := recFlushTry_of ‹recFlushTry _ = _›) <;> simp_all

@[simp] theorem recFlushSleep_keep (s : State) :
    Kept s (recFlushSleep s) := by
  simp only [recFlushSleep]; (repeat' split) <;> (try have hk0 := recFlushTry_of ‹recFlushTry _ = _›) <;> simp_all

@[simp] theorem execRecorderFlush_keep (s : State) :
    Kept s (outState (execRecorderFlush s) s) := by
  simp [execRecorderFlush]

@[simp] theorem execFlushRetry_keep (s : State) :
    Kept s (outState (execFlushRetry s) s) := by
  simp [execFlushRetry]

@[simp] theorem recLoad_keep (por : Bool) (s : State) :
    Kept s (recLoad por s) := by
  simp [recLoad]

/-! Power.lean -/

@[simp] theorem vcoreSeen_keep (mv : Nat) (s : State) :
    Kept s (vcoreSeen mv s) := by
  simp [vcoreSeen]

@[simp] theorem execBrownOut_keep (mv : Nat) (s : State) :
    Kept s (outState (execBrownOut mv s) s) := by
  simp [execBrownOut]

@[simp] theorem execBrownOutRecovery_keep (s : State) :
    Kept s (outState (execBrownOutRecovery s) s) := by
  simp [execBrownOutRecovery]

@[simp] theorem droopTo_keep (n : Nat) (s : State) :
    Kept s (droopTo n s) := by
  simp [droopTo]

@[simp] theorem execDroop_keep (mv : Nat) (s : State) :
    Kept s (outState (execDroop mv s) s) := by
  simp [execDroop]

@[simp] theorem execDroopHalfCheck_keep (mv : Nat) (s : State) :
    Kept s (outState (execDroopHalfCheck mv s) s) := by
  simp [execDroopHalfCheck]

@[simp] theorem execDroopRelease_keep (s : State) :
    Kept s (outState (execDroopRelease s) s) := by
  simp [execDroopRelease]

@[simp] theorem thermTo_keep (sensor n : Nat) (s : State) :
    Kept s (thermTo sensor n s) := by
  simp [thermTo]

@[simp] theorem tempSeen_keep (n : Nat) (t : Int) (s : State) :
    Kept s (tempSeen n t s) := by
  simp [tempSeen]

@[simp] theorem holdTo_keep (n : Nat) (hi : Int) (s : State) :
    Kept s (holdTo n hi s) := by
  simp only [holdTo]; (repeat' split) <;> simp

@[simp] theorem thermSample_keep (l : List Int) (s : State) :
    Kept s (thermSample l s) := by
  simp only [thermSample]; (repeat' split) <;> simp

@[simp] theorem execThermalSample_keep (t : TempSample) (s : State) :
    Kept s (outState (execThermalSample t s) s) := by
  simp [execThermalSample]

@[simp] theorem execReleaseHold_keep (s : State) :
    Kept s (outState (execReleaseHold s) s) := by
  simp [execReleaseHold]

@[simp] theorem gaugeSample_keep (mv : Nat) (s : State) :
    Kept s (gaugeSample mv s) := by
  simp [gaugeSample]

@[simp] theorem execHoldUpGaugeSample_keep (mv : Nat) (s : State) :
    Kept s (outState (execHoldUpGaugeSample mv s) s) := by
  simp [execHoldUpGaugeSample]

@[simp] theorem execMramCompletion_keep (s : State) :
    Kept s (outState (execMramCompletion s) s) := by
  simp [execMramCompletion]

@[simp] theorem execWatchdogPeriod_keep (s : State) :
    Kept s (outState (execWatchdogPeriod s) s) := by
  simp [execWatchdogPeriod]

@[simp] theorem heartbeat_keep (v : Nat) (s : State) :
    Kept s ((heartbeat v s).2) := by
  simp [heartbeat]

theorem heartbeat_of {v : Nat} {s : State} {rr} (h : heartbeat v s = rr) :
    Kept s rr.2 := h ▸ heartbeat_keep v s

@[simp] theorem execPwrHeartbeat_keep (who : Initiator) (v : Word) (s : State) :
    Kept s (outState (execPwrHeartbeat who v s) s) := by
  simp [execPwrHeartbeat]

@[simp] theorem execHeartbeatWindow_keep (s : State) :
    Kept s (outState (execHeartbeatWindow s) s) := by
  simp [execHeartbeatWindow]

end Sys2Proof.Machine
end

