-- ==== Sys2Proof/Laws/KeepPorts.lean ====
section
/-! SUPPORT. The queue manager, lookup, time, schedules and the ports: each operation leaves
the waiting commands, the plate flash, the staging session, the life-cycle counter and the power mode as they were, but
for those that Flash.lean, LifeCycle.lean and Mode.lean take up. -/

namespace Sys2Proof.Machine

/-! Qm.lean -/

@[simp] theorem frSet_keep (f : Nat) (x : Fr) (s : State) :
    Kept s (frSet f x s) := by
  simp [frSet]

@[simp] theorem quSet_keep (q : Nat) (x : Queue) (s : State) :
    Kept s (quSet q x s) := by
  simp [quSet]

@[simp] theorem bulkMark_keep (s : State) :
    Kept s (bulkMark s) := by
  simp [bulkMark]

@[simp] theorem takeCell_keep (bank : Nat) (rsv : Bool) (s : State) :
    Kept s ((takeCell bank rsv s).2) := by
  simp [takeCell]

theorem takeCell_of {bank : Nat} {rsv : Bool} {s : State} {rr} (h : takeCell bank rsv s = rr) :
    Kept s rr.2 := h ▸ takeCell_keep bank rsv s

@[simp] theorem freeCell_keep (c : Nat) (s : State) :
    Kept s (freeCell c s) := by
  simp [freeCell]

@[simp] theorem bgReturn_keep (s : State) :
    Kept s (bgReturn s) := by
  simp [bgReturn]

@[simp] theorem newFrame_keep (x : Fr) (s : State) :
    Kept s ((newFrame x s).2) := by
  simp [newFrame]

theorem newFrame_of {x : Fr} {s : State} {rr} (h : newFrame x s = rr) :
    Kept s rr.2 := h ▸ newFrame_keep x s

@[simp] theorem unhold_keep (need : Nat) (ds : List (Nat × Bool × Nat)) (s : State) :
    Kept s (unhold need ds s) := by
  simp only [unhold]; (repeat' split) <;> simp

@[simp] theorem dropFrame_keep (f : Nat) (s : State) :
    Kept s (dropFrame f s) := by
  simp [dropFrame]

@[simp] theorem dropFrameBg_keep (evict : Bool) (f : Nat) (s : State) :
    Kept s (dropFrameBg evict f s) := by
  simp [dropFrameBg]

@[simp] theorem unref_keep (f : Nat) (s : State) :
    Kept s (unref f s) := by
  simp [unref]

@[simp] theorem releaseFrame_keep (f : Nat) (s : State) :
    Kept s (releaseFrame f s) := by
  simp [releaseFrame]

@[simp] theorem readAsk_keep (who : Reader) (q f next last : Nat) (s : State) :
    Kept s (readAsk who q f next last s) := by
  simp only [readAsk]; (repeat' split) <;> simp

@[simp] theorem readStop_keep (p : Reader → Bool) (s : State) :
    Kept s (readStop p s) := by
  simp only [readStop]; (repeat' split) <;> simp

@[simp] theorem evictTail_keep (q : Nat) (s : State) :
    Kept s (evictTail q s) := by
  simp only [evictTail]; (repeat' split) <;> simp

@[simp] theorem pushOut_keep (q : Nat) (s : State) :
    Kept s (pushOut q s) := by
  simp only [pushOut]; (repeat' split) <;> simp

@[simp] theorem refuseAt_keep (q : Nat) (s : State) :
    Kept s (refuseAt q s) := by
  simp [refuseAt]

@[simp] theorem admitOne_keep (must : Bool) (need c : Nat) (exempt : Bool) (q : Nat) (s : State) :
    Kept s ((admitOne must need c exempt q s).2) := by
  simp only [admitOne]; (repeat' split) <;> simp

theorem admitOne_of {must : Bool} {need c : Nat} {exempt : Bool} {q : Nat} {s : State} {rr} (h : admitOne must need c exempt q s = rr) :
    Kept s rr.2 := h ▸ admitOne_keep must need c exempt q s

@[simp] theorem holdCells_keep (need q : Nat) (s : State) :
    Kept s (holdCells need q s) := by
  simp [holdCells]

@[simp] theorem admitAll_keep (must : Bool) (need c : Nat) (exempt : Bool) (qs : List (Nat × Bool × Nat)) (s : State) :
    Kept s ((admitAll must need c exempt qs s).2) := by
  simp only [admitAll]; (repeat' split) <;> simp

theorem admitAll_of {must : Bool} {need c : Nat} {exempt : Bool} {qs : List (Nat × Bool × Nat)} {s : State} {rr} (h : admitAll must need c exempt qs s = rr) :
    Kept s rr.2 := h ▸ admitAll_keep must need c exempt qs s

@[simp] theorem dropThr_keep (ds : List (Nat × Bool × Nat)) (s : State) :
    Kept s (dropThr ds s) := by
  simp only [dropThr]; (repeat' split) <;> simp

@[simp] theorem admitLinks_keep (need : Nat) (ds : List (Nat × Bool × Nat)) (s : State) :
    Kept s ((admitLinks need ds s).2) := by
  simp only [admitLinks]; (repeat' split) <;> simp

theorem admitLinks_of {need : Nat} {ds : List (Nat × Bool × Nat)} {s : State} {rr} (h : admitLinks need ds s = rr) :
    Kept s rr.2 := h ▸ admitLinks_keep need ds s

@[simp] theorem linkFrame_keep (f : Nat) (q : Nat) (mir : Bool) (trunc : Nat) (s : State) :
    Kept s (linkFrame f q mir trunc s) := by
  simp [linkFrame]

@[simp] theorem popHead_keep (q : Nat) (s : State) :
    Kept s ((popHead q s).2) := by
  simp only [popHead]; (repeat' split) <;> simp

theorem popHead_of {q : Nat} {s : State} {rr} (h : popHead q s = rr) :
    Kept s rr.2 := h ▸ popHead_keep q s

@[simp] theorem flushSlots_keep (q : Nat) (s : State) :
    Kept s (flushSlots q s) := by
  simp only [flushSlots]; (repeat' split) <;> simp (disch := first | (simp; done) | (intros; (repeat' split) <;> (try simp); done) | fail)

@[simp] theorem markBad_keep (f : Nat) (s : State) :
    Kept s (markBad f s) := by
  simp [markBad]

@[simp] theorem stopStoring_keep (f : Nat) (s : State) :
    Kept s (stopStoring f s) := by
  simp [stopStoring]

@[simp] theorem flushSent_keep (q f : Nat) (s : State) :
    Kept s (flushSent q f s) := by
  simp only [flushSent]; (repeat' split) <;> simp

@[simp] theorem flushWritten_keep (f n : Nat) (s : State) :
    Kept s (flushWritten f n s) := by
  simp only [flushWritten]; (repeat' split) <;> simp

@[simp] theorem flushQueue_keep (q : Nat) (s : State) :
    Kept s (flushQueue q s) := by
  simp [flushQueue]

@[simp] theorem deviceFlush_keep (q : Nat) (s : State) :
    Kept s (deviceFlush q s) := by
  simp [deviceFlush]

@[simp] theorem qmFlushWrite_keep (who : Initiator) (v : Nat) (s : State) :
    Kept s ((qmFlushWrite who v s).2) := by
  simp [qmFlushWrite]

theorem qmFlushWrite_of {who : Initiator} {v : Nat} {s : State} {rr} (h : qmFlushWrite who v s = rr) :
    Kept s rr.2 := h ▸ qmFlushWrite_keep who v s

@[simp] theorem execQmFlush_keep (who : Initiator) (v : Word) (s : State) :
    Kept s (outState (execQmFlush who v s) s) := by
  simp [execQmFlush]

@[simp] theorem execFlushDone_keep (s : State) :
    Kept s (outState (execFlushDone s) s) := by
  simp [execFlushDone]

@[simp] theorem execScraper_keep (s : State) :
    Kept s (outState (execScraper s) s) := by
  simp [execScraper]

@[simp] theorem queueEnable_keep (s : State) :
    Kept s (queueEnable s) := by
  simp [queueEnable]

/-! Lookup.lean -/

@[simp] theorem upsetNoted_keep (u : Option TableUpset) (s : State) :
    Kept s (upsetNoted u s) := by
  simp only [upsetNoted]; (repeat' split) <;> simp

@[simp] theorem parityReport_keep (u : TableUpset) (unit : Option Nat) (s : State) :
    Kept s (parityReport u unit s) := by
  simp only [parityReport]; (repeat' split) <;> simp

@[simp] theorem fdbPut_keep (k : Nat) (e : FdbE) (s : State) :
    Kept s (fdbPut k e s) := by
  simp [fdbPut]

@[simp] theorem fdbMeet_keep (k : Nat) (e : FdbE) (s : State) :
    Kept s (fdbMeet k e s) := by
  simp [fdbMeet]

@[simp] theorem fdbHit_keep (k : Nat) (s : State) :
    Kept s (fdbHit k s) := by
  simp only [fdbHit]; (repeat' split) <;> simp

@[simp] theorem fdbCount_keep (p : Nat) (s : State) :
    Kept s (fdbCount p s) := by
  simp [fdbCount]

@[simp] theorem learnCommit_keep (p : Nat) (r : LearnReq) (s : State) :
    Kept s (learnCommit p r s) := by
  simp only [learnCommit]; (repeat' split) <;> simp

@[simp] theorem execLearn_keep (p : Fin 2) (s : State) :
    Kept s (outState (execLearn p s) s) := by
  simp only [execLearn]; (repeat' split) <;> simp

@[simp] theorem execBurnisher_keep (s : State) :
    Kept s (outState (execBurnisher s) s) := by
  simp only [execBurnisher]; (repeat' split) <;> simp

@[simp] theorem fdbLoad_keep (s : State) :
    Kept s ((fdbLoad s).2) := by
  simp only [fdbLoad]; (repeat' split) <;> simp (disch := first | (simp; done) | (intros; (repeat' split) <;> (try simp); done) | fail)

theorem fdbLoad_of {s : State} {rr} (h : fdbLoad s = rr) :
    Kept s rr.2 := h ▸ fdbLoad_keep s

@[simp] theorem meter_keep (p i len : Nat) (yellowIn : Bool) (s : State) :
    Kept s ((meter p i len yellowIn s).2) := by
  simp [meter]

theorem meter_of {p : Nat} {i : Nat} {len : Nat} {yellowIn : Bool} {s : State} {rr} (h : meter p i len yellowIn s = rr) :
    Kept s rr.2 := h ▸ meter_keep p i len yellowIn s

@[simp] theorem polRefillAll_keep (s : State) :
    Kept s (polRefillAll s) := by
  simp only [polRefillAll]; (repeat' split) <;> simp

@[simp] theorem polDue_keep (s : State) :
    Kept s (polDue s) := by
  simp only [polDue]; (repeat' split) <;> simp

@[simp] theorem execPolicerRefill_keep (s : State) :
    Kept s (outState (execPolicerRefill s) s) := by
  simp [execPolicerRefill]

@[simp] theorem polFill_keep (p i : Nat) (s : State) :
    Kept s (polFill p i s) := by
  simp only [polFill]; (repeat' split) <;> simp

@[simp] theorem polLoad_keep (s : State) :
    Kept s (polLoad s) := by
  simp [polLoad]

@[simp] theorem scoreAdd_keep (u n : Nat) (s : State) :
    Kept s (scoreAdd u n s) := by
  simp [scoreAdd]

@[simp] theorem execContainmentWindow_keep (u : Fin 33) (s : State) :
    Kept s (outState (execContainmentWindow u s) s) := by
  simp [execContainmentWindow]

@[simp] theorem streamSet_keep (p st : Nat) (r : StreamRun) (s : State) :
    Kept s (streamSet p st r s) := by
  simp [streamSet]

@[simp] theorem guardNow_keep (s : State) :
    Kept s (guardNow s) := by
  simp [guardNow]

@[simp] theorem execStreamGuardWindow_keep (p : Fin 2) (st : Fin 8192) (s : State) :
    Kept s (outState (execStreamGuardWindow p st s) s) := by
  simp [execStreamGuardWindow]

@[simp] theorem execStreamGuardRelease_keep (p : Fin 2) (st : Fin 8192) (s : State) :
    Kept s (outState (execStreamGuardRelease p st s) s) := by
  simp [execStreamGuardRelease]

@[simp] theorem scrubEntry_keep (x : Nat × Nat × Nat) (s : State) :
    Kept s (scrubEntry x s) := by
  simp only [scrubEntry]; (repeat' split) <;> simp

@[simp] theorem execScrub_keep (bad : List TableUpset) (s : State) :
    Kept s (outState (execScrub bad s) s) := by
  simp [execScrub]

@[simp] theorem applyColour_keep (p i : Nat) (col : Colour) (k : Lk) (s : State) :
    Kept s ((applyColour p i col k s).2) := by
  simp only [applyColour]; (repeat' split) <;> simp

theorem applyColour_of {p : Nat} {i : Nat} {col : Colour} {k : Lk} {s : State} {rr} (h : applyColour p i col k s = rr) :
    Kept s rr.2 := h ▸ applyColour_keep p i col k s

@[simp] theorem police_keep (u : Option TableUpset) (i : Nat) (k : Lk) (s : State) :
    Kept s ((police u i k s).2) := by
  simp [police]

theorem police_of {u : Option TableUpset} {i : Nat} {k : Lk} {s : State} {rr} (h : police u i k s = rr) :
    Kept s rr.2 := h ▸ police_keep u i k s

@[simp] theorem stStream_keep (u : Option TableUpset) (k : Lk) (s : State) :
    Kept s ((stStream u k s).2) := by
  simp only [stStream]; (repeat' split) <;> simp

theorem stStream_of {u : Option TableUpset} {k : Lk} {s : State} {rr} (h : stStream u k s = rr) :
    Kept s rr.2 := h ▸ stStream_keep u k s

@[simp] theorem flood_keep (u : Option TableUpset) (kind : Nat) (k : Lk) (s : State) :
    Kept s ((flood u kind k s).2) := by
  simp [flood]

theorem flood_of {u : Option TableUpset} {kind : Nat} {k : Lk} {s : State} {rr} (h : flood u kind k s = rr) :
    Kept s rr.2 := h ▸ flood_keep u kind k s

@[simp] theorem bridgeMiss_keep (u : Option TableUpset) (k : Lk) (s : State) :
    Kept s ((bridgeMiss u k s).2) := by
  simp only [bridgeMiss]; (repeat' split) <;> simp

theorem bridgeMiss_of {u : Option TableUpset} {k : Lk} {s : State} {rr} (h : bridgeMiss u k s = rr) :
    Kept s rr.2 := h ▸ bridgeMiss_keep u k s

@[simp] theorem stBridge_keep (u : Option TableUpset) (k : Lk) (s : State) :
    Kept s ((stBridge u k s).2) := by
  simp only [stBridge]; (repeat' split) <;> simp

theorem stBridge_of {u : Option TableUpset} {k : Lk} {s : State} {rr} (h : stBridge u k s = rr) :
    Kept s rr.2 := h ▸ stBridge_keep u k s

@[simp] theorem stDest_keep (u : Option TableUpset) (k : Lk) (s : State) :
    Kept s ((stDest u k s).2) := by
  simp only [stDest]; (repeat' split) <;> simp

theorem stDest_of {u : Option TableUpset} {k : Lk} {s : State} {rr} (h : stDest u k s = rr) :
    Kept s rr.2 := h ▸ stDest_keep u k s

@[simp] theorem stAcl_keep (u : Option TableUpset) (orig : List Byte) (k : Lk) (s : State) :
    Kept s ((stAcl u orig k s).2) := by
  simp only [stAcl]; (repeat' split) <;> simp

theorem stAcl_of {u : Option TableUpset} {orig : List Byte} {k : Lk} {s : State} {rr} (h : stAcl u orig k s = rr) :
    Kept s rr.2 := h ▸ stAcl_keep u orig k s

@[simp] theorem stContain_keep (u : Option TableUpset) (k : Lk) (s : State) :
    Kept s ((stContain u k s).2) := by
  simp only [stContain]; (repeat' split) <;> simp

theorem stContain_of {u : Option TableUpset} {k : Lk} {s : State} {rr} (h : stContain u k s = rr) :
    Kept s rr.2 := h ▸ stContain_keep u k s

@[simp] theorem pipeline_keep (u : Option TableUpset) (node port : Nat) (c : Nat) (yellow : Bool) (d : List Byte) (s : State) :
    Kept s ((pipeline u node port c yellow d s).2) := by
  simp only [pipeline]; (repeat' split) <;> simp

theorem pipeline_of {u : Option TableUpset} {node : Nat} {port : Nat} {c : Nat} {yellow : Bool} {d : List Byte} {s : State} {rr} (h : pipeline u node port c yellow d s = rr) :
    Kept s rr.2 := h ▸ pipeline_keep u node port c yellow d s

@[simp] theorem lookupEnable_keep (s : State) :
    Kept s (lookupEnable s) := by
  simp [lookupEnable]

/-! Time.lean -/

@[simp] theorem domSet_keep (d : Nat) (c : DomClk) (s : State) :
    Kept s (domSet d c s) := by
  simp [domSet]

@[simp] theorem timeTick_keep (s : State) :
    (timeTick s).pending = s.pending ∧ (timeTick s).sys.flash = s.sys.flash ∧ (timeTick s).sys.session = s.sys.session ∧ (timeTick s).key.lcCount = s.key.lcCount ∧ (timeTick s).pwr.mode = s.pwr.mode ∧ (timeTick s).cfg = s.cfg := by
  simp [timeTick]

/-- One tick moves the local clock on by 4 ns. -/
@[simp] theorem timeTick_loc (s : State) : (timeTick s).time.loc = (s.time.loc + 4) % 2 ^ 64 := by
  simp [timeTick]

@[simp] theorem stepNote_keep (t : Nat) (s : State) :
    Kept s (stepNote t s) := by
  simp only [stepNote]; (repeat' split) <;> simp

@[simp] theorem stepGates_keep (s : State) :
    Kept s (stepGates s) := by
  simp only [stepGates]; (repeat' split) <;> simp

@[simp] theorem stepClock_keep (d : Nat) (D : Int) (s : State) :
    Kept s (stepClock d D s) := by
  simp only [stepClock]; (repeat' split) <;> simp

@[simp] theorem correctOffset_keep (d : Nat) (D : Int) (s : State) :
    Kept s (correctOffset d D s) := by
  simp [correctOffset]

@[simp] theorem setRateOf_keep (d : Nat) (r : Int) (s : State) :
    Kept s (setRateOf d r s) := by
  simp only [setRateOf]; (repeat' split) <;> simp

@[simp] theorem setRate_keep (d : Nat) (r : Int) (s : State) :
    Kept s (setRate d r s) := by
  simp [setRate]

@[simp] theorem servoRate_keep (d : Nat) (s : State) :
    Kept s (servoRate d s) := by
  simp [servoRate]

@[simp] theorem gptpSet_keep (d p : Nat) (g : GptpPort) (s : State) :
    Kept s (gptpSet d p g s) := by
  simp [gptpSet]

@[simp] theorem updateErr_keep (d : Nat) (s : State) :
    Kept s (updateErr d s) := by
  simp only [updateErr]; (repeat' split) <;> simp

@[simp] theorem domTo_keep (d st : Nat) (s : State) :
    Kept s (domTo d st s) := by
  simp [domTo]

@[simp] theorem toHoldover_keep (d : Nat) (s : State) :
    Kept s (toHoldover d s) := by
  simp [toHoldover]

@[simp] theorem steerFrom_keep (src : Nat) (s : State) :
    Kept s (steerFrom src s) := by
  simp [steerFrom]

@[simp] theorem leaveLocked_keep (d : Nat) (s : State) :
    Kept s (leaveLocked d s) := by
  simp only [leaveLocked]; (repeat' split) <;> simp

@[simp] theorem applySync_keep (d : Nat) (D : Int) (s : State) :
    Kept s (applySync d D s) := by
  simp [applySync]

@[simp] theorem takeSync_keep (d p : Nat) (m : SyncMsg) (s : State) :
    Kept s (takeSync d p m s) := by
  simp only [takeSync]; (repeat' split) <;> simp

@[simp] theorem execSync_keep (d : Fin 4) (port : Fin 32) (m : SyncMsg) (s : State) :
    Kept s (outState (execSync d port m s) s) := by
  simp [execSync]

@[simp] theorem execFollowUp_keep (d : Fin 4) (port : Fin 32) (m : SyncMsg) (s : State) :
    Kept s (outState (execFollowUp d port m s) s) := by
  simp only [execFollowUp]; (repeat' split) <;> simp

@[simp] theorem tsCounts_keep (p : Nat) (s : State) :
    Kept s (tsCounts p s) := by
  simp [tsCounts]

@[simp] theorem rawCapture_keep (s : State) :
    Kept s ((rawCapture s).2) := by
  simp only [rawCapture]; (repeat' split) <;> simp

theorem rawCapture_of {s : State} {rr} (h : rawCapture s = rr) :
    Kept s rr.2 := h ▸ rawCapture_keep s

@[simp] theorem tsPut_keep (p : Nat) (o : StampOf) (t : Nat) (s : State) :
    Kept s (tsPut p o t s) := by
  simp only [tsPut]; (repeat' split) <;> simp

@[simp] theorem tsCapture_keep (p : Nat) (o : StampOf) (s : State) :
    Kept s (tsCapture p o s) := by
  simp only [tsCapture]; (repeat' split) <;> simp

@[simp] theorem tsRefill_keep (p : Nat) (s : State) :
    Kept s (tsRefill p s) := by
  simp only [tsRefill]; (repeat' split) <;> simp

@[simp] theorem gptpSend_keep (p : Nat) (b : List Byte) (s : State) :
    Kept s (gptpSend p b s) := by
  simp only [gptpSend]; (repeat' split) <;> simp

@[simp] theorem gptpEventAt_keep (p : Nat) (o : StampOf) (b : List Byte) (t : Nat) (s : State) :
    Kept s (gptpEventAt p o b t s).2 := by
  simp only [gptpEventAt]; (repeat' split) <;> simp

@[simp] theorem gptpEvent_keep (p : Nat) (o : StampOf) (b : List Byte) (s : State) :
    Kept s ((gptpEvent p o b s).2) := by
  simp only [gptpEvent]; (repeat' split) <;> simp

theorem gptpEvent_of {p : Nat} {o : StampOf} {b : List Byte} {s : State} {rr} (h : gptpEvent p o b s = rr) :
    Kept s rr.2 := h ▸ gptpEvent_keep p o b s

@[simp] theorem pdelayDone_keep (k p : Nat) (s : State) :
    Kept s (pdelayDone k p s) := by
  simp only [pdelayDone]; (repeat' split) <;> simp

@[simp] theorem pdelayLost_keep (k p : Nat) (s : State) :
    Kept s (pdelayLost k p s) := by
  simp only [pdelayLost]; (repeat' split) <;> simp

@[simp] theorem execPdelayReq_keep (d : Fin 4) (port : Fin 32) (m : PdelayReq) (s : State) :
    Kept s (outState (execPdelayReq d port m s) s) := by
  simp only [execPdelayReq]; (repeat' split) <;> simp

@[simp] theorem execPdelayResp_keep (d : Fin 4) (port : Fin 32) (m : PdelayMsg) (s : State) :
    Kept s (outState (execPdelayResp d port m s) s) := by
  simp only [execPdelayResp, outState_next]; (repeat' split) <;> simp

@[simp] theorem execSyncInterval_keep (d : Fin 4) (port : Fin 32) (ns : Fin 4) (s : State) :
    Kept s (outState (execSyncInterval d port ns s) s) := by
  simp only [execSyncInterval]; (repeat' split) <;> simp

@[simp] theorem execPdelayReqInterval_keep (d : Fin 4) (port : Fin 32) (s : State) :
    Kept s (outState (execPdelayReqInterval d port s) s) := by
  simp [execPdelayReqInterval]

@[simp] theorem gptpStamp_keep (p : Nat) (o : StampOf) (t : Nat) (s : State) :
    Kept s (gptpStamp p o t s) := by
  simp only [gptpStamp]; (repeat' split) <;> simp

@[simp] theorem execSignalingMessage_keep (port : Fin 32) (d : Fin 4) (sync pdelay : Option Int) (s : State) :
    Kept s (outState (execSignalingMessage port d sync pdelay s) s) := by
  simp [execSignalingMessage]

@[simp] theorem announceAll_keep (d : Nat) (a : Announce) (s : State) :
    Kept s (announceAll d a s) := by
  simp only [announceAll]; (repeat' split) <;> simp

@[simp] theorem execBmca_keep (d : Fin 4) (l : List Announce) (s : State) :
    Kept s (outState (execBmca d l s) s) := by
  simp only [execBmca]; (repeat' split) <;> simp

@[simp] theorem execSyncReceiptTimeout_keep (d : Fin 4) (s : State) :
    Kept s (outState (execSyncReceiptTimeout d s) s) := by
  simp [execSyncReceiptTimeout]

@[simp] theorem execHoldoverLimit_keep (d : Fin 4) (s : State) :
    Kept s (outState (execHoldoverLimit d s) s) := by
  simp [execHoldoverLimit]

@[simp] theorem execPpsOut_keep (s : State) :
    Kept s (outState (execPpsOut s) s) := by
  simp [execPpsOut]

@[simp] theorem execPpsOutWidth_keep (s : State) :
    Kept s (outState (execPpsOutWidth s) s) := by
  simp [execPpsOutWidth]

@[simp] theorem execPpsIn_keep (s : State) :
    Kept s (outState (execPpsIn s) s) := by
  simp [execPpsIn]

@[simp] theorem timeEnable_keep (s : State) :
    Kept s (timeEnable s) := by
  simp only [timeEnable]; (repeat' split) <;> simp (disch := first | (simp; done) | (intros; (repeat' split) <;> (try simp); done) | fail)

/-! Schedule.lean -/

@[simp] theorem stpSet_keep (e : Nat) (r : StpRun) (s : State) :
    Kept s (stpSet e r s) := by
  simp [stpSet]

/-! Events.lean -/

@[simp] theorem engSet_keep (e : Nat) (x : Engine) (s : State) :
    Kept s (engSet e x s) := by
  simp [engSet]

@[simp] theorem engShow_keep (e : Nat) (s : State) :
    Kept s (engShow e s) := by
  simp [engShow]

@[simp] theorem ctxSet_keep (e c : Nat) (x : Ctx) (s : State) :
    Kept s (ctxSet e c x s) := by
  simp [ctxSet]

@[simp] theorem pendMark_keep (e : Nat) (s : State) :
    Kept s (pendMark e s) := by
  simp [pendMark]

@[simp] theorem evRaise_keep (e : Nat) (v : Ev) (s : State) :
    Kept s (evRaise e v s) := by
  simp [evRaise]

@[simp] theorem pduSet_keep (p : Nat) (r : PduRun) (s : State) :
    Kept s (pduSet p r s) := by
  simp [pduSet]

@[simp] theorem pduDue_keep (p : Nat) (s : State) :
    Kept s (pduDue p s) := by
  simp [pduDue]

@[simp] theorem pduLeft_keep (p : Option Nat) (s : State) :
    Kept s (pduLeft p s) := by
  simp only [pduLeft]; (repeat' split) <;> simp

@[simp] theorem pduSettle_keep (p : Nat) (s : State) :
    Kept s (pduSettle p s) := by
  simp only [pduSettle]; (repeat' split) <;> simp

@[simp] theorem fifoPut_keep (ch : Nat) (b : List Byte) (ts : Nat) (s : State) :
    Kept s ((fifoPut ch b ts s).2) := by
  simp [fifoPut]

theorem fifoPut_of {ch : Nat} {b : List Byte} {ts : Nat} {s : State} {rr} (h : fifoPut ch b ts s = rr) :
    Kept s rr.2 := h ▸ fifoPut_keep ch b ts s

/-! Sbs.lean -/

@[simp] theorem sbsShow_keep (s : State) :
    Kept s (sbsShow s) := by
  simp [sbsShow]

@[simp] theorem sbsStart_keep (s : State) :
    Kept s (sbsStart s) := by
  simp [sbsStart]

@[simp] theorem sbsWriteMask_keep (w : SbsWriter) (mask vals : Nat) (s : State) :
    Kept s (sbsWriteMask w mask vals s) := by
  simp only [sbsWriteMask]; (repeat' split) <;> simp

@[simp] theorem sbsWrite_keep (w : SbsWriter) (o : Nat) (v : Bool) (s : State) :
    Kept s (sbsWrite w o v s) := by
  simp only [sbsWrite]; (repeat' split) <;> simp

@[simp] theorem execSbsOutputUpdate_keep (o : Fin 256) (v : SbsValue) (s : State) :
    Kept s (outState (execSbsOutputUpdate o v s) s) := by
  simp only [execSbsOutputUpdate]; (repeat' split) <;> simp

@[simp] theorem execSbsUpdateEnd_keep (s : State) :
    Kept s (outState (execSbsUpdateEnd s) s) := by
  simp [execSbsUpdateEnd]

@[simp] theorem execSbsRefresh_keep (s : State) :
    Kept s (outState (execSbsRefresh s) s) := by
  simp [execSbsRefresh]

@[simp] theorem sbsInput_keep (i : Nat) (v : Bool) (s : State) :
    Kept s (sbsInput i v s) := by
  simp [sbsInput]

@[simp] theorem phyRelease_keep (s : State) :
    Kept s (phyRelease s) := by
  simp [phyRelease]

@[simp] theorem execSbsInputScan_keep (bits : BitVec 256) (s : State) :
    Kept s (outState (execSbsInputScan bits s) s) := by
  simp [execSbsInputScan]

@[simp] theorem sbsEnable_keep (s : State) :
    Kept s (sbsEnable s) := by
  simp [sbsEnable]

/-! Can.lean -/

@[simp] theorem canSet_keep (ch : Nat) (x : CanCh) (s : State) :
    Kept s (canSet ch x s) := by
  simp [canSet]

@[simp] theorem canShow_keep (ch : Nat) (s : State) :
    Kept s (canShow ch s) := by
  simp [canShow]

@[simp] theorem canBusOff_keep (ch : Nat) (s : State) :
    Kept s (canBusOff ch s) := by
  simp [canBusOff]

@[simp] theorem canEval_keep (ch : Nat) (s : State) :
    Kept s (canEval ch s) := by
  simp [canEval]

@[simp] theorem canRecOk_keep (ch : Nat) (s : State) :
    Kept s (canRecOk ch s) := by
  simp [canRecOk]

@[simp] theorem canEmpty_keep (ch : Nat) (s : State) :
    Kept s (canEmpty ch s) := by
  simp only [canEmpty]; (repeat' split) <;> simp

@[simp] theorem canReturn_keep (ch : Nat) (s : State) :
    Kept s (canReturn ch s) := by
  simp only [canReturn]; (repeat' split) <;> simp

@[simp] theorem canTake_keep (ch q : Nat) (s : State) :
    Kept s (canTake ch q s) := by
  simp only [canTake]; (repeat' split) <;> (try have hk0 := popHead_of ‹popHead _ _ = _›) <;> simp_all

@[simp] theorem canFillN_keep (ch n : Nat) (s : State) : Kept s (canFillN ch n s) := by
  induction n generalizing s with
  | zero => simp [canFillN]
  | succ n ih => simp only [canFillN]; (repeat' split) <;> simp [ih]

@[simp] theorem canFill_keep (ch : Nat) (s : State) :
    Kept s (canFill ch s) := by
  simp [canFill]

@[simp] theorem canStart_keep (ch : Nat) (s : State) :
    Kept s (canStart ch s) := by
  simp only [canStart]; (repeat' split) <;> simp

@[simp] theorem canSentAll_keep (ch : Nat) (f : Nat) (s : State) :
    Kept s (canSentAll ch f s) := by
  simp only [canSentAll]; (repeat' split) <;> simp

@[simp] theorem execCanFrameSent_keep (w : CanTx) (s : State) :
    Kept s (outState (execCanFrameSent w s) s) := by
  simp only [execCanFrameSent]; (repeat' split) <;> simp

@[simp] theorem canAttemptOver_keep (ch : Nat) (s : State) :
    Kept s (canAttemptOver ch s) := by
  simp only [canAttemptOver]; (repeat' split) <;> simp

@[simp] theorem execArbitrationLost_keep (ch : Fin 96) (s : State) :
    Kept s (outState (execArbitrationLost ch s) s) := by
  simp only [execArbitrationLost]; (repeat' split) <;> simp

@[simp] theorem canSettle_keep (ch : Nat) (s : State) :
    Kept s (canSettle ch s) := by
  simp only [canSettle]; (repeat' split) <;> simp

@[simp] theorem canAttempt_keep (ch : Nat) (s : State) :
    Kept s (canAttempt ch s) := by
  simp only [canAttempt]; (repeat' split) <;> simp

@[simp] theorem canCollide_keep (ch : Nat) (s : State) :
    Kept s (canCollide ch s) := by
  simp only [canCollide]; (repeat' split) <;> simp

@[simp] theorem canCount_keep (ch a b : Nat) (s : State) :
    Kept s (canCount ch a b s) := by
  simp only [canCount]; (repeat' split) <;> simp

@[simp] theorem execCanError_keep (ch : Fin 96) (k : CanErr) (s : State) :
    Kept s (outState (execCanError ch k s) s) := by
  simp only [execCanError]; (repeat' split) <;> simp

@[simp] theorem execBusOffRecoveryDelay_keep (ch : Fin 96) (s : State) :
    Kept s (outState (execBusOffRecoveryDelay ch s) s) := by
  simp [execBusOffRecoveryDelay]

@[simp] theorem execBusOffRecovery_keep (ch : Fin 96) (s : State) :
    Kept s (outState (execBusOffRecovery ch s) s) := by
  simp [execBusOffRecovery]

@[simp] theorem execIntegration_keep (ch : Fin 96) (s : State) :
    Kept s (outState (execIntegration ch s) s) := by
  simp [execIntegration]

@[simp] theorem execCancellation_keep (ch : Fin 96) (f : CanFrame) (s : State) :
    Kept s (outState (execCancellation ch f s) s) := by
  simp [execCancellation, guardWf]

@[simp] theorem execCancelRelease_keep (ch : Fin 96) (s : State) :
    Kept s (outState (execCancelRelease ch s) s) := by
  simp [execCancelRelease]

@[simp] theorem canReceive_keep (ch : Nat) (f : CanFrame) (ago : Nat) (s : State) :
    Kept s (canReceive ch f ago s) := by
  simp only [canReceive]; (repeat' split) <;> (try have hk0 := fifoPut_of ‹fifoPut _ _ _ _ = _›) <;> simp_all

@[simp] theorem canBabble_keep (ch load : Nat) (s : State) :
    Kept s (canBabble ch load s) := by
  simp [canBabble]

@[simp] theorem canBabbleRelease_keep (ch : Nat) (s : State) :
    Kept s (canBabbleRelease ch s) := by
  simp [canBabbleRelease]

@[simp] theorem canXcvr_keep (ch : Nat) (normal : Bool) (s : State) :
    Kept s (canXcvr ch normal s) := by
  simp [canXcvr]

@[simp] theorem canEnable_keep (ch : Nat) (s : State) :
    Kept s (canEnable ch s) := by
  simp [canEnable]

/-! Lin.lean -/

@[simp] theorem linSet_keep (ch : Nat) (x : LinCh) (s : State) :
    Kept s (linSet ch x s) := by
  simp [linSet]

@[simp] theorem linStore_keep (ch : Nat) (b : List Byte) (s : State) :
    Kept s (linStore ch b s) := by
  simp [linStore]

@[simp] theorem linRead_keep (ch q f : Nat) (s : State) :
    Kept s (linRead ch q f s) := by
  simp only [linRead]; (repeat' split) <;> simp

@[simp] theorem linPopAll_keep (ch n : Nat) (s : State) : Kept s (linPopAll ch n s) := by
  induction n generalizing s with
  | zero => simp [linPopAll]
  | succ n ih => simp only [linPopAll]; (repeat' split) <;> (try have hk := popHead_of ‹popHead _ _ = _›) <;> simp_all

@[simp] theorem linPublish_keep (ch id : Nat) (d : List Byte) (s : State) :
    Kept s (linPublish ch id d s) := by
  simp only [linPublish]; (repeat' split) <;> simp

@[simp] theorem linHead_keep (ch id t : Nat) (et commander : Bool) (s : State) :
    Kept s (linHead ch id t et commander s) := by
  simp only [linHead]; (repeat' split) <;> simp

@[simp] theorem linGoToSleep_keep (ch : Nat) (s : State) :
    Kept s (linGoToSleep ch s) := by
  simp [linGoToSleep]

@[simp] theorem execLinSlot_keep (ch : Fin 32) (s : State) :
    Kept s (outState (execLinSlot ch s) s) := by
  simp only [execLinSlot]; (repeat' split) <;> (try have hk0 := popHead_of ‹popHead _ _ = _›) <;> simp_all

@[simp] theorem execScheduleSwitch_keep (ch : Fin 32) (table : Fin 16) (s : State) :
    Kept s (outState (execScheduleSwitch ch table s) s) := by
  simp [execScheduleSwitch]

@[simp] theorem execLinHeader_keep (ch : Fin 32) (h : LinHdr) (s : State) :
    Kept s (outState (execLinHeader ch h s) s) := by
  simp only [execLinHeader]; (repeat' split) <;> simp

@[simp] theorem linReceive_keep (ch id t : Nat) (d : List Byte) (s : State) :
    Kept s (linReceive ch id t d s) := by
  simp only [linReceive]; (repeat' split) <;> simp

@[simp] theorem execLinResponse_keep (ch : Fin 32) (r : LinResp) (s : State) :
    Kept s (outState (execLinResponse ch r s) s) := by
  simp only [execLinResponse, guardWf]; (repeat' split) <;> simp

@[simp] theorem linRelease_keep (ch q : Nat) (s : State) :
    Kept s ((linRelease ch q s).2) := by
  simp only [linRelease]; (repeat' split) <;> (try have hk0 := popHead_of ‹popHead _ _ = _›) <;> simp_all

theorem linRelease_of {ch : Nat} {q : Nat} {s : State} {rr} (h : linRelease ch q s = rr) :
    Kept s rr.2 := h ▸ linRelease_keep ch q s

@[simp] theorem linBabble_keep (ch : Nat) (s : State) :
    Kept s (linBabble ch s) := by
  simp [linBabble]

@[simp] theorem execBabbleWindow_keep (ch : FieldCh) (load : Nat) (s : State) :
    Kept s (outState (execBabbleWindow ch load s) s) := by
  simp only [execBabbleWindow]; (repeat' split) <;> simp

@[simp] theorem execBabbleRelease_keep (ch : FieldCh) (s : State) :
    Kept s (outState (execBabbleRelease ch s) s) := by
  simp only [execBabbleRelease]; (repeat' split) <;> simp

@[simp] theorem linXcvr_keep (ch : Nat) (normal : Bool) (s : State) :
    Kept s (linXcvr ch normal s) := by
  simp [linXcvr]

@[simp] theorem linEnable_keep (ch : Nat) (s : State) :
    Kept s (linEnable ch s) := by
  simp [linEnable]

@[simp] theorem linWakeUp_keep (ch : Nat) (s : State) :
    Kept s (linWakeUp ch s) := by
  simp [linWakeUp]

/-! T1s.lean -/

@[simp] theorem t1sSet_keep (sg : Nat) (x : T1sSeg) (s : State) :
    Kept s (t1sSet sg x s) := by
  simp [t1sSet]

@[simp] theorem t1sPattern_keep (sg : Nat) (s : State) :
    Kept s (t1sPattern sg s) := by
  simp only [t1sPattern]; (repeat' split) <;> simp

@[simp] theorem t1sTry_keep (sg : Nat) (s : State) :
    Kept s (t1sTry sg s) := by
  simp only [t1sTry]; (repeat' split) <;> simp

@[simp] theorem t1sBegin_keep (sg : Nat) (aligned : Bool) (s : State) :
    Kept s (t1sBegin sg aligned s) := by
  simp [t1sBegin]

@[simp] theorem t1sBeacon_keep (sg : Nat) (s : State) :
    Kept s (t1sBeacon sg s) := by
  simp [t1sBeacon]

@[simp] theorem t1sCycleEnd_keep (sg : Nat) (s : State) :
    Kept s (t1sCycleEnd sg s) := by
  simp only [t1sCycleEnd]; (repeat' split) <;> simp

@[simp] theorem execPlcaCycle_keep (sg : Fin 16) (s : State) :
    Kept s (outState (execPlcaCycle sg s) s) := by
  simp [execPlcaCycle]

@[simp] theorem t1sInstant_keep (sg t : Nat) (s : State) :
    Kept s (t1sInstant sg t s) := by
  simp [t1sInstant]

@[simp] theorem execToTimer_keep (sg : Fin 16) (s : State) :
    Kept s (outState (execToTimer sg s) s) := by
  simp [execToTimer]

@[simp] theorem t1sUsed_keep (sg : Nat) (s : State) :
    Kept s (t1sUsed sg s) := by
  simp only [t1sUsed]; (repeat' split) <;> simp

@[simp] theorem execBeaconReceived_keep (sg : Fin 16) (s : State) :
    Kept s (outState (execBeaconReceived sg s) s) := by
  simp [execBeaconReceived]

@[simp] theorem execBeaconTimeout_keep (sg : Fin 16) (s : State) :
    Kept s (outState (execBeaconTimeout sg s) s) := by
  simp [execBeaconTimeout]

@[simp] theorem execBackoff_keep (sg : Fin 16) (s : State) :
    Kept s (outState (execBackoff sg s) s) := by
  simp [execBackoff]

@[simp] theorem t1sSleep_keep (sg : Nat) (s : State) :
    Kept s (t1sSleep sg s) := by
  simp [t1sSleep]

@[simp] theorem t1sWakeTx_keep (sg w : Nat) (s : State) :
    Kept s (t1sWakeTx sg w s) := by
  simp [t1sWakeTx]

@[simp] theorem execLowPowerExit_keep (sg : Fin 16) (s : State) :
    Kept s (outState (execLowPowerExit sg s) s) := by
  simp [execLowPowerExit]

@[simp] theorem t1sSent_keep (sg : Nat) (s : State) :
    Kept s (t1sSent sg s) := by
  simp [t1sSent]

@[simp] theorem t1sEnable_keep (sg : Nat) (s : State) :
    Kept s (t1sEnable sg s) := by
  simp [t1sEnable]

/-! Eth.lean -/

@[simp] theorem ethSet_keep (p : Nat) (x : EthPort) (s : State) :
    Kept s (ethSet p x s) := by
  simp [ethSet]

@[simp] theorem macSend_keep (p : Nat) (o : Out) (s : State) :
    Kept s (macSend p o s) := by
  simp only [macSend]; (repeat' split) <;> simp

@[simp] theorem linkUp_keep (p sp : Nat) (s : State) :
    Kept s (linkUp p sp s) := by
  simp [linkUp]

@[simp] theorem linkDown_keep (p : Nat) (s : State) :
    Kept s (linkDown p s) := by
  simp [linkDown]

@[simp] theorem execVerifyTimer_keep (port : Fin 16) (s : State) :
    Kept s (outState (execVerifyTimer port s) s) := by
  simp [execVerifyTimer]

@[simp] theorem execVerifyResponse_keep (port : Fin 16) (s : State) :
    Kept s (outState (execVerifyResponse port s) s) := by
  simp [execVerifyResponse]

@[simp] theorem sendPause_keep (p c quanta : Nat) (s : State) :
    Kept s (sendPause p c quanta s) := by
  simp [sendPause]

@[simp] theorem pauseCheck_keep (p : Nat) (k : Nat × Option Nat) (s : State) :
    Kept s (pauseCheck p k s) := by
  simp [pauseCheck]

@[simp] theorem pauseUpdate_keep (s : State) :
    Kept s (pauseUpdate s) := by
  simp [pauseUpdate]

@[simp] theorem execPauseRepeat_keep (port : Fin 16) (cls : Fin 8) (s : State) :
    Kept s (outState (execPauseRepeat port cls s) s) := by
  simp [execPauseRepeat]

@[simp] theorem execPauseReceived_keep (port : Fin 16) (m : PauseMsg) (s : State) :
    Kept s (outState (execPauseReceived port m s) s) := by
  simp only [execPauseReceived]; (repeat' split) <;> simp

@[simp] theorem execPauseExpiry_keep (port : Fin 16) (cls : Fin 8) (s : State) :
    Kept s (outState (execPauseExpiry port cls s) s) := by
  simp [execPauseExpiry]

@[simp] theorem gateShow_keep (p : Nat) (s : State) :
    Kept s (gateShow p s) := by
  simp [gateShow]

@[simp] theorem execGateControlEntry_keep (port : Fin 16) (s : State) :
    Kept s (outState (execGateControlEntry port s) s) := by
  simp [execGateControlEntry]

@[simp] theorem creditTick_keep (p : Nat) (s : State) :
    Kept s (creditTick p s) := by
  simp only [creditTick]; (repeat' split) <;> simp

@[simp] theorem frerSet_keep (i : Nat) (x : FrerRun) (s : State) :
    Kept s (frerSet i x s) := by
  simp [frerSet]

@[simp] theorem frerIngress_keep (p : Nat) (d : List Byte) (s : State) :
    Kept s ((frerIngress p d s).2) := by
  simp only [frerIngress]; (repeat' split) <;> simp

theorem frerIngress_of {p : Nat} {d : List Byte} {s : State} {rr} (h : frerIngress p d s = rr) :
    Kept s rr.2 := h ▸ frerIngress_keep p d s

@[simp] theorem frerGenerate_keep (f : Nat) (s : State) :
    Kept s (frerGenerate f s) := by
  simp only [frerGenerate]; (repeat' split) <;> simp

@[simp] theorem execFrerResetTimer_keep (e : Fin 512) (s : State) :
    Kept s (outState (execFrerResetTimer e s) s) := by
  simp [execFrerResetTimer]

@[simp] theorem ethEnable_keep (p : Nat) (s : State) :
    Kept s (ethEnable p s) := by
  simp [ethEnable]

@[simp] theorem mdioEnd_keep (p : Nat) (s : State) :
    Kept s (mdioEnd p s) := by
  simp [mdioEnd]

@[simp] theorem mdioSet_keep (b : Nat) (l : List MdioCmd) (s : State) :
    Kept s (mdioSet b l s) := by
  simp only [mdioSet]; (repeat' split) <;> simp

@[simp] theorem mdioJoin_keep (p : Nat) (seq : Bool) (s : State) :
    Kept s (mdioJoin p seq s) := by
  simp only [mdioJoin]; (repeat' split) <;> simp

@[simp] theorem mdioGo_keep (p n : Nat) (s : State) :
    Kept s (mdioGo p n s) := by
  simp only [mdioGo]; (repeat' split) <;> simp

@[simp] theorem execResetReleaseDelay_keep (port : Fin 16) (s : State) :
    Kept s (outState (execResetReleaseDelay port s) s) := by
  simp [execResetReleaseDelay]

@[simp] theorem execMdioScriptAccess_keep (port : Fin 16) (s : State) :
    Kept s (outState (execMdioScriptAccess port s) s) := by
  simp only [execMdioScriptAccess, outState_next]; (repeat' split) <;> simp

@[simp] theorem mdioDev_keep (p : Nat) (s : State) :
    Kept s (mdioDev p s) := by
  simp only [mdioDev]; (repeat' split) <;> simp

@[simp] theorem mdioMeets_pending (who : Initiator) (p : Nat) (f : State → Status × State) (s : State) (h : ∀ t, (f t).2.pending = t.pending) : (mdioMeets who p f s).2.pending = s.pending := by
  simp only [mdioMeets]; (repeat' split) <;> simp [h]
@[simp] theorem mdioMeets_sys_flash (who : Initiator) (p : Nat) (f : State → Status × State) (s : State) (h : ∀ t, (f t).2.sys.flash = t.sys.flash) : (mdioMeets who p f s).2.sys.flash = s.sys.flash := by
  simp only [mdioMeets]; (repeat' split) <;> simp [h]
@[simp] theorem mdioMeets_sys_session (who : Initiator) (p : Nat) (f : State → Status × State) (s : State) (h : ∀ t, (f t).2.sys.session = t.sys.session) : (mdioMeets who p f s).2.sys.session = s.sys.session := by
  simp only [mdioMeets]; (repeat' split) <;> simp [h]
@[simp] theorem mdioMeets_key_lcCount (who : Initiator) (p : Nat) (f : State → Status × State) (s : State) (h : ∀ t, (f t).2.key.lcCount = t.key.lcCount) : (mdioMeets who p f s).2.key.lcCount = s.key.lcCount := by
  simp only [mdioMeets]; (repeat' split) <;> simp [h]
@[simp] theorem mdioMeets_pwr_mode (who : Initiator) (p : Nat) (f : State → Status × State) (s : State) (h : ∀ t, (f t).2.pwr.mode = t.pwr.mode) : (mdioMeets who p f s).2.pwr.mode = s.pwr.mode := by
  simp only [mdioMeets]; (repeat' split) <;> simp [h]
@[simp] theorem mdioMeets_time_loc (who : Initiator) (p : Nat) (f : State → Status × State) (s : State) (h : ∀ t, (f t).2.time.loc = t.time.loc) : (mdioMeets who p f s).2.time.loc = s.time.loc := by
  simp only [mdioMeets]; (repeat' split) <;> simp [h]
@[simp] theorem mdioMeets_cfg (who : Initiator) (p : Nat) (f : State → Status × State) (s : State) (h : ∀ t, (f t).2.cfg = t.cfg) : (mdioMeets who p f s).2.cfg = s.cfg := by
  simp only [mdioMeets]; (repeat' split) <;> simp [h]
@[simp] theorem mdioCmd_keep (who : Initiator) (op p v : Nat) (s : State) :
    Kept s ((mdioCmd who op p v s).2) := by
  simp only [mdioCmd]; (repeat' split) <;> simp

theorem mdioCmd_of {who : Initiator} {op p v : Nat} {s : State} {rr} (h : mdioCmd who op p v s = rr) :
    Kept s rr.2 := h ▸ mdioCmd_keep who op p v s

@[simp] theorem mdioWrite_keep (who : Initiator) (op p v : Nat) (s : State) :
    Kept s ((mdioWrite who op p v s).2) := by
  simp [mdioWrite]

theorem mdioWrite_of {who : Initiator} {op : Nat} {p : Nat} {v : Nat} {s : State} {rr} (h : mdioWrite who op p v s = rr) :
    Kept s rr.2 := h ▸ mdioWrite_keep who op p v s

@[simp] theorem execClause22Write_keep (who : Initiator) (port : Fin 16) (v : Word) (s : State) :
    Kept s (outState (execClause22Write who port v s) s) := by
  simp [execClause22Write]

@[simp] theorem execClause22Read_keep (who : Initiator) (port : Fin 16) (v : Word) (s : State) :
    Kept s (outState (execClause22Read who port v s) s) := by
  simp [execClause22Read]

@[simp] theorem execClause45Write_keep (who : Initiator) (port : Fin 16) (v : Word) (s : State) :
    Kept s (outState (execClause45Write who port v s) s) := by
  simp [execClause45Write]

@[simp] theorem execClause45Read_keep (who : Initiator) (port : Fin 16) (v : Word) (s : State) :
    Kept s (outState (execClause45Read who port v s) s) := by
  simp [execClause45Read]

@[simp] theorem execMdioCommandDone_keep (bus : Fin 2) (data : BitVec 16) (s : State) :
    Kept s (outState (execMdioCommandDone bus data s) s) := by
  simp only [execMdioCommandDone]; (repeat' split) <;> simp

end Sys2Proof.Machine
end

