-- ==== Sys2Proof/Laws/KeepKeys.lean ====
section
/-! SUPPORT. The key block, the ciphers and their submissions: each operation leaves
the waiting commands, the plate flash, the staging session, the life-cycle counter and the power mode as they were, but
for those that Flash.lean, LifeCycle.lean and Mode.lean take up. -/

namespace Sys2Proof.Machine

/-! Crypto.lean -/

/-! Key.lean -/

@[simp] theorem randScalar_keep (s : State) :
    Kept s ((randScalar s).2) := by
  simp [randScalar]

theorem randScalar_of {s : State} {rr} (h : randScalar s = rr) :
    Kept s rr.2 := h ▸ randScalar_keep s

@[simp] theorem identSign_keep (m : List Byte) (s : State) :
    Kept s ((identSign m s).2) := by
  simp only [identSign]; (repeat' split) <;> simp

theorem identSign_of {m : List Byte} {s : State} {rr} (h : identSign m s = rr) :
    Kept s rr.2 := h ▸ identSign_keep m s

@[simp] theorem updUses_keep (m : List Byte) (s : State) :
    Kept s (updUses m s) := by
  simp only [updUses]; (repeat' split) <;> simp

@[simp] theorem keyUpdate_keep (m : List Byte) (s : State) :
    Kept s ((keyUpdate m s).2) := by
  simp [keyUpdate]

theorem keyUpdate_of {m : List Byte} {s : State} {rr} (h : keyUpdate m s = rr) :
    Kept s rr.2 := h ▸ keyUpdate_keep m s

@[simp] theorem keyDerive_keep (who : MboxUser) (b : List Byte) (s : State) :
    Kept s ((keyDerive who b s).2) := by
  simp only [keyDerive]; (repeat' split) <;> (try have hk0 := useCount_of ‹useCount _ _ = _›) <;> simp_all

theorem keyDerive_of {who : MboxUser} {b : List Byte} {s : State} {rr} (h : keyDerive who b s = rr) :
    Kept s rr.2 := h ▸ keyDerive_keep who b s

@[simp] theorem ecdhCommand_keep (b : List Byte) (s : State) :
    Kept s ((ecdhCommand b s).2) := by
  simp only [ecdhCommand]; (repeat' split) <;> simp

theorem ecdhCommand_of {b : List Byte} {s : State} {rr} (h : ecdhCommand b s = rr) :
    Kept s rr.2 := h ▸ ecdhCommand_keep b s

@[simp] theorem vsZeroiseCommand_keep (b : List Byte) (s : State) :
    Kept s ((vsZeroiseCommand b s).2) := by
  simp [vsZeroiseCommand]

theorem vsZeroiseCommand_of {b : List Byte} {s : State} {rr} (h : vsZeroiseCommand b s = rr) :
    Kept s rr.2 := h ▸ vsZeroiseCommand_keep b s

@[simp] theorem slotInfoCommand_keep (b : List Byte) (s : State) :
    Kept s ((slotInfoCommand b s).2) := by
  simp [slotInfoCommand]

theorem slotInfoCommand_of {b : List Byte} {s : State} {rr} (h : slotInfoCommand b s = rr) :
    Kept s rr.2 := h ▸ slotInfoCommand_keep b s

@[simp] theorem getIdentityCommand_keep (b : List Byte) (s : State) :
    Kept s ((getIdentityCommand b s).2) := by
  simp [getIdentityCommand]

theorem getIdentityCommand_of {b : List Byte} {s : State} {rr} (h : getIdentityCommand b s = rr) :
    Kept s rr.2 := h ▸ getIdentityCommand_keep b s

@[simp] theorem signChallengeCommand_keep (b : List Byte) (s : State) :
    Kept s ((signChallengeCommand b s).2) := by
  simp [signChallengeCommand]

theorem signChallengeCommand_of {b : List Byte} {s : State} {rr} (h : signChallengeCommand b s = rr) :
    Kept s rr.2 := h ▸ signChallengeCommand_keep b s

@[simp] theorem lcRequestCommand_keep (b : List Byte) (s : State) :
    (lcRequestCommand b s).2.pending = s.pending ∧ (lcRequestCommand b s).2.sys.flash = s.sys.flash ∧ (lcRequestCommand b s).2.sys.session = s.sys.session ∧ (lcRequestCommand b s).2.pwr.mode = s.pwr.mode ∧ (lcRequestCommand b s).2.time.loc = s.time.loc ∧ (lcRequestCommand b s).2.cfg = s.cfg := by
  simp only [lcRequestCommand]; (repeat' split) <;> simp

theorem lcRequestCommand_of {b : List Byte} {s : State} {rr} (h : lcRequestCommand b s = rr) :
    rr.2.pending = s.pending ∧ rr.2.sys.flash = s.sys.flash ∧ rr.2.sys.session = s.sys.session ∧ rr.2.pwr.mode = s.pwr.mode ∧ rr.2.time.loc = s.time.loc ∧ rr.2.cfg = s.cfg := h ▸ lcRequestCommand_keep b s

@[simp] theorem tokenRefused_keep (s : State) :
    Kept s (tokenRefused s) := by
  simp [tokenRefused]

@[simp] theorem debugOpen_keep (m : Nat) (s : State) :
    Kept s (debugOpen m s) := by
  simp [debugOpen]

@[simp] theorem debugTokenCommand_keep (b : List Byte) (s : State) :
    Kept s ((debugTokenCommand b s).2) := by
  simp only [debugTokenCommand]; (repeat' split) <;> (try have hk0 := useCount_of ‹useCount _ _ = _›) <;> simp_all

theorem debugTokenCommand_of {b : List Byte} {s : State} {rr} (h : debugTokenCommand b s = rr) :
    Kept s rr.2 := h ▸ debugTokenCommand_keep b s

@[simp] theorem certInstallCommand_keep (b : List Byte) (formed : Bool) (s : State) :
    Kept s ((certInstallCommand b formed s).2) := by
  simp only [certInstallCommand]; (repeat' split) <;> simp

theorem certInstallCommand_of {b : List Byte} {formed : Bool} {s : State} {rr} (h : certInstallCommand b formed s = rr) :
    Kept s rr.2 := h ▸ certInstallCommand_keep b formed s

@[simp] theorem lcUnsigned_keep (target : Nat) (s : State) :
    Kept s ((lcUnsigned target s).2) := by
  simp [lcUnsigned]

theorem lcUnsigned_of {target : Nat} {s : State} {rr} (h : lcUnsigned target s = rr) :
    Kept s rr.2 := h ▸ lcUnsigned_keep target s

@[simp] theorem lcEnterMfgCommand_keep (s : State) :
    Kept s ((lcEnterMfgCommand s).2) := by
  simp [lcEnterMfgCommand]

theorem lcEnterMfgCommand_of {s : State} {rr} (h : lcEnterMfgCommand s = rr) :
    Kept s rr.2 := h ▸ lcEnterMfgCommand_keep s

@[simp] theorem mboxAnswer_keep (who : MboxUser) (code : Nat) (r : (Status × List Byte) × State) :
    Kept r.2 (mboxAnswer who code r) := by
  simp only [mboxAnswer]; (repeat' split) <;> simp

@[simp] theorem vaultCommand_pending (who : MboxUser) (code : Nat) (f : State → (Status × List Byte) × State) (s : State) (h : (f s).2.pending = s.pending) : (vaultCommand who code f s).pending = s.pending := by
  simp only [vaultCommand]; (repeat' split) <;> simp [h]
@[simp] theorem vaultCommand_sys_flash (who : MboxUser) (code : Nat) (f : State → (Status × List Byte) × State) (s : State) (h : (f s).2.sys.flash = s.sys.flash) : (vaultCommand who code f s).sys.flash = s.sys.flash := by
  simp only [vaultCommand]; (repeat' split) <;> simp [h]
@[simp] theorem vaultCommand_sys_session (who : MboxUser) (code : Nat) (f : State → (Status × List Byte) × State) (s : State) (h : (f s).2.sys.session = s.sys.session) : (vaultCommand who code f s).sys.session = s.sys.session := by
  simp only [vaultCommand]; (repeat' split) <;> simp [h]
@[simp] theorem vaultCommand_key_lcCount (who : MboxUser) (code : Nat) (f : State → (Status × List Byte) × State) (s : State) (h : (f s).2.key.lcCount = s.key.lcCount) : (vaultCommand who code f s).key.lcCount = s.key.lcCount := by
  simp only [vaultCommand]; (repeat' split) <;> simp [h]
@[simp] theorem vaultCommand_pwr_mode (who : MboxUser) (code : Nat) (f : State → (Status × List Byte) × State) (s : State) (h : (f s).2.pwr.mode = s.pwr.mode) : (vaultCommand who code f s).pwr.mode = s.pwr.mode := by
  simp only [vaultCommand]; (repeat' split) <;> simp [h]
@[simp] theorem vaultCommand_time_loc (who : MboxUser) (code : Nat) (f : State → (Status × List Byte) × State) (s : State) (h : (f s).2.time.loc = s.time.loc) : (vaultCommand who code f s).time.loc = s.time.loc := by
  simp only [vaultCommand]; (repeat' split) <;> simp [h]
@[simp] theorem vaultCommand_cfg (who : MboxUser) (code : Nat) (f : State → (Status × List Byte) × State) (s : State) (h : (f s).2.cfg = s.cfg) : (vaultCommand who code f s).cfg = s.cfg := by
  simp only [vaultCommand]; (repeat' split) <;> simp [h]
@[simp] theorem execKeyUpdate_keep (who : MboxUser) (args : List Byte) (s : State) :
    Kept s (outState (execKeyUpdate who args s) s) := by
  simp [execKeyUpdate, guardWf]

@[simp] theorem execKeyDerive_keep (who : MboxUser) (args : List Byte) (s : State) :
    Kept s (outState (execKeyDerive who args s) s) := by
  simp [execKeyDerive, guardWf]

@[simp] theorem execEcdh_keep (who : MboxUser) (args : List Byte) (s : State) :
    Kept s (outState (execEcdh who args s) s) := by
  simp [execEcdh, guardWf]

@[simp] theorem execVsZeroise_keep (who : MboxUser) (args : List Byte) (s : State) :
    Kept s (outState (execVsZeroise who args s) s) := by
  simp [execVsZeroise, guardWf]

@[simp] theorem execSlotInfo_keep (who : MboxUser) (args : List Byte) (s : State) :
    Kept s (outState (execSlotInfo who args s) s) := by
  simp [execSlotInfo, guardWf]

@[simp] theorem execGetIdentity_keep (who : MboxUser) (args : List Byte) (s : State) :
    Kept s (outState (execGetIdentity who args s) s) := by
  simp [execGetIdentity, guardWf]

@[simp] theorem execSignChallenge_keep (who : MboxUser) (args : List Byte) (s : State) :
    Kept s (outState (execSignChallenge who args s) s) := by
  simp [execSignChallenge, guardWf]

@[simp] theorem execLcRequest_keep (who : MboxUser) (args : List Byte) (s : State) :
    (outState (execLcRequest who args s) s).pending = s.pending ∧ (outState (execLcRequest who args s) s).sys.flash = s.sys.flash ∧ (outState (execLcRequest who args s) s).sys.session = s.sys.session ∧ (outState (execLcRequest who args s) s).pwr.mode = s.pwr.mode ∧ (outState (execLcRequest who args s) s).time.loc = s.time.loc ∧ (outState (execLcRequest who args s) s).cfg = s.cfg := by
  simp [execLcRequest, guardWf]

@[simp] theorem execDebugToken_keep (who : MboxUser) (args : List Byte) (s : State) :
    Kept s (outState (execDebugToken who args s) s) := by
  simp [execDebugToken, guardWf]

@[simp] theorem execCertInstall_keep (who : MboxUser) (args : List Byte) (formed : Bool) (s : State) :
    Kept s (outState (execCertInstall who args formed s) s) := by
  simp [execCertInstall, guardWf]

@[simp] theorem execLcEnterMfg_keep (who : MboxUser) (s : State) :
    Kept s (outState (execLcEnterMfg who s) s) := by
  simp [execLcEnterMfg]

@[simp] theorem execLcScrap_keep (who : MboxUser) (s : State) :
    Kept s (outState (execLcScrap who s) s) := by
  simp [execLcScrap]

@[simp] theorem vaultRun_keep (who : MboxUser) (code : Nat) (args : List Byte) (s : State) :
    (vaultRun who code args s).2.pending = s.pending ∧ (vaultRun who code args s).2.sys.flash = s.sys.flash ∧ (vaultRun who code args s).2.sys.session = s.sys.session ∧ (vaultRun who code args s).2.pwr.mode = s.pwr.mode ∧ (vaultRun who code args s).2.time.loc = s.time.loc ∧ (vaultRun who code args s).2.cfg = s.cfg := by
  simp only [vaultRun]; (repeat' split) <;> simp

theorem vaultRun_of {who : MboxUser} {code : Nat} {args : List Byte} {s : State} {rr} (h : vaultRun who code args s = rr) :
    rr.2.pending = s.pending ∧ rr.2.sys.flash = s.sys.flash ∧ rr.2.sys.session = s.sys.session ∧ rr.2.pwr.mode = s.pwr.mode ∧ rr.2.time.loc = s.time.loc ∧ rr.2.cfg = s.cfg := h ▸ vaultRun_keep who code args s

@[simp] theorem keyCmdWrite_keep (who : MboxUser) (v : Nat) (s : State) :
    (keyCmdWrite who v s).pending = s.pending ∧ (keyCmdWrite who v s).sys.flash = s.sys.flash ∧ (keyCmdWrite who v s).sys.session = s.sys.session ∧ (keyCmdWrite who v s).pwr.mode = s.pwr.mode ∧ (keyCmdWrite who v s).time.loc = s.time.loc ∧ (keyCmdWrite who v s).cfg = s.cfg := by
  simp [keyCmdWrite]

@[simp] theorem execTamperDetection_keep (src : Fin 6) (s : State) :
    Kept s (outState (execTamperDetection src s) s) := by
  simp [execTamperDetection]

@[simp] theorem execTamperSourceInactive_keep (src : Fin 6) (s : State) :
    Kept s (outState (execTamperSourceInactive src s) s) := by
  simp [execTamperSourceInactive]

@[simp] theorem execL2Release_keep (s : State) :
    Kept s (outState (execL2Release s) s) := by
  simp [execL2Release]

@[simp] theorem keyStart_keep (s : State) :
    Kept s (keyStart s) := by
  simp [keyStart]

/-! Cipher.lean -/

@[simp] theorem pairSet_keep (n : Nat) (p : Pair) (s : State) :
    Kept s (pairSet n p s) := by
  simp [pairSet]

@[simp] theorem pairTo_keep (n st : Nat) (s : State) :
    Kept s (pairTo n st s) := by
  simp [pairTo]

@[simp] theorem cipShow_keep (s : State) :
    Kept s (cipShow s) := by
  simp [cipShow]

@[simp] theorem cipPut_keep (r : CipReq) (space o : Nat) (b : List Byte) (s : State) :
    Kept s (cipPut r space o b s) := by
  simp only [cipPut]; (repeat' split) <;> simp

@[simp] theorem cipWriteBack_keep (r : CipReq) (x : CipRes) (s : State) :
    Kept s (cipWriteBack r x s) := by
  simp [cipWriteBack]

@[simp] theorem cipCount_keep (n : Nat) (x : CipRes) (s : State) :
    Kept s (cipCount n x s) := by
  simp [cipCount]

@[simp] theorem cipRelease_keep (n : Nat) (r : CipReq) (x : CipRes) (s : State) :
    Kept s (cipRelease n r x s) := by
  simp [cipRelease]

@[simp] theorem cipSubmit_keep (r : CipReq) (s : State) :
    Kept s ((cipSubmit r s).2) := by
  simp [cipSubmit]

theorem cipSubmit_of {r : CipReq} {s : State} {rr} (h : cipSubmit r s = rr) :
    Kept s rr.2 := h ▸ cipSubmit_keep r s

@[simp] theorem cipRemove_keep (r : CipReq) (s : State) :
    Kept s (cipRemove r s) := by
  simp [cipRemove]

@[simp] theorem cipCache_keep (n slot : Nat) (s : State) :
    Kept s (cipCache n slot s) := by
  simp [cipCache]

@[simp] theorem cipRun_keep (m n : Nat) (s : State) :
    Kept s (cipRun m n s) := by
  simp only [cipRun]; (repeat' split) <;> simp

@[simp] theorem execCtr_keep (pair : Fin 4) (s : State) :
    Kept s (outState (execCtr pair s) s) := by
  simp [execCtr]

@[simp] theorem execGcmEncrypt_keep (pair : Fin 4) (s : State) :
    Kept s (outState (execGcmEncrypt pair s) s) := by
  simp [execGcmEncrypt]

@[simp] theorem execGcmDecryptAndVerify_keep (pair : Fin 4) (s : State) :
    Kept s (outState (execGcmDecryptAndVerify pair s) s) := by
  simp [execGcmDecryptAndVerify]

@[simp] theorem execGmacGenerate_keep (pair : Fin 4) (s : State) :
    Kept s (outState (execGmacGenerate pair s) s) := by
  simp [execGmacGenerate]

@[simp] theorem execGmacVerify_keep (pair : Fin 4) (s : State) :
    Kept s (outState (execGmacVerify pair s) s) := by
  simp [execGmacVerify]

@[simp] theorem execCmacGenerate_keep (pair : Fin 4) (s : State) :
    Kept s (outState (execCmacGenerate pair s) s) := by
  simp [execCmacGenerate]

@[simp] theorem execCmacVerify_keep (pair : Fin 4) (s : State) :
    Kept s (outState (execCmacVerify pair s) s) := by
  simp [execCmacVerify]

@[simp] theorem execCbcEncrypt_keep (pair : Fin 4) (s : State) :
    Kept s (outState (execCbcEncrypt pair s) s) := by
  simp [execCbcEncrypt]

@[simp] theorem execCbcDecrypt_keep (pair : Fin 4) (s : State) :
    Kept s (outState (execCbcDecrypt pair s) s) := by
  simp [execCbcDecrypt]

@[simp] theorem execXtsEncrypt_keep (pair : Fin 4) (s : State) :
    Kept s (outState (execXtsEncrypt pair s) s) := by
  simp [execXtsEncrypt]

@[simp] theorem execXtsDecrypt_keep (pair : Fin 4) (s : State) :
    Kept s (outState (execXtsDecrypt pair s) s) := by
  simp [execXtsDecrypt]

@[simp] theorem execKeyWrap_keep (pair : Fin 4) (s : State) :
    Kept s (outState (execKeyWrap pair s) s) := by
  simp [execKeyWrap]

@[simp] theorem execKeyUnwrap_keep (pair : Fin 4) (s : State) :
    Kept s (outState (execKeyUnwrap pair s) s) := by
  simp [execKeyUnwrap]

@[simp] theorem execSha256_keep (pair : Fin 4) (s : State) :
    Kept s (outState (execSha256 pair s) s) := by
  simp [execSha256]

@[simp] theorem execHmacSha256Generate_keep (pair : Fin 4) (s : State) :
    Kept s (outState (execHmacSha256Generate pair s) s) := by
  simp [execHmacSha256Generate]

@[simp] theorem execHmacSha256Verify_keep (pair : Fin 4) (s : State) :
    Kept s (outState (execHmacSha256Verify pair s) s) := by
  simp [execHmacSha256Verify]

@[simp] theorem cipStrand_keep (n : Nat) (s : State) :
    Kept s (cipStrand n s) := by
  simp [cipStrand]

@[simp] theorem pairFence_keep (n : Nat) (s : State) :
    Kept s (pairFence n s) := by
  simp [pairFence]

@[simp] theorem pairMismatch_keep (n : Nat) (s : State) :
    Kept s (pairMismatch n s) := by
  simp [pairMismatch]

@[simp] theorem pairFailed_keep (katPass : Bool) (n : Nat) (s : State) :
    Kept s (pairFailed katPass n s) := by
  simp only [pairFailed]; (repeat' split) <;> simp

@[simp] theorem pairCheck_keep (n : Nat) (c : LaneCheck) (s : State) :
    Kept s (pairCheck n c s) := by
  simp only [pairCheck]; (repeat' split) <;> simp

@[simp] theorem execCheckingBeforeRelease_keep (pair : Fin 4) (c : LaneCheck) (s : State) :
    Kept s (outState (execCheckingBeforeRelease pair c s) s) := by
  simp [execCheckingBeforeRelease]

@[simp] theorem winGo_keep (w : Nat) (perm : Bool) (v : Nat) (s : State) :
    Kept s ((winGo w perm v s).2) := by
  simp [winGo]

theorem winGo_of {w : Nat} {perm : Bool} {v : Nat} {s : State} {rr} (h : winGo w perm v s = rr) :
    Kept s rr.2 := h ▸ winGo_keep w perm v s

@[simp] theorem msSaSet_keep (p i : Nat) (x : Sa) (s : State) :
    Kept s (msSaSet p i x s) := by
  simp [msSaSet]

@[simp] theorem msShow_keep (p : Nat) (s : State) :
    Kept s (msShow p s) := by
  simp [msShow]

@[simp] theorem msProtect_keep (p : Nat) (d : List Byte) (s : State) :
    Kept s ((msProtect p d s).2) := by
  simp only [msProtect]; (repeat' split) <;> simp

theorem msProtect_of {p : Nat} {d : List Byte} {s : State} {rr} (h : msProtect p d s = rr) :
    Kept s rr.2 := h ▸ msProtect_keep p d s

@[simp] theorem msValidate_keep (p : Nat) (d : List Byte) (s : State) :
    Kept s ((msValidate p d s).2.2) := by
  simp only [msValidate]; (repeat' split) <;> simp

theorem msValidate_of {p : Nat} {d : List Byte} {s : State} {rr} (h : msValidate p d s = rr) :
    Kept s rr.2.2 := h ▸ msValidate_keep p d s

@[simp] theorem execSakInstallation_keep (port : Fin 16) (sa : SaInstall) (s : State) :
    Kept s (outState (execSakInstallation port sa s) s) := by
  simp [execSakInstallation, guardWf]

@[simp] theorem execSaSwitch_keep (port : Fin 16) (an : Fin 4) (s : State) :
    Kept s (outState (execSaSwitch port an s) s) := by
  simp [execSaSwitch]

@[simp] theorem pairsPower_keep (on : Bool) (s : State) :
    Kept s (pairsPower on s) := by
  simp only [pairsPower]; (repeat' split) <;> simp

@[simp] theorem cipLost_keep (s : State) :
    Kept s (cipLost s) := by
  simp [cipLost]

/-! Submit.lean -/

@[simp] theorem stagePush_keep (node f : Nat) (s : State) :
    Kept s (stagePush node f s) := by
  simp [stagePush]

@[simp] theorem stageDrop_keep (node f : Nat) (s : State) :
    Kept s (stageDrop node f s) := by
  simp [stageDrop]

@[simp] theorem submitAs_keep (keep : Bool) (node : Nat) (x : Fr) (s : State) :
    Kept s ((submitAs keep node x s).2) := by
  simp only [submitAs]; (repeat' split) <;> (try have hk0 := admitLinks_of ‹admitLinks _ _ _ = _›) <;> simp_all

theorem submitAs_of {keep : Bool} {node : Nat} {x : Fr} {s : State} {rr} (h : submitAs keep node x s = rr) :
    Kept s rr.2 := h ▸ submitAs_keep keep node x s

@[simp] theorem submit_keep (node : Nat) (x : Fr) (s : State) :
    Kept s ((submit node x s).2) := by
  simp [submit]

theorem submit_of {node : Nat} {x : Fr} {s : State} {rr} (h : submit node x s = rr) :
    Kept s rr.2 := h ▸ submit_keep node x s

@[simp] theorem submitLookup_keep (node : Nat) (x : Fr) (s : State) :
    Kept s ((submitLookup node x s).2) := by
  simp only [submitLookup]; (repeat' split) <;> simp

theorem submitLookup_of {node : Nat} {x : Fr} {s : State} {rr} (h : submitLookup node x s = rr) :
    Kept s rr.2 := h ▸ submitLookup_keep node x s

@[simp] theorem tagUse_keep (slot : Nat) (s : State) :
    Kept s ((tagUse slot s).2) := by
  simp only [tagUse]; (repeat' split) <;> (try have hk0 := useCount_of ‹useCount _ _ = _›) <;> simp_all

theorem tagUse_of {slot : Nat} {s : State} {rr} (h : tagUse slot s = rr) :
    Kept s rr.2 := h ▸ tagUse_keep slot s

@[simp] theorem almNumbered_keep (s : State) :
    Kept s (almNumbered s) := by
  simp [almNumbered]

@[simp] theorem almRebase_keep (s : State) :
    Kept s (almRebase s) := by
  simp [almRebase]

@[simp] theorem almOut_keep (port vlan : Nat) (dst : List Byte) (type flags : Nat) (body : List Byte) (key : Option (List Byte)) (s : State) :
    Kept s ((almOut port vlan dst type flags body key s).2) := by
  simp [almOut]

theorem almOut_of {port : Nat} {vlan : Nat} {dst : List Byte} {type : Nat} {flags : Nat} {body : List Byte} {key : Option (List Byte)} {s : State} {rr} (h : almOut port vlan dst type flags body key s = rr) :
    Kept s rr.2 := h ▸ almOut_keep port vlan dst type flags body key s

@[simp] theorem almTo_keep (i type flags : Nat) (body : List Byte) (s : State) :
    Kept s ((almTo i type flags body s).2) := by
  simp only [almTo]; (repeat' split) <;> (try have hk0 := tagUse_of ‹tagUse _ _ = _›) <;> simp_all

theorem almTo_of {i : Nat} {type : Nat} {flags : Nat} {body : List Byte} {s : State} {rr} (h : almTo i type flags body s = rr) :
    Kept s rr.2 := h ▸ almTo_keep i type flags body s

@[simp] theorem almRing_keep (skip : List Nat) (type flags : Nat) (body : List Byte) (s : State) :
    Kept s (almRing skip type flags body s) := by
  simp [almRing]

end Sys2Proof.Machine
end

