-- ==== Sys2Proof/Laws/KeepSignals.lean ====
section
/-! SUPPORT. The signal store, the link, sleep, stipples and host queues: each operation leaves
the waiting commands, the plate flash, the staging session, the life-cycle counter and the power mode as they were, but
for those that Flash.lean, LifeCycle.lean and Mode.lean take up. -/

namespace Sys2Proof.Machine

/-! SigStore.lean -/

@[simp] theorem sigSet_keep (i : Nat) (x : SigEnt) (s : State) :
    Kept s (sigSet i x s) := by
  simp [sigSet]

/-! AlmLink.lean -/

@[simp] theorem msgAuthentic_keep (m : List Byte) (s : State) :
    Kept s ((msgAuthentic m s).2) := by
  simp only [msgAuthentic]; (repeat' split) <;> simp

theorem msgAuthentic_of {m : List Byte} {s : State} {rr} (h : msgAuthentic m s = rr) :
    Kept s rr.2 := h ▸ msgAuthentic_keep m s

@[simp] theorem replaySet_keep (n : Nat) (r : Replay) (s : State) :
    Kept s (replaySet n r s) := by
  simp [replaySet]

@[simp] theorem baseStore_keep (n q : Nat) (s : State) :
    Kept s ((baseStore n q s).2) := by
  simp only [baseStore]; (repeat' split) <;> simp

theorem baseStore_of {n q : Nat} {s : State} {rr} (h : baseStore n q s = rr) :
    Kept s rr.2 := h ▸ baseStore_keep n q s

@[simp] theorem almKeep_keep (n q : Nat) (resync : Bool) (s : State) :
    Kept s (almKeep n q resync s) := by
  simp [almKeep]

@[simp] theorem almAccept_keep (t : Nat) (m : List Byte) (s : State) :
    Kept s ((almAccept t m s).2) := by
  simp [almAccept]

theorem almAccept_of {t : Nat} {m : List Byte} {s : State} {rr} (h : almAccept t m s = rr) :
    Kept s rr.2 := h ▸ almAccept_keep t m s

/-! SleepCore.lean -/

@[simp] theorem slpShow_keep (s : State) :
    Kept s (slpShow s) := by
  simp [slpShow]

@[simp] theorem slpConfirm_keep (s : State) :
    Kept s (slpConfirm s) := by
  simp [slpConfirm]

@[simp] theorem resWake_keep (s : State) :
    Kept s (resWake s) := by
  simp [resWake]

@[simp] theorem wakeBroadcast_keep (w reason : Nat) (late : Bool) (s : State) :
    Kept s (wakeBroadcast w reason late s) := by
  simp [wakeBroadcast]

@[simp] theorem wakeGroupsFor_keep (w reason : Nat) (late : Bool) (s : State) :
    Kept s (wakeGroupsFor w reason late s) := by
  simp [wakeGroupsFor]

@[simp] theorem wakeBit_keep (r : Nat) (s : State) :
    Kept s (wakeBit r s) := by
  simp only [wakeBit]; (repeat' split) <;> simp

@[simp] theorem vetoSend_keep (skip : List Nat) (body : List Byte) (s : State) :
    Kept s (vetoSend skip body s) := by
  simp [vetoSend]

@[simp] theorem roundCancel_keep (s : State) :
    Kept s (roundCancel s) := by
  simp [roundCancel]

@[simp] theorem lateWake_keep (reason w : Nat) (s : State) :
    Kept s (lateWake reason w s) := by
  simp [lateWake]

@[simp] theorem sleepFlush_keep (q : Nat) (s : State) :
    Kept s (sleepFlush q s) := by
  simp [sleepFlush]

@[simp] theorem resSleep_keep (ports cans lins : List Nat) (s : State) :
    Kept s (resSleep ports cans lins s) := by
  simp [resSleep]

@[simp] theorem enterStandby_keep (s : State) :
    (enterStandby s).pending = s.pending ∧ (enterStandby s).sys.flash = s.sys.flash ∧ (enterStandby s).sys.session = s.sys.session ∧ (enterStandby s).key.lcCount = s.key.lcCount := by
  simp [enterStandby]

@[simp] theorem enterSleep_keep (s : State) :
    (enterSleep s).pending = s.pending ∧ (enterSleep s).sys.flash = s.sys.flash ∧ (enterSleep s).key.lcCount = s.key.lcCount := by
  simp [enterSleep]

@[simp] theorem wakeLatch_keep (r m : Nat) (s : State) :
    Kept s (wakeLatch r m s) := by
  simp only [wakeLatch]; (repeat' split) <;> simp

@[simp] theorem wakeAct_keep (r m : Nat) (late : Bool) (s : State) :
    Kept s (wakeAct r m late s) := by
  simp only [wakeAct]; (repeat' split) <;> simp

@[simp] theorem groupsSleep_keep (cand : Nat) (s : State) :
    Kept s (groupsSleep cand s) := by
  simp [groupsSleep]

@[simp] theorem deviceSleep_keep (s : State) :
    (deviceSleep s).pending = s.pending ∧ (deviceSleep s).sys.flash = s.sys.flash ∧ (deviceSleep s).key.lcCount = s.key.lcCount := by
  simp only [deviceSleep]; (repeat' split) <;> simp

@[simp] theorem sleepEntry_keep (cand : Nat) (s : State) :
    (sleepEntry cand s).pending = s.pending ∧ (sleepEntry cand s).sys.flash = s.sys.flash ∧ (sleepEntry cand s).key.lcCount = s.key.lcCount := by
  simp [sleepEntry]

@[simp] theorem wakeReason_keep (r m : Nat) (late : Bool) (s : State) :
    Kept s (wakeReason r m late s) := by
  simp only [wakeReason]; (repeat' split) <;> simp

@[simp] theorem slpEval_keep (s : State) :
    Kept s (slpEval s) := by
  simp [slpEval]

/-! Signal.lean -/

@[simp] theorem openRequest_keep (kind node sig val : Nat) (s : State) :
    Kept s ((openRequest kind node sig val s).2) := by
  simp only [openRequest]; (repeat' split) <;> simp

theorem openRequest_of {kind : Nat} {node : Nat} {sig : Nat} {val : Nat} {s : State} {rr} (h : openRequest kind node sig val s = rr) :
    Kept s rr.2 := h ▸ openRequest_keep kind node sig val s

@[simp] theorem remoteWrite_keep (sig node val : Nat) (s : State) :
    Kept s (remoteWrite sig node val s) := by
  simp only [remoteWrite]; (repeat' split) <;> (try have hk0 := openRequest_of ‹openRequest _ _ _ _ _ = _›) <;> simp_all

@[simp] theorem remoteFetch_keep (sig : Nat) (s : State) :
    Kept s (remoteFetch sig s) := by
  simp only [remoteFetch]; (repeat' split) <;> (try have hk0 := openRequest_of ‹openRequest _ _ _ _ _ = _›) <;> simp_all

@[simp] theorem pduChange_keep (p : Nat) (s : State) :
    Kept s (pduChange p s) := by
  simp [pduChange]

@[simp] theorem afterCommit_keep (l : List Nat) (w : Nat) (s : State) :
    Kept s (afterCommit l w s) := by
  simp [afterCommit]

@[simp] theorem sigPut_keep (i val : Nat) (arr : List Byte) (writer time : Nat) (s : State) :
    Kept s (sigPut i val arr writer time s) := by
  simp [sigPut]

@[simp] theorem sigWrite_keep (a : List Nat × State) (w : Staged) :
    Kept a.2 ((sigWrite a w).2) := by
  simp only [sigWrite]; (repeat' split) <;> simp

@[simp] theorem sigCommit_keep (ws : List Staged) (s : State) :
    Kept s (sigCommit ws s) := by
  simp only [sigCommit]; (repeat' split) <;> simp

@[simp] theorem pduFlag_keep (p b : Nat) (v : Bool) (s : State) :
    Kept s (pduFlag p b v s) := by
  simp [pduFlag]

@[simp] theorem pduConfirms_keep (p : Nat) (s : State) :
    Kept s (pduConfirms p s) := by
  simp [pduConfirms]

@[simp] theorem e2eCheck_keep (p : Nat) (d : List Byte) (s : State) :
    Kept s ((e2eCheck p d s).2) := by
  simp [e2eCheck]

theorem e2eCheck_of {p : Nat} {d : List Byte} {s : State} {rr} (h : e2eCheck p d s = rr) :
    Kept s rr.2 := h ▸ e2eCheck_keep p d s

@[simp] theorem pduUnpack_keep (p : Nat) (d : List Byte) (s : State) :
    Kept s ((pduUnpack p d s).2.2) := by
  simp [pduUnpack]

theorem pduUnpack_of {p : Nat} {d : List Byte} {s : State} {rr} (h : pduUnpack p d s = rr) :
    Kept s rr.2.2 := h ▸ pduUnpack_keep p d s

@[simp] theorem snapSet_keep (k : Nat) (x : SnapRun) (s : State) :
    Kept s (snapSet k x s) := by
  simp [snapSet]

@[simp] theorem snapCut_keep (k t : Nat) (s : State) :
    Kept s (snapCut k t s) := by
  simp [snapCut]

@[simp] theorem snapLatch_keep (k t : Nat) (s : State) :
    Kept s ((snapLatch k t s).2) := by
  simp [snapLatch]

theorem snapLatch_of {k : Nat} {t : Nat} {s : State} {rr} (h : snapLatch k t s = rr) :
    Kept s rr.2 := h ▸ snapLatch_keep k t s

@[simp] theorem snapUnpin_keep (f : Nat) (s : State) :
    Kept s (snapUnpin f s) := by
  simp [snapUnpin]

@[simp] theorem snapPinBank_keep (k b f : Nat) (s : State) :
    Kept s (snapPinBank k b f s) := by
  simp only [snapPinBank]; (repeat' split) <;> simp

@[simp] theorem snapPin_keep (k f : Nat) (s : State) :
    Kept s (snapPin k f s) := by
  simp [snapPin]

@[simp] theorem packMap_keep (p : Nat) (a : Nat × State) (m : Nat) :
    Kept a.2 ((packMap p a m).2) := by
  simp [packMap]

@[simp] theorem pduPack_keep (p : Nat) (s : State) :
    Kept s ((pduPack p s).2) := by
  simp [pduPack]

theorem pduPack_of {p : Nat} {s : State} {rr} (h : pduPack p s = rr) :
    Kept s rr.2 := h ▸ pduPack_keep p s

@[simp] theorem execPduDue_keep (p : Fin 8192) (s : State) :
    Kept s (outState (execPduDue p s) s) := by
  simp [execPduDue]

@[simp] theorem execMinimumGap_keep (p : Fin 8192) (s : State) :
    Kept s (outState (execMinimumGap p s) s) := by
  simp [execMinimumGap]

@[simp] theorem routesFor_keep (kind src bus id : Nat) (s : State) :
    Kept s ((routesFor kind src bus id s).2) := by
  simp [routesFor]

theorem routesFor_of {kind : Nat} {src : Nat} {bus : Nat} {id : Nat} {s : State} {rr} (h : routesFor kind src bus id s = rr) :
    Kept s rr.2 := h ▸ routesFor_keep kind src bus id s

@[simp] theorem tunnelSend_keep (node dst src : Nat) (frame : List Byte) (s : State) :
    Kept s (tunnelSend node dst src frame s) := by
  simp only [tunnelSend]; (repeat' split) <;> (try have hk0 := almTo_of ‹almTo _ _ _ _ _ = _›) <;> simp_all

@[simp] theorem frameRoutes_keep (kind src bus ch : Nat) (data : List Byte) (s : State) :
    Kept s (frameRoutes kind src bus ch data s) := by
  simp only [frameRoutes]; simp (disch := first | (simp; done) | (intros; (repeat' split) <;> (try simp); done) | fail)

@[simp] theorem carSet_keep (k : Nat) (x : CarRun) (s : State) :
    Kept s (carSet k x s) := by
  simp [carSet]

@[simp] theorem carClose_keep (k : Nat) (s : State) :
    Kept s (carClose k s) := by
  simp [carClose]

@[simp] theorem carAdd_keep (k bus ts : Nat) (urgent : Bool) (f : CanFrame) (s : State) :
    Kept s ((carAdd k bus ts urgent f s).2) := by
  simp [carAdd]

theorem carAdd_of {k : Nat} {bus : Nat} {ts : Nat} {urgent : Bool} {f : CanFrame} {s : State} {rr} (h : carAdd k bus ts urgent f s = rr) :
    Kept s rr.2 := h ▸ carAdd_keep k bus ts urgent f s

@[simp] theorem execMaximumBatchingDelay_keep (k : Fin 64) (s : State) :
    Kept s (outState (execMaximumBatchingDelay k s) s) := by
  simp [execMaximumBatchingDelay]

@[simp] theorem carFrame_keep (k : Nat) (m : Nat × List Byte) (s : State) :
    Kept s (carFrame k m s) := by
  simp [carFrame]

@[simp] theorem carTaken_keep (e : Nat) (d : List Byte) (s : State) :
    Kept s (carTaken e d s) := by
  simp only [carTaken]; (repeat' split) <;> simp

@[simp] theorem frameTaken_keep (e : Nat) (d : List Byte) (s : State) :
    Kept s (frameTaken e d s) := by
  simp only [frameTaken]; (repeat' split) <;> simp

/-! Stipple.lean -/

@[simp] theorem stpCount_keep (e : Nat) (s : State) :
    Kept s (stpCount e s) := by
  simp [stpCount]

@[simp] theorem stpRelease_keep (e : Nat) (s : State) :
    Kept s ((stpRelease e s).2) := by
  simp only [stpRelease]; (repeat' split) <;> simp

theorem stpRelease_of {e : Nat} {s : State} {rr} (h : stpRelease e s = rr) :
    Kept s rr.2 := h ▸ stpRelease_keep e s

@[simp] theorem stpDropFrame_keep (q p : Nat) (s : State) :
    Kept s (stpDropFrame q p s) := by
  simp only [stpDropFrame]; (repeat' split) <;> simp

@[simp] theorem stpAbandon_keep (e : Nat) (s : State) :
    Kept s (stpAbandon e s) := by
  simp [stpAbandon]

@[simp] theorem stpSkip_keep (e : Nat) (s : State) :
    Kept s (stpSkip e s) := by
  simp [stpSkip]

@[simp] theorem stpLaunch_keep (e : Nat) (s : State) :
    Kept s (stpLaunch e s) := by
  simp [stpLaunch]

@[simp] theorem stpLaunchLate_keep (e t : Nat) (s : State) :
    Kept s (stpLaunchLate e t s) := by
  simp only [stpLaunchLate]; (repeat' split) <;> simp

@[simp] theorem stpMissed_keep (e t : Nat) (s : State) :
    Kept s (stpMissed e t s) := by
  simp only [stpMissed]; (repeat' split) <;> simp

@[simp] theorem stpInstant_keep (e t : Nat) (s : State) :
    Kept s (stpInstant e t s) := by
  simp [stpInstant]

@[simp] theorem stpLateCheck_keep (q : Nat) (s : State) :
    Kept s (stpLateCheck q s) := by
  simp only [stpLateCheck]; (repeat' split) <;> simp (disch := first | (simp; done) | (intros; (repeat' split) <;> (try simp); done) | fail)

@[simp] theorem stpFireWith_pending (act e : Nat) (put f : Nat → State → State) (s : State) (h : ∀ a t, (put a t).pending = t.pending) (h2 : ∀ a t, (f a t).pending = t.pending) : (stpFireWith act e put f s).pending = s.pending := by
  simp only [stpFireWith]; (repeat' split) <;> simp [h, h2]
@[simp] theorem stpFireWith_sys_flash (act e : Nat) (put f : Nat → State → State) (s : State) (h : ∀ a t, (put a t).sys.flash = t.sys.flash) (h2 : ∀ a t, (f a t).sys.flash = t.sys.flash) : (stpFireWith act e put f s).sys.flash = s.sys.flash := by
  simp only [stpFireWith]; (repeat' split) <;> simp [h, h2]
@[simp] theorem stpFireWith_sys_session (act e : Nat) (put f : Nat → State → State) (s : State) (h : ∀ a t, (put a t).sys.session = t.sys.session) (h2 : ∀ a t, (f a t).sys.session = t.sys.session) : (stpFireWith act e put f s).sys.session = s.sys.session := by
  simp only [stpFireWith]; (repeat' split) <;> simp [h, h2]
@[simp] theorem stpFireWith_key_lcCount (act e : Nat) (put f : Nat → State → State) (s : State) (h : ∀ a t, (put a t).key.lcCount = t.key.lcCount) (h2 : ∀ a t, (f a t).key.lcCount = t.key.lcCount) : (stpFireWith act e put f s).key.lcCount = s.key.lcCount := by
  simp only [stpFireWith]; (repeat' split) <;> simp [h, h2]
@[simp] theorem stpFireWith_pwr_mode (act e : Nat) (put f : Nat → State → State) (s : State) (h : ∀ a t, (put a t).pwr.mode = t.pwr.mode) (h2 : ∀ a t, (f a t).pwr.mode = t.pwr.mode) : (stpFireWith act e put f s).pwr.mode = s.pwr.mode := by
  simp only [stpFireWith]; (repeat' split) <;> simp [h, h2]
@[simp] theorem stpFireWith_time_loc (act e : Nat) (put f : Nat → State → State) (s : State) (h : ∀ a t, (put a t).time.loc = t.time.loc) (h2 : ∀ a t, (f a t).time.loc = t.time.loc) : (stpFireWith act e put f s).time.loc = s.time.loc := by
  simp only [stpFireWith]; (repeat' split) <;> simp [h, h2]
@[simp] theorem stpFireWith_cfg (act e : Nat) (put f : Nat → State → State) (s : State) (h : ∀ a t, (put a t).cfg = t.cfg) (h2 : ∀ a t, (f a t).cfg = t.cfg) : (stpFireWith act e put f s).cfg = s.cfg := by
  simp only [stpFireWith]; (repeat' split) <;> simp [h, h2]
@[simp] theorem stpFire_pending (act e : Nat) (f : Nat → State → State) (s : State) (h : ∀ t s, (f t s).pending = s.pending) : (stpFire act e f s).pending = s.pending := by
  simp only [stpFire]; (repeat' split) <;> simp [h]
@[simp] theorem stpFire_sys_flash (act e : Nat) (f : Nat → State → State) (s : State) (h : ∀ t s, (f t s).sys.flash = s.sys.flash) : (stpFire act e f s).sys.flash = s.sys.flash := by
  simp only [stpFire]; (repeat' split) <;> simp [h]
@[simp] theorem stpFire_sys_session (act e : Nat) (f : Nat → State → State) (s : State) (h : ∀ t s, (f t s).sys.session = s.sys.session) : (stpFire act e f s).sys.session = s.sys.session := by
  simp only [stpFire]; (repeat' split) <;> simp [h]
@[simp] theorem stpFire_key_lcCount (act e : Nat) (f : Nat → State → State) (s : State) (h : ∀ t s, (f t s).key.lcCount = s.key.lcCount) : (stpFire act e f s).key.lcCount = s.key.lcCount := by
  simp only [stpFire]; (repeat' split) <;> simp [h]
@[simp] theorem stpFire_pwr_mode (act e : Nat) (f : Nat → State → State) (s : State) (h : ∀ t s, (f t s).pwr.mode = s.pwr.mode) : (stpFire act e f s).pwr.mode = s.pwr.mode := by
  simp only [stpFire]; (repeat' split) <;> simp [h]
@[simp] theorem stpFire_time_loc (act e : Nat) (f : Nat → State → State) (s : State) (h : ∀ t s, (f t s).time.loc = s.time.loc) : (stpFire act e f s).time.loc = s.time.loc := by
  simp only [stpFire]; (repeat' split) <;> simp [h]
@[simp] theorem stpFire_cfg (act e : Nat) (f : Nat → State → State) (s : State) (h : ∀ t s, (f t s).cfg = s.cfg) : (stpFire act e f s).cfg = s.cfg := by
  simp only [stpFire]; (repeat' split) <;> simp [h]
@[simp] theorem execNopAction_keep (e : Fin 4096) (s : State) :
    Kept s (outState (execNopAction e s) s) := by
  simp [execNopAction]

@[simp] theorem execLaunchFrame_keep (e : Fin 4096) (s : State) :
    Kept s (outState (execLaunchFrame e s) s) := by
  simp [execLaunchFrame]

@[simp] theorem execLaunchPdu_keep (e : Fin 4096) (s : State) :
    Kept s (outState (execLaunchPdu e s) s) := by
  simp [execLaunchPdu]

@[simp] theorem gateForce_keep (p v : Nat) (s : State) :
    Kept s (gateForce p v s) := by
  simp only [gateForce]; (repeat' split) <;> simp

@[simp] theorem execGate_keep (e : Fin 4096) (s : State) :
    Kept s (outState (execGate e s) s) := by
  simp [execGate]

@[simp] theorem execSnapshot_keep (e : Fin 4096) (s : State) :
    Kept s (outState (execSnapshot e s) s) := by
  simp [execSnapshot]

@[simp] theorem stpDrive_keep (target : Nat) (v : Bool) (s : State) :
    Kept s (stpDrive target v s) := by
  simp [stpDrive]

@[simp] theorem execOutput_keep (e : Fin 4096) (s : State) :
    Kept s (outState (execOutput e s) s) := by
  simp only [execOutput]; (repeat' split) <;> simp (disch := first | (simp; done) | (intros; (repeat' split) <;> (try simp); done) | fail)

@[simp] theorem execPlcaBeacon_keep (e : Fin 4096) (s : State) :
    Kept s (outState (execPlcaBeacon e s) s) := by
  simp [execPlcaBeacon]

@[simp] theorem execEngineEvent_keep (e : Fin 4096) (s : State) :
    Kept s (outState (execEngineEvent e s) s) := by
  simp [execEngineEvent]

@[simp] theorem execOutputPulseEnd_keep (o : StpOut) (s : State) :
    Kept s (outState (execOutputPulseEnd o s) s) := by
  simp [execOutputPulseEnd]

@[simp] theorem execPreparationEvent_keep (e : Fin 4096) (gv : Fin 4) (s : State) :
    let t := outState (execPreparationEvent e gv s) s
    t.pending = s.pending ∧ t.sys.flash = s.sys.flash ∧ t.sys.session = s.sys.session ∧ t.key.lcCount = s.key.lcCount ∧
      t.time.loc = s.time.loc ∧ t.cfg = s.cfg := by
  simp [execPreparationEvent]

@[simp] theorem execGuardWindow_keep (e : Fin 4096) (s : State) :
    Kept s (outState (execGuardWindow e s) s) := by
  simp only [execGuardWindow]; (repeat' split) <;> simp

@[simp] theorem execLateLimit_keep (e : Fin 4096) (s : State) :
    Kept s (outState (execLateLimit e s) s) := by
  simp only [execLateLimit]; (repeat' split) <;> simp

/-! HostQueue.lean -/

@[simp] theorem hostQSet_keep (q : Nat) (x : HostQ) (s : State) :
    Kept s (hostQSet q x s) := by
  simp [hostQSet]

@[simp] theorem cplShow_keep (q : Nat) (s : State) :
    Kept s (cplShow q s) := by
  simp [cplShow]

@[simp] theorem cplCount_keep (q : Nat) (r : List Byte) (s : State) :
    Kept s (cplCount q r s) := by
  simp [cplCount]

@[simp] theorem waitEnd_keep (q n : Nat) (irq : Bool) (s : State) :
    Kept s (waitEnd q n irq s) := by
  simp [waitEnd]

@[simp] theorem cplWrite_keep (q : Nat) (r : List Byte) (intr : Bool) (s : State) :
    Kept s (cplWrite q r intr s) := by
  simp [cplWrite]

@[simp] theorem hostComplete_keep (q : Nat) (r : List Byte) (intr : Bool) (s : State) :
    Kept s (hostComplete q r intr s) := by
  simp [hostComplete]

@[simp] theorem cplDrain_keep (q n : Nat) (s : State) : Kept s (cplDrain q n s) := by
  induction n generalizing s with
  | zero => simp [cplDrain]
  | succ n ih => simp only [cplDrain]; (repeat' split) <;> simp [ih]

@[simp] theorem stampDeliver_keep (q i : Nat) (intr : Bool) (ns : Option Nat) (s : State) :
    Kept s (stampDeliver q i intr ns s) := by
  simp only [stampDeliver]; (repeat' split) <;> simp

@[simp] theorem hostCapture_keep (p : Nat) (c : Nat × Nat × Bool) (s : State) :
    Kept s (hostCapture p c s) := by
  simp [hostCapture]

@[simp] theorem stampEnd_keep (p : Nat) (st : Stamp) (s : State) :
    Kept s (stampEnd p st s) := by
  simp only [stampEnd]; (repeat' split) <;> simp

@[simp] theorem execTimestampDrain_keep (port : Fin 32) (s : State) :
    Kept s (outState (execTimestampDrain port s) s) := by
  simp only [execTimestampDrain]; (repeat' split) <;> simp

@[simp] theorem doorbell_keep (who : Initiator) (ring q v : Nat) (s : State) :
    Kept s ((doorbell who ring q v s).2) := by
  simp only [doorbell]; (repeat' split) <;> simp

theorem doorbell_of {who : Initiator} {ring : Nat} {q : Nat} {v : Nat} {s : State} {rr} (h : doorbell who ring q v s = rr) :
    Kept s rr.2 := h ▸ doorbell_keep who ring q v s

@[simp] theorem execSendTail_keep (who : Initiator) (q : Fin 64) (v : Word) (s : State) :
    Kept s (outState (execSendTail who q v s) s) := by
  simp [execSendTail]

@[simp] theorem execReceiveTail_keep (who : Initiator) (q : Fin 64) (v : Word) (s : State) :
    Kept s (outState (execReceiveTail who q v s) s) := by
  simp [execReceiveTail]

@[simp] theorem execCompletionHead_keep (who : Initiator) (q : Fin 64) (v : Word) (s : State) :
    Kept s (outState (execCompletionHead who q v s) s) := by
  simp [execCompletionHead]

@[simp] theorem sendLinked_keep (x : Fr) (s : State) :
    Kept s (sendLinked x s) := by
  simp only [sendLinked]; (repeat' split) <;> simp

@[simp] theorem sendEnded_keep (refused : Bool) (x : Fr) (s : State) :
    Kept s (sendEnded refused x s) := by
  simp only [sendEnded]; (repeat' split) <;> simp

@[simp] theorem execSendDescriptor_keep (q : Fin 64) (desc buf : List Byte) (s : State) :
    Kept s (outState (execSendDescriptor q desc buf s) s) := by
  simp only [execSendDescriptor, guardWf]; (repeat' split) <;> (try have hk0 := submit_of ‹submit _ _ _ = _›) <;> (try have hk1 := submitLookup_of ‹submitLookup _ _ _ = _›) <;> simp_all

@[simp] theorem execReceiveDescriptor_keep (q : Fin 64) (desc : List Byte) (s : State) :
    Kept s (outState (execReceiveDescriptor q desc s) s) := by
  simp only [execReceiveDescriptor, guardWf]; (repeat' split) <;> (try have hk0 := popHead_of ‹popHead _ _ = _›) <;> simp_all

@[simp] theorem waitWrite_keep (who : Initiator) (q v : Nat) (s : State) :
    Kept s ((waitWrite who q v s).2) := by
  simp [waitWrite]

theorem waitWrite_of {who : Initiator} {q : Nat} {v : Nat} {s : State} {rr} (h : waitWrite who q v s = rr) :
    Kept s rr.2 := h ▸ waitWrite_keep who q v s

@[simp] theorem execHstHqnnWait_keep (who : Initiator) (q : Fin 64) (v : Word) (s : State) :
    Kept s (outState (execHstHqnnWait who q v s) s) := by
  simp [execHstHqnnWait]

@[simp] theorem execCompletionWait_keep (q : Fin 64) (s : State) :
    Kept s (outState (execCompletionWait q s) s) := by
  simp [execCompletionWait]

@[simp] theorem stashShow_keep (s : State) :
    Kept s (stashShow s) := by
  simp [stashShow]

@[simp] theorem stashFree_keep (e : Nat) (s : State) :
    Kept s (stashFree e s) := by
  simp only [stashFree]; (repeat' split) <;> simp

@[simp] theorem stashUnclaimed_keep (e : Nat) (s : State) :
    Kept s (stashUnclaimed e s) := by
  simp only [stashUnclaimed]; (repeat' split) <;> simp

@[simp] theorem popRead_keep (i q : Nat) (s : State) :
    Kept s ((popRead i q s).2) := by
  simp only [popRead]; (repeat' split) <;> (try have hk0 := popHead_of ‹popHead _ _ = _›) <;> simp_all

theorem popRead_of {i : Nat} {q : Nat} {s : State} {rr} (h : popRead i q s = rr) :
    Kept s rr.2 := h ▸ popRead_keep i q s

@[simp] theorem answer_keep (via : View) (st : Status) (b : List Byte) (s : State) :
    Kept s (answer via st b s) := by
  simp only [answer]; (repeat' split) <;> simp

@[simp] theorem ackWrite_keep (who : Initiator) (q : Nat) (s : State) :
    Kept s ((ackWrite who q s).2) := by
  simp only [ackWrite]; (repeat' split) <;> simp

theorem ackWrite_of {who : Initiator} {q : Nat} {s : State} {rr} (h : ackWrite who q s = rr) :
    Kept s rr.2 := h ▸ ackWrite_keep who q s

@[simp] theorem execHstHqnnAck_keep (who : Initiator) (q : Fin 64) (s : State) :
    Kept s (outState (execHstHqnnAck who q s) s) := by
  simp [execHstHqnnAck]

@[simp] theorem execTStash_keep (e : Fin 16) (s : State) :
    Kept s (outState (execTStash e s) s) := by
  simp only [execTStash]; (repeat' split) <;> simp

@[simp] theorem pcieReset_keep (s : State) :
    Kept s (pcieReset s) := by
  simp [pcieReset]

@[simp] theorem execPcieReset_keep (s : State) :
    Kept s (outState (execPcieReset s) s) := by
  simp [execPcieReset]

@[simp] theorem execFunctionLevelReset_keep (s : State) :
    Kept s (outState (execFunctionLevelReset s) s) := by
  simp [execFunctionLevelReset]

@[simp] theorem execPcieLinkChange_keep (speed : Fin 5) (width : Fin 3) (s : State) :
    Kept s (outState (execPcieLinkChange speed width s) s) := by
  simp [execPcieLinkChange]

/-! CtlMem.lean -/

@[simp] theorem holdersSet_keep (n : Nat) (t : Tbl Nat) (s : State) :
    Kept s (holdersSet n t s) := by
  simp [holdersSet]

@[simp] theorem popHolder_keep (n q : Nat) (s : State) :
    Kept s ((popHolder n q s).2) := by
  simp only [popHolder]; (repeat' split) <;> (try have hk0 := popHead_of ‹popHead _ _ = _›) <;> simp_all

theorem popHolder_of {n : Nat} {q : Nat} {s : State} {rr} (h : popHolder n q s = rr) :
    Kept s rr.2 := h ▸ popHolder_keep n q s

@[simp] theorem holderRelease_keep (n h : Nat) (s : State) :
    Kept s (holderRelease n h s) := by
  simp only [holderRelease]; (repeat' split) <;> simp

@[simp] theorem popPort_keep (n k : Nat) (s : State) :
    Kept s ((popPort n k s).2) := by
  simp only [popPort]; (repeat' split) <;> (try have hk0 := popHolder_of ‹popHolder _ _ _ = _›) <;> simp_all

theorem popPort_of {n : Nat} {k : Nat} {s : State} {rr} (h : popPort n k s = rr) :
    Kept s rr.2 := h ▸ popPort_keep n k s

@[simp] theorem coreUnwait_keep (n k : Nat) (s : State) :
    Kept s (coreUnwait n k s) := by
  simp [coreUnwait]

@[simp] theorem waitOver_keep (n k out : Nat) (s : State) :
    Kept s (waitOver n k out s) := by
  simp [waitOver]

@[simp] theorem coreLinked_keep (q : Nat) (s : State) :
    Kept s (coreLinked q s) := by
  simp only [coreLinked]; (repeat' split) <;> (try have hk0 := popHolder_of ‹popHolder _ _ _ = _›) <;> simp_all

@[simp] theorem waitBegin_keep (n k mask timeout : Nat) (s : State) :
    Kept s (waitBegin n k mask timeout s) := by
  simp only [waitBegin]; (repeat' split) <;> (try have hk0 := popHolder_of ‹popHolder _ _ _ = _›) <;> simp_all

@[simp] theorem waitExpire_keep (n k : Nat) (s : State) :
    Kept s (waitExpire n k s) := by
  simp [waitExpire]

@[simp] theorem execWaitEnd_keep (n : Fin 4) (slot : Fin 16) (s : State) :
    Kept s (outState (execWaitEnd n slot s) s) := by
  simp only [execWaitEnd]; (repeat' split) <;> (try have hk0 := popHolder_of ‹popHolder _ _ _ = _›) <;> simp_all

@[simp] theorem execPopK_keep (n : Fin 4) (k : Fin 8) (s : State) :
    Kept s (outState (execPopK n k s) s) := by
  simp [execPopK]

@[simp] theorem execRelH_keep (n : Fin 4) (h : Fin 16) (s : State) :
    Kept s (outState (execRelH n h s) s) := by
  simp [execRelH]

end Sys2Proof.Machine
end

