-- ==== Sys2Proof/Laws/KeepSwitch.lean ====
section
/-! SUPPORT. The switch core: each operation leaves
the waiting commands, the plate flash, the staging session, the life-cycle counter and the power mode as they were, but
for those that Flash.lean, LifeCycle.lean and Mode.lean take up. -/

namespace Sys2Proof.Machine

/-! Switch.lean -/

@[simp] theorem removeEntry_keep (q f : Nat) (s : State) :
    Kept s (removeEntry q f s) := by
  simp only [removeEntry]; (repeat' split) <;> simp

@[simp] theorem dropEverywhere_keep (orphan : Bool) (f : Nat) (s : State) :
    Kept s (dropEverywhere orphan f s) := by
  simp [dropEverywhere]

@[simp] theorem rxError_keep (p : Nat) (len : Bool) (s : State) :
    Kept s (rxError p len s) := by
  simp [rxError]

@[simp] theorem rxEnter_keep (p : Nat) (x : Fr) (s : State) :
    Kept s (rxEnter p x s) := by
  simp only [rxEnter]; (repeat' split) <;> simp

@[simp] theorem rxSecurity_keep (p : Nat) (body : List Byte) (bad : Bool) (s : State) :
    Kept s (rxSecurity p body bad s) := by
  simp only [rxSecurity]; (repeat' split) <;> (try have hk0 := frerIngress_of ‹frerIngress _ _ _ = _›) <;> (try have hk1 := msValidate_of ‹msValidate _ _ _ = _›) <;> simp_all

@[simp] theorem execFrameReceived_keep (port : Fin 32) (bytes : List Byte) (rx : RxEnd) (s : State) :
    Kept s (outState (execFrameReceived port bytes rx s) s) := by
  simp only [execFrameReceived]; (repeat' split) <;> simp

@[simp] theorem copyTo_keep (node : Nat) (x : Fr) (kind cls q : Nat) (s : State) :
    Kept s ((copyTo node x kind cls q s).2) := by
  simp [copyTo]

theorem copyTo_of {node : Nat} {x : Fr} {kind : Nat} {cls : Nat} {q : Nat} {s : State} {rr} (h : copyTo node x kind cls q s = rr) :
    Kept s rr.2 := h ▸ copyTo_keep node x kind cls q s

@[simp] theorem sampleFrame_keep (x : Fr) (s : State) :
    Kept s (sampleFrame x s) := by
  simp [sampleFrame]

@[simp] theorem icmpCopy_keep (node : Nat) (x : Fr) (s : State) :
    Kept s (icmpCopy node x s) := by
  simp [icmpCopy]

@[simp] theorem mirrorAdmit_keep (need cls own : Nat) (ms : List (Nat × Bool × Nat)) (s : State) :
    Kept s ((mirrorAdmit need cls own ms s).2) := by
  simp only [mirrorAdmit]; (repeat' split) <;> simp

theorem mirrorAdmit_of {need cls own : Nat} {ms : List (Nat × Bool × Nat)} {s : State} {rr} (h : mirrorAdmit need cls own ms s = rr) :
    Kept s rr.2 := h ▸ mirrorAdmit_keep need cls own ms s

@[simp] theorem admitTaken_keep (f : Nat) (k : Lk) (d : List Byte) (ds now later : List (Nat × Bool × Nat)) (tried : Bool) (s : State) :
    Kept s (admitTaken f k d ds now later tried s) := by
  simp [admitTaken]

@[simp] theorem lookedGone_keep (node f : Nat) (s : State) :
    Kept s (lookedGone node f s) := by
  simp [lookedGone]

@[simp] theorem lookedRefused_keep (qs : List Nat) (s : State) :
    Kept s (lookedRefused qs s) := by
  simp only [lookedRefused]; (repeat' split) <;> simp

@[simp] theorem admitQueues_keep (node f : Nat) (k : Lk) (qs ct : List Nat) (upset : Option TableUpset) (s : State) :
    Kept s (admitQueues node f k qs ct upset s) := by
  simp only [admitQueues]; (repeat' split) <;> simp

@[simp] theorem admitLooked_keep (node f : Nat) (k : Lk) (upset : Option TableUpset) (s : State) :
    Kept s (admitLooked node f k upset s) := by
  simp only [admitLooked]; (repeat' split) <;> simp

@[simp] theorem execLookupResult_keep (node : Fin 11) (upset : Option TableUpset) (s : State) :
    Kept s (outState (execLookupResult node upset s) s) := by
  simp only [execLookupResult]; (repeat' split) <;> simp

@[simp] theorem writeCell_keep (node f bank : Nat) (s : State) :
    Kept s (writeCell node f bank s) := by
  simp [writeCell]

@[simp] theorem writeBlocked_keep (node f : Nat) (s : State) :
    Kept s (writeBlocked node f s) := by
  simp [writeBlocked]

@[simp] theorem discardCell_keep (node f : Nat) (s : State) :
    Kept s (discardCell node f s) := by
  simp only [discardCell]; (repeat' split) <;> simp

@[simp] theorem cellWrites_keep (r : Nat) (s : State) :
    Kept s (cellWrites r s) := by
  simp only [cellWrites]; (repeat' split) <;> simp (disch := first | (simp; done) | (intros; (repeat' split) <;> (try simp); done) | fail)

@[simp] theorem egressBytes_keep (p : Nat) (x : Fr) (e : QEnt) (s : State) :
    Kept s ((egressBytes p x e s).2) := by
  simp [egressBytes]

theorem egressBytes_of {p : Nat} {x : Fr} {e : QEnt} {s : State} {rr} (h : egressBytes p x e s = rr) :
    Kept s rr.2 := h ▸ egressBytes_keep p x e s

@[simp] theorem txAdvance_keep (p : Nat) (s : State) :
    Kept s (txAdvance p s) := by
  simp only [txAdvance]; (repeat' split) <;> simp

@[simp] theorem readHead_keep (q : Nat) (s : State) :
    Kept s (readHead q s) := by
  simp only [readHead]; (repeat' split) <;> simp

@[simp] theorem startFrame_keep (p q : Nat) (e : QEnt) (s : State) :
    Kept s (startFrame p q e s) := by
  simp only [startFrame]; (repeat' split) <;> simp

@[simp] theorem readCell_keep (q : Nat) (s : State) :
    Kept s (readCell q s) := by
  simp only [readCell]; (repeat' split) <;> simp

@[simp] theorem readHeld_keep (r : ReadReq) (s : State) :
    Kept s (readHeld r s) := by
  simp only [readHeld]; (repeat' split) <;> simp

@[simp] theorem readMatch_keep (node : Nat) (m : CellReq) (s : State) :
    Kept s (readMatch node m s) := by
  simp only [readMatch]; (repeat' split) <;> simp

@[simp] theorem cellReads_keep (s : State) :
    Kept s (cellReads s) := by
  simp [cellReads]

@[simp] theorem discardHead_keep (q : Nat) (s : State) :
    Kept s (discardHead q s) := by
  simp only [discardHead]; (repeat' split) <;> (try have hk0 := popHead_of ‹popHead _ _ = _›) <;> simp_all

@[simp] theorem downDiscard_keep (p : Nat) (s : State) :
    Kept s (downDiscard p s) := by
  simp only [downDiscard]; (repeat' split) <;> simp

@[simp] theorem memReport_keep (mem idx : Nat) (s : State) :
    Kept s (memReport mem idx s) := by
  simp [memReport]

@[simp] theorem frameError_keep (orphan : Bool) (f : Nat) (s : State) :
    Kept s (frameError orphan f s) := by
  simp [frameError]

@[simp] theorem memError_keep (e : MemError) (s : State) :
    Kept s (memError e s) := by
  simp only [memError]; (repeat' split) <;> simp

@[simp] theorem cellMoves_keep (r : Nat) (s : State) :
    Kept s (cellMoves r s) := by
  simp [cellMoves]

@[simp] theorem execCellTime_keep (err : Option MemError) (s : State) :
    Kept s (outState (execCellTime err s) s) := by
  simp only [execCellTime]; (repeat' split) <;> simp

@[simp] theorem graverLinked_keep (q : Nat) (s : State) :
    Kept s (graverLinked q s) := by
  simp only [graverLinked]; (repeat' split) <;> (try have hk0 := popHead_of ‹popHead _ _ = _›) <;> simp_all

@[simp] theorem linkedInto_keep (q : Nat) (s : State) :
    Kept s (linkedInto q s) := by
  simp [linkedInto]

@[simp] theorem pduSent_keep (p : Option Nat) (s : State) :
    Kept s (pduSent p s) := by
  simp only [pduSent]; (repeat' split) <;> simp

@[simp] theorem linkAll_keep (node f : Nat) (s : State) :
    Kept s (linkAll node f s) := by
  simp [linkAll]

@[simp] theorem linkMore_keep (f q : Nat) (s : State) :
    Kept s ((linkMore f q s).2) := by
  simp only [linkMore]; (repeat' split) <;> (try have hk0 := frerGenerate_of ‹frerGenerate _ _ = _›) <;> (try have hk1 := admitAll_of ‹admitAll _ _ _ _ _ _ = _›) <;> (try have hk2 := admitLinks_of ‹admitLinks _ _ _ = _›) <;> simp_all

theorem linkMore_of {f q : Nat} {s : State} {rr} (h : linkMore f q s = rr) :
    Kept s rr.2 := h ▸ linkMore_keep f q s

@[simp] theorem execEnqueue_keep (node : Fin 11) (s : State) :
    Kept s (outState (execEnqueue node s) s) := by
  simp only [execEnqueue]; (repeat' split) <;> simp

@[simp] theorem endFrame_keep (p q : Nat) (s : State) :
    Kept s (endFrame p q s) := by
  simp only [endFrame]; (repeat' split) <;> (try have hk0 := popHead_of ‹popHead _ _ = _›) <;> simp_all

@[simp] theorem execTransmissionEnd_keep (port : Fin 32) (s : State) :
    Kept s (outState (execTransmissionEnd port s) s) := by
  simp only [execTransmissionEnd]; (repeat' split) <;> simp

@[simp] theorem execCollision_keep (sg : Fin 16) (late : Bool) (s : State) :
    Kept s (outState (execCollision sg late s) s) := by
  simp only [execCollision]; (repeat' split) <;> simp

end Sys2Proof.Machine
end

