-- ==== Sys2Proof/Laws/KeepGraver.lean ====
section
/-! SUPPORT. The gravers: each operation leaves
the waiting commands, the plate flash, the staging session, the life-cycle counter and the power mode as they were, but
for those that Flash.lean, LifeCycle.lean and Mode.lean take up. -/

namespace Sys2Proof.Machine

/-! Operands.lean -/

@[simp] theorem slotRelease_keep (y : Slot) (s : State) :
    Kept s (slotRelease y s) := by
  simp only [slotRelease]; (repeat' split) <;> simp

@[simp] theorem slotFetch_keep (e c k o n : Nat) (x : Ctx) (s : State) :
    Kept s ((slotFetch e c k o n x s).2) := by
  simp only [slotFetch]; (repeat' split) <;> simp

theorem slotFetch_of {e c k o n : Nat} {x : Ctx} {s : State} {rr} (h : slotFetch e c k o n x s = rr) :
    Kept s rr.2 := h ▸ slotFetch_keep e c k o n x s

@[simp] theorem leaveWait_keep (e c : Nat) (x : Ctx) (s : State) :
    Kept s (leaveWait e c x s) := by
  simp only [leaveWait]; (repeat' split) <;> simp

@[simp] theorem ctxFree_keep (e c : Nat) (s : State) :
    Kept s (ctxFree e c s) := by
  simp [ctxFree]

@[simp] theorem engFill_keep (e : Nat) (img : List Byte) (s : State) :
    Kept s (engFill e img s) := by
  simp [engFill]

@[simp] theorem engLoad_keep (e i : Nat) (s : State) :
    Kept s (engLoad e i s) := by
  simp only [engLoad]; (repeat' split) <;> simp

@[simp] theorem engStart_keep (e : Nat) (s : State) :
    Kept s (engStart e s) := by
  simp [engStart]

@[simp] theorem engSettle_keep (e : Nat) (s : State) :
    Kept s (engSettle e s) := by
  simp only [engSettle]; (repeat' split) <;> simp

@[simp] theorem engFence_keep (e : Nat) (s : State) :
    Kept s (engFence e s) := by
  simp [engFence]

@[simp] theorem gvFault_keep (e c code pc : Nat) (s : State) :
    Kept s (gvFault e c code pc s) := by
  simp [gvFault]

@[simp] theorem gvIssue_pending (e c : Nat) (f : Ctx → State → Except Nat Ctx × State) (s : State) (h : ∀ x t, (f x t).2.pending = t.pending) : (gvIssue e c f s).pending = s.pending := by
  simp only [gvIssue]; (repeat' split) <;> (try have hk := congrArg (fun r => r.2) ‹f (gvIssued (ctx e c s)) s = _›) <;> (try have hh := h (gvIssued (ctx e c s)) s) <;> simp_all
@[simp] theorem gvIssue_sys_flash (e c : Nat) (f : Ctx → State → Except Nat Ctx × State) (s : State) (h : ∀ x t, (f x t).2.sys.flash = t.sys.flash) : (gvIssue e c f s).sys.flash = s.sys.flash := by
  simp only [gvIssue]; (repeat' split) <;> (try have hk := congrArg (fun r => r.2) ‹f (gvIssued (ctx e c s)) s = _›) <;> (try have hh := h (gvIssued (ctx e c s)) s) <;> simp_all
@[simp] theorem gvIssue_sys_session (e c : Nat) (f : Ctx → State → Except Nat Ctx × State) (s : State) (h : ∀ x t, (f x t).2.sys.session = t.sys.session) : (gvIssue e c f s).sys.session = s.sys.session := by
  simp only [gvIssue]; (repeat' split) <;> (try have hk := congrArg (fun r => r.2) ‹f (gvIssued (ctx e c s)) s = _›) <;> (try have hh := h (gvIssued (ctx e c s)) s) <;> simp_all
@[simp] theorem gvIssue_key_lcCount (e c : Nat) (f : Ctx → State → Except Nat Ctx × State) (s : State) (h : ∀ x t, (f x t).2.key.lcCount = t.key.lcCount) : (gvIssue e c f s).key.lcCount = s.key.lcCount := by
  simp only [gvIssue]; (repeat' split) <;> (try have hk := congrArg (fun r => r.2) ‹f (gvIssued (ctx e c s)) s = _›) <;> (try have hh := h (gvIssued (ctx e c s)) s) <;> simp_all
@[simp] theorem gvIssue_pwr_mode (e c : Nat) (f : Ctx → State → Except Nat Ctx × State) (s : State) (h : ∀ x t, (f x t).2.pwr.mode = t.pwr.mode) : (gvIssue e c f s).pwr.mode = s.pwr.mode := by
  simp only [gvIssue]; (repeat' split) <;> (try have hk := congrArg (fun r => r.2) ‹f (gvIssued (ctx e c s)) s = _›) <;> (try have hh := h (gvIssued (ctx e c s)) s) <;> simp_all
@[simp] theorem gvIssue_time_loc (e c : Nat) (f : Ctx → State → Except Nat Ctx × State) (s : State) (h : ∀ x t, (f x t).2.time.loc = t.time.loc) : (gvIssue e c f s).time.loc = s.time.loc := by
  simp only [gvIssue]; (repeat' split) <;> (try have hk := congrArg (fun r => r.2) ‹f (gvIssued (ctx e c s)) s = _›) <;> (try have hh := h (gvIssued (ctx e c s)) s) <;> simp_all
@[simp] theorem gvIssue_cfg (e c : Nat) (f : Ctx → State → Except Nat Ctx × State) (s : State) (h : ∀ x t, (f x t).2.cfg = t.cfg) : (gvIssue e c f s).cfg = s.cfg := by
  simp only [gvIssue]; (repeat' split) <;> (try have hk := congrArg (fun r => r.2) ‹f (gvIssued (ctx e c s)) s = _›) <;> (try have hh := h (gvIssued (ctx e c s)) s) <;> simp_all
@[simp] theorem gvLocal_keep (e c : Nat) (f : Ctx → Except Nat Ctx) (s : State) :
    Kept s (gvLocal e c f s) := by
  simp [gvLocal]

@[simp] theorem gvNeed_pending (b : Bool) (k : Nat) (r : Except Nat Ctx × State) (s : State) (h : r.2.pending = s.pending) : (gvNeed b k r s).2.pending = s.pending := by
  simp only [gvNeed]; (repeat' split) <;> simp [h]
@[simp] theorem gvNeed_sys_flash (b : Bool) (k : Nat) (r : Except Nat Ctx × State) (s : State) (h : r.2.sys.flash = s.sys.flash) : (gvNeed b k r s).2.sys.flash = s.sys.flash := by
  simp only [gvNeed]; (repeat' split) <;> simp [h]
@[simp] theorem gvNeed_sys_session (b : Bool) (k : Nat) (r : Except Nat Ctx × State) (s : State) (h : r.2.sys.session = s.sys.session) : (gvNeed b k r s).2.sys.session = s.sys.session := by
  simp only [gvNeed]; (repeat' split) <;> simp [h]
@[simp] theorem gvNeed_key_lcCount (b : Bool) (k : Nat) (r : Except Nat Ctx × State) (s : State) (h : r.2.key.lcCount = s.key.lcCount) : (gvNeed b k r s).2.key.lcCount = s.key.lcCount := by
  simp only [gvNeed]; (repeat' split) <;> simp [h]
@[simp] theorem gvNeed_pwr_mode (b : Bool) (k : Nat) (r : Except Nat Ctx × State) (s : State) (h : r.2.pwr.mode = s.pwr.mode) : (gvNeed b k r s).2.pwr.mode = s.pwr.mode := by
  simp only [gvNeed]; (repeat' split) <;> simp [h]
@[simp] theorem gvNeed_time_loc (b : Bool) (k : Nat) (r : Except Nat Ctx × State) (s : State) (h : r.2.time.loc = s.time.loc) : (gvNeed b k r s).2.time.loc = s.time.loc := by
  simp only [gvNeed]; (repeat' split) <;> simp [h]
@[simp] theorem gvNeed_cfg (b : Bool) (k : Nat) (r : Except Nat Ctx × State) (s : State) (h : r.2.cfg = s.cfg) : (gvNeed b k r s).2.cfg = s.cfg := by
  simp only [gvNeed]; (repeat' split) <;> simp [h]
@[simp] theorem gvJump_keep (e t : Nat) (x : Ctx) (s : State) :
    Kept s ((gvJump e t x s).2) := by
  simp [gvJump]

theorem gvJump_of {e : Nat} {t : Nat} {x : Ctx} {s : State} {rr} (h : gvJump e t x s = rr) :
    Kept s rr.2 := h ▸ gvJump_keep e t x s

/-! Graver.lean -/

@[simp] theorem gvG_pending (m e c : Nat) (w : BitVec 26) (f : Ctx → State → Except Nat Ctx × State) (s : State) (h : ∀ x t, (f x t).2.pending = t.pending) : (gvG m e c w f s).pending = s.pending := by
  simp only [gvG]; (repeat' split) <;> simp [h]
@[simp] theorem gvG_sys_flash (m e c : Nat) (w : BitVec 26) (f : Ctx → State → Except Nat Ctx × State) (s : State) (h : ∀ x t, (f x t).2.sys.flash = t.sys.flash) : (gvG m e c w f s).sys.flash = s.sys.flash := by
  simp only [gvG]; (repeat' split) <;> simp [h]
@[simp] theorem gvG_sys_session (m e c : Nat) (w : BitVec 26) (f : Ctx → State → Except Nat Ctx × State) (s : State) (h : ∀ x t, (f x t).2.sys.session = t.sys.session) : (gvG m e c w f s).sys.session = s.sys.session := by
  simp only [gvG]; (repeat' split) <;> simp [h]
@[simp] theorem gvG_key_lcCount (m e c : Nat) (w : BitVec 26) (f : Ctx → State → Except Nat Ctx × State) (s : State) (h : ∀ x t, (f x t).2.key.lcCount = t.key.lcCount) : (gvG m e c w f s).key.lcCount = s.key.lcCount := by
  simp only [gvG]; (repeat' split) <;> simp [h]
@[simp] theorem gvG_pwr_mode (m e c : Nat) (w : BitVec 26) (f : Ctx → State → Except Nat Ctx × State) (s : State) (h : ∀ x t, (f x t).2.pwr.mode = t.pwr.mode) : (gvG m e c w f s).pwr.mode = s.pwr.mode := by
  simp only [gvG]; (repeat' split) <;> simp [h]
@[simp] theorem gvG_time_loc (m e c : Nat) (w : BitVec 26) (f : Ctx → State → Except Nat Ctx × State) (s : State) (h : ∀ x t, (f x t).2.time.loc = t.time.loc) : (gvG m e c w f s).time.loc = s.time.loc := by
  simp only [gvG]; (repeat' split) <;> simp [h]
@[simp] theorem gvG_cfg (m e c : Nat) (w : BitVec 26) (f : Ctx → State → Except Nat Ctx × State) (s : State) (h : ∀ x t, (f x t).2.cfg = t.cfg) : (gvG m e c w f s).cfg = s.cfg := by
  simp only [gvG]; (repeat' split) <;> simp [h]
@[simp] theorem gvN_pending (e c : Nat) (w : BitVec 26) (f : Ctx → State → Except Nat Ctx × State) (s : State) (h : ∀ x t, (f x t).2.pending = t.pending) : (gvN e c w f s).pending = s.pending := by
  simp only [gvN]; (repeat' split) <;> simp [h]
@[simp] theorem gvN_sys_flash (e c : Nat) (w : BitVec 26) (f : Ctx → State → Except Nat Ctx × State) (s : State) (h : ∀ x t, (f x t).2.sys.flash = t.sys.flash) : (gvN e c w f s).sys.flash = s.sys.flash := by
  simp only [gvN]; (repeat' split) <;> simp [h]
@[simp] theorem gvN_sys_session (e c : Nat) (w : BitVec 26) (f : Ctx → State → Except Nat Ctx × State) (s : State) (h : ∀ x t, (f x t).2.sys.session = t.sys.session) : (gvN e c w f s).sys.session = s.sys.session := by
  simp only [gvN]; (repeat' split) <;> simp [h]
@[simp] theorem gvN_key_lcCount (e c : Nat) (w : BitVec 26) (f : Ctx → State → Except Nat Ctx × State) (s : State) (h : ∀ x t, (f x t).2.key.lcCount = t.key.lcCount) : (gvN e c w f s).key.lcCount = s.key.lcCount := by
  simp only [gvN]; (repeat' split) <;> simp [h]
@[simp] theorem gvN_pwr_mode (e c : Nat) (w : BitVec 26) (f : Ctx → State → Except Nat Ctx × State) (s : State) (h : ∀ x t, (f x t).2.pwr.mode = t.pwr.mode) : (gvN e c w f s).pwr.mode = s.pwr.mode := by
  simp only [gvN]; (repeat' split) <;> simp [h]
@[simp] theorem gvN_time_loc (e c : Nat) (w : BitVec 26) (f : Ctx → State → Except Nat Ctx × State) (s : State) (h : ∀ x t, (f x t).2.time.loc = t.time.loc) : (gvN e c w f s).time.loc = s.time.loc := by
  simp only [gvN]; (repeat' split) <;> simp [h]
@[simp] theorem gvN_cfg (e c : Nat) (w : BitVec 26) (f : Ctx → State → Except Nat Ctx × State) (s : State) (h : ∀ x t, (f x t).2.cfg = t.cfg) : (gvN e c w f s).cfg = s.cfg := by
  simp only [gvN]; (repeat' split) <;> simp [h]
@[simp] theorem gvJ_pending (e c : Nat) (w : BitVec 26) (f : Ctx → State → Except Nat Ctx × State) (s : State) (h : ∀ x t, (f x t).2.pending = t.pending) : (gvJ e c w f s).pending = s.pending := by
  simp only [gvJ]; (repeat' split) <;> simp [h]
@[simp] theorem gvJ_sys_flash (e c : Nat) (w : BitVec 26) (f : Ctx → State → Except Nat Ctx × State) (s : State) (h : ∀ x t, (f x t).2.sys.flash = t.sys.flash) : (gvJ e c w f s).sys.flash = s.sys.flash := by
  simp only [gvJ]; (repeat' split) <;> simp [h]
@[simp] theorem gvJ_sys_session (e c : Nat) (w : BitVec 26) (f : Ctx → State → Except Nat Ctx × State) (s : State) (h : ∀ x t, (f x t).2.sys.session = t.sys.session) : (gvJ e c w f s).sys.session = s.sys.session := by
  simp only [gvJ]; (repeat' split) <;> simp [h]
@[simp] theorem gvJ_key_lcCount (e c : Nat) (w : BitVec 26) (f : Ctx → State → Except Nat Ctx × State) (s : State) (h : ∀ x t, (f x t).2.key.lcCount = t.key.lcCount) : (gvJ e c w f s).key.lcCount = s.key.lcCount := by
  simp only [gvJ]; (repeat' split) <;> simp [h]
@[simp] theorem gvJ_pwr_mode (e c : Nat) (w : BitVec 26) (f : Ctx → State → Except Nat Ctx × State) (s : State) (h : ∀ x t, (f x t).2.pwr.mode = t.pwr.mode) : (gvJ e c w f s).pwr.mode = s.pwr.mode := by
  simp only [gvJ]; (repeat' split) <;> simp [h]
@[simp] theorem gvJ_time_loc (e c : Nat) (w : BitVec 26) (f : Ctx → State → Except Nat Ctx × State) (s : State) (h : ∀ x t, (f x t).2.time.loc = t.time.loc) : (gvJ e c w f s).time.loc = s.time.loc := by
  simp only [gvJ]; (repeat' split) <;> simp [h]
@[simp] theorem gvJ_cfg (e c : Nat) (w : BitVec 26) (f : Ctx → State → Except Nat Ctx × State) (s : State) (h : ∀ x t, (f x t).2.cfg = t.cfg) : (gvJ e c w f s).cfg = s.cfg := by
  simp only [gvJ]; (repeat' split) <;> simp [h]
@[simp] theorem gvAlu_keep (e c : Nat) (w : BitVec 26) (f : Nat → Nat → Nat) (s : State) :
    Kept s (gvAlu e c w f s) := by
  simp [gvAlu]

@[simp] theorem gvImm_keep (e c : Nat) (w : BitVec 26) (f : Nat → Nat) (s : State) :
    Kept s (gvImm e c w f s) := by
  simp [gvImm]

@[simp] theorem gvBranch_keep (e c : Nat) (w : BitVec 26) (p : Nat → Nat → Bool) (s : State) :
    Kept s (gvBranch e c w p s) := by
  simp [gvBranch]

@[simp] theorem execNop_keep (e : Fin 16) (c : Fin 8) (w : BitVec 26) (s : State) :
    Kept s (outState (execNop e c w s) s) := by
  simp [execNop]

@[simp] theorem execAdd_keep (e : Fin 16) (c : Fin 8) (w : BitVec 26) (s : State) :
    Kept s (outState (execAdd e c w s) s) := by
  simp [execAdd]

@[simp] theorem execSub_keep (e : Fin 16) (c : Fin 8) (w : BitVec 26) (s : State) :
    Kept s (outState (execSub e c w s) s) := by
  simp [execSub]

@[simp] theorem execAnd_keep (e : Fin 16) (c : Fin 8) (w : BitVec 26) (s : State) :
    Kept s (outState (execAnd e c w s) s) := by
  simp [execAnd]

@[simp] theorem execOr_keep (e : Fin 16) (c : Fin 8) (w : BitVec 26) (s : State) :
    Kept s (outState (execOr e c w s) s) := by
  simp [execOr]

@[simp] theorem execXor_keep (e : Fin 16) (c : Fin 8) (w : BitVec 26) (s : State) :
    Kept s (outState (execXor e c w s) s) := by
  simp [execXor]

@[simp] theorem execShl_keep (e : Fin 16) (c : Fin 8) (w : BitVec 26) (s : State) :
    Kept s (outState (execShl e c w s) s) := by
  simp [execShl]

@[simp] theorem execShr_keep (e : Fin 16) (c : Fin 8) (w : BitVec 26) (s : State) :
    Kept s (outState (execShr e c w s) s) := by
  simp [execShr]

@[simp] theorem execSar_keep (e : Fin 16) (c : Fin 8) (w : BitVec 26) (s : State) :
    Kept s (outState (execSar e c w s) s) := by
  simp [execSar]

@[simp] theorem execMul_keep (e : Fin 16) (c : Fin 8) (w : BitVec 26) (s : State) :
    Kept s (outState (execMul e c w s) s) := by
  simp [execMul]

@[simp] theorem execSlt_keep (e : Fin 16) (c : Fin 8) (w : BitVec 26) (s : State) :
    Kept s (outState (execSlt e c w s) s) := by
  simp [execSlt]

@[simp] theorem execSltu_keep (e : Fin 16) (c : Fin 8) (w : BitVec 26) (s : State) :
    Kept s (outState (execSltu e c w s) s) := by
  simp [execSltu]

@[simp] theorem execAddi_keep (e : Fin 16) (c : Fin 8) (w : BitVec 26) (s : State) :
    Kept s (outState (execAddi e c w s) s) := by
  simp [execAddi]

@[simp] theorem execAndi_keep (e : Fin 16) (c : Fin 8) (w : BitVec 26) (s : State) :
    Kept s (outState (execAndi e c w s) s) := by
  simp [execAndi]

@[simp] theorem execOri_keep (e : Fin 16) (c : Fin 8) (w : BitVec 26) (s : State) :
    Kept s (outState (execOri e c w s) s) := by
  simp [execOri]

@[simp] theorem execXori_keep (e : Fin 16) (c : Fin 8) (w : BitVec 26) (s : State) :
    Kept s (outState (execXori e c w s) s) := by
  simp [execXori]

@[simp] theorem execShli_keep (e : Fin 16) (c : Fin 8) (w : BitVec 26) (s : State) :
    Kept s (outState (execShli e c w s) s) := by
  simp [execShli]

@[simp] theorem execShri_keep (e : Fin 16) (c : Fin 8) (w : BitVec 26) (s : State) :
    Kept s (outState (execShri e c w s) s) := by
  simp [execShri]

@[simp] theorem execSari_keep (e : Fin 16) (c : Fin 8) (w : BitVec 26) (s : State) :
    Kept s (outState (execSari e c w s) s) := by
  simp [execSari]

@[simp] theorem execLsh_keep (e : Fin 16) (c : Fin 8) (w : BitVec 26) (s : State) :
    Kept s (outState (execLsh e c w s) s) := by
  simp [execLsh]

@[simp] theorem execBfx_keep (e : Fin 16) (c : Fin 8) (w : BitVec 26) (s : State) :
    Kept s (outState (execBfx e c w s) s) := by
  simp [execBfx]

@[simp] theorem execBfi_keep (e : Fin 16) (c : Fin 8) (w : BitVec 26) (s : State) :
    Kept s (outState (execBfi e c w s) s) := by
  simp [execBfi]

@[simp] theorem execBsw_keep (e : Fin 16) (c : Fin 8) (w : BitVec 26) (s : State) :
    Kept s (outState (execBsw e c w s) s) := by
  simp [execBsw]

@[simp] theorem execBeq_keep (e : Fin 16) (c : Fin 8) (w : BitVec 26) (s : State) :
    Kept s (outState (execBeq e c w s) s) := by
  simp [execBeq]

@[simp] theorem execBne_keep (e : Fin 16) (c : Fin 8) (w : BitVec 26) (s : State) :
    Kept s (outState (execBne e c w s) s) := by
  simp [execBne]

@[simp] theorem execBlt_keep (e : Fin 16) (c : Fin 8) (w : BitVec 26) (s : State) :
    Kept s (outState (execBlt e c w s) s) := by
  simp [execBlt]

@[simp] theorem execBge_keep (e : Fin 16) (c : Fin 8) (w : BitVec 26) (s : State) :
    Kept s (outState (execBge e c w s) s) := by
  simp [execBge]

@[simp] theorem execBltu_keep (e : Fin 16) (c : Fin 8) (w : BitVec 26) (s : State) :
    Kept s (outState (execBltu e c w s) s) := by
  simp [execBltu]

@[simp] theorem execBgeu_keep (e : Fin 16) (c : Fin 8) (w : BitVec 26) (s : State) :
    Kept s (outState (execBgeu e c w s) s) := by
  simp [execBgeu]

@[simp] theorem execJmp_keep (e : Fin 16) (c : Fin 8) (w : BitVec 26) (s : State) :
    Kept s (outState (execJmp e c w s) s) := by
  simp [execJmp]

@[simp] theorem execCall_keep (e : Fin 16) (c : Fin 8) (w : BitVec 26) (s : State) :
    Kept s (outState (execCall e c w s) s) := by
  simp [execCall]

@[simp] theorem execJr_keep (e : Fin 16) (c : Fin 8) (w : BitVec 26) (s : State) :
    Kept s (outState (execJr e c w s) s) := by
  simp [execJr]

@[simp] theorem dmemPut_keep (e a : Nat) (b : List Byte) (s : State) :
    Kept s (dmemPut e a b s) := by
  simp [dmemPut]

@[simp] theorem execLd_keep (e : Fin 16) (c : Fin 8) (w : BitVec 26) (s : State) :
    Kept s (outState (execLd e c w s) s) := by
  simp [execLd]

@[simp] theorem execSt_keep (e : Fin 16) (c : Fin 8) (w : BitVec 26) (s : State) :
    Kept s (outState (execSt e c w s) s) := by
  simp only [execSt]; (repeat' split) <;> simp (disch := first | (simp; done) | (intros; (repeat' split) <;> (try simp); done) | fail)

@[simp] theorem execFld_keep (e : Fin 16) (c : Fin 8) (w : BitVec 26) (s : State) :
    Kept s (outState (execFld e c w s) s) := by
  simp only [execFld]; (repeat' split) <;> simp (disch := first | (simp; done) | (intros; (repeat' split) <;> (try simp); done) | fail)

@[simp] theorem execFst_keep (e : Fin 16) (c : Fin 8) (w : BitVec 26) (s : State) :
    Kept s (outState (execFst e c w s) s) := by
  simp only [execFst]; (repeat' split) <;> simp (disch := first | (simp; done) | (intros; (repeat' split) <;> (try simp); done) | fail)

@[simp] theorem execTime_keep (e : Fin 16) (c : Fin 8) (w : BitVec 26) (s : State) :
    Kept s (outState (execTime e c w s) s) := by
  simp only [execTime]; (repeat' split) <;> simp

@[simp] theorem timerRaise_keep (e t : Nat) (s : State) :
    Kept s (timerRaise e t s) := by
  simp only [timerRaise]; (repeat' split) <;> simp

@[simp] theorem execTarm_keep (e : Fin 16) (c : Fin 8) (w : BitVec 26) (s : State) :
    Kept s (outState (execTarm e c w s) s) := by
  simp [execTarm]

@[simp] theorem msgPut_keep (t sender arg : Nat) (s : State) :
    Kept s ((msgPut t sender arg s).2) := by
  simp [msgPut]

theorem msgPut_of {t : Nat} {sender : Nat} {arg : Nat} {s : State} {rr} (h : msgPut t sender arg s = rr) :
    Kept s rr.2 := h ▸ msgPut_keep t sender arg s

@[simp] theorem execRaise_keep (e : Fin 16) (c : Fin 8) (w : BitVec 26) (s : State) :
    Kept s (outState (execRaise e c w s) s) := by
  simp [execRaise]

@[simp] theorem execCnt_keep (e : Fin 16) (c : Fin 8) (w : BitVec 26) (s : State) :
    Kept s (outState (execCnt e c w s) s) := by
  simp [execCnt]

@[simp] theorem execHook_keep (e : Fin 16) (c : Fin 8) (w : BitVec 26) (s : State) :
    Kept s (outState (execHook e c w s) s) := by
  simp [execHook]

@[simp] theorem execHret_keep (e : Fin 16) (c : Fin 8) (w : BitVec 26) (s : State) :
    Kept s (outState (execHret e c w s) s) := by
  simp only [execHret]; (repeat' split) <;> simp (disch := first | (simp; done) | (intros; (repeat' split) <;> (try simp); done) | fail)

@[simp] theorem execEnd_keep (e : Fin 16) (c : Fin 8) (w : BitVec 26) (s : State) :
    Kept s (outState (execEnd e c w s) s) := by
  simp [execEnd]

/-! GraverSig.lean -/

@[simp] theorem execTld_keep (e : Fin 16) (c : Fin 8) (w : BitVec 26) (s : State) :
    Kept s (outState (execTld e c w s) s) := by
  simp only [execTld]; (repeat' split) <;> simp (disch := first | (simp; done) | (intros; (repeat' split) <;> (try simp); done) | fail)

@[simp] theorem execSget_keep (e : Fin 16) (c : Fin 8) (w : BitVec 26) (s : State) :
    Kept s (outState (execSget e c w s) s) := by
  simp [execSget]

@[simp] theorem gvStage_keep (l : List Staged) (x : Ctx) (s : State) :
    Kept s ((gvStage l x s).2) := by
  simp [gvStage]

theorem gvStage_of {l : List Staged} {x : Ctx} {s : State} {rr} (h : gvStage l x s = rr) :
    Kept s rr.2 := h ▸ gvStage_keep l x s

@[simp] theorem execSput_keep (e : Fin 16) (c : Fin 8) (w : BitVec 26) (s : State) :
    Kept s (outState (execSput e c w s) s) := by
  simp [execSput]

@[simp] theorem execCommit_keep (e : Fin 16) (c : Fin 8) (w : BitVec 26) (s : State) :
    Kept s (outState (execCommit e c w s) s) := by
  simp [execCommit]

@[simp] theorem execUnpack_keep (e : Fin 16) (c : Fin 8) (w : BitVec 26) (s : State) :
    Kept s (outState (execUnpack e c w s) s) := by
  simp only [execUnpack]; (repeat' split) <;> simp (disch := first | (simp; done) | (intros; (repeat' split) <;> (try simp); done) | fail)

@[simp] theorem execPack_keep (e : Fin 16) (c : Fin 8) (w : BitVec 26) (s : State) :
    Kept s (outState (execPack e c w s) s) := by
  simp only [execPack]; (repeat' split) <;> (try have hk0 := pduPack_of ‹pduPack _ _ = _›) <;> simp (disch := first | (simp; done) | (intros; (repeat' split) <;> (try have hk0 := pduPack_of ‹pduPack _ _ = _›) <;> (try simp_all); done) | fail)

@[simp] theorem gvCipher_keep (e c : Nat) (r : CipReq) (x : Ctx) (s : State) :
    Kept s ((gvCipher e c r x s).2) := by
  simp [gvCipher]

theorem gvCipher_of {e : Nat} {c : Nat} {r : CipReq} {x : Ctx} {s : State} {rr} (h : gvCipher e c r x s = rr) :
    Kept s rr.2 := h ▸ gvCipher_keep e c r x s

@[simp] theorem authFail_keep (p : Nat) (s : State) :
    Kept s (authFail p s) := by
  simp [authFail]

@[simp] theorem secvTry_keep (e c p o : Nat) (cands : List Nat) (x : Ctx) (s : State) :
    Kept s ((secvTry e c p o cands x s).2) := by
  simp only [secvTry]; (repeat' split) <;> simp

theorem secvTry_of {e : Nat} {c : Nat} {p : Nat} {o : Nat} {cands : List Nat} {x : Ctx} {s : State} {rr} (h : secvTry e c p o cands x s = rr) :
    Kept s rr.2 := h ▸ secvTry_keep e c p o cands x s

@[simp] theorem execSecv_keep (e : Fin 16) (c : Fin 8) (w : BitVec 26) (s : State) :
    Kept s (outState (execSecv e c w s) s) := by
  simp only [execSecv]; (repeat' split) <;> simp (disch := first | (simp; done) | (intros; (repeat' split) <;> (try simp); done) | fail)

@[simp] theorem execSecg_keep (e : Fin 16) (c : Fin 8) (w : BitVec 26) (s : State) :
    Kept s (outState (execSecg e c w s) s) := by
  simp [execSecg]

@[simp] theorem secNoKey_keep (x : Ctx) (s : State) :
    Kept s ((secNoKey x s).2) := by
  simp [secNoKey]

theorem secNoKey_of {x : Ctx} {s : State} {rr} (h : secNoKey x s = rr) :
    Kept s rr.2 := h ▸ secNoKey_keep x s

@[simp] theorem secvEnd_keep (e c : Nat) (r : CipRes) (x : Ctx) (s : State) :
    Kept s ((secvEnd e c r x s).2) := by
  simp [secvEnd]

theorem secvEnd_of {e : Nat} {c : Nat} {r : CipRes} {x : Ctx} {s : State} {rr} (h : secvEnd e c r x s = rr) :
    Kept s rr.2 := h ▸ secvEnd_keep e c r x s

@[simp] theorem secgEnd_keep (r : CipRes) (x : Ctx) (s : State) :
    Kept s ((secgEnd r x s).2) := by
  simp [secgEnd]

theorem secgEnd_of {r : CipRes} {x : Ctx} {s : State} {rr} (h : secgEnd r x s = rr) :
    Kept s rr.2 := h ▸ secgEnd_keep r x s

@[simp] theorem execCiph_keep (e : Fin 16) (c : Fin 8) (w : BitVec 26) (s : State) :
    Kept s (outState (execCiph e c w s) s) := by
  simp [execCiph]

@[simp] theorem execPop_keep (e : Fin 16) (c : Fin 8) (w : BitVec 26) (s : State) :
    Kept s (outState (execPop e c w s) s) := by
  simp only [execPop]; (repeat' split) <;> (try have hk0 := popHead_of ‹popHead _ _ = _›) <;> simp (disch := first | (simp; done) | (intros; (repeat' split) <;> (try have hk0 := popHead_of ‹popHead _ _ = _›) <;> (try simp_all); done) | fail)

@[simp] theorem pushPin_keep (f : Nat) (x : Fr) (s : State) :
    Kept s (pushPin f x s) := by
  simp only [pushPin]; (repeat' split) <;> simp

@[simp] theorem pushLocal_keep (e c q k : Nat) (keep : Bool) (d : Nat) (f : Fr) (len : Nat) (x : Ctx) (s : State) :
    Kept s ((pushLocal e c q k keep d f len x s).2) := by
  simp only [pushLocal]; (repeat' split) <;> (try have hk0 := submitAs_of ‹submitAs _ _ _ _ = _›) <;> (try have hk1 := submit_of ‹submit _ _ _ = _›) <;> simp_all

theorem pushLocal_of {e c q k : Nat} {keep : Bool} {d : Nat} {f : Fr} {len : Nat} {x : Ctx} {s : State} {rr} (h : pushLocal e c q k keep d f len x s = rr) :
    Kept s rr.2 := h ▸ pushLocal_keep e c q k keep d f len x s

@[simp] theorem pushBuffered_keep (q k : Nat) (keep : Bool) (d f : Nat) (x : Ctx) (s : State) :
    Kept s ((pushBuffered q k keep d f x s).2) := by
  simp only [pushBuffered]; (repeat' split) <;> (try have hk0 := linkMore_of ‹linkMore _ _ _ = _›) <;> simp_all

theorem pushBuffered_of {q : Nat} {k : Nat} {keep : Bool} {d : Nat} {f : Nat} {x : Ctx} {s : State} {rr} (h : pushBuffered q k keep d f x s = rr) :
    Kept s rr.2 := h ▸ pushBuffered_keep q k keep d f x s

@[simp] theorem execPush_keep (e : Fin 16) (c : Fin 8) (w : BitVec 26) (s : State) :
    Kept s (outState (execPush e c w s) s) := by
  simp only [execPush]; (repeat' split) <;> simp (disch := first | (simp; done) | (intros; (repeat' split) <;> (try simp); done) | fail)

@[simp] theorem execFnew_keep (e : Fin 16) (c : Fin 8) (w : BitVec 26) (s : State) :
    Kept s (outState (execFnew e c w s) s) := by
  simp [execFnew]

@[simp] theorem execFrel_keep (e : Fin 16) (c : Fin 8) (w : BitVec 26) (s : State) :
    Kept s (outState (execFrel e c w s) s) := by
  simp [execFrel]

@[simp] theorem execFget_keep (e : Fin 16) (c : Fin 8) (w : BitVec 26) (s : State) :
    Kept s (outState (execFget e c w s) s) := by
  simp only [execFget]; (repeat' split) <;> simp (disch := first | (simp; done) | (intros; (repeat' split) <;> (try simp); done) | fail)

@[simp] theorem execFput_keep (e : Fin 16) (c : Fin 8) (w : BitVec 26) (s : State) :
    Kept s (outState (execFput e c w s) s) := by
  simp only [execFput]; (repeat' split) <;> simp (disch := first | (simp; done) | (intros; (repeat' split) <;> (try simp); done) | fail)

@[simp] theorem execAcfadd_keep (e : Fin 16) (c : Fin 8) (w : BitVec 26) (s : State) :
    Kept s (outState (execAcfadd e c w s) s) := by
  simp only [execAcfadd]; (repeat' split) <;> simp (disch := first | (simp; done) | (intros; (repeat' split) <;> (try simp); done) | fail)

@[simp] theorem snapLocal_keep (set : Nat) (b : List Byte) (s : State) :
    Kept s (snapLocal set b s) := by
  simp only [snapLocal]; (repeat' split) <;> (try have hk0 := submit_of ‹submit _ _ _ = _›) <;> simp_all

@[simp] theorem snapSend_keep (set : Nat) (s : State) :
    Kept s (snapSend set s) := by
  simp only [snapSend]; (repeat' split) <;> simp

@[simp] theorem execLatch_keep (e : Fin 16) (c : Fin 8) (w : BitVec 26) (s : State) :
    Kept s (outState (execLatch e c w s) s) := by
  simp [execLatch]

@[simp] theorem rxRoutes_keep (ch : Nat) (data : List Byte) (s : State) :
    Kept s (rxRoutes ch data s) := by
  simp only [rxRoutes]; split <;> simp

/-! GraverEvent.lean -/

@[simp] theorem grvShow_keep (s : State) :
    Kept s (grvShow s) := by
  simp [grvShow]

@[simp] theorem takeEvent_keep (e : Nat) (v : Ev) (s : State) :
    Kept s ((takeEvent e v s).2) := by
  simp [takeEvent]

theorem takeEvent_of {e : Nat} {v : Ev} {s : State} {rr} (h : takeEvent e v s = rr) :
    Kept s rr.2 := h ▸ takeEvent_keep e v s

@[simp] theorem freshes_keep (n : Nat) (s : State) : Kept s ((freshes n s).2) := by
  induction n generalizing s with
  | zero => simp [freshes]
  | succ n ih => simp only [freshes]; simp [ih]

@[simp] theorem dispatchTo_keep (e c : Nat) (v : Ev) (s : State) :
    Kept s (dispatchTo e c v s) := by
  simp only [dispatchTo]; (repeat' split) <;> simp

@[simp] theorem engUpset_keep (e : Nat) (u : GvUpset) (s : State) :
    Kept s (engUpset e u s) := by
  simp only [engUpset]; (repeat' split) <;> simp

@[simp] theorem execDispatch_keep (x : GvDispatch) (s : State) :
    Kept s (outState (execDispatch x s) s) := by
  simp only [execDispatch]; (repeat' split) <;> simp

@[simp] theorem cipherOut_keep (e c : Nat) (r : CipRes) (x : Ctx) (s : State) :
    Kept s ((cipherOut e c r x s).2) := by
  simp only [cipherOut]; (repeat' split) <;> simp

theorem cipherOut_of {e : Nat} {c : Nat} {r : CipRes} {x : Ctx} {s : State} {rr} (h : cipherOut e c r x s = rr) :
    Kept s rr.2 := h ▸ cipherOut_keep e c r x s

@[simp] theorem cipherEnd_keep (e c id : Nat) (x : Ctx) (s : State) :
    Kept s (cipherEnd e c id x s) := by
  simp only [cipherEnd]; (repeat' split) <;> (try have hk0 := cipherOut_of ‹cipherOut _ _ _ _ _ = _›) <;> simp_all

@[simp] theorem execStallEnd_keep (e : Fin 16) (c : Fin 8) (s : State) :
    Kept s (outState (execStallEnd e c s) s) := by
  simp only [execStallEnd]; (repeat' split) <;> simp

@[simp] theorem execEngineTimer_keep (e : Fin 16) (t : Fin 16) (s : State) :
    Kept s (outState (execEngineTimer e t s) s) := by
  simp only [execEngineTimer]; (repeat' split) <;> simp

/-! Jobs.lean -/

@[simp] theorem jobEnd_keep (j n k : Nat) (b : List Byte) (x : CipRes) (s : State) :
    Kept s (jobEnd j n k b x s) := by
  simp [jobEnd]

@[simp] theorem jobCheck_keep (j n k : Nat) (b : List Byte) (x : CipRes) (c : LaneCheck) (s : State) :
    Kept s (jobCheck j n k b x c s) := by
  simp only [jobCheck]; (repeat' split) <;> simp

@[simp] theorem jobRun_keep (j k : Nat) (c : LaneCheck) (s : State) :
    Kept s (jobRun j k c s) := by
  simp only [jobRun]; (repeat' split) <;> simp

@[simp] theorem jobStranded_keep (k : Nat) (s : State) :
    Kept s (jobStranded k s) := by
  simp only [jobStranded]; (repeat' split) <;> simp

@[simp] theorem execFrameJob_keep (pair : Fin 4) (c : LaneCheck) (s : State) :
    Kept s (outState (execFrameJob pair c s) s) := by
  simp only [execFrameJob]; (repeat' split) <;> simp

end Sys2Proof.Machine
end

