-- ==== Sys2Proof/Laws/KeepLink.lean ====
section
/-! SUPPORT. The sleep ring, the Almoith link, its proofs and the host windows: each operation leaves
the waiting commands, the plate flash, the staging session, the life-cycle counter and the power mode as they were, but
for those that Flash.lean, LifeCycle.lean and Mode.lean take up. -/

namespace Sys2Proof.Machine

/-! SleepRing.lean -/

@[simp] theorem tokShow_keep (body : List Byte) (s : State) :
    Kept s (tokShow body s) := by
  simp [tokShow]

@[simp] theorem roundEnd_keep (s : State) :
    Kept s (roundEnd s) := by
  simp [roundEnd]

@[simp] theorem commitSet_keep (cand : Nat) (s : State) :
    Kept s (commitSet cand s) := by
  simp only [commitSet]; (repeat' split) <;> simp

@[simp] theorem originReturn_pending (send : List Byte → State → State) (body : List Byte) (s : State) (h : ∀ b t, (send b t).pending = t.pending) : (originReturn send body s).pending = s.pending := by
  simp only [originReturn]; (repeat' split) <;> simp [h]
@[simp] theorem originReturn_sys_flash (send : List Byte → State → State) (body : List Byte) (s : State) (h : ∀ b t, (send b t).sys.flash = t.sys.flash) : (originReturn send body s).sys.flash = s.sys.flash := by
  simp only [originReturn]; (repeat' split) <;> simp [h]
@[simp] theorem originReturn_sys_session (send : List Byte → State → State) (body : List Byte) (s : State) (h : ∀ b t, (send b t).sys.session = t.sys.session) : (originReturn send body s).sys.session = s.sys.session := by
  simp only [originReturn]; (repeat' split) <;> simp [h]
@[simp] theorem originReturn_key_lcCount (send : List Byte → State → State) (body : List Byte) (s : State) (h : ∀ b t, (send b t).key.lcCount = t.key.lcCount) : (originReturn send body s).key.lcCount = s.key.lcCount := by
  simp only [originReturn]; (repeat' split) <;> simp [h]
@[simp] theorem originReturn_pwr_mode (send : List Byte → State → State) (body : List Byte) (s : State) (h : ∀ b t, (send b t).pwr.mode = t.pwr.mode) : (originReturn send body s).pwr.mode = s.pwr.mode := by
  simp only [originReturn]; (repeat' split) <;> simp [h]
@[simp] theorem originReturn_time_loc (send : List Byte → State → State) (body : List Byte) (s : State) (h : ∀ b t, (send b t).time.loc = t.time.loc) : (originReturn send body s).time.loc = s.time.loc := by
  simp only [originReturn]; (repeat' split) <;> simp [h]
@[simp] theorem originReturn_cfg (send : List Byte → State → State) (body : List Byte) (s : State) (h : ∀ b t, (send b t).cfg = t.cfg) : (originReturn send body s).cfg = s.cfg := by
  simp only [originReturn]; (repeat' split) <;> simp [h]
@[simp] theorem ringSend_keep (n : Nat) (body : List Byte) (s : State) : Kept s (ringSend n body s) := by
  induction n generalizing s body with
  | zero => simp [ringSend]
  | succ n ih => simp only [ringSend]; (repeat' split) <;> simp [ih]

@[simp] theorem roundBegin_keep (epoch round : Nat) (s : State) :
    Kept s (roundBegin epoch round s) := by
  simp [roundBegin]

@[simp] theorem execRoundStart_keep (s : State) :
    Kept s (outState (execRoundStart s) s) := by
  simp [execRoundStart]

@[simp] theorem vetoTaken_keep (port : Nat) (body : List Byte) (s : State) :
    Kept s (vetoTaken port body s) := by
  simp [vetoTaken]

@[simp] theorem memberToken_keep (body : List Byte) (s : State) :
    Kept s (memberToken body s) := by
  simp only [memberToken]; (repeat' split) <;> simp

@[simp] theorem execToken_keep (port : Fin 32) (msg : List Byte) (s : State) :
    Kept s (outState (execToken port msg s) s) := by
  simp only [execToken]; (repeat' split) <;> (try have hk0 := almAccept_of ‹almAccept _ _ _ = _›) <;> simp_all

@[simp] theorem execCommitPoint_keep (s : State) :
    (outState (execCommitPoint s) s).pending = s.pending ∧ (outState (execCommitPoint s) s).sys.flash = s.sys.flash ∧ (outState (execCommitPoint s) s).key.lcCount = s.key.lcCount := by
  simp [execCommitPoint]

@[simp] theorem execRingLoss_keep (s : State) :
    Kept s (outState (execRingLoss s) s) := by
  simp [execRingLoss]

@[simp] theorem execRegeneration_keep (s : State) :
    Kept s (outState (execRegeneration s) s) := by
  simp [execRegeneration]

@[simp] theorem execWakeIn_keep (i : Fin 8) (s : State) :
    Kept s (outState (execWakeIn i s) s) := by
  simp [execWakeIn]

@[simp] theorem execWakeInputInactive_keep (i : Fin 8) (s : State) :
    Kept s (outState (execWakeInputInactive i s) s) := by
  simp [execWakeInputInactive]

@[simp] theorem execAonTimer_keep (s : State) :
    Kept s (outState (execAonTimer s) s) := by
  simp [execAonTimer]

@[simp] theorem execWake_keep (_port : Fin 32) (msg : List Byte) (s : State) :
    Kept s (outState (execWake _port msg s) s) := by
  simp only [execWake]; (repeat' split) <;> (try have hk0 := almAccept_of ‹almAccept _ _ _ = _›) <;> simp_all

@[simp] theorem execWakeRepeat_keep (s : State) :
    Kept s (outState (execWakeRepeat s) s) := by
  simp only [execWakeRepeat]; (repeat' split) <;> simp

@[simp] theorem execWakeOutPulseEnd_keep (o : Fin 4) (s : State) :
    Kept s (outState (execWakeOutPulseEnd o s) s) := by
  simp [execWakeOutPulseEnd]

@[simp] theorem execFalseWake_keep (g : Fin 32) (s : State) :
    Kept s (outState (execFalseWake g s) s) := by
  simp [execFalseWake]

@[simp] theorem hostDemandWrite_keep (who : Initiator) (v : Nat) (s : State) :
    Kept s ((hostDemandWrite who v s).2) := by
  simp only [hostDemandWrite]; (repeat' split) <;> simp

theorem hostDemandWrite_of {who : Initiator} {v : Nat} {s : State} {rr} (h : hostDemandWrite who v s = rr) :
    Kept s rr.2 := h ▸ hostDemandWrite_keep who v s

@[simp] theorem execSlpHostDemand_keep (who : Initiator) (v : Word) (s : State) :
    Kept s (outState (execSlpHostDemand who v s) s) := by
  simp [execSlpHostDemand]

@[simp] theorem execIdle_keep (s : State) :
    (outState (execIdle s) s).pending = s.pending ∧ (outState (execIdle s) s).sys.flash = s.sys.flash ∧ (outState (execIdle s) s).sys.session = s.sys.session ∧ (outState (execIdle s) s).key.lcCount = s.key.lcCount := by
  simp [execIdle]

@[simp] theorem execIdleResume_keep (s : State) :
    (outState (execIdleResume s) s).pending = s.pending ∧ (outState (execIdleResume s) s).sys.flash = s.sys.flash ∧ (outState (execIdleResume s) s).sys.session = s.sys.session ∧ (outState (execIdleResume s) s).key.lcCount = s.key.lcCount := by
  simp [execIdleResume]

@[simp] theorem execStandbyResume_keep (s : State) :
    (outState (execStandbyResume s) s).pending = s.pending ∧ (outState (execStandbyResume s) s).sys.flash = s.sys.flash ∧ (outState (execStandbyResume s) s).sys.session = s.sys.session ∧ (outState (execStandbyResume s) s).key.lcCount = s.key.lcCount := by
  simp [execStandbyResume]

/-! Almoith.lean -/

@[simp] theorem remoteAnswer_keep (node id i : Nat) (st : Status) (write : Bool) (s : State) :
    Kept s (remoteAnswer node id i st write s) := by
  simp only [remoteAnswer]; (repeat' split) <;> simp

@[simp] theorem execRemoteRead_keep (_port : Fin 32) (msg : List Byte) (s : State) :
    Kept s (outState (execRemoteRead _port msg s) s) := by
  simp only [execRemoteRead]; (repeat' split) <;> (try have hk0 := almAccept_of ‹almAccept _ _ _ = _›) <;> simp_all

@[simp] theorem remoteApply_keep (retry : Bool) (node id i v : Nat) (s : State) :
    Kept s ((remoteApply retry node id i v s).2) := by
  simp only [remoteApply]; (repeat' split) <;> simp

theorem remoteApply_of {retry : Bool} {node id i v : Nat} {s : State} {rr} (h : remoteApply retry node id i v s = rr) :
    Kept s rr.2 := h ▸ remoteApply_keep retry node id i v s

@[simp] theorem execRemoteWrite_keep (_port : Fin 32) (msg : List Byte) (s : State) :
    Kept s (outState (execRemoteWrite _port msg s) s) := by
  simp only [execRemoteWrite]; (repeat' split) <;> (try have hk0 := almAccept_of ‹almAccept _ _ _ = _›) <;> (try have hk1 := remoteApply_of ‹remoteApply _ _ _ _ _ = _›) <;> simp_all

@[simp] theorem copyCommit_keep (i v time : Nat) (s : State) :
    Kept s (copyCommit i v time s) := by
  simp [copyCommit]

@[simp] theorem openDone_keep (r : OpenReq) (s : State) :
    Kept s (openDone r s) := by
  simp [openDone]

@[simp] theorem execRemoteReadRsp_keep (_port : Fin 32) (msg : List Byte) (s : State) :
    Kept s (outState (execRemoteReadRsp _port msg s) s) := by
  simp only [execRemoteReadRsp]; (repeat' split) <;> (try have hk0 := almAccept_of ‹almAccept _ _ _ = _›) <;> simp_all

@[simp] theorem openFail_keep (r : OpenReq) (s : State) :
    Kept s (openFail r s) := by
  simp only [openFail]; (repeat' split) <;> simp

@[simp] theorem execRemoteRetry_keep (id : Nat) (s : State) :
    Kept s (outState (execRemoteRetry id s) s) := by
  simp only [execRemoteRetry]; (repeat' split) <;> simp

@[simp] theorem partPlace_keep (p : SnapPart) (s : State) :
    Kept s (partPlace p s) := by
  simp [partPlace]

@[simp] theorem partAdd_keep (node : Nat) (b : List Byte) (s : State) :
    Kept s (partAdd node b s) := by
  simp [partAdd]

@[simp] theorem execSnapshotMessage_keep (_port : Fin 32) (msg : List Byte) (s : State) :
    Kept s (outState (execSnapshotMessage _port msg s) s) := by
  simp only [execSnapshotMessage]; (repeat' split) <;> (try have hk0 := almAccept_of ‹almAccept _ _ _ = _›) <;> simp_all

@[simp] theorem execSnapshotReassembly_keep (sender : Fin 4096) (set : Fin 64) (seq : Nat) (s : State) :
    Kept s (outState (execSnapshotReassembly sender set seq s) s) := by
  simp [execSnapshotReassembly]

@[simp] theorem tunnelRoute_keep (ch : Nat) (data : List Byte) (r : Nat) (s : State) :
    Kept s (tunnelRoute ch data r s) := by
  simp only [tunnelRoute]; (repeat' split) <;> simp

@[simp] theorem tunnelDiag_keep (data : List Byte) (s : State) :
    Kept s (tunnelDiag data s) := by
  simp [tunnelDiag]

@[simp] theorem execTunnel_keep (_port : Fin 32) (msg : List Byte) (s : State) :
    Kept s (outState (execTunnel _port msg s) s) := by
  simp only [execTunnel]; (repeat' split) <;> (try have hk0 := almAccept_of ‹almAccept _ _ _ = _›) <;> (try have hk1 := routesFor_of ‹routesFor _ _ _ _ _ = _›) <;> simp_all

@[simp] theorem execTimeHealth_keep (_port : Fin 32) (msg : List Byte) (s : State) :
    Kept s (outState (execTimeHealth _port msg s) s) := by
  simp only [execTimeHealth]; (repeat' split) <;> (try have hk0 := almAccept_of ‹almAccept _ _ _ = _›) <;> simp_all

@[simp] theorem healthGm_keep (d : Nat) (s : State) :
    Kept s ((healthGm d s).2) := by
  simp only [healthGm]; (repeat' split) <;> simp

theorem healthGm_of {d : Nat} {s : State} {rr} (h : healthGm d s = rr) :
    Kept s rr.2 := h ▸ healthGm_keep d s

@[simp] theorem healthRec_keep (d : Nat) (s : State) :
    Kept s ((healthRec d s).2) := by
  simp [healthRec]

theorem healthRec_of {d : Nat} {s : State} {rr} (h : healthRec d s = rr) :
    Kept s rr.2 := h ▸ healthRec_keep d s

@[simp] theorem execTimeHealthInterval_keep (s : State) :
    Kept s (outState (execTimeHealthInterval s) s) := by
  simp [execTimeHealthInterval]

@[simp] theorem execResyncEnd_keep (s : State) :
    Kept s (outState (execResyncEnd s) s) := by
  simp [execResyncEnd]

/-! Proof.lean -/

@[simp] theorem prfShow_keep (s : State) :
    Kept s (prfShow s) := by
  simp [prfShow]

@[simp] theorem leafSet_keep (n : Nat) (l : Leaf) (s : State) :
    Kept s (leafSet n l s) := by
  simp [leafSet]

@[simp] theorem observe_keep (n form plate : Nat) (pre : List Byte) (early : Bool) (s : State) :
    Kept s (observe n form plate pre early s) := by
  simp [observe]

@[simp] theorem beaconUse_keep (n form plate : Nat) (pre : List Byte) (early : Bool) (s : State) :
    Kept s (beaconUse n form plate pre early s) := by
  simp [beaconUse]

@[simp] theorem beaconAccept_keep (m : List Byte) (s : State) :
    Kept s ((beaconAccept m s).2) := by
  simp [beaconAccept]

theorem beaconAccept_of {m : List Byte} {s : State} {rr} (h : beaconAccept m s = rr) :
    Kept s rr.2 := h ▸ beaconAccept_keep m s

@[simp] theorem execBeacon_keep (src : BeaconSrc) (s : State) :
    Kept s (outState (execBeacon src s) s) := by
  simp only [execBeacon]; (repeat' split) <;> (try have hk0 := beaconAccept_of ‹beaconAccept _ _ = _›) <;> simp_all

@[simp] theorem execNodeSilence_keep (n : Fin 4096) (s : State) :
    Kept s (outState (execNodeSilence n s) s) := by
  simp [execNodeSilence]

@[simp] theorem beaconPort_keep (p : Nat) (body : List Byte) (s : State) :
    Kept s (beaconPort p body s) := by
  simp only [beaconPort]; (repeat' split) <;> (try have hk0 := tagUse_of ‹tagUse _ _ = _›) <;> simp_all

@[simp] theorem execBeaconInterval_keep (s : State) :
    Kept s (outState (execBeaconInterval s) s) := by
  simp [execBeaconInterval]

@[simp] theorem execProofPeriod_keep (s : State) :
    Kept s (outState (execProofPeriod s) s) := by
  simp [execProofPeriod]

@[simp] theorem rangeAsk_keep (i level idx : Nat) (s : State) :
    Kept s (rangeAsk i level idx s) := by
  simp [rangeAsk]

@[simp] theorem digestTaken_keep (i : Nat) (b : List Byte) (s : State) :
    Kept s (digestTaken i b s) := by
  simp [digestTaken]

@[simp] theorem execRosterDigest_keep (_port : Fin 32) (msg : List Byte) (s : State) :
    Kept s (outState (execRosterDigest _port msg s) s) := by
  simp only [execRosterDigest]; (repeat' split) <;> (try have hk0 := almAccept_of ‹almAccept _ _ _ = _›) <;> simp_all

@[simp] theorem leafMerge_keep (b : List Byte) (s : State) :
    Kept s (leafMerge b s) := by
  simp [leafMerge]

@[simp] theorem rangeTaken_keep (i level idx : Nat) (b : List Byte) (s : State) :
    Kept s (rangeTaken i level idx b s) := by
  simp [rangeTaken]

@[simp] theorem execRosterRange_keep (_port : Fin 32) (msg : List Byte) (s : State) :
    Kept s (outState (execRosterRange _port msg s) s) := by
  simp only [execRosterRange]; (repeat' split) <;> (try have hk0 := almTo_of ‹almTo _ _ _ _ _ = _›) <;> (try have hk1 := almAccept_of ‹almAccept _ _ _ = _›) <;> simp_all

/-! Windows.lean -/

/-! HostRegs.lean -/

@[simp] theorem regLatch_keep (d : RegD) (n : Nat) (s : State) :
    Kept s (regLatch d n s) := by
  simp [regLatch]

@[simp] theorem regClear_keep (d : RegD) (n m : Nat) (s : State) :
    Kept s (regClear d n m s) := by
  simp [regClear]

@[simp] theorem regRead_keep (via : View) (fx : Bool) (a : Nat) (s : State) :
    Kept s ((regRead via fx a s).2) := by
  simp only [regRead]; (repeat' split) <;> simp

theorem regRead_of {via : View} {fx : Bool} {a : Nat} {s : State} {rr} (h : regRead via fx a s = rr) :
    Kept s rr.2 := h ▸ regRead_keep via fx a s

@[simp] theorem wordRead_keep (via : View) (fx : Bool) (a : Nat) (s : State) :
    Kept s ((wordRead via fx a s).2) := by
  simp only [wordRead]; (repeat' split) <;> (try have hk0 := regRead_of ‹regRead _ _ _ _ = _›) <;> simp_all

theorem wordRead_of {via : View} {fx : Bool} {a : Nat} {s : State} {rr} (h : wordRead via fx a s = rr) :
    Kept s rr.2 := h ▸ wordRead_keep via fx a s

@[simp] theorem spaceRead_keep (via : View) (a n : Nat) (s : State) :
    Kept s ((spaceRead via a n s).2) := by
  simp only [spaceRead]; (repeat' split) <;> (try have hk0 := popRead_of ‹popRead _ _ _ = _›) <;> (try have hk1 := regRead_of ‹regRead _ _ _ _ = _›) <;> simp (disch := first | (simp; done) | (intros; (repeat' split) <;> (try have hk0 := popRead_of ‹popRead _ _ _ = _›) <;> (try have hk1 := regRead_of ‹regRead _ _ _ _ = _›) <;> (try simp_all); done) | fail)

theorem spaceRead_of {via : View} {a : Nat} {n : Nat} {s : State} {rr} (h : spaceRead via a n s = rr) :
    Kept s rr.2 := h ▸ spaceRead_keep via a n s

@[simp] theorem sigWinRead_keep (via : View) (o n : Nat) (s : State) :
    Kept s ((sigWinRead via o n s).2) := by
  simp only [sigWinRead]; (repeat' split) <;> simp

theorem sigWinRead_of {via : View} {o : Nat} {n : Nat} {s : State} {rr} (h : sigWinRead via o n s = rr) :
    Kept s rr.2 := h ▸ sigWinRead_keep via o n s

@[simp] theorem sigAnswer_keep (via : View) (r : (Status × List Byte) × State) :
    Kept r.2 (sigAnswer via r) := by
  simp only [sigAnswer]; (repeat' split) <;> simp

@[simp] theorem execRead_keep (addr n : Nat) (s : State) :
    Kept s (outState (execRead addr n s) s) := by
  simp only [execRead, guardWf]; (repeat' split) <;> simp

@[simp] theorem execRcRead_keep (via : View) (addr : Nat) (s : State) :
    Kept s (outState (execRcRead via addr s) s) := by
  simp only [execRcRead]; (repeat' split) <;> simp

@[simp] theorem execRdid_keep (s : State) :
    Kept s (outState (execRdid s) s) := by
  simp [execRdid]

@[simp] theorem execRdsr_keep (s : State) :
    Kept s (outState (execRdsr s) s) := by
  simp [execRdsr]

@[simp] theorem execWrite_keep (addr : Nat) (data : List Byte) (s : State) :
    Kept s (outState (execWrite addr data s) s) := by
  simp [execWrite, guardWf]

@[simp] theorem execRsten_keep (s : State) :
    Kept s (outState (execRsten s) s) := by
  simp [execRsten]

@[simp] theorem execRst_keep (s : State) :
    Kept s (outState (execRst s) s) := by
  simp [execRst]

@[simp] theorem execSignalValueRead_keep (via : View) (i : Fin 65536) (s : State) :
    Kept s (outState (execSignalValueRead via i s) s) := by
  simp [execSignalValueRead]

@[simp] theorem execHstHqnnPop_keep (via : View) (q : Fin 64) (s : State) :
    Kept s (outState (execHstHqnnPop via q s) s) := by
  simp only [execHstHqnnPop]; (repeat' split) <;> simp

/-! RegWrite.lean -/

@[simp] theorem sigValueWrite_keep (who : Initiator) (i v : Nat) (meets : Bool) (s : State) :
    Kept s ((sigValueWrite who i v meets s).2) := by
  simp [sigValueWrite]

theorem sigValueWrite_of {who : Initiator} {i : Nat} {v : Nat} {meets : Bool} {s : State} {rr} (h : sigValueWrite who i v meets s = rr) :
    Kept s rr.2 := h ▸ sigValueWrite_keep who i v meets s

@[simp] theorem pduRequested_keep (who : Initiator) (p : Nat) (s : State) :
    Kept s ((pduRequested who p s).2) := by
  simp [pduRequested]

theorem pduRequested_of {who : Initiator} {p : Nat} {s : State} {rr} (h : pduRequested who p s = rr) :
    Kept s rr.2 := h ▸ pduRequested_keep who p s

@[simp] theorem sigWinWrite_keep (who : Initiator) (o : Nat) (b : List Byte) (s : State) :
    Kept s ((sigWinWrite who o b s).2) := by
  simp [sigWinWrite]

theorem sigWinWrite_of {who : Initiator} {o : Nat} {b : List Byte} {s : State} {rr} (h : sigWinWrite who o b s = rr) :
    Kept s rr.2 := h ▸ sigWinWrite_keep who o b s

@[simp] theorem execSignalValueWrite_keep (who : Initiator) (i : Fin 65536) (v : BitVec 64) (meets : Bool) (s : State) :
    Kept s (outState (execSignalValueWrite who i v meets s) s) := by
  simp [execSignalValueWrite]

@[simp] theorem execPduRequest_keep (who : Initiator) (p : Fin 8192) (s : State) :
    Kept s (outState (execPduRequest who p s) s) := by
  simp [execPduRequest]

@[simp] theorem rstReqWrite_keep (who : Initiator) (v : Nat) (s : State) :
    Kept s ((rstReqWrite who v s).2) := by
  simp [rstReqWrite]

theorem rstReqWrite_of {who : Initiator} {v : Nat} {s : State} {rr} (h : rstReqWrite who v s = rr) :
    Kept s rr.2 := h ▸ rstReqWrite_keep who v s

@[simp] theorem execSysRstReq_keep (who : Initiator) (v : Word) (s : State) :
    Kept s (outState (execSysRstReq who v s) s) := by
  simp [execSysRstReq]

@[simp] theorem hqCtrlWrite_keep (who : Initiator) (q v : Nat) (s : State) :
    Kept s ((hqCtrlWrite who q v s).2) := by
  simp [hqCtrlWrite]

theorem hqCtrlWrite_of {who : Initiator} {q : Nat} {v : Nat} {s : State} {rr} (h : hqCtrlWrite who q v s = rr) :
    Kept s rr.2 := h ▸ hqCtrlWrite_keep who q v s

@[simp] theorem hqBaseWrite_keep (who : Initiator) (q : Nat) (f : Field) (v : Nat) (s : State) :
    Kept s ((hqBaseWrite who q f v s).2) := by
  simp [hqBaseWrite]

theorem hqBaseWrite_of {who : Initiator} {q : Nat} {f : Field} {v : Nat} {s : State} {rr} (h : hqBaseWrite who q f v s = rr) :
    Kept s rr.2 := h ▸ hqBaseWrite_keep who q f v s

@[simp] theorem msixWrite_keep (i v : Nat) (s : State) :
    Kept s ((msixWrite i v s).2) := by
  simp [msixWrite]

theorem msixWrite_of {i : Nat} {v : Nat} {s : State} {rr} (h : msixWrite i v s = rr) :
    Kept s rr.2 := h ▸ msixWrite_keep i v s

@[simp] theorem recCmdWrite_keep (who : RecUser) (v : Nat) (s : State) :
    Kept s ((recCmdWrite who v s).2) := by
  simp only [recCmdWrite]; (repeat' split) <;> simp

theorem recCmdWrite_of {who : RecUser} {v : Nat} {s : State} {rr} (h : recCmdWrite who v s = rr) :
    Kept s rr.2 := h ▸ recCmdWrite_keep who v s

@[simp] theorem cipCmdWrite_keep (who : Initiator) (w v : Nat) (s : State) :
    Kept s ((cipCmdWrite who w v s).2) := by
  simp only [cipCmdWrite]; (repeat' split) <;> simp

theorem cipCmdWrite_of {who : Initiator} {w : Nat} {v : Nat} {s : State} {rr} (h : cipCmdWrite who w v s = rr) :
    Kept s rr.2 := h ▸ cipCmdWrite_keep who w v s

@[simp] theorem fieldsWrite_keep (d : RegD) (n m v : Nat) (s : State) :
    Kept s (fieldsWrite d n m v s) := by
  simp only [fieldsWrite]; (repeat' split) <;> simp (disch := first | (simp; done) | (intros; (repeat' split) <;> (try simp); done) | fail)

@[simp] theorem plainWrite_keep (who : Initiator) (d : RegD) (n m v : Nat) (s : State) :
    Kept s ((plainWrite who d n m v s).2) := by
  simp [plainWrite]

theorem plainWrite_of {who : Initiator} {d : RegD} {n : Nat} {m : Nat} {v : Nat} {s : State} {rr} (h : plainWrite who d n m v s = rr) :
    Kept s rr.2 := h ▸ plainWrite_keep who d n m v s

@[simp] theorem keyCmdBy_keep (who : Initiator) (v : Nat) (s : State) :
    (keyCmdBy who v s).2.pending = s.pending ∧ (keyCmdBy who v s).2.sys.flash = s.sys.flash ∧ (keyCmdBy who v s).2.sys.session = s.sys.session ∧ (keyCmdBy who v s).2.pwr.mode = s.pwr.mode ∧ (keyCmdBy who v s).2.time.loc = s.time.loc ∧ (keyCmdBy who v s).2.cfg = s.cfg := by
  simp only [keyCmdBy]; (repeat' split) <;> simp

theorem keyCmdBy_of {who : Initiator} {v : Nat} {s : State} {rr} (h : keyCmdBy who v s = rr) :
    rr.2.pending = s.pending ∧ rr.2.sys.flash = s.sys.flash ∧ rr.2.sys.session = s.sys.session ∧ rr.2.pwr.mode = s.pwr.mode ∧ rr.2.time.loc = s.time.loc ∧ rr.2.cfg = s.cfg := h ▸ keyCmdBy_keep who v s

@[simp] theorem regEffect_keep (who : Initiator) (d : RegD) (n m v : Nat) (s : State) :
    (regEffect who d n m v s).2.pending = s.pending ∧ (regEffect who d n m v s).2.sys.flash = s.sys.flash ∧ (regEffect who d n m v s).2.sys.session = s.sys.session ∧ (regEffect who d n m v s).2.pwr.mode = s.pwr.mode ∧ (regEffect who d n m v s).2.time.loc = s.time.loc ∧ (regEffect who d n m v s).2.cfg = s.cfg := by
  unfold regEffect
  repeat' (split; (· first | (simp; done) | (split <;> simp)))
  simp

theorem regEffect_of {who : Initiator} {d : RegD} {n : Nat} {m : Nat} {v : Nat} {s : State} {rr} (h : regEffect who d n m v s = rr) :
    rr.2.pending = s.pending ∧ rr.2.sys.flash = s.sys.flash ∧ rr.2.sys.session = s.sys.session ∧ rr.2.pwr.mode = s.pwr.mode ∧ rr.2.time.loc = s.time.loc ∧ rr.2.cfg = s.cfg := h ▸ regEffect_keep who d n m v s

@[simp] theorem stageBufWrite_keep (a v en : Nat) (s : State) :
    Kept s (stageBufWrite a v en s) := by
  simp [stageBufWrite]

@[simp] theorem mboxWrite_keep (who : Initiator) (a v en : Nat) (s : State) :
    Kept s ((mboxWrite who a v en s).2) := by
  cases who <;> (refine ⟨?_, ?_, ?_, ?_, ?_, ?_, ?_⟩ <;> rfl)

theorem mboxWrite_of {who : Initiator} {a : Nat} {v : Nat} {en : Nat} {s : State} {rr} (h : mboxWrite who a v en s = rr) :
    Kept s rr.2 := h ▸ mboxWrite_keep who a v en s

@[simp] theorem cipBufWrite_keep (who : Initiator) (a v en : Nat) (s : State) :
    Kept s (cipBufWrite who a v en s) := by
  simp [cipBufWrite]

@[simp] theorem regWriteBase_keep (who : Initiator) (a v en : Nat) (s : State) :
    (regWriteBase who a v en s).2.pending = s.pending ∧ (regWriteBase who a v en s).2.sys.flash = s.sys.flash ∧ (regWriteBase who a v en s).2.sys.session = s.sys.session ∧ (regWriteBase who a v en s).2.pwr.mode = s.pwr.mode ∧ (regWriteBase who a v en s).2.time.loc = s.time.loc ∧ (regWriteBase who a v en s).2.cfg = s.cfg := by
  unfold regWriteBase
  repeat' (split; (· first | (simp; done) | (split <;> simp)))
  simp

theorem regWriteBase_of {who : Initiator} {a : Nat} {v : Nat} {en : Nat} {s : State} {rr} (h : regWriteBase who a v en s = rr) :
    rr.2.pending = s.pending ∧ rr.2.sys.flash = s.sys.flash ∧ rr.2.sys.session = s.sys.session ∧ rr.2.pwr.mode = s.pwr.mode ∧ rr.2.time.loc = s.time.loc ∧ rr.2.cfg = s.cfg := h ▸ regWriteBase_keep who a v en s

end Sys2Proof.Machine
end

