-- ==== Sys2Proof/Laws/KeepCores.lean ====
section
/-! SUPPORT. The control cores: each operation leaves
the waiting commands, the plate flash, the staging session, the life-cycle counter and the power mode as they were, but
for those that Flash.lean, LifeCycle.lean and Mode.lean take up. -/

namespace Sys2Proof.Machine

/-! Rv.lean -/

/-! CtlExec.lean -/

@[simp] theorem portLoad_keep (n o size : Nat) (s : State) :
    Kept s ((portLoad n o size s).2) := by
  simp [portLoad]

theorem portLoad_of {n : Nat} {o : Nat} {size : Nat} {s : State} {rr} (h : portLoad n o size s = rr) :
    Kept s rr.2 := h ▸ portLoad_keep n o size s

@[simp] theorem outerLoad_keep (n : Fin 4) (a size : Nat) (s : State) :
    Kept s ((outerLoad n a size s).2) := by
  simp only [outerLoad]; (repeat' split) <;> simp

theorem outerLoad_of {n : Fin 4} {a : Nat} {size : Nat} {s : State} {rr} (h : outerLoad n a size s = rr) :
    Kept s rr.2 := h ▸ outerLoad_keep n a size s

@[simp] theorem sampled_pending (n : Nat) (passB : Bool) (key : Nat) (acc : State → Nat × State) (p : Pass) (s : State) (h : ∀ t, (acc t).2.pending = t.pending) : (sampled n passB key acc p s).2.2.pending = s.pending := by
  simp only [sampled]; (repeat' split) <;> simp [h]
@[simp] theorem sampled_sys_flash (n : Nat) (passB : Bool) (key : Nat) (acc : State → Nat × State) (p : Pass) (s : State) (h : ∀ t, (acc t).2.sys.flash = t.sys.flash) : (sampled n passB key acc p s).2.2.sys.flash = s.sys.flash := by
  simp only [sampled]; (repeat' split) <;> simp [h]
@[simp] theorem sampled_sys_session (n : Nat) (passB : Bool) (key : Nat) (acc : State → Nat × State) (p : Pass) (s : State) (h : ∀ t, (acc t).2.sys.session = t.sys.session) : (sampled n passB key acc p s).2.2.sys.session = s.sys.session := by
  simp only [sampled]; (repeat' split) <;> simp [h]
@[simp] theorem sampled_key_lcCount (n : Nat) (passB : Bool) (key : Nat) (acc : State → Nat × State) (p : Pass) (s : State) (h : ∀ t, (acc t).2.key.lcCount = t.key.lcCount) : (sampled n passB key acc p s).2.2.key.lcCount = s.key.lcCount := by
  simp only [sampled]; (repeat' split) <;> simp [h]
@[simp] theorem sampled_pwr_mode (n : Nat) (passB : Bool) (key : Nat) (acc : State → Nat × State) (p : Pass) (s : State) (h : ∀ t, (acc t).2.pwr.mode = t.pwr.mode) : (sampled n passB key acc p s).2.2.pwr.mode = s.pwr.mode := by
  simp only [sampled]; (repeat' split) <;> simp [h]
@[simp] theorem sampled_time_loc (n : Nat) (passB : Bool) (key : Nat) (acc : State → Nat × State) (p : Pass) (s : State) (h : ∀ t, (acc t).2.time.loc = t.time.loc) : (sampled n passB key acc p s).2.2.time.loc = s.time.loc := by
  simp only [sampled]; (repeat' split) <;> simp [h]
@[simp] theorem sampled_cfg (n : Nat) (passB : Bool) (key : Nat) (acc : State → Nat × State) (p : Pass) (s : State) (h : ∀ t, (acc t).2.cfg = t.cfg) : (sampled n passB key acc p s).2.2.cfg = s.cfg := by
  simp only [sampled]; (repeat' split) <;> simp [h]
@[simp] theorem rvLoad_keep (n : Fin 4) (passB : Bool) (a size : Nat) (p : Pass) (s : State) :
    Kept s ((rvLoad n passB a size p s).2.2) := by
  simp only [rvLoad]; (repeat' split) <;> simp

theorem rvLoad_of {n : Fin 4} {passB : Bool} {a : Nat} {size : Nat} {p : Pass} {s : State} {rr} (h : rvLoad n passB a size p s = rr) :
    Kept s rr.2.2 := h ▸ rvLoad_keep n passB a size p s

theorem csrRead_of (n : Nat) (passB : Bool) (k : Nat) (p : Pass) (s : State) (v : Nat) (q : Pass) (t : State) (h : csrRead n passB k p s = some (v, q, t)) :
    t.pending = s.pending ∧ t.sys.flash = s.sys.flash ∧ t.sys.session = s.sys.session ∧ t.key.lcCount = s.key.lcCount ∧ t.pwr.mode = s.pwr.mode ∧ t.time.loc = s.time.loc ∧ t.cfg = s.cfg := by
  unfold csrRead at h
  repeat' split at h
  · simp at h
  · injection h with h
    have ht : t = (sampled n passB k (fun s => ((fresh s).1 % 2 ^ 32, (fresh s).2)) p s).2.2 := by rw [show sampled n passB k (fun s => ((fresh s).1 % 2 ^ 32, (fresh s).2)) p s = _ from h]
    subst ht; simp
  · simp at h; simp [h]
  · simp at h; simp [h]
  · simp at h

@[simp] theorem rvCsr_keep (n : Nat) (passB : Bool) (f3 rd rs1 k w next : Nat) (p : Pass) (s : State) :
    Kept s ((rvCsr n passB f3 rd rs1 k w next p s).2) := by
  unfold rvCsr
  simp only []
  split
  · simp
  · split
    · simp
    · rename_i h
      split at h
      · have hk := csrRead_of _ _ _ _ _ _ _ _ h
        simpa using hk
      · simp at h; simp [h]

theorem rvCsr_of {n : Nat} {passB : Bool} {f3 : Nat} {rd : Nat} {rs1 : Nat} {k : Nat} {w : Nat} {next : Nat} {p : Pass} {s : State} {rr} (h : rvCsr n passB f3 rd rs1 k w next p s = rr) :
    Kept s rr.2 := h ▸ rvCsr_keep n passB f3 rd rs1 k w next p s

@[simp] theorem rvExec_keep (n : Fin 4) (passB : Bool) (i : Rv) (w len : Nat) (p : Pass) (s : State) :
    Kept s ((rvExec n passB i w len p s).2) := by
  simp only [rvExec]; (repeat' split) <;> (try have hk0 := rvLoad_of ‹rvLoad _ _ _ _ _ _ = _›) <;> (try have hk1 := rvCsr_of ‹rvCsr _ _ _ _ _ _ _ _ _ _ = _›) <;> simp_all

theorem rvExec_of {n : Fin 4} {passB : Bool} {i : Rv} {w : Nat} {len : Nat} {p : Pass} {s : State} {rr} (h : rvExec n passB i w len p s = rr) :
    Kept s rr.2 := h ▸ rvExec_keep n passB i w len p s

@[simp] theorem rvStep_keep (n : Fin 4) (passB : Bool) (p : Pass) (s : State) :
    Kept s ((rvStep n passB p s).2) := by
  simp only [rvStep]; (repeat' split) <;> simp

theorem rvStep_of {n : Fin 4} {passB : Bool} {p : Pass} {s : State} {rr} (h : rvStep n passB p s = rr) :
    Kept s rr.2 := h ▸ rvStep_keep n passB p s

/-! Ctl.lean -/

@[simp] theorem pushRefused_keep (n : Nat) (s : State) :
    Kept s (pushRefused n s) := by
  simp [pushRefused]

@[simp] theorem pushPort_keep (n h v : Nat) (s : State) :
    Kept s (pushPort n h v s) := by
  simp only [pushPort]; (repeat' split) <;> (try have hk0 := linkMore_of ‹linkMore _ _ _ = _›) <;> (try have hk1 := submitAs_of ‹submitAs _ _ _ _ = _›) <;> simp_all

@[simp] theorem execPushH_keep (n : Fin 4) (h : Fin 16) (v : Word) (s : State) :
    Kept s (outState (execPushH n h v s) s) := by
  simp [execPushH]

@[simp] theorem portStore_keep (n o v : Nat) (s : State) :
    Kept s (portStore n o v s) := by
  simp [portStore]

@[simp] theorem sigStore_keep (n : Fin 4) (o v mask : Nat) (s : State) :
    Kept s (sigStore n o v mask s) := by
  simp [sigStore]

@[simp] theorem coreOut_keep (n : Fin 4) (e : StoreEnt) (s : State) :
    (coreOut n e s).pending = s.pending ∧ (coreOut n e s).sys.flash = s.sys.flash ∧ (coreOut n e s).sys.session = s.sys.session ∧ (coreOut n e s).pwr.mode = s.pwr.mode ∧ (coreOut n e s).time.loc = s.time.loc ∧ (coreOut n e s).cfg = s.cfg := by
  simp only [coreOut]; (repeat' split) <;> simp

@[simp] theorem dbgCheckpoint_keep (n : Nat) (s : State) :
    Kept s (dbgCheckpoint n s) := by
  simp [dbgCheckpoint]

@[simp] theorem bpHalt_keep (n : Nat) (s : State) :
    Kept s (bpHalt n s) := by
  simp [bpHalt]

@[simp] theorem passBegin_keep (n : Nat) (passB : Bool) (ctx : CoreCtx) (s : State) :
    Kept s ((passBegin n passB ctx s).2) := by
  simp only [passBegin]; (repeat' split) <;> simp

theorem passBegin_of {n : Nat} {passB : Bool} {ctx : CoreCtx} {s : State} {rr} (h : passBegin n passB ctx s = rr) :
    Kept s rr.2 := h ▸ passBegin_keep n passB ctx s

@[simp] theorem runA_keep (n : Fin 4) (k m : Nat) (p : Pass) (s : State) : Kept s ((runA n k m p s).2) := by
  induction m generalizing s p with
  | zero => simp [runA]
  | succ m ih => simp only [runA]; (repeat' split) <;> simp [ih]

@[simp] theorem runB_keep (n : Fin 4) (m : Nat) (p : Pass) (s : State) : Kept s ((runB n m p s).2) := by
  induction m generalizing s p with
  | zero => simp [runB]
  | succ m ih => simp only [runB]; simp [ih]

@[simp] theorem sliceClear_keep (n : Nat) (s : State) :
    Kept s (sliceClear n s) := by
  simp [sliceClear]

@[simp] theorem sliceCommit_keep (n : Fin 4) (k : Nat) (again : Bool) (p : Pass) (s : State) :
    (sliceCommit n k again p s).pending = s.pending ∧ (sliceCommit n k again p s).sys.flash = s.sys.flash ∧ (sliceCommit n k again p s).sys.session = s.sys.session ∧ (sliceCommit n k again p s).pwr.mode = s.pwr.mode ∧ (sliceCommit n k again p s).time.loc = s.time.loc ∧ (sliceCommit n k again p s).cfg = s.cfg := by
  simp [sliceCommit]

@[simp] theorem safeAction_keep (n k : Nat) (s : State) :
    Kept s (safeAction n k s) := by
  simp only [safeAction]; (repeat' split) <;> simp

@[simp] theorem coreFence_keep (n cause : Nat) (s : State) :
    Kept s (coreFence n cause s) := by
  simp [coreFence]

@[simp] theorem sliceRerun_keep (n k cause : Nat) (s : State) :
    Kept s (sliceRerun n k cause s) := by
  simp [sliceRerun]

@[simp] theorem finishB_keep (n : Fin 4) (k : Nat) (a : Pass) (s : State) :
    Kept s ((finishB n k a s).2) := by
  simp only [finishB]; (repeat' split) <;> simp

theorem finishB_of {n : Fin 4} {k : Nat} {a : Pass} {s : State} {rr} (h : finishB n k a s = rr) :
    Kept s rr.2 := h ▸ finishB_keep n k a s

@[simp] theorem rerun_keep (n : Fin 4) (k : Nat) (s : State) :
    Kept s ((rerun n k s).2.2) := by
  simp [rerun]

theorem rerun_of {n : Fin 4} {k : Nat} {s : State} {rr} (h : rerun n k s = rr) :
    Kept s rr.2.2 := h ▸ rerun_keep n k s

@[simp] theorem sliceAgain_keep (n : Fin 4) (k c : Nat) (u : SliceUpset) (s : State) :
    (sliceAgain n k c u s).pending = s.pending ∧ (sliceAgain n k c u s).sys.flash = s.sys.flash ∧ (sliceAgain n k c u s).sys.session = s.sys.session ∧ (sliceAgain n k c u s).pwr.mode = s.pwr.mode ∧ (sliceAgain n k c u s).time.loc = s.time.loc ∧ (sliceAgain n k c u s).cfg = s.cfg := by
  simp [sliceAgain]

@[simp] theorem sliceEnd_keep (n : Fin 4) (k : Nat) (u : SliceUpset) (a : Pass) (s : State) :
    (sliceEnd n k u a s).pending = s.pending ∧ (sliceEnd n k u a s).sys.flash = s.sys.flash ∧ (sliceEnd n k u a s).sys.session = s.sys.session ∧ (sliceEnd n k u a s).pwr.mode = s.pwr.mode ∧ (sliceEnd n k u a s).time.loc = s.time.loc ∧ (sliceEnd n k u a s).cfg = s.cfg := by
  simp only [sliceEnd]; (repeat' split) <;> simp

@[simp] theorem sliceRun_keep (n : Fin 4) (k : Nat) (u : SliceUpset) (s : State) :
    (sliceRun n k u s).pending = s.pending ∧ (sliceRun n k u s).sys.flash = s.sys.flash ∧ (sliceRun n k u s).sys.session = s.sys.session ∧ (sliceRun n k u s).pwr.mode = s.pwr.mode ∧ (sliceRun n k u s).time.loc = s.time.loc ∧ (sliceRun n k u s).cfg = s.cfg := by
  simp only [sliceRun]; (repeat' split) <;> simp

@[simp] theorem execSlice_keep (n : Fin 4) (u : SliceUpset) (s : State) :
    (outState (execSlice n u s) s).pending = s.pending ∧ (outState (execSlice n u s) s).sys.flash = s.sys.flash ∧ (outState (execSlice n u s) s).sys.session = s.sys.session ∧ (outState (execSlice n u s) s).pwr.mode = s.pwr.mode ∧ (outState (execSlice n u s) s).time.loc = s.time.loc ∧ (outState (execSlice n u s) s).cfg = s.cfg := by
  simp only [execSlice]; (repeat' split) <;> simp

@[simp] theorem oneInstr_keep (n : Fin 4) (s : State) :
    Kept s (oneInstr n s) := by
  simp only [oneInstr]; (repeat' split) <;> simp

@[simp] theorem execRv32imcInstruction_keep (n : Fin 4) (s : State) :
    Kept s (outState (execRv32imcInstruction n s) s) := by
  simp [execRv32imcInstruction]

@[simp] theorem execWfi_keep (n : Fin 4) (s : State) :
    (outState (execWfi n s) s).pending = s.pending ∧ (outState (execWfi n s) s).sys.flash = s.sys.flash ∧ (outState (execWfi n s) s).sys.session = s.sys.session ∧ (outState (execWfi n s) s).pwr.mode = s.pwr.mode ∧ (outState (execWfi n s) s).time.loc = s.time.loc ∧ (outState (execWfi n s) s).cfg = s.cfg := by
  simp [execWfi]

@[simp] theorem execEcall_keep (n : Fin 4) (s : State) :
    (outState (execEcall n s) s).pending = s.pending ∧ (outState (execEcall n s) s).sys.flash = s.sys.flash ∧ (outState (execEcall n s) s).sys.session = s.sys.session ∧ (outState (execEcall n s) s).pwr.mode = s.pwr.mode ∧ (outState (execEcall n s) s).time.loc = s.time.loc ∧ (outState (execEcall n s) s).cfg = s.cfg := by
  simp [execEcall]

@[simp] theorem execWindow_keep (n : Fin 4) (w : Fin 128) (s : State) :
    Kept s (outState (execWindow n w s) s) := by
  simp [execWindow]

@[simp] theorem execPopTimeout_keep (w : Waiter) (s : State) :
    Kept s (outState (execPopTimeout w s) s) := by
  simp only [execPopTimeout]; (repeat' split) <;> simp

@[simp] theorem coreStart_keep (n : Nat) (keepHeld : Bool) (s : State) :
    Kept s (coreStart n keepHeld s) := by
  simp [coreStart]

@[simp] theorem coreTested_keep (n : Nat) (ok : Bool) (s : State) :
    Kept s (coreTested n ok s) := by
  simp [coreTested]

@[simp] theorem dbgHalt_keep (n : Nat) (s : State) :
    Kept s (dbgHalt n s) := by
  simp [dbgHalt]

@[simp] theorem dbgStep_keep (n : Fin 4) (s : State) :
    (dbgStep n s).pending = s.pending ∧ (dbgStep n s).sys.flash = s.sys.flash ∧ (dbgStep n s).sys.session = s.sys.session ∧ (dbgStep n s).pwr.mode = s.pwr.mode ∧ (dbgStep n s).time.loc = s.time.loc ∧ (dbgStep n s).cfg = s.cfg := by
  simp only [dbgStep]; (repeat' split) <;> simp

@[simp] theorem dbgResume_keep (n : Nat) (s : State) :
    Kept s (dbgResume n s) := by
  simp [dbgResume]

@[simp] theorem dbgCtrl_keep (n : Fin 4) (v : Nat) (s : State) :
    (dbgCtrl n v s).2.pending = s.pending ∧ (dbgCtrl n v s).2.sys.flash = s.sys.flash ∧ (dbgCtrl n v s).2.sys.session = s.sys.session ∧ (dbgCtrl n v s).2.pwr.mode = s.pwr.mode ∧ (dbgCtrl n v s).2.time.loc = s.time.loc ∧ (dbgCtrl n v s).2.cfg = s.cfg := by
  simp only [dbgCtrl]; (repeat' split) <;> simp

theorem dbgCtrl_of {n : Fin 4} {v : Nat} {s : State} {rr} (h : dbgCtrl n v s = rr) :
    rr.2.pending = s.pending ∧ rr.2.sys.flash = s.sys.flash ∧ rr.2.sys.session = s.sys.session ∧ rr.2.pwr.mode = s.pwr.mode ∧ rr.2.time.loc = s.time.loc ∧ rr.2.cfg = s.cfg := h ▸ dbgCtrl_keep n v s

@[simp] theorem dbgBp_keep (n : Nat) (v : Nat) (s : State) :
    Kept s ((dbgBp n v s).2) := by
  simp [dbgBp]

theorem dbgBp_of {n : Nat} {v : Nat} {s : State} {rr} (h : dbgBp n v s = rr) :
    Kept s rr.2 := h ▸ dbgBp_keep n v s

@[simp] theorem dbgWrite_keep (who : Initiator) (o v : Nat) (s : State) :
    (dbgWrite who o v s).2.pending = s.pending ∧ (dbgWrite who o v s).2.sys.flash = s.sys.flash ∧ (dbgWrite who o v s).2.sys.session = s.sys.session ∧ (dbgWrite who o v s).2.pwr.mode = s.pwr.mode ∧ (dbgWrite who o v s).2.time.loc = s.time.loc ∧ (dbgWrite who o v s).2.cfg = s.cfg := by
  simp only [dbgWrite]; (repeat' split) <;> simp

theorem dbgWrite_of {who : Initiator} {o : Nat} {v : Nat} {s : State} {rr} (h : dbgWrite who o v s = rr) :
    rr.2.pending = s.pending ∧ rr.2.sys.flash = s.sys.flash ∧ rr.2.sys.session = s.sys.session ∧ rr.2.pwr.mode = s.pwr.mode ∧ rr.2.time.loc = s.time.loc ∧ rr.2.cfg = s.cfg := h ▸ dbgWrite_keep who o v s

@[simp] theorem dbgCommand_keep (who : Initiator) (n : Fin 4) (cmd v : Nat) (s : State) :
    (dbgCommand who n cmd v s).pending = s.pending ∧ (dbgCommand who n cmd v s).sys.flash = s.sys.flash ∧ (dbgCommand who n cmd v s).sys.session = s.sys.session ∧ (dbgCommand who n cmd v s).pwr.mode = s.pwr.mode ∧ (dbgCommand who n cmd v s).time.loc = s.time.loc ∧ (dbgCommand who n cmd v s).cfg = s.cfg := by
  simp [dbgCommand]

@[simp] theorem execHalt_keep (who : Initiator) (n : Fin 4) (v : Word) (s : State) :
    (outState (execHalt who n v s) s).pending = s.pending ∧ (outState (execHalt who n v s) s).sys.flash = s.sys.flash ∧ (outState (execHalt who n v s) s).sys.session = s.sys.session ∧ (outState (execHalt who n v s) s).pwr.mode = s.pwr.mode ∧ (outState (execHalt who n v s) s).time.loc = s.time.loc ∧ (outState (execHalt who n v s) s).cfg = s.cfg := by
  simp [execHalt]

@[simp] theorem execStep_keep (who : Initiator) (n : Fin 4) (v : Word) (s : State) :
    (outState (execStep who n v s) s).pending = s.pending ∧ (outState (execStep who n v s) s).sys.flash = s.sys.flash ∧ (outState (execStep who n v s) s).sys.session = s.sys.session ∧ (outState (execStep who n v s) s).pwr.mode = s.pwr.mode ∧ (outState (execStep who n v s) s).time.loc = s.time.loc ∧ (outState (execStep who n v s) s).cfg = s.cfg := by
  simp [execStep]

@[simp] theorem execResume_keep (who : Initiator) (n : Fin 4) (v : Word) (s : State) :
    (outState (execResume who n v s) s).pending = s.pending ∧ (outState (execResume who n v s) s).sys.flash = s.sys.flash ∧ (outState (execResume who n v s) s).sys.session = s.sys.session ∧ (outState (execResume who n v s) s).pwr.mode = s.pwr.mode ∧ (outState (execResume who n v s) s).time.loc = s.time.loc ∧ (outState (execResume who n v s) s).cfg = s.cfg := by
  simp [execResume]

@[simp] theorem execDbgCcnBp_keep (who : Initiator) (n : Fin 4) (v : Word) (s : State) :
    Kept s (outState (execDbgCcnBp who n v s) s) := by
  simp [execDbgCcnBp]

@[simp] theorem execBpHit_keep (n : Fin 4) (s : State) :
    Kept s (outState (execBpHit n s) s) := by
  simp [execBpHit]

end Sys2Proof.Machine
end

