-- ==== Sys2Proof/Laws/KeepStart.lean ====
section
/-! SUPPORT. The plate, its checks, the start, staging, field and host commands: each operation leaves
the waiting commands, the plate flash, the staging session, the life-cycle counter and the power mode as they were, but
for those that Flash.lean, LifeCycle.lean and Mode.lean take up. -/

namespace Sys2Proof.Machine

/-! Plate.lean -/

@[simp] theorem flashPut_keep (a : Nat) (b : List Byte) (s : State) :
    (flashPut a b s).pending = s.pending ∧ (flashPut a b s).sys.session = s.sys.session ∧ (flashPut a b s).key.lcCount = s.key.lcCount ∧ (flashPut a b s).pwr.mode = s.pwr.mode ∧ (flashPut a b s).time.loc = s.time.loc ∧ (flashPut a b s).cfg = s.cfg := by
  simp [flashPut]

@[simp] theorem flashErase_keep (a n : Nat) (s : State) :
    (flashErase a n s).pending = s.pending ∧ (flashErase a n s).sys.session = s.sys.session ∧ (flashErase a n s).key.lcCount = s.key.lcCount ∧ (flashErase a n s).pwr.mode = s.pwr.mode ∧ (flashErase a n s).time.loc = s.time.loc ∧ (flashErase a n s).cfg = s.cfg := by
  simp [flashErase]

@[simp] theorem pageWrite_keep (copyB : Bool) (req result reason state : Nat) (digest : List Byte) (s : State) :
    (pageWrite copyB req result reason state digest s).pending = s.pending ∧ (pageWrite copyB req result reason state digest s).sys.session = s.sys.session ∧ (pageWrite copyB req result reason state digest s).key.lcCount = s.key.lcCount ∧ (pageWrite copyB req result reason state digest s).pwr.mode = s.pwr.mode ∧ (pageWrite copyB req result reason state digest s).time.loc = s.time.loc ∧ (pageWrite copyB req result reason state digest s).cfg = s.cfg := by
  simp [pageWrite]

@[simp] theorem pageOutcome_keep (result reason : Nat) (s : State) :
    (pageOutcome result reason s).pending = s.pending ∧ (pageOutcome result reason s).sys.session = s.sys.session ∧ (pageOutcome result reason s).key.lcCount = s.key.lcCount ∧ (pageOutcome result reason s).pwr.mode = s.pwr.mode ∧ (pageOutcome result reason s).time.loc = s.time.loc ∧ (pageOutcome result reason s).cfg = s.cfg := by
  simp only [pageOutcome]; (repeat' split) <;> simp

/-! Checks.lean -/

/-! Start.lean -/

@[simp] theorem keepCold_keep (s : State) :
    (keepCold s).pending = s.pending := by
  simp [keepCold]

@[simp] theorem keepWarm_keep (s : State) :
    (keepWarm s).pending = s.pending := by
  simp [keepWarm]

@[simp] theorem nextEra_keep (s : State) :
    Kept s (nextEra s) := by
  simp [nextEra]

@[simp] theorem startBegin_keep (c : Cause) (env : StartEnv) (s : State) :
    (startBegin c env s).pending = s.pending ∧ (startBegin c env s).sys.flash = s.sys.flash ∧ (startBegin c env s).sys.session = s.sys.session ∧ (startBegin c env s).key.lcCount = s.key.lcCount := by
  simp only [startBegin]; (repeat' split) <;> simp

@[simp] theorem setStage_keep (n : Nat) (s : State) :
    Kept s (setStage n s) := by
  simp [setStage]

@[simp] theorem startFail_keep (copy code : Nat) (s : State) :
    Kept s (startFail copy code s) := by
  simp [startFail]

@[simp] theorem startOver_keep (s : State) :
    Kept s (startOver s) := by
  simp [startOver]

@[simp] theorem startHalt_keep (s : State) :
    Kept s (startHalt s) := by
  simp [startHalt]

@[simp] theorem stagedFail_keep (st : Option Bool) (b : Bool) (code : Nat) (s : State) :
    (stagedFail st b code s).pending = s.pending ∧ (stagedFail st b code s).sys.session = s.sys.session ∧ (stagedFail st b code s).key.lcCount = s.key.lcCount ∧ (stagedFail st b code s).pwr.mode = s.pwr.mode ∧ (stagedFail st b code s).time.loc = s.time.loc ∧ (stagedFail st b code s).cfg = s.cfg := by
  simp [stagedFail]

@[simp] theorem earlyOnly_keep (b : Bool) (s : State) :
    Kept s (earlyOnly b s) := by
  simp [earlyOnly]

@[simp] theorem unitsEnable_keep (old : Cfg) (s : State) :
    Kept s (unitsEnable old s) := by
  simp [unitsEnable]

@[simp] theorem earlyEnter_keep (b fell quick : Bool) (h : List Byte) (bodies : List (Nat × List Byte)) (s : State) :
    (earlyEnter b fell quick h bodies s).pending = s.pending ∧ (earlyEnter b fell quick h bodies s).sys.flash = s.sys.flash ∧ (earlyEnter b fell quick h bodies s).sys.session = s.sys.session ∧ (earlyEnter b fell quick h bodies s).key.lcCount = s.key.lcCount ∧ (earlyEnter b fell quick h bodies s).pwr.mode = s.pwr.mode ∧ (earlyEnter b fell quick h bodies s).time.loc = s.time.loc := by
  simp [earlyEnter]

@[simp] theorem hostShow_keep (s : State) :
    Kept s (hostShow s) := by
  simp [hostShow]

@[simp] theorem groupsStart_keep (s : State) :
    Kept s (groupsStart s) := by
  simp [groupsStart]

@[simp] theorem fullLoad_keep (all : List Sec) (s : State) :
    (fullLoad all s).pending = s.pending ∧ (fullLoad all s).sys.flash = s.sys.flash ∧ (fullLoad all s).sys.session = s.sys.session ∧ (fullLoad all s).key.lcCount = s.key.lcCount ∧ (fullLoad all s).pwr.mode = s.pwr.mode ∧ (fullLoad all s).time.loc = s.time.loc := by
  simp [fullLoad]

@[simp] theorem fullUnits_keep (old : Cfg) (quick : Bool) (s : State) :
    Kept s (fullUnits old quick s) := by
  simp [fullUnits]

@[simp] theorem fullNote_keep (b : Bool) (h : List Byte) (s : State) :
    Kept s (fullNote b h s) := by
  simp [fullNote]

@[simp] theorem fullPage_keep (st : Option Bool) (b : Bool) (s : State) :
    (fullPage st b s).pending = s.pending ∧ (fullPage st b s).sys.session = s.sys.session ∧ (fullPage st b s).key.lcCount = s.key.lcCount ∧ (fullPage st b s).pwr.mode = s.pwr.mode ∧ (fullPage st b s).time.loc = s.time.loc ∧ (fullPage st b s).cfg = s.cfg := by
  simp [fullPage]

@[simp] theorem fullPolicy_keep (s : State) :
    Kept s (fullPolicy s) := by
  simp [fullPolicy]

@[simp] theorem fullEnter_keep (st : Option Bool) (b quick : Bool) (h : List Byte) (all : List Sec) (s : State) :
    (fullEnter st b quick h all s).pending = s.pending ∧ (fullEnter st b quick h all s).sys.session = s.sys.session ∧ (fullEnter st b quick h all s).key.lcCount = s.key.lcCount ∧ (fullEnter st b quick h all s).pwr.mode = s.pwr.mode ∧ (fullEnter st b quick h all s).time.loc = s.time.loc := by
  simp [fullEnter]

@[simp] theorem fullStage_keep (env : StartEnv) (st : Option Bool) (b quick : Bool) (s : State) :
    (fullStage env st b quick s).pending = s.pending ∧ (fullStage env st b quick s).sys.session = s.sys.session ∧ (fullStage env st b quick s).key.lcCount = s.key.lcCount ∧ (fullStage env st b quick s).pwr.mode = s.pwr.mode ∧ (fullStage env st b quick s).time.loc = s.time.loc := by
  simp [fullStage]

@[simp] theorem tryCopies_keep (env : StartEnv) (st : Option Bool) (x y : Bool) (l : List Bool) (s : State) : (tryCopies env st x y l s).pending = s.pending ∧ (tryCopies env st x y l s).sys.session = s.sys.session ∧ (tryCopies env st x y l s).key.lcCount = s.key.lcCount ∧ (tryCopies env st x y l s).pwr.mode = s.pwr.mode ∧ (tryCopies env st x y l s).time.loc = s.time.loc := by
  induction l generalizing s x y with
  | nil => simp [tryCopies]
  | cons b r ih => simp only [tryCopies]; (repeat' split) <;> simp [ih]

@[simp] theorem stagedCopy_keep (s : State) :
    (stagedCopy s).2.pending = s.pending ∧ (stagedCopy s).2.sys.session = s.sys.session ∧ (stagedCopy s).2.key.lcCount = s.key.lcCount ∧ (stagedCopy s).2.pwr.mode = s.pwr.mode ∧ (stagedCopy s).2.time.loc = s.time.loc ∧ (stagedCopy s).2.cfg = s.cfg := by
  simp only [stagedCopy]; (repeat' split) <;> simp

theorem stagedCopy_of {s : State} {rr} (h : stagedCopy s = rr) :
    rr.2.pending = s.pending ∧ rr.2.sys.session = s.sys.session ∧ rr.2.key.lcCount = s.key.lcCount ∧ rr.2.pwr.mode = s.pwr.mode ∧ rr.2.time.loc = s.time.loc ∧ rr.2.cfg = s.cfg := h ▸ stagedCopy_keep s

@[simp] theorem plateStart_keep (env : StartEnv) (sel : Nat) (s : State) :
    (plateStart env sel s).pending = s.pending ∧ (plateStart env sel s).sys.session = s.sys.session ∧ (plateStart env sel s).key.lcCount = s.key.lcCount ∧ (plateStart env sel s).pwr.mode = s.pwr.mode ∧ (plateStart env sel s).time.loc = s.time.loc := by
  simp [plateStart]

@[simp] theorem startGo_keep (env : StartEnv) (s : State) :
    (startGo env s).pending = s.pending ∧ (startGo env s).sys.session = s.sys.session ∧ (startGo env s).key.lcCount = s.key.lcCount ∧ (startGo env s).pwr.mode = s.pwr.mode ∧ (startGo env s).time.loc = s.time.loc := by
  simp [startGo]

@[simp] theorem tamperHold_keep (src : Nat) (s : State) :
    Kept s (tamperHold src s) := by
  simp [tamperHold]

@[simp] theorem startCheck_keep (env : StartEnv) (s : State) :
    (startCheck env s).pending = s.pending ∧ (startCheck env s).sys.session = s.sys.session ∧ (startCheck env s).key.lcCount = s.key.lcCount ∧ (startCheck env s).pwr.mode = s.pwr.mode ∧ (startCheck env s).time.loc = s.time.loc := by
  simp [startCheck]

@[simp] theorem startRead_keep (s : State) :
    Kept s (startRead s) := by
  simp [startRead]

@[simp] theorem execPowerOnReset_keep (env : StartEnv) (s : State) :
    (outState (execPowerOnReset env s) s).pending = s.pending := by
  simp [execPowerOnReset]

@[simp] theorem execWarmReset_keep (pin : Bool) (env : StartEnv) (s : State) :
    (outState (execWarmReset pin env s) s).pending = s.pending := by
  simp [execWarmReset]

@[simp] theorem execMramRetry_keep (s : State) :
    (outState (execMramRetry s) s).pending = s.pending ∧ (outState (execMramRetry s) s).sys.session = s.sys.session ∧ (outState (execMramRetry s) s).key.lcCount = s.key.lcCount ∧ (outState (execMramRetry s) s).pwr.mode = s.pwr.mode ∧ (outState (execMramRetry s) s).time.loc = s.time.loc := by
  simp only [execMramRetry]; (repeat' split) <;> simp

@[simp] theorem execStartRecordRetry_keep (s : State) :
    (outState (execStartRecordRetry s) s).pending = s.pending ∧ (outState (execStartRecordRetry s) s).sys.session = s.sys.session ∧ (outState (execStartRecordRetry s) s).key.lcCount = s.key.lcCount ∧ (outState (execStartRecordRetry s) s).pwr.mode = s.pwr.mode ∧ (outState (execStartRecordRetry s) s).time.loc = s.time.loc ∧ (outState (execStartRecordRetry s) s).cfg = s.cfg := by
  simp [execStartRecordRetry]

@[simp] theorem wakeGo_keep (env : StartEnv) (s : State) :
    (wakeGo env s).pending = s.pending ∧ (wakeGo env s).sys.session = s.sys.session ∧ (wakeGo env s).key.lcCount = s.key.lcCount ∧ (wakeGo env s).pwr.mode = s.pwr.mode ∧ (wakeGo env s).time.loc = s.time.loc := by
  simp [wakeGo]

@[simp] theorem execWakeStart_keep (env : StartEnv) (s : State) :
    (outState (execWakeStart env s) s).pending = s.pending := by
  simp [execWakeStart]

@[simp] theorem execStartWatchdog_keep (s : State) :
    (outState (execStartWatchdog s) s).pending = s.pending ∧ (outState (execStartWatchdog s) s).sys.session = s.sys.session ∧ (outState (execStartWatchdog s) s).key.lcCount = s.key.lcCount ∧ (outState (execStartWatchdog s) s).pwr.mode = s.pwr.mode ∧ (outState (execStartWatchdog s) s).time.loc = s.time.loc := by
  simp only [execStartWatchdog]; (repeat' split) <;> simp

@[simp] theorem execTamperHoldCleared_keep (env : StartEnv) (s : State) :
    (outState (execTamperHoldCleared env s) s).pending = s.pending ∧ (outState (execTamperHoldCleared env s) s).sys.session = s.sys.session ∧ (outState (execTamperHoldCleared env s) s).key.lcCount = s.key.lcCount ∧ (outState (execTamperHoldCleared env s) s).pwr.mode = s.pwr.mode ∧ (outState (execTamperHoldCleared env s) s).time.loc = s.time.loc := by
  simp [execTamperHoldCleared]

@[simp] theorem execSuppliesRemoved_keep (s : State) :
    (outState (execSuppliesRemoved s) s).pending = s.pending := by
  simp [execSuppliesRemoved]

/-! Staging.lean -/

@[simp] theorem stageStatus_keep (st : Status) (s : State) :
    Kept s (stageStatus st s) := by
  simp [stageStatus]

@[simp] theorem stageBusy_keep (cmd : Nat) (st : Status) (code : Nat) (s : State) :
    Kept s (stageBusy cmd st code s) := by
  simp [stageBusy]

@[simp] theorem sessionShow_keep (x : Option Session) (s : State) :
    (sessionShow x s).pending = s.pending ∧ (sessionShow x s).sys.flash = s.sys.flash ∧ (sessionShow x s).key.lcCount = s.key.lcCount ∧ (sessionShow x s).pwr.mode = s.pwr.mode ∧ (sessionShow x s).time.loc = s.time.loc ∧ (sessionShow x s).cfg = s.cfg := by
  simp only [sessionShow]; (repeat' split) <;> simp

@[simp] theorem stageOpened_keep (c : Bool) (P : Nat) (s : State) :
    (stageOpened c P s).pending = s.pending ∧ (stageOpened c P s).key.lcCount = s.key.lcCount ∧ (stageOpened c P s).pwr.mode = s.pwr.mode ∧ (stageOpened c P s).time.loc = s.time.loc ∧ (stageOpened c P s).cfg = s.cfg := by
  simp [stageOpened]

@[simp] theorem stageOpen_keep (copyB : Bool) (s : State) :
    (stageOpen copyB s).pending = s.pending ∧ (stageOpen copyB s).key.lcCount = s.key.lcCount ∧ (stageOpen copyB s).pwr.mode = s.pwr.mode ∧ (stageOpen copyB s).time.loc = s.time.loc ∧ (stageOpen copyB s).cfg = s.cfg := by
  simp [stageOpen]

@[simp] theorem stageWriteCmd_keep (s : State) :
    (stageWriteCmd s).pending = s.pending ∧ (stageWriteCmd s).key.lcCount = s.key.lcCount ∧ (stageWriteCmd s).pwr.mode = s.pwr.mode ∧ (stageWriteCmd s).time.loc = s.time.loc ∧ (stageWriteCmd s).cfg = s.cfg := by
  simp only [stageWriteCmd]; (repeat' split) <;> simp

@[simp] theorem stageClose_keep (s : State) :
    Kept s (stageClose s) := by
  simp only [stageClose]; (repeat' split) <;> simp

@[simp] theorem stageAbort_keep (s : State) :
    (stageAbort s).pending = s.pending ∧ (stageAbort s).sys.flash = s.sys.flash ∧ (stageAbort s).key.lcCount = s.key.lcCount ∧ (stageAbort s).pwr.mode = s.pwr.mode ∧ (stageAbort s).time.loc = s.time.loc ∧ (stageAbort s).cfg = s.cfg := by
  simp only [stageAbort]; (repeat' split) <;> simp

@[simp] theorem recoverBegin_keep (s : State) :
    (recoverBegin s).pending = s.pending ∧ (recoverBegin s).sys.flash = s.sys.flash ∧ (recoverBegin s).key.lcCount = s.key.lcCount ∧ (recoverBegin s).pwr.mode = s.pwr.mode ∧ (recoverBegin s).time.loc = s.time.loc := by
  simp [recoverBegin]

@[simp] theorem stageRecover_keep (env : StartEnv) (s : State) :
    (stageRecover env s).pending = s.pending ∧ (stageRecover env s).key.lcCount = s.key.lcCount ∧ (stageRecover env s).pwr.mode = s.pwr.mode ∧ (stageRecover env s).time.loc = s.time.loc := by
  simp [stageRecover]

@[simp] theorem stageCommand_pending (who : Initiator) (f : State → State) (s : State) (h : (f s).pending = s.pending) : (stageCommand who f s).2.pending = s.pending := by
  simp only [stageCommand]; (repeat' split) <;> simp [h]
@[simp] theorem stageCommand_sys_flash (who : Initiator) (f : State → State) (s : State) (h : (f s).sys.flash = s.sys.flash) : (stageCommand who f s).2.sys.flash = s.sys.flash := by
  simp only [stageCommand]; (repeat' split) <;> simp [h]
@[simp] theorem stageCommand_sys_session (who : Initiator) (f : State → State) (s : State) (h : (f s).sys.session = s.sys.session) : (stageCommand who f s).2.sys.session = s.sys.session := by
  simp only [stageCommand]; (repeat' split) <;> simp [h]
@[simp] theorem stageCommand_key_lcCount (who : Initiator) (f : State → State) (s : State) (h : (f s).key.lcCount = s.key.lcCount) : (stageCommand who f s).2.key.lcCount = s.key.lcCount := by
  simp only [stageCommand]; (repeat' split) <;> simp [h]
@[simp] theorem stageCommand_pwr_mode (who : Initiator) (f : State → State) (s : State) (h : (f s).pwr.mode = s.pwr.mode) : (stageCommand who f s).2.pwr.mode = s.pwr.mode := by
  simp only [stageCommand]; (repeat' split) <;> simp [h]
@[simp] theorem stageCommand_time_loc (who : Initiator) (f : State → State) (s : State) (h : (f s).time.loc = s.time.loc) : (stageCommand who f s).2.time.loc = s.time.loc := by
  simp only [stageCommand]; (repeat' split) <;> simp [h]
@[simp] theorem stageCommand_cfg (who : Initiator) (f : State → State) (s : State) (h : (f s).cfg = s.cfg) : (stageCommand who f s).2.cfg = s.cfg := by
  simp only [stageCommand]; (repeat' split) <;> simp [h]
@[simp] theorem execOpen_keep (who : Iface) (copyB : Bool) (s : State) :
    (outState (execOpen who copyB s) s).pending = s.pending ∧ (outState (execOpen who copyB s) s).key.lcCount = s.key.lcCount ∧ (outState (execOpen who copyB s) s).pwr.mode = s.pwr.mode ∧ (outState (execOpen who copyB s) s).time.loc = s.time.loc ∧ (outState (execOpen who copyB s) s).cfg = s.cfg := by
  simp [execOpen]

@[simp] theorem execStageWrite_keep (who : Iface) (s : State) :
    (outState (execStageWrite who s) s).pending = s.pending ∧ (outState (execStageWrite who s) s).key.lcCount = s.key.lcCount ∧ (outState (execStageWrite who s) s).pwr.mode = s.pwr.mode ∧ (outState (execStageWrite who s) s).time.loc = s.time.loc ∧ (outState (execStageWrite who s) s).cfg = s.cfg := by
  simp [execStageWrite]

@[simp] theorem execClose_keep (who : Iface) (s : State) :
    Kept s (outState (execClose who s) s) := by
  simp [execClose]

@[simp] theorem execAbort_keep (who : Iface) (s : State) :
    (outState (execAbort who s) s).pending = s.pending ∧ (outState (execAbort who s) s).sys.flash = s.sys.flash ∧ (outState (execAbort who s) s).key.lcCount = s.key.lcCount ∧ (outState (execAbort who s) s).pwr.mode = s.pwr.mode ∧ (outState (execAbort who s) s).time.loc = s.time.loc ∧ (outState (execAbort who s) s).cfg = s.cfg := by
  simp [execAbort]

@[simp] theorem execRecoverStart_keep (who : Iface) (env : StartEnv) (s : State) :
    (outState (execRecoverStart who env s) s).pending = s.pending ∧ (outState (execRecoverStart who env s) s).key.lcCount = s.key.lcCount ∧ (outState (execRecoverStart who env s) s).pwr.mode = s.pwr.mode ∧ (outState (execRecoverStart who env s) s).time.loc = s.time.loc := by
  simp [execRecoverStart]

@[simp] theorem recoverEnv_keep (s : State) :
    Kept s ((recoverEnv s).2) := by
  simp [recoverEnv]

theorem recoverEnv_of {s : State} {rr} (h : recoverEnv s = rr) :
    Kept s rr.2 := h ▸ recoverEnv_keep s

@[simp] theorem stageCtrlWrite_keep (who : Initiator) (v : Nat) (s : State) :
    (stageCtrlWrite who v s).2.pending = s.pending ∧ (stageCtrlWrite who v s).2.key.lcCount = s.key.lcCount ∧ (stageCtrlWrite who v s).2.pwr.mode = s.pwr.mode ∧ (stageCtrlWrite who v s).2.time.loc = s.time.loc := by
  simp only [stageCtrlWrite]; (repeat' split) <;> simp

theorem stageCtrlWrite_of {who : Initiator} {v : Nat} {s : State} {rr} (h : stageCtrlWrite who v s = rr) :
    rr.2.pending = s.pending ∧ rr.2.key.lcCount = s.key.lcCount ∧ rr.2.pwr.mode = s.pwr.mode ∧ rr.2.time.loc = s.time.loc := h ▸ stageCtrlWrite_keep who v s

@[simp] theorem closeEnd_keep (st code : Nat) (s : State) :
    (closeEnd st code s).pending = s.pending ∧ (closeEnd st code s).key.lcCount = s.key.lcCount ∧ (closeEnd st code s).pwr.mode = s.pwr.mode ∧ (closeEnd st code s).time.loc = s.time.loc ∧ (closeEnd st code s).cfg = s.cfg := by
  simp only [closeEnd]; (repeat' split) <;> simp

@[simp] theorem execStageCommandDone_keep (s : State) :
    (outState (execStageCommandDone s) s).pending = s.pending ∧ (outState (execStageCommandDone s) s).key.lcCount = s.key.lcCount ∧ (outState (execStageCommandDone s) s).pwr.mode = s.pwr.mode ∧ (outState (execStageCommandDone s) s).time.loc = s.time.loc ∧ (outState (execStageCommandDone s) s).cfg = s.cfg := by
  simp only [execStageCommandDone]; (repeat' split) <;> simp

@[simp] theorem domLost_keep (d : Domain) (s : State) :
    Kept s (domLost d s) := by
  simp only [domLost]; (repeat' split) <;> simp

@[simp] theorem execDomainReset_keep (d : Domain) (s : State) :
    Kept s (outState (execDomainReset d s) s) := by
  simp [execDomainReset]

@[simp] theorem domEnable_keep (d : Domain) (s : State) :
    Kept s (domEnable d s) := by
  simp only [domEnable]; (repeat' split) <;> simp

@[simp] theorem execDomainReloadDone_keep (d : Domain) (s : State) :
    Kept s (outState (execDomainReloadDone d s) s) := by
  simp [execDomainReloadDone]

@[simp] theorem execEngineReload_keep (e : Fin 16) (s : State) :
    Kept s (outState (execEngineReload e s) s) := by
  simp only [execEngineReload]; (repeat' split) <;> simp

@[simp] theorem execCoreReload_keep (core : Fin 4) (testOk : Bool) (s : State) :
    Kept s (outState (execCoreReload core testOk s) s) := by
  simp [execCoreReload]

@[simp] theorem restoreEntry_keep (x : Nat × Nat × Nat) (s : State) :
    Kept s (restoreEntry x s) := by
  simp only [restoreEntry]; (repeat' split) <;> simp

@[simp] theorem execRestore_keep (s : State) :
    Kept s (outState (execRestore s) s) := by
  simp [execRestore]

@[simp] theorem diagRun_keep (rsp : Nat) (req : List Byte) (s : State) :
    Kept s ((diagRun rsp req s).2) := by
  simp only [diagRun]; (repeat' split) <;> simp

theorem diagRun_of {rsp : Nat} {req : List Byte} {s : State} {rr} (h : diagRun rsp req s = rr) :
    Kept s rr.2 := h ▸ diagRun_keep rsp req s

@[simp] theorem execDiagnosticRead_keep (pdu : Fin 8192) (req : List Byte) (s : State) :
    Kept s (outState (execDiagnosticRead pdu req s) s) := by
  simp only [execDiagnosticRead, guardWf]; (repeat' split) <;> simp

/-! FieldCommands.lean -/

@[simp] theorem execCanFrameReceived_keep (ch : Fin 96) (r : CanRx) (s : State) :
    Kept s (outState (execCanFrameReceived ch r s) s) := by
  simp [execCanFrameReceived, guardWf]

@[simp] theorem execLinWake_keep (ch : Fin 32) (us : Nat) (s : State) :
    Kept s (outState (execLinWake ch us s) s) := by
  simp [execLinWake]

@[simp] theorem execWakePattern_keep (sg : Fin 16) (pat : WakeBurst) (s : State) :
    Kept s (outState (execWakePattern sg pat s) s) := by
  simp only [execWakePattern]; (repeat' split) <;> simp

@[simp] theorem wakeOnLink_keep (port : Nat) (s : State) :
    Kept s (wakeOnLink port s) := by
  simp only [wakeOnLink]; (repeat' split) <;> simp

@[simp] theorem execLinkChange_keep (port : Fin 16) (up : Bool) (speed : Option (Fin 5)) (s : State) :
    Kept s (outState (execLinkChange port up speed s) s) := by
  simp only [execLinkChange]; (repeat' split) <;> simp

/-! HostCmd.lean -/

@[simp] theorem regWrite_keep (who : Initiator) (a v en : Nat) (s : State) :
    (regWrite who a v en s).2.pending = s.pending ∧ (regWrite who a v en s).2.pwr.mode = s.pwr.mode ∧ (regWrite who a v en s).2.time.loc = s.time.loc := by
  simp [regWrite]

theorem regWrite_of {who : Initiator} {a : Nat} {v : Nat} {en : Nat} {s : State} {rr} (h : regWrite who a v en s = rr) :
    rr.2.pending = s.pending ∧ rr.2.pwr.mode = s.pwr.mode ∧ rr.2.time.loc = s.time.loc := h ▸ regWrite_keep who a v en s

@[simp] theorem alignedWrite_pending (who : Initiator) (ok : Bool) (addr : Nat) (f : State → Status × State) (s : State) (h : (f s).2.pending = s.pending) : (alignedWrite who ok addr f s).pending = s.pending := by
  simp only [alignedWrite]; (repeat' split) <;> simp [h]
@[simp] theorem alignedWrite_sys_flash (who : Initiator) (ok : Bool) (addr : Nat) (f : State → Status × State) (s : State) (h : (f s).2.sys.flash = s.sys.flash) : (alignedWrite who ok addr f s).sys.flash = s.sys.flash := by
  simp only [alignedWrite]; (repeat' split) <;> simp [h]
@[simp] theorem alignedWrite_sys_session (who : Initiator) (ok : Bool) (addr : Nat) (f : State → Status × State) (s : State) (h : (f s).2.sys.session = s.sys.session) : (alignedWrite who ok addr f s).sys.session = s.sys.session := by
  simp only [alignedWrite]; (repeat' split) <;> simp [h]
@[simp] theorem alignedWrite_key_lcCount (who : Initiator) (ok : Bool) (addr : Nat) (f : State → Status × State) (s : State) (h : (f s).2.key.lcCount = s.key.lcCount) : (alignedWrite who ok addr f s).key.lcCount = s.key.lcCount := by
  simp only [alignedWrite]; (repeat' split) <;> simp [h]
@[simp] theorem alignedWrite_pwr_mode (who : Initiator) (ok : Bool) (addr : Nat) (f : State → Status × State) (s : State) (h : (f s).2.pwr.mode = s.pwr.mode) : (alignedWrite who ok addr f s).pwr.mode = s.pwr.mode := by
  simp only [alignedWrite]; (repeat' split) <;> simp [h]
@[simp] theorem alignedWrite_time_loc (who : Initiator) (ok : Bool) (addr : Nat) (f : State → Status × State) (s : State) (h : (f s).2.time.loc = s.time.loc) : (alignedWrite who ok addr f s).time.loc = s.time.loc := by
  simp only [alignedWrite]; (repeat' split) <;> simp [h]
@[simp] theorem alignedWrite_cfg (who : Initiator) (ok : Bool) (addr : Nat) (f : State → Status × State) (s : State) (h : (f s).2.cfg = s.cfg) : (alignedWrite who ok addr f s).cfg = s.cfg := by
  simp only [alignedWrite]; (repeat' split) <;> simp [h]
@[simp] theorem execRegisterWrite_keep (who : Initiator) (addr : Nat) (v : Word) (en : BitVec 4) (s : State) :
    (outState (execRegisterWrite who addr v en s) s).pending = s.pending ∧ (outState (execRegisterWrite who addr v en s) s).pwr.mode = s.pwr.mode ∧ (outState (execRegisterWrite who addr v en s) s).time.loc = s.time.loc := by
  simp [execRegisterWrite]

@[simp] theorem wordWrite_keep (who : Initiator) (a v : Nat) (s : State) :
    (wordWrite who a v s).2.pending = s.pending ∧ (wordWrite who a v s).2.pwr.mode = s.pwr.mode ∧ (wordWrite who a v s).2.time.loc = s.time.loc := by
  simp only [wordWrite]; (repeat' split) <;> simp

@[simp] theorem wordsWrite_keep (who : Initiator) (a : Nat) (b : List Byte) (s : State) :
    (wordsWrite who a b s).2.pending = s.pending ∧ (wordsWrite who a b s).2.pwr.mode = s.pwr.mode ∧ (wordsWrite who a b s).2.time.loc = s.time.loc := by
  simp [wordsWrite]

theorem wordsWrite_of {who : Initiator} {a : Nat} {b : List Byte} {s : State} {rr} (h : wordsWrite who a b s = rr) :
    rr.2.pending = s.pending ∧ rr.2.pwr.mode = s.pwr.mode ∧ rr.2.time.loc = s.time.loc := h ▸ wordsWrite_keep who a b s

@[simp] theorem execWriteApplied_keep (s : State) :
    (outState (execWriteApplied s) s).pending = s.pending ∧ (outState (execWriteApplied s) s).pwr.mode = s.pwr.mode ∧ (outState (execWriteApplied s) s).time.loc = s.time.loc := by
  simp only [execWriteApplied]; (repeat' split) <;> simp

end Sys2Proof.Machine
end

