-- ==== Sys2Proof/Laws/Tables.lean ====
section
/-! SUPPORT. The laws of sparse tables: what a read gives after each operation, and that each keeps the canonical form. -/

namespace Sys2Proof.Machine

/-- Every key of a table lies above k. -/
def tabove {α : Type} (k : Nat) (t : Tbl α) : Prop := ∀ e ∈ t, k < e.1

theorem tsorted_cons {α : Type} (j : Nat) (u : α) (r : Tbl α) :
    tsorted ((j, u) :: r) = true ↔ tabove j r ∧ tsorted r = true := by
  simp [tsorted, tabove]

theorem tget_tabove {α : Type} (d : α) (k : Nat) (t : Tbl α) (h : tabove k t) : tget d t k = d := by
  induction t with
  | nil => rfl
  | cons e r ih =>
    obtain ⟨j, v⟩ := e
    have hj : k < j := h (j, v) (by simp)
    simp only [tget]
    rw [if_neg (by omega)]
    exact ih fun e he => h e (by simp [he])

/-- A read gives what was put, and leaves every other key alone. -/
theorem tget_tput {α : Type} (d : α) (t : Tbl α) (k j : Nat) (v : α) :
    tget d (tput t k v) j = if j = k then v else tget d t j := by
  induction t with
  | nil => simp [tput, tget, eq_comm]
  | cons e r ih =>
    obtain ⟨i, u⟩ := e
    simp only [tput]
    grind [tget]

@[simp] theorem tget_tput_same {α : Type} (d : α) (t : Tbl α) (k : Nat) (v : α) : tget d (tput t k v) k = v := by
  simp [tget_tput]

theorem tget_tput_ne {α : Type} (d : α) (t : Tbl α) (k j : Nat) (v : α) (h : j ≠ k) : tget d (tput t k v) j = tget d t j := by
  simp [tget_tput, h]

theorem tabove_terase {α : Type} (t : Tbl α) (k j : Nat) (h : tabove j t) : tabove j (terase t k) := by
  induction t with
  | nil => simpa [terase] using h
  | cons e r ih =>
    obtain ⟨i, u⟩ := e
    simp only [terase]
    split
    · exact fun e he => h e (by simp [he])
    · intro e he
      rcases List.mem_cons.1 he with rfl | he
      · exact h _ (by simp)
      · exact ih (fun e he => h e (by simp [he])) e he

theorem tabove_tput {α : Type} (t : Tbl α) (k j : Nat) (v : α) (h : tabove j t) (hk : j < k) : tabove j (tput t k v) := by
  induction t with
  | nil => intro e he; simp [tput] at he; simp [he, hk]
  | cons e r ih =>
    obtain ⟨i, u⟩ := e
    simp only [tput]
    have hr : tabove j r := fun e he => h e (by simp [he])
    have hi : j < i := h (i, u) (by simp)
    split
    · intro e he; rcases List.mem_cons.1 he with rfl | he
      · exact hk
      · exact h e he
    · split
      · intro e he; rcases List.mem_cons.1 he with rfl | he
        · exact hk
        · exact hr e he
      · intro e he; rcases List.mem_cons.1 he with rfl | he
        · exact hi
        · exact ih hr e he

theorem tsorted_terase {α : Type} (t : Tbl α) (k : Nat) (h : tsorted t = true) : tsorted (terase t k) = true := by
  induction t with
  | nil => rfl
  | cons e r ih =>
    obtain ⟨i, u⟩ := e
    rw [tsorted_cons] at h
    simp only [terase]
    split
    · exact h.2
    · rw [tsorted_cons]; exact ⟨tabove_terase r k i h.1, ih h.2⟩

theorem tsorted_tput {α : Type} (t : Tbl α) (k : Nat) (v : α) (h : tsorted t = true) : tsorted (tput t k v) = true := by
  induction t with
  | nil => simp [tput, tsorted]
  | cons e r ih =>
    obtain ⟨i, u⟩ := e
    have h' := (tsorted_cons i u r).1 h
    simp only [tput]
    split
    · rw [tsorted_cons]
      refine ⟨fun e he => ?_, h⟩
      rcases List.mem_cons.1 he with rfl | he
      · assumption
      · exact Nat.lt_trans (by assumption) (h'.1 e he)
    · split
      · subst_vars; rw [tsorted_cons]; exact h'
      · rw [tsorted_cons]; exact ⟨tabove_tput r k i v h'.1 (by omega), ih h'.2⟩

/-- In a table with rising keys, an erased key reads the default and every other key as before. -/
theorem tget_terase {α : Type} (d : α) (t : Tbl α) (k j : Nat) (h : tsorted t = true) :
    tget d (terase t k) j = if j = k then d else tget d t j := by
  induction t with
  | nil => simp [terase, tget]
  | cons e r ih =>
    obtain ⟨i, u⟩ := e
    have h' := (tsorted_cons i u r).1 h
    simp only [terase]
    split
    · subst_vars
      simp only [tget]
      split
      · subst_vars; simpa using tget_tabove d _ r h'.1
      · split
        · omega
        · rfl
    · simp only [tget, ih h'.2]
      repeat' split
      all_goals first | rfl | omega

theorem tget_terase_ne {α : Type} (d : α) (t : Tbl α) (k j : Nat) (h : j ≠ k) : tget d (terase t k) j = tget d t j := by
  induction t with
  | nil => rfl
  | cons e r ih =>
    obtain ⟨i, u⟩ := e
    simp only [terase]
    split
    · subst_vars; simp only [tget]; rw [if_neg (fun e => h e.symm)]
    · simp only [tget, ih]

theorem tget_tset_ne {α : Type} [DecidableEq α] (d : α) (t : Tbl α) (k j : Nat) (v : α) (h : j ≠ k) :
    tget d (tset d t k v) j = tget d t j := by
  unfold tset; split
  · exact tget_terase_ne d t k j h
  · exact tget_tput_ne d t k j v h

/-- A read after a write to the same key gives the value written. -/
theorem tget_tset_same {α : Type} [DecidableEq α] (d : α) (t : Tbl α) (k : Nat) (v : α) (h : tsorted t = true) :
    tget d (tset d t k v) k = v := by
  unfold tset; split
  · subst_vars; simp [tget_terase _ _ _ _ h]
  · simp

theorem twf_cons {α : Type} [DecidableEq α] (d : α) (e : Nat × α) (r : Tbl α) :
    twf d (e :: r) = true ↔ tabove e.1 r ∧ e.2 ≠ d ∧ twf d r = true := by
  obtain ⟨j, u⟩ := e
  simp only [twf, Bool.and_eq_true, tsorted_cons, List.all_cons, decide_eq_true_eq]
  constructor
  · rintro ⟨⟨a, b⟩, c, e⟩; exact ⟨a, c, b, e⟩
  · rintro ⟨a, c, b, e⟩; exact ⟨⟨a, b⟩, c, e⟩

theorem all_terase {α : Type} (p : Nat × α → Bool) (t : Tbl α) (k : Nat) (h : t.all p = true) : (terase t k).all p = true := by
  induction t with
  | nil => rfl
  | cons e r ih =>
    obtain ⟨i, u⟩ := e
    simp only [List.all_cons, Bool.and_eq_true] at h
    simp only [terase]; split
    · exact h.2
    · simp [h.1, ih h.2]

theorem all_tput {α : Type} (p : Nat × α → Bool) (t : Tbl α) (k : Nat) (v : α) (h : t.all p = true) (hv : p (k, v) = true) :
    (tput t k v).all p = true := by
  induction t with
  | nil => simp [tput, hv]
  | cons e r ih =>
    obtain ⟨i, u⟩ := e
    have h' := h
    simp only [List.all_cons, Bool.and_eq_true] at h
    simp only [tput]; split
    · simp only [List.all_cons, Bool.and_eq_true]; exact ⟨hv, h⟩
    · split
      · simp [hv, h.2]
      · simp [h.1, ih h.2]

/-- A write keeps the canonical form. -/
theorem twf_tset {α : Type} [DecidableEq α] (d : α) (t : Tbl α) (k : Nat) (v : α) (h : twf d t = true) :
    twf d (tset d t k v) = true := by
  simp only [twf, Bool.and_eq_true] at h ⊢
  unfold tset; split
  · exact ⟨tsorted_terase t k h.1, all_terase _ t k h.2⟩
  · exact ⟨tsorted_tput t k v h.1, all_tput _ t k v h.2 (by simpa)⟩

theorem tabove_filter {α : Type} (k : Nat) (t : Tbl α) (p : Nat → α → Bool) (h : tabove k t) : tabove k (tfilter p t) :=
  fun e he => h e (List.mem_filter.1 he).1

/-- Dropping entries keeps the canonical form. -/
theorem twf_tfilter {α : Type} [DecidableEq α] (d : α) (t : Tbl α) (p : Nat → α → Bool) (h : twf d t = true) :
    twf d (tfilter p t) = true := by
  induction t with
  | nil => rfl
  | cons e r ih =>
    rw [twf_cons] at h
    simp only [tfilter, List.filter_cons]
    split
    · rw [twf_cons]; exact ⟨tabove_filter _ r p h.1, h.2.1, ih h.2.2⟩
    · exact ih h.2.2

/-- A key whose entries all stay reads as before. -/
theorem tget_tfilter_keep {α : Type} (d : α) (t : Tbl α) (p : Nat → α → Bool) (k : Nat) (h : ∀ v, p k v = true) :
    tget d (tfilter p t) k = tget d t k := by
  induction t with
  | nil => rfl
  | cons e r ih =>
    obtain ⟨i, u⟩ := e
    simp only [tfilter, List.filter_cons] at ih ⊢
    by_cases hi : i = k
    · subst hi; simp [h, tget]
    · split
      · simp only [tget, if_neg hi]; exact ih
      · simp only [tget, if_neg hi]; exact ih

/-- A key none of whose entries stay reads the default. -/
theorem tget_tfilter_drop {α : Type} (d : α) (t : Tbl α) (p : Nat → α → Bool) (k : Nat) (h : ∀ v, p k v = false) :
    tget d (tfilter p t) k = d := by
  induction t with
  | nil => rfl
  | cons e r ih =>
    obtain ⟨i, u⟩ := e
    simp only [tfilter, List.filter_cons] at ih ⊢
    by_cases hi : i = k
    · subst hi; simpa [h] using ih
    · split
      · simp only [tget, if_neg hi]; exact ih
      · exact ih

end Sys2Proof.Machine
end

