-- ==== Sys2Proof/Laws/Flash.lean ====
section
/-! SUPPORT. The operations that write the plate flash or change the staging session (R66–R70): each keeps the session
within a copy, the flash table canonical, and every byte outside copy A, copy B and the staging page. -/

namespace Sys2Proof.Machine

/-- From f to g a canonical table stays canonical, and every byte outside the staged regions reads as before. -/
def FlashOk (f g : Tbl Byte) : Prop := (twf 0xFF f = true → twf 0xFF g = true) ∧ ∀ a, ¬ Stageable a → tget 0xFF g a = tget 0xFF f a

theorem FlashOk.refl (f : Tbl Byte) : FlashOk f f := ⟨id, fun _ _ => rfl⟩

theorem FlashOk.trans {f g h : Tbl Byte} (a : FlashOk f g) (b : FlashOk g h) : FlashOk f h :=
  ⟨fun x => b.1 (a.1 x), fun x hx => (b.2 x hx).trans (a.2 x hx)⟩
/-- With a session that fits, t has a session that fits and a flash changed only in the staged regions. -/
structure FlashStep (s t : State) : Prop where
  ok : SessionOk s.sys.session → (SessionOk t.sys.session ∧ FlashOk s.sys.flash t.sys.flash)

theorem FlashStep.of (s t : State) (h : t.sys.session = s.sys.session) (h2 : t.sys.flash = s.sys.flash) : FlashStep s t := by
  refine ⟨fun k => ?_⟩; rw [h, h2]; exact ⟨k, FlashOk.refl _⟩

theorem FlashStep.trans {s t u : State} (a : FlashStep s t) (b : FlashStep t u) : FlashStep s u := ⟨fun k => ⟨(b.ok (a.ok k).1).1, (a.ok k).2.trans (b.ok (a.ok k).1).2⟩⟩

theorem FlashStep.refl (s : State) : FlashStep s s := FlashStep.of s s rfl rfl

theorem FlashStep.eqTo {s t u : State} (a : FlashStep s t) (h : u.sys.session = t.sys.session) (h2 : u.sys.flash = t.sys.flash) : FlashStep s u := a.trans (FlashStep.of t u h h2)

theorem put_ok (b : List Byte) (a : Nat) (n : Nat) (t : Tbl Byte) (h : ∀ k, k < n → Stageable (a + k)) :
    FlashOk t ((List.range n).foldl (fun t k => tset 0xFF t (a + k) (BitVec.ofNat 8 (byteAt b k))) t) := by
  induction n with
  | zero => exact FlashOk.refl _
  | succ n ih =>
    rw [List.range_succ, List.foldl_append]
    refine (ih fun k hk => h k (by omega)).trans ⟨fun w => twf_tset _ _ _ _ w, fun x hx => ?_⟩
    exact tget_tset_ne _ _ _ _ _ (fun e => hx (e ▸ h n (by omega)))

theorem flashPut_flash (a : Nat) (b : List Byte) (s : State) (h : ∀ k, k < b.length → Stageable (a + k)) : FlashStep s (flashPut a b s) :=
  ⟨fun k => ⟨k, put_ok b a _ _ h⟩⟩

theorem flashErase_flash (a n : Nat) (s : State) (h : ∀ k, a ≤ k → k < a + n → Stageable k) : FlashStep s (flashErase a n s) := by
  simp only [flashErase]
  refine ⟨fun k => ⟨k, fun w => twf_tfilter 0xFF s.sys.flash (fun k _ => decide (k < a) || decide (a + n ≤ k)) w, fun x hx => ?_⟩⟩
  refine tget_tfilter_keep 0xFF s.sys.flash (fun k _ => decide (k < a) || decide (a + n ≤ k)) x fun _ => ?_
  simp only [Bool.or_eq_true, decide_eq_true_eq]
  by_cases h1 : x < a
  · exact .inl h1
  · by_cases h2 : a + n ≤ x
    · exact .inr h2
    · exact absurd (h x (by omega) (by omega)) hx

theorem leBytes_length (n v : Nat) : (leBytes n v).length = n := by
  induction n generalizing v with
  | zero => rfl
  | succ n ih => simp [leBytes, ih]

theorem slice_length (l : List Byte) (i n : Nat) : (slice l i n).length = n := by simp [slice]

theorem pageBytes_length (q : Nat) (c : Bool) (a b d e : Nat) (g : List Byte) : (pageBytes q c a b d e g).length = 52 := by
  simp [pageBytes, leBytes_length, slice_length, ofNats]

theorem pageWrite_flash (c : Bool) (a b d e : Nat) (g : List Byte) (s : State) : FlashStep s (pageWrite c a b d e g s) := by
  obtain ⟨q, hq⟩ : ∃ q, pageWrite c a b d e g s = wrB F.SYS_STAGE_STAT_PENDING (a == 1)
    (flashPut pageBase (pageBytes q c a b d e g) (flashErase pageBase 4096 s)) := ⟨_, rfl⟩
  rw [hq]
  refine FlashStep.trans (flashErase_flash pageBase 4096 s ?_) (FlashStep.trans (flashPut_flash pageBase (pageBytes q c a b d e g) _ ?_) (FlashStep.of _ _ ?_ ?_))
  · intro k; unfold Stageable pageBase; omega
  · intro k hk; simp [pageBytes_length] at hk; unfold Stageable pageBase; omega
  · simp
  · simp

theorem pageOutcome_flash (a b : Nat) (s : State) : FlashStep s (pageOutcome a b s) := by
  unfold pageOutcome; split
  · exact FlashStep.refl _
  · exact pageWrite_flash ..

theorem stagedFail_flash (st : Option Bool) (b : Bool) (c : Nat) (s : State) : FlashStep s (stagedFail st b c s) := by
  unfold stagedFail; split
  · exact pageOutcome_flash ..
  · exact FlashStep.refl _

theorem stagedCopy_flash (s : State) : FlashStep s (stagedCopy s).2 := by
  unfold stagedCopy; split
  · exact FlashStep.refl _
  · split
    · exact pageOutcome_flash ..
    · exact FlashStep.refl _

theorem fullPage_flash (st : Option Bool) (b : Bool) (s : State) : FlashStep s (fullPage st b s) := by
  unfold fullPage; split
  · split
    · exact FlashStep.of _ _ rfl rfl
    · exact pageOutcome_flash ..
  · exact FlashStep.refl _

theorem fullEnter_flash (st : Option Bool) (b q : Bool) (h : List Byte) (l : List Sec) (s : State) : FlashStep s (fullEnter st b q h l s) := by
  unfold fullEnter
  exact FlashStep.trans (FlashStep.of _ _ (by simp) (by simp)) (FlashStep.trans (fullPage_flash st b (fullNote b h (fullUnits s.cfg q (fullLoad l s)))) (FlashStep.of _ _ (by simp) (by simp)))

theorem fullStage_flash (env : StartEnv) (st : Option Bool) (b q : Bool) (s : State) : FlashStep s (fullStage env st b q s) := by
  have e (c : Nat) (t : State) (h : FlashStep s t) : FlashStep s (earlyOnly b (stagedFail st b c (startFail (b2n b) c t))) :=
    FlashStep.trans h (FlashStep.trans (FlashStep.of _ (startFail (b2n b) c t) (by simp) (by simp)) (FlashStep.trans (stagedFail_flash st b c _) (FlashStep.of _ _ (by simp) (by simp))))
  simp only [fullStage]
  repeat' split
  · exact FlashStep.of _ _ (by simp) (by simp)
  · exact e _ _ (FlashStep.of _ _ (by simp) (by simp))
  · exact e _ _ (FlashStep.of _ _ (by simp) (by simp))
  · exact FlashStep.trans (FlashStep.of _ _ (by simp) (by simp)) (fullEnter_flash ..)

theorem tryCopies_flash (env : StartEnv) (st : Option Bool) (x y : Bool) (l : List Bool) (s : State) : FlashStep s (tryCopies env st x y l s) := by
  induction l generalizing s x y with
  | nil => exact FlashStep.of _ _ (by simp [tryCopies]) (by simp [tryCopies])
  | cons b r ih =>
    have e (c : Nat) (t : State) (h : FlashStep s t) : FlashStep s (tryCopies env st false true r (stagedFail st b c (startFail (b2n b) c t))) :=
      FlashStep.trans h (FlashStep.trans (FlashStep.of _ (startFail (b2n b) c t) (by simp) (by simp)) (FlashStep.trans (stagedFail_flash ..) (ih ..)))
    simp only [tryCopies]
    repeat' split
    all_goals first
      | exact e _ _ (FlashStep.of _ _ (by simp) (by simp))
      | exact FlashStep.of _ _ (by simp) (by simp)
      | exact FlashStep.trans (FlashStep.of _ _ (by simp) (by simp)) (fullStage_flash ..)

theorem plateStart_flash (env : StartEnv) (n : Nat) (s : State) : FlashStep s (plateStart env n s) := by
  unfold plateStart; split
  · exact tryCopies_flash ..
  · exact FlashStep.trans (stagedCopy_flash s) (tryCopies_flash ..)

theorem startGo_flash (env : StartEnv) (s : State) : FlashStep s (startGo env s) := by
  unfold startGo; repeat' split
  · exact FlashStep.of _ _ (by simp) (by simp)
  · exact FlashStep.of _ _ (by simp) (by simp)
  · exact plateStart_flash ..

theorem startCheck_flash (env : StartEnv) (s : State) : FlashStep s (startCheck env s) := by
  simp only [startCheck]; repeat' split
  all_goals first
    | exact FlashStep.of _ _ (by simp) (by simp)
    | exact FlashStep.trans (FlashStep.of _ _ (by simp) (by simp)) (startGo_flash ..)

theorem wakeGo_flash (env : StartEnv) (s : State) : FlashStep s (wakeGo env s) := by
  simp only [wakeGo]; repeat' split
  · exact tryCopies_flash ..
  · exact startGo_flash ..

theorem sessionShow_flash (x : Option Session) (s : State) (h : SessionOk x) : FlashStep s (sessionShow x s) := by
  refine ⟨fun _ => ?_⟩
  have a : (sessionShow x s).sys.session = x := by unfold sessionShow; split <;> simp
  have b : (sessionShow x s).sys.flash = s.sys.flash := by simp
  rw [a, b]; exact ⟨h, FlashOk.refl _⟩

theorem SessionOk.none : SessionOk none := fun _ h => by cases h

theorem stageBusy_flash (a : Nat) (b : Status) (c : Nat) {s t : State} (h : FlashStep s t) : FlashStep s (stageBusy a b c t) := FlashStep.eqTo h (by simp) (by simp)

theorem closedB_flash (x : Option Bool) {s t : State} (h : FlashStep s t) : FlashStep s { t with sys := { t.sys with closedB := x } } := FlashStep.eqTo h rfl rfl

theorem stageAbort_flash (s : State) : FlashStep s (stageAbort s) := by
  unfold stageAbort; split
  · exact FlashStep.of _ _ (by simp) (by simp)
  · exact FlashStep.trans (sessionShow_flash none s SessionOk.none) (FlashStep.of _ _ (by simp) (by simp))

theorem eraseLen_le (P : Nat) (h : P ≤ copyMax) : eraseLen P ≤ copyMax := by
  unfold eraseLen cdiv copyMax at *; split <;> omega

theorem stageOpened_flash (c : Bool) (P : Nat) (s : State) (h : P ≤ copyMax) : FlashStep s (stageOpened c P s) := by
  unfold stageOpened
  refine stageBusy_flash _ _ _ (FlashStep.trans (FlashStep.trans (closedB_flash none (FlashStep.refl s)) (flashErase_flash _ _ _ ?_)) (sessionShow_flash _ _ ?_))
  · intro k
    have hl := eraseLen_le _ h
    generalize eraseLen P = n at *
    unfold copyMax at hl; unfold Stageable
    cases c
    · simp only [show copyBase false = 0 from rfl]; omega
    · simp only [show copyBase true = 0x1000000 from rfl]; omega
  · intro y hy; cases hy; exact h

theorem stageOpen_flash (b : Bool) (s : State) : FlashStep s (stageOpen b s) := by
  simp only [stageOpen]
  split
  · exact FlashStep.of _ _ (by simp) (by simp)
  split
  · exact FlashStep.of _ _ (by simp) (by simp)
  rename_i h1 h2
  simp only [not_or, Nat.not_lt] at h2
  refine FlashStep.trans (t := if (pageRequest s).isSome then pageOutcome 0 0 s else s) ?_ (stageOpened_flash _ _ _ h2.2)
  split
  · exact pageOutcome_flash ..
  · exact FlashStep.refl _

theorem stageWriteCmd_flash (s : State) : FlashStep s (stageWriteCmd s) := by
  simp only [stageWriteCmd]
  split
  · exact FlashStep.of _ _ (by simp) (by simp)
  split
  · exact FlashStep.of _ _ (by simp) (by simp)
  rename_i x hx h2
  simp only [not_or, Nat.not_le] at h2
  refine ⟨fun k => ?_⟩
  have hl := k x hx
  refine (stageBusy_flash _ _ _ (FlashStep.trans (flashPut_flash _ _ s ?_) (sessionShow_flash _ _ ?_))).ok k
  · intro j hj
    simp only [List.length_map, List.length_range] at hj
    unfold copyMax at hl; unfold Stageable
    cases x.copyB
    · simp only [show copyBase false = 0 from rfl]; omega
    · simp only [show copyBase true = 0x1000000 from rfl]; omega
  · intro y hy; cases hy; exact hl

theorem recoverBegin_flash (s : State) : FlashStep s (recoverBegin s) := by
  unfold recoverBegin
  exact FlashStep.eqTo (FlashStep.trans (FlashStep.of _ _ (by simp) (by simp)) (sessionShow_flash none (stageStatus .ok { s with cfg := [], sys := { s.sys with trying := none, running := true } }) SessionOk.none)) (by simp) (by simp)

theorem stageRecover_flash (env : StartEnv) (s : State) : FlashStep s (stageRecover env s) := by
  simp only [stageRecover]
  split
  · exact FlashStep.of _ _ (by simp) (by simp)
  split
  · exact FlashStep.eqTo (recoverBegin_flash s) (by simp) (by simp)
  · exact FlashStep.trans (recoverBegin_flash s) (FlashStep.trans (stagedCopy_flash _) (tryCopies_flash ..))

theorem stageCtrlWrite_flash (who : Initiator) (v : Nat) (s : State) : FlashStep s (stageCtrlWrite who v s).2 := by
  unfold stageCtrlWrite stageCommand
  repeat' split
  · exact FlashStep.of _ _ (by simp) (by simp)
  · exact FlashStep.refl _
  · exact stageOpen_flash ..
  · exact stageWriteCmd_flash ..
  · exact FlashStep.of _ _ (by simp) (by simp)
  · exact stageAbort_flash ..
  · exact FlashStep.trans (FlashStep.of _ (recoverEnv s).2 (by simp) (by simp)) (stageRecover_flash _ _)
  · exact FlashStep.of _ _ (by simp) (by simp)

theorem regWrite_flash (who : Initiator) (a v en : Nat) (s : State) : FlashStep s (regWrite who a v en s).2 := by
  unfold regWrite; repeat' split
  · exact stageCtrlWrite_flash ..
  · exact FlashStep.of _ _ (by simp) (by simp)
  · exact FlashStep.of _ _ (by simp) (by simp)

theorem foldl_flash {α β : Type} (l : List α) (g : β × State → α → β × State) (x : β × State) (h : ∀ x a, FlashStep x.2 (g x a).2) : FlashStep x.2 (l.foldl g x).2 := by
  induction l generalizing x with
  | nil => exact FlashStep.refl _
  | cons a r ih => exact FlashStep.trans (h x a) (ih _)

theorem wordWrite_flash (who : Initiator) (a v : Nat) (s : State) : FlashStep s (wordWrite who a v s).2 := by
  unfold wordWrite; split
  · exact FlashStep.refl _
  · exact regWrite_flash ..

theorem wordsWrite_flash (who : Initiator) (a : Nat) (b : List Byte) (s : State) : FlashStep s (wordsWrite who a b s).2 := by
  unfold wordsWrite; split
  · exact FlashStep.refl _
  · exact foldl_flash _ _ (Status.ok, s) fun x k => wordWrite_flash ..

theorem keepCold_flash (s : State) : FlashStep s (keepCold s) :=
  ⟨fun _ => ⟨SessionOk.none, by rw [show (keepCold s).sys.flash = (mramCompleteAll s).sys.flash from rfl]; simp; exact FlashOk.refl _⟩⟩

theorem keepWarm_flash (s : State) : FlashStep s (keepWarm s) :=
  ⟨fun _ => ⟨SessionOk.none, by
    rw [show (keepWarm s).sys.flash = (mramCompleteAll (mramCompleteAll s)).sys.flash from rfl]; simp; exact FlashOk.refl _⟩⟩

theorem enterSleep_flash (s : State) : FlashStep s (enterSleep s) := ⟨fun _ => ⟨by
    have : (enterSleep s).sys.session = none := by simp [enterSleep]
    rw [this]; exact SessionOk.none, by simp; exact FlashOk.refl _⟩⟩

theorem deviceSleep_flash (s : State) : FlashStep s (deviceSleep s) := by
  simp only [deviceSleep]; repeat' split
  · exact FlashStep.of _ _ (by simp) (by simp)
  · exact enterSleep_flash _
  · exact FlashStep.refl _

theorem sleepEntry_flash (n : Nat) (s : State) : FlashStep s (sleepEntry n s) := by
  unfold sleepEntry
  refine FlashStep.eqTo (s := s) (t := deviceSleep (groupsSleep n s)) ?_ (by simp) (by simp)
  exact FlashStep.trans (FlashStep.of _ _ (by simp) (by simp)) (deviceSleep_flash _)

theorem waitEnv_flash (x : Option StartEnv) {s t : State} (h : FlashStep s t) : FlashStep s { t with sys := { t.sys with waitEnv := x } } := FlashStep.eqTo h rfl rfl

theorem execPowerOnReset_flash (env : StartEnv) (s : State) : FlashStep s (outState (execPowerOnReset env s) s) := by
  simp only [execPowerOnReset, outState_next]
  have k : FlashStep s (startRead (mramNow .powerCycle (startBegin .por env (wr F.SYS_STRAP_BOOT_SEL env.bootSel (keepCold s)))).2) :=
    FlashStep.eqTo (keepCold_flash s) (by simp) (by simp)
  split
  · exact FlashStep.trans k (startCheck_flash ..)
  · exact waitEnv_flash (some env) k

theorem execWarmReset_flash (pin : Bool) (env : StartEnv) (s : State) : FlashStep s (outState (execWarmReset pin env s) s) := by
  simp only [execWarmReset, outState_next]
  split
  · exact FlashStep.refl _
  · exact FlashStep.trans (FlashStep.eqTo (keepWarm_flash s) (by simp) (by simp)) (startCheck_flash ..)

theorem execWakeStart_flash (env : StartEnv) (s : State) : FlashStep s (outState (execWakeStart env s) s) := by
  simp only [execWakeStart, outState_next]
  have k : FlashStep s (startRead (startBegin .wake env (keepWarm s))) := FlashStep.eqTo (keepWarm_flash s) (by simp) (by simp)
  repeat' split
  · exact FlashStep.trans k (startCheck_flash ..)
  · exact FlashStep.eqTo k (by simp) (by simp)
  · exact FlashStep.trans k (wakeGo_flash ..)
  · exact FlashStep.refl _

theorem execTamperHoldCleared_flash (env : StartEnv) (s : State) : FlashStep s (outState (execTamperHoldCleared env s) s) := by
  simp only [execTamperHoldCleared, outState_next]
  split
  · exact FlashStep.trans (FlashStep.of _ _ (by simp) (by simp)) (startGo_flash ..)
  · exact FlashStep.refl _

theorem execSuppliesRemoved_flash (s : State) : FlashStep s (outState (execSuppliesRemoved s) s) := keepCold_flash s

theorem closeEnd_flash (a b : Nat) (s : State) : FlashStep s (closeEnd a b s) := by
  unfold closeEnd
  split
  · exact FlashStep.refl _
  · rename_i x _
    have k : FlashStep s (wr F.SYS_STAGE_STAT_VERIFY_CODE b (sessionShow none s)) := FlashStep.eqTo (sessionShow_flash none s SessionOk.none) (by simp) (by simp)
    simp only []
    split
    · exact k
    · exact FlashStep.trans (closedB_flash (some x.copyB) k) (pageWrite_flash _ _ _ _ _ _ _)

theorem execStageCommandDone_flash (s : State) : FlashStep s (outState (execStageCommandDone s) s) := by
  simp only [execStageCommandDone, outState_next]
  repeat' split
  · exact FlashStep.refl _
  · exact FlashStep.trans (FlashStep.of _ _ (by simp) (by simp)) (closeEnd_flash ..)
  · exact FlashStep.of _ _ (by simp) (by simp)

theorem execStartRecordRetry_flash (s : State) : FlashStep s (outState (execStartRecordRetry s) s) := by
  simp only [execStartRecordRetry, outState_next]
  repeat' split
  · exact FlashStep.refl _
  · exact FlashStep.trans (FlashStep.of _ _ (by simp) (by simp)) (pageOutcome_flash ..)
  · exact FlashStep.of _ _ (by simp) (by simp)

theorem execMramRetry_flash (s : State) : FlashStep s (outState (execMramRetry s) s) := by
  simp only [execMramRetry, outState_next]
  repeat' split
  · exact FlashStep.refl _
  · exact FlashStep.trans (FlashStep.of _ _ (by simp) (by simp)) (startCheck_flash ..)
  · exact FlashStep.of _ _ (by simp) (by simp)
  · exact FlashStep.of _ _ (by simp) (by simp)

theorem execStartWatchdog_flash (s : State) : FlashStep s (outState (execStartWatchdog s) s) := by
  simp only [execStartWatchdog, outState_next]
  generalize (if rdB F.SYS_BOOT_STAT_STAGED_TRY s then (pageRequest s).map fun p => byteAt p 8 == 1 else none) = st
  split
  · exact FlashStep.refl _
  · split
    · exact FlashStep.of _ _ (by simp) (by simp)
    · rename_i b _
      have k : FlashStep s (stagedFail st b 17 (startFail (b2n b) 17 s)) := FlashStep.trans (FlashStep.of _ (startFail (b2n b) 17 s) (by simp) (by simp)) (stagedFail_flash ..)
      split
      · exact FlashStep.eqTo k (by simp) (by simp)
      · exact FlashStep.eqTo k (by simp) (by simp)

theorem execCommitPoint_flash (s : State) : FlashStep s (outState (execCommitPoint s) s) := by
  simp only [execCommitPoint, outState_next, when]
  split
  · exact sleepEntry_flash ..
  · exact FlashStep.refl _

theorem writeDone_flash {s : State} (who : Initiator) (a : Nat) (r : Status × State) (k : FlashStep s r.2) : FlashStep s (writeDone who a r) :=
  FlashStep.eqTo k (by simp) (by simp)

theorem hostWrite_flash (who : Initiator) (a : Nat) (f : State → Status × State) (s : State) (h : FlashStep s (f s).2) : FlashStep s (hostWrite who a f s) := by
  simp only [hostWrite]
  split
  · exact FlashStep.refl _
  · apply writeDone_flash; split
    · exact FlashStep.refl _
    · exact h

theorem stageCommand_flash (who : Initiator) (f : State → State) (s : State) (h : FlashStep s (f s)) : FlashStep s (stageCommand who f s).2 := by
  unfold stageCommand; repeat' split
  · exact FlashStep.of _ _ (by simp) (by simp)
  · exact FlashStep.refl _
  · exact h

theorem execOpen_flash (w : Iface) (b : Bool) (s : State) : FlashStep s (outState (execOpen w b s) s) := hostWrite_flash _ _ _ _ (stageCommand_flash _ _ _ (stageOpen_flash ..))

theorem execStageWrite_flash (w : Iface) (s : State) : FlashStep s (outState (execStageWrite w s) s) := hostWrite_flash _ _ _ _ (stageCommand_flash _ _ _ (stageWriteCmd_flash ..))

theorem execAbort_flash (w : Iface) (s : State) : FlashStep s (outState (execAbort w s) s) := hostWrite_flash _ _ _ _ (stageCommand_flash _ _ _ (stageAbort_flash ..))

theorem execRecoverStart_flash (w : Iface) (env : StartEnv) (s : State) : FlashStep s (outState (execRecoverStart w env s) s) := hostWrite_flash _ _ _ _ (stageCommand_flash _ _ _ (stageRecover_flash ..))

theorem alignedWrite_flash (who : Initiator) (ok : Bool) (a : Nat) (f : State → Status × State) (s : State) (h : FlashStep s (f s).2) : FlashStep s (alignedWrite who ok a f s) := by
  unfold alignedWrite; repeat' split
  · exact hostWrite_flash _ _ _ _ h
  · exact FlashStep.of _ _ (by simp) (by simp)
  · exact FlashStep.refl _

theorem execRegisterWrite_flash (who : Initiator) (addr : Nat) (v : Word) (en : BitVec 4) (s : State) : FlashStep s (outState (execRegisterWrite who addr v en s) s) :=
  alignedWrite_flash _ _ _ _ _ (regWrite_flash ..)

theorem execWriteApplied_flash (s : State) : FlashStep s (outState (execWriteApplied s) s) := by
  simp only [execWriteApplied, outState_next]
  split
  · exact FlashStep.refl _
  · rename_i addr b r _
    have k : FlashStep s { s with hst := { s.hst with posted := r } } := FlashStep.of _ _ rfl rfl
    split
    · split
      · exact writeDone_flash _ _ _ (FlashStep.trans k (wordsWrite_flash ..))
      · exact k
    · exact FlashStep.of _ _ (by simp) (by simp)
    · exact FlashStep.of _ _ (by simp) (by simp)
    · exact FlashStep.of _ _ (by simp) (by simp)
end Sys2Proof.Machine
end

