-- ==== Sys2Proof/Laws/LifeCycle.lean ====
section
/-! SUPPORT. The operations that can reach the life-cycle counter (R369): none lowers it. -/

namespace Sys2Proof.Machine

/-- The life-cycle counter of t is no lower than that of s. -/
structure LcStep (s t : State) : Prop where
  le : s.key.lcCount ≤ t.key.lcCount

theorem LcStep.of (s t : State) (h : t.key.lcCount = s.key.lcCount) : LcStep s t := ⟨Nat.le_of_eq h.symm⟩

theorem LcStep.refl (s : State) : LcStep s s := ⟨Nat.le_refl _⟩

theorem LcStep.trans {s t u : State} (a : LcStep s t) (b : LcStep t u) : LcStep s u := ⟨Nat.le_trans a.le b.le⟩

theorem LcStep.eqTo {s t u : State} (a : LcStep s t) (h : u.key.lcCount = t.key.lcCount) : LcStep s u := a.trans (LcStep.of t u h)

theorem LcStep.pre {s t u : State} (b : LcStep t u) (h : t.key.lcCount = s.key.lcCount) : LcStep s u := (LcStep.of s t h).trans b

theorem lcRequestCommand_lc (b : List Byte) (s : State) : LcStep s (lcRequestCommand b s).2 := by
  simp only [lcRequestCommand]
  split
  · exact LcStep.refl _
  split
  · split
    · exact LcStep.refl _
    · rename_i h
      simp only [not_or, Nat.not_le] at h
      split
      · exact LcStep.of _ _ (by simp)
      · refine ⟨?_⟩
        simp; omega
  · exact LcStep.refl _

theorem writeDone_lc {s : State} (who : Initiator) (a : Nat) (r : Status × State) (k : LcStep s r.2) : LcStep s (writeDone who a r) := LcStep.eqTo k (by simp)

theorem hostWrite_lc (who : Initiator) (a : Nat) (f : State → Status × State) (s : State) (h : LcStep s (f s).2) : LcStep s (hostWrite who a f s) := by
  simp only [hostWrite]
  split
  · exact LcStep.refl _
  · apply writeDone_lc; split
    · exact LcStep.refl _
    · exact h

theorem alignedWrite_lc (who : Initiator) (ok : Bool) (a : Nat) (f : State → Status × State) (s : State) (h : LcStep s (f s).2) : LcStep s (alignedWrite who ok a f s) := by
  unfold alignedWrite; repeat' split
  · exact hostWrite_lc _ _ _ _ h
  · exact writeDone_lc _ _ _ (LcStep.refl _)
  · exact LcStep.refl _

theorem vaultCommand_lc (who : MboxUser) (code : Nat) (f : State → (Status × List Byte) × State) (s : State) (h : LcStep s (f s).2) : LcStep s (vaultCommand who code f s) := by
  refine hostWrite_lc _ _ _ _ ?_
  have w (r : (Status × List Byte) × State) (k : LcStep s r.2) : LcStep s (mboxAnswer who code r) := LcStep.eqTo k (by simp)
  apply w; split
  · exact LcStep.refl _
  · exact h

theorem vaultRun_lc (who : MboxUser) (code : Nat) (args : List Byte) (s : State) : LcStep s (vaultRun who code args s).2 := by
  unfold vaultRun; split
  all_goals first
    | exact lcRequestCommand_lc _ s
    | (refine LcStep.of _ _ ?_; simp; done)

theorem keyCmdWrite_lc (who : MboxUser) (v : Nat) (s : State) : LcStep s (keyCmdWrite who v s) := vaultCommand_lc _ _ _ _ (vaultRun_lc ..)

theorem keyCmdBy_lc (who : Initiator) (v : Nat) (s : State) : LcStep s (keyCmdBy who v s).2 := by
  unfold keyCmdBy; split
  · exact keyCmdWrite_lc .pcie v s
  · exact keyCmdWrite_lc .xspi v s
  · exact keyCmdWrite_lc (.core _) v s
  · exact LcStep.refl _

theorem le_ite {c : Prop} [Decidable c] {a x y : Nat} (h : a ≤ x) (k : a ≤ y) : a ≤ if c then x else y := by split <;> assumption

theorem regEffect_lc (who : Initiator) (d : RegD) (n m v : Nat) (s : State) : LcStep s (regEffect who d n m v s).2 := by
  constructor
  simp [regEffect]
  repeat' apply le_ite
  all_goals first
    | exact Nat.le_refl _
    | exact (keyCmdBy_lc who v s).le

theorem regWriteBase_lc (who : Initiator) (a v en : Nat) (s : State) : LcStep s (regWriteBase who a v en s).2 := by
  unfold regWriteBase
  repeat' split
  all_goals first | exact regEffect_lc _ _ _ _ _ s | (refine LcStep.of _ _ ?_; simp; done)

theorem coreOut_lc (n : Fin 4) (e : StoreEnt) (s : State) : LcStep s (coreOut n e s) := by
  unfold coreOut; split
  all_goals first
    | exact regWriteBase_lc ..
    | (refine LcStep.of _ _ ?_; simp; done)

theorem each_lc {α : Type} (l : List α) (f : α → State → State) (s : State) (h : ∀ a s, LcStep s (f a s)) : LcStep s (each l f s) := by
  unfold each
  induction l generalizing s with
  | nil => exact LcStep.refl _
  | cons a r ih => exact LcStep.trans (h a s) (ih _)

theorem sliceStores_lc (n : Fin 4) (l : List StoreEnt) (s : State) : LcStep s (each l (coreOut n) (sliceClear n s)) :=
  LcStep.trans (LcStep.of _ (sliceClear n s) (by simp)) (each_lc _ _ _ fun e s => coreOut_lc n e s)

theorem sliceCommit_lc (n : Fin 4) (k : Nat) (again : Bool) (p : Pass) (s : State) : LcStep s (sliceCommit n k again p s) := by
  have st (t : State) (h : t.key.lcCount = s.key.lcCount) : LcStep s (each p.buf.reverse (coreOut n) (sliceClear n t)) :=
    (sliceStores_lc n p.buf.reverse t).pre h
  simp only [sliceCommit]
  split
  all_goals
    constructor
    simp only [dbgCheckpoint_keep, waitBegin_keep, markMax_keep, incWrap_keep, taskSet_keep]
    exact (st _ (by simp)).le

theorem sliceAgain_lc (n : Fin 4) (k c : Nat) (u : SliceUpset) (s : State) : LcStep s (sliceAgain n k c u s) := by
  simp only [sliceAgain]; split
  · exact LcStep.of _ _ (by simp)
  · exact (sliceCommit_lc n k true _ _).pre (by simp)

theorem sliceEnd_lc (n : Fin 4) (k : Nat) (u : SliceUpset) (a : Pass) (s : State) : LcStep s (sliceEnd n k u a s) := by
  simp only [sliceEnd]
  repeat' split
  · exact LcStep.of _ _ (by simp)
  · exact (sliceCommit_lc n k false _ _).pre (by simp)
  · exact (sliceAgain_lc n k _ u _).pre (by simp)

theorem sliceRun_lc (n : Fin 4) (k : Nat) (u : SliceUpset) (s : State) : LcStep s (sliceRun n k u s) := by
  simp only [sliceRun]
  split
  all_goals repeat' split
  all_goals first
    | (refine LcStep.of _ _ ?_; simp; done)
    | exact (sliceCommit_lc n k false _ _).pre (by simp)
    | exact (sliceEnd_lc n k u _ _).pre (by simp)

theorem dbgStep_lc (n : Fin 4) (s : State) : LcStep s (dbgStep n s) := by
  simp only [dbgStep]
  repeat' split
  · exact LcStep.refl _
  · exact LcStep.of _ _ (by simp)
  · exact (sliceCommit_lc n _ false _ _).pre (by simp)
  · exact (sliceCommit_lc n _ false _ _).pre (by simp)

theorem dbgCtrl_lc (n : Fin 4) (v : Nat) (s : State) : LcStep s (dbgCtrl n v s).2 := by
  unfold dbgCtrl; repeat' split
  · exact LcStep.refl _
  · exact LcStep.refl _
  · exact LcStep.of _ _ (by simp)
  · exact dbgStep_lc n s
  · exact LcStep.of _ _ (by simp)
  · exact LcStep.refl _

theorem dbgCommand_lc (who : Initiator) (n : Fin 4) (c v : Nat) (s : State) : LcStep s (dbgCommand who n c v s) := by
  refine hostWrite_lc _ _ _ _ ?_
  split
  · exact LcStep.refl _
  · exact dbgCtrl_lc ..

theorem dbgWrite_lc (who : Initiator) (o v : Nat) (s : State) : LcStep s (dbgWrite who o v s).2 := by
  unfold dbgWrite; split
  · exact LcStep.refl _
  split
  · simp only []
    split
    · exact LcStep.refl _
    · split
      · exact dbgCtrl_lc ..
      all_goals exact LcStep.of _ _ (by simp)
  · exact LcStep.refl _

theorem regWrite_lc (who : Initiator) (a v en : Nat) (s : State) : LcStep s (regWrite who a v en s).2 := by
  unfold regWrite; repeat' split
  · exact LcStep.of _ _ (by simp)
  · exact dbgWrite_lc ..
  · exact regWriteBase_lc ..

theorem wordWrite_lc (who : Initiator) (a v : Nat) (s : State) : LcStep s (wordWrite who a v s).2 := by
  unfold wordWrite; split
  · exact LcStep.refl _
  · exact regWrite_lc ..

theorem foldl2_lc {α β : Type} (l : List α) (g : β × State → α → β × State) (x : β × State) (h : ∀ x a, LcStep x.2 (g x a).2) : LcStep x.2 (l.foldl g x).2 := by
  induction l generalizing x with
  | nil => exact LcStep.refl _
  | cons a r ih => exact LcStep.trans (h x a) (ih _)

theorem wordsWrite_lc (who : Initiator) (a : Nat) (b : List Byte) (s : State) : LcStep s (wordsWrite who a b s).2 := by
  unfold wordsWrite; split
  · exact LcStep.refl _
  · exact foldl2_lc _ _ (Status.ok, s) fun x k => wordWrite_lc ..

theorem keepCold_lc (s : State) : LcStep s (keepCold s) := LcStep.of _ _ (by rw [show (keepCold s).key.lcCount = (mramCompleteAll s).key.lcCount from rfl]; simp)

theorem keepWarm_lc (s : State) : LcStep s (keepWarm s) := LcStep.of _ _ (by rw [show (keepWarm s).key.lcCount = (mramCompleteAll (mramCompleteAll s)).key.lcCount from rfl]; simp)

theorem execSlice_lc (n : Fin 4) (u : SliceUpset) (s : State) : LcStep s (outState (execSlice n u s) s) := by
  simp only [execSlice, outState_next]
  repeat' split
  · exact LcStep.refl _
  · exact LcStep.of _ _ (by simp)
  · exact LcStep.refl _
  · exact sliceRun_lc ..
  · exact LcStep.refl _
  · exact LcStep.refl _
  · exact sliceRun_lc ..
  · exact LcStep.of _ _ (by simp)

theorem execEcall_lc (n : Fin 4) (s : State) : LcStep s (outState (execEcall n s) s) := by
  simp only [execEcall, outState_next]
  repeat' split
  · exact LcStep.trans (LcStep.of _ _ (by simp)) (sliceRun_lc ..)
  · exact LcStep.of _ _ (by simp)
  · exact LcStep.refl _

theorem execWfi_lc (n : Fin 4) (s : State) : LcStep s (outState (execWfi n s) s) := by
  simp only [execWfi, outState_next]
  repeat' split
  · exact LcStep.trans (LcStep.of _ _ (by simp)) (sliceRun_lc ..)
  · exact LcStep.of _ _ (by simp)
  · exact LcStep.refl _

theorem execLcRequest_lc (who : MboxUser) (args : List Byte) (s : State) : LcStep s (outState (execLcRequest who args s) s) := by
  simp only [execLcRequest, guardWf]; split
  · exact vaultCommand_lc _ _ _ _ (lcRequestCommand_lc ..)
  · exact LcStep.refl _

theorem execPowerOnReset_lc (env : StartEnv) (s : State) : LcStep s (outState (execPowerOnReset env s) s) := by
  simp only [execPowerOnReset, outState_next]
  split
  · exact LcStep.eqTo (keepCold_lc s) (by simp)
  · exact LcStep.eqTo (keepCold_lc s) (by simp)

theorem execWarmReset_lc (pin : Bool) (env : StartEnv) (s : State) : LcStep s (outState (execWarmReset pin env s) s) := by
  simp only [execWarmReset, outState_next]; split
  · exact LcStep.refl _
  · exact LcStep.eqTo (keepWarm_lc s) (by simp)

theorem execWakeStart_lc (env : StartEnv) (s : State) : LcStep s (outState (execWakeStart env s) s) := by
  simp only [execWakeStart, outState_next]; repeat' split
  · exact LcStep.eqTo (keepWarm_lc s) (by simp)
  · exact LcStep.eqTo (keepWarm_lc s) (by simp)
  · exact LcStep.eqTo (keepWarm_lc s) (by simp)
  · exact LcStep.refl _

theorem execSuppliesRemoved_lc (s : State) : LcStep s (outState (execSuppliesRemoved s) s) := keepCold_lc s

theorem execRegisterWrite_lc (who : Initiator) (addr : Nat) (v : Word) (en : BitVec 4) (s : State) : LcStep s (outState (execRegisterWrite who addr v en s) s) :=
  alignedWrite_lc _ _ _ _ _ (regWrite_lc ..)

theorem execWriteApplied_lc (s : State) : LcStep s (outState (execWriteApplied s) s) := by
  simp only [execWriteApplied, outState_next]
  split
  · exact LcStep.refl _
  · rename_i addr b r _
    have k : LcStep s { s with hst := { s.hst with posted := r } } := LcStep.of _ _ rfl
    split
    · split
      · exact writeDone_lc _ _ _ (LcStep.trans k (wordsWrite_lc ..))
      · exact k
    · exact LcStep.of _ _ (by simp)
    · exact LcStep.of _ _ (by simp)
    · exact LcStep.of _ _ (by simp)
end Sys2Proof.Machine
end

