-- ==== Sys2Proof/Laws/Mode.lean ====
section
/-! SUPPORT. The operations that change the power mode (R420): the mode that each leaves. -/

namespace Sys2Proof.Machine

theorem keepCold_mode (s : State) : (keepCold s).pwr.mode = 4 := rfl

theorem startBegin_mode (c : Cause) (env : StartEnv) (s : State) : (startBegin c env s).pwr.mode = 0 := by
  simp only [startBegin]; split <;> simp

theorem enterStandby_mode (s : State) : (enterStandby s).pwr.mode = 2 := by simp [enterStandby]

theorem enterSleep_mode (s : State) : (enterSleep s).pwr.mode = 3 := by simp [enterSleep]

theorem deviceSleep_mode (s : State) :
    (deviceSleep s).pwr.mode = s.pwr.mode ∨ (deviceSleep s).pwr.mode = 2 ∨ (deviceSleep s).pwr.mode = 3 := by
  simp only [deviceSleep]; repeat' split
  · exact .inr (.inl (enterStandby_mode _))
  · exact .inr (.inr (enterSleep_mode _))
  · exact .inl rfl

theorem sleepEntry_mode (n : Nat) (s : State) :
    (sleepEntry n s).pwr.mode = s.pwr.mode ∨ (sleepEntry n s).pwr.mode = 2 ∨ (sleepEntry n s).pwr.mode = 3 := by
  have h := deviceSleep_mode (groupsSleep n s)
  simpa [sleepEntry] using h

theorem execIdle_mode (s : State) : (outState (execIdle s) s).pwr.mode = if s.pwr.mode = 0 ∧ mayIdle s then 1 else s.pwr.mode := by
  simp only [execIdle, outState_next]; split <;> simp_all

theorem execIdleResume_mode (s : State) :
    (outState (execIdleResume s) s).pwr.mode = if s.pwr.mode = 1 then 0 else s.pwr.mode := by
  simp only [execIdleResume, outState_next]; split <;> simp_all

theorem execStandbyResume_mode (s : State) :
    (outState (execStandbyResume s) s).pwr.mode = if s.pwr.mode = 2 ∧ s.slp.toWake ≠ 0 then 0 else s.pwr.mode := by
  simp only [execStandbyResume, outState_next]; split <;> simp_all

theorem execCommitPoint_mode (s : State) : (outState (execCommitPoint s) s).pwr.mode = s.pwr.mode ∨
    (outState (execCommitPoint s) s).pwr.mode = 2 ∨ (outState (execCommitPoint s) s).pwr.mode = 3 := by
  simp only [execCommitPoint, outState_next, when]; split
  · exact sleepEntry_mode ..
  · exact .inl rfl

theorem execPreparationEvent_mode (e : Fin 4096) (gv : Fin 4) (s : State) :
    (outState (execPreparationEvent e gv s) s).pwr.mode = s.pwr.mode ∨
      (s.pwr.mode ≤ 1 ∧ (outState (execPreparationEvent e gv s) s).pwr.mode = 0) := by
  simp only [execPreparationEvent, outState_next]; split
  · rename_i h
    refine .inr ⟨?_, by simp⟩
    simp only [prepDue, Bool.and_eq_true, stpRunning, decide_eq_true_eq] at h; omega
  · exact .inl rfl

theorem execPowerOnReset_mode (env : StartEnv) (s : State) : (outState (execPowerOnReset env s) s).pwr.mode = 0 := by
  simp only [execPowerOnReset, outState_next]; split <;> simp [startBegin_mode]

theorem execWarmReset_mode (pin : Bool) (env : StartEnv) (s : State) :
    (outState (execWarmReset pin env s) s).pwr.mode = s.pwr.mode ∨
      (s.pwr.mode ≠ 4 ∧ (outState (execWarmReset pin env s) s).pwr.mode = 0) := by
  simp only [execWarmReset, outState_next]; split
  · exact .inl rfl
  · rename_i h; exact .inr ⟨fun e => h (.inl e), by simp [startBegin_mode]⟩

theorem execWakeStart_mode (env : StartEnv) (s : State) :
    (outState (execWakeStart env s) s).pwr.mode =
      if s.pwr.mode = 3 ∧ s.slp.inh = true ∧ sleepEntering s = false then 0 else s.pwr.mode := by
  simp only [execWakeStart, outState_next]; repeat' split
  all_goals simp_all [startBegin_mode]

theorem execSuppliesRemoved_mode (s : State) : (outState (execSuppliesRemoved s) s).pwr.mode = 4 := rfl

end Sys2Proof.Machine
end

