-- ==== Sys2Proof/Laws/Queues.lean ====
section
/-! SUPPORT. What the device's own messages leave of the queues: a frame that enters the switch core evicts from class pools
only, so the entries of every queue from 640 on stand as they did. -/

namespace Sys2Proof.Machine

/-- The entries of queue q in t are those in s. -/
@[simp] abbrev EntsKept (q : Nat) (s t : State) : Prop := (qu q t).ents = (qu q s).ents

theorem EntsKept.trans {q : Nat} {s t u : State} (h : EntsKept q s t) (g : EntsKept q t u) : EntsKept q s u := Eq.trans g h

theorem entsKept_of_queues {q : Nat} {s t : State} (h : t.qm.queues = s.qm.queues) : EntsKept q s t := by simp [qu, h]

theorem foldl_ents {α β : Type} (q : Nat) (p : β → State) (l : List α) (g : β → α → β) (h : ∀ b a, EntsKept q (p b) (p (g b a))) (b : β) :
    EntsKept q (p b) (p (l.foldl g b)) := by
  induction l generalizing b with
  | nil => rfl
  | cons a l ih => exact (h b a).trans (ih _)

theorem each_ents {α : Type} (q : Nat) (l : List α) (f : α → State → State) (s : State) (h : ∀ a s, EntsKept q s (f a s)) :
    EntsKept q s (each l f s) := foldl_ents q id l (fun s a => f a s) (fun b a => h a b) s

/-! ### Operations that touch no queue -/

@[simp] theorem wr_queues (f : Field) (v : Nat) (s : State) : (wr f v s).qm = s.qm := rfl
@[simp] theorem inc_queues (f : Field) (s : State) : (inc f s).qm = s.qm := rfl
@[simp] theorem incBy_queues (f : Field) (n : Nat) (s : State) : (incBy f n s).qm = s.qm := rfl
@[simp] theorem incWrap_queues (f : Field) (s : State) : (incWrap f s).qm = s.qm := rfl
@[simp] theorem markMin_queues (f : Field) (v : Nat) (s : State) : (markMin f v s).qm = s.qm := by unfold markMin; split <;> rfl
@[simp] theorem recUpdate_queues (f : RecImage → RecImage) (s : State) : (recUpdate f s).qm = s.qm := by
  simp only [recUpdate]; (repeat' split) <;> rfl
@[simp] theorem record_queues (code src data : Nat) (s : State) : (record code src data s).qm = s.qm := by simp [record]
@[simp] theorem histAdd_queues (h u v : Nat) (s : State) : (histAdd h u v s).qm = s.qm := by simp [histAdd]
@[simp] theorem extreme_queues (x v : Nat) (s : State) : (extreme x v s).qm = s.qm := by simp [extreme]
@[simp] theorem fresh_queues (s : State) : (fresh s).2.qm = s.qm := rfl
@[simp] theorem holdUpCheck_queues (row need : Nat) (s : State) : (holdUpCheck row need s).2.qm = s.qm := by
  simp only [holdUpCheck]; split <;> simp
@[simp] theorem kslotSet_queues (k : Nat) (x : KeySlot) (s : State) : (kslotSet k x s).qm = s.qm := rfl

theorem mramNow_queues (op : MramOp) (s : State) (h : ∀ s, (mramApply op s).qm = s.qm) : (mramNow op s).2.qm = s.qm := by
  simp only [mramNow]; split <;> simp [h]

@[simp] theorem mramNow_keyUse_queues (k n : Nat) (s : State) : (mramNow (.keyUse k n) s).2.qm = s.qm := mramNow_queues _ s fun _ => rfl
@[simp] theorem mramNow_linkStart_queues (v : Nat) (s : State) : (mramNow (.linkStart v) s).2.qm = s.qm := mramNow_queues _ s fun _ => rfl

@[simp] theorem useCount_queues (k : Nat) (s : State) : (useCount k s).2.qm = s.qm := by
  simp only [useCount]
  repeat' split
  all_goals first | rfl | skip
  all_goals simp_all

@[simp] theorem tagUse_queues (slot : Nat) (s : State) : (tagUse slot s).2.qm = s.qm := by
  simp only [tagUse]
  split
  · rfl
  · split <;> (have h := useCount_queues slot s; simp_all)

@[simp] theorem almNumbered_queues (s : State) : (almNumbered s).qm = s.qm := by
  simp only [almNumbered]; split <;> simp

@[simp] theorem stagePush_queues (node f : Nat) (s : State) : (stagePush node f s).qm.queues = s.qm.queues := rfl
@[simp] theorem bulkMark_queues (s : State) : (bulkMark s).qm = s.qm := by simp [bulkMark]
@[simp] theorem newFrame_queues (x : Fr) (s : State) : (newFrame x s).2.qm.queues = s.qm.queues := rfl
@[simp] theorem dropFrameBg_queues (evict : Bool) (f : Nat) (s : State) : (dropFrameBg evict f s).qm.queues = s.qm.queues := by
  simp only [dropFrameBg]; split <;> rfl

/-! ### Admission -/

theorem qu_quSet (q k : Nat) (x : Queue) (s : State) : qu q (quSet k x s) = if q = k then x else qu q s := tget_tput _ _ _ _ _

/-- A queue changed in its counts alone keeps its entries. -/
theorem quSet_ents (q k : Nat) (x : Queue) (s : State) (h : x.ents = (qu k s).ents) : EntsKept q s (quSet k x s) := by
  simp only [EntsKept, qu_quSet]; split
  · subst q; exact h
  · rfl

theorem refuseAt_ents (q k : Nat) (s : State) : EntsKept q s (refuseAt k s) := quSet_ents q k _ s rfl
theorem holdCells_ents (q need k : Nat) (s : State) : EntsKept q s (holdCells need k s) := quSet_ents q k _ s rfl
theorem unhold_ents (q need : Nat) (ds : List (Nat × Bool × Nat)) (s : State) : EntsKept q s (unhold need ds s) :=
  each_ents q ds _ s fun d s => quSet_ents q d.1 _ s rfl

theorem evictTail_ents (q k : Nat) (s : State) (h : q ≠ k) : EntsKept q s (evictTail k s) := by
  simp only [evictTail]
  repeat' split
  all_goals first | rfl | skip
  simp [qu, quSet, tget_tput_ne _ _ _ _ _ h]

/-- Push-out evicts from a class pool (R143). -/
theorem poolBelow_lt (k l : Nat) (hk : k < 640) (h : l ∈ poolBelow k) : l < 640 := by
  simp only [poolBelow] at h
  split at h
  · simp at h; omega
  · simp at h; omega

theorem pushOut_ents (q k : Nat) (s : State) (hq : 640 ≤ q) : EntsKept q s (pushOut k s) := by
  simp only [pushOut]
  repeat' split
  all_goals first | rfl | skip
  rename_i hc _ l hl
  have hk : k < 640 := by simp at hc; exact hc.1
  have := poolBelow_lt k l hk (List.mem_of_find?_eq_some hl)
  exact evictTail_ents q l s (by omega)

theorem admitOne_ents (must : Bool) (need c : Nat) (exempt : Bool) (q k : Nat) (s : State) (hq : 640 ≤ q) :
    EntsKept q s (admitOne must need c exempt k s).2 := by
  simp only [admitOne]
  repeat' split
  all_goals first
    | rfl
    | exact refuseAt_ents q k s
    | exact pushOut_ents q k s hq
    | exact (pushOut_ents q k s hq).trans (refuseAt_ents q k _)

theorem admitAll_ents (must : Bool) (need c : Nat) (exempt : Bool) (q : Nat) (ds : List (Nat × Bool × Nat)) (s : State) (hq : 640 ≤ q) :
    EntsKept q s (admitAll must need c exempt ds s).2 :=
  foldl_ents q (fun a : List (Nat × Bool × Nat) × State => a.2) ds _ (fun b d => by
    have h := admitOne_ents must (destCells need d) c exempt q d.1 b.2 hq
    dsimp only
    split
    · exact h.trans (holdCells_ents q _ _ _)
    · exact h) ([], s)

theorem dropThr_ents (q : Nat) (ds : List (Nat × Bool × Nat)) (s : State) : EntsKept q s (dropThr ds s) := by
  simp only [dropThr, when]; split <;> rfl

theorem admitLinks_ents (q need : Nat) (ds : List (Nat × Bool × Nat)) (s : State) : EntsKept q s (admitLinks need ds s).2 := by
  simp only [admitLinks]; split
  · rfl
  · exact unhold_ents q need ds s

/-- A frame that enters the switch core leaves the entries of every queue outside the class pools (R137, R143). -/
theorem submitAs_ents (keep : Bool) (node : Nat) (x : Fr) (q : Nat) (s : State) (hq : 640 ≤ q) :
    EntsKept q s (submitAs keep node x s).2 := by
  have h := admitAll_ents keep (cellsOf x.data.length) x.cls (x.noEvict || x.exempt) q x.dests s hq
  simp only [submitAs]
  split
  · rfl
  · split
    · simp only [when]; split
      · exact h.trans (dropThr_ents q _ _)
      · exact h
    · have g := admitLinks_ents q (cellsOf x.data.length) (admitAll keep (cellsOf x.data.length) x.cls (x.noEvict || x.exempt) x.dests s).1
        (admitAll keep (cellsOf x.data.length) x.cls (x.noEvict || x.exempt) x.dests s).2
      split
      · rename_i e; rw [e] at g; exact h.trans g
      · rename_i e; rw [e] at g; exact (h.trans g).trans (entsKept_of_queues (by simp))

/-! ### Messages of the device -/

theorem almOut_ents (port vlan : Nat) (dst : List Byte) (type flags : Nat) (body : List Byte) (key : Option (List Byte)) (q : Nat) (s : State)
    (hq : 640 ≤ q) : EntsKept q s (almOut port vlan dst type flags body key s).2 := by
  simp only [almOut]; split
  · rfl
  · exact (entsKept_of_queues (by simp)).trans (submitAs_ents false 9 _ q _ hq)

/-- An Almoith message leaves the entries of every queue outside the class pools. -/
theorem almTo_ents (i type flags : Nat) (body : List Byte) (q : Nat) (s : State) (hq : 640 ≤ q) : EntsKept q s (almTo i type flags body s).2 := by
  simp only [almTo]; split
  · exact almOut_ents _ _ _ _ _ _ _ q s hq
  · have h := tagUse_queues (peerN i 12 2 s) s
    split <;> (rename_i e; rw [e] at h)
    · exact (entsKept_of_queues (by simp_all)).trans (almOut_ents _ _ _ _ _ _ _ q _ hq)
    · exact entsKept_of_queues (by simp_all)

theorem tunnelSend_ents (node dst src : Nat) (frame : List Byte) (q : Nat) (s : State) (hq : 640 ≤ q) :
    EntsKept q s (tunnelSend node dst src frame s) := by
  simp only [tunnelSend]
  repeat' split
  all_goals first | rfl | skip
  all_goals
    rename_i e
    exact (congrArg (fun r : Bool × State => (qu q r.2).ents) e).symm.trans (almTo_ents _ _ _ _ q s hq)

theorem frameRoutes_ents (kind src bus ch : Nat) (data : List Byte) (q : Nat) (s : State) (hq : 640 ≤ q) :
    EntsKept q s (frameRoutes kind src bus ch data s) := by
  refine EntsKept.trans (t := (routesFor kind src bus (leAt data 0 4 % 2 ^ 30) s).2) ?_ (each_ents q _ _ _ fun r s => ?_)
  · simp only [routesFor, when]; split <;> rfl
  · repeat' split
    all_goals first | rfl | exact tunnelSend_ents _ _ _ _ q s hq

/-- What the device does for a frame that an engine takes leaves the entries of every queue outside the class pools: the
frame's own queue keeps the entries that followed it (R289, R305). -/
theorem frameTaken_ents (e : Nat) (d : List Byte) (q : Nat) (s : State) (hq : 640 ≤ q) : EntsKept q s (frameTaken e d s) := by
  have hc : EntsKept q s (carTaken e d s) := by
    simp only [carTaken]
    repeat' split
    all_goals first | rfl | skip
    all_goals
      refine EntsKept.trans ?_ (each_ents q _ _ _ fun m s => EntsKept.trans (t := (fresh s).2) rfl (frameRoutes_ents _ _ _ _ _ q _ hq))
      simp only [when]; split <;> rfl
  simp only [frameTaken]
  repeat' split
  all_goals exact hc

end Sys2Proof.Machine
end

