-- ==== Sys2Proof/Laws/State.lean ====
section
/-! SUPPORT. The laws of register fields: what a read gives after each named update, and which parts of the state the
named updates leave alone. -/

namespace Sys2Proof.Machine

/-- Two fields with one unit pitch have one key in the same unit just when they have one key. -/
theorem key_u (a b : Field) (n : Nat) (h : a.step = b.step) : (a.u n).key = (b.u n).key ↔ a.key = b.key := by
  simp only [Field.u, Field.key, h]; omega

theorem key_u_ne (a b : Field) (n : Nat) (h : a.step = b.step ∧ a.key ≠ b.key) : (a.u n).key ≠ (b.u n).key := by
  rw [ne_eq, key_u a b n h.1]; exact h.2

@[simp] theorem u_w (a : Field) (n : Nat) : (a.u n).w = a.w := rfl

/-- A read of a field depends on the register table alone. -/
theorem rd_congr (f : Field) (s t : State) (h : t.regs = s.regs) : rd f t = rd f s := by simp [rd, h]

/-- A field's value in a register table. -/
def regVal (f : Field) (r : Tbl Word) : Nat := (tget (BitVec.ofNat 32 f.reset) r f.key).toNat

theorem rd_eq (f : Field) (s : State) : rd f s = regVal f s.regs := rfl

@[simp] theorem regVal_tput (g : Field) (r : Tbl Word) (k : Nat) (v : Word) :
    regVal g (tput r k v) = if g.key = k then v.toNat else regVal g r := by
  unfold regVal; rw [tget_tput]; split <;> rfl

theorem wr_regs (f : Field) (v : Nat) (s : State) : (wr f v s).regs = tput s.regs f.key (BitVec.ofNat 32 (v % 2 ^ f.w)) := rfl

/-- A read after a write: the value cut to the field, and every field with another key as before. -/
theorem rd_wr (g f : Field) (v : Nat) (s : State) :
    rd g (wr f v s) = if g.key = f.key then v % 2 ^ f.w % 2 ^ 32 else rd g s := by
  unfold rd wr; simp only [tget_tput]; split <;> simp

@[simp] theorem rd_wr_same (f : Field) (v : Nat) (s : State) : rd f (wr f v s) = v % 2 ^ f.w % 2 ^ 32 := by
  simp [rd_wr]

theorem rd_wr_ne (g f : Field) (v : Nat) (s : State) (h : g.key ≠ f.key) : rd g (wr f v s) = rd g s := by
  simp [rd_wr, h]

@[simp] theorem rd_wrB_same (f : Field) (b : Bool) (s : State) (h : 1 ≤ f.w) : rd f (wrB f b s) = b2n b := by
  have k : 2 ≤ 2 ^ f.w := Nat.pow_le_pow_right (n := 2) (by omega) h
  have l : b2n b ≤ 1 := by cases b <;> decide
  simp only [wrB, rd_wr_same]
  rw [Nat.mod_eq_of_lt (show b2n b < 2 ^ f.w by omega), Nat.mod_eq_of_lt (by omega)]

theorem rd_wrB_ne (g f : Field) (b : Bool) (s : State) (h : g.key ≠ f.key) : rd g (wrB f b s) = rd g s := rd_wr_ne _ _ _ _ h

theorem rd_wrI_ne (g f : Field) (v : Int) (s : State) (h : g.key ≠ f.key) : rd g (wrI f v s) = rd g s := rd_wr_ne _ _ _ _ h

theorem rd_incBy_ne (g f : Field) (n : Nat) (s : State) (h : g.key ≠ f.key) : rd g (incBy f n s) = rd g s := rd_wr_ne _ _ _ _ h

theorem rd_inc_ne (g f : Field) (s : State) (h : g.key ≠ f.key) : rd g (inc f s) = rd g s := rd_wr_ne _ _ _ _ h

theorem rd_incWrap_ne (g f : Field) (s : State) (h : g.key ≠ f.key) : rd g (incWrap f s) = rd g s := rd_wr_ne _ _ _ _ h

/-- A saturating count after an event. -/
theorem rd_inc_same (f : Field) (s : State) (h : f.w ≤ 32) : rd f (inc f s) = min (rd f s + 1) (2 ^ f.w - 1) := by
  have k : 0 < 2 ^ f.w := Nat.pow_pos (by omega)
  have l : 2 ^ f.w ≤ 2 ^ 32 := Nat.pow_le_pow_right (by omega) h
  simp only [inc, incBy, rd_wr_same]
  rw [Nat.mod_eq_of_lt (show min (rd f s + 1) (2 ^ f.w - 1) < 2 ^ f.w by omega), Nat.mod_eq_of_lt (by omega)]

/-- A wrapping count after an event. -/
theorem rd_incWrap_same (f : Field) (s : State) (h : f.w ≤ 32) : rd f (incWrap f s) = (rd f s + 1) % 2 ^ f.w := by
  have l : 2 ^ f.w ≤ 2 ^ 32 := Nat.pow_le_pow_right (by omega) h
  simp only [incWrap, rd_wr_same]
  exact Nat.mod_eq_of_lt (Nat.lt_of_lt_of_le (Nat.mod_lt _ (Nat.pow_pos (by omega))) l)

@[simp] theorem rd_emit (f : Field) (o : Out) (s : State) : rd f (emit o s) = rd f s := rfl

@[simp] theorem rd_fresh (f : Field) (s : State) : rd f (fresh s).2 = rd f s := rfl

@[simp] theorem rd_recUpdate (f : Field) (u : RecImage → RecImage) (s : State) : rd f (recUpdate u s) = rd f s := by
  unfold recUpdate; split <;> rfl

@[simp] theorem rd_record (f : Field) (c x d : Nat) (s : State) : rd f (record c x d s) = rd f s := by simp [record]

@[simp] theorem rd_histAdd (f : Field) (h u v : Nat) (s : State) : rd f (histAdd h u v s) = rd f s := by simp [histAdd]

@[simp] theorem rd_extreme (f : Field) (x v : Nat) (s : State) : rd f (extreme x v s) = rd f s := by simp [extreme]

@[simp] theorem rd_raiseVector (f : Field) (v : Nat) (s : State) : rd f (raiseVector v s) = rd f s := by
  unfold raiseVector; split <;> rfl

theorem rd_irqCause (g f : Field) (s : State) : rd g (irqCause f s) = if g.key = f.key then 1 % 2 ^ f.w % 2 ^ 32 else rd g s := by
  simp only [irqCause, rd_raiseVector, rd_wr]

theorem rd_gateSilent (g : Field) (n : Nat) (s : State) :
    rd g (gateSilent n s) = if g.key = F.PWR_STAT_SILENT.key then 1 else rd g s := by
  simp only [gateSilent, rd_record, rd_wr]; split <;> rfl

theorem rd_assertFault (g : Field) (s : State) :
    rd g (assertFault s) = if g.key = F.PWR_STAT_FAULT.key then 1 else rd g s := by
  simp only [assertFault, rd_wr]; split <;> rfl

theorem rd_requestReset (g : Field) (c : Cause) (s : State) :
    rd g (requestReset c s) = if g.key = F.PWR_STAT_SILENT.key then 1 else rd g s := rd_gateSilent ..

theorem irqCause_regs (f : Field) (s : State) : (irqCause f s).regs = (wr f 1 s).regs := by
  simp only [irqCause, raiseVector]; split <;> rfl

/-- What a write's outcome leaves in the registers: those that report a refused write, and only for a refused one. -/
theorem writeDone_ok (who : Initiator) (a : Nat) (t : State) :
    (writeDone who a (.ok, t)) = { t with hst := (writeDone who a (.ok, t)).hst } := by
  unfold writeDone; split
  · rfl
  · simp only []; split <;> rfl

@[simp] theorem rd_writeDone_ok (f : Field) (who : Initiator) (a : Nat) (t : State) : rd f (writeDone who a (.ok, t)) = rd f t := by
  rw [writeDone_ok]; rfl

@[simp] theorem wr_cfg (f : Field) (v : Nat) (s : State) : (wr f v s).cfg = s.cfg := rfl
@[simp] theorem wr_cfgFull (f : Field) (v : Nat) (s : State) : (wr f v s).cfgFull = s.cfgFull := rfl
@[simp] theorem wr_free (f : Field) (v : Nat) (s : State) : (wr f v s).free = s.free := rfl
@[simp] theorem wr_out (f : Field) (v : Nat) (s : State) : (wr f v s).out = s.out := rfl
@[simp] theorem wr_pending (f : Field) (v : Nat) (s : State) : (wr f v s).pending = s.pending := rfl
@[simp] theorem wr_sys (f : Field) (v : Nat) (s : State) : (wr f v s).sys = s.sys := rfl
@[simp] theorem wr_mram (f : Field) (v : Nat) (s : State) : (wr f v s).mram = s.mram := rfl
@[simp] theorem wr_rcd (f : Field) (v : Nat) (s : State) : (wr f v s).rcd = s.rcd := rfl
@[simp] theorem wr_pwr (f : Field) (v : Nat) (s : State) : (wr f v s).pwr = s.pwr := rfl
@[simp] theorem wr_time (f : Field) (v : Nat) (s : State) : (wr f v s).time = s.time := rfl
@[simp] theorem wr_stp (f : Field) (v : Nat) (s : State) : (wr f v s).stp = s.stp := rfl
@[simp] theorem wr_qm (f : Field) (v : Nat) (s : State) : (wr f v s).qm = s.qm := rfl
@[simp] theorem wr_lkp (f : Field) (v : Nat) (s : State) : (wr f v s).lkp = s.lkp := rfl
@[simp] theorem wr_eth (f : Field) (v : Nat) (s : State) : (wr f v s).eth = s.eth := rfl
@[simp] theorem wr_t1s (f : Field) (v : Nat) (s : State) : (wr f v s).t1s = s.t1s := rfl
@[simp] theorem wr_can (f : Field) (v : Nat) (s : State) : (wr f v s).can = s.can := rfl
@[simp] theorem wr_lin (f : Field) (v : Nat) (s : State) : (wr f v s).lin = s.lin := rfl
@[simp] theorem wr_sbs (f : Field) (v : Nat) (s : State) : (wr f v s).sbs = s.sbs := rfl
@[simp] theorem wr_sig (f : Field) (v : Nat) (s : State) : (wr f v s).sig = s.sig := rfl
@[simp] theorem wr_grv (f : Field) (v : Nat) (s : State) : (wr f v s).grv = s.grv := rfl
@[simp] theorem wr_ctl (f : Field) (v : Nat) (s : State) : (wr f v s).ctl = s.ctl := rfl
@[simp] theorem wr_key (f : Field) (v : Nat) (s : State) : (wr f v s).key = s.key := rfl
@[simp] theorem wr_cip (f : Field) (v : Nat) (s : State) : (wr f v s).cip = s.cip := rfl
@[simp] theorem wr_slp (f : Field) (v : Nat) (s : State) : (wr f v s).slp = s.slp := rfl
@[simp] theorem wr_alm (f : Field) (v : Nat) (s : State) : (wr f v s).alm = s.alm := rfl
@[simp] theorem wr_hst (f : Field) (v : Nat) (s : State) : (wr f v s).hst = s.hst := rfl
@[simp] theorem wrB_cfg (f : Field) (b : Bool) (s : State) : (wrB f b s).cfg = s.cfg := rfl
@[simp] theorem wrB_cfgFull (f : Field) (b : Bool) (s : State) : (wrB f b s).cfgFull = s.cfgFull := rfl
@[simp] theorem wrB_free (f : Field) (b : Bool) (s : State) : (wrB f b s).free = s.free := rfl
@[simp] theorem wrB_out (f : Field) (b : Bool) (s : State) : (wrB f b s).out = s.out := rfl
@[simp] theorem wrB_pending (f : Field) (b : Bool) (s : State) : (wrB f b s).pending = s.pending := rfl
@[simp] theorem wrB_sys (f : Field) (b : Bool) (s : State) : (wrB f b s).sys = s.sys := rfl
@[simp] theorem wrB_mram (f : Field) (b : Bool) (s : State) : (wrB f b s).mram = s.mram := rfl
@[simp] theorem wrB_rcd (f : Field) (b : Bool) (s : State) : (wrB f b s).rcd = s.rcd := rfl
@[simp] theorem wrB_pwr (f : Field) (b : Bool) (s : State) : (wrB f b s).pwr = s.pwr := rfl
@[simp] theorem wrB_time (f : Field) (b : Bool) (s : State) : (wrB f b s).time = s.time := rfl
@[simp] theorem wrB_stp (f : Field) (b : Bool) (s : State) : (wrB f b s).stp = s.stp := rfl
@[simp] theorem wrB_qm (f : Field) (b : Bool) (s : State) : (wrB f b s).qm = s.qm := rfl
@[simp] theorem wrB_lkp (f : Field) (b : Bool) (s : State) : (wrB f b s).lkp = s.lkp := rfl
@[simp] theorem wrB_eth (f : Field) (b : Bool) (s : State) : (wrB f b s).eth = s.eth := rfl
@[simp] theorem wrB_t1s (f : Field) (b : Bool) (s : State) : (wrB f b s).t1s = s.t1s := rfl
@[simp] theorem wrB_can (f : Field) (b : Bool) (s : State) : (wrB f b s).can = s.can := rfl
@[simp] theorem wrB_lin (f : Field) (b : Bool) (s : State) : (wrB f b s).lin = s.lin := rfl
@[simp] theorem wrB_sbs (f : Field) (b : Bool) (s : State) : (wrB f b s).sbs = s.sbs := rfl
@[simp] theorem wrB_sig (f : Field) (b : Bool) (s : State) : (wrB f b s).sig = s.sig := rfl
@[simp] theorem wrB_grv (f : Field) (b : Bool) (s : State) : (wrB f b s).grv = s.grv := rfl
@[simp] theorem wrB_ctl (f : Field) (b : Bool) (s : State) : (wrB f b s).ctl = s.ctl := rfl
@[simp] theorem wrB_key (f : Field) (b : Bool) (s : State) : (wrB f b s).key = s.key := rfl
@[simp] theorem wrB_cip (f : Field) (b : Bool) (s : State) : (wrB f b s).cip = s.cip := rfl
@[simp] theorem wrB_slp (f : Field) (b : Bool) (s : State) : (wrB f b s).slp = s.slp := rfl
@[simp] theorem wrB_alm (f : Field) (b : Bool) (s : State) : (wrB f b s).alm = s.alm := rfl
@[simp] theorem wrB_hst (f : Field) (b : Bool) (s : State) : (wrB f b s).hst = s.hst := rfl
@[simp] theorem wrI_cfg (f : Field) (v : Int) (s : State) : (wrI f v s).cfg = s.cfg := rfl
@[simp] theorem wrI_cfgFull (f : Field) (v : Int) (s : State) : (wrI f v s).cfgFull = s.cfgFull := rfl
@[simp] theorem wrI_free (f : Field) (v : Int) (s : State) : (wrI f v s).free = s.free := rfl
@[simp] theorem wrI_out (f : Field) (v : Int) (s : State) : (wrI f v s).out = s.out := rfl
@[simp] theorem wrI_pending (f : Field) (v : Int) (s : State) : (wrI f v s).pending = s.pending := rfl
@[simp] theorem wrI_sys (f : Field) (v : Int) (s : State) : (wrI f v s).sys = s.sys := rfl
@[simp] theorem wrI_mram (f : Field) (v : Int) (s : State) : (wrI f v s).mram = s.mram := rfl
@[simp] theorem wrI_rcd (f : Field) (v : Int) (s : State) : (wrI f v s).rcd = s.rcd := rfl
@[simp] theorem wrI_pwr (f : Field) (v : Int) (s : State) : (wrI f v s).pwr = s.pwr := rfl
@[simp] theorem wrI_time (f : Field) (v : Int) (s : State) : (wrI f v s).time = s.time := rfl
@[simp] theorem wrI_stp (f : Field) (v : Int) (s : State) : (wrI f v s).stp = s.stp := rfl
@[simp] theorem wrI_qm (f : Field) (v : Int) (s : State) : (wrI f v s).qm = s.qm := rfl
@[simp] theorem wrI_lkp (f : Field) (v : Int) (s : State) : (wrI f v s).lkp = s.lkp := rfl
@[simp] theorem wrI_eth (f : Field) (v : Int) (s : State) : (wrI f v s).eth = s.eth := rfl
@[simp] theorem wrI_t1s (f : Field) (v : Int) (s : State) : (wrI f v s).t1s = s.t1s := rfl
@[simp] theorem wrI_can (f : Field) (v : Int) (s : State) : (wrI f v s).can = s.can := rfl
@[simp] theorem wrI_lin (f : Field) (v : Int) (s : State) : (wrI f v s).lin = s.lin := rfl
@[simp] theorem wrI_sbs (f : Field) (v : Int) (s : State) : (wrI f v s).sbs = s.sbs := rfl
@[simp] theorem wrI_sig (f : Field) (v : Int) (s : State) : (wrI f v s).sig = s.sig := rfl
@[simp] theorem wrI_grv (f : Field) (v : Int) (s : State) : (wrI f v s).grv = s.grv := rfl
@[simp] theorem wrI_ctl (f : Field) (v : Int) (s : State) : (wrI f v s).ctl = s.ctl := rfl
@[simp] theorem wrI_key (f : Field) (v : Int) (s : State) : (wrI f v s).key = s.key := rfl
@[simp] theorem wrI_cip (f : Field) (v : Int) (s : State) : (wrI f v s).cip = s.cip := rfl
@[simp] theorem wrI_slp (f : Field) (v : Int) (s : State) : (wrI f v s).slp = s.slp := rfl
@[simp] theorem wrI_alm (f : Field) (v : Int) (s : State) : (wrI f v s).alm = s.alm := rfl
@[simp] theorem wrI_hst (f : Field) (v : Int) (s : State) : (wrI f v s).hst = s.hst := rfl
@[simp] theorem incBy_cfg (f : Field) (n : Nat) (s : State) : (incBy f n s).cfg = s.cfg := rfl
@[simp] theorem incBy_cfgFull (f : Field) (n : Nat) (s : State) : (incBy f n s).cfgFull = s.cfgFull := rfl
@[simp] theorem incBy_free (f : Field) (n : Nat) (s : State) : (incBy f n s).free = s.free := rfl
@[simp] theorem incBy_out (f : Field) (n : Nat) (s : State) : (incBy f n s).out = s.out := rfl
@[simp] theorem incBy_pending (f : Field) (n : Nat) (s : State) : (incBy f n s).pending = s.pending := rfl
@[simp] theorem incBy_sys (f : Field) (n : Nat) (s : State) : (incBy f n s).sys = s.sys := rfl
@[simp] theorem incBy_mram (f : Field) (n : Nat) (s : State) : (incBy f n s).mram = s.mram := rfl
@[simp] theorem incBy_rcd (f : Field) (n : Nat) (s : State) : (incBy f n s).rcd = s.rcd := rfl
@[simp] theorem incBy_pwr (f : Field) (n : Nat) (s : State) : (incBy f n s).pwr = s.pwr := rfl
@[simp] theorem incBy_time (f : Field) (n : Nat) (s : State) : (incBy f n s).time = s.time := rfl
@[simp] theorem incBy_stp (f : Field) (n : Nat) (s : State) : (incBy f n s).stp = s.stp := rfl
@[simp] theorem incBy_qm (f : Field) (n : Nat) (s : State) : (incBy f n s).qm = s.qm := rfl
@[simp] theorem incBy_lkp (f : Field) (n : Nat) (s : State) : (incBy f n s).lkp = s.lkp := rfl
@[simp] theorem incBy_eth (f : Field) (n : Nat) (s : State) : (incBy f n s).eth = s.eth := rfl
@[simp] theorem incBy_t1s (f : Field) (n : Nat) (s : State) : (incBy f n s).t1s = s.t1s := rfl
@[simp] theorem incBy_can (f : Field) (n : Nat) (s : State) : (incBy f n s).can = s.can := rfl
@[simp] theorem incBy_lin (f : Field) (n : Nat) (s : State) : (incBy f n s).lin = s.lin := rfl
@[simp] theorem incBy_sbs (f : Field) (n : Nat) (s : State) : (incBy f n s).sbs = s.sbs := rfl
@[simp] theorem incBy_sig (f : Field) (n : Nat) (s : State) : (incBy f n s).sig = s.sig := rfl
@[simp] theorem incBy_grv (f : Field) (n : Nat) (s : State) : (incBy f n s).grv = s.grv := rfl
@[simp] theorem incBy_ctl (f : Field) (n : Nat) (s : State) : (incBy f n s).ctl = s.ctl := rfl
@[simp] theorem incBy_key (f : Field) (n : Nat) (s : State) : (incBy f n s).key = s.key := rfl
@[simp] theorem incBy_cip (f : Field) (n : Nat) (s : State) : (incBy f n s).cip = s.cip := rfl
@[simp] theorem incBy_slp (f : Field) (n : Nat) (s : State) : (incBy f n s).slp = s.slp := rfl
@[simp] theorem incBy_alm (f : Field) (n : Nat) (s : State) : (incBy f n s).alm = s.alm := rfl
@[simp] theorem incBy_hst (f : Field) (n : Nat) (s : State) : (incBy f n s).hst = s.hst := rfl
@[simp] theorem inc_cfg (f : Field) (s : State) : (inc f s).cfg = s.cfg := rfl
@[simp] theorem inc_cfgFull (f : Field) (s : State) : (inc f s).cfgFull = s.cfgFull := rfl
@[simp] theorem inc_free (f : Field) (s : State) : (inc f s).free = s.free := rfl
@[simp] theorem inc_out (f : Field) (s : State) : (inc f s).out = s.out := rfl
@[simp] theorem inc_pending (f : Field) (s : State) : (inc f s).pending = s.pending := rfl
@[simp] theorem inc_sys (f : Field) (s : State) : (inc f s).sys = s.sys := rfl
@[simp] theorem inc_mram (f : Field) (s : State) : (inc f s).mram = s.mram := rfl
@[simp] theorem inc_rcd (f : Field) (s : State) : (inc f s).rcd = s.rcd := rfl
@[simp] theorem inc_pwr (f : Field) (s : State) : (inc f s).pwr = s.pwr := rfl
@[simp] theorem inc_time (f : Field) (s : State) : (inc f s).time = s.time := rfl
@[simp] theorem inc_stp (f : Field) (s : State) : (inc f s).stp = s.stp := rfl
@[simp] theorem inc_qm (f : Field) (s : State) : (inc f s).qm = s.qm := rfl
@[simp] theorem inc_lkp (f : Field) (s : State) : (inc f s).lkp = s.lkp := rfl
@[simp] theorem inc_eth (f : Field) (s : State) : (inc f s).eth = s.eth := rfl
@[simp] theorem inc_t1s (f : Field) (s : State) : (inc f s).t1s = s.t1s := rfl
@[simp] theorem inc_can (f : Field) (s : State) : (inc f s).can = s.can := rfl
@[simp] theorem inc_lin (f : Field) (s : State) : (inc f s).lin = s.lin := rfl
@[simp] theorem inc_sbs (f : Field) (s : State) : (inc f s).sbs = s.sbs := rfl
@[simp] theorem inc_sig (f : Field) (s : State) : (inc f s).sig = s.sig := rfl
@[simp] theorem inc_grv (f : Field) (s : State) : (inc f s).grv = s.grv := rfl
@[simp] theorem inc_ctl (f : Field) (s : State) : (inc f s).ctl = s.ctl := rfl
@[simp] theorem inc_key (f : Field) (s : State) : (inc f s).key = s.key := rfl
@[simp] theorem inc_cip (f : Field) (s : State) : (inc f s).cip = s.cip := rfl
@[simp] theorem inc_slp (f : Field) (s : State) : (inc f s).slp = s.slp := rfl
@[simp] theorem inc_alm (f : Field) (s : State) : (inc f s).alm = s.alm := rfl
@[simp] theorem inc_hst (f : Field) (s : State) : (inc f s).hst = s.hst := rfl
@[simp] theorem incWrap_cfg (f : Field) (s : State) : (incWrap f s).cfg = s.cfg := rfl
@[simp] theorem incWrap_cfgFull (f : Field) (s : State) : (incWrap f s).cfgFull = s.cfgFull := rfl
@[simp] theorem incWrap_free (f : Field) (s : State) : (incWrap f s).free = s.free := rfl
@[simp] theorem incWrap_out (f : Field) (s : State) : (incWrap f s).out = s.out := rfl
@[simp] theorem incWrap_pending (f : Field) (s : State) : (incWrap f s).pending = s.pending := rfl
@[simp] theorem incWrap_sys (f : Field) (s : State) : (incWrap f s).sys = s.sys := rfl
@[simp] theorem incWrap_mram (f : Field) (s : State) : (incWrap f s).mram = s.mram := rfl
@[simp] theorem incWrap_rcd (f : Field) (s : State) : (incWrap f s).rcd = s.rcd := rfl
@[simp] theorem incWrap_pwr (f : Field) (s : State) : (incWrap f s).pwr = s.pwr := rfl
@[simp] theorem incWrap_time (f : Field) (s : State) : (incWrap f s).time = s.time := rfl
@[simp] theorem incWrap_stp (f : Field) (s : State) : (incWrap f s).stp = s.stp := rfl
@[simp] theorem incWrap_qm (f : Field) (s : State) : (incWrap f s).qm = s.qm := rfl
@[simp] theorem incWrap_lkp (f : Field) (s : State) : (incWrap f s).lkp = s.lkp := rfl
@[simp] theorem incWrap_eth (f : Field) (s : State) : (incWrap f s).eth = s.eth := rfl
@[simp] theorem incWrap_t1s (f : Field) (s : State) : (incWrap f s).t1s = s.t1s := rfl
@[simp] theorem incWrap_can (f : Field) (s : State) : (incWrap f s).can = s.can := rfl
@[simp] theorem incWrap_lin (f : Field) (s : State) : (incWrap f s).lin = s.lin := rfl
@[simp] theorem incWrap_sbs (f : Field) (s : State) : (incWrap f s).sbs = s.sbs := rfl
@[simp] theorem incWrap_sig (f : Field) (s : State) : (incWrap f s).sig = s.sig := rfl
@[simp] theorem incWrap_grv (f : Field) (s : State) : (incWrap f s).grv = s.grv := rfl
@[simp] theorem incWrap_ctl (f : Field) (s : State) : (incWrap f s).ctl = s.ctl := rfl
@[simp] theorem incWrap_key (f : Field) (s : State) : (incWrap f s).key = s.key := rfl
@[simp] theorem incWrap_cip (f : Field) (s : State) : (incWrap f s).cip = s.cip := rfl
@[simp] theorem incWrap_slp (f : Field) (s : State) : (incWrap f s).slp = s.slp := rfl
@[simp] theorem incWrap_alm (f : Field) (s : State) : (incWrap f s).alm = s.alm := rfl
@[simp] theorem incWrap_hst (f : Field) (s : State) : (incWrap f s).hst = s.hst := rfl
@[simp] theorem emit_regs (o : Out) (s : State) : (emit o s).regs = s.regs := rfl
@[simp] theorem emit_cfg (o : Out) (s : State) : (emit o s).cfg = s.cfg := rfl
@[simp] theorem emit_cfgFull (o : Out) (s : State) : (emit o s).cfgFull = s.cfgFull := rfl
@[simp] theorem emit_free (o : Out) (s : State) : (emit o s).free = s.free := rfl
@[simp] theorem emit_pending (o : Out) (s : State) : (emit o s).pending = s.pending := rfl
@[simp] theorem emit_sys (o : Out) (s : State) : (emit o s).sys = s.sys := rfl
@[simp] theorem emit_mram (o : Out) (s : State) : (emit o s).mram = s.mram := rfl
@[simp] theorem emit_rcd (o : Out) (s : State) : (emit o s).rcd = s.rcd := rfl
@[simp] theorem emit_pwr (o : Out) (s : State) : (emit o s).pwr = s.pwr := rfl
@[simp] theorem emit_time (o : Out) (s : State) : (emit o s).time = s.time := rfl
@[simp] theorem emit_stp (o : Out) (s : State) : (emit o s).stp = s.stp := rfl
@[simp] theorem emit_qm (o : Out) (s : State) : (emit o s).qm = s.qm := rfl
@[simp] theorem emit_lkp (o : Out) (s : State) : (emit o s).lkp = s.lkp := rfl
@[simp] theorem emit_eth (o : Out) (s : State) : (emit o s).eth = s.eth := rfl
@[simp] theorem emit_t1s (o : Out) (s : State) : (emit o s).t1s = s.t1s := rfl
@[simp] theorem emit_can (o : Out) (s : State) : (emit o s).can = s.can := rfl
@[simp] theorem emit_lin (o : Out) (s : State) : (emit o s).lin = s.lin := rfl
@[simp] theorem emit_sbs (o : Out) (s : State) : (emit o s).sbs = s.sbs := rfl
@[simp] theorem emit_sig (o : Out) (s : State) : (emit o s).sig = s.sig := rfl
@[simp] theorem emit_grv (o : Out) (s : State) : (emit o s).grv = s.grv := rfl
@[simp] theorem emit_ctl (o : Out) (s : State) : (emit o s).ctl = s.ctl := rfl
@[simp] theorem emit_key (o : Out) (s : State) : (emit o s).key = s.key := rfl
@[simp] theorem emit_cip (o : Out) (s : State) : (emit o s).cip = s.cip := rfl
@[simp] theorem emit_slp (o : Out) (s : State) : (emit o s).slp = s.slp := rfl
@[simp] theorem emit_alm (o : Out) (s : State) : (emit o s).alm = s.alm := rfl
@[simp] theorem emit_hst (o : Out) (s : State) : (emit o s).hst = s.hst := rfl
@[simp] theorem emit_out (o : Out) (s : State) : (emit o s).out = o :: s.out := rfl
@[simp] theorem fresh_regs (s : State) : (fresh s).2.regs = s.regs := rfl
@[simp] theorem fresh_cfg (s : State) : (fresh s).2.cfg = s.cfg := rfl
@[simp] theorem fresh_cfgFull (s : State) : (fresh s).2.cfgFull = s.cfgFull := rfl
@[simp] theorem fresh_out (s : State) : (fresh s).2.out = s.out := rfl
@[simp] theorem fresh_pending (s : State) : (fresh s).2.pending = s.pending := rfl
@[simp] theorem fresh_sys (s : State) : (fresh s).2.sys = s.sys := rfl
@[simp] theorem fresh_mram (s : State) : (fresh s).2.mram = s.mram := rfl
@[simp] theorem fresh_rcd (s : State) : (fresh s).2.rcd = s.rcd := rfl
@[simp] theorem fresh_pwr (s : State) : (fresh s).2.pwr = s.pwr := rfl
@[simp] theorem fresh_time (s : State) : (fresh s).2.time = s.time := rfl
@[simp] theorem fresh_stp (s : State) : (fresh s).2.stp = s.stp := rfl
@[simp] theorem fresh_qm (s : State) : (fresh s).2.qm = s.qm := rfl
@[simp] theorem fresh_lkp (s : State) : (fresh s).2.lkp = s.lkp := rfl
@[simp] theorem fresh_eth (s : State) : (fresh s).2.eth = s.eth := rfl
@[simp] theorem fresh_t1s (s : State) : (fresh s).2.t1s = s.t1s := rfl
@[simp] theorem fresh_can (s : State) : (fresh s).2.can = s.can := rfl
@[simp] theorem fresh_lin (s : State) : (fresh s).2.lin = s.lin := rfl
@[simp] theorem fresh_sbs (s : State) : (fresh s).2.sbs = s.sbs := rfl
@[simp] theorem fresh_sig (s : State) : (fresh s).2.sig = s.sig := rfl
@[simp] theorem fresh_grv (s : State) : (fresh s).2.grv = s.grv := rfl
@[simp] theorem fresh_ctl (s : State) : (fresh s).2.ctl = s.ctl := rfl
@[simp] theorem fresh_key (s : State) : (fresh s).2.key = s.key := rfl
@[simp] theorem fresh_cip (s : State) : (fresh s).2.cip = s.cip := rfl
@[simp] theorem fresh_slp (s : State) : (fresh s).2.slp = s.slp := rfl
@[simp] theorem fresh_alm (s : State) : (fresh s).2.alm = s.alm := rfl
@[simp] theorem fresh_hst (s : State) : (fresh s).2.hst = s.hst := rfl
@[simp] theorem fresh_free (s : State) : (fresh s).2.free = s.free + 1 := rfl
@[simp] theorem recUpdate_regs (u : RecImage → RecImage) (s : State) : (recUpdate u s).regs = s.regs := by
  unfold recUpdate; split <;> rfl
@[simp] theorem record_regs (c x d : Nat) (s : State) : (record c x d s).regs = s.regs := by simp [record]
@[simp] theorem histAdd_regs (h u v : Nat) (s : State) : (histAdd h u v s).regs = s.regs := by simp [histAdd]
@[simp] theorem extreme_regs (x v : Nat) (s : State) : (extreme x v s).regs = s.regs := by simp [extreme]
@[simp] theorem recUpdate_cfg (u : RecImage → RecImage) (s : State) : (recUpdate u s).cfg = s.cfg := by
  unfold recUpdate; split <;> rfl
@[simp] theorem record_cfg (c x d : Nat) (s : State) : (record c x d s).cfg = s.cfg := by simp [record]
@[simp] theorem histAdd_cfg (h u v : Nat) (s : State) : (histAdd h u v s).cfg = s.cfg := by simp [histAdd]
@[simp] theorem extreme_cfg (x v : Nat) (s : State) : (extreme x v s).cfg = s.cfg := by simp [extreme]
@[simp] theorem recUpdate_cfgFull (u : RecImage → RecImage) (s : State) : (recUpdate u s).cfgFull = s.cfgFull := by
  unfold recUpdate; split <;> rfl
@[simp] theorem record_cfgFull (c x d : Nat) (s : State) : (record c x d s).cfgFull = s.cfgFull := by simp [record]
@[simp] theorem histAdd_cfgFull (h u v : Nat) (s : State) : (histAdd h u v s).cfgFull = s.cfgFull := by simp [histAdd]
@[simp] theorem extreme_cfgFull (x v : Nat) (s : State) : (extreme x v s).cfgFull = s.cfgFull := by simp [extreme]
@[simp] theorem recUpdate_free (u : RecImage → RecImage) (s : State) : (recUpdate u s).free = s.free := by
  unfold recUpdate; split <;> rfl
@[simp] theorem record_free (c x d : Nat) (s : State) : (record c x d s).free = s.free := by simp [record]
@[simp] theorem histAdd_free (h u v : Nat) (s : State) : (histAdd h u v s).free = s.free := by simp [histAdd]
@[simp] theorem extreme_free (x v : Nat) (s : State) : (extreme x v s).free = s.free := by simp [extreme]
@[simp] theorem recUpdate_out (u : RecImage → RecImage) (s : State) : (recUpdate u s).out = s.out := by
  unfold recUpdate; split <;> rfl
@[simp] theorem record_out (c x d : Nat) (s : State) : (record c x d s).out = s.out := by simp [record]
@[simp] theorem histAdd_out (h u v : Nat) (s : State) : (histAdd h u v s).out = s.out := by simp [histAdd]
@[simp] theorem extreme_out (x v : Nat) (s : State) : (extreme x v s).out = s.out := by simp [extreme]
@[simp] theorem recUpdate_pending (u : RecImage → RecImage) (s : State) : (recUpdate u s).pending = s.pending := by
  unfold recUpdate; split <;> rfl
@[simp] theorem record_pending (c x d : Nat) (s : State) : (record c x d s).pending = s.pending := by simp [record]
@[simp] theorem histAdd_pending (h u v : Nat) (s : State) : (histAdd h u v s).pending = s.pending := by simp [histAdd]
@[simp] theorem extreme_pending (x v : Nat) (s : State) : (extreme x v s).pending = s.pending := by simp [extreme]
@[simp] theorem recUpdate_sys (u : RecImage → RecImage) (s : State) : (recUpdate u s).sys = s.sys := by
  unfold recUpdate; split <;> rfl
@[simp] theorem record_sys (c x d : Nat) (s : State) : (record c x d s).sys = s.sys := by simp [record]
@[simp] theorem histAdd_sys (h u v : Nat) (s : State) : (histAdd h u v s).sys = s.sys := by simp [histAdd]
@[simp] theorem extreme_sys (x v : Nat) (s : State) : (extreme x v s).sys = s.sys := by simp [extreme]
@[simp] theorem recUpdate_mram (u : RecImage → RecImage) (s : State) : (recUpdate u s).mram = s.mram := by
  unfold recUpdate; split <;> rfl
@[simp] theorem record_mram (c x d : Nat) (s : State) : (record c x d s).mram = s.mram := by simp [record]
@[simp] theorem histAdd_mram (h u v : Nat) (s : State) : (histAdd h u v s).mram = s.mram := by simp [histAdd]
@[simp] theorem extreme_mram (x v : Nat) (s : State) : (extreme x v s).mram = s.mram := by simp [extreme]
@[simp] theorem recUpdate_pwr (u : RecImage → RecImage) (s : State) : (recUpdate u s).pwr = s.pwr := by
  unfold recUpdate; split <;> rfl
@[simp] theorem record_pwr (c x d : Nat) (s : State) : (record c x d s).pwr = s.pwr := by simp [record]
@[simp] theorem histAdd_pwr (h u v : Nat) (s : State) : (histAdd h u v s).pwr = s.pwr := by simp [histAdd]
@[simp] theorem extreme_pwr (x v : Nat) (s : State) : (extreme x v s).pwr = s.pwr := by simp [extreme]
@[simp] theorem recUpdate_time (u : RecImage → RecImage) (s : State) : (recUpdate u s).time = s.time := by
  unfold recUpdate; split <;> rfl
@[simp] theorem record_time (c x d : Nat) (s : State) : (record c x d s).time = s.time := by simp [record]
@[simp] theorem histAdd_time (h u v : Nat) (s : State) : (histAdd h u v s).time = s.time := by simp [histAdd]
@[simp] theorem extreme_time (x v : Nat) (s : State) : (extreme x v s).time = s.time := by simp [extreme]
@[simp] theorem recUpdate_stp (u : RecImage → RecImage) (s : State) : (recUpdate u s).stp = s.stp := by
  unfold recUpdate; split <;> rfl
@[simp] theorem record_stp (c x d : Nat) (s : State) : (record c x d s).stp = s.stp := by simp [record]
@[simp] theorem histAdd_stp (h u v : Nat) (s : State) : (histAdd h u v s).stp = s.stp := by simp [histAdd]
@[simp] theorem extreme_stp (x v : Nat) (s : State) : (extreme x v s).stp = s.stp := by simp [extreme]
@[simp] theorem recUpdate_qm (u : RecImage → RecImage) (s : State) : (recUpdate u s).qm = s.qm := by
  unfold recUpdate; split <;> rfl
@[simp] theorem record_qm (c x d : Nat) (s : State) : (record c x d s).qm = s.qm := by simp [record]
@[simp] theorem histAdd_qm (h u v : Nat) (s : State) : (histAdd h u v s).qm = s.qm := by simp [histAdd]
@[simp] theorem extreme_qm (x v : Nat) (s : State) : (extreme x v s).qm = s.qm := by simp [extreme]
@[simp] theorem recUpdate_lkp (u : RecImage → RecImage) (s : State) : (recUpdate u s).lkp = s.lkp := by
  unfold recUpdate; split <;> rfl
@[simp] theorem record_lkp (c x d : Nat) (s : State) : (record c x d s).lkp = s.lkp := by simp [record]
@[simp] theorem histAdd_lkp (h u v : Nat) (s : State) : (histAdd h u v s).lkp = s.lkp := by simp [histAdd]
@[simp] theorem extreme_lkp (x v : Nat) (s : State) : (extreme x v s).lkp = s.lkp := by simp [extreme]
@[simp] theorem recUpdate_eth (u : RecImage → RecImage) (s : State) : (recUpdate u s).eth = s.eth := by
  unfold recUpdate; split <;> rfl
@[simp] theorem record_eth (c x d : Nat) (s : State) : (record c x d s).eth = s.eth := by simp [record]
@[simp] theorem histAdd_eth (h u v : Nat) (s : State) : (histAdd h u v s).eth = s.eth := by simp [histAdd]
@[simp] theorem extreme_eth (x v : Nat) (s : State) : (extreme x v s).eth = s.eth := by simp [extreme]
@[simp] theorem recUpdate_t1s (u : RecImage → RecImage) (s : State) : (recUpdate u s).t1s = s.t1s := by
  unfold recUpdate; split <;> rfl
@[simp] theorem record_t1s (c x d : Nat) (s : State) : (record c x d s).t1s = s.t1s := by simp [record]
@[simp] theorem histAdd_t1s (h u v : Nat) (s : State) : (histAdd h u v s).t1s = s.t1s := by simp [histAdd]
@[simp] theorem extreme_t1s (x v : Nat) (s : State) : (extreme x v s).t1s = s.t1s := by simp [extreme]
@[simp] theorem recUpdate_can (u : RecImage → RecImage) (s : State) : (recUpdate u s).can = s.can := by
  unfold recUpdate; split <;> rfl
@[simp] theorem record_can (c x d : Nat) (s : State) : (record c x d s).can = s.can := by simp [record]
@[simp] theorem histAdd_can (h u v : Nat) (s : State) : (histAdd h u v s).can = s.can := by simp [histAdd]
@[simp] theorem extreme_can (x v : Nat) (s : State) : (extreme x v s).can = s.can := by simp [extreme]
@[simp] theorem recUpdate_lin (u : RecImage → RecImage) (s : State) : (recUpdate u s).lin = s.lin := by
  unfold recUpdate; split <;> rfl
@[simp] theorem record_lin (c x d : Nat) (s : State) : (record c x d s).lin = s.lin := by simp [record]
@[simp] theorem histAdd_lin (h u v : Nat) (s : State) : (histAdd h u v s).lin = s.lin := by simp [histAdd]
@[simp] theorem extreme_lin (x v : Nat) (s : State) : (extreme x v s).lin = s.lin := by simp [extreme]
@[simp] theorem recUpdate_sbs (u : RecImage → RecImage) (s : State) : (recUpdate u s).sbs = s.sbs := by
  unfold recUpdate; split <;> rfl
@[simp] theorem record_sbs (c x d : Nat) (s : State) : (record c x d s).sbs = s.sbs := by simp [record]
@[simp] theorem histAdd_sbs (h u v : Nat) (s : State) : (histAdd h u v s).sbs = s.sbs := by simp [histAdd]
@[simp] theorem extreme_sbs (x v : Nat) (s : State) : (extreme x v s).sbs = s.sbs := by simp [extreme]
@[simp] theorem recUpdate_sig (u : RecImage → RecImage) (s : State) : (recUpdate u s).sig = s.sig := by
  unfold recUpdate; split <;> rfl
@[simp] theorem record_sig (c x d : Nat) (s : State) : (record c x d s).sig = s.sig := by simp [record]
@[simp] theorem histAdd_sig (h u v : Nat) (s : State) : (histAdd h u v s).sig = s.sig := by simp [histAdd]
@[simp] theorem extreme_sig (x v : Nat) (s : State) : (extreme x v s).sig = s.sig := by simp [extreme]
@[simp] theorem recUpdate_grv (u : RecImage → RecImage) (s : State) : (recUpdate u s).grv = s.grv := by
  unfold recUpdate; split <;> rfl
@[simp] theorem record_grv (c x d : Nat) (s : State) : (record c x d s).grv = s.grv := by simp [record]
@[simp] theorem histAdd_grv (h u v : Nat) (s : State) : (histAdd h u v s).grv = s.grv := by simp [histAdd]
@[simp] theorem extreme_grv (x v : Nat) (s : State) : (extreme x v s).grv = s.grv := by simp [extreme]
@[simp] theorem recUpdate_ctl (u : RecImage → RecImage) (s : State) : (recUpdate u s).ctl = s.ctl := by
  unfold recUpdate; split <;> rfl
@[simp] theorem record_ctl (c x d : Nat) (s : State) : (record c x d s).ctl = s.ctl := by simp [record]
@[simp] theorem histAdd_ctl (h u v : Nat) (s : State) : (histAdd h u v s).ctl = s.ctl := by simp [histAdd]
@[simp] theorem extreme_ctl (x v : Nat) (s : State) : (extreme x v s).ctl = s.ctl := by simp [extreme]
@[simp] theorem recUpdate_key (u : RecImage → RecImage) (s : State) : (recUpdate u s).key = s.key := by
  unfold recUpdate; split <;> rfl
@[simp] theorem record_key (c x d : Nat) (s : State) : (record c x d s).key = s.key := by simp [record]
@[simp] theorem histAdd_key (h u v : Nat) (s : State) : (histAdd h u v s).key = s.key := by simp [histAdd]
@[simp] theorem extreme_key (x v : Nat) (s : State) : (extreme x v s).key = s.key := by simp [extreme]
@[simp] theorem recUpdate_cip (u : RecImage → RecImage) (s : State) : (recUpdate u s).cip = s.cip := by
  unfold recUpdate; split <;> rfl
@[simp] theorem record_cip (c x d : Nat) (s : State) : (record c x d s).cip = s.cip := by simp [record]
@[simp] theorem histAdd_cip (h u v : Nat) (s : State) : (histAdd h u v s).cip = s.cip := by simp [histAdd]
@[simp] theorem extreme_cip (x v : Nat) (s : State) : (extreme x v s).cip = s.cip := by simp [extreme]
@[simp] theorem recUpdate_slp (u : RecImage → RecImage) (s : State) : (recUpdate u s).slp = s.slp := by
  unfold recUpdate; split <;> rfl
@[simp] theorem record_slp (c x d : Nat) (s : State) : (record c x d s).slp = s.slp := by simp [record]
@[simp] theorem histAdd_slp (h u v : Nat) (s : State) : (histAdd h u v s).slp = s.slp := by simp [histAdd]
@[simp] theorem extreme_slp (x v : Nat) (s : State) : (extreme x v s).slp = s.slp := by simp [extreme]
@[simp] theorem recUpdate_alm (u : RecImage → RecImage) (s : State) : (recUpdate u s).alm = s.alm := by
  unfold recUpdate; split <;> rfl
@[simp] theorem record_alm (c x d : Nat) (s : State) : (record c x d s).alm = s.alm := by simp [record]
@[simp] theorem histAdd_alm (h u v : Nat) (s : State) : (histAdd h u v s).alm = s.alm := by simp [histAdd]
@[simp] theorem extreme_alm (x v : Nat) (s : State) : (extreme x v s).alm = s.alm := by simp [extreme]
@[simp] theorem recUpdate_hst (u : RecImage → RecImage) (s : State) : (recUpdate u s).hst = s.hst := by
  unfold recUpdate; split <;> rfl
@[simp] theorem record_hst (c x d : Nat) (s : State) : (record c x d s).hst = s.hst := by simp [record]
@[simp] theorem histAdd_hst (h u v : Nat) (s : State) : (histAdd h u v s).hst = s.hst := by simp [histAdd]
@[simp] theorem extreme_hst (x v : Nat) (s : State) : (extreme x v s).hst = s.hst := by simp [extreme]
@[simp] theorem raiseVector_regs (v : Nat) (s : State) : (raiseVector v s).regs = s.regs := by
  unfold raiseVector; split <;> rfl
@[simp] theorem raiseVector_cfg (v : Nat) (s : State) : (raiseVector v s).cfg = s.cfg := by
  unfold raiseVector; split <;> rfl
@[simp] theorem raiseVector_cfgFull (v : Nat) (s : State) : (raiseVector v s).cfgFull = s.cfgFull := by
  unfold raiseVector; split <;> rfl
@[simp] theorem raiseVector_free (v : Nat) (s : State) : (raiseVector v s).free = s.free := by
  unfold raiseVector; split <;> rfl
@[simp] theorem raiseVector_pending (v : Nat) (s : State) : (raiseVector v s).pending = s.pending := by
  unfold raiseVector; split <;> rfl
@[simp] theorem raiseVector_sys (v : Nat) (s : State) : (raiseVector v s).sys = s.sys := by
  unfold raiseVector; split <;> rfl
@[simp] theorem raiseVector_mram (v : Nat) (s : State) : (raiseVector v s).mram = s.mram := by
  unfold raiseVector; split <;> rfl
@[simp] theorem raiseVector_rcd (v : Nat) (s : State) : (raiseVector v s).rcd = s.rcd := by
  unfold raiseVector; split <;> rfl
@[simp] theorem raiseVector_pwr (v : Nat) (s : State) : (raiseVector v s).pwr = s.pwr := by
  unfold raiseVector; split <;> rfl
@[simp] theorem raiseVector_time (v : Nat) (s : State) : (raiseVector v s).time = s.time := by
  unfold raiseVector; split <;> rfl
@[simp] theorem raiseVector_stp (v : Nat) (s : State) : (raiseVector v s).stp = s.stp := by
  unfold raiseVector; split <;> rfl
@[simp] theorem raiseVector_qm (v : Nat) (s : State) : (raiseVector v s).qm = s.qm := by
  unfold raiseVector; split <;> rfl
@[simp] theorem raiseVector_lkp (v : Nat) (s : State) : (raiseVector v s).lkp = s.lkp := by
  unfold raiseVector; split <;> rfl
@[simp] theorem raiseVector_eth (v : Nat) (s : State) : (raiseVector v s).eth = s.eth := by
  unfold raiseVector; split <;> rfl
@[simp] theorem raiseVector_t1s (v : Nat) (s : State) : (raiseVector v s).t1s = s.t1s := by
  unfold raiseVector; split <;> rfl
@[simp] theorem raiseVector_can (v : Nat) (s : State) : (raiseVector v s).can = s.can := by
  unfold raiseVector; split <;> rfl
@[simp] theorem raiseVector_lin (v : Nat) (s : State) : (raiseVector v s).lin = s.lin := by
  unfold raiseVector; split <;> rfl
@[simp] theorem raiseVector_sbs (v : Nat) (s : State) : (raiseVector v s).sbs = s.sbs := by
  unfold raiseVector; split <;> rfl
@[simp] theorem raiseVector_sig (v : Nat) (s : State) : (raiseVector v s).sig = s.sig := by
  unfold raiseVector; split <;> rfl
@[simp] theorem raiseVector_grv (v : Nat) (s : State) : (raiseVector v s).grv = s.grv := by
  unfold raiseVector; split <;> rfl
@[simp] theorem raiseVector_ctl (v : Nat) (s : State) : (raiseVector v s).ctl = s.ctl := by
  unfold raiseVector; split <;> rfl
@[simp] theorem raiseVector_key (v : Nat) (s : State) : (raiseVector v s).key = s.key := by
  unfold raiseVector; split <;> rfl
@[simp] theorem raiseVector_cip (v : Nat) (s : State) : (raiseVector v s).cip = s.cip := by
  unfold raiseVector; split <;> rfl
@[simp] theorem raiseVector_slp (v : Nat) (s : State) : (raiseVector v s).slp = s.slp := by
  unfold raiseVector; split <;> rfl
@[simp] theorem raiseVector_alm (v : Nat) (s : State) : (raiseVector v s).alm = s.alm := by
  unfold raiseVector; split <;> rfl
@[simp] theorem irqCause_cfg (f : Field) (s : State) : (irqCause f s).cfg = s.cfg := by
  simp [irqCause]
@[simp] theorem irqCause_cfgFull (f : Field) (s : State) : (irqCause f s).cfgFull = s.cfgFull := by
  simp [irqCause]
@[simp] theorem irqCause_free (f : Field) (s : State) : (irqCause f s).free = s.free := by
  simp [irqCause]
@[simp] theorem irqCause_pending (f : Field) (s : State) : (irqCause f s).pending = s.pending := by
  simp [irqCause]
@[simp] theorem irqCause_sys (f : Field) (s : State) : (irqCause f s).sys = s.sys := by
  simp [irqCause]
@[simp] theorem irqCause_mram (f : Field) (s : State) : (irqCause f s).mram = s.mram := by
  simp [irqCause]
@[simp] theorem irqCause_rcd (f : Field) (s : State) : (irqCause f s).rcd = s.rcd := by
  simp [irqCause]
@[simp] theorem irqCause_pwr (f : Field) (s : State) : (irqCause f s).pwr = s.pwr := by
  simp [irqCause]
@[simp] theorem irqCause_time (f : Field) (s : State) : (irqCause f s).time = s.time := by
  simp [irqCause]
@[simp] theorem irqCause_stp (f : Field) (s : State) : (irqCause f s).stp = s.stp := by
  simp [irqCause]
@[simp] theorem irqCause_qm (f : Field) (s : State) : (irqCause f s).qm = s.qm := by
  simp [irqCause]
@[simp] theorem irqCause_lkp (f : Field) (s : State) : (irqCause f s).lkp = s.lkp := by
  simp [irqCause]
@[simp] theorem irqCause_eth (f : Field) (s : State) : (irqCause f s).eth = s.eth := by
  simp [irqCause]
@[simp] theorem irqCause_t1s (f : Field) (s : State) : (irqCause f s).t1s = s.t1s := by
  simp [irqCause]
@[simp] theorem irqCause_can (f : Field) (s : State) : (irqCause f s).can = s.can := by
  simp [irqCause]
@[simp] theorem irqCause_lin (f : Field) (s : State) : (irqCause f s).lin = s.lin := by
  simp [irqCause]
@[simp] theorem irqCause_sbs (f : Field) (s : State) : (irqCause f s).sbs = s.sbs := by
  simp [irqCause]
@[simp] theorem irqCause_sig (f : Field) (s : State) : (irqCause f s).sig = s.sig := by
  simp [irqCause]
@[simp] theorem irqCause_grv (f : Field) (s : State) : (irqCause f s).grv = s.grv := by
  simp [irqCause]
@[simp] theorem irqCause_ctl (f : Field) (s : State) : (irqCause f s).ctl = s.ctl := by
  simp [irqCause]
@[simp] theorem irqCause_key (f : Field) (s : State) : (irqCause f s).key = s.key := by
  simp [irqCause]
@[simp] theorem irqCause_cip (f : Field) (s : State) : (irqCause f s).cip = s.cip := by
  simp [irqCause]
@[simp] theorem irqCause_slp (f : Field) (s : State) : (irqCause f s).slp = s.slp := by
  simp [irqCause]
@[simp] theorem irqCause_alm (f : Field) (s : State) : (irqCause f s).alm = s.alm := by
  simp [irqCause]
@[simp] theorem gateSilent_cfg (n : Nat) (s : State) : (gateSilent n s).cfg = s.cfg := by
  simp [gateSilent]
@[simp] theorem gateSilent_cfgFull (n : Nat) (s : State) : (gateSilent n s).cfgFull = s.cfgFull := by
  simp [gateSilent]
@[simp] theorem gateSilent_free (n : Nat) (s : State) : (gateSilent n s).free = s.free := by
  simp [gateSilent]
@[simp] theorem gateSilent_out (n : Nat) (s : State) : (gateSilent n s).out = s.out := by
  simp [gateSilent]
@[simp] theorem gateSilent_pending (n : Nat) (s : State) : (gateSilent n s).pending = s.pending := by
  simp [gateSilent]
@[simp] theorem gateSilent_sys (n : Nat) (s : State) : (gateSilent n s).sys = s.sys := by
  simp [gateSilent]
@[simp] theorem gateSilent_mram (n : Nat) (s : State) : (gateSilent n s).mram = s.mram := by
  simp [gateSilent]
@[simp] theorem gateSilent_time (n : Nat) (s : State) : (gateSilent n s).time = s.time := by
  simp [gateSilent]
@[simp] theorem gateSilent_stp (n : Nat) (s : State) : (gateSilent n s).stp = s.stp := by
  simp [gateSilent]
@[simp] theorem gateSilent_qm (n : Nat) (s : State) : (gateSilent n s).qm = s.qm := by
  simp [gateSilent]
@[simp] theorem gateSilent_lkp (n : Nat) (s : State) : (gateSilent n s).lkp = s.lkp := by
  simp [gateSilent]
@[simp] theorem gateSilent_eth (n : Nat) (s : State) : (gateSilent n s).eth = s.eth := by
  simp [gateSilent]
@[simp] theorem gateSilent_t1s (n : Nat) (s : State) : (gateSilent n s).t1s = s.t1s := by
  simp [gateSilent]
@[simp] theorem gateSilent_can (n : Nat) (s : State) : (gateSilent n s).can = s.can := by
  simp [gateSilent]
@[simp] theorem gateSilent_lin (n : Nat) (s : State) : (gateSilent n s).lin = s.lin := by
  simp [gateSilent]
@[simp] theorem gateSilent_sbs (n : Nat) (s : State) : (gateSilent n s).sbs = s.sbs := by
  simp [gateSilent]
@[simp] theorem gateSilent_sig (n : Nat) (s : State) : (gateSilent n s).sig = s.sig := by
  simp [gateSilent]
@[simp] theorem gateSilent_grv (n : Nat) (s : State) : (gateSilent n s).grv = s.grv := by
  simp [gateSilent]
@[simp] theorem gateSilent_ctl (n : Nat) (s : State) : (gateSilent n s).ctl = s.ctl := by
  simp [gateSilent]
@[simp] theorem gateSilent_key (n : Nat) (s : State) : (gateSilent n s).key = s.key := by
  simp [gateSilent]
@[simp] theorem gateSilent_cip (n : Nat) (s : State) : (gateSilent n s).cip = s.cip := by
  simp [gateSilent]
@[simp] theorem gateSilent_slp (n : Nat) (s : State) : (gateSilent n s).slp = s.slp := by
  simp [gateSilent]
@[simp] theorem gateSilent_alm (n : Nat) (s : State) : (gateSilent n s).alm = s.alm := by
  simp [gateSilent]
@[simp] theorem gateSilent_hst (n : Nat) (s : State) : (gateSilent n s).hst = s.hst := by
  simp [gateSilent]
@[simp] theorem assertFault_cfg (s : State) : (assertFault s).cfg = s.cfg := rfl
@[simp] theorem assertFault_cfgFull (s : State) : (assertFault s).cfgFull = s.cfgFull := rfl
@[simp] theorem assertFault_free (s : State) : (assertFault s).free = s.free := rfl
@[simp] theorem assertFault_out (s : State) : (assertFault s).out = s.out := rfl
@[simp] theorem assertFault_pending (s : State) : (assertFault s).pending = s.pending := rfl
@[simp] theorem assertFault_sys (s : State) : (assertFault s).sys = s.sys := rfl
@[simp] theorem assertFault_mram (s : State) : (assertFault s).mram = s.mram := rfl
@[simp] theorem assertFault_rcd (s : State) : (assertFault s).rcd = s.rcd := rfl
@[simp] theorem assertFault_time (s : State) : (assertFault s).time = s.time := rfl
@[simp] theorem assertFault_stp (s : State) : (assertFault s).stp = s.stp := rfl
@[simp] theorem assertFault_qm (s : State) : (assertFault s).qm = s.qm := rfl
@[simp] theorem assertFault_lkp (s : State) : (assertFault s).lkp = s.lkp := rfl
@[simp] theorem assertFault_eth (s : State) : (assertFault s).eth = s.eth := rfl
@[simp] theorem assertFault_t1s (s : State) : (assertFault s).t1s = s.t1s := rfl
@[simp] theorem assertFault_can (s : State) : (assertFault s).can = s.can := rfl
@[simp] theorem assertFault_lin (s : State) : (assertFault s).lin = s.lin := rfl
@[simp] theorem assertFault_sbs (s : State) : (assertFault s).sbs = s.sbs := rfl
@[simp] theorem assertFault_sig (s : State) : (assertFault s).sig = s.sig := rfl
@[simp] theorem assertFault_grv (s : State) : (assertFault s).grv = s.grv := rfl
@[simp] theorem assertFault_ctl (s : State) : (assertFault s).ctl = s.ctl := rfl
@[simp] theorem assertFault_key (s : State) : (assertFault s).key = s.key := rfl
@[simp] theorem assertFault_cip (s : State) : (assertFault s).cip = s.cip := rfl
@[simp] theorem assertFault_slp (s : State) : (assertFault s).slp = s.slp := rfl
@[simp] theorem assertFault_alm (s : State) : (assertFault s).alm = s.alm := rfl
@[simp] theorem assertFault_hst (s : State) : (assertFault s).hst = s.hst := rfl
@[simp] theorem requestReset_cfg (c : Cause) (s : State) : (requestReset c s).cfg = s.cfg := by
  simp [requestReset]
@[simp] theorem requestReset_cfgFull (c : Cause) (s : State) : (requestReset c s).cfgFull = s.cfgFull := by
  simp [requestReset]
@[simp] theorem requestReset_free (c : Cause) (s : State) : (requestReset c s).free = s.free := by
  simp [requestReset]
@[simp] theorem requestReset_out (c : Cause) (s : State) : (requestReset c s).out = s.out := by
  simp [requestReset]
@[simp] theorem requestReset_pending (c : Cause) (s : State) : (requestReset c s).pending = s.pending := by
  simp [requestReset]
@[simp] theorem requestReset_mram (c : Cause) (s : State) : (requestReset c s).mram = s.mram := by
  simp [requestReset]
@[simp] theorem requestReset_time (c : Cause) (s : State) : (requestReset c s).time = s.time := by
  simp [requestReset]
@[simp] theorem requestReset_stp (c : Cause) (s : State) : (requestReset c s).stp = s.stp := by
  simp [requestReset]
@[simp] theorem requestReset_qm (c : Cause) (s : State) : (requestReset c s).qm = s.qm := by
  simp [requestReset]
@[simp] theorem requestReset_lkp (c : Cause) (s : State) : (requestReset c s).lkp = s.lkp := by
  simp [requestReset]
@[simp] theorem requestReset_eth (c : Cause) (s : State) : (requestReset c s).eth = s.eth := by
  simp [requestReset]
@[simp] theorem requestReset_t1s (c : Cause) (s : State) : (requestReset c s).t1s = s.t1s := by
  simp [requestReset]
@[simp] theorem requestReset_can (c : Cause) (s : State) : (requestReset c s).can = s.can := by
  simp [requestReset]
@[simp] theorem requestReset_lin (c : Cause) (s : State) : (requestReset c s).lin = s.lin := by
  simp [requestReset]
@[simp] theorem requestReset_sbs (c : Cause) (s : State) : (requestReset c s).sbs = s.sbs := by
  simp [requestReset]
@[simp] theorem requestReset_sig (c : Cause) (s : State) : (requestReset c s).sig = s.sig := by
  simp [requestReset]
@[simp] theorem requestReset_grv (c : Cause) (s : State) : (requestReset c s).grv = s.grv := by
  simp [requestReset]
@[simp] theorem requestReset_ctl (c : Cause) (s : State) : (requestReset c s).ctl = s.ctl := by
  simp [requestReset]
@[simp] theorem requestReset_key (c : Cause) (s : State) : (requestReset c s).key = s.key := by
  simp [requestReset]
@[simp] theorem requestReset_cip (c : Cause) (s : State) : (requestReset c s).cip = s.cip := by
  simp [requestReset]
@[simp] theorem requestReset_slp (c : Cause) (s : State) : (requestReset c s).slp = s.slp := by
  simp [requestReset]
@[simp] theorem requestReset_alm (c : Cause) (s : State) : (requestReset c s).alm = s.alm := by
  simp [requestReset]
@[simp] theorem requestReset_hst (c : Cause) (s : State) : (requestReset c s).hst = s.hst := by
  simp [requestReset]
@[simp] theorem gateSilent_pwr (n : Nat) (s : State) : (gateSilent n s).pwr = { s.pwr with gated := true, sbsClrN := false } := by
  simp [gateSilent]
@[simp] theorem requestReset_pwr (c : Cause) (s : State) : (requestReset c s).pwr = { s.pwr with gated := true, sbsClrN := false } := by
  simp [requestReset]
@[simp] theorem requestReset_sys (c : Cause) (s : State) :
    (requestReset c s).sys = { s.sys with request := some (s.sys.request.getD c) } := by
  simp [requestReset]
theorem gateSilent_regs (n : Nat) (s : State) : (gateSilent n s).regs = tput s.regs F.PWR_STAT_SILENT.key 1 := by
  simp [gateSilent, wr_regs]; rfl

theorem assertFault_regs (s : State) : (assertFault s).regs = tput s.regs F.PWR_STAT_FAULT.key 1 := rfl

theorem requestReset_regs (c : Cause) (s : State) : (requestReset c s).regs = tput s.regs F.PWR_STAT_SILENT.key 1 :=
  gateSilent_regs 0 s

end Sys2Proof.Machine
end

