-- ==== Sys2Proof/Tests/Slice0.lean ====
section
/-! SUPPORT. Our own tests: the small states they start from, what WellFormed refuses, single commands whose results the
spec gives or whose results follow from it by hand, and for every obligation states and operands that meet its hypotheses. -/

namespace Sys2Proof.Machine

/-! ### Small states the tests start from. Each is State.reset with only what the test needs; the record layouts are those
of the section contents the rules give. -/

/-- n bytes, zero but for little-endian fields given as (offset, width, value). -/
def witBytes (n : Nat) (l : List (Nat × Nat × Nat)) : List Byte :=
  l.foldl (fun b x => spliceAt b x.1 (leBytes x.2.1 x.2.2)) (zeros n)
/-- With one plate record in force. -/
def witRec (t i : Nat) (b : List Byte) (s : State) : State := { s with cfg := tput s.cfg (cfgKey t i) b }
/-- A started device: full stage, ACTIVE, transmitters released. -/
def witFull : State := wr F.SYS_BOOT_STAT_STAGE 5 { pwr := { mode := 0, gated := false, faultN := false } }
/-- The same at another stage of the start. -/
def witStage (n : Nat) : State := wr F.SYS_BOOT_STAT_STAGE n witFull
/-- A start environment without faults. -/
def witEnv : StartEnv := ⟨0, 0, true, 0, 0, .full⟩
/-- Both host interfaces hold every permission. -/
def witHost : State :=
  wr (F.HST_PERMi_PERM.u 0) 0x1FF (wr (F.HST_PERMi_PERM.u 1) 0x1FF (witRec C.hostHdr 0 (witBytes 16 [(7, 1, 3)]) witFull))
/-- A recovery state with an open staging session. -/
def witSession (x : Session) : State := { witStage 8 with sys := { session := some x } }
/-- A staging command waits on an open session. -/
def witStaging : State := { witSession ⟨true, 5000, [0]⟩ with pending := [.stageWrite .pcie] }
/-- A charged hold-up capacitor. -/
def witCharged : State := { witFull with pwr := { mode := 0, gated := false, samples := [1000, 1000, 1000, 1000] } }
/-- Domain d of TIME in use on every port, with domain 0 beside it; port p is its slave port. -/
def witTime (d p : Nat) : State :=
  wr (F.TIME_Dn_STAT_SLAVE_PORT.u d) p
    (witRec C.timeDom d (witBytes 20 [(1, 1, 1), (6, 1, 1), (0x10, 4, 0xFFFFFFFF)])
      (witRec C.timeHdr 0 (witBytes 12 [(0, 1, 2 ^ d), (0x0B, 1, 3)]) witFull))
/-- Domain 0 with BMCA, able to be grandmaster or not. -/
def witBmca (able : Nat) : State :=
  witRec C.timeDom 0 (witBytes 20 [(1, 1, 1), (6, 1, able), (0x10, 4, 0xFFFFFFFF)])
    (witRec C.timeHdr 0 (witBytes 12 [(0, 1, 1)]) witFull)
/-- An Announce of another clock. -/
def witAnnounce : Announce := ⟨31, 0, 0, 0, 0, 0, Config.clockIdentity + 1, 0, []⟩
/-- The domains' time is n nanoseconds. -/
def witAt (n : Nat) (s : State) : State :=
  witRec C.timeHdr 0 (witBytes 12 [(0, 1, 1), (0x0B, 1, 2)]) { s with time := { doms := [(0, { val := n * clkUnit })] } }
/-- Stipple entry 0 with an action, a target and flags beside EN, on a period of 1 ms that starts at 0. -/
def witStp (act target par : Nat) : State :=
  witRec C.stpPeriod 0 (witBytes 16 [(0, 4, 1000000), (8, 4, 1000)])
    (witRec C.stpEntry 0 (witBytes 16 [(1, 1, if act = 1 ∨ act = 2 then 1 + 2 * par else 1), (2, 2, target), (8, 1, act),
      (0x0A, 2, if act = 1 then 1 else if act = 2 then 0 else par)]) witFull)
/-- The same with its frame at the head of queue 816. -/
def witStpReady (act : Nat) : State :=
  { witStp act (if act = 1 then 816 else 0) 1 with qm := { frames := [(0, { pdu := some 0, phase := 3, refs := 1, dests := [(816, false, 0)] })], queues := [(816, { ents := [{ fid := 0 }] })] } }
/-- Every T1S segment record with a mode and flag bit 0 and 2, and the run state of segment 0. -/
def witT1s (mode : Nat) (g : T1sSeg) (s : State) : State :=
  { (List.range 16).foldl (fun s n => witRec C.t1s n (witBytes 16 [(0, 1, mode), (6, 2, 5), (8, 2, 1518)]) s) s with
    t1s := { segs := [(0, g)] } }
/-- Segment 0 in STANDBY, where every pattern wakes group 0. -/
def witT1sWake : State :=
  witRec C.t1s 0 (witBytes 16 [(0, 1, 2), (6, 2, 12), (0x0C, 4, 1)]) { witFull with pwr := { mode := 2 } }
/-- An Ethernet port with a mode and flags. -/
def witEth (p mode flags : Nat) : State := witRec C.ethPort p (witBytes 48 [(0, 1, mode), (4, 2, flags), (2, 2, 1518)]) witFull
/-- Two MDIO script entries of port 4. -/
def witScript : State := witRec C.ethMdio 1 [4, 0, 0, 0, 0, 0, 0, 0] (witRec C.ethMdio 0 [4, 0, 0, 0, 0, 0, 0, 0] witFull)
/-- Queue 3 enabled, with the largest threshold. -/
def witQueues (s : State) : State :=
  wr (F.QM_PROFn_MIN.u 0) 100 (wr (F.QM_PROFn_ALPHA.u 0) 7 (witRec C.queueRec 3 (witBytes 8 [(1, 1, 1)]) s))
/-- A host frame in staging at FN8, whose destination in VLAN 1 is queue 5. -/
def witDirect : State :=
  witRec C.l2Vlan 1 (witBytes 16 [(0, 2, 1)]) (witRec C.queueRec 5 (witBytes 8 [(1, 1, 1)])
    { witQueues witFull with
      qm := { frames := [(0, { data := zeros 64, need := 1, src := 8 * 4096 })], stage := [(8, [0])], nextId := 1 },
      lkp := { fdb := [((fdbWays 1 0 1).headD 0, ⟨0, 1, 3 * 16384 + 5, true, false, false, false, 0⟩)] } })
/-- A frame in staging at FN6. -/
def witStaged (x : Fr) : State := { witFull with qm := { frames := [(0, x)], stage := [(6, [0])], nextId := 1 } }
/-- One task of a core. -/
def witTask (n k : Nat) (t : Task) : State := { witFull with ctl := { cores := [(n, { tasks := [(k, t)] })] } }
/-- Port 0 sends the last cell of the head of queue 0. -/
def witSending : State :=
  { witFull with qm := { cur := [(0, (0, 0))], frames := [(0, { data := zeros 64, need := 1, phase := 3, refs := 1 })],
                         queues := [(0, { ents := [{ fid := 0, read := 1 }] })] } }
/-- A learned entry and a learn of the same key from another port. -/
def witFdb (e : FdbE) : State :=
  { witFull with lkp := { fdb := [((fdbWays 0 1 2).headD 0, e)], learns := [(0, [⟨1, 2, 3⟩])] } }
/-- Stream 8191 of pipeline B with a guard limit of 5 frames. -/
def witGuard (r : StreamRun) : State :=
  witRec (C.spStream + 1) 8191 (witBytes 40 [(0x1C, 2, 5), (0x22, 2, 0xFFFF)])
    { witFull with lkp := { streams := [(pk 1 8191, r)] } }
/-- The field containment unit with thresholds 2, 8, 16 and a score. -/
def witUnit (n : Nat) : State :=
  witRec C.spUnit 32 (witBytes 24 [(0, 2, 100), (5, 1, 1), (6, 2, 2), (8, 2, 8), (10, 2, 16), (12, 2, 20)])
    { witFull with lkp := { score := [(32, n)] } }
/-- A CAN channel with a mode and flags. -/
def witCan (ch mode flags : Nat) : State := witRec C.canCh ch (witBytes 40 [(0, 1, mode), (1, 1, flags)]) witFull
/-- A CAN channel with a babble limit of 3 frames. -/
def witBabble (ch : Nat) : State := witRec C.canCh ch (witBytes 40 [(0, 1, 1), (0x1C, 2, 3), (0x1E, 2, 0xFFFF)]) witFull
/-- A LIN channel with a mode, and one frame ID of a kind. -/
def witLin (ch mode id kind : Nat) : State := witRec C.linCh ch (witBytes 96 [(0, 1, mode), (0x20 + id, 1, kind)]) witFull
/-- LIN channel 3 wakes group 1 in STANDBY. -/
def witLinWake : State :=
  witRec C.linCh 3 (witBytes 96 [(0, 1, 1), (1, 1, 1), (0x10, 4, 2)]) { witFull with pwr := { mode := 2 } }
/-- The side-band scan in use. -/
def witSbs : State := witRec C.sbs 0 (witBytes 128 [(0, 2, 1), (2, 1, 1)]) witFull
/-- An engine that runs with one event pending and every vector at 0. -/
def witEvent (e : Nat) (v : Ev) : State :=
  wr (F.GRV_GVn_STAT_STATE.u e) 1 (engSet e { evs := [v], vecs := List.replicate 16 0, count := 100 } witFull)
/-- A ready context whose registers g1, g2 hold 1 and 2. -/
def witCtx : Ctx := { st := 1, regs := [(2, 2)] }
/-- An engine of 100 instructions that runs, with one context and a budget of 1 000 instructions. -/
def witGrv (e c : Nat) (x : Ctx) : State :=
  wr F.GRV_CFG_BUDGET 1000 (wr (F.GRV_GVn_STAT_STATE.u e) 1 (engSet e { ctxs := [(c, x)], count := 100 } witFull))
/-- A frame of 64 zero bytes. -/
def witFrame : Fr := { data := zeros 64, need := 1 }
/-- A ready context with that frame in slot memory 0. -/
def witLocal : Ctx := { st := 1, f0 := .loc witFrame 64 }
/-- A context whose slot 0 holds a buffered frame of 200 bytes, with the cells it has fetched. -/
def witBuf (e c : Nat) (got : List Nat) : State :=
  let s := witGrv e c { witCtx with regs := [], f0 := .buf 0 got }
  { s with qm := { s.qm with frames := [(0, { data := zeros 200, cells := [0, 1], need := 2, phase := 3, held := 1, refs := 1 })] } }
/-- The same with the number of queue 3 in g1. -/
def witBufQ (e c : Nat) : State :=
  let s := witBuf e c []
  ctxSet e c { ctx e c s with regs := [(1, 3)] } s
/-- Two signals: signal 0 a u8, signal 1 a u64 that a host may write, both local. -/
def witSigs (s : State) : State :=
  witRec C.sigDef 1 (witBytes 24 [(0, 1, 0), (1, 1, 1), (2, 2, 64), (6, 2, 0xFFFF)])
    (witRec C.sigDef 0 (witBytes 24 [(2, 2, 8), (6, 2, 0xFFFF)]) (witRec C.sigHdr 0 (witBytes 64 [(0, 4, 2)]) s))
/-- PDU 0 of 8 bytes without mappings, protection or authentication. -/
def witPdu (s : State) : State := witRec C.sigPdu 0 (witBytes 48 [(0, 2, 8), (0x14, 2, 0xFFFF), (0x20, 2, 0xFFFF)]) s
/-- PDU 0 with authentication profile 0: an 8-byte PDU, a 64-bit tag, no freshness bytes, its key in VS00. -/
def witSec (s : State) : State :=
  witRec C.sigAuth 0 (witBytes 16 [(0, 2, 0x100), (2, 1, 64), (4, 1, 10), (5, 1, 3)])
    (witRec C.sigPdu 0 (witBytes 48 [(0, 2, 8), (0x14, 1, 0xFF), (0x20, 2, 0xFFFF)])
      { s with key := { vols := [(0, { key := zeros 16, attrs := 2 ^ 4 + 2 ^ 5 + 2 ^ 16 })] },
               time := { doms := [(0, { val := 10000000 * clkUnit })] } })
/-- A whole frame at the head of queue q. -/
def witHead (q : Nat) (s : State) : State :=
  { s with qm := { frames := [(0, { data := zeros 68, need := 1, phase := 3, refs := 1 })],
                   queues := [(q, { ents := [{ fid := 0 }] })], nextId := 1 } }
/-- Core n runs a major frame of 1 ms whose window w, of 100 µs, has begun for slot 0; the slot's action is 1. -/
def witWin (n w worst : Nat) (x : Core) : State :=
  witRec C.ctlSlot (16 * n) (witBytes 32 [(0, 1, n), (4, 1, 1), (7, 1, 1), (8, 4, 1000), (12, 4, worst)])
    (witRec C.ctlWin w (witBytes 8 [(4, 2, 100), (6, 1, n)])
      (witRec C.ctlHdr 0 (witBytes 32 [(0x10 + 4 * n, 4, 1000)]) { witFull with ctl := { cores := [(n, x)] } }))
/-- The core before its window. -/
def witWindow (n w : Nat) : State := witWin n w 1000 {}
/-- A ready slot whose program is ECALL. -/
def witSlice (n w : Nat) : State := witWin n w 1000 { tasks := [(0, { st := 1 })], cur := some w, itcm := [(0, 0x73)] }
/-- The same with a declared worst case that no longer fits. -/
def witLate (n w : Nat) : State := witWin n w 1000000 { tasks := [(0, { st := 1 })], cur := some w, itcm := [(0, 0x73)] }
/-- Pass A of a slice that has sampled mip once. -/
def witPass : Pass := { at_ := 1 }
/-- Pass A stands at an instruction word. -/
def witAtWord (n w word : Nat) : State :=
  witWin n w 1000 { tasks := [(0, { st := 1 })], cur := some w, itcm := [(0, BitVec.ofNat 32 word)], a := some witPass, log := [(0x344, 0)] }
/-- Pass A stands at ECALL. -/
def witRunning (n w : Nat) : State := witAtWord n w 0x73
/-- Pass A stands at WFI. -/
def witWfi (n w : Nat) : State := witAtWord n w 0x10500073
/-- Pass A stands at the breakpoint. -/
def witBp : State := wr (F.DBG_CCn_BP_EN.u 3) 1 (wr F.CTL_DEBUG_OPEN 8 (witRunning 3 127))
/-- Task k of core n waits on its queue 7, whose head frame is whole. -/
def witWaiting (n k : Nat) : State :=
  witHead (736 + 8 * n + 7) { witFull with ctl := { cores := [(n, { tasks := [(k, { st := 2, waitQ := 128 })] })] } }
/-- Holder h of core n holds a frame. -/
def witHolder (n h : Nat) : State :=
  { witQueues { witFull with ctl := { cores := [(n, { holders := [(h, 0)] })] } } with
    qm := { frames := [(0, { data := zeros 64, need := 1, phase := 3, refs := 1, held := 1 })], nextId := 1 } }
/-- A life-cycle state and a key in VS00. -/
def witVault (lc : Nat) (k : KeyCopy) : State := { witFull with mram := { lc := lc }, key := { vols := [(0, k)] } }
/-- A device in MANUFACTURING with an identity key. -/
def witMfg : State := { witFull with mram := { lc := 1 }, key := { ident := some 1 } }
/-- A chain of one certificate: a DER sequence that holds the identity key's SubjectPublicKeyInfo. -/
def witCert : List Byte :=
  [0x30, 91, 0x30, 0x59, 0x30, 0x13, 0x06, 0x07, 0x2A, 0x86, 0x48, 0xCE, 0x3D, 0x02, 0x01, 0x06, 0x08, 0x2A, 0x86, 0x48,
    0xCE, 0x3D, 0x03, 0x01, 0x07, 0x03, 0x42, 0x00] ++ ecPublic 1
/-- A key that mode m may use by every requester: 512 bits for XTS, 256 bits otherwise. -/
def witKey (m : Nat) : KeyCopy :=
  { key := zeros (if m = 10 ∨ m = 11 then 64 else 32),
    attrs := (if m = 10 ∨ m = 11 then 2 else 1) + 2 ^ 2 + 2 ^ 3 + 2 ^ 4 + 2 ^ 5 + 2 ^ 16 + 2 ^ 17 + 2 ^ 18 }
/-- A request of mode m by context 0 of GV0 over VS00. -/
def witReq (m : Nat) : CipReq :=
  { id := 0, src := 0, kind := 1, input := zeros 32,
    desc := witBytes 64 [(0, 1, m), (2, 2, if m = 14 then 0xFFFF else 0x100), (6, 1, if 2 ≤ m ∧ m ≤ 7 ∨ 15 ≤ m then 16 else 0),
      (0x10, 2, if m = 4 ∨ m = 5 then 0 else 32)] }
/-- The request waits for pair 0. -/
def witCip (m : Nat) : State := { witFull with cip := { rsvQ := [witReq m] }, key := { vols := [(0, witKey m)] } }
/-- A frame for job template 0, which the plate does not define. -/
def witJob : State := quSet 768 { ents := [{ fid := 0, read := 1 }] } (witHead 768 witFull)
/-- The same with the template for CMAC with VS00. -/
def witJobRuns : State :=
  witRec C.msJob 0 (witBytes 16 [(0, 1, 6), (1, 1, 16), (2, 2, 0x100)]) { witJob with key := { vols := [(0, witKey 6)] } }
/-- Node 0 with one MACsec peer, node 5, two groups of its own and the consent ring of two members. -/
def witAlm : State :=
  witRec C.slpRing 1 [5, 0] (witRec C.slpRing 0 [0, 0]
    (witRec C.slpHdr 0 (witBytes 32 [(0, 1, 2), (3, 1, 1), (4, 4, 3), (8, 4, 3), (0xC, 2, 10), (0xE, 2, 10), (0x10, 2, 100), (0x12, 2, 100),
        (0x18, 4, 10), (0x1C, 4, 1)])
      (witRec C.almPeer 0 (witBytes 16 [(0, 2, 5), (2, 1, 3)])
        (witRec C.almHdr 0 (witBytes 64 [(0x10, 1, 3), (0x18, 12, 1), (2, 1, 1)]) { witCharged with alm := { ready := true } }))))
/-- A message of a type from node 5, secured by MACsec. -/
def witMsg (t : Nat) (body : List Byte) : List Byte :=
  leBytes 1 (16 + t) ++ leBytes 1 4 ++ leBytes 2 5 ++ leBytes 4 0 ++ leBytes 2 body.length ++ body
/-- A token of epoch 1 with originator 5 and both groups present. -/
def witToken : List Byte := witBytes 40 [(0, 4, 1), (8, 2, 5), (0xC, 4, 3)]
/-- The same node with nodes 0 and 6 in its roster, both observed by it. -/
def witRoster : State := witRec C.roster 6 (witBytes 48 [(0, 2, 6), (0x22, 2, 1), (0x24, 1, 3)]) (witRec C.roster 0 (witBytes 48 [(0x22, 2, 1), (0x24, 1, 3)]) witAlm)
/-- The same node owns signal 0. -/
def witOwnSignal : State := witRec C.sigDef 0 (witBytes 24 [(2, 2, 8)]) (witRec C.sigHdr 0 (witBytes 64 [(0, 4, 1)]) witAlm)
/-- Host queue q of an interface in use with rings of 16. -/
def witQueue (q iface : Nat) : State :=
  wr (F.HST_HQnn_CTRL_EN.u q) 1 (wr (F.HST_HQnn_CTRL_RING_LOG2.u q) 4
    (witRec C.hostQ q (witBytes 8 [(0, 1, 5 + 2 * iface), (4, 2, 1500)]) witHost))
/-- The same with a whole frame waiting and one receive descriptor posted. -/
def witQueued (q iface : Nat) : State :=
  { quSet (672 + q) { ents := [{ fid := 0, read := 1 }] } (witHead (672 + q) (witQueue q iface)) with hst := { queues := [(q, { recvTail := 1, cplHead := 5 })] } }
/-- A whole frame waits in host queue 63, which is in pop mode. -/
def witPop : State := wr (F.HST_HQnn_CTRL_MODE.u 63) 1 (witHead 735 (witQueue 63 0))
/-- PDU 1 asks for diagnosis and PDU 2 answers. -/
def witDiag : State :=
  witRec C.sigPdu 2 (witBytes 48 [(0, 2, 64)]) (witRec C.recorder 0 (witBytes 32 [(8, 2, 1), (10, 2, 2), (12, 4, 0xFFFFFFFF)]) witFull)
/-- Copy A holds one section of a type and content, and the device runs from it. -/
def witCopy (t : Nat) (c : List Byte) : Start :=
  let b := witBytes 16 [(0, 2, 1)] ++ (if t = 1 then [] else witBytes 16 [(0, 2, t), (4, 4, c.length)] ++ c)
  { header := witBytes 256 [(0x18, 4, if t = 1 then 1 else 2)],
    flash := (List.range b.length).map fun k => (0x100 + k, b.getD k 0), digests := List.replicate (if t = 1 then 1 else 2) [] }
/-- Domain CIP is held, and the plate has no section of its types. -/
def witDigests : State := { witFull with sys := { witCopy 1 [] with domHeld := [Domain.num .cip] } }
/-- A static entry is missing, and the plate's only section is SYSTEM. -/
def witDigestsGone : State := { witFull with sys := witCopy 1 [], lkp := { gone := [(0, 0, 0)] } }
/-- Engine 15 is fenced; image 0 of the plate is one instruction. -/
def witFenced : State :=
  wr (F.GRV_GVn_STAT_STATE.u 15) 2 (witRec C.grvHdr 0 (witBytes 32 [(0, 1, 1)])
    { witFull with sys := witCopy 0x11 (witBytes 96 [(0, 1, 1), (32, 2, 1)]) })
/-- The image as the plate holds it: its digest and bytes. -/
def witImageRef : List Byte × List Byte := (tfind (activeImages 0x11 witFenced) 0).getD ([], [])
/-- Engine 15 is fenced, and the digest of its image was recorded at the start. -/
def witImage : State := { witFenced with sys := { witFenced.sys with imgGrv := [(0, witImageRef.1)] } }
/-- A time past the late limit of entry 0, whose instant waits. -/
def witLateLimit : State :=
  stpSet 0 { late := some 5 } { witStp 1 816 0 with time := { doms := [(0, { val := 2000 * clkUnit })] } }
/-- Passes that end with the same bytes and no mismatch agree. -/
theorem witSame {a b : Pass} (h : a.bad = false) (k : b.bad = false) (e : passBytes false a = passBytes true b) :
    firstVerdict .clean a b = none := by
  simp [firstVerdict, sliceVerdict, h, k, passSig, e]
/-- The lookup of that host frame. -/
def witLooked : Lk × State :=
  pipeline none 8 (if (8 : Fin 11).val ≤ 6 then (fr 0 witDirect).src % 4096 else 255) (fr 0 witDirect).cls false (fr 0 witDirect).data
    (sampleFrame (fr 0 witDirect) witDirect)
/-- Its admission to queue 5. -/
def witAdmitted : State :=
  (admitAll false (fr 0 witLooked.2).need witLooked.1.cls witLooked.1.prot [(5, false, 0)] witLooked.2).2
/-- A roster digest body of zeros. -/
def witDigestBody : List Byte := zeros 280
/-- A pair is its first component beside its second. -/
theorem witPair {α β : Type} {x : α × β} {a : α} (h : x.1 = a) : x = (a, x.2) := by subst h; rfl
/-- A pair is its components. -/
theorem witBoth {α β : Type} {x : α × β} : x = (x.1, x.2) := rfl
/-- A triple is its first component beside the others. -/
theorem witTriple {α β γ : Type} {x : α × β × γ} {a : α} (h : x.1 = a) : x = (a, x.2.1, x.2.2) := by subst h; rfl

end Sys2Proof.Machine

namespace Sys2Proof.Machine.Tests

set_option Elab.async false

open Sys2Proof Sys2Proof.Machine

/-! ### What WellFormed refuses -/

/-- A CAN CC frame of 9 bytes, and one with an 11-bit identifier out of range (R238, R240). -/
theorem test_wf_can_length : (Instr.canFrameReceived 0 ⟨⟨.cc, 1, false, false, false, false, false, 0, 0, 0, zeros 9⟩, 0⟩).wf = false := by decide
theorem test_wf_can_identifier : (Instr.cancellation 0 ⟨.fd, 2048, false, false, false, false, false, 0, 0, 0, zeros 8⟩).wf = false := by
  decide
/-- A LIN response of no byte and one of nine (R257). -/
theorem test_wf_lin : (Instr.linResponse 0 (.data [])).wf = false ∧ (Instr.linResponse 0 (.data (zeros 9))).wf = false := by decide
/-- An SA key of 24 bytes, and a salt of 8 (R416). -/
theorem test_wf_sa_key : (Instr.sakInstallation 0 ⟨true, 0, 0, 0, 0, 0, 1, zeros 24, zeros 12⟩).wf = false := by decide
theorem test_wf_sa_salt : (Instr.sakInstallation 0 ⟨true, 0, 0, 0, 0, 0, 1, zeros 32, zeros 8⟩).wf = false := by decide
/-- A descriptor of 16 bytes, and a send buffer that is not as long as its descriptor says (R482). -/
theorem test_wf_send_descriptor : (Instr.sendDescriptor 0 (zeros 16) []).wf = false := by decide
theorem test_wf_send_buffer : (Instr.sendDescriptor 0 (zeros 32) (zeros 60)).wf = false := by decide
theorem test_wf_receive_descriptor : (Instr.receiveDescriptor 0 (zeros 31)).wf = false := by decide
/-- An xSPI access of 3 bytes, and one beyond the 24 address bits (R473, R478). -/
theorem test_wf_xspi_read : (Instr.read 0 3).wf = false ∧ (Instr.read (2 ^ 24) 4).wf = false := by decide
theorem test_wf_xspi_write : (Instr.write 0 (zeros 3)).wf = false := by decide
/-- A mailbox content above 4 096 bytes (R393), in each vault command. -/
theorem test_wf_vault : let b := zeros 4097
    ((Instr.keyUpdate .pcie b).wf || (Instr.keyDerive .pcie b).wf || (Instr.ecdh .pcie b).wf || (Instr.vsZeroise .pcie b).wf
      || (Instr.slotInfo .pcie b).wf || (Instr.getIdentity .pcie b).wf || (Instr.signChallenge .pcie b).wf
      || (Instr.lcRequest .pcie b).wf || (Instr.debugToken .pcie b).wf || (Instr.certInstall .pcie b true).wf) = false := by
  decide +kernel
/-- A diagnostic request of 7 bytes (R509). -/
theorem test_wf_diagnostic : (Instr.diagnosticRead 0 (zeros 7)).wf = false := by decide
/-- A refused command ends in the fault that names it, and a well-formed neighbour does not. -/
theorem test_wf_fault : exec (.diagnosticRead 0 (zeros 7)) State.reset = .fault (.illFormed "diagnostic request") := rfl
theorem test_wf_next : (Instr.diagnosticRead 0 (zeros 8)).wf = true := by decide

/-! ### Worked examples of the spec -/

/-- 09_graver_engines.md: the word 0x554C_C260 is BFX of g5 from g3 at position 12, width 10, sign-extended; with 0x2A_A000 in g3
the field is 0x2AA, which its top bit makes negative. -/
theorem test_bfx_example :
    (match execBfx 0 0 (BitVec.ofNat 26 0x554CC260) (witGrv 0 0 { st := 1, regs := [(3, 0x2AA000)] }) with
     | .next t => (ctx 0 0 t).get 5 | _ => 0) = 2 ^ 64 - 2 ^ 10 + 0x2AA := by decide +kernel
/-- 10_control_cores_counterproof.md: 0xFFFF_FFF0 and 0x0000_0020 in pass B's form add to the form of 0x10. -/
theorem test_pass_b_add : shiftIn 0xFFFFFFF0 = 0xFFFFFFFF00 ∧ shiftIn 0x20 = 0x200 ∧
    aluB .add 0xFFFFFFFF00 0x200 = 0x100 ∧ shiftOut 0x100 = 0x10 := by decide +kernel
/-- 08_signal_gateway.md: own freshness 109 863 300 and the freshness byte 0x81 name the value 109 863 297. -/
theorem test_freshness_example : nearest 109863300 256 0x81 = 109863297 := by decide +kernel
/-- 16_power_nvm_recorder.md: with CHOLD 470 µF, k 0.2 and V_MIN 3.3 V, readings of 0.700 V and 0.740 V store 319.6 µJ and
658.0 µJ: enough for a key slot update, and only the second for a recorder page. -/
theorem test_gauge_example :
    let s (mv : Nat) : State := { witFull with mram := { start := { gauge := some (470, 200, 3300) } }, pwr := { samples := [mv] } }
    storedEnergy (s 700) = 319 ∧ storedEnergy (s 740) = 658 := by decide +kernel
/-- 17_register_map.md: 0x000A_9414 is FLD_CAN37_GUARD, and page 1 shows the entry of signal 40 000 at 0x93_8800. -/
theorem test_register_example : (findReg 0xA9414 regMap).map (fun r => (r.1.fields.contains F.FLD_CANnn_GUARD_CANCEL, r.2.1)) =
    some (true, 37) := by
  decide +kernel
theorem test_page_example : xspiAddr 0x938800 (wr F.HST_XSPI_TPAGE_PAGE 1 witFull) = .space false 0x1938800 := by decide +kernel
/-- 15_host_interface.md: the pop region shows HST_HQ12_POP at 0x33_1320. -/
theorem test_pop_example : xspiAddr 0x331320 witFull = .space true 0x131320 ∧
    (findReg 0x131320 regMap).map (fun r => (r.1.fields.contains F.HST_HQnn_POP_ITEM, r.2.1)) = some (true, 12) := by decide +kernel
/-- 05_lookup_and_policing.md: of the four routes of 10.47, a frame for 10.47.130.9 takes the /26, next hop 77. -/
theorem test_route_example :
    let route (n a hop : Nat) := witRec C.l3V4 (n * 2 ^ 128 + a) (witBytes 8 [(2, 2, hop)])
    lpm C.l3V4 32 0x0A2F8209 (route 16 0x0A2F0000 12 (route 17 0x0A2F8000 40 (route 24 0x0A2F8200 41 (route 26 0x0A2F8200 77
      witFull)))) = some 77 := by decide +kernel
/-- 04_switch_core.md: in cell time 2 405 the spare banks are 0 to 4, from 0 upwards. -/
theorem test_spare_bank_example : spareBank (2405 % 16) [] false witFull = some 0 ∧
    spareBank (2405 % 16) [0] false witFull = some 1 := by decide +kernel
/-! ### Values of the named standards -/

/-- CRC-32, CRC-16 and the CRC-8 of the wake message over the digits 1 to 9 (the check values of these polynomials). -/
theorem test_crc_check : let d := ofNats [0x31, 0x32, 0x33, 0x34, 0x35, 0x36, 0x37, 0x38, 0x39]
    crc32 d = 0xCBF43926 ∧ crc16 d = 0x29B1 ∧ crc8Wake d = 0xDF := by decide +kernel
/-- AES-128 (FIPS 197, appendix C.1), both ways. -/
theorem test_aes128 : let k := beBytes 16 0x000102030405060708090A0B0C0D0E0F
    let p := beBytes 16 0x00112233445566778899AABBCCDDEEFF
    beNat (aesEnc k p) = 0x69C4E0D86A7B0430D8CDB78070B4C55A ∧ aesDec k (aesEnc k p) = p := by decide +kernel
/-- SHA-256 of "abc" (FIPS 180-4) and CMAC of the empty string (RFC 4493). -/
theorem test_sha256 : beNat (sha256 (ofNats [0x61, 0x62, 0x63])) =
    0xBA7816BF8F01CFEA414140DE5DAE2223B00361A396177A9CB410FF61F20015AD := by decide +kernel
theorem test_cmac : beNat (cmac (beBytes 16 0x2B7E151628AED2A6ABF7158809CF4F3C) []) = 0xBB1D6929E95937287FA37D129B756746 := by
  decide +kernel
/-- Words of the control cores' code (PRESUMED RISC-V): addi x1, x0, 5; lui x5, 0x12345; mul x3, x1, x2; c.li x1, -1. -/
theorem test_rv_words : rvDecode 0x00500093 = (.opImm .add 1 0 5, 4) ∧ rvDecode 0x123452B7 = (.lui 5 0x12345000, 4) ∧
    rvDecode 0x022081B3 = (.op .mul 3 1 2, 4) ∧ rvDecode 0x50FD = (.opImm .add 1 0 0xFFFFFFFF, 2) := by decide +kernel
/-- An ACF CAN message of bus 5 with an extended identifier and three data bytes, one byte of padding (IEEE 1722-2016,
PRESUMED), becomes a frame for the routes. -/
theorem test_acf_frame : let m := acfSplit 4 (beBytes 20 0x020568050000000000000007_12345678_AABBCC00)
    let f := acfFrame (m.headD (0, []))
    m.map (·.1) = [1] ∧ (f.fmt, f.id, f.ide, f.rtr, f.data) = (.cc, 0x12345678, true, false, ofNats [0xAA, 0xBB, 0xCC]) := by
  decide +kernel


/-! ### Every hypothesis is met somewhere -/

/-- States and operands that meet the hypotheses of each clause of Obligations.StartsBringTheDeviceUp, one by one, in the order of its clauses. -/
theorem witness_StartsBringTheDeviceUp :
    (∃ pin : Bool, ∃ env : StartEnv, ∃ s : State, (s.pwr.mode ≠ 4) ∧ (pin = true ∨ s.sys.request.isSome = true)) ∧
    (∃ env : StartEnv, ∃ s : State, (s.pwr.mode = 3) ∧ (s.slp.inh = true) ∧ (sleepEntering s = false)) := by
  refine ⟨?_, ?_⟩
  · refine ⟨(true), (witEnv), (witFull), ?_, ?_⟩ <;> decide +kernel
  · refine ⟨(witEnv), ({ witFull with pwr := { mode := 3 }, slp := { inh := true, entry := 5000000 } }), ?_, ?_, ?_⟩ <;>
        decide +kernel

/-- States and operands that meet the hypotheses of each clause of Obligations.StagingCommandsComplete, one by one, in the order of its clauses. -/
theorem witness_StagingCommandsComplete :
    (∃ who : Iface, ∃ copyB : Bool, ∃ s : State, (Admits (ifaceInit who) 0x30 s) ∧ (mayStage (ifaceInit who) s = true) ∧
          (s.sys.done = none) ∧ (s.sys.session = none) ∧ (256 ≤ rd F.SYS_STAGE_ARG_ARG s) ∧ (rd F.SYS_STAGE_ARG_ARG s ≤
          copyMax)) ∧
    (∃ who : Iface, ∃ copyB : Bool, ∃ s : State, (Admits (ifaceInit who) 0x30 s) ∧ (mayStage (ifaceInit who) s = true) ∧
          (s.sys.done = none) ∧ (s.sys.session = none) ∧ (256 ≤ rd F.SYS_STAGE_ARG_ARG s) ∧ (rd F.SYS_STAGE_ARG_ARG s ≤
          copyMax)) ∧
    (∃ who : Iface, ∃ copyB : Bool, ∃ s : State, (Admits (ifaceInit who) 0x30 s) ∧ (mayStage (ifaceInit who) s = true) ∧
          (s.sys.done = none) ∧ (s.sys.session = none) ∧ (256 ≤ rd F.SYS_STAGE_ARG_ARG s) ∧ (rd F.SYS_STAGE_ARG_ARG s ≤
          copyMax)) ∧
    (∃ who : Iface, ∃ x : Session, ∃ s : State, (Admits (ifaceInit who) 0x30 s) ∧ (mayStage (ifaceInit who) s = true) ∧
          (s.sys.done = none) ∧ (s.sys.session = some x) ∧ (rd F.SYS_STAGE_ARG_ARG s % 4096 = 0) ∧ (rd F.SYS_STAGE_ARG_ARG
          s < x.len) ∧ (rd F.SYS_STAGE_ARG_ARG s ∉ x.written) ∧ (tsorted s.sys.flash = true)) ∧
    (∃ who : Iface, ∃ x : Session, ∃ s : State, (Admits (ifaceInit who) 0x30 s) ∧ (mayStage (ifaceInit who) s = true) ∧
          (s.sys.done = none) ∧ (s.sys.session = some x)) ∧
    (∃ who : Iface, ∃ s : State, (Admits (ifaceInit who) 0x30 s) ∧ (mayStage (ifaceInit who) s = true) ∧ (s.sys.done =
          none) ∧ (s.sys.session.isSome = true)) := by
  refine ⟨?_, ?_, ?_, ?_, ?_, ?_⟩
  · refine ⟨(.pcie), (true), (wr F.SYS_STAGE_ARG_ARG 4096 (witStage 8)), ?_, ?_, ?_, ?_, ?_, ?_⟩ <;> decide +kernel
  · refine ⟨(.xspi), (false), (wr F.SYS_STAGE_ARG_ARG 256 (witStage 7)), ?_, ?_, ?_, ?_, ?_, ?_⟩ <;> decide +kernel
  · refine ⟨(.pcie), (true), (wr F.SYS_STAGE_ARG_ARG 16773120 (witStage 7)), ?_, ?_, ?_, ?_, ?_, ?_⟩ <;> decide +kernel
  · refine ⟨(.pcie), (⟨true, 5000, [0]⟩), (wr F.SYS_STAGE_ARG_ARG 4096 (witSession ⟨true, 5000, [0]⟩)), ?_, ?_, ?_, ?_, ?_,
        ?_, ?_, ?_⟩ <;> decide +kernel
  · refine ⟨(.xspi), (⟨true, 5000, [0]⟩), (witSession ⟨true, 5000, [0]⟩), ?_, ?_, ?_, ?_⟩ <;> decide +kernel
  · refine ⟨(.pcie), (witSession ⟨false, 256, []⟩), ?_, ?_, ?_, ?_⟩ <;> decide +kernel

/-- States and operands that meet the hypotheses of each clause of Obligations.StartEventsComplete, one by one, in the order of its clauses. -/
theorem witness_StartEventsComplete :
    (∃ s : State, (s.sys.running = true) ∧ (s.sys.trying = none)) ∧
    (∃ env : StartEnv, ∃ s : State, (s.sys.held = true) ∧ (s.sys.request = none) ∧ (env.tamper = 0) ∧ (rd
          F.SYS_STRAP_BOOT_SEL s = 2) ∧ (lcState s ≠ 5)) ∧
    (∃ who : Iface, ∃ env : StartEnv, ∃ s : State, (Admits (ifaceInit who) 0x30 s) ∧ (mayStage (ifaceInit who) s = true) ∧
          (s.sys.done = none) ∧ (stage s = 7 ∨ stage s = 8)) ∧
    (∃ who : Iface, ∃ env : StartEnv, ∃ s : State, (Admits (ifaceInit who) 0x30 s) ∧ (mayStage (ifaceInit who) s = true) ∧
          (s.sys.done = none) ∧ (stage s = 7 ∨ stage s = 8)) ∧
    (∃ cmd : Nat, ∃ st : Nat, ∃ code : Nat, ∃ s : State, (s.sys.done = some (cmd, st, code)) ∧ (st < 256) ∧ (cmd ≠ 3)) ∧
    (∃ st : Nat, ∃ code : Nat, ∃ x : Session, ∃ s : State, (s.sys.done = some (3, st, code)) ∧ (s.sys.session = some x) ∧
          (0 < st) ∧ (st < 256) ∧ (code < 256)) ∧
    (∃ code : Nat, ∃ x : Session, ∃ s : State, (s.sys.done = some (3, 0, code)) ∧ (s.sys.session = some x) ∧ (code < 256)) ∧
    (∃ s : State, (awake s = true) ∧ (90 ≤ storedEnergy s) ∧ (s.sys.pageDue = false)) ∧
    (∃ who : Initiator, ∃ i : Nat, ∃ v : Word, ∃ s : State, (hostOf who = some i) ∧ (Admits who 0x24 s) ∧ (bit v.toNat 0 =
          true) ∧ (v.toNat / 65536 = 0xA5C3) ∧ (stage s = 9 ∨ bit (hostPerm i s) 2 = true)) ∧
    (∃ who : Initiator, ∃ i : Nat, ∃ v : Word, ∃ s : State, (hostOf who = some i) ∧ (Admits who 0x24 s) ∧ (bit v.toNat 0 =
          true) ∧ (v.toNat / 65536 = 0xA5C3) ∧ (stage s = 9 ∨ bit (hostPerm i s) 2 = true)) ∧
    (∃ d : Domain, ∃ s : State, (domTypes d ≠ []) ∧ (stage s = 5 ∨ stage s = 6) ∧ (s.pwr.mode ≤ 1)) ∧
    (∃ d : Domain, ∃ s : State, (domTypes d ≠ []) ∧ (stage s = 5 ∨ stage s = 6) ∧ (s.pwr.mode ≤ 1)) ∧
    (∃ d : Domain, ∃ s : State, (Domain.num d ∈ s.sys.domHeld) ∧ (digestsAgree (domTypes d) s = false)) ∧
    (∃ d : Domain, ∃ s : State, (Domain.num d ∈ s.sys.domHeld) ∧ (digestsAgree (domTypes d) s = true)) := by
  refine ⟨?_, ?_, ?_, ?_, ?_, ?_, ?_, ?_, ?_, ?_, ?_, ?_, ?_, ?_⟩
  · refine ⟨({ witFull with sys := { running := true } }), ?_, ?_⟩ <;> decide +kernel
  · refine ⟨(witEnv), (wr F.SYS_STRAP_BOOT_SEL 2 { witFull with sys := { held := true } }), ?_, ?_, ?_, ?_, ?_⟩ <;> decide
        +kernel
  · refine ⟨(.pcie), (witEnv), (witStage 7), ?_, ?_, ?_, ?_⟩ <;> decide +kernel
  · refine ⟨(.xspi), (witEnv), (witStage 8), ?_, ?_, ?_, ?_⟩ <;> decide +kernel
  · refine ⟨(1), (0), (0), ({ witFull with sys := { done := some (1, 0, 0) } }), ?_, ?_, ?_⟩ <;> decide +kernel
  · refine ⟨(9), (255), (⟨false, 256, []⟩),
        ({ witFull with sys := { done := some (3, 9, 255), session := some ⟨false, 256, []⟩ } }), ?_, ?_, ?_, ?_, ?_⟩ <;>
        decide +kernel
  · refine ⟨(0), (⟨true, 256, []⟩), ({ witFull with sys := { done := some (3, 0, 0), session := some ⟨true, 256, []⟩ } }),
        ?_, ?_, ?_⟩ <;> decide +kernel
  · refine ⟨(witCharged), ?_, ?_, ?_⟩ <;> decide +kernel
  · refine ⟨(.pcie), (0), (0xA5C30001), (witStage 9), ?_, ?_, ?_, ?_, ?_⟩ <;> decide +kernel
  · refine ⟨(.xspi), (1), (0xA5C30001), (witHost), ?_, ?_, ?_, ?_, ?_⟩ <;> decide +kernel
  · refine ⟨(.fab), (witFull), ?_, ?_, ?_⟩ <;> decide +kernel
  · refine ⟨(.sds), (witStage 6), ?_, ?_, ?_⟩ <;> decide +kernel
  · refine ⟨(.fab), ({ witFull with sys := { domHeld := [2] } }), ?_, ?_⟩ <;> decide +kernel
  · refine ⟨(.cip), (witDigests), ?_, ?_⟩ <;> decide +kernel

/-- States and operands that meet the hypotheses of each clause of Obligations.TimeMessagesComplete, one by one, in the order of its clauses. -/
theorem witness_TimeMessagesComplete :
    (∃ d : Fin 4, ∃ p : Fin 32, ∃ m : SyncMsg, ∃ s : State, (syncValid d p s = true) ∧ (m.twoStep = true)) ∧
    (∃ d : Fin 4, ∃ p : Fin 32, ∃ m : PdelayReq, ∃ s : State, (gptpOn d p s = true) ∧ (silent (portDomain p) s = false) ∧
          ((tsFifo p s).length < 64) ∧ (tsPoolOf p s = 0)) ∧
    (∃ d : Fin 4, ∃ p : Fin 32, ∃ m : PdelayMsg, ∃ t1 : Nat, ∃ t2 : Int, ∃ t3 : Int, ∃ t4 : Int, ∃ s : State, (gptpOn d p s
          = true) ∧ ((gptp (delayDom d p s) p s).asked = some m.seq) ∧ (m.ts = some (t2, t3, t4)) ∧ ((gptp (delayDom d p s)
          p s).sentAt = some t1)) ∧
    (∃ d : Fin 4, ∃ p : Fin 32, ∃ m : PdelayMsg, ∃ t2 : Int, ∃ t3 : Int, ∃ t4 : Int, ∃ s : State, (gptpOn d p s = true) ∧
          ((gptp (delayDom d p s) p s).asked = some m.seq) ∧ (m.ts = some (t2, t3, t4)) ∧ ((gptp (delayDom d p s) p
          s).sentAt = none)) ∧
    (∃ d : Fin 4, ∃ p : Fin 32, ∃ m : PdelayMsg, ∃ s : State, (gptpOn d p s = true) ∧ ((gptp (delayDom d p s) p s).asked =
          some m.seq) ∧ (m.ts = none)) ∧
    (∃ d : Fin 4, ∃ p : Fin 32, ∃ ns : Fin 4, ∃ s : State, (isMaster d p s = true) ∧ (silent (portDomain p) s = false) ∧
          ((tsFifo p s).length < 64) ∧ (tsPoolOf p s = 0)) ∧
    (∃ d : Fin 4, ∃ p : Fin 32, ∃ x : Stamp, ∃ q : Nat, ∃ r : List Stamp, ∃ s : State, (tsFifo p s = x :: r) ∧ (x.of_ =
          .sync d q) ∧ (isMaster d p s = true) ∧ (silent (portDomain p) s = false) ∧ (s.time.pool.all (fun e => e.1 !=
          p.val) = true)) ∧
    (∃ d : Fin 4, ∃ p : Fin 32, ∃ s : State, (gptpOn d p s = true) ∧ (silent (portDomain p) s = false) ∧ ((tsFifo p
          s).length < 64) ∧ (tsPoolOf p s = 0)) := by
  refine ⟨?_, ?_, ?_, ?_, ?_, ?_, ?_, ?_⟩
  · refine ⟨(0), (0), ({ seq := 0, twoStep := true, origin := 0, corr := 0, ingress := 0 }), (witTime 0 0), ?_, ?_⟩ <;>
        decide +kernel
  · refine ⟨(3), (31), (⟨65535, 5, 9⟩), (witTime 3 0), ?_, ?_, ?_, ?_⟩ <;> decide +kernel
  · refine ⟨(0), (0), (⟨7, some (10, 20, 40)⟩), (0), (10), (20), (40),
        (gptpSet 0 0 { asked := some 7, sentAt := some 0 } (witTime 0 0)), ?_, ?_, ?_, ?_⟩ <;> decide +kernel
  · refine ⟨(0), (0), (⟨7, some (10, 20, 40)⟩), (10), (20), (40), (gptpSet 0 0 { asked := some 7 } (witTime 0 0)), ?_, ?_,
        ?_, ?_⟩ <;> decide +kernel
  · refine ⟨(0), (0), (⟨7, none⟩), (gptpSet 0 0 { asked := some 7 } (witTime 0 0)), ?_, ?_, ?_⟩ <;> decide +kernel
  · refine ⟨(0), (31), (3), (witTime 0 1), ?_, ?_, ?_, ?_⟩ <;> decide +kernel
  · refine ⟨(0), (31), (⟨.sync 0 5, 9⟩), (5), ([]), ({ witTime 0 1 with time := { fifo := [(31, [⟨.sync 0 5, 9⟩])] } }),
        ?_, ?_, ?_, ?_, ?_⟩ <;> decide +kernel
  · refine ⟨(2), (5), (witTime 2 0), ?_, ?_, ?_, ?_⟩ <;> decide +kernel

/-- States and operands that meet the hypotheses of each clause of Obligations.DomainStatesFollowTheTable, one by one, in the order of its clauses. -/
theorem witness_DomainStatesFollowTheTable :
    (∃ d : Fin 4, ∃ p : Fin 32, ∃ m : SyncMsg, ∃ s : State, (syncValid d p s = true) ∧ (m.twoStep = false) ∧ (domState d s
          ≤ 4)) ∧
    (∃ d : Fin 4, ∃ p : Fin 32, ∃ m : SyncMsg, ∃ y : SyncMsg, ∃ s : State, ((gptp d p s).sync = some y) ∧ (syncValid d p s
          = true) ∧ (y.seq = m.seq) ∧ (domState d s ≤ 4)) ∧
    (∃ d : Fin 4, ∃ l : List Announce, ∃ a : Announce, ∃ s : State, (svcUp 1 s = true) ∧ (domOn d s = true) ∧ (cfgN
          C.timeDom d 1 1 s = 1) ∧ (bmcaSelect d l s = some a) ∧ (a.identity = Config.clockIdentity)) ∧
    (∃ d : Fin 4, ∃ l : List Announce, ∃ a : Announce, ∃ s : State, (svcUp 1 s = true) ∧ (domOn d s = true) ∧ (cfgN
          C.timeDom d 1 1 s = 1) ∧ (bmcaSelect d l s = some a) ∧ (a.identity ≠ Config.clockIdentity) ∧ (domState d s = 4)) ∧
    (∃ d : Fin 4, ∃ s : State, (domOn d s = true) ∧ (domState d s = 1) ∧ (syncDue d s ≤ s.time.loc)) ∧
    (∃ d : Fin 4, ∃ s : State, (domOn d s = true) ∧ (domState d s = 2) ∧ (d.val ≠ 0) ∧ (rd (F.TIME_Dn_STAT_SOURCE.u 0) s ≠
          d.val) ∧ (syncDue d s ≤ s.time.loc)) ∧
    (∃ d : Fin 4, ∃ s : State, (domState d s = 3) ∧ ((dom d s).holdAt + cfgN C.timeHdr 0 2 2 s * 1000000 ≤ s.time.loc)) := by
  refine ⟨?_, ?_, ?_, ?_, ?_, ?_, ?_⟩
  · refine ⟨(0), (0), ({ seq := 0, twoStep := false, origin := 0, corr := 0, ingress := 0 }), (witTime 0 0), ?_, ?_, ?_⟩
        <;> decide +kernel
  · refine ⟨(0), (0), ({ seq := 0, twoStep := false, origin := 9, corr := 0, ingress := 0 }),
        ({ seq := 0, twoStep := true, origin := 0, corr := 0, ingress := 0 }),
        (gptpSet 0 0 { sync := some { seq := 0, twoStep := true, origin := 0, corr := 0, ingress := 0 } } (witTime 0 0)),
        ?_, ?_, ?_, ?_⟩ <;> decide +kernel
  · refine ⟨(0), ([]), (ownAnnounce 0 (witBmca 1)), (witBmca 1), ?_, ?_, ?_, (rfl), (rfl)⟩ <;> decide +kernel
  · refine ⟨(0), ([witAnnounce]), (witAnnounce), (wr (F.TIME_Dn_STAT_STATE.u 0) 4 (witBmca 0)), ?_, ?_, ?_, (rfl),
        (by simp [witAnnounce]), ?_⟩ <;> decide +kernel
  · refine ⟨(3), (wr (F.TIME_Dn_STAT_STATE.u 3) 1 (witTime 3 0)), ?_, ?_, ?_⟩ <;> decide +kernel
  · refine ⟨(1), (wr (F.TIME_Dn_STAT_STATE.u 1) 2 (witTime 1 0)), ?_, ?_, ?_, ?_, ?_⟩ <;> decide +kernel
  · refine ⟨(0), (wr (F.TIME_Dn_STAT_STATE.u 0) 3 witFull), ?_, ?_⟩ <;> decide +kernel

/-- States and operands that meet the hypotheses of each clause of Obligations.TimePinsAndStampsComplete, one by one, in the order of its clauses. -/
theorem witness_TimePinsAndStampsComplete :
    (∃ p : Fin 32, ∃ x : Stamp, ∃ q : Nat, ∃ i : Nat, ∃ b : Bool, ∃ r : List Stamp, ∃ s : State, (tsFifo p s = x :: r) ∧
          (x.of_ = .host q i b) ∧ (awake s = true) ∧ (stampHeld x s = false) ∧ ((hostQ q s).stamps.contains (i, b) = false)
          ∧ (s.time.pool.all (fun e => e.1 != p.val) = true)) ∧
    (∃ s : State, (bit (cfgN C.timeHdr 0 0x0B 1 s) 0 = true) ∧ (domOn (cfgN C.timeHdr 0 0x0A 1 s) s = true) ∧ (domState
          (cfgN C.timeHdr 0 0x0A 1 s) s ≠ 0) ∧ ((toSecond (domNs (cfgN C.timeHdr 0 0x0A 1 s) s)).natAbs ≤ 8)) ∧
    (∃ s : State, (s.time.ppsRose + cfgN C.timeHdr 0 0x0C 4 s * 1000 ≤ s.time.loc)) ∧
    (∃ s : State, (bit (cfgN C.timeHdr 0 0x0B 1 s) 1 = true) ∧ (bit (cfgN C.timeHdr 0 0x0B 1 s) 2 = false) ∧ (s.time.edge =
          none) ∧ ((toSecond (shortNs s)).natAbs ≤ 1000000)) ∧
    (∃ s : State, (bit (cfgN C.timeHdr 0 0x0B 1 s) 1 = true) ∧ (1000000 < (toSecond (shortNs s)).natAbs)) := by
  refine ⟨?_, ?_, ?_, ?_, ?_⟩
  · refine ⟨(31), (⟨.host 0 7 true, 5⟩), (0), (7), (true), ([]),
        ({ witFull with time := { fifo := [(31, [⟨.host 0 7 true, 5⟩])] } }), ?_, ?_, ?_, ?_, ?_, ?_⟩ <;> decide +kernel
  · refine ⟨(wr (F.TIME_Dn_STAT_STATE.u 0) 2 (witTime 0 0)), ?_, ?_, ?_, ?_⟩ <;> decide +kernel
  · refine ⟨({ witFull with time := { ppsOut := true } }), ?_⟩ <;> decide +kernel
  · refine ⟨(witAt 1000000 (witTime 0 0)), ?_, ?_, ?_, ?_⟩ <;> decide +kernel
  · refine ⟨(witAt 1000001 (witTime 0 0)), ?_, ?_⟩ <;> decide +kernel

/-- States and operands that meet the hypotheses of each clause of Obligations.StippleInstantsFire, one by one, in the order of its clauses. -/
theorem witness_StippleInstantsFire :
    (∃ e : Fin 4096, ∃ s : State, (StippleDue 0 e s)) ∧
    (∃ e : Fin 4096, ∃ s : State, (StippleDue 1 e s) ∧ ((stpRun e s).late = none) ∧ (stpReady e s = false) ∧ (bit (stpN e 1
          1 s) 1 = true) ∧ (shortNs s ≤ stpNext e s + stpLimit e s)) ∧
    (∃ e : Fin 4096, ∃ s : State, (StippleDue 2 e s) ∧ ((stpRun e s).late = none) ∧ (stpReady e s = false) ∧ (bit (stpN e 1
          1 s) 1 = true) ∧ (shortNs s ≤ stpNext e s + stpLimit e s)) ∧
    (∃ e : Fin 4096, ∃ r : State, ∃ s : State, (StippleDue 1 e s) ∧ ((stpRun e s).late = none) ∧ (stpReady e s = true) ∧
          (stpStepped (stpNext e s) s = false) ∧ (stpRelease e (stpSet e { stpRun e s with last := some (stpNext e s) }
          { s with stp := { s.stp with tickNs := s.time.loc, tickCnt := (if s.stp.tickNs = s.time.loc then s.stp.tickCnt else 0) + 1 } })
          = (true, r))) ∧
    (∃ e : Fin 4096, ∃ r : State, ∃ s : State, (StippleDue 2 e s) ∧ ((stpRun e s).late = none) ∧ (stpReady e s = true) ∧
          (stpStepped (stpNext e s) s = false) ∧ (stpRelease e (stpSet e { stpRun e s with last := some (stpNext e s) }
          { s with stp := { s.stp with tickNs := s.time.loc, tickCnt := (if s.stp.tickNs = s.time.loc then s.stp.tickCnt else 0) + 1 } })
          = (true, r))) ∧
    (∃ e : Fin 4096, ∃ s : State, (StippleDue 3 e s) ∧ (stpTarget e s < 16)) ∧
    (∃ e : Fin 4096, ∃ s : State, (StippleDue 4 e s)) ∧
    (∃ e : Fin 4096, ∃ s : State, (StippleDue 5 e s) ∧ (stpTarget e s < 4) ∧ (stpParam e s = 1)) ∧
    (∃ e : Fin 4096, ∃ s : State, (StippleDue 6 e s) ∧ (stpTarget e s < 16) ∧ (t1sMode (stpTarget e s) s = 1) ∧ (t1sFlag
          (stpTarget e s) 0 s = true) ∧ (t1sLow (stpTarget e s) s = false) ∧ ((t1sSeg (stpTarget e s) s).cycle = true)) ∧
    (∃ e : Fin 4096, ∃ s : State, (StippleDue 7 e s)) := by
  refine ⟨?_, ?_, ?_, ?_, ?_, ?_, ?_, ?_, ?_, ?_⟩
  · refine ⟨(0), (witStp 0 0 0), ?_⟩ <;> decide +kernel
  · refine ⟨(0), (witStp 1 816 1), ?_, ?_, ?_, ?_, ?_⟩ <;> decide +kernel
  · refine ⟨(0), (witStp 2 0 1), ?_, ?_, ?_, ?_, ?_⟩ <;> decide +kernel
  · refine ⟨(0), _, (witStpReady 1), ?_, ?_, ?_, ?_, witPair (by decide +kernel)⟩ <;> decide +kernel
  · refine ⟨(0), _, (witStpReady 2), ?_, ?_, ?_, ?_, witPair (by decide +kernel)⟩ <;> decide +kernel
  · refine ⟨(0), (witStp 3 15 0), ?_, ?_⟩ <;> decide +kernel
  · refine ⟨(0), (witStp 4 0 0), ?_⟩ <;> decide +kernel
  · refine ⟨(0), (witStp 5 3 1), ?_, ?_, ?_⟩ <;> decide +kernel
  · refine ⟨(0), (witT1s 1 { cycle := true } (witStp 6 0 0)), ?_, ?_, ?_, ?_, ?_, ?_⟩ <;> decide +kernel
  · refine ⟨(0), (witStp 7 3 9), ?_⟩ <;> decide +kernel

/-- States and operands that meet the hypotheses of each clause of Obligations.StippleTimersComplete, one by one, in the order of its clauses. -/
theorem witness_StippleTimersComplete :
    (∃ n : Fin 4, ∃ s : State, (n.val ∈ s.stp.pulse)) ∧
    (∃ e : Fin 4096, ∃ gv : Fin 4, ∃ s : State, (stpOn e s = true) ∧ (stpAct e s = 2) ∧ (stpRunning s = true) ∧
          (stpSuspended e s = false) ∧ ((stpRun e s).late = none) ∧ ((stpRun e s).prepared ≠ some (stpNext e s)) ∧ (pduN
          (stpTarget e s) 0x1C 1 s = gv.val) ∧ (stpNext e s ≤ shortNs s + stpParam2 e s)) ∧
    (∃ e : Fin 4096, ∃ p : Nat, ∃ s : State, (qTarget (stpQueue e s) s = (0, p)) ∧ (p < 16) ∧ (stpOn e s = true) ∧ (stpAct
          e s = 1 ∨ stpAct e s = 2) ∧ (stpRunning s = true) ∧ (stpNext e s ≤ shortNs s + guardNs p s + 4)) ∧
    (∃ e : Fin 4096, ∃ p : Nat, ∃ s : State, (qTarget (stpQueue e s) s = (0, p)) ∧ (p < 16) ∧ (stpOn e s = true) ∧ (stpAct
          e s = 1 ∨ stpAct e s = 2) ∧ (stpRunning s = true) ∧ (stpNext e s ≤ shortNs s + guardNs p s + 4)) ∧
    (∃ e : Fin 4096, ∃ i : Nat, ∃ s : State, ((stpRun e s).late = some i) ∧ (i + stpLimit e s ≤ shortNs s) ∧ (stpAct e s =
          1)) := by
  refine ⟨?_, ?_, ?_, ?_, ?_⟩
  · refine ⟨(3), ({ witFull with stp := { pulse := [3], pins := 8 } }), ?_⟩ <;> decide +kernel
  · refine ⟨(0), (0), (witStp 2 0 0), ?_, ?_, ?_, ?_, ?_, ?_, ?_, ?_⟩ <;> decide +kernel
  · refine ⟨(0), (0), (witStp 1 816 0), ?_, ?_, ?_, ?_, ?_, ?_⟩ <;> decide +kernel
  · refine ⟨(0), (0), (witStp 2 0 0), ?_, ?_, ?_, ?_, ?_, ?_⟩ <;> decide +kernel
  · refine ⟨(0), (5), (witLateLimit), ?_, ?_, ?_⟩ <;> decide +kernel

/-- States and operands that meet the hypotheses of each clause of Obligations.SwitchCoreEventsComplete, one by one, in the order of its clauses. -/
theorem witness_SwitchCoreEventsComplete :
    (∃ err : Option MemError, ∃ s : State, (domRuns .fab s = true)) ∧
    (∃ err : Option MemError, ∃ s : State, (domRuns .fab s = true)) ∧
    (∃ p : Fin 32, ∃ b : List Byte, ∃ rx : RxEnd, ∃ s : State, (portUp p s = true) ∧ (domRuns .fab s = true) ∧ (rx ≠
          .assembly) ∧ (b.length < 64) ∧ (16 ≤ p.val)) ∧
    (∃ p : Fin 32, ∃ b : List Byte, ∃ s : State, (portUp p s = true) ∧ (domRuns .fab s = true) ∧ (64 ≤ b.length) ∧
          (b.length ≤ portMax p s) ∧ (b.length ≤ 16384) ∧ (frEt b ≠ 0x8808) ∧ (16 ≤ p.val) ∧ (stagingFull 6 s = false)) ∧
    (∃ node : Fin 11, ∃ f : Nat, ∃ q : Nat, ∃ k : Lk, ∃ r : State, ∃ u : State, ∃ v : State, ∃ s : State, (domRuns .fab s =
          true) ∧ ((staged node s).find? (fun f => (fr f s).phase == 0) = some f) ∧ (pipeline none node (if node.val ≤ 6
          then (fr f s).src % 4096 else 255) (fr f s).cls false (fr f s).data (sampleFrame (fr f s) s) = (k, r)) ∧ (k.drop
          = none) ∧ (k.dests = [q]) ∧ (ctOk node k.port f q r = false) ∧ ((fr f r).rxBad = false) ∧ (admitAll false (fr f
          r).need k.cls k.prot [(q, false, 0)] r = ([(q, false, 0)], u)) ∧ (admitLinks (fr f r).need [(q, false, 0)] u =
          (true, v)) ∧ (mirrorDests none k.pipe k.port k.mirAcl [q] v = [])) ∧
    (∃ node : Fin 11, ∃ f : Nat, ∃ s : State, (domRuns .fab s = true) ∧ ((staged node s).find? (fun f => (fr f s).phase ==
          2) = some f) ∧ ((fr f s).rxBad = false) ∧ ((fr f s).bad = true) ∧ ((fr f s).refs ≤ (fr f s).dests.length)) ∧
    (∃ node : Fin 11, ∃ f : Nat, ∃ q : Nat, ∃ s : State, (domRuns .fab s = true) ∧ ((staged node s).find? (fun f => (fr f
          s).phase == 2) = some f) ∧ ((fr f s).rxBad = false) ∧ ((fr f s).bad = false) ∧ ((fr f s).gone = false) ∧ ((fr f
          s).dests = [(q, false, 0)]) ∧ (q < 256) ∧ ((fr f s).lookup / 8192 ≠ 4) ∧ ((fr f s).cpl = none) ∧ (abandonedBy (fr
          f s) s = none)) ∧
    (∃ s : State, (domRuns .fab s = true)) ∧
    (∃ s : State, (domRuns .fab s = true)) ∧
    (∃ who : Initiator, ∃ v : Word, ∃ s : State, (Admits who 0x40020 s) ∧ (rdB F.QM_FLUSH_STAT_BUSY s = false) ∧ (mayFlush
          who (v.toNat % 1024) s = true)) ∧
    (∃ e : Fin 16, ∃ c : Fin 8, ∃ q : Nat, ∃ s : State, ((ctx e c s).stall = .queue q) ∧ (waitOverdue (ctx e c s).until_ s
          = true)) ∧
    (∃ n : Fin 4, ∃ k : Fin 16, ∃ s : State, ((task n k s).st = 2) ∧ (waitOverdue (task n k s).until_ s = true)) ∧
    (∃ p : Fin 32, ∃ q : Nat, ∃ f : Nat, ∃ e : QEnt, ∃ r : List QEnt, ∃ s : State, (domRuns .fab s = true) ∧ (tfind
          s.qm.cur p = some (q, f)) ∧ ((qu q s).ents = e :: r) ∧ (e.fid = f) ∧ (mayEnd p q e s = true) ∧ (p.val < 16) ∧
          (isRsvQueue q = false)) := by
  refine ⟨?_, ?_, ?_, ?_, ?_, ?_, ?_, ?_, ?_, ?_, ?_, ?_, ?_⟩
  · refine ⟨(none), (witFull), ?_⟩ <;> decide +kernel
  · refine ⟨(some (.freeList 15 [])), (witFull), ?_⟩ <;> decide +kernel
  · refine ⟨(16), ([]), (.good), (witT1s 1 {} witFull), ?_, ?_, ?_, ?_, ?_⟩ <;> decide +kernel
  · refine ⟨(31), (List.replicate 64 0), (witT1s 1 {} witFull), ?_, ?_, ?_, ?_, ?_, ?_, ?_, ?_⟩ <;> decide +kernel
  · refine ⟨(8), (0), (5), (witLooked.1), (witLooked.2), (witAdmitted),
        ((admitLinks (fr 0 witLooked.2).need [(5, false, 0)] witAdmitted).2), (witDirect), ?_, ?_,
        (witBoth (x := witLooked)), ?_, ?_, ?_, ?_, (witPair (by decide +kernel)), (witPair (by decide +kernel)), ?_⟩ <;>
        decide +kernel
  · refine ⟨(6), (0), (witStaged { phase := 2, bad := true, refs := 0 }), ?_, ?_, ?_, ?_, ?_⟩ <;> decide +kernel
  · refine ⟨(6), (0), (255), (witStaged { phase := 2, dests := [(255, false, 0)], refs := 1 }), ?_, ?_, ?_, ?_, ?_, ?_, ?_,
        ?_, ?_, ?_⟩ <;> decide +kernel
  · refine ⟨({ witFull with qm := { bgFlush := [3], used := [3, 5] } }), ?_⟩ <;> decide +kernel
  · refine ⟨({ witFull with qm := { used := [3, 5], unmarked := [5] } }), ?_⟩ <;> decide +kernel
  · refine ⟨(.core 0), (5), (witFull), ?_, ?_, ?_⟩ <;> decide +kernel
  · refine ⟨(15), (7), (3), (ctxSet 15 7 { stall := .queue 3, until_ := some 0 } witFull), ?_, ?_⟩ <;> decide +kernel
  · refine ⟨(3), (15), (witTask 3 15 { st := 2, waitQ := 1, until_ := some 0 }), ?_, ?_⟩ <;> decide +kernel
  · refine ⟨(0), (0), (0), ({ fid := 0, read := 1 }), ([]), (witSending), ?_, ?_, ?_, ?_, ?_, ?_, ?_⟩ <;> decide +kernel

/-- States and operands that meet the hypotheses of each clause of Obligations.LookupEventsComplete, one by one, in the order of its clauses. -/
theorem witness_LookupEventsComplete :
    (∃ p : Fin 2, ∃ r : LearnReq, ∃ l : List LearnReq, ∃ k : Nat, ∃ e : FdbE, ∃ s : State, (domRuns .fab s = true) ∧ (tget
          [] s.lkp.learns p = r :: l) ∧ (fdbFind none p r.mac r.vlan s = some k) ∧ (tfind s.lkp.fdb k = some e) ∧ (e.dest ≠
          r.port) ∧ (e.static_ = false) ∧ (e.sticky = false)) ∧
    (∃ p : Fin 2, ∃ r : LearnReq, ∃ l : List LearnReq, ∃ k : Nat, ∃ e : FdbE, ∃ s : State, (domRuns .fab s = true) ∧ (tget
          [] s.lkp.learns p = r :: l) ∧ (fdbFind none p r.mac r.vlan s = some k) ∧ (tfind s.lkp.fdb k = some e) ∧ (e.dest ≠
          r.port) ∧ (e.sticky = true)) ∧
    (∃ s : State, (domRuns .fab s = true)) ∧
    (∃ s : State, (domRuns .fab s = true)) ∧
    (∃ s : State, (domRuns .fab s = true) ∧ (s.lkp.bad = [])) ∧
    (∃ s : State, (domRuns .fab s = true) ∧ (s.lkp.gone.all (fun x => digestsAgree [lookupType x.1] s) = true)) ∧
    (∃ k : Nat, ∃ b : Pol, ∃ s : State, (domRuns .fab s = true) ∧ (s.lkp.refillMet = false) ∧ (tfind s.lkp.pols k = some
          b)) ∧
    (∃ p : Fin 2, ∃ st : Fin 8192, ∃ s : State, (domRuns .fab s = true) ∧ (cfgN (C.spStream + p) st 0x1C 2 s ≠ 0) ∧ (cfgN
          (C.spStream + p) st 0x1C 2 s < (streamRun p st s).count) ∧ ((streamRun p st s).contained = false) ∧ (cfgN
          (C.spStream + p) st 0x22 2 s = 0xFFFF)) ∧
    (∃ p : Fin 2, ∃ st : Fin 8192, ∃ s : State, (domRuns .fab s = true) ∧ (cfgN (C.spStream + p) st 0x1C 2 s = 0 ∨
          (streamRun p st s).count ≤ cfgN (C.spStream + p) st 0x1C 2 s)) ∧
    (∃ p : Fin 2, ∃ st : Fin 8192, ∃ s : State, (domRuns .fab s = true) ∧ (cfgN (C.spStream + p) st 0x1C 2 s = 0 ∨
          (streamRun p st s).count ≤ cfgN (C.spStream + p) st 0x1C 2 s)) ∧
    (∃ p : Fin 2, ∃ st : Fin 8192, ∃ s : State, (domRuns .fab s = true) ∧ ((streamRun p st s).contained = true) ∧ (cfgN
          (C.spStream + p) st 0x1C 2 s ≠ 0) ∧ (cfgN (C.spStream + p) st 0x1C 2 s < (streamRun p st s).count)) ∧
    (∃ p : Fin 2, ∃ st : Fin 8192, ∃ s : State, (domRuns .fab s = true) ∧ ((streamRun p st s).contained = true) ∧
          ((streamRun p st s).release ≤ s.time.loc)) ∧
    (∃ u : Fin 33, ∃ s : State, (domRuns .fab s = true) ∧ (unitKept u s = true) ∧ (rd (F.LKP_CONTu_LEVEL.u u) s < 2) ∧
          (cfgN C.spUnit u 8 2 s ≤ tget 0 s.lkp.score u) ∧ (tget 0 s.lkp.score u < cfgN C.spUnit u 10 2 s)) ∧
    (∃ u : Fin 33, ∃ s : State, (domRuns .fab s = true) ∧ (unitKept u s = true) ∧ (rd (F.LKP_CONTu_LEVEL.u u) s = 1) ∧
          (tget 0 s.lkp.score u < cfgN C.spUnit u 6 2 s) ∧ (tget 0 s.lkp.score u < cfgN C.spUnit u 8 2 s) ∧ (tget 0
          s.lkp.score u < cfgN C.spUnit u 10 2 s) ∧ (tget 0 s.lkp.score u < cfgN C.spUnit u 12 2 s) ∧ (cfgN C.spUnit u 5 1
          s ≤ rd (F.LKP_CONTu_QUIET.u u) s + 1)) := by
  refine ⟨?_, ?_, ?_, ?_, ?_, ?_, ?_, ?_, ?_, ?_, ?_, ?_, ?_, ?_⟩
  · refine ⟨(0), (⟨1, 2, 3⟩), ([]), ((fdbWays 0 1 2).headD 0), (⟨1, 2, 4, false, false, false, false, 0⟩),
        (witFdb ⟨1, 2, 4, false, false, false, false, 0⟩), ?_, ?_, ?_, ?_, ?_, ?_, ?_⟩ <;> decide +kernel
  · refine ⟨(0), (⟨1, 2, 3⟩), ([]), ((fdbWays 0 1 2).headD 0), (⟨1, 2, 4, false, false, false, true, 0⟩),
        (witFdb ⟨1, 2, 4, false, false, false, true, 0⟩), ?_, ?_, ?_, ?_, ?_, ?_⟩ <;> decide +kernel
  · refine
        ⟨({ witFdb ⟨1, 2, 4, false, false, true, false, 0⟩ with lkp := { (witFdb ⟨1, 2, 4, false, false, true, false, 0⟩).lkp with met := (0, [(fdbWays 0 1 2).headD 0]) } }),
        ?_⟩ <;> decide +kernel
  · refine ⟨(witFdb ⟨1, 2, 4, true, false, false, false, 0⟩), ?_⟩ <;> decide +kernel
  · refine ⟨(witFull), ?_, ?_⟩ <;> decide +kernel
  · refine ⟨(witDigestsGone), ?_, ?_⟩ <;> decide +kernel
  · refine ⟨(65536), ({}), ({ witFull with lkp := { pols := [(65536, {})] } }), ?_, ?_, ?_⟩ <;> decide +kernel
  · refine ⟨(1), (8191), (witGuard { count := 6 }), ?_, ?_, ?_, ?_, ?_⟩ <;> decide +kernel
  · refine ⟨(0), (0), (witFull), ?_, ?_⟩ <;> decide +kernel
  · refine ⟨(1), (8191), (witGuard { count := 5 }), ?_, ?_⟩ <;> decide +kernel
  · refine ⟨(1), (8191), (witGuard { count := 6, contained := true }), ?_, ?_, ?_, ?_⟩ <;> decide +kernel
  · refine ⟨(1), (8191), (witGuard { contained := true }), ?_, ?_, ?_⟩ <;> decide +kernel
  · refine ⟨(32), (witUnit 9), ?_, ?_, ?_, ?_, ?_⟩ <;> decide +kernel
  · refine ⟨(32), (wr (F.LKP_CONTu_LEVEL.u 32) 1 (witUnit 0)), ?_, ?_, ?_, ?_, ?_, ?_, ?_, ?_⟩ <;> decide +kernel

/-- States and operands that meet the hypotheses of each clause of Obligations.EthernetPortEventsComplete, one by one, in the order of its clauses. -/
theorem witness_EthernetPortEventsComplete :
    (∃ p : Fin 16, ∃ sp : Fin 5, ∃ s : State, (ethN p 0 1 s ≠ 0) ∧ (s.pwr.mode ≤ 1) ∧ (s.sys.domHeld.contains (Domain.num
          .sds) = false) ∧ (linkSpeed p (some sp.val) s = some sp.val) ∧ (portUp p s = true)) ∧
    (∃ p : Fin 16, ∃ sp : Option (Fin 5), ∃ s : State, (ethN p 0 1 s ≠ 0) ∧ (s.pwr.mode ≤ 1) ∧ (s.sys.domHeld.contains
          (Domain.num .sds) = false)) ∧
    (∃ p : Fin 16, ∃ q : Nat, ∃ s : State, (portUp p s = true) ∧ (ethFlag p 0 s = true) ∧ (ethFlag p 2 s = false)) ∧
    (∃ p : Fin 16, ∃ q : Nat, ∃ s : State, (portUp p s = true) ∧ (ethFlag p 0 s = true) ∧ (ethFlag p 2 s = false)) ∧
    (∃ p : Fin 16, ∃ c : Fin 8, ∃ s : State, (awake s = true) ∧ (ethFlag p 2 s = false)) ∧
    (∃ p : Fin 16, ∃ c : Fin 8, ∃ s : State, (awake s = true) ∧ (ethFlag p 2 s = true)) ∧
    (∃ p : Fin 16, ∃ c : Fin 8, ∃ s : State, (ethFlag p 2 s = false) ∧ (bit (rd (F.ETH_PORTpp_STAT_XOFF.u p) s) 0 = true) ∧
          (ethN p 0x0A 2 s ≤ pauseCount p none s) ∧ (silent .sds s = false) ∧ ((ethPort p s).open_ = true) ∧ (portUp p s =
          true)) ∧
    (∃ p : Fin 16, ∃ s : State, (awake s = true) ∧ (rd (F.ETH_PORTpp_STAT_VERIFY.u p) s = 1) ∧ ((ethPort p s).tries < 3) ∧
          (silent .sds s = false) ∧ ((ethPort p s).open_ = true)) ∧
    (∃ p : Fin 16, ∃ s : State, (awake s = true) ∧ (rd (F.ETH_PORTpp_STAT_VERIFY.u p) s = 1) ∧ (3 ≤ (ethPort p s).tries)) ∧
    (∃ p : Fin 16, ∃ s : State, (awake s = true) ∧ (rd (F.ETH_PORTpp_STAT_VERIFY.u p) s = 1)) ∧
    (∃ p : Fin 16, ∃ s : State, (domRuns .fab s = true) ∧ (ethFlag p 6 s = true)) ∧
    (∃ e : Fin 512, ∃ s : State, (domRuns .fab s = true) ∧ (cfgN C.ethFrer e 0 1 s = 1) ∧ (cfgHas C.ethFrer e s = true) ∧
          ((frerRun e s).hist.isSome = true) ∧ ((frerRun e s).since + frerReset e s ≤ s.time.loc)) := by
  refine ⟨?_, ?_, ?_, ?_, ?_, ?_, ?_, ?_, ?_, ?_, ?_, ?_⟩
  · refine ⟨(15), (3), (wr (F.ETH_PORTpp_STAT_LINK.u 15) 1 (witEth 15 1 0)), ?_, ?_, ?_, ?_, ?_⟩ <;> decide +kernel
  · refine ⟨(0), (none), (witEth 0 1 0), ?_, ?_, ?_⟩ <;> decide +kernel
  · refine ⟨(15), (0), (wr (F.ETH_PORTpp_STAT_LINK.u 15) 1 (witEth 15 1 1)), ?_, ?_, ?_⟩ <;> decide +kernel
  · refine ⟨(15), (65535), (wr (F.ETH_PORTpp_STAT_LINK.u 15) 1 (witEth 15 1 1)), ?_, ?_, ?_⟩ <;> decide +kernel
  · refine ⟨(0), (7), (witFull), ?_, ?_⟩ <;> decide +kernel
  · refine ⟨(15), (0), (witEth 15 1 4), ?_, ?_⟩ <;> decide +kernel
  · refine ⟨(3), (0),
        (wr (F.ETH_PORTpp_STAT_LINK.u 3) 1 (wr (F.ETH_PORTpp_STAT_XOFF.u 3) 1 (ethSet 3 { open_ := true } witFull))), ?_,
        ?_, ?_, ?_, ?_, ?_⟩ <;> decide +kernel
  · refine ⟨(0), (ethSet 0 { tries := 2, open_ := true } (wr (F.ETH_PORTpp_STAT_VERIFY.u 0) 1 witFull)), ?_, ?_, ?_, ?_,
        ?_⟩ <;> decide +kernel
  · refine ⟨(0), (ethSet 0 { tries := 3 } (wr (F.ETH_PORTpp_STAT_VERIFY.u 0) 1 witFull)), ?_, ?_, ?_⟩ <;> decide +kernel
  · refine ⟨(15), (wr (F.ETH_PORTpp_STAT_VERIFY.u 15) 1 witFull), ?_, ?_⟩ <;> decide +kernel
  · refine ⟨(2), (witEth 2 1 64), ?_, ?_⟩ <;> decide +kernel
  · refine ⟨(511), (frerSet 511 { hist := some (1, 2) } (witRec C.ethFrer 511 [1] witFull)), ?_, ?_, ?_, ?_, ?_⟩ <;> decide
        +kernel

/-- States and operands that meet the hypotheses of each clause of Obligations.MdioCommandsComplete, one by one, in the order of its clauses. -/
theorem witness_MdioCommandsComplete :
    (∃ p : Fin 16, ∃ s : State, (awake s = true) ∧ ((ethPort p s).step = 2)) ∧
    (∃ p : Fin 16, ∃ c : MdioCmd, ∃ r : List MdioCmd, ∃ s : State, (awake s = true) ∧ ((ethPort p s).step = 3) ∧ ((ethPort
          p s).script + 1 < (mdioScript p s).length) ∧ (byteAt (mdioEntry p s) 1 < 2) ∧ (mdioBus (ethN p 0x26 1 s) s = c ::
          r) ∧ (c.seq = true) ∧ (c.port = p)) ∧
    (∃ p : Fin 16, ∃ c : MdioCmd, ∃ r : List MdioCmd, ∃ s : State, (awake s = true) ∧ ((ethPort p s).step = 3) ∧
          ((mdioScript p s).length ≤ (ethPort p s).script + 1) ∧ (byteAt (mdioEntry p s) 1 < 2) ∧ (mdioBus (ethN p 0x26 1
          s) s = c :: r) ∧ (c.seq = true) ∧ (c.port = p)) ∧
    (∃ who : Initiator, ∃ p : Fin 16, ∃ v : Word, ∃ s : State, (Admits who (0x80F00 + 0x1000 * p.val) s) ∧ (mayMdio who s =
          true) ∧ (rdB (F.ETH_PORTpp_MDIO_CMD_BUSY.u p) s = false) ∧ ((ethPort p s).devAt ≠ some s.time.loc)) ∧
    (∃ who : Initiator, ∃ p : Fin 16, ∃ v : Word, ∃ s : State, (Admits who (0x80F00 + 0x1000 * p.val) s) ∧ (mayMdio who s =
          true) ∧ (rdB (F.ETH_PORTpp_MDIO_CMD_BUSY.u p) s = false) ∧ ((ethPort p s).devAt ≠ some s.time.loc)) ∧
    (∃ who : Initiator, ∃ p : Fin 16, ∃ v : Word, ∃ s : State, (Admits who (0x80F00 + 0x1000 * p.val) s) ∧ (mayMdio who s =
          true) ∧ (rdB (F.ETH_PORTpp_MDIO_CMD_BUSY.u p) s = false) ∧ ((ethPort p s).devAt ≠ some s.time.loc)) ∧
    (∃ who : Initiator, ∃ p : Fin 16, ∃ v : Word, ∃ s : State, (Admits who (0x80F00 + 0x1000 * p.val) s) ∧ (mayMdio who s =
          true) ∧ (rdB (F.ETH_PORTpp_MDIO_CMD_BUSY.u p) s = false) ∧ ((ethPort p s).devAt ≠ some s.time.loc)) ∧
    (∃ b : Fin 2, ∃ data : BitVec 16, ∃ p : Nat, ∃ at_ : Nat, ∃ r : List MdioCmd, ∃ s : State, (awake s = true) ∧ (tget []
          s.eth.mdio b = ⟨p, false, at_⟩ :: r) ∧ (rd (F.ETH_PORTpp_MDIO_CMD_OP.u p) s = 1 ∨ rd (F.ETH_PORTpp_MDIO_CMD_OP.u
          p) s = 3)) := by
  refine ⟨?_, ?_, ?_, ?_, ?_, ?_, ?_, ?_⟩
  · refine ⟨(15), (ethSet 15 { step := 2 } witFull), ?_, ?_⟩ <;> decide +kernel
  · refine ⟨(4), (⟨4, true, 0⟩), ([⟨5, true, 0⟩]),
        (ethSet 4 { step := 3 } (mdioSet 0 [⟨4, true, 0⟩, ⟨5, true, 0⟩] witScript)), ?_, ?_, ?_, ?_, ?_, ?_, ?_⟩ <;> decide
        +kernel
  · refine ⟨(4), (⟨4, true, 0⟩), ([⟨5, true, 0⟩]),
        (ethSet 4 { step := 3, script := 1 } (mdioSet 0 [⟨4, true, 0⟩, ⟨5, true, 0⟩] witScript)), ?_, ?_, ?_, ?_, ?_, ?_,
        ?_⟩ <;> decide +kernel
  · refine ⟨(.core 3), (15), (0x12345), (witFull), ?_, ?_, ?_, ?_⟩ <;> decide +kernel
  · refine ⟨(.core 3), (0), (0x12345), (witFull), ?_, ?_, ?_, ?_⟩ <;> decide +kernel
  · refine ⟨(.core 3), (15), (0x12345), (witFull), ?_, ?_, ?_, ?_⟩ <;> decide +kernel
  · refine ⟨(.core 0), (15), (0x12345), (witFull), ?_, ?_, ?_, ?_⟩ <;> decide +kernel
  · refine ⟨(1), (7), (3), (0), ([]),
        (wr (F.ETH_PORTpp_MDIO_CMD_OP.u 3) 1 { witFull with eth := { mdio := [(1, [⟨3, false, 0⟩])] } }), ?_, ?_, ?_⟩ <;>
        decide +kernel

/-- States and operands that meet the hypotheses of each clause of Obligations.T1sSegmentEventsComplete, one by one, in the order of its clauses. -/
theorem witness_T1sSegmentEventsComplete :
    (∃ g : Fin 16, ∃ i : Nat, ∃ s : State, (domRuns .fld s = true) ∧ (t1sPassed g s = true) ∧ (t1sMode g s = 1) ∧ (t1sLow g
          s = false) ∧ (rdB (F.T1S_SGnn_STAT_HOLD.u g) s = false) ∧ ((t1sSeg g s).align = some i) ∧ (silent .fld s =
          false)) ∧
    (∃ g : Fin 16, ∃ s : State, (t1sOpen g s = true)) ∧
    (∃ g : Fin 16, ∃ s : State, (domRuns .fld s = true) ∧ (t1sMode g s = 2) ∧ (t1sLow g s = false)) ∧
    (∃ g : Fin 16, ∃ s : State, (domRuns .fld s = true) ∧ (t1sMode g s = 2) ∧ (t1sPlca g s = true)) ∧
    (∃ g : Fin 16, ∃ x : Nat × Nat, ∃ s : State, (tfind s.qm.cur (16 + g.val) = some x) ∧ (t1sCsma g s = true) ∧ ((t1sSeg g
          s).tries < 15) ∧ (silent .fld s = false)) ∧
    (∃ g : Fin 16, ∃ s : State, (domRuns .fld s = true) ∧ ((t1sSeg g s).backoff.isSome = true) ∧ ((t1sSeg g s).wake =
          none)) ∧
    (∃ g : Fin 16, ∃ s : State, (domRuns .fld s = true) ∧ (t1sLow g s = true) ∧ (t1sMode g s ≠ 1) ∧ ((t1sSeg g s).wake =
          none)) ∧
    (∃ g : Fin 16, ∃ b : WakeBurst, ∃ s : State, (s.pwr.mode ≠ 4) ∧ (t1sMode g s ≠ 0) ∧ (t1sFlag g 2 s = true) ∧ (burstOk b
          = true) ∧ (wakeGroups g b s = none)) ∧
    (∃ g : Fin 16, ∃ b : WakeBurst, ∃ m : Nat, ∃ s : State, (s.pwr.mode = 2) ∧ (t1sMode g s ≠ 0) ∧ (t1sFlag g 2 s = true) ∧
          (burstOk b = true) ∧ (wakeGroups g b s = some m)) := by
  refine ⟨?_, ?_, ?_, ?_, ?_, ?_, ?_, ?_, ?_⟩
  · refine ⟨(0), (5), (witT1s 1 { align := some 5, cycle := true, opp := 255 } witFull), ?_, ?_, ?_, ?_, ?_, ?_, ?_⟩ <;>
        decide +kernel
  · refine ⟨(0), (wr (F.T1S_SGnn_STAT_PLCA_ACTIVE.u 0) 1 (witT1s 2 { cycle := true } witFull)), ?_⟩ <;> decide +kernel
  · refine ⟨(0), (witT1s 2 {} witFull), ?_, ?_, ?_⟩ <;> decide +kernel
  · refine ⟨(0), (wr (F.T1S_SGnn_STAT_PLCA_ACTIVE.u 0) 1 (witT1s 2 {} witFull)), ?_, ?_, ?_⟩ <;> decide +kernel
  · refine ⟨(0), ((128, 0)), (witT1s 3 { tries := 14 } { witFull with qm := { cur := [(16, (128, 0))] } }), ?_, ?_, ?_, ?_⟩
        <;> decide +kernel
  · refine ⟨(0), (witT1s 3 { backoff := some 3 } witFull), ?_, ?_, ?_⟩ <;> decide +kernel
  · refine ⟨(0), (wr (F.T1S_SGnn_STAT_LOWPOWER.u 0) 1 (witT1s 2 {} witFull)), ?_, ?_, ?_, ?_⟩ <;> decide +kernel
  · refine ⟨(0), (⟨20, 6, none⟩), (witT1s 2 {} witFull), ?_, ?_, ?_, ?_, ?_⟩ <;> decide +kernel
  · refine ⟨(0), (⟨30, 10, none⟩), (1), (witT1sWake), ?_, ?_, ?_, ?_, ?_⟩ <;> decide +kernel

/-- States and operands that meet the hypotheses of each clause of Obligations.CanEventsComplete, one by one, in the order of its clauses. -/
theorem witness_CanEventsComplete :
    (∃ ch : Fin 96, ∃ f : CanFrame, ∃ ago : Nat, ∃ s : State, (canFrameOk f = true) ∧ (s.pwr.mode < 2) ∧ (canLive ch s =
          true) ∧ ((canCh ch s).asleep = false) ∧ ((canCh ch s).tec < 256) ∧ (canKnows ch f s = true) ∧ (canGuarded ch f s
          = false) ∧ (canEntries ch 0 s = []) ∧ (rdB (F.FLD_CANnn_STAT_CONTAINED.u ch) s = false) ∧ (((rxFifo ch s).map fun
          x => x.data.length).sum + (canBytes f).length ≤ 8192)) ∧
    (∃ ch : Fin 96, ∃ f : CanFrame, ∃ ago : Nat, ∃ s : State, (canFrameOk f = true) ∧ (s.pwr.mode < 2) ∧ (canLive ch s =
          true) ∧ ((canCh ch s).asleep = false) ∧ ((canCh ch s).tec < 256) ∧ (canKnows ch f s = true) ∧ (canGuarded ch f s
          = false) ∧ (canEntries ch 0 s ≠ []) ∧ ((canEntries ch 0 s).any (entMatch (idWord f)) = false)) ∧
    (∃ ch : Fin 96, ∃ f : CanFrame, ∃ s : State, (canFrameOk f = true) ∧ (canCancels ch f s = true) ∧ (rdB
          (F.FLD_CANnn_STAT_CANCELLING.u ch) s = false)) ∧
    (∃ ch : Fin 96, ∃ x : Nat × Nat, ∃ s : State, ((canCh ch s).slot = some x) ∧ (canDrives ch s = true) ∧ ((canCh ch
          s).sof = false) ∧ ((fr x.2 s).pdu = none)) ∧
    (∃ ch : Fin 96, ∃ x : Nat × Nat, ∃ s : State, ((canCh ch s).slot = some x) ∧ (canDrives ch s = true) ∧ (canNosig ch s =
          false) ∧ (reading (.can ch) s = false) ∧ ((canCh ch s).gone = false) ∧ ((fr x.2 s).pdu = none) ∧ ((canCh ch
          s).tec ≤ 256) ∧ (∀ q ∈ canQueues ch s, (qu q s).ents = [])) ∧
    (∃ ch : Fin 96, ∃ x : Nat × Nat, ∃ s : State, ((canCh ch s).slot = some x) ∧ (canDrives ch s = true) ∧ ((canCh ch
          s).gone = false) ∧ ((fr x.2 s).pdu = none)) ∧
    (∃ ch : Fin 96, ∃ s : State, (canLive ch s = true) ∧ (canNosig ch s = false) ∧ ((canCh ch s).tec < 256)) ∧
    (∃ ch : Fin 96, ∃ x : Nat × Nat, ∃ s : State, (canLive ch s = true) ∧ (canDrives ch s = true) ∧ (canNosig ch s = false)
          ∧ ((canCh ch s).slot = some x) ∧ ((fr x.2 s).pdu = none) ∧ ((canCh ch s).gone = false) ∧ (canN ch 0x10 1 s = 0) ∧
          ((canCh ch s).tec + 8 < 256)) ∧
    (∃ ch : Fin 96, ∃ s : State, (domRuns .fld s = true) ∧ (rd (F.FLD_CANnn_STAT_STATE.u ch) s = 4)) ∧
    (∃ ch : Fin 96, ∃ s : State, (domRuns .fld s = true) ∧ (rd (F.FLD_CANnn_STAT_STATE.u ch) s = 5)) ∧
    (∃ ch : Fin 96, ∃ s : State, (domRuns .fld s = true) ∧ (rd (F.FLD_CANnn_STAT_STATE.u ch) s = 1) ∧ ((canCh ch s).tec ≤
          127) ∧ ((canCh ch s).rec_ ≤ 127) ∧ (∀ q ∈ canQueues ch s, (qu q s).ents = [])) ∧
    (∃ ch : Fin 96, ∃ s : State, (domRuns .fld s = true) ∧ (rdB (F.FLD_CANnn_STAT_CANCELLING.u ch) s = true) ∧ ((canCh ch
          s).cancelEnd ≤ s.time.loc)) ∧
    (∃ ch : Fin 96, ∃ load : Nat, ∃ s : State, (domRuns .fld s = true) ∧ (canMode ch s ≠ 0) ∧ (canN ch 0x1C 2 s ≠ 0) ∧
          (canN ch 0x1C 2 s < (canCh ch s).win ∨ canN ch 0x1E 2 s < load) ∧ (rdB (F.FLD_CANnn_STAT_CONTAINED.u ch) s =
          false) ∧ (canFlag ch 6 s = false)) ∧
    (∃ ch : Fin 96, ∃ s : State, (domRuns .fld s = true) ∧ (rdB (F.FLD_CANnn_STAT_CONTAINED.u ch) s = true) ∧ ((canCh ch
          s).babbleEnd ≤ s.time.loc)) := by
  refine ⟨?_, ?_, ?_, ?_, ?_, ?_, ?_, ?_, ?_, ?_, ?_, ?_, ?_, ?_⟩
  · refine ⟨(95), (⟨.cc, 0x7FF, false, false, false, false, false, 0, 0, 0, [1, 2]⟩), (100),
        (wr (F.FLD_CANnn_STAT_STATE.u 95) 2 (witCan 95 1 0)), ?_, ?_, ?_, ?_, ?_, ?_, ?_, ?_, ?_, ?_⟩ <;> decide +kernel
  · refine ⟨(0), (⟨.cc, 0x7FF, false, false, false, false, false, 0, 0, 0, []⟩), (0),
        (wr (F.FLD_CANnn_STAT_STATE.u 0) 2 (witRec C.canEnt 0 [0, 0, 0, 0, 1, 0, 0, 0, 255, 255, 255, 255] (witCan 0 1 0))),
        ?_, ?_, ?_, ?_, ?_, ?_, ?_, ?_, ?_⟩ <;> decide +kernel
  · refine ⟨(31), (⟨.cc, 0x1A4, false, false, false, false, false, 0, 0, 0, []⟩),
        (wr (F.FLD_CANnn_STAT_STATE.u 31) 3 (witRec C.canEnt 0 [31, 1, 0, 0, 0xA4, 1, 0, 0, 255, 255, 255, 255] (witCan 31 1 1))),
        ?_, ?_, ?_⟩ <;> decide +kernel
  · refine ⟨(0), ((256, 9)), (canSet 0 { slot := some (256, 9) } (wr (F.FLD_CANnn_STAT_STATE.u 0) 2 (witCan 0 1 0))), ?_,
        ?_, ?_, ?_⟩ <;> decide +kernel
  · refine ⟨(0), ((256, 9)),
        (canSet 0 { slot := some (256, 9), sof := true, trying := true } (wr (F.FLD_CANnn_STAT_STATE.u 0) 2 (witCan 0 1 0))),
        ?_, ?_, ?_, ?_, ?_, ?_, ?_, ?_⟩ <;> decide +kernel
  · refine ⟨(95), ((0, 0)), (canSet 95 { slot := some (0, 0) } (wr (F.FLD_CANnn_STAT_STATE.u 95) 2 (witCan 95 1 0))), ?_,
        ?_, ?_, ?_⟩ <;> decide +kernel
  · refine ⟨(0), (canSet 0 { rec_ := 127 } (wr (F.FLD_CANnn_STAT_STATE.u 0) 2 witFull)), ?_, ?_, ?_⟩ <;> decide +kernel
  · refine ⟨(0), ((1, 2)), (canSet 0 { tec := 247, slot := some (1, 2) } (wr (F.FLD_CANnn_STAT_STATE.u 0) 3 witFull)), ?_,
        ?_, ?_, ?_, ?_, ?_, ?_, ?_⟩ <;> decide +kernel
  · refine ⟨(95), (wr (F.FLD_CANnn_STAT_STATE.u 95) 4 witFull), ?_, ?_⟩ <;> decide +kernel
  · refine ⟨(0), (wr (F.FLD_CANnn_STAT_STATE.u 0) 5 witFull), ?_, ?_⟩ <;> decide +kernel
  · refine ⟨(0), (canSet 0 { missed := 3 } (wr (F.FLD_CANnn_STAT_STATE.u 0) 1 witFull)), ?_, ?_, ?_, ?_, ?_⟩ <;> decide
        +kernel
  · refine ⟨(0), (wr (F.FLD_CANnn_STAT_CANCELLING.u 0) 1 witFull), ?_, ?_, ?_⟩ <;> decide +kernel
  · refine ⟨(5), (0), (canSet 5 { win := 4 } (witBabble 5)), ?_, ?_, ?_, ?_, ?_, ?_⟩ <;> decide +kernel
  · refine ⟨(95), (wr (F.FLD_CANnn_STAT_CONTAINED.u 95) 1 witFull), ?_, ?_, ?_⟩ <;> decide +kernel

/-- States and operands that meet the hypotheses of each clause of Obligations.LinAndSideBandEventsComplete, one by one, in the order of its clauses. -/
theorem witness_LinAndSideBandEventsComplete :
    (∃ ch : Fin 32, ∃ tb : Nat, ∃ k : Nat, ∃ c : LinCh, ∃ e : List Byte, ∃ s : State, (domRuns .fld s = true) ∧ (linMode ch
          s = 1) ∧ (rdB (F.FLD_LINnn_STAT_ASLEEP.u ch) s = false) ∧ ((linCh ch s).quiet ≤ s.time.loc) ∧ (linReleased ch s =
          none) ∧ (linNext ch (linSet ch { linCh ch s with head := none, extraRun := false } s) = ((tb, k), c)) ∧ (tb < 16)
          ∧ (k < 64) ∧ ((linTable ch tb s)[k]? = some e) ∧ (byteAt e 2 = 0) ∧ (linId ch (byteAt e 3 % 64) s = 2) ∧ (silent
          .fld s = false)) ∧
    (∃ ch : Fin 32, ∃ tb : Fin 16, ∃ s : State, (domRuns .fld s = true) ∧ (linMode ch s = 1)) ∧
    (∃ ch : Fin 32, ∃ id : Fin 64, ∃ ago : Nat, ∃ s : State, (domRuns .fld s = true) ∧ (linMode ch s = 2) ∧ (linId ch id s
          = 2)) ∧
    (∃ ch : Fin 32, ∃ b : List Byte, ∃ x : LinHead, ∃ s : State, (domRuns .fld s = true) ∧ (0 < b.length) ∧ (b.length ≤ 8)
          ∧ ((linCh ch s).head = some x) ∧ (x.own = false) ∧ (x.id ≠ 0x3C) ∧ (rdB (F.FLD_LINnn_STAT_CONTAINED.u ch) s =
          false) ∧ (((rxFifo (96 + ch) s).map fun y => y.data.length).sum + (linBytes x.id b).length ≤ 8192)) ∧
    (∃ ch : Fin 32, ∃ x : LinHead, ∃ s : State, (domRuns .fld s = true) ∧ ((linCh ch s).head = some x) ∧ (x.own = false)) ∧
    (∃ ch : Fin 32, ∃ s : State, (domRuns .fld s = true) ∧ (rdB (F.FLD_LINnn_STAT_CONTAINED.u ch) s = true) ∧ ((linCh ch
          s).babbleEnd ≤ s.time.loc)) ∧
    (∃ ch : Fin 32, ∃ us : Nat, ∃ s : State, (s.pwr.mode = 2) ∧ (domRuns .fld s = true) ∧ (linMode ch s ≠ 0) ∧ (bit (linN
          ch 1 1 s) 0 = true) ∧ (150 ≤ us) ∧ (us ≤ 5000)) ∧
    (∃ ch : Fin 32, ∃ us : Nat, ∃ s : State, (s.pwr.mode = 2) ∧ (domRuns .fld s = true) ∧ (linMode ch s ≠ 0) ∧ (bit (linN
          ch 1 1 s) 0 = true) ∧ (150 ≤ us) ∧ (us ≤ 5000)) ∧
    (∃ v : BitVec 256, ∃ s : State, (sbsRuns s = true) ∧ (bit v.toNat 254 = false) ∧ (bit v.toNat 255 = true)) ∧
    (∃ v : BitVec 256, ∃ s : State, (sbsRuns s = true) ∧ (bit v.toNat 254 = true ∨ bit v.toNat 255 = false)) ∧
    (∃ v : BitVec 256, ∃ s : State, (sbsRuns s = true) ∧ (bit v.toNat 254 = true ∨ bit v.toNat 255 = false)) ∧
    (∃ w : SbsWriter, ∃ o : Fin 256, ∃ v : Bool, ∃ s : State, (sbsRuns s = true) ∧ (bit s.sbs.outs o ≠ v) ∧ (sbsMay w s o =
          true)) ∧
    (∃ s : State, (domRuns .fld s = true) ∧ (s.sbs.busy = true)) ∧
    (∃ s : State, (sbsRuns s = true)) := by
  refine ⟨?_, ?_, ?_, ?_, ?_, ?_, ?_, ?_, ?_, ?_, ?_, ?_, ?_, ?_⟩
  · refine ⟨(7), (0), (0), ({}), ([7, 0, 0, 5, 10, 0]), (witRec C.linSlot 0 [7, 0, 0, 5, 10, 0] (witLin 7 1 5 2)), ?_, ?_,
        ?_, ?_, ?_, ?_, ?_, ?_, ?_, ?_, ?_, ?_⟩ <;> decide +kernel
  · refine ⟨(31), (15), (witLin 31 1 0 0), ?_, ?_⟩ <;> decide +kernel
  · refine ⟨(31), (63), (500), (witLin 31 2 63 2), ?_, ?_, ?_⟩ <;> decide +kernel
  · refine ⟨(0), ([1, 2, 3, 4, 5, 6, 7, 8]), (⟨3, false, 7, false⟩),
        (linSet 0 { head := some ⟨3, false, 7, false⟩ } witFull), ?_, ?_, ?_, ?_, ?_, ?_, ?_, ?_⟩ <;> decide +kernel
  · refine ⟨(31), (⟨0, true, 0, false⟩), (linSet 31 { head := some ⟨0, true, 0, false⟩ } witFull), ?_, ?_, ?_⟩ <;> decide
        +kernel
  · refine ⟨(31), (wr (F.FLD_LINnn_STAT_CONTAINED.u 31) 1 witFull), ?_, ?_, ?_⟩ <;> decide +kernel
  · refine ⟨(3), (150), (witLinWake), ?_, ?_, ?_, ?_, ?_, ?_⟩ <;> decide +kernel
  · refine ⟨(3), (5000), (witLinWake), ?_, ?_, ?_, ?_, ?_, ?_⟩ <;> decide +kernel
  · refine ⟨(BitVec.ofNat 256 (2 ^ 255 + 1)), (witSbs), ?_, ?_, ?_⟩ <;> decide +kernel
  · refine ⟨(0), (witSbs), ?_, ?_⟩ <;> decide +kernel
  · refine ⟨(BitVec.ofNat 256 (2 ^ 255 + 2 ^ 254)), ({ witSbs with sbs := { bad := 2 } }), ?_, ?_⟩ <;> decide +kernel
  · refine ⟨(.stipple), (255), (true), (witSbs), ?_, ?_, ?_⟩ <;> decide +kernel
  · refine ⟨({ witFull with sbs := { busy := true, again := true } }), ?_, ?_⟩ <;> decide +kernel
  · refine ⟨(witSbs), ?_⟩ <;> decide +kernel

/-- States and operands that meet the hypotheses of each clause of Obligations.LinAndSideBandCommandsRun, one by one, in the order of its clauses. -/
theorem witness_LinAndSideBandCommandsRun :
    (∃ ch : Fin 32, ∃ tb : Nat, ∃ k : Nat, ∃ c : LinCh, ∃ e : List Byte, ∃ s : State, (domRuns .fld s = true) ∧ (linMode ch
          s = 1) ∧ (rdB (F.FLD_LINnn_STAT_ASLEEP.u ch) s = false) ∧ ((linCh ch s).quiet ≤ s.time.loc) ∧ (linReleased ch s =
          none) ∧ (linNext ch (linSet ch { linCh ch s with head := none, extraRun := false } s) = ((tb, k), c)) ∧ (tb < 16)
          ∧ (k < 64) ∧ ((linTable ch tb s)[k]? = some e) ∧ (byteAt e 2 = 1) ∧ (linId ch (byteAt e 3 % 64) s = 2) ∧ (silent
          .fld s = false)) ∧
    (∃ ch : Fin 32, ∃ tb : Nat, ∃ k : Nat, ∃ c : LinCh, ∃ e : List Byte, ∃ s : State, (domRuns .fld s = true) ∧ (linMode ch
          s = 1) ∧ (rdB (F.FLD_LINnn_STAT_ASLEEP.u ch) s = false) ∧ ((linCh ch s).quiet ≤ s.time.loc) ∧ (linReleased ch s =
          none) ∧ (linNext ch (linSet ch { linCh ch s with head := none, extraRun := false } s) = ((tb, k), c)) ∧
          ((linTable ch tb s)[k]? = some e) ∧ (byteAt e 2 = 4) ∧ (silent .fld s = false)) ∧
    (∃ ch : Fin 32, ∃ tb : Nat, ∃ k : Nat, ∃ c : LinCh, ∃ e : List Byte, ∃ d : List Byte, ∃ s : State, (domRuns .fld s =
          true) ∧ (linMode ch s = 1) ∧ (rdB (F.FLD_LINnn_STAT_ASLEEP.u ch) s = false) ∧ ((linCh ch s).quiet ≤ s.time.loc) ∧
          (linReleased ch s = none) ∧ (linNext ch (linSet ch { linCh ch s with head := none, extraRun := false } s) = ((tb,
          k), c)) ∧ ((linTable ch tb s)[k]? = some e) ∧ (byteAt e 2 = 0) ∧ (linId ch (byteAt e 3 % 64) s = 1) ∧ ((qu (640 +
          ch) s).ents = []) ∧ (tfind (linCh ch s).buf (byteAt e 3 % 64) = some d) ∧ (c.buf = (linCh ch s).buf) ∧ (byteAt e
          3 % 64 ≠ 0x3C) ∧ (silent .fld s = false)) ∧
    (∃ ch : Fin 32, ∃ tb : Fin 16, ∃ s : State, (domRuns .fld s = true) ∧ (linMode ch s = 1)) ∧
    (∃ ch : Fin 32, ∃ id : Fin 64, ∃ ago : Nat, ∃ s : State, (domRuns .fld s = true) ∧ (linMode ch s = 2) ∧ (linId ch id s
          ≠ 1) ∧ (linId ch id s ≠ 2)) ∧
    (∃ ch : Fin 32, ∃ id : Fin 64, ∃ ago : Nat, ∃ d : List Byte, ∃ s : State, (domRuns .fld s = true) ∧ (linMode ch s = 2)
          ∧ (linId ch id s = 1) ∧ (id.val ≠ 0x3C) ∧ ((qu (640 + ch) s).ents = []) ∧ (tfind (linCh ch s).buf id = some d) ∧
          (silent .fld s = false)) ∧
    (∃ ch : Fin 32, ∃ x : LinHead, ∃ s : State, (domRuns .fld s = true) ∧ ((linCh ch s).head = some x) ∧ (x.own = false)) ∧
    (∃ ch : Fin 32, ∃ x : LinHead, ∃ s : State, (domRuns .fld s = true) ∧ ((linCh ch s).head = some x)) ∧
    (∃ ch : Fin 32, ∃ x : LinHead, ∃ e : List Byte, ∃ s : State, (domRuns .fld s = true) ∧ ((linCh ch s).head = some x) ∧
          (x.own = false) ∧ (x.et = true) ∧ ((linTable ch (rd (F.FLD_LINnn_STAT_TABLE.u ch) s) s)[rd
          (F.FLD_LINnn_STAT_SLOT.u ch) s]? = some e)) ∧
    (∃ ch : Fin 32, ∃ us : Nat, ∃ s : State, (s.pwr.mode = 2) ∧ (domRuns .fld s = true) ∧ (linMode ch s ≠ 0) ∧ (bit (linN
          ch 1 1 s) 0 = true) ∧ (150 ≤ us) ∧ (us ≤ 5000)) ∧
    (∃ v : BitVec 256, ∃ s : State, (sbsRuns s = true) ∧ (scanGood v.toNat = true) ∧ (debounced (max 1 (cfgN C.sbs 0 2 1
          s)) (((v.toNat ^^^ sbsMap 0x30 s) :: s.sbs.scans).take 8) s.sbs.ins = s.sbs.ins) ∧ (∀ x ∈ s.eth.ports, x.2.step ≠
          1)) ∧
    (∃ v : BitVec 256, ∃ s : State, (sbsRuns s = true) ∧ (scanGood v.toNat = false) ∧ (s.sbs.bad = 2) ∧ (∀ x ∈ s.eth.ports,
          x.2.step ≠ 1)) ∧
    (∃ w : SbsWriter, ∃ o : Fin 256, ∃ s : State, (sbsRuns s = true)) ∧
    (∃ w : SbsWriter, ∃ o : Fin 256, ∃ v : Bool, ∃ s : State, (sbsRuns s = true) ∧ (s.sbs.busy = true) ∧ (bit s.sbs.outs o
          ≠ v) ∧ (sbsMay w s o = true)) ∧
    (∃ s : State, (domRuns .fld s = true) ∧ (s.sbs.busy = true) ∧ (s.pwr.sbsClrN = true)) ∧
    (∃ s : State, (sbsRuns s = true) ∧ (s.sbs.busy = false)) ∧
    (∃ s : State, (sbsRuns s = true) ∧ (s.sbs.busy = true)) := by
  refine ⟨?_, ?_, ?_, ?_, ?_, ?_, ?_, ?_, ?_, ?_, ?_, ?_, ?_, ?_, ?_, ?_, ?_⟩
  · refine ⟨(7), (0), (0), ({}), ([7, 0, 1, 5, 10, 0]), (witRec C.linSlot 0 [7, 0, 1, 5, 10, 0] (witLin 7 1 5 2)), ?_, ?_,
        ?_, ?_, ?_, ?_, ?_, ?_, ?_, ?_, ?_, ?_⟩ <;> decide +kernel
  · refine ⟨(7), (0), (0), ({}), ([7, 0, 4, 5, 10, 0]), (witRec C.linSlot 0 [7, 0, 4, 5, 10, 0] (witLin 7 1 5 2)), ?_, ?_,
        ?_, ?_, ?_, ?_, ?_, ?_, ?_⟩ <;> decide +kernel
  · refine ⟨(7), (0), (0), ({ buf := [(5, [1, 2])] }), ([7, 0, 0, 5, 10, 0]), ([1, 2]),
        (linSet 7 { buf := [(5, [1, 2])] } (witRec C.linSlot 0 [7, 0, 0, 5, 10, 0] (witLin 7 1 5 1))), ?_, ?_, ?_, ?_, ?_,
        ?_, ?_, ?_, ?_, ?_, ?_, ?_, ?_, ?_⟩ <;> decide +kernel
  · refine ⟨(0), (15), (witLin 0 1 0 0), ?_, ?_⟩ <;> decide +kernel
  · refine ⟨(31), (63), (0), (witLin 31 2 63 0), ?_, ?_, ?_, ?_⟩ <;> decide +kernel
  · refine ⟨(31), (63), (9), ([1]), (linSet 31 { buf := [(63, [1])] } (witLin 31 2 63 1)), ?_, ?_, ?_, ?_, ?_, ?_, ?_⟩ <;>
        decide +kernel
  · refine ⟨(31), (⟨0, true, 0, false⟩), (linSet 31 { head := some ⟨0, true, 0, false⟩ } witFull), ?_, ?_, ?_⟩ <;> decide
        +kernel
  · refine ⟨(0), (⟨0, true, 0, true⟩), (linSet 0 { head := some ⟨0, true, 0, true⟩ } witFull), ?_, ?_⟩ <;> decide +kernel
  · refine ⟨(7), (⟨5, true, 0, false⟩), ([7, 0, 1, 5, 10, 0, 3]),
        (linSet 7 { head := some ⟨5, true, 0, false⟩ } (witRec C.linSlot 0 [7, 0, 1, 5, 10, 0, 3] (witLin 7 1 5 2))), ?_,
        ?_, ?_, ?_, ?_⟩ <;> decide +kernel
  · refine ⟨(3), (5000), (witLinWake), ?_, ?_, ?_, ?_, ?_, ?_⟩ <;> decide +kernel
  · refine ⟨(BitVec.ofNat 256 (2 ^ 255)), ({ witSbs with sbs := { ins := 2 ^ 255 } }), ?_, ?_, ?_, ?_⟩ <;> decide +kernel
  · refine ⟨(0), ({ witSbs with sbs := { bad := 2, good := 3 } }), ?_, ?_, ?_, ?_⟩ <;> decide +kernel
  · refine ⟨(.phy), (255), (witSbs), ?_⟩ <;> decide +kernel
  · refine ⟨(.sleep), (0), (true), ({ witSbs with sbs := { busy := true } }), ?_, ?_, ?_, ?_⟩ <;> decide +kernel
  · refine ⟨({ witSbs with sbs := { busy := true, outs := 5 }, pwr := { witSbs.pwr with sbsClrN := true } }), ?_, ?_, ?_⟩
        <;> decide +kernel
  · refine ⟨(witSbs), ?_, ?_⟩ <;> decide +kernel
  · refine ⟨({ witSbs with sbs := { busy := true } }), ?_, ?_⟩ <;> decide +kernel

/-- States and operands that meet the hypotheses of each clause of Obligations.SignalAndEngineEventsComplete, one by one, in the order of its clauses. -/
theorem witness_SignalAndEngineEventsComplete :
    (∃ p : Fin 8192, ∃ s : State, (awake s = true) ∧ (pduN p 0x0C 2 s ≠ 0) ∧ (pduMode p s ≤ 1) ∧ (pduUnsent p s = false) ∧
          (evPends (pduN p 0x1C 1 s) 2 p s = false) ∧ (pduN p 0x1C 1 s < 16)) ∧
    (∃ p : Fin 8192, ∃ s : State, (awake s = true) ∧ ((pduRun p s).gap = true) ∧ ((pduRun p s).change = false)) ∧
    (∃ k : Fin 64, ∃ s : State, (awake s = true) ∧ ((car k s).count ≠ 0) ∧ (sourceWaits false 7 s = false)) ∧
    (∃ e : Fin 16, ∃ c : Nat, ∃ v : Ev, ∃ u : State, ∃ s : State, (engState e s = 1) ∧ (domRuns .grv s = true) ∧
          ((List.range 8).find? (fun c => (ctx e c s).st == 0) = some c) ∧ (nextEvent e s = some v) ∧ (takeEvent e v s =
          (none, u)) ∧ ((eng e u).vecs.getD v.kind 0xFFFF ≠ 0xFFFF)) ∧
    (∃ e : Fin 16, ∃ c : Fin 8, ∃ s : State, ((ctx e c s).st = 2) ∧ (domRuns .grv s = true) ∧ (reading (.slot e c) s =
          false) ∧ ((ctx e c s).stall = .access)) ∧
    (∃ e : Fin 16, ∃ k : Fin 16, ∃ a : Nat, ∃ s : State, (awake s = true) ∧ (tfind (eng e s).timers k = some a) ∧ (a ≤
          shortNs s)) ∧
    (∃ e : Fin 16, ∃ d : List Byte, ∃ img : List Byte, ∃ s : State, (awake s = true) ∧ (engState e s = 2) ∧ (domBusy .grv s
          = false) ∧ (tfind (activeImages 0x11 s) (engImage e s) = some (d, img)) ∧ (tfind s.sys.imgGrv (engImage e s) =
          some d)) := by
  refine ⟨?_, ?_, ?_, ?_, ?_, ?_, ?_⟩
  · refine ⟨(8191),
        (witRec C.sigPdu 8191 [8, 0, 1, 0, 0, 0, 0, 0, 0, 0, 0, 0, 10, 0, 0, 0, 0, 0, 0, 0, 0, 0, 0, 0, 0, 0, 0, 0, 15, 0, 0, 0, 0, 0, 0, 0, 0, 0, 0, 0] witFull),
        ?_, ?_, ?_, ?_, ?_, ?_⟩ <;> decide +kernel
  · refine ⟨(0), (pduSet 0 { gap := true } witFull), ?_, ?_, ?_⟩ <;> decide +kernel
  · refine ⟨(63), (carSet 63 { msgs := [0], count := 1, seq := 255 } witFull), ?_, ?_, ?_⟩ <;> decide +kernel
  · refine ⟨(15), (0), (⟨7, 0, 0, 0, 0⟩), _, (witEvent 15 ⟨7, 0, 0, 0, 0⟩), ?_, ?_, ?_, ?_, witPair (by decide +kernel),
        ?_⟩ <;> decide +kernel
  · refine ⟨(15), (7), (witGrv 15 7 { st := 2, stall := .access }), ?_, ?_, ?_, ?_⟩ <;> decide +kernel
  · refine ⟨(15), (15), (0), (engSet 15 { timers := [(15, 0)] } witFull), ?_, ?_, ?_⟩ <;> decide +kernel
  · refine ⟨(15), (witImageRef.1), (witImageRef.2), (witImage), ?_, ?_, ?_, ?_, ?_⟩ <;> decide +kernel

/-- States and operands that meet the hypotheses of each clause of Obligations.GraverArithmeticComputes, one by one, in the order of its clauses. -/
theorem witness_GraverArithmeticComputes :
    (∃ e : Fin 16, ∃ c : Fin 8, ∃ s : State, (GvRuns e c s)) ∧
    (∃ e : Fin 16, ∃ c : Fin 8, ∃ w : BitVec 26, ∃ s : State, (GvRuns e c s) ∧ (w.extractLsb' 0 14 = 0)) ∧
    (∃ e : Fin 16, ∃ c : Fin 8, ∃ w : BitVec 26, ∃ s : State, (GvRuns e c s) ∧ (w.extractLsb' 0 14 = 0)) ∧
    (∃ e : Fin 16, ∃ c : Fin 8, ∃ w : BitVec 26, ∃ s : State, (GvRuns e c s) ∧ (w.extractLsb' 0 14 = 0)) ∧
    (∃ e : Fin 16, ∃ c : Fin 8, ∃ w : BitVec 26, ∃ s : State, (GvRuns e c s) ∧ (w.extractLsb' 0 14 = 0)) ∧
    (∃ e : Fin 16, ∃ c : Fin 8, ∃ w : BitVec 26, ∃ s : State, (GvRuns e c s) ∧ (w.extractLsb' 0 14 = 0)) ∧
    (∃ e : Fin 16, ∃ c : Fin 8, ∃ w : BitVec 26, ∃ s : State, (GvRuns e c s) ∧ (w.extractLsb' 0 14 = 0)) ∧
    (∃ e : Fin 16, ∃ c : Fin 8, ∃ w : BitVec 26, ∃ s : State, (GvRuns e c s) ∧ (w.extractLsb' 0 14 = 0)) ∧
    (∃ e : Fin 16, ∃ c : Fin 8, ∃ w : BitVec 26, ∃ s : State, (GvRuns e c s) ∧ (w.extractLsb' 0 14 = 0)) ∧
    (∃ e : Fin 16, ∃ c : Fin 8, ∃ w : BitVec 26, ∃ s : State, (GvRuns e c s) ∧ (w.extractLsb' 0 14 = 0)) ∧
    (∃ e : Fin 16, ∃ c : Fin 8, ∃ w : BitVec 26, ∃ s : State, (GvRuns e c s) ∧ (w.extractLsb' 0 14 = 0)) ∧
    (∃ e : Fin 16, ∃ c : Fin 8, ∃ w : BitVec 26, ∃ s : State, (GvRuns e c s) ∧ (w.extractLsb' 0 14 = 0)) ∧
    (∃ e : Fin 16, ∃ c : Fin 8, ∃ w : BitVec 26, ∃ s : State, (GvRuns e c s)) ∧
    (∃ e : Fin 16, ∃ c : Fin 8, ∃ w : BitVec 26, ∃ s : State, (GvRuns e c s)) ∧
    (∃ e : Fin 16, ∃ c : Fin 8, ∃ w : BitVec 26, ∃ s : State, (GvRuns e c s)) ∧
    (∃ e : Fin 16, ∃ c : Fin 8, ∃ w : BitVec 26, ∃ s : State, (GvRuns e c s)) ∧
    (∃ e : Fin 16, ∃ c : Fin 8, ∃ w : BitVec 26, ∃ s : State, (GvRuns e c s)) ∧
    (∃ e : Fin 16, ∃ c : Fin 8, ∃ w : BitVec 26, ∃ s : State, (GvRuns e c s)) ∧
    (∃ e : Fin 16, ∃ c : Fin 8, ∃ w : BitVec 26, ∃ s : State, (GvRuns e c s)) ∧
    (∃ e : Fin 16, ∃ c : Fin 8, ∃ w : BitVec 26, ∃ s : State, (GvRuns e c s) ∧ (wA w = 0) ∧ (w.extractLsb' 16 2 = 0)) ∧
    (∃ e : Fin 16, ∃ c : Fin 8, ∃ w : BitVec 26, ∃ s : State, (GvRuns e c s) ∧ ((w.extractLsb' 12 6).toNat +
          ((w.extractLsb' 6 6).toNat + 1) ≤ 64)) ∧
    (∃ e : Fin 16, ∃ c : Fin 8, ∃ w : BitVec 26, ∃ s : State, (GvRuns e c s) ∧ ((w.extractLsb' 12 6).toNat +
          ((w.extractLsb' 6 6).toNat + 1) ≤ 64)) ∧
    (∃ e : Fin 16, ∃ c : Fin 8, ∃ w : BitVec 26, ∃ s : State, (GvRuns e c s) ∧ ((w.extractLsb' 12 6).toNat +
          ((w.extractLsb' 6 6).toNat + 1) ≤ 64) ∧ (w.getLsbD 5 = false)) ∧
    (∃ e : Fin 16, ∃ c : Fin 8, ∃ w : BitVec 26, ∃ s : State, (GvRuns e c s) ∧ ((w.extractLsb' 12 6).toNat +
          ((w.extractLsb' 6 6).toNat + 1) ≤ 64) ∧ (w.getLsbD 5 = false)) ∧
    (∃ e : Fin 16, ∃ c : Fin 8, ∃ w : BitVec 26, ∃ s : State, (GvRuns e c s) ∧ (w.extractLsb' 0 2 ≠ 0)) := by
  refine ⟨?_, ?_, ?_, ?_, ?_, ?_, ?_, ?_, ?_, ?_, ?_, ?_, ?_, ?_, ?_, ?_, ?_, ?_, ?_, ?_, ?_, ?_, ?_, ?_, ?_⟩
  · refine ⟨(15), (7), (witGrv 15 7 witCtx), ?_⟩ <;> decide +kernel
  · refine ⟨(15), (7), (0x3FF8000), (witGrv 15 7 witCtx), ?_, ?_⟩ <;> decide +kernel
  · refine ⟨(15), (7), (0x3FF8000), (witGrv 15 7 witCtx), ?_, ?_⟩ <;> decide +kernel
  · refine ⟨(15), (7), (0x3FF8000), (witGrv 15 7 witCtx), ?_, ?_⟩ <;> decide +kernel
  · refine ⟨(15), (7), (0x3FF8000), (witGrv 15 7 witCtx), ?_, ?_⟩ <;> decide +kernel
  · refine ⟨(15), (7), (0x3FF8000), (witGrv 15 7 witCtx), ?_, ?_⟩ <;> decide +kernel
  · refine ⟨(15), (7), (0x3FF8000), (witGrv 15 7 witCtx), ?_, ?_⟩ <;> decide +kernel
  · refine ⟨(15), (7), (0x3FF8000), (witGrv 15 7 witCtx), ?_, ?_⟩ <;> decide +kernel
  · refine ⟨(15), (7), (0x3FF8000), (witGrv 15 7 witCtx), ?_, ?_⟩ <;> decide +kernel
  · refine ⟨(15), (7), (0x3FF8000), (witGrv 15 7 witCtx), ?_, ?_⟩ <;> decide +kernel
  · refine ⟨(15), (7), (0x3FF8000), (witGrv 15 7 witCtx), ?_, ?_⟩ <;> decide +kernel
  · refine ⟨(15), (7), (0x3FF8000), (witGrv 15 7 witCtx), ?_, ?_⟩ <;> decide +kernel
  · refine ⟨(0), (0), (0x3FF0001), (witGrv 0 0 witCtx), ?_⟩ <;> decide +kernel
  · refine ⟨(0), (0), (0x3FF0001), (witGrv 0 0 witCtx), ?_⟩ <;> decide +kernel
  · refine ⟨(0), (0), (0x3FF0001), (witGrv 0 0 witCtx), ?_⟩ <;> decide +kernel
  · refine ⟨(0), (0), (0x3FF0001), (witGrv 0 0 witCtx), ?_⟩ <;> decide +kernel
  · refine ⟨(0), (0), (0x3FF0001), (witGrv 0 0 witCtx), ?_⟩ <;> decide +kernel
  · refine ⟨(0), (0), (0x3FF0001), (witGrv 0 0 witCtx), ?_⟩ <;> decide +kernel
  · refine ⟨(0), (0), (0x3FF0001), (witGrv 0 0 witCtx), ?_⟩ <;> decide +kernel
  · refine ⟨(0), (0), (0x340FFFF), (witGrv 0 0 witCtx), ?_, ?_, ?_⟩ <;> decide +kernel
  · refine ⟨(0), (0), (0x14CC260), (witGrv 0 0 witCtx), ?_, ?_⟩ <;> decide +kernel
  · refine ⟨(0), (0), (0x14C0FC0), (witGrv 0 0 witCtx), ?_, ?_⟩ <;> decide +kernel
  · refine ⟨(0), (0), (0x14CC240), (witGrv 0 0 witCtx), ?_, ?_, ?_⟩ <;> decide +kernel
  · refine ⟨(0), (0), (0x14C0FC0), (witGrv 0 0 witCtx), ?_, ?_, ?_⟩ <;> decide +kernel
  · refine ⟨(0), (0), (0x14C0003), (witGrv 0 0 witCtx), ?_, ?_⟩ <;> decide +kernel

/-- States and operands that meet the hypotheses of each clause of Obligations.GraverBranchesAndMemoryComplete, one by one, in the order of its clauses. -/
theorem witness_GraverBranchesAndMemoryComplete :
    (∃ e : Fin 16, ∃ c : Fin 8, ∃ w : BitVec 26, ∃ s : State, (GvRuns e c s) ∧ (0 ≤ branchTarget e c w s) ∧ (branchTarget e
          c w s < (eng e s).count)) ∧
    (∃ e : Fin 16, ∃ c : Fin 8, ∃ w : BitVec 26, ∃ s : State, (GvRuns e c s) ∧ (0 ≤ branchTarget e c w s) ∧ (branchTarget e
          c w s < (eng e s).count)) ∧
    (∃ e : Fin 16, ∃ c : Fin 8, ∃ w : BitVec 26, ∃ s : State, (GvRuns e c s) ∧ (0 ≤ branchTarget e c w s) ∧ (branchTarget e
          c w s < (eng e s).count)) ∧
    (∃ e : Fin 16, ∃ c : Fin 8, ∃ w : BitVec 26, ∃ s : State, (GvRuns e c s) ∧ (0 ≤ branchTarget e c w s) ∧ (branchTarget e
          c w s < (eng e s).count)) ∧
    (∃ e : Fin 16, ∃ c : Fin 8, ∃ w : BitVec 26, ∃ s : State, (GvRuns e c s) ∧ (0 ≤ branchTarget e c w s) ∧ (branchTarget e
          c w s < (eng e s).count)) ∧
    (∃ e : Fin 16, ∃ c : Fin 8, ∃ w : BitVec 26, ∃ s : State, (GvRuns e c s) ∧ (0 ≤ branchTarget e c w s) ∧ (branchTarget e
          c w s < (eng e s).count)) ∧
    (∃ e : Fin 16, ∃ c : Fin 8, ∃ w : BitVec 26, ∃ s : State, (GvRuns e c s) ∧ (0 ≤ branchTarget e c w s) ∧ (branchTarget e
          c w s < (eng e s).count)) ∧
    (∃ e : Fin 16, ∃ c : Fin 8, ∃ w : BitVec 26, ∃ s : State, (GvRuns e c s) ∧ (0 ≤ branchTarget e c w s) ∧ (branchTarget e
          c w s < (eng e s).count)) ∧
    (∃ e : Fin 16, ∃ c : Fin 8, ∃ w : BitVec 26, ∃ s : State, (GvRuns e c s) ∧ (0 ≤ branchTarget e c w s) ∧ (branchTarget e
          c w s < (eng e s).count)) ∧
    (∃ e : Fin 16, ∃ c : Fin 8, ∃ w : BitVec 26, ∃ s : State, (GvRuns e c s) ∧ (0 ≤ branchTarget e c w s) ∧ (branchTarget e
          c w s < (eng e s).count)) ∧
    (∃ e : Fin 16, ∃ c : Fin 8, ∃ w : BitVec 26, ∃ s : State, (GvRuns e c s) ∧ (0 ≤ branchTarget e c w s) ∧ (branchTarget e
          c w s < (eng e s).count)) ∧
    (∃ e : Fin 16, ∃ c : Fin 8, ∃ w : BitVec 26, ∃ s : State, (GvRuns e c s) ∧ (0 ≤ branchTarget e c w s) ∧ (branchTarget e
          c w s < (eng e s).count)) ∧
    (∃ e : Fin 16, ∃ c : Fin 8, ∃ w : BitVec 26, ∃ s : State, (GvRuns e c s) ∧ (w.extractLsb' 14 12 = 0) ∧ ((w.extractLsb'
          0 14).toNat < (eng e s).count)) ∧
    (∃ e : Fin 16, ∃ c : Fin 8, ∃ w : BitVec 26, ∃ s : State, (GvRuns e c s) ∧ (w.extractLsb' 14 12 = 0) ∧ ((w.extractLsb'
          0 14).toNat < (eng e s).count)) ∧
    (∃ e : Fin 16, ∃ c : Fin 8, ∃ w : BitVec 26, ∃ s : State, (GvRuns e c s) ∧ (w.extractLsb' 0 14 = 0) ∧ ((gReg e c (wA w)
          s).toNat % 2 ^ 14 < (eng e s).count)) ∧
    (∃ e : Fin 16, ∃ c : Fin 8, ∃ w : BitVec 26, ∃ s : State, (GvRuns e c s) ∧ ((((gReg e c (wA w) s).toNat +
          (w.extractLsb' 0 15).toNat) % 2 ^ 64) % 2 ^ (w.extractLsb' 16 2).toNat = 0) ∧ ((((gReg e c (wA w) s).toNat +
          (w.extractLsb' 0 15).toNat) % 2 ^ 64) + 2 ^ (w.extractLsb' 16 2).toNat ≤ 32768)) ∧
    (∃ e : Fin 16, ∃ c : Fin 8, ∃ w : BitVec 26, ∃ s : State, (GvRuns e c s) ∧ ((((gReg e c (wA w) s).toNat +
          (w.extractLsb' 0 15).toNat) % 2 ^ 64) % 2 ^ (w.extractLsb' 16 2).toNat = 0) ∧ ((((gReg e c (wA w) s).toNat +
          (w.extractLsb' 0 15).toNat) % 2 ^ 64) + 2 ^ (w.extractLsb' 16 2).toNat ≤ 32768)) ∧
    (∃ e : Fin 16, ∃ c : Fin 8, ∃ w : BitVec 26, ∃ s : State, (GvRuns e c s) ∧ (tsorted (eng e s).dmem = true) ∧ (w.getLsbD
          15 = false) ∧ ((((gReg e c (wA w) s).toNat + (w.extractLsb' 0 15).toNat) % 2 ^ 64) % 2 ^ (w.extractLsb' 16
          2).toNat = 0) ∧ ((((gReg e c (wA w) s).toNat + (w.extractLsb' 0 15).toNat) % 2 ^ 64) + 2 ^ (w.extractLsb' 16
          2).toNat ≤ 32768)) ∧
    (∃ e : Fin 16, ∃ c : Fin 8, ∃ w : BitVec 26, ∃ s : State, (GvRuns e c s) ∧ (tsorted (eng e s).dmem = true) ∧ (w.getLsbD
          15 = false) ∧ ((((gReg e c (wA w) s).toNat + (w.extractLsb' 0 15).toNat) % 2 ^ 64) % 2 ^ (w.extractLsb' 16
          2).toNat = 0) ∧ ((((gReg e c (wA w) s).toNat + (w.extractLsb' 0 15).toNat) % 2 ^ 64) + 2 ^ (w.extractLsb' 16
          2).toNat ≤ 32768)) := by
  refine ⟨?_, ?_, ?_, ?_, ?_, ?_, ?_, ?_, ?_, ?_, ?_, ?_, ?_, ?_, ?_, ?_, ?_, ?_, ?_⟩
  · refine ⟨(15), (7), (0x3FF8000 ||| 0x3FFFF), (witGrv 15 7 witCtx), ?_, ?_, ?_⟩ <;> decide +kernel
  · refine ⟨(0), (0), (0x0440000), (witGrv 0 0 witCtx), ?_, ?_, ?_⟩ <;> decide +kernel
  · refine ⟨(15), (7), (0x3FF8000 ||| 0x3FFFF), (witGrv 15 7 witCtx), ?_, ?_, ?_⟩ <;> decide +kernel
  · refine ⟨(0), (0), (0x0440000), (witGrv 0 0 witCtx), ?_, ?_, ?_⟩ <;> decide +kernel
  · refine ⟨(15), (7), (0x3FF8000 ||| 0x3FFFF), (witGrv 15 7 witCtx), ?_, ?_, ?_⟩ <;> decide +kernel
  · refine ⟨(0), (0), (0x0440000), (witGrv 0 0 witCtx), ?_, ?_, ?_⟩ <;> decide +kernel
  · refine ⟨(15), (7), (0x3FF8000 ||| 0x3FFFF), (witGrv 15 7 witCtx), ?_, ?_, ?_⟩ <;> decide +kernel
  · refine ⟨(0), (0), (0x0440000), (witGrv 0 0 witCtx), ?_, ?_, ?_⟩ <;> decide +kernel
  · refine ⟨(15), (7), (0x3FF8000 ||| 0x3FFFF), (witGrv 15 7 witCtx), ?_, ?_, ?_⟩ <;> decide +kernel
  · refine ⟨(0), (0), (0x0440000), (witGrv 0 0 witCtx), ?_, ?_, ?_⟩ <;> decide +kernel
  · refine ⟨(15), (7), (0x3FF8000 ||| 0x3FFFF), (witGrv 15 7 witCtx), ?_, ?_, ?_⟩ <;> decide +kernel
  · refine ⟨(0), (0), (0x0440000), (witGrv 0 0 witCtx), ?_, ?_, ?_⟩ <;> decide +kernel
  · refine ⟨(15), (7), (5), (witGrv 15 7 witCtx), ?_, ?_, ?_⟩ <;> decide +kernel
  · refine ⟨(15), (7), (5), (witGrv 15 7 witCtx), ?_, ?_, ?_⟩ <;> decide +kernel
  · refine ⟨(15), (7), (0), (witGrv 15 7 witCtx), ?_, ?_, ?_⟩ <;> decide +kernel
  · refine ⟨(15), (7), (0x0437FF8), (witGrv 15 7 witCtx), ?_, ?_, ?_⟩ <;> decide +kernel
  · refine ⟨(0), (0), (0x0407FFF), (witGrv 0 0 witCtx), ?_, ?_, ?_⟩ <;> decide +kernel
  · refine ⟨(15), (7), (0x0437FF8), (witGrv 15 7 witCtx), ?_, ?_, ?_, ?_, ?_⟩ <;> decide +kernel
  · refine ⟨(0), (0), (0x0407FFF), (witGrv 0 0 witCtx), ?_, ?_, ?_, ?_, ?_⟩ <;> decide +kernel

/-- States and operands that meet the hypotheses of each clause of Obligations.GraverSignalsAndFramesComplete, one by one, in the order of its clauses. -/
theorem witness_GraverSignalsAndFramesComplete :
    (∃ e : Fin 16, ∃ c : Fin 8, ∃ w : BitVec 26, ∃ d : List Byte, ∃ s : State, (GvRuns e c s) ∧ (slotData (w.extractLsb' 17
          1).toNat (ctx e c s) s = some d) ∧ (slotFetch e c (w.extractLsb' 17 1).toNat (((gReg e c (wA w) s).toNat +
          (w.extractLsb' 0 14).toNat) % 2 ^ 64) (2 ^ (w.extractLsb' 15 2).toNat) (ctx e c s) s = (ctx e c s, s)) ∧ (reading
          (.slot e c) s = false) ∧ ((((gReg e c (wA w) s).toNat + (w.extractLsb' 0 14).toNat) % 2 ^ 64) + 2 ^
          (w.extractLsb' 15 2).toNat ≤ d.length)) ∧
    (∃ e : Fin 16, ∃ c : Fin 8, ∃ w : BitVec 26, ∃ d : List Byte, ∃ s : State, (GvRuns e c s) ∧ (slotData (w.extractLsb' 17
          1).toNat (ctx e c s) s = some d) ∧ (slotFetch e c (w.extractLsb' 17 1).toNat (((gReg e c (wA w) s).toNat +
          (w.extractLsb' 0 14).toNat) % 2 ^ 64) (2 ^ (w.extractLsb' 15 2).toNat) (ctx e c s) s = (ctx e c s, s)) ∧ (reading
          (.slot e c) s = false) ∧ ((((gReg e c (wA w) s).toNat + (w.extractLsb' 0 14).toNat) % 2 ^ 64) + 2 ^
          (w.extractLsb' 15 2).toNat ≤ d.length)) ∧
    (∃ e : Fin 16, ∃ c : Fin 8, ∃ w : BitVec 26, ∃ d : List Byte, ∃ y : Ctx, ∃ u : State, ∃ s : State, (GvRuns e c s) ∧
          (slotData (w.extractLsb' 17 1).toNat (ctx e c s) s = some d) ∧ ((((gReg e c (wA w) s).toNat + (w.extractLsb' 0
          14).toNat) % 2 ^ 64) + (2 ^ (w.extractLsb' 15 2).toNat) ≤ d.length) ∧ (slotFetch e c (w.extractLsb' 17 1).toNat
          (((gReg e c (wA w) s).toNat + (w.extractLsb' 0 14).toNat) % 2 ^ 64) (2 ^ (w.extractLsb' 15 2).toNat) ((gvIssued
          (ctx e c s)).put (wD w) (loaded (2 ^ (w.extractLsb' 15 2).toNat) (w.getLsbD 14) (leAt d (((gReg e c (wA w)
          s).toNat + (w.extractLsb' 0 14).toNat) % 2 ^ 64) (2 ^ (w.extractLsb' 15 2).toNat)))) s = (y, u)) ∧ (reading
          (.slot e c) u = true)) ∧
    (∃ e : Fin 16, ∃ c : Fin 8, ∃ w : BitVec 26, ∃ d : List Byte, ∃ y : Ctx, ∃ u : State, ∃ s : State, (GvRuns e c s) ∧
          (slotData (w.extractLsb' 17 1).toNat (ctx e c s) s = some d) ∧ ((((gReg e c (wA w) s).toNat + (w.extractLsb' 0
          14).toNat) % 2 ^ 64) + (2 ^ (w.extractLsb' 15 2).toNat) ≤ d.length) ∧ (slotFetch e c (w.extractLsb' 17 1).toNat
          (((gReg e c (wA w) s).toNat + (w.extractLsb' 0 14).toNat) % 2 ^ 64) (2 ^ (w.extractLsb' 15 2).toNat) ((gvIssued
          (ctx e c s)).put (wD w) (loaded (2 ^ (w.extractLsb' 15 2).toNat) (w.getLsbD 14) (leAt d (((gReg e c (wA w)
          s).toNat + (w.extractLsb' 0 14).toNat) % 2 ^ 64) (2 ^ (w.extractLsb' 15 2).toNat)))) s = (y, u)) ∧ (reading
          (.slot e c) u = true)) ∧
    (∃ e : Fin 16, ∃ c : Fin 8, ∃ w : BitVec 26, ∃ f : Fr, ∃ n : Nat, ∃ s : State, (GvRuns e c s) ∧ ((ctx e c s).slot
          (w.extractLsb' 17 1).toNat = .loc f n) ∧ (w.getLsbD 14 = false) ∧ ((((gReg e c (wA w) s).toNat + (w.extractLsb' 0
          14).toNat) % 2 ^ 64) + 2 ^ (w.extractLsb' 15 2).toNat ≤ (f.data.take (min n 4096)).length)) ∧
    (∃ e : Fin 16, ∃ c : Fin 8, ∃ w : BitVec 26, ∃ b : List Byte, ∃ s : State, (GvRuns e c s) ∧ (tldRec (w.extractLsb' 12
          6).toNat (gReg e c (wA w) s).toNat s = some b)) ∧
    (∃ e : Fin 16, ∃ c : Fin 8, ∃ w : BitVec 26, ∃ s : State, (GvRuns e c s) ∧ ((gReg e c (wA w) s).toNat < sigCount s)) ∧
    (∃ e : Fin 16, ∃ c : Fin 8, ∃ w : BitVec 26, ∃ s : State, (GvRuns e c s) ∧ (w.extractLsb' 0 14 = 0) ∧ ((gReg e c (wA w)
          s).toNat < sigCount s) ∧ (sigType (gReg e c (wA w) s).toNat s ≠ 4) ∧ ((ctx e c s).group.length < 64)) ∧
    (∃ e : Fin 16, ∃ c : Fin 8, ∃ i : Nat, ∃ v : Nat, ∃ wr_ : Nat, ∃ s : State, (GvRuns e c s) ∧ ((ctx e c s).group = [⟨i,
          v, [], wr_⟩]) ∧ (0x9000 ≤ wr_) ∧ (sigOwner i s = none) ∧ (sigType i s ≠ 4)) ∧
    (∃ e : Fin 16, ∃ c : Fin 8, ∃ w : BitVec 26, ∃ d : List Byte, ∃ y : Ctx, ∃ r : State, ∃ st : Nat, ∃ l : List Staged, ∃
          u : State, ∃ s : State, (GvRuns e c s) ∧ (w.extractLsb' 0 13 = 0) ∧ (cfgHas C.sigPdu (gReg e c (wA w) s).toNat s
          = true) ∧ (pduN (gReg e c (wA w) s).toNat 0x15 1 s = 0xFF) ∧ (pduN (gReg e c (wA w) s).toNat 0x20 2 s = 0xFFFF) ∧
          (slotData (wSlot w) (ctx e c s) s = some d) ∧ (slotFetch e c (wSlot w) (gReg e c (wB w) s).toNat (pduN (gReg e c
          (wA w) s).toNat 0 2 s) (gvIssued (ctx e c s)) s = (y, r)) ∧ (pduUnpack (gReg e c (wA w) s).toNat (d.drop (gReg e
          c (wB w) s).toNat) r = (st, l, u)) ∧ ((ctx e c s).group.length + l.length ≤ 64)) ∧
    (∃ e : Fin 16, ∃ c : Fin 8, ∃ w : BitVec 26, ∃ d : List Byte, ∃ y : Ctx, ∃ r : State, ∃ st : Nat, ∃ l : List Staged, ∃
          u : State, ∃ s : State, (GvRuns e c s) ∧ (w.extractLsb' 0 13 = 0) ∧ (cfgHas C.sigPdu (gReg e c (wA w) s).toNat s
          = true) ∧ (pduN (gReg e c (wA w) s).toNat 0x15 1 s = 0xFF) ∧ (pduN (gReg e c (wA w) s).toNat 0x20 2 s = 0xFFFF) ∧
          (slotData (wSlot w) (ctx e c s) s = some d) ∧ (slotFetch e c (wSlot w) (gReg e c (wB w) s).toNat (pduN (gReg e c
          (wA w) s).toNat 0 2 s) (gvIssued (ctx e c s)) s = (y, r)) ∧ (pduUnpack (gReg e c (wA w) s).toNat (d.drop (gReg e
          c (wB w) s).toNat) r = (st, l, u)) ∧ ((ctx e c s).group.length + l.length ≤ 64)) ∧
    (∃ e : Fin 16, ∃ c : Fin 8, ∃ w : BitVec 26, ∃ f : Fr, ∃ n : Nat, ∃ d : List Byte, ∃ u : State, ∃ s : State, (GvRuns e
          c s) ∧ (w.extractLsb' 0 13 = 0) ∧ (cfgHas C.sigPdu (gReg e c (wA w) s).toNat s = true) ∧ ((ctx e c s).slot (wSlot
          w) = .loc f n) ∧ ((gReg e c (wB w) s).toNat + pduN (gReg e c (wA w) s).toNat 0 2 s ≤ (f.data.take (min n
          4096)).length) ∧ (pduPack (gReg e c (wA w) s).toNat s = (some d, u))) ∧
    (∃ e : Fin 16, ∃ c : Fin 8, ∃ w : BitVec 26, ∃ d : List Byte, ∃ f : Nat, ∃ l : List Nat, ∃ y : Ctx, ∃ r : State, ∃ s :
          State, (GvRuns e c s) ∧ (w.extractLsb' 0 13 = 0) ∧ (cfgHas C.sigPdu (gReg e c (wA w) s).toNat s = true) ∧ (pduN
          (gReg e c (wA w) s).toNat 0x15 1 s ≠ 0xFF) ∧ (cipServed (decide (e.val < 4)) s = true) ∧ (authNoKey (gReg e c (wA
          w) s).toNat s = false) ∧ (authNoSync (gReg e c (wA w) s).toNat s = false) ∧ (slotData (wSlot w) (ctx e c s) s =
          some d) ∧ ((gReg e c (wB w) s).toNat + securedLen (gReg e c (wA w) s).toNat s ≤ d.length) ∧ (freshCands (gReg e c
          (wA w) s).toNat (slice d ((gReg e c (wB w) s).toNat + pduN (gReg e c (wA w) s).toNat 0 2 s) (authFb (gReg e c (wA
          w) s).toNat s)) s = f :: l) ∧ (slotFetch e c (wSlot w) (gReg e c (wB w) s).toNat (securedLen (gReg e c (wA w)
          s).toNat s) (gvIssued (ctx e c s)) s = (y, r))) ∧
    (∃ e : Fin 16, ∃ c : Fin 8, ∃ w : BitVec 26, ∃ s : State, (GvRuns e c s) ∧ (w.extractLsb' 0 13 = 0) ∧ (cfgHas C.sigPdu
          (gReg e c (wA w) s).toNat s = true) ∧ (pduN (gReg e c (wA w) s).toNat 0x15 1 s ≠ 0xFF) ∧ (cipServed (decide
          (e.val < 4)) s = true) ∧ (authNoKey (gReg e c (wA w) s).toNat s = false) ∧ (authNoSync (gReg e c (wA w) s).toNat
          s = false) ∧ (localRoom (wSlot w) (gReg e c (wB w) s).toNat (securedLen (gReg e c (wA w) s).toNat s) (ctx e c s)
          s = true) ∧ ((pduRun (gReg e c (wA w) s).toNat s).lastF = none)) ∧
    (∃ e : Fin 16, ∃ c : Fin 8, ∃ w : BitVec 26, ∃ f : Fr, ∃ n : Nat, ∃ bus : Nat, ∃ st : Nat, ∃ urgent : Bool, ∃ d : List
          Byte, ∃ y : Ctx, ∃ r : State, ∃ u : State, ∃ s : State, (GvRuns e c s) ∧ (w.extractLsb' 0 13 = 0) ∧ (cfgHas
          C.sigCarrier (gReg e c (wA w) s).toNat s = true) ∧ (sourceWaits false 7 s = false) ∧ (slotFr (wSlot w) (ctx e c
          s) s = some (f, n)) ∧ (slotData (wSlot w) (ctx e c s) s = some d) ∧ (slotFetch e c (wSlot w) 0 d.length (gvIssued
          (ctx e c s)) s = (y, r)) ∧ (acfRoute f.src (gReg e c (wA w) s).toNat (canOfBytes d) r = (bus, urgent)) ∧ (carAdd
          (gReg e c (wA w) s).toNat bus f.ts urgent (canOfBytes d) r = (st, u))) := by
  refine ⟨?_, ?_, ?_, ?_, ?_, ?_, ?_, ?_, ?_, ?_, ?_, ?_, ?_, ?_, ?_⟩
  · refine ⟨(15), (7), (0x041C038), (zeros 64), (witGrv 15 7 witLocal), ?_, ?_, ?_, ?_, ?_⟩ <;> decide +kernel
  · refine ⟨(3), (0), (0x0400003), (zeros 200), (witBuf 3 0 [0]), ?_, ?_, ?_, ?_, ?_⟩ <;> decide +kernel
  · refine ⟨(3), (0), (0x0400003), (zeros 200), _, _, (witBuf 3 0 []), ?_, ?_, ?_, witBoth, ?_⟩ <;> decide +kernel
  · refine ⟨(3), (0), (0x041007E), (zeros 200), _, _, (witBuf 3 0 [0]), ?_, ?_, ?_, witBoth, ?_⟩ <;> decide +kernel
  · refine ⟨(15), (7), (0x0418038), (witFrame), (64), (witGrv 15 7 witLocal), ?_, ?_, ?_, ?_⟩ <;> decide +kernel
  · refine ⟨(0), (0), (0x040B000), ([1]), (witRec C.grvHook 0 [1] (witGrv 0 0 witCtx)), ?_, ?_⟩ <;> decide +kernel
  · refine ⟨(0), (0), (0x0400003), (witSigs (witGrv 0 0 witCtx)), ?_, ?_⟩ <;> decide +kernel
  · refine ⟨(15), (7), (0x0400000), (witSigs (witGrv 15 7 witCtx)), ?_, ?_, ?_, ?_, ?_⟩ <;> decide +kernel
  · refine ⟨(15), (7), (1), (300), (0x900F), (witSigs (witGrv 15 7 { witCtx with group := [⟨1, 300, [], 0x900F⟩] })), ?_,
        ?_, ?_, ?_, ?_⟩ <;> decide +kernel
  · refine ⟨(0), (0), (0x0400000), (zeros 64), _, _, (0), _, _, (witPdu (witGrv 0 0 witLocal)), ?_, ?_, ?_, ?_, ?_, ?_,
        witBoth, witTriple (by decide +kernel), ?_⟩ <;> decide +kernel
  · refine ⟨(3), (0), (0x0400000), (zeros 200), _, _, (0), _, _, (witPdu (witBuf 3 0 [])), ?_, ?_, ?_, ?_, ?_, ?_, witBoth,
        witTriple (by decide +kernel), ?_⟩ <;> decide +kernel
  · refine ⟨(0), (0), (0x0400000), (witFrame), (64), _, _, (witPdu (witGrv 0 0 witLocal)), ?_, ?_, ?_, ?_, ?_, witBoth⟩ <;>
        decide +kernel
  · refine ⟨(4), (0), (0x0400000), (zeros 64), (9765), ([9764, 9763, 9762]), _, _, (witSec (witGrv 4 0 witLocal)), ?_, ?_,
        ?_, ?_, ?_, ?_, ?_, ?_, ?_, ?_, witBoth⟩ <;> decide +kernel
  · refine ⟨(4), (0), (0x0400000), (witSec (witGrv 4 0 witLocal)), ?_, ?_, ?_, ?_, ?_, ?_, ?_, ?_, ?_⟩ <;> decide +kernel
  · refine ⟨(0), (0), (0x0400000), (witFrame), (64), (0), (2), (false), (zeros 64), _, _, _,
        (witRec C.sigCarrier 0 [1] (witGrv 0 0 witLocal)), ?_, ?_, ?_, ?_, ?_, ?_, witBoth, ?_, witPair
        (by decide +kernel)⟩ <;> decide +kernel

/-- States and operands that meet the hypotheses of each clause of Obligations.GraverQueuesAndControlComplete, one by one, in the order of its clauses. -/
theorem witness_GraverQueuesAndControlComplete :
    (∃ e : Fin 16, ∃ c : Fin 8, ∃ w : BitVec 26, ∃ n : QEnt, ∃ l : List QEnt, ∃ s : State, (GvRuns e c s) ∧ (w.extractLsb'
          0 13 = 0) ∧ (944 + 5 * e.val ≤ (gReg e c (wA w) s).toNat) ∧ ((gReg e c (wA w) s).toNat ≤ 948 + 5 * e.val) ∧ ((ctx
          e c s).slot (wSlot w) = .empty) ∧ ((qu (gReg e c (wA w) s).toNat s).ents = n :: l)) ∧
    (∃ e : Fin 16, ∃ c : Fin 8, ∃ w : BitVec 26, ∃ f : Fr, ∃ len : Nat, ∃ n : Nat, ∃ u : State, ∃ s : State, (GvRuns e c s)
          ∧ (w.extractLsb' 0 12 = 0) ∧ (pushFault e (gReg e c (wA w) s).toNat s = none) ∧ (sourceWaits (isRsvQueue (gReg e
          c (wA w) s).toNat) 7 s = false) ∧ ((ctx e c s).slot (wSlot w) = .loc f len) ∧ (submitAs true 7 (pushFr (gReg e c
          (wA w) s).toNat len f) s = (some n, u))) ∧
    (∃ e : Fin 16, ∃ c : Fin 8, ∃ w : BitVec 26, ∃ f : Nat, ∃ got : List Nat, ∃ u : State, ∃ s : State, (GvRuns e c s) ∧
          (w.extractLsb' 0 12 = 0) ∧ (pushFault e (gReg e c (wA w) s).toNat s = none) ∧ (isRsvQueue (gReg e c (wA w)
          s).toNat = false) ∧ ((ctx e c s).slot (wSlot w) = .buf f got) ∧ (linkMore f (gReg e c (wA w) s).toNat s = (true,
          u))) ∧
    (∃ e : Fin 16, ∃ c : Fin 8, ∃ w : BitVec 26, ∃ f : Nat, ∃ got : List Nat, ∃ u : State, ∃ s : State, (GvRuns e c s) ∧
          (w.extractLsb' 0 12 = 0) ∧ (pushFault e (gReg e c (wA w) s).toNat s = none) ∧ (isRsvQueue (gReg e c (wA w)
          s).toNat = false) ∧ ((ctx e c s).slot (wSlot w) = .buf f got) ∧ (linkMore f (gReg e c (wA w) s).toNat s = (true,
          u))) ∧
    (∃ e : Fin 16, ∃ c : Fin 8, ∃ w : BitVec 26, ∃ s : State, (GvRuns e c s) ∧ (w.extractLsb' 0 12 = 0) ∧ (w.getLsbD 12 =
          true → e.val < 4) ∧ (0 < (gReg e c (wA w) s).toNat) ∧ ((gReg e c (wA w) s).toNat ≤ 4096) ∧ ((ctx e c s).slot
          (wSlot w) = .empty) ∧ (cellsFree (w.getLsbD 12) (cellsOf (gReg e c (wA w) s).toNat) s = true)) ∧
    (∃ e : Fin 16, ∃ c : Fin 8, ∃ w : BitVec 26, ∃ s : State, (GvRuns e c s) ∧ (w.extractLsb' 0 12 = 0) ∧ (w.getLsbD 12 =
          true → e.val < 4) ∧ (0 < (gReg e c (wA w) s).toNat) ∧ ((gReg e c (wA w) s).toNat ≤ 4096) ∧ ((ctx e c s).slot
          (wSlot w) = .empty) ∧ (cellsFree (w.getLsbD 12) (cellsOf (gReg e c (wA w) s).toNat) s = true)) ∧
    (∃ e : Fin 16, ∃ c : Fin 8, ∃ w : BitVec 26, ∃ s : State, (GvRuns e c s) ∧ (w.extractLsb' 14 12 = 0) ∧ (w.extractLsb' 0
          13 = 0) ∧ ((ctx e c s).slot (wSlot w) ≠ .empty)) ∧
    (∃ e : Fin 16, ∃ c : Fin 8, ∃ w : BitVec 26, ∃ f : Fr, ∃ n : Nat, ∃ v : Nat, ∃ s : State, (GvRuns e c s) ∧ (slotFr
          (w.extractLsb' 17 1).toNat (ctx e c s) s = some (f, n)) ∧ (frField (w.extractLsb' 0 4).toNat n f = some v)) ∧
    (∃ e : Fin 16, ∃ c : Fin 8, ∃ w : BitVec 26, ∃ f : Fr, ∃ g : Fr, ∃ n : Nat, ∃ s : State, (GvRuns e c s) ∧ ((ctx e c
          s).slot (w.extractLsb' 17 1).toNat = .loc f n) ∧ (w.extractLsb' 0 4 ≠ 0) ∧ (frPut (w.extractLsb' 0 4).toNat (gReg
          e c (wA w) s).toNat f = some g)) ∧
    (∃ e : Fin 16, ∃ c : Fin 8, ∃ w : BitVec 26, ∃ y : Ctx, ∃ r : State, ∃ s : State, (GvRuns e c s) ∧ (w.extractLsb' 0 14
          = 0) ∧ ((gReg e c (wA w) s).toNat + 64 ≤ 32768) ∧ (cipServed (decide (e.val < 4)) s = true) ∧ ((if byteAt
          (dmemBytes e (gReg e c (wA w) s).toNat 64 s) 1 = 1 ∨ byteAt (dmemBytes e (gReg e c (wA w) s).toNat 64 s) 1 = 2
          then slotFetch e c (byteAt (dmemBytes e (gReg e c (wA w) s).toNat 64 s) 1 - 1) (leAt (dmemBytes e (gReg e c (wA
          w) s).toNat 64 s) 8 4) (leAt (dmemBytes e (gReg e c (wA w) s).toNat 64 s) 0x12 2 + leAt (dmemBytes e (gReg e c
          (wA w) s).toNat 64 s) 0x10 2) (gvIssued (ctx e c s)) s else (gvIssued (ctx e c s), s)) = (y, r))) ∧
    (∃ e : Fin 16, ∃ c : Fin 8, ∃ w : BitVec 26, ∃ s : State, (GvRuns e c s) ∧ (w.extractLsb' 0 2 ≠ 3)) ∧
    (∃ e : Fin 16, ∃ c : Fin 8, ∃ w : BitVec 26, ∃ s : State, (GvRuns e c s)) ∧
    (∃ e : Fin 16, ∃ c : Fin 8, ∃ w : BitVec 26, ∃ s : State, (GvRuns e c s) ∧ (w.extractLsb' 0 14 = 0) ∧ ((gReg e c (wA w)
          s).toNat < 16) ∧ ((eng (gReg e c (wA w) s).toNat s).msgs.length < 32)) ∧
    (∃ e : Fin 16, ∃ c : Fin 8, ∃ w : BitVec 26, ∃ s : State, (GvRuns e c s) ∧ ((ctx e c s).hook = none) ∧ (cfgHas
          C.grvHook (w.extractLsb' 0 8).toNat s = true) ∧ (cfgN C.grvHook (w.extractLsb' 0 8).toNat 0 2 s < (eng e
          s).count)) ∧
    (∃ e : Fin 16, ∃ c : Fin 8, ∃ h : Nat × Nat × Nat, ∃ s : State, (GvRuns e c s) ∧ ((ctx e c s).hook = some h)) ∧
    (∃ e : Fin 16, ∃ c : Fin 8, ∃ w : BitVec 26, ∃ u : State, ∃ s : State, (GvRuns e c s) ∧ (w.extractLsb' 0 14 = 0) ∧
          (e.val < 4) ∧ ((ctx e c s).ev.kind = 4) ∧ ((ctx e c s).ev.sub ≠ 1) ∧ (cfgHas C.sigSnap (gReg e c (wA w) s).toNat
          s = true) ∧ (snapLatch (gReg e c (wA w) s).toNat (ctx e c s).ev.time s = (true, u))) ∧
    (∃ e : Fin 16, ∃ c : Fin 8, ∃ w : BitVec 26, ∃ s : State, (GvRuns e c s)) ∧
    (∃ e : Fin 16, ∃ c : Fin 8, ∃ s : State, (GvRuns e c s)) := by
  refine ⟨?_, ?_, ?_, ?_, ?_, ?_, ?_, ?_, ?_, ?_, ?_, ?_, ?_, ?_, ?_, ?_, ?_, ?_⟩
  · refine ⟨(0), (0), (0x0440000), ({ fid := 0 }), ([]),
        (quSet 948 { ents := [{ fid := 0 }] } (witGrv 0 0 { witCtx with regs := [(1, 948)] })), ?_, ?_, ?_, ?_, ?_, ?_⟩ <;>
        decide +kernel
  · refine ⟨(0), (0), (0x0441000), (witFrame), (64), (0), _, (witQueues (witGrv 0 0 { witLocal with regs := [(1, 3)] })),
        ?_, ?_, ?_, ?_, ?_, witPair (by decide +kernel)⟩ <;> decide +kernel
  · refine ⟨(3), (0), (0x0441000), (0), ([]), _, (witQueues (witBufQ 3 0)), ?_, ?_, ?_, ?_, ?_, witPair
        (by decide +kernel)⟩ <;> decide +kernel
  · refine ⟨(3), (0), (0x0440000), (0), ([]), _, (witQueues (witBufQ 3 0)), ?_, ?_, ?_, ?_, ?_, witPair
        (by decide +kernel)⟩ <;> decide +kernel
  · refine ⟨(3), (0), (0x0441000), (witGrv 3 0 { witCtx with regs := [(1, 4096)] }), ?_, ?_, ?_, ?_, ?_, ?_, ?_⟩ <;> decide
        +kernel
  · refine ⟨(15), (0), (0x0440000), (witGrv 15 0 { witCtx with regs := [(1, 1)] }), ?_, ?_, ?_, ?_, ?_, ?_, ?_⟩ <;> decide
        +kernel
  · refine ⟨(0), (0), (0), (witGrv 0 0 witLocal), ?_, ?_, ?_, ?_⟩ <;> decide +kernel
  · refine ⟨(0), (0), (0x0400008), (witFrame), (64), (0), (witGrv 0 0 witLocal), ?_, ?_, ?_⟩ <;> decide +kernel
  · refine ⟨(0), (0), (0x0000004), (witFrame), (witFrame), (64), (witGrv 0 0 witLocal), ?_, ?_, ?_, ?_⟩ <;> decide +kernel
  · refine ⟨(0), (0), (0x0440000), _, _, (witGrv 0 0 { witCtx with regs := [(1, 32704)] }), ?_, ?_, ?_, ?_, witBoth⟩ <;>
        decide +kernel
  · refine ⟨(0), (0), (0x0440002), (witGrv 0 0 witCtx), ?_, ?_⟩ <;> decide +kernel
  · refine ⟨(0), (0), (0x000000F), (witGrv 0 0 witCtx), ?_⟩ <;> decide +kernel
  · refine ⟨(0), (0), (0x0440000), (witGrv 0 0 { witCtx with regs := [(1, 15)] }), ?_, ?_, ?_, ?_⟩ <;> decide +kernel
  · refine ⟨(0), (0), (255), (witRec C.grvHook 255 [5, 0, 10, 0] (witGrv 0 0 witCtx)), ?_, ?_, ?_, ?_⟩ <;> decide +kernel
  · refine ⟨(0), (0), ((5, 9, 10)), (witGrv 0 0 { witCtx with hook := some (5, 9, 10) }), ?_, ?_⟩ <;> decide +kernel
  · refine ⟨(3), (0), (0x0440000), _,
        (witRec C.sigSnap 0 [0] (witGrv 3 0 { witCtx with regs := [], ev := ⟨4, 0, 0, 0, 0⟩ })), ?_, ?_, ?_, ?_, ?_, ?_,
        witPair (by decide +kernel)⟩ <;> decide +kernel
  · refine ⟨(0), (0), (63), (witGrv 0 0 witCtx), ?_⟩ <;> decide +kernel
  · refine ⟨(0), (0), (witGrv 0 0 witLocal), ?_⟩ <;> decide +kernel

/-- States and operands that meet the hypotheses of each clause of Obligations.ControlCoreEventsComplete, one by one, in the order of its clauses. -/
theorem witness_ControlCoreEventsComplete :
    (∃ n : Fin 4, ∃ w : Fin 128, ∃ s : State, ((core n s).fenced = false) ∧ ((core n s).a = none) ∧ (s.pwr.mode ≤ 1) ∧
          (w.val ∈ winsOf n s) ∧ ((winLeft n w s).isSome = true) ∧ (winN w 7 1 s < 16)) ∧
    (∃ n : Fin 4, ∃ i : Nat, ∃ p0 : Pass, ∃ p : Pass, ∃ b : Pass, ∃ s0 : State, ∃ s1 : State, ∃ s3 : State, ∃ s : State,
          ((core n s).fenced = false) ∧ ((core n s).halted = false) ∧ (s.pwr.mode ≤ 1) ∧ ((core n s).a = none) ∧ (winNow n
          s = some i) ∧ (slotRuns n (curSlot n s) s = true) ∧ (sliceFits n (curSlot n s) i s = true) ∧ (passBegin n false
          (task n (curSlot n s) s).ctx s = (p0, s0)) ∧ (runA n (curSlot n s) (slotN n (curSlot n s) 8 4 s0) p0 s0 = (p,
          s1)) ∧ (rdB (F.DBG_CCn_BP_EN.u n) s1 = false) ∧ ((core n s1).suspended = false) ∧ (finishB n (curSlot n s) p
          (coreSet n { core n s1 with a := some p } s1) = (b, s3)) ∧ (firstVerdict .clean p b = none) ∧ (p.buf = []) ∧
          (p.wfi = false) ∧ ((core n s3).haltReq = false)) ∧
    (∃ n : Fin 4, ∃ u : SliceUpset, ∃ i : Nat, ∃ s : State, ((core n s).fenced = false) ∧ ((core n s).halted = false) ∧
          (s.pwr.mode ≤ 1) ∧ (u ≠ .itcm) ∧ ((core n s).a = none) ∧ (winNow n s = some i) ∧ (slotRuns n (curSlot n s) s =
          true) ∧ (sliceFits n (curSlot n s) i s = false)) ∧
    (∃ n : Fin 4, ∃ i : Nat, ∃ s : State, ((core n s).fenced = false) ∧ ((core n s).halted = false) ∧ (s.pwr.mode ≤ 1) ∧
          (winNow n s = some i) ∧ (slotRuns n (curSlot n s) s = true) ∧ (slotN n (curSlot n s) 4 1 s = 1)) ∧
    (∃ n : Fin 4, ∃ s : State, (awake s = true) ∧ ((core n s).fenced = true) ∧ (domBusy .ctl s = false) ∧ (slotN n (rd
          (F.CTL_CCn_FENCE_SLOT.u n) s) 4 1 s ≤ 1) ∧
          ((coreImages n s).all (fun i => match tfind (activeImages 0x12 s) i with | some (d, _) => tfind s.sys.imgCtl i == some d | none => false) = true)) ∧
    (∃ n : Fin 4, ∃ a : Pass, ∃ b : Pass, ∃ u : State, ∃ s : State, ((core n s).fenced = false) ∧ ((core n s).halted =
          false) ∧ (s.pwr.mode ≤ 1) ∧ ((core n s).a = some a) ∧ (passRuns n (curSlot n s) a s = true) ∧ (rvStep n false a s
          = (b, u)) ∧ (rdB (F.DBG_CCn_BP_EN.u n) u = false)) ∧
    (∃ n : Fin 4, ∃ a : Pass, ∃ b : Pass, ∃ w : Nat, ∃ u : State, ∃ s : State, ((core n s).fenced = false) ∧ ((core n
          s).halted = false) ∧ (s.pwr.mode ≤ 1) ∧ ((core n s).a = some a) ∧ (passRuns n (curSlot n s) a s = true) ∧
          (rvFetch n a.ctx.pc { a with n := a.n + 1 } s = some w) ∧ (rvFetch n a.ctx.pc a s = some w) ∧ ((rvDecode w).1 =
          .wfi) ∧ (rdB (F.DBG_CCn_BP_EN.u n) s = false) ∧ ((core n s).suspended = false) ∧ (finishB n (curSlot n s)
          ((Pass.goto (a.ctx.pc + (rvDecode w).2) { a with n := a.n + 1 }).stop true) (coreSet n
          { core n s with a := some ((Pass.goto (a.ctx.pc + (rvDecode w).2) { a with n := a.n + 1 }).stop true) } s) = (b,
          u)) ∧ (firstVerdict .clean ((Pass.goto (a.ctx.pc + (rvDecode w).2) { a with n := a.n + 1 }).stop true) b = none)) ∧
    (∃ n : Fin 4, ∃ a : Pass, ∃ b : Pass, ∃ w : Nat, ∃ u : State, ∃ s : State, ((core n s).fenced = false) ∧ ((core n
          s).halted = false) ∧ (s.pwr.mode ≤ 1) ∧ ((core n s).a = some a) ∧ (passRuns n (curSlot n s) a s = true) ∧
          (rvFetch n a.ctx.pc { a with n := a.n + 1 } s = some w) ∧ (rvFetch n a.ctx.pc a s = some w) ∧ ((rvDecode w).1 =
          .ecall) ∧ (rdB (F.DBG_CCn_BP_EN.u n) s = false) ∧ ((core n s).suspended = false) ∧ (finishB n (curSlot n s)
          ((rvTrap false (if a.ctx.user then 8 else 11) 0 { a with n := a.n + 1 }).stop false) (coreSet n
          { core n s with a := some ((rvTrap false (if a.ctx.user then 8 else 11) 0 { a with n := a.n + 1 }).stop false) }
          s) = (b, u)) ∧ (firstVerdict .clean ((rvTrap false (if a.ctx.user then 8 else 11) 0 { a with n := a.n + 1 }).stop
          false) b = none)) ∧
    (∃ n : Fin 4, ∃ k : Fin 16, ∃ q : Nat, ∃ h : Nat, ∃ e : QEnt, ∃ l : List QEnt, ∃ s : State, ((task n k s).st = 2) ∧
          (((bitList (task n k s).waitQ 8).map fun j => 736 + 8 * n.val + j).find? (fun q => headWhole q s && (holderFree n
          s).isSome) = some q) ∧ (holderFree n s = some h) ∧ ((qu q s).ents = e :: l)) ∧
    (∃ n : Fin 4, ∃ k : Fin 8, ∃ h : Nat, ∃ e : QEnt, ∃ l : List QEnt, ∃ s : State, ((core n s).fenced = false) ∧ (domRuns
          .ctl s = true) ∧ (holderFree n s = some h) ∧ (headWhole (736 + 8 * n + k) s = true) ∧ ((qu (736 + 8 * n + k)
          s).ents = e :: l)) ∧
    (∃ n : Fin 4, ∃ k : Fin 8, ∃ s : State, ((core n s).fenced = false) ∧ (domRuns .ctl s = true) ∧ ((qu (736 + 8 * n + k)
          s).ents = [] ∨ holderFree n s = none)) ∧
    (∃ n : Fin 4, ∃ h : Fin 16, ∃ v : Word, ∃ f : Nat, ∃ q : Nat, ∃ x : Nat × Bool × Nat, ∃ l : List (Nat × Bool × Nat), ∃
          u : State, ∃ s : State, ((core n s).fenced = false) ∧ (domRuns .ctl s = true) ∧ (tfind (core n s).holders h =
          some f) ∧ (v.toNat % 65536 = q) ∧ (q < 256) ∧ (admitAll false (fr f s).need (fr f s).cls ((fr f s).noEvict || (fr
          f s).exempt) [(q, false, 0)] s = (x :: l, u)) ∧ (entriesUsed u < 262144) ∧ (mirrorDests none 1 255 none [q] u =
          []) ∧ (bit v.toNat 16 = true)) ∧
    (∃ n : Fin 4, ∃ h : Fin 16, ∃ v : Word, ∃ f : Nat, ∃ q : Nat, ∃ x : Nat × Bool × Nat, ∃ l : List (Nat × Bool × Nat), ∃
          u : State, ∃ s : State, ((core n s).fenced = false) ∧ (domRuns .ctl s = true) ∧ (tfind (core n s).holders h =
          some f) ∧ (v.toNat % 65536 = q) ∧ (q < 256) ∧ (admitAll false (fr f s).need (fr f s).cls ((fr f s).noEvict || (fr
          f s).exempt) [(q, false, 0)] s = (x :: l, u)) ∧ (entriesUsed u < 262144) ∧ (mirrorDests none 1 255 none [q] u =
          []) ∧ (bit v.toNat 16 = false) ∧ ((tsorted (core n u).holders) = true) ∧ (0 < (fr f u).refs)) ∧
    (∃ n : Fin 4, ∃ h : Fin 16, ∃ f : Nat, ∃ s : State, ((core n s).fenced = false) ∧ (domRuns .ctl s = true) ∧ (tfind
          (core n s).holders h = some f) ∧ (tsorted (core n s).holders = true)) := by
  refine ⟨?_, ?_, ?_, ?_, ?_, ?_, ?_, ?_, ?_, ?_, ?_, ?_, ?_, ?_⟩
  · refine ⟨(3), (127), (witWindow 3 127), ?_, ?_, ?_, ?_, ?_, ?_⟩ <;> decide +kernel
  · refine ⟨(3), (127), _, _, _, _, _, _, (witSlice 3 127), ?_, ?_, ?_, ?_, ?_, ?_, ?_, witBoth, witBoth, ?_, ?_, witBoth,
        (witSame (by decide +kernel) (by decide +kernel) (by decide +kernel)), ?_, ?_, ?_⟩ <;> decide +kernel
  · refine ⟨(3), (.clean), (127), (witLate 3 127), ?_, ?_, ?_, ?_, ?_, ?_, ?_, ?_⟩ <;> decide +kernel
  · refine ⟨(3), (127), (witSlice 3 127), ?_, ?_, ?_, ?_, ?_, ?_⟩ <;> decide +kernel
  · refine ⟨(3), (coreSet 3 { fenced := true } (witFull : State)), ?_, ?_, ?_, ?_, ?_⟩ <;> decide +kernel
  · refine ⟨(3), (witPass), _, _, (witRunning 3 127), ?_, ?_, ?_, ?_, ?_, witBoth, ?_⟩ <;> decide +kernel
  · refine ⟨(3), (witPass), _, (0x10500073), _, (witWfi 3 127), ?_, ?_, ?_, ?_, ?_, ?_, ?_, ?_, ?_, ?_, witBoth,
        (witSame (by decide +kernel) (by decide +kernel) (by decide +kernel))⟩ <;> decide +kernel
  · refine ⟨(3), (witPass), _, (0x73), _, (witRunning 3 127), ?_, ?_, ?_, ?_, ?_, ?_, ?_, ?_, ?_, ?_, witBoth,
        (witSame (by decide +kernel) (by decide +kernel) (by decide +kernel))⟩ <;> decide +kernel
  · refine ⟨(3), (15), (767), (0), ({ fid := 0 }), ([]), (witWaiting 3 15), ?_, ?_, ?_, ?_⟩ <;> decide +kernel
  · refine ⟨(3), (7), (0), ({ fid := 0 }), ([]), (witWaiting 3 15), ?_, ?_, ?_, ?_, ?_⟩ <;> decide +kernel
  · refine ⟨(0), (0), (witFull), ?_, ?_, ?_⟩ <;> decide +kernel
  · refine ⟨(3), (15), (0x10003), (0), (3), ((3, false, 0)), ([]), _, (witHolder 3 15), ?_, ?_, ?_, ?_, ?_, witPair
        (by decide +kernel), ?_, ?_, ?_⟩ <;> decide +kernel
  · refine ⟨(3), (15), (3), (0), (3), ((3, false, 0)), ([]), _, (witHolder 3 15), ?_, ?_, ?_, ?_, ?_, witPair
        (by decide +kernel), ?_, ?_, ?_, ?_, ?_⟩ <;> decide +kernel
  · refine ⟨(3), (15), (0), (witHolder 3 15), ?_, ?_, ?_, ?_⟩ <;> decide +kernel

/-- States and operands that meet the hypotheses of each clause of Obligations.PassBComputesWhatPassAComputes, one by one, in the order of its clauses. -/
theorem witness_PassBComputesWhatPassAComputes :
    (∃ op : AluOp, ∃ a : Nat, ∃ b : Nat, (a < 2 ^ 32) ∧ (b < 2 ^ 32)) ∧
    (∃ a : Nat, (a < 2 ^ 32)) := by
  refine ⟨?_, ?_⟩
  · refine ⟨(.mulhsu), (0xFFFFFFFF), (0x80000000), ?_, ?_⟩ <;> decide +kernel
  · refine ⟨(0xFFFFFFFF), ?_⟩ <;> decide +kernel

/-- States and operands that meet the hypotheses of each clause of Obligations.VaultCommandsComplete, one by one, in the order of its clauses. -/
theorem witness_VaultCommandsComplete :
    (∃ who : MboxUser, ∃ args : List Byte, ∃ s : State, (args.length ≤ 4096) ∧ (VaultAdmits who 1 s)) ∧
    (∃ who : MboxUser, ∃ args : List Byte, ∃ s : State, (args.length ≤ 4096) ∧ (VaultAdmits who 1 s)) ∧
    (∃ who : MboxUser, ∃ args : List Byte, ∃ p : KeyCopy, ∃ s : State, (args.length ≤ 4096) ∧ (VaultAdmits who 2 s) ∧
          (args.length = 11 + byteAt args 9 + byteAt args (10 + byteAt args 9)) ∧ (byteAt args 2 < 64) ∧ (0 < byteAt args 9
          ∧ byteAt args 9 ≤ 32) ∧ (0 < byteAt args (10 + byteAt args 9) ∧ byteAt args (10 + byteAt args 9) ≤ 32) ∧ ((leAt
          args 7 2, aSize (derivedAttrs (leAt args 3 4))) ∈ [(128, 0), (256, 1), (512, 2)]) ∧ (attrsOk (derivedAttrs (leAt
          args 3 4)) = true) ∧ (slotKey (leAt args 0 2) s = some p) ∧ (useStatus (leAt args 0 2) (fun a => bit a 7 && bit a
          (ownerBit who)) s = .ok) ∧ (clearBits (bits (derivedAttrs (leAt args 3 4)) 2 8) (bits p.attrs 2 8) = 0) ∧
          (clearBits (bits (derivedAttrs (leAt args 3 4)) 16 5) (bits p.attrs 16 5) = 0) ∧ (tfind s.key.vols (byteAt args
          2) = none) ∧ ((useCount (leAt args 0 2) s).1 = true)) ∧
    (∃ who : MboxUser, ∃ args : List Byte, ∃ p : KeyCopy, ∃ s : State, (args.length ≤ 4096) ∧ (VaultAdmits who 2 s) ∧
          (args.length = 11 + byteAt args 9 + byteAt args (10 + byteAt args 9)) ∧ (byteAt args 2 < 64) ∧ (0 < byteAt args 9
          ∧ byteAt args 9 ≤ 32) ∧ (0 < byteAt args (10 + byteAt args 9) ∧ byteAt args (10 + byteAt args 9) ≤ 32) ∧ ((leAt
          args 7 2, aSize (derivedAttrs (leAt args 3 4))) ∈ [(128, 0), (256, 1), (512, 2)]) ∧ (attrsOk (derivedAttrs (leAt
          args 3 4)) = true) ∧ (slotKey (leAt args 0 2) s = some p) ∧ (useStatus (leAt args 0 2) (fun a => bit a 7 && bit a
          (ownerBit who)) s = .ok) ∧ (clearBits (bits (derivedAttrs (leAt args 3 4)) 2 8) (bits p.attrs 2 8) = 0) ∧
          (clearBits (bits (derivedAttrs (leAt args 3 4)) 16 5) (bits p.attrs 16 5) = 0) ∧ (tfind s.key.vols (byteAt args
          2) = none) ∧ ((useCount (leAt args 0 2) s).1 = true)) ∧
    (∃ who : MboxUser, ∃ args : List Byte, ∃ s : State, (VaultAdmits who 3 s) ∧ (args.length = 70) ∧ (byteAt args 0 < 64) ∧
          (aSize (derivedAttrs (leAt args 1 4)) < 3) ∧ (attrsOk (derivedAttrs (leAt args 1 4)) = true) ∧ (tamperBlocks s =
          false) ∧ (tfind s.key.vols (byteAt args 0) = none)) ∧
    (∃ who : MboxUser, ∃ n : Byte, ∃ s : State, (VaultAdmits who 4 s) ∧ (n.toNat < 64)) ∧
    (∃ who : MboxUser, ∃ s : State, (VaultAdmits who 4 s)) ∧
    (∃ who : MboxUser, ∃ args : List Byte, ∃ x : KeyCopy, ∃ s : State, (VaultAdmits who 5 s) ∧ (args.length = 2) ∧ (leAt
          args 0 2 < 0x140) ∧ (slotCopy (leAt args 0 2) s = some x) ∧ (x.key ≠ [])) ∧
    (∃ who : MboxUser, ∃ args : List Byte, ∃ s : State, (VaultAdmits who 6 s) ∧ (args.length = 2) ∧ (leAt args 0 2 ≤ 4095)) ∧
    (∃ who : MboxUser, ∃ args : List Byte, ∃ d : Nat, ∃ s : State, (VaultAdmits who 7 s) ∧ (args.length = 32) ∧
          (s.key.ident = some d)) ∧
    (∃ who : MboxUser, ∃ args : List Byte, ∃ s : State, (args.length ≤ 4096) ∧ (VaultAdmits who 8 s)) ∧
    (∃ who : MboxUser, ∃ args : List Byte, ∃ s : State, (args.length ≤ 4096) ∧ (VaultAdmits who 9 s)) ∧
    (∃ who : MboxUser, ∃ args : List Byte, ∃ s : State, (VaultAdmits who 10 s) ∧ (certOk args s = true)) ∧
    (∃ who : MboxUser, ∃ s : State, (VaultAdmits who 11 s) ∧ (60 ≤ storedEnergy s)) ∧
    (∃ who : MboxUser, ∃ s : State, (VaultAdmits who 12 s) ∧ (60 ≤ storedEnergy s)) ∧
    (∃ src : Fin 6, ∃ s : State, (s.pwr.mode ≠ 4) ∧ (src.val < 4 ∨ s.pwr.mode ≠ 3)) ∧
    (∃ src : Fin 6, ∃ s : State, (s.pwr.mode ≠ 4) ∧ (src.val < 4 ∨ s.pwr.mode ≠ 3)) ∧
    (∃ s : State, (rd F.KEY_TAMPER_STAT_LEVEL s = 2) ∧ (l2Due s = true)) := by
  refine ⟨?_, ?_, ?_, ?_, ?_, ?_, ?_, ?_, ?_, ?_, ?_, ?_, ?_, ?_, ?_, ?_, ?_, ?_⟩
  · refine ⟨(.core 3), ([]), (witFull), ?_, ?_⟩ <;> decide +kernel
  · refine ⟨(.pcie), ([]), (witStage 8), ?_, ?_⟩ <;> decide +kernel
  · refine ⟨(.core 0), ([0, 1, 63, 0, 0, 0, 0, 128, 0, 1, 7, 1, 9]),
        ({ key := [1, 2, 3, 4, 5, 6, 7, 8, 9, 10, 11, 12, 13, 14, 15, 16], attrs := 2 ^ 7 + 2 ^ 17 }),
        (witVault 2 { key := [1, 2, 3, 4, 5, 6, 7, 8, 9, 10, 11, 12, 13, 14, 15, 16], attrs := 2 ^ 7 + 2 ^ 17 }), ?_, ?_,
        ?_, ?_, ?_, ?_, ?_, ?_, ?_, ?_, ?_, ?_, ?_, ?_⟩ <;> decide +kernel
  · refine ⟨(.core 0), ([0, 0, 63, 0, 0, 0, 0, 128, 0, 1, 7, 1, 9]),
        ({ key := [1, 2, 3, 4, 5, 6, 7, 8, 9, 10, 11, 12, 13, 14, 15, 16], attrs := 2 ^ 7 + 2 ^ 17, limit := 9, rsv := 8 }),
        ({ witFull with mram := { lc := 2 }, key := { slots := [(0, { a := some { key := [1, 2, 3, 4, 5, 6, 7, 8, 9, 10, 11, 12, 13, 14, 15, 16], attrs := 2 ^ 7 + 2 ^ 17, limit := 9, rsv := 8 }, count := 3 })] } }),
        ?_, ?_, ?_, ?_, ?_, ?_, ?_, ?_, ?_, ?_, ?_, ?_, ?_, ?_⟩ <;> decide +kernel
  · refine ⟨(.core 1), (List.replicate 70 0),
        (witVault 2 { key := [], attrs := 0 } |> fun s => { s with key := { s.key with vols := [] } }), ?_, ?_, ?_, ?_, ?_,
        ?_, ?_⟩ <;> decide +kernel
  · refine ⟨(.core 0), (63), (witFull), ?_, ?_⟩ <;> decide +kernel
  · refine ⟨(.xspi), (witStage 8), ?_⟩ <;> decide +kernel
  · refine ⟨(.core 2), ([0, 1]), ({ key := [1], attrs := 4 }), (witVault 2 { key := [1], attrs := 4 }), ?_, ?_, ?_, ?_, ?_⟩
        <;> decide +kernel
  · refine ⟨(.core 0), ([255, 15]), (witVault 2 { key := [1], attrs := 4 }), ?_, ?_, ?_⟩ <;> decide +kernel
  · refine ⟨(.core 0), (zeros 32), (5),
        (witVault 2 { key := [1], attrs := 4 } |> fun s => { s with key := { s.key with ident := some 5 } }), ?_, ?_, ?_⟩
        <;> decide +kernel
  · refine ⟨(.core 0), ([]), (witFull), ?_, ?_⟩ <;> decide +kernel
  · refine ⟨(.core 0), ([]), (witVault 2 { key := [1], attrs := 4 }), ?_, ?_⟩ <;> decide +kernel
  · refine ⟨(.core 0), (witCert), (witMfg), ?_, ?_⟩ <;> decide +kernel
  · refine ⟨(.core 0), ({ witCharged with mram := { lc := 0 } }), ?_, ?_⟩ <;> decide +kernel
  · refine ⟨(.core 0), ({ witCharged with mram := { lc := 1 } }), ?_, ?_⟩ <;> decide +kernel
  · refine ⟨(5), (witFull), ?_, ?_⟩ <;> decide +kernel
  · refine ⟨(3), ({ witFull with pwr := { mode := 3 } }), ?_, ?_⟩ <;> decide +kernel
  · refine
        ⟨(wr F.KEY_TAMPER_STAT_LEVEL 2 (witRec C.keyPol 0 [1, 0] { witFull with time := { witFull.time with loc := 1000000000 } })),
        ?_, ?_⟩ <;> decide +kernel

/-- States and operands that meet the hypotheses of each clause of Obligations.CipherModesComplete, one by one, in the order of its clauses. -/
theorem witness_CipherModesComplete :
    (∃ n : Fin 4, ∃ r : CipReq, ∃ k : KeyCopy, ∃ u : State, ∃ s : State, (pairNext n s = some r) ∧ (r.mode = 1) ∧
          (cipStatus r s = .ok) ∧ (slotKey r.slot s = some k) ∧ (useCount r.slot s = (true, u))) ∧
    (∃ n : Fin 4, ∃ r : CipReq, ∃ k : KeyCopy, ∃ u : State, ∃ s : State, (pairNext n s = some r) ∧ (r.mode = 2) ∧
          (cipStatus r s = .ok) ∧ (slotKey r.slot s = some k) ∧ (useCount r.slot s = (true, u))) ∧
    (∃ n : Fin 4, ∃ r : CipReq, ∃ k : KeyCopy, ∃ u : State, ∃ s : State, (pairNext n s = some r) ∧ (r.mode = 3) ∧
          (cipStatus r s = .ok) ∧ (slotKey r.slot s = some k) ∧ (useCount r.slot s = (true, u))) ∧
    (∃ n : Fin 4, ∃ r : CipReq, ∃ k : KeyCopy, ∃ u : State, ∃ s : State, (pairNext n s = some r) ∧ (r.mode = 4) ∧
          (cipStatus r s = .ok) ∧ (slotKey r.slot s = some k) ∧ (useCount r.slot s = (true, u))) ∧
    (∃ n : Fin 4, ∃ r : CipReq, ∃ k : KeyCopy, ∃ u : State, ∃ s : State, (pairNext n s = some r) ∧ (r.mode = 5) ∧
          (cipStatus r s = .ok) ∧ (slotKey r.slot s = some k) ∧ (useCount r.slot s = (true, u))) ∧
    (∃ n : Fin 4, ∃ r : CipReq, ∃ k : KeyCopy, ∃ u : State, ∃ s : State, (pairNext n s = some r) ∧ (r.mode = 6) ∧
          (cipStatus r s = .ok) ∧ (slotKey r.slot s = some k) ∧ (useCount r.slot s = (true, u))) ∧
    (∃ n : Fin 4, ∃ r : CipReq, ∃ k : KeyCopy, ∃ u : State, ∃ s : State, (pairNext n s = some r) ∧ (r.mode = 7) ∧
          (cipStatus r s = .ok) ∧ (slotKey r.slot s = some k) ∧ (useCount r.slot s = (true, u))) ∧
    (∃ n : Fin 4, ∃ r : CipReq, ∃ k : KeyCopy, ∃ u : State, ∃ s : State, (pairNext n s = some r) ∧ (r.mode = 8) ∧
          (cipStatus r s = .ok) ∧ (slotKey r.slot s = some k) ∧ (useCount r.slot s = (true, u))) ∧
    (∃ n : Fin 4, ∃ r : CipReq, ∃ k : KeyCopy, ∃ u : State, ∃ s : State, (pairNext n s = some r) ∧ (r.mode = 9) ∧
          (cipStatus r s = .ok) ∧ (slotKey r.slot s = some k) ∧ (useCount r.slot s = (true, u))) ∧
    (∃ n : Fin 4, ∃ r : CipReq, ∃ k : KeyCopy, ∃ u : State, ∃ s : State, (pairNext n s = some r) ∧ (r.mode = 10) ∧
          (cipStatus r s = .ok) ∧ (slotKey r.slot s = some k) ∧ (useCount r.slot s = (true, u))) ∧
    (∃ n : Fin 4, ∃ r : CipReq, ∃ k : KeyCopy, ∃ u : State, ∃ s : State, (pairNext n s = some r) ∧ (r.mode = 11) ∧
          (cipStatus r s = .ok) ∧ (slotKey r.slot s = some k) ∧ (useCount r.slot s = (true, u))) ∧
    (∃ n : Fin 4, ∃ r : CipReq, ∃ k : KeyCopy, ∃ u : State, ∃ s : State, (pairNext n s = some r) ∧ (r.mode = 12) ∧
          (cipStatus r s = .ok) ∧ (slotKey r.slot s = some k) ∧ (useCount r.slot s = (true, u))) ∧
    (∃ n : Fin 4, ∃ r : CipReq, ∃ k : KeyCopy, ∃ u : State, ∃ s : State, (pairNext n s = some r) ∧ (r.mode = 13) ∧
          (cipStatus r s = .ok) ∧ (slotKey r.slot s = some k) ∧ (useCount r.slot s = (true, u))) ∧
    (∃ n : Fin 4, ∃ r : CipReq, ∃ s : State, (pairNext n s = some r) ∧ (r.mode = 14) ∧ (cipStatus r s = .ok)) ∧
    (∃ n : Fin 4, ∃ r : CipReq, ∃ k : KeyCopy, ∃ u : State, ∃ s : State, (pairNext n s = some r) ∧ (r.mode = 15) ∧
          (cipStatus r s = .ok) ∧ (slotKey r.slot s = some k) ∧ (useCount r.slot s = (true, u))) ∧
    (∃ n : Fin 4, ∃ r : CipReq, ∃ k : KeyCopy, ∃ u : State, ∃ s : State, (pairNext n s = some r) ∧ (r.mode = 16) ∧
          (cipStatus r s = .ok) ∧ (slotKey r.slot s = some k) ∧ (useCount r.slot s = (true, u))) := by
  refine ⟨?_, ?_, ?_, ?_, ?_, ?_, ?_, ?_, ?_, ?_, ?_, ?_, ?_, ?_, ?_, ?_⟩
  · refine ⟨(0), (witReq 1), (witKey 1), _, (witCip 1), ?_, ?_, ?_, ?_, witPair (by decide +kernel)⟩ <;> decide +kernel
  · refine ⟨(0), (witReq 2), (witKey 2), _, (witCip 2), ?_, ?_, ?_, ?_, witPair (by decide +kernel)⟩ <;> decide +kernel
  · refine ⟨(0), (witReq 3), (witKey 3), _, (witCip 3), ?_, ?_, ?_, ?_, witPair (by decide +kernel)⟩ <;> decide +kernel
  · refine ⟨(0), (witReq 4), (witKey 4), _, (witCip 4), ?_, ?_, ?_, ?_, witPair (by decide +kernel)⟩ <;> decide +kernel
  · refine ⟨(0), (witReq 5), (witKey 5), _, (witCip 5), ?_, ?_, ?_, ?_, witPair (by decide +kernel)⟩ <;> decide +kernel
  · refine ⟨(0), (witReq 6), (witKey 6), _, (witCip 6), ?_, ?_, ?_, ?_, witPair (by decide +kernel)⟩ <;> decide +kernel
  · refine ⟨(0), (witReq 7), (witKey 7), _, (witCip 7), ?_, ?_, ?_, ?_, witPair (by decide +kernel)⟩ <;> decide +kernel
  · refine ⟨(0), (witReq 8), (witKey 8), _, (witCip 8), ?_, ?_, ?_, ?_, witPair (by decide +kernel)⟩ <;> decide +kernel
  · refine ⟨(0), (witReq 9), (witKey 9), _, (witCip 9), ?_, ?_, ?_, ?_, witPair (by decide +kernel)⟩ <;> decide +kernel
  · refine ⟨(0), (witReq 10), (witKey 10), _, (witCip 10), ?_, ?_, ?_, ?_, witPair (by decide +kernel)⟩ <;> decide +kernel
  · refine ⟨(0), (witReq 11), (witKey 11), _, (witCip 11), ?_, ?_, ?_, ?_, witPair (by decide +kernel)⟩ <;> decide +kernel
  · refine ⟨(0), (witReq 12), (witKey 12), _, (witCip 12), ?_, ?_, ?_, ?_, witPair (by decide +kernel)⟩ <;> decide +kernel
  · refine ⟨(0), (witReq 13), (witKey 13), _, (witCip 13), ?_, ?_, ?_, ?_, witPair (by decide +kernel)⟩ <;> decide +kernel
  · refine ⟨(0), (witReq 14), (witCip 14), ?_, ?_, ?_⟩ <;> decide +kernel
  · refine ⟨(0), (witReq 15), (witKey 15), _, (witCip 15), ?_, ?_, ?_, ?_, witPair (by decide +kernel)⟩ <;> decide +kernel
  · refine ⟨(0), (witReq 16), (witKey 16), _, (witCip 16), ?_, ?_, ?_, ?_, witPair (by decide +kernel)⟩ <;> decide +kernel

/-- States and operands that meet the hypotheses of each clause of Obligations.CipherReleaseAndSecureLinksComplete, one by one, in the order of its clauses. -/
theorem witness_CipherReleaseAndSecureLinksComplete :
    (∃ n : Fin 4, ∃ r : CipReq, ∃ x : CipRes, ∃ s : State, ((pair n s).run = some (r, x)) ∧ (x.status = 0) ∧ (r.src = 20)) ∧
    (∃ n : Fin 4, ∃ r : CipReq, ∃ x : CipRes, ∃ s : State, ((pair n s).run = some (r, x)) ∧ (x.status = 0) ∧ (r.src < 16) ∧
          ((ctx r.src r.ctx s).stall = .cipher r.id)) ∧
    (∃ n : Fin 4, ∃ q : Nat, ∃ e : QEnt, ∃ l : List QEnt, ∃ s : State, (n.val ≠ 0) ∧ (domRuns .cip s = true) ∧ (sourceWaits
          false 10 s = false) ∧ (pairFree n s = true) ∧ (s.cip.bulkQ.any (·.src == 16) = false) ∧ ((jobQueues n s).find?
          (headRead · s) = some q) ∧ ((qu q s).ents = e :: l) ∧ (jobReq (q - 768) (tget 0 s.cip.jobs (q - 768) + 1) ((fr
          e.fid s).data.take ((fr e.fid s).data.length - 4)) s = none)) ∧
    (∃ n : Fin 4, ∃ q : Nat, ∃ e : QEnt, ∃ l : List QEnt, ∃ r : CipReq, ∃ u : State, ∃ s : State, (n.val ≠ 0) ∧ (domRuns
          .cip s = true) ∧ (sourceWaits false 10 s = false) ∧ (pairFree n s = true) ∧ (s.cip.bulkQ.any (·.src == 16) =
          false) ∧ ((jobQueues n s).find? (headRead · s) = some q) ∧ ((qu q s).ents = e :: l) ∧ (jobReq (q - 768) (tget 0
          s.cip.jobs (q - 768) + 1) ((fr e.fid s).data.take ((fr e.fid s).data.length - 4)) s = some r) ∧ (cipStatus r s =
          .ok) ∧ (useCount r.slot s = (true, u))) ∧
    (∃ port : Fin 16, ∃ sa : SaInstall, ∃ s : State, (sa.key.length = 16 ∨ sa.key.length = 32) ∧ (sa.salt.length = 12) ∧
          (macsecOn port s = true) ∧ (sa.tx = true)) ∧
    (∃ port : Fin 16, ∃ an : Fin 4, ∃ s : State, (macsecOn port s = true)) := by
  refine ⟨?_, ?_, ?_, ?_, ?_, ?_⟩
  · refine ⟨(3), ({ witReq 1 with src := 20 }), ({}),
        (pairSet 3 { run := some ({ witReq 1 with src := 20 }, {}) } witFull), ?_, ?_, ?_⟩ <;> decide +kernel
  · refine ⟨(0), (witReq 6), ({}), (pairSet 0 { run := some (witReq 6, {}) } (witGrv 0 0 { st := 2, stall := .cipher 0 })),
        ?_, ?_, ?_, ?_⟩ <;> decide +kernel
  · refine ⟨(1), (768), ({ fid := 0, read := 1 }), ([]), (witJob), ?_, ?_, ?_, ?_, ?_, ?_, ?_, ?_⟩ <;> decide +kernel
  · refine ⟨(1), (768), ({ fid := 0, read := 1 }), ([]), _, _, (witJobRuns), ?_, ?_, ?_, ?_, ?_, ?_, ?_, rfl, ?_, witPair
        (by decide +kernel)⟩ <;> decide +kernel
  · refine ⟨(15), (⟨true, 0, 3, 63, 0, 0, 1, zeros 32, zeros 12⟩), (witRec C.msPort 15 [1] witFull), ?_, ?_, ?_, ?_⟩ <;>
        decide +kernel
  · refine ⟨(15), (3), (witRec C.msPort 15 [1] witFull), ?_⟩ <;> decide +kernel

/-- States and operands that meet the hypotheses of each clause of Obligations.PowerModesAndSleepRingComplete, one by one, in the order of its clauses. -/
theorem witness_PowerModesAndSleepRingComplete :
    (∃ s : State, (s.pwr.mode = 0) ∧ (mayIdle s = true)) ∧
    (∃ s : State, (s.pwr.mode = 1)) ∧
    (∃ s : State, (s.pwr.mode = 2) ∧ (s.slp.toWake ≠ 0)) ∧
    (∃ s : State, (ringOn s = true) ∧ (rd F.SLP_STAT_ORIGINATOR s = 1) ∧ (s.slp.running = false)) ∧
    (∃ port : Fin 32, ∃ msg : List Byte, ∃ body : List Byte, ∃ u : State, ∃ s : State, (almAccept 0 msg s = (some body, u))
          ∧ (cfgHas C.slpHdr 0 u = true) ∧ (tokOk body u = true) ∧ (tokAccepted body u = true) ∧ (isVetoToken body u =
          false) ∧ (ringOn u = true) ∧ (leAt body 8 2 ≠ ownNode u)) ∧
    (∃ s : State, (commitDue s = true) ∧ (s.slp.held = []) ∧ (clearBits (slpAwake s) s.slp.cand % 2 ^ 32 &&& slpOwn s ≠ 0)) ∧
    (∃ i : Fin 8, ∃ s : State, (bit (cfgN C.slpWakeIn i 0 1 s) 0 = true) ∧ (bit s.slp.active i = false) ∧ (s.pwr.mode = 2)) ∧
    (∃ s : State, (slpN 0x18 4 s ≠ 0) ∧ (s.pwr.mode = 2)) ∧
    (∃ port : Fin 32, ∃ msg : List Byte, ∃ body : List Byte, ∃ u : State, ∃ s : State, (almAccept 8 msg s = (some body, u))
          ∧ (body.length = 8) ∧ (leAt body 0 4 ≠ 0) ∧ (u.pwr.mode ≠ 4) ∧ (commitDue u = false)) ∧
    (∃ w : Nat, ∃ r : Nat, ∃ f : Nat, ∃ n : Nat, ∃ l : List (Nat × Nat × Nat × Nat), ∃ s : State, (s.slp.repeats = (w, r,
          f, n) :: l) ∧ (s.pwr.mode ≤ 1)) ∧
    (∃ g : Fin 32, ∃ s : State, (bit (slpConfirming s) g = true) ∧ (slpConfirming s &&& slpFirm s = 0) ∧ (s.pwr.mode ≤ 1) ∧
          (tget 0 s.slp.confAt g + slpN 0x12 2 s * 1000000 ≤ s.time.loc)) ∧
    (∃ s : State, (ringDue s = true)) ∧
    (∃ s : State, (ringOn s = true) ∧ (rd F.SLP_STAT_RING s = 2) ∧ (bit (slpN 3 1 s) 0 = true) ∧ (s.slp.ringAt + slpIndex s
          * 1000000 ≤ s.time.loc)) ∧
    (∃ who : Initiator, ∃ v : Word, ∃ s : State, (Admits who F.SLP_HOST_DEMAND_DEMAND.addr s) ∧ ((∃ n, who = .core n) ∨ (∃
          i, hostOf who = some i ∧ (bit (hostPerm i s) 4 = true ∨ stage s = 9)))) := by
  refine ⟨?_, ?_, ?_, ?_, ?_, ?_, ?_, ?_, ?_, ?_, ?_, ?_, ?_, ?_⟩
  · refine ⟨(witFull), ?_, ?_⟩ <;> decide +kernel
  · refine ⟨({ witFull with pwr := { mode := 1 } }), ?_⟩ <;> decide +kernel
  · refine ⟨({ witFull with pwr := { mode := 2 }, slp := { toWake := 1 } }), ?_, ?_⟩ <;> decide +kernel
  · refine ⟨(wr F.SLP_STAT_ORIGINATOR 1 witAlm), ?_, ?_, ?_⟩ <;> decide +kernel
  · refine ⟨(3), (witMsg 0 witToken), (witToken), _, (witAlm), witPair (by decide +kernel), ?_, ?_, ?_, ?_, ?_, ?_⟩ <;>
        decide +kernel
  · refine ⟨(wr F.SLP_GROUP_AWAKE_AWAKE 3 { witAlm with slp := { commit := true, cand := 1 } }), ?_, ?_, ?_⟩ <;> decide
        +kernel
  · refine ⟨(7), (witRec C.slpWakeIn 7 [1, 0, 0, 0, 1] { witFull with pwr := { mode := 2 } }), ?_, ?_, ?_⟩ <;> decide
        +kernel
  · refine ⟨({ witAlm with pwr := { mode := 2 } }), ?_, ?_⟩ <;> decide +kernel
  · refine ⟨(0), (witMsg 8 [1, 0, 0, 0, 0, 0, 0, 0]), ([1, 0, 0, 0, 0, 0, 0, 0]), _, (witAlm), witPair (by decide +kernel),
        ?_, ?_, ?_, ?_⟩ <;> decide +kernel
  · refine ⟨(1), (27), (0), (2), ([]), ({ witAlm with slp := { repeats := [(1, 27, 0, 2)] } }), ?_, ?_⟩ <;> decide +kernel
  · refine ⟨(31), (wr F.SLP_CONFIRMING_GROUPS (2 ^ 31) witFull), ?_, ?_, ?_, ?_⟩ <;> decide +kernel
  · refine ⟨({ witAlm with slp := { commit := true, cand := 1 }, time := { witAlm.time with loc := 100000000 } }), ?_⟩ <;>
        decide +kernel
  · refine ⟨(wr F.SLP_STAT_RING 2 witAlm), ?_, ?_, ?_, ?_⟩ <;> decide +kernel
  · refine ⟨(.pcie), (7), (witStage 9), ?_, ?_⟩ <;> decide +kernel

/-- States and operands that meet the hypotheses of each clause of Obligations.AlmoithAndProofComplete, one by one, in the order of its clauses. -/
theorem witness_AlmoithAndProofComplete :
    (∃ port : Fin 32, ∃ msg : List Byte, ∃ b : List Byte, ∃ u : State, ∃ s : State, (beaconAccept msg s = (some b, u)) ∧
          (b.length = 28) ∧ (observes (leAt b 0 2) u = true)) ∧
    (∃ ch : Fin 96, ∃ id : Nat, ∃ b : List Byte, ∃ s : State, (svcUp 4 s = true) ∧ (cfgHas C.almHdr 0 s = true) ∧ (b.length
          = 8) ∧ (id = cfgN C.almHdr 0 0x14 4 s) ∧ (bit (cfgN C.almHdr 0 0x18 12 s) ch = true) ∧ (observes (leAt b 0 4 %
          4096) s = true)) ∧
    (∃ s : State, (svcUp 4 s = true) ∧ (cfgHas C.almHdr 0 s = true) ∧ (observes (ownNode s) s = true)) ∧
    (∃ n : Fin 4096, ∃ s : State, (cfgHas C.roster n s = true) ∧ (svcUp 4 s = true) ∧ (silenceDue n s = true) ∧ (observes n
          s = true) ∧ ((leaf n s).st ≠ 3)) ∧
    (∃ s : State, (svcUp 4 s = true) ∧ (cfgHas C.almHdr 0 s = true)) ∧
    (∃ port : Fin 32, ∃ msg : List Byte, ∃ b : List Byte, ∃ i : Nat, ∃ u : State, ∃ s : State, (almAccept 2 msg s = (some
          b, u)) ∧ (b.length = 280) ∧ (leAt b 0 4 = rosterEpoch u) ∧ (peerOf (msgNode msg) u = some i)) ∧
    (∃ port : Fin 32, ∃ msg : List Byte, ∃ b : List Byte, ∃ i : Nat, ∃ u : State, ∃ s : State, (almAccept 3 msg s = (some
          b, u)) ∧ (peerOf (msgNode msg) u = some i) ∧ (bit (msgFlags msg) 0 = false) ∧ (b.length = 4) ∧ ((byteAt b 0 = 1 ∧
          leAt b 2 2 < 16) ∨ (byteAt b 0 = 2 ∧ leAt b 2 2 < 256))) ∧
    (∃ port : Fin 32, ∃ msg : List Byte, ∃ b : List Byte, ∃ i : Nat, ∃ u : State, ∃ s : State, (almAccept 3 msg s = (some
          b, u)) ∧ (peerOf (msgNode msg) u = some i) ∧ (bit (msgFlags msg) 0 = false) ∧ (b.length = 4) ∧ ((byteAt b 0 = 1 ∧
          leAt b 2 2 < 16) ∨ (byteAt b 0 = 2 ∧ leAt b 2 2 < 256))) ∧
    (∃ port : Fin 32, ∃ msg : List Byte, ∃ b : List Byte, ∃ u : State, ∃ s : State, (almAccept 4 msg s = (some b, u)) ∧
          (b.length = 8)) ∧
    (∃ port : Fin 32, ∃ msg : List Byte, ∃ b : List Byte, ∃ r : OpenReq, ∃ u : State, ∃ s : State, (almAccept 5 msg s =
          (some b, u)) ∧ (b.length = 28) ∧ (openFor (b2n (bit (byteAt b 7) 0)) (msgNode msg) (leAt b 0 4) (leAt b 4 2) u =
          some r)) ∧
    (∃ port : Fin 32, ∃ msg : List Byte, ∃ b : List Byte, ∃ u : State, ∃ s : State, (almAccept 6 msg s = (some b, u)) ∧
          (b.length = 16) ∧ (nodeRefused (msgNode msg) u = false) ∧ (remoteStatus (leAt b 4 2) true u = .ok) ∧ (sigType
          (leAt b 4 2) u ≠ 4) ∧ ((tget [] u.alm.writes (msgNode msg)).contains (leAt b 0 4) = false)) ∧
    (∃ id : Nat, ∃ r : OpenReq, ∃ s : State, (s.alm.opens.find? (·.id == id) = some r) ∧ (svcUp 5 s = true) ∧ (retryDue r s
          = true) ∧ (r.tries < cfgN C.almHdr 0 0x10 1 s) ∧ (r.kind = 0)) ∧
    (∃ id : Nat, ∃ r : OpenReq, ∃ s : State, (s.alm.opens.find? (·.id == id) = some r) ∧ (svcUp 5 s = true) ∧ (retryDue r s
          = true) ∧ (cfgN C.almHdr 0 0x10 1 s ≤ r.tries) ∧ (r.kind = 0)) ∧
    (∃ port : Fin 32, ∃ msg : List Byte, ∃ b : List Byte, ∃ u : State, ∃ s : State, (almAccept 7 msg s = (some b, u)) ∧
          (cfgN C.almHdr 0 0x12 2 u = ownNode u) ∧ (12 ≤ b.length) ∧ (byteAt b 1 < byteAt b 2) ∧ (byteAt b 2 ≠ 1) ∧
          (u.alm.parts = [])) ∧
    (∃ n : Fin 4096, ∃ k : Fin 64, ∃ q : Nat, ∃ s : State, (svcUp 5 s = true) ∧ (s.alm.parts.any (fun p => p.sender ==
          n.val && p.set_ == k.val && p.seq == q && decide (p.at_ + 10000000 ≤ s.time.loc)) = true)) ∧
    (∃ port : Fin 32, ∃ msg : List Byte, ∃ b : List Byte, ∃ u : State, ∃ s : State, (almAccept 9 msg s = (some b, u)) ∧ (20
          ≤ b.length) ∧ (nodeRefused (msgNode msg) u = false) ∧ (byteAt b 0 = 0xFF)) ∧
    (∃ port : Fin 32, ∃ msg : List Byte, ∃ b : List Byte, ∃ l : List Nat, ∃ v : State, ∃ u : State, ∃ s : State, (almAccept
          9 msg s = (some b, u)) ∧ (20 ≤ b.length) ∧ (nodeRefused (msgNode msg) u = false) ∧ (byteAt b 0 ≠ 0xFF) ∧
          (routesFor 3 0 0 (leAt b 4 4 % 2 ^ 30) u = (l, v))) ∧
    (∃ port : Fin 32, ∃ msg : List Byte, ∃ b : List Byte, ∃ i : Nat, ∃ u : State, ∃ s : State, (almAccept 10 msg s = (some
          b, u)) ∧ (b.length = 64) ∧ (peerOf (msgNode msg) u = some i)) ∧
    (∃ b0 : List Byte, ∃ b1 : List Byte, ∃ b2 : List Byte, ∃ b3 : List Byte, ∃ s0 : State, ∃ s1 : State, ∃ s2 : State, ∃ s3
          : State, ∃ s : State, (svcUp 1 s = true) ∧ (cfgHas C.almHdr 0 s = true) ∧ (healthRec 0 s = (b0, s0)) ∧ (healthRec
          1 s0 = (b1, s1)) ∧ (healthRec 2 s1 = (b2, s2)) ∧ (healthRec 3 s2 = (b3, s3))) ∧
    (∃ s : State, (awake s = true) ∧ (s.alm.lostAt + 10000000000 ≤ s.time.loc)) := by
  refine ⟨?_, ?_, ?_, ?_, ?_, ?_, ?_, ?_, ?_, ?_, ?_, ?_, ?_, ?_, ?_, ?_, ?_, ?_, ?_, ?_⟩
  · refine ⟨(0), (witMsg 1 (6 :: zeros 27)), (6 :: zeros 27), _, (witRoster), witPair (by decide +kernel), ?_, ?_⟩ <;>
        decide +kernel
  · refine ⟨(0), (0), ([6, 0, 0, 0, 0, 0, 0, 0]), (witRoster), ?_, ?_, ?_, ?_, ?_, ?_⟩ <;> decide +kernel
  · refine ⟨(witRoster), ?_, ?_, ?_⟩ <;> decide +kernel
  · refine ⟨(6),
        ({ witRoster with alm := { ready := true, leaves := [(6, { st := 0 })] }, time := { witRoster.time with loc := 30000000 } }),
        ?_, ?_, ?_, ?_, ?_⟩ <;> decide +kernel
  · refine ⟨(witAlm), ?_, ?_⟩ <;> decide +kernel
  · refine ⟨(0), (witMsg 2 witDigestBody), (witDigestBody), (0), ((almAccept 2 (witMsg 2 witDigestBody) witAlm).2),
        (witAlm), (witPair (by decide +kernel)), ?_, ?_, ?_⟩ <;> decide +kernel
  · refine ⟨(0), (witMsg 3 [2, 0, 255, 0]), ([2, 0, 255, 0]), (0), _, (witAlm), witPair (by decide +kernel), ?_, ?_, ?_,
        ?_⟩ <;> decide +kernel
  · refine ⟨(0), (witMsg 3 [1, 0, 15, 0]), ([1, 0, 15, 0]), (0), _, (witAlm), witPair (by decide +kernel), ?_, ?_, ?_, ?_⟩
        <;> decide +kernel
  · refine ⟨(0), (witMsg 4 (zeros 8)), (zeros 8), _, (witAlm), witPair (by decide +kernel), ?_⟩ <;> decide +kernel
  · refine ⟨(0), (witMsg 5 (zeros 28)), (zeros 28), ({ id := 0, kind := 0, node := 5 }), _,
        ({ witAlm with alm := { ready := true, opens := [{ id := 0, kind := 0, node := 5 }] } }), witPair
        (by decide +kernel), ?_, ?_⟩ <;> decide +kernel
  · refine ⟨(0), (witMsg 6 (zeros 16)), (zeros 16), _, (witOwnSignal), witPair (by decide +kernel), ?_, ?_, ?_, ?_, ?_⟩ <;>
        decide +kernel
  · refine ⟨(3), ({ id := 3, kind := 0, node := 5 }),
        ({ witAlm with alm := { ready := true, opens := [{ id := 3, kind := 0, node := 5 }] }, time := { witAlm.time with loc := 2000000 } }),
        ?_, ?_, ?_, ?_, ?_⟩ <;> decide +kernel
  · refine ⟨(3), ({ id := 3, kind := 0, node := 5, tries := 9 }),
        ({ witAlm with alm := { ready := true, opens := [{ id := 3, kind := 0, node := 5, tries := 9 }] }, time := { witAlm.time with loc := 2000000 } }),
        ?_, ?_, ?_, ?_, ?_⟩ <;> decide +kernel
  · refine ⟨(0), (witMsg 7 [1, 0, 2, 0, 0, 0, 0, 0, 0, 0, 0, 0]), ([1, 0, 2, 0, 0, 0, 0, 0, 0, 0, 0, 0]), _, (witAlm),
        witPair (by decide +kernel), ?_, ?_, ?_, ?_, ?_⟩ <;> decide +kernel
  · refine ⟨(5), (63), (9),
        ({ witAlm with alm := { parts := [⟨5, 63, 9, 2, [], 0⟩] }, time := { witAlm.time with loc := 10000000 } }), ?_, ?_⟩
        <;> decide +kernel
  · refine ⟨(0), (witMsg 9 (255 :: zeros 19)), (255 :: zeros 19), _, (witAlm), witPair (by decide +kernel), ?_, ?_, ?_⟩ <;>
        decide +kernel
  · refine ⟨(0), (witMsg 9 (zeros 20)), (zeros 20), ([]), _, _, (witAlm), witPair (by decide +kernel), ?_, ?_, ?_, witPair
        (by decide +kernel)⟩ <;> decide +kernel
  · refine ⟨(0), (witMsg 10 (zeros 64)), (zeros 64), (0), _, (witAlm), witPair (by decide +kernel), ?_, ?_⟩ <;> decide
        +kernel
  · refine ⟨_, _, _, _, _, _, _, _, (witAlm), ?_, ?_, witBoth, witBoth, witBoth, witBoth⟩ <;> decide +kernel
  · refine ⟨({ witFull with alm := { resync := true }, time := { witFull.time with loc := 10000000000 } }), ?_, ?_⟩ <;>
        decide +kernel

/-- States and operands that meet the hypotheses of each clause of Obligations.HostInterfaceCommandsComplete, one by one, in the order of its clauses. -/
theorem witness_HostInterfaceCommandsComplete :
    (∃ q : Fin 64, ∃ s : State, (hqIf q s = 0)) ∧
    (∃ q : Fin 64, ∃ s : State, (hqIf q s = 0)) ∧
    (∃ q : Fin 64, ∃ v : Word, ∃ s : State, (Admits .pcie (doorbellAddr q) s) ∧ (hqIf q s = 0) ∧ (hqOn q s = true) ∧ (bits
          v.toNat 0 11 < hqSize q s)) ∧
    (∃ q : Fin 64, ∃ v : Word, ∃ s : State, (Admits .pcie (doorbellAddr q) s) ∧ (hqIf q s = 0) ∧ (hqOn q s = true) ∧ (bits
          v.toNat 0 11 < hqSize q s)) ∧
    (∃ q : Fin 64, ∃ v : Word, ∃ s : State, (Admits .pcie (doorbellAddr q) s) ∧ (hqIf q s = 0) ∧ (hqOn q s = true) ∧ (bits
          v.toNat 0 11 < 2 * hqSize q s) ∧ ((hostQ q s).fill = [])) ∧
    (∃ q : Fin 64, ∃ desc : List Byte, ∃ buf : List Byte, ∃ s : State, (desc.length = 32) ∧ (buf.length = leAt desc 8 2) ∧
          (hqDma q s = true) ∧ (rd (F.HST_HQnn_PTRS_SEND_HEAD.u q) s % hqSize q s ≠ (hostQ q s).sendTail) ∧ (cplFull q s =
          false) ∧ (sendStatus q desc s = .ok) ∧ (bit (byteAt desc 0x0A) 0 = false) ∧ (sourceWaits false 8 s = false) ∧
          (sendHeld q s = false) ∧ ((sendFrame q 0 desc buf s).data.length ≤ 16384)) ∧
    (∃ q : Fin 64, ∃ desc : List Byte, ∃ e : QEnt, ∃ l : List QEnt, ∃ s : State, (desc.length = 32) ∧ (hqDma q s = true) ∧
          (rd (F.HST_HQnn_PTRS_RECV_HEAD.u q) s % hqSize q s ≠ (hostQ q s).recvTail) ∧ (cplFull q s = false) ∧ (64 ≤ leAt
          desc 8 2) ∧ (leAt desc 8 2 ≤ 16416) ∧ (leAt desc 8 2 % 8 = 0) ∧ (headRead (672 + q) s = true) ∧ ((qu (672 + q)
          s).ents = e :: l)) ∧
    (∃ who : Initiator, ∃ q : Fin 64, ∃ v : Word, ∃ s : State, (Admits who (F.HST_HQnn_WAIT_TICKS.addr + q *
          F.HST_HQnn_WAIT_TICKS.step) s) ∧ (hostOf who = some (hqIf q s)) ∧ (hqOn q s = true)) ∧
    (∃ who : Initiator, ∃ q : Fin 64, ∃ v : Word, ∃ s : State, (Admits who (F.HST_HQnn_WAIT_TICKS.addr + q *
          F.HST_HQnn_WAIT_TICKS.step) s) ∧ (hostOf who = some (hqIf q s)) ∧ (hqOn q s = true)) ∧
    (∃ q : Fin 64, ∃ s : State, (waitDue q s = true)) ∧
    (∃ q : Fin 64, ∃ k : Nat, ∃ e : QEnt, ∃ l : List QEnt, ∃ s : State, (reachable .pcie s = true) ∧ (isFull s = true) ∧
          (hqOn q s = true) ∧ (hqIf q s = 0) ∧ (rdB (F.HST_HQnn_CTRL_EN.u q) s = true) ∧ (rd (F.HST_HQnn_CTRL_MODE.u q) s =
          1) ∧ (bit (hqN q 0 1 s) 2 = true) ∧ (stashFind (672 + q) s = none) ∧ (headWhole (672 + q) s = true) ∧
          ((List.range 8).find? (fun k => (tfind s.hst.stash (8 * 0 + k)).isNone) = some k) ∧ ((qu (672 + q) s).ents = e ::
          l)) ∧
    (∃ who : Initiator, ∃ q : Fin 64, ∃ e : Nat, ∃ x : Stash, ∃ s : State, (Admits who (F.HST_HQnn_ACK_ACK.addr + q *
          F.HST_HQnn_ACK_ACK.step) s) ∧ (hostOf who = some (hqIf q s)) ∧ (hqOn q s = true) ∧ (stashFind (672 + q) s = some
          (e, x)) ∧ (tfind s.hst.stash e = some x)) ∧
    (∃ e : Fin 16, ∃ x : Stash, ∃ s : State, (tfind s.hst.stash e = some x) ∧ (x.at_ + tStash s ≤ s.time.loc)) ∧
    (∃ s : State, (reachable .xspi s = true)) ∧
    (∃ s : State, (reachable .xspi s = true) ∧ (s.hst.posted = [])) ∧
    (∃ addr : Nat, ∃ a : Nat, ∃ n : Nat, ∃ pop : Bool, ∃ st : Status, ∃ b : List Byte, ∃ u : State, ∃ s : State, (xspiLenOk
          addr n = true) ∧ (reachable .xspi s = true) ∧ (xspiAddr addr s = .space pop a) ∧ (spaceRead (if pop then .xspiPop
          else .xspiPlain) a n { s with hst := { s.hst with rstEn := false } } = ((st, b), u))) ∧
    (∃ addr : Nat, ∃ data : List Byte, ∃ s : State, (xspiLenOk addr data.length = true) ∧ (reachable .xspi s = true)) ∧
    (∃ addr : Nat, ∃ data : List Byte, ∃ s : State, (xspiLenOk addr data.length = true) ∧ (reachable .xspi s = true)) ∧
    (∃ addr : Nat, ∃ a : Nat, ∃ b : List Byte, ∃ pop : Bool, ∃ r : List (Nat × List Byte), ∃ u : State, ∃ s : State,
          (s.hst.posted = (addr, b) :: r) ∧ (xspiAddr addr s = .space pop a) ∧ (Admits .xspi a s) ∧ (wordsWrite .xspi a b
          { s with hst := { s.hst with posted := r } } = (.ok, u))) ∧
    (∃ s : State, (reachable .xspi s = true)) ∧
    (∃ s : State, (reachable .xspi s = true) ∧ (s.hst.rstEn = true)) ∧
    (∃ i : Fin 65536, ∃ s : State, (reachable .pcie s = true) ∧ (hostGate false (0x4000000 + 8 * i) s = none) ∧ (cfgHas
          C.sigDef i s = true) ∧ (sigOwner i s = none) ∧ (sigType i s ≠ 4)) ∧
    (∃ who : Initiator, ∃ i : Fin 65536, ∃ v : BitVec 64, ∃ s : State, (Admits who (0x4000000 + 8 * i) s) ∧ (maySigWrite
          who i s = true) ∧ (cfgHas C.sigDef i s = true) ∧ (sigOwner i s = none) ∧ (devCommitted i s = false) ∧ (sigType i
          s ≠ 4)) ∧
    (∃ who : Initiator, ∃ p : Fin 8192, ∃ s : State, (Admits who (0x40A0000 + 4 * p) s) ∧ ((∃ n, who = .core n) ∨ (∃ i,
          hostOf who = some i ∧ (stage s = 9 ∨ bit (hostPerm i s) 0 = true))) ∧ (pduMode p s = 4) ∧ (cfgHas C.sigPdu p s =
          true) ∧ (pduUnsent p s = false) ∧ (evPends (pduN p 0x1C 1 s) 2 p s = false) ∧ (pduN p 0x1C 1 s < 16)) ∧
    (∃ addr : Nat, ∃ v : Nat, ∃ u : State, ∃ s : State, (reachable .pcie s = true) ∧ (addr % 4 = 0) ∧ (hostGate false addr
          s = none) ∧ (popAddr addr = none) ∧ (regRead .bar0 true addr s = (some v, u))) ∧
    (∃ who : Initiator, ∃ addr : Nat, ∃ v : Word, ∃ en : BitVec 4, ∃ u : State, ∃ s : State, (Admits who addr s) ∧
          (regWrite who addr v.toNat en.toNat s = (.ok, u))) ∧
    (∃ who : Initiator, ∃ i : Nat, ∃ addr : Nat, ∃ v : Word, ∃ en : BitVec 4, ∃ st : Status, ∃ u : State, ∃ s : State,
          (Admits who addr s) ∧ (hostOf who = some i) ∧ (regWrite who addr v.toNat en.toNat s = (st, u)) ∧ (st ≠ .ok)) := by
  refine ⟨?_, ?_, ?_, ?_, ?_, ?_, ?_, ?_, ?_, ?_, ?_, ?_, ?_, ?_, ?_, ?_, ?_, ?_, ?_, ?_, ?_, ?_, ?_, ?_, ?_, ?_, ?_⟩
  · refine ⟨(63), (witFull), ?_⟩ <;> decide +kernel
  · refine ⟨(0), (witFull), ?_⟩ <;> decide +kernel
  · refine ⟨(63), (15), (witQueue 63 0), ?_, ?_, ?_, ?_⟩ <;> decide +kernel
  · refine ⟨(63), (15), (witQueue 63 0), ?_, ?_, ?_, ?_⟩ <;> decide +kernel
  · refine ⟨(63), (31), (witQueue 63 0), ?_, ?_, ?_, ?_, ?_⟩ <;> decide +kernel
  · refine ⟨(63), (zeros 8 ++ [64] ++ zeros 23), (zeros 64),
        ({ witQueue 63 0 with hst := { queues := [(63, { sendTail := 1, recvTail := 1, cplHead := 5 })] } }), ?_, ?_, ?_,
        ?_, ?_, ?_, ?_, ?_, ?_, ?_⟩ <;> decide +kernel
  · refine ⟨(63), (zeros 8 ++ [64] ++ zeros 23), ({ fid := 0, read := 1 }), ([]), (witQueued 63 0), ?_, ?_, ?_, ?_, ?_, ?_,
        ?_, ?_, ?_⟩ <;> decide +kernel
  · refine ⟨(.pcie), (63), (0), (witQueue 63 0), ?_, ?_, ?_⟩ <;> decide +kernel
  · refine ⟨(.xspi), (0), (0xFFFFFFFF), (witQueue 0 1), ?_, ?_, ?_⟩ <;> decide +kernel
  · refine ⟨(63), (wr (F.HST_HQnn_STAT_WAIT_ARMED.u 63) 1 witFull), ?_⟩ <;> decide +kernel
  · refine ⟨(63), (0), ({ fid := 0 }), ([]), (witPop), ?_, ?_, ?_, ?_, ?_, ?_, ?_, ?_, ?_, ?_, ?_⟩ <;> decide +kernel
  · refine ⟨(.pcie), (63), (7), (⟨735, 0, 0⟩), ({ witQueue 63 0 with hst := { stash := [(7, ⟨735, 0, 0⟩)] } }), ?_, ?_, ?_,
        ?_, ?_⟩ <;> decide +kernel
  · refine ⟨(15), (⟨735, 0, 0⟩), ({ witFull with hst := { stash := [(15, ⟨735, 0, 0⟩)] }, time := { loc := 10000000 } }),
        ?_, ?_⟩ <;> decide +kernel
  · refine ⟨({ witFull with pwr := { mode := 2 } }), ?_⟩ <;> decide +kernel
  · refine ⟨(witFull), ?_, ?_⟩ <;> decide +kernel
  · refine ⟨(0), (0), (4), (false), (.ok), ([0xA2, 0, 0x16, 0x96]), _, (witFull), ?_, ?_, ?_, witPair (by decide +kernel)⟩
        <;> decide +kernel
  · refine ⟨(0xFFFFFF), (zeros 4096), (witFull), ?_, ?_⟩ <;> decide +kernel
  · refine ⟨(0), (zeros 4), (witFull), ?_, ?_⟩ <;> decide +kernel
  · refine ⟨(0x130028), (0x130028), ([5, 0, 0, 0]), (false), ([]), _,
        ({ witFull with hst := { posted := [(0x130028, [5, 0, 0, 0])] } }), ?_, ?_, ?_, witPair (by decide +kernel)⟩ <;>
        decide +kernel
  · refine ⟨(witFull), ?_⟩ <;> decide +kernel
  · refine ⟨({ witFull with hst := { rstEn := true } }), ?_, ?_⟩ <;> decide +kernel
  · refine ⟨(1), (witSigs witFull), ?_, ?_, ?_, ?_, ?_⟩ <;> decide +kernel
  · refine ⟨(.core 3), (1), (0xFFFFFFFFFFFFFFFF), ({ witSigs witFull with time := { loc := 1 } }), ?_, ?_, ?_, ?_, ?_, ?_⟩
        <;> decide +kernel
  · refine ⟨(.core 0), (8191),
        (witRec C.sigPdu 8191 [8, 0, 4, 0, 0, 0, 0, 0, 0, 0, 0, 0, 0, 0, 0, 0, 0, 0, 0, 0, 0, 0, 0, 0, 0, 0, 0, 0, 15, 0, 0, 0, 0, 0, 0, 0, 0, 0, 0, 0] witFull),
        ?_, ?_, ?_, ?_, ?_, ?_, ?_⟩ <;> decide +kernel
  · refine ⟨(0x40040), (7), _, (wr F.QM_POP_TIMEOUT_COUNT 7 witFull), ?_, ?_, ?_, ?_, witPair (by decide +kernel)⟩ <;>
        decide +kernel
  · refine ⟨(.xspi), (0x130028), (7), (15), _, (witFull), ?_, witPair (by decide +kernel)⟩ <;> decide +kernel
  · refine ⟨(.pcie), (0), (0), (7), (15), (.denied), _, (witFull), ?_, ?_, witPair (by decide +kernel), ?_⟩ <;> decide
        +kernel

/-- States and operands that meet the hypotheses of each clause of Obligations.PowerRecorderAndDebugComplete, one by one, in the order of its clauses. -/
theorem witness_PowerRecorderAndDebugComplete :
    (∃ mv : Nat, ∃ s : State, (railsUp s = true) ∧ (mv < 650)) ∧
    (∃ s : State, (s.pwr.brown = true) ∧ (railsUp s = true) ∧ (s.pwr.dipAt + 1000000 ≤ s.time.loc)) ∧
    (∃ mv : Nat, ∃ s : State, (railsUp s = true) ∧ (rd F.PWR_STAT_DROOP s = 0) ∧ (mv < 700) ∧ (675 ≤ mv)) ∧
    (∃ mv : Nat, ∃ s : State, (railsUp s = true) ∧ (rd F.PWR_STAT_DROOP s = 0) ∧ (mv < 700) ∧ (675 ≤ mv)) ∧
    (∃ mv : Nat, ∃ s : State, (railsUp s = true) ∧ (rd F.PWR_STAT_DROOP s = 1) ∧ (mv < 700) ∧ (s.pwr.droopAt + 100 ≤
          s.time.loc)) ∧
    (∃ s : State, (railsUp s = true) ∧ (rd F.PWR_STAT_DROOP s ≠ 0) ∧ (s.pwr.lowAt + 1000 ≤ s.time.loc)) ∧
    (∃ x : TempSample, ∃ s : State, (railsUp s = true) ∧ (rd F.PWR_STAT_THERM s < thermReached (hottest [x.t0, x.t1, x.t2,
          x.t3]).2 s)) ∧
    (∃ s : State, (holdDue s = true) ∧ (0 < rd F.PWR_STAT_THERM s) ∧ (rd F.PWR_STAT_THERM s < 4)) ∧
    (∃ op : MramOp, ∃ s : State, (awake s = true) ∧ (s.sys.waitEnv = none) ∧ (s.mram.waiting = [op]) ∧ (op.isStart = false)
          ∧ ((mramNeed op).2 ≤ storedEnergy s) ∧ (s.sys.pageDue = false)) ∧
    (∃ n : Nat, ∃ q : Nat, ∃ l : List MramOp, ∃ s : State, (s.mram.started = .peerBase n q :: l)) ∧
    (∃ s : State, (s.pwr.wdtRun = true)) ∧
    (∃ n : Fin 4, ∃ v : Word, ∃ s : State, (reachable (.core n) s = true) ∧ (v.toNat / 65536 = 0x5AF0)) ∧
    (∃ s : State, (clearBits (beatingCores s) s.pwr.beats = 0)) ∧
    (∃ s : State, (isFull s = true) ∧ (awake s = true) ∧ (clearBits (beatingCores s) s.pwr.beats ≠ 0)) ∧
    (∃ s : State, (s.pwr.mode ≤ 2)) ∧
    (∃ u : State, ∃ s : State, (awake s = true) ∧ (recFlushTry s = (true, u))) ∧
    (∃ u : State, ∃ s : State, (awake s = true) ∧ (recFlushTry s = (false, u))) ∧
    (∃ u : State, ∃ s : State, (awake s = true) ∧ (s.rcd.flushing = true) ∧ (recFlushTry s = (true, u))) ∧
    (∃ s : State, (awake s = true) ∧ (s.rcd.shadow = none)) ∧
    (∃ i : Iface, ∃ s : State, (Admits (ifaceInit i) 0x140020 s) ∧ (s.rcd.shadow = none)) ∧
    (∃ b : RecImage, ∃ s : State, (awake s = true) ∧ (s.rcd.shadow = some b)) ∧
    (∃ c : BitVec 4, ∃ s : State, (awake s = true) ∧ (s.rcd.shadow = none)) ∧
    (∃ b : RecImage, ∃ s : State, (thawDue s = true) ∧ (s.rcd.shadow = some b)) ∧
    (∃ p : Fin 8192, ∃ req : List Byte, ∃ rsp : Nat, ∃ s : State, (awake s = true) ∧ (req.length = 8) ∧ (diagPair p s =
          some rsp) ∧ (byteAt req 0 = 1) ∧ (4 ≤ leAt req 2 2) ∧ (leAt req 2 2 + 8 ≤ pduN rsp 0 2 s) ∧ (leAt req 4 4 % 4 =
          0) ∧ (leAt req 4 4 + leAt req 2 2 ≤ 0x12000)) ∧
    (∃ who : Initiator, ∃ n : Fin 4, ∃ v : Word, ∃ s : State, (Admits who (0x150000 + 256 * n) s) ∧ ((hostOf who).isSome =
          true) ∧ (dbgOpen n s = true) ∧ (v.toNat / 65536 = 0xD3B6) ∧ (v.toNat % 4 = 1)) ∧
    (∃ who : Initiator, ∃ n : Fin 4, ∃ v : Word, ∃ s : State, (Admits who (0x150000 + 256 * n) s) ∧ ((hostOf who).isSome =
          true) ∧ (dbgOpen n s = true) ∧ (v.toNat / 65536 = 0xD3B6) ∧ (v.toNat % 4 = 2)) ∧
    (∃ who : Initiator, ∃ n : Fin 4, ∃ v : Word, ∃ s : State, (Admits who (0x150000 + 256 * n) s) ∧ ((hostOf who).isSome =
          true) ∧ (dbgOpen n s = true) ∧ (v.toNat / 65536 = 0xD3B6) ∧ (v.toNat % 4 = 3)) ∧
    (∃ who : Initiator, ∃ n : Fin 4, ∃ v : Word, ∃ s : State, (Admits who (0x15000C + 256 * n) s) ∧ ((hostOf who).isSome =
          true) ∧ (dbgOpen n s = true)) ∧
    (∃ n : Fin 4, ∃ a : Pass, ∃ s : State, ((core n s).fenced = false) ∧ ((core n s).halted = false) ∧ ((winNow n s).isSome
          = true) ∧ ((core n s).a = some a) ∧ (atBp n a s = true)) ∧
    (∃ mv : Nat, ∃ s : State, (railsUp s = true)) ∧
    (∃ i : Fin 8, ∃ s : State, (bit s.slp.active i = true) ∧ (s.pwr.mode = 2)) ∧
    (∃ port : Fin 32, ∃ d : Fin 4, ∃ a : Int, ∃ b : Int, ∃ s : State, (gptpOn d port s = true) ∧ (-5 ≤ a ∧ a ≤ 0) ∧ (-3 ≤ b
          ∧ b ≤ 3)) ∧
    (∃ port : Fin 32, ∃ d : Fin 4, ∃ a : Int, ∃ b : Int, ∃ s : State, (gptpOn d port s = true) ∧ (a < -5 ∨ 0 < a) ∧ (b < -3
          ∨ 3 < b)) := by
  refine ⟨?_, ?_, ?_, ?_, ?_, ?_, ?_, ?_, ?_, ?_, ?_, ?_, ?_, ?_, ?_, ?_, ?_, ?_, ?_, ?_, ?_, ?_, ?_, ?_, ?_, ?_, ?_, ?_, ?_, ?_, ?_, ?_, ?_⟩
  · refine ⟨(649), (witFull), ?_, ?_⟩ <;> decide +kernel
  · refine ⟨({ witFull with pwr := { mode := 0, brown := true }, time := { witFull.time with loc := 1000000 } }), ?_, ?_,
        ?_⟩ <;> decide +kernel
  · refine ⟨(699), (witFull), ?_, ?_, ?_, ?_⟩ <;> decide +kernel
  · refine ⟨(675), (witFull), ?_, ?_, ?_, ?_⟩ <;> decide +kernel
  · refine ⟨(699), (wr F.PWR_STAT_DROOP 1 { witFull with time := { witFull.time with loc := 100 } }), ?_, ?_, ?_, ?_⟩ <;>
        decide +kernel
  · refine ⟨(wr F.PWR_STAT_DROOP 2 { witFull with time := { witFull.time with loc := 1000 } }), ?_, ?_, ?_⟩ <;> decide
        +kernel
  · refine ⟨(⟨0, 310, 0, 0⟩), (witFull), ?_, ?_⟩ <;> decide +kernel
  · refine
        ⟨(wr F.PWR_STAT_THERM 3 { witFull with pwr := { mode := 0, holdRun := true }, time := { witFull.time with loc := 10000000000 } }),
        ?_, ?_, ?_⟩ <;> decide +kernel
  · refine ⟨(.peerBase 1 2), ({ witCharged with mram := { waiting := [.peerBase 1 2] } }), ?_, ?_, ?_, ?_, ?_, ?_⟩ <;>
        decide +kernel
  · refine ⟨(5), (9), ([]), ({ witFull with mram := { started := [.peerBase 5 9] } }), ?_⟩ <;> decide +kernel
  · refine ⟨({ witFull with pwr := { wdtRun := true } }), ?_⟩ <;> decide +kernel
  · refine ⟨(3), (0x5AF0000F), (witFull), ?_, ?_⟩ <;> decide +kernel
  · refine ⟨(witFull), ?_⟩ <;> decide +kernel
  · refine ⟨(witRec C.ctlSlot 0 [1, 0, 0, 0, 0, 0, 0, 1] witFull), ?_, ?_, ?_⟩ <;> decide +kernel
  · refine ⟨({ witFull with pwr := { mode := 2 } }), ?_⟩ <;> decide +kernel
  · refine ⟨_, (witCharged), ?_, witPair (by decide +kernel)⟩ <;> decide +kernel
  · refine ⟨_, (witFull), ?_, witPair (by decide +kernel)⟩ <;> decide +kernel
  · refine ⟨_, ({ witCharged with rcd := { flushing := true } }), ?_, ?_, witPair (by decide +kernel)⟩ <;> decide +kernel
  · refine ⟨(witFull), ?_, ?_⟩ <;> decide +kernel
  · refine ⟨(.xspi), (witFull), ?_, ?_⟩ <;> decide +kernel
  · refine ⟨({}), ({ witFull with rcd := { shadow := some {} } }), ?_, ?_⟩ <;> decide +kernel
  · refine ⟨(15), (witFull), ?_, ?_⟩ <;> decide +kernel
  · refine ⟨({}), ({ witFull with rcd := { shadow := some {} }, time := { witFull.time with loc := 2000000000 } }), ?_, ?_⟩
        <;> decide +kernel
  · refine ⟨(1), ([1, 0, 4, 0, 0, 0, 0, 0]), (2), (witDiag), ?_, ?_, ?_, ?_, ?_, ?_, ?_, ?_⟩ <;> decide +kernel
  · refine ⟨(.pcie), (3), (0xD3B60001), (wr F.CTL_DEBUG_OPEN 8 witFull), ?_, ?_, ?_, ?_, ?_⟩ <;> decide +kernel
  · refine ⟨(.pcie), (3), (0xD3B60002), (wr F.CTL_DEBUG_OPEN 8 witFull), ?_, ?_, ?_, ?_, ?_⟩ <;> decide +kernel
  · refine ⟨(.pcie), (3), (0xD3B60003), (wr F.CTL_DEBUG_OPEN 8 witFull), ?_, ?_, ?_, ?_, ?_⟩ <;> decide +kernel
  · refine ⟨(.xspi), (0), (0xFFFFFFFF), (wr F.CTL_DEBUG_OPEN 1 witFull), ?_, ?_, ?_⟩ <;> decide +kernel
  · refine ⟨(3), (witPass), (witBp), ?_, ?_, ?_, ?_, ?_⟩ <;> decide +kernel
  · refine ⟨(1300), (witFull), ?_⟩ <;> decide +kernel
  · refine ⟨(7), ({ witFull with pwr := { mode := 2 }, slp := { active := 128 } }), ?_, ?_⟩ <;> decide +kernel
  · refine ⟨(31), (3), (-5), (3), (witTime 3 31), ?_, ?_, ?_⟩ <;> decide +kernel
  · refine ⟨(31), (3), (1), (-4), (witTime 3 31), ?_, ?_, ?_⟩ <;> decide +kernel

/-- States and operands that meet the hypotheses of each clause of Obligations.StepTakesTheFrontCommand, one by one, in the order of its clauses. -/
theorem witness_StepTakesTheFrontCommand :
    (∃ c : Instr, ∃ r : List Instr, ∃ s : State, (s.pending = c :: r)) ∧
    (∃ s : State, (s.pending = []) ∧ (s.pwr.mode ≤ 2)) ∧
    (∃ s : State, (s.pending = []) ∧ (s.pwr.mode ≤ 2) ∧ (∀ p ∈ tkeys s.sig.pdus, (pduRun p s).again = false) ∧ (∀ c ∈ tkeys
          s.can.chans, (canCh c s).gone = false)) ∧
    (∃ s : State, (s.pending = []) ∧ (s.pwr.mode = 3)) ∧
    (∃ s : State, (s.pending = []) ∧ (3 < s.pwr.mode)) := by
  refine ⟨?_, ?_, ?_, ?_, ?_⟩
  · refine ⟨(.cellTime none), ([.ppsOut]), ({ witFull with pending := [.cellTime none, .ppsOut] }), ?_⟩ <;> decide +kernel
  · refine ⟨(witFull), ?_, ?_⟩ <;> decide +kernel
  · refine ⟨(pduSet 5 {} (canSet 3 { slot := some (268, 0) } witFull)), ?_, ?_, (by decide +kernel), (by decide +kernel)⟩
        <;> decide +kernel
  · refine ⟨({ witFull with pwr := { mode := 3 } }), ?_, ?_⟩ <;> decide +kernel
  · refine ⟨(State.reset), ?_, ?_⟩ <;> decide +kernel

/-- States and operands that meet the hypotheses of each clause of Obligations.ReservedRegisterBitsReadZero, one by one, in the order of its clauses. -/
theorem witness_ReservedRegisterBitsReadZero :
    ∃ via : View, ∃ fx : Bool, ∃ a : Nat, ∃ n : Nat, ∃ m : Nat, ∃ v : Nat, ∃ k : Nat, ∃ d : RegD, ∃ s : State, (findReg a
          regMap = some (d, n, m)) ∧ ((regRead via fx a s).1 = some v) ∧ (a < 0x1000000) ∧ (¬ (0x1000 ≤ a ∧ a < 0x2000)) ∧
          (¬ (0x101000 ≤ a ∧ a < 0x102000)) ∧ (¬ (0xF2000 ≤ a ∧ a < 0xFC000)) ∧ (¬ (0x138000 ≤ a ∧ a < 0x138400)) ∧ (¬
          (0x138800 ≤ a ∧ a < 0x138808)) ∧ (∀ f ∈ d.fields, ¬ (f.lo ≤ k ∧ k < f.lo + f.w)) := by
  refine ⟨(.bar0), (true), (0), (0), (0), (0x961600A2), (8), ((regMap.head?.getD ⟨0, 0, 0, 0, 0, []⟩)), (witFull), (rfl),
        ?_, ?_, ?_, ?_, ?_, ?_, ?_, ?_⟩ <;> decide +kernel

/-- States and operands that meet the hypotheses of each clause of Obligations.LocalClockOnlyTicks, one by one, in the order of its clauses. -/
theorem witness_LocalClockOnlyTicks :
    (∃ s : State, (s.pending = []) ∧ (s.pwr.mode ≤ 2)) ∧
    (∃ pin : Bool, ∃ env : StartEnv, ∃ s : State, (s.pwr.mode ≠ 4) ∧ (pin = true ∨ s.sys.request ≠ none)) ∧
    (∃ env : StartEnv, ∃ s : State, (s.pwr.mode = 3) ∧ (s.slp.inh = true) ∧ (sleepEntering s = false)) ∧
    (∃ c : Instr, ∃ s : State, ∃ t : State, (exec c s = .next t)) := by
  refine ⟨?_, ?_, ?_, ?_⟩
  · refine ⟨(witFull), ?_, ?_⟩ <;> decide +kernel
  · refine ⟨(true), (witEnv), (witFull), ?_, ?_⟩ <;> decide +kernel
  · refine ⟨(witEnv), ({ witFull with pwr := { mode := 3 }, slp := { inh := true, entry := 5000000 } }), ?_, ?_, ?_⟩ <;>
        decide +kernel
  · exact ⟨(.suppliesRemoved), (witFull), (outState (exec .suppliesRemoved witFull) witFull), (rfl)⟩

/-- States and operands that meet the hypotheses of each clause of Obligations.SideBandFaultFollowsThreeScans, one by one, in the order of its clauses. -/
theorem witness_SideBandFaultFollowsThreeScans :
    (∃ v : BitVec 256, ∃ s : State, (sbsRuns s = true) ∧ (bit v.toNat 254 = true ∨ bit v.toNat 255 = false)) ∧
    (∃ v : BitVec 256, ∃ s : State, (sbsRuns s = true) ∧ (bit v.toNat 254 = true ∨ bit v.toNat 255 = false)) ∧
    (∃ v1 : BitVec 256, ∃ v2 : BitVec 256, ∃ v3 : BitVec 256, ∃ s : State, (sbsRuns s = true) ∧ (s.sbs.bad = 0) ∧ (∀ v ∈
          [v1, v2, v3], bit v.toNat 254 = true ∨ bit v.toNat 255 = false)) ∧
    (∃ v0 : BitVec 256, ∃ v1 : BitVec 256, ∃ v2 : BitVec 256, ∃ v3 : BitVec 256, ∃ s : State, (sbsRuns s = true) ∧ (bit
          v0.toNat 254 = true ∨ bit v0.toNat 255 = false) ∧ (∀ v ∈ [v1, v2, v3], bit v.toNat 254 = false ∧ bit v.toNat 255
          = true)) := by
  refine ⟨?_, ?_, ?_, ?_⟩
  · refine ⟨(0), (witSbs), ?_, ?_⟩ <;> decide +kernel
  · refine ⟨(BitVec.ofNat 256 (2 ^ 255 + 2 ^ 254)), (witSbs), ?_, ?_⟩ <;> decide +kernel
  · refine ⟨(0), (BitVec.ofNat 256 (2 ^ 255 + 2 ^ 254)), (0), (witSbs), ?_, ?_,
        (by intro v h; simp only [List.mem_cons, List.not_mem_nil, or_false] at h; rcases h with rfl | rfl | rfl <;> decide +kernel)⟩
        <;> decide +kernel
  · refine ⟨(0), (BitVec.ofNat 256 (2 ^ 255 + 1)), (BitVec.ofNat 256 (2 ^ 255)), (BitVec.ofNat 256 (2 ^ 255)), (witSbs),
        ?_, ?_,
        (by intro v h; simp only [List.mem_cons, List.not_mem_nil, or_false] at h; rcases h with rfl | rfl | rfl <;> decide +kernel)⟩
        <;> decide +kernel

/-- States and operands that meet the hypotheses of each clause of Obligations.NoCommandTouchesTheQueue, one by one, in the order of its clauses. -/
theorem witness_NoCommandTouchesTheQueue :
    ∃ c : Instr, ∃ s : State, ∃ t : State, (exec c s = .next t) := by
  exact ⟨(.suppliesRemoved), (witFull), (outState (exec .suppliesRemoved witFull) witFull), (rfl)⟩

/-- States and operands that meet the hypotheses of each clause of Obligations.WellFormedCommandsNeverStop, one by one, in the order of its clauses. -/
theorem witness_WellFormedCommandsNeverStop :
    (∃ c : Instr, ∃ s : State, (c.wf = true)) ∧
    (∃ c : Instr, ∃ s : State, (c.wf = false)) := by
  refine ⟨?_, ?_⟩
  · refine ⟨(.cellTime none), (witFull), ?_⟩ <;> decide +kernel
  · refine ⟨(.write 0 []), (witFull), ?_⟩ <;> decide +kernel

/-- States and operands that meet the hypotheses of each clause of Obligations.PowerModeFollowsItsTable, one by one, in the order of its clauses. -/
theorem witness_PowerModeFollowsItsTable :
    ∃ c : Instr, ∃ s : State, ∃ t : State, (exec c s = .next t) := by
  exact ⟨(.suppliesRemoved), (witFull), (outState (exec .suppliesRemoved witFull) witFull), (rfl)⟩

/-- States and operands that meet the hypotheses of each clause of Obligations.PlateFlashIsWrittenOnlyInItsRegions, one by one, in the order of its clauses. -/
theorem witness_PlateFlashIsWrittenOnlyInItsRegions :
    (∃ s : State, ∃ t : State, (SessionOk s.sys.session) ∧ (step s = .next t)) ∧
    (∃ n : Nat, ∃ s : State, ∃ t : State, (SessionOk s.sys.session) ∧ (Runs n s t)) := by
  refine ⟨?_, ?_⟩
  · exact ⟨(witStaging), (outState (step witStaging) witStaging), (by intro y h; cases h; decide), (rfl)⟩
  · exact ⟨(0), (witFull), (witFull), (by intro y h; cases h), (.zero _)⟩

/-- States and operands that meet the hypotheses of each clause of Obligations.LifeCycleCounterNeverFalls, one by one, in the order of its clauses. -/
theorem witness_LifeCycleCounterNeverFalls :
    (∃ c : Instr, ∃ s : State, ∃ t : State, (exec c s = .next t)) ∧
    (∃ n : Nat, ∃ s : State, ∃ t : State, (Runs n s t)) := by
  refine ⟨?_, ?_⟩
  · exact ⟨(.suppliesRemoved), (witFull), (outState (exec .suppliesRemoved witFull) witFull), (rfl)⟩
  · exact ⟨(0), (witFull), (witFull), (.zero _)⟩

/-- States and operands that meet the hypotheses of each clause of Obligations.PlateRecordsComeFromStartsOnly, one by one, in the order of its clauses. -/
theorem witness_PlateRecordsComeFromStartsOnly :
    ∃ c : Instr, ∃ s : State, ∃ t : State, (exec c s = .next t) ∧ (stage s ≠ 7) ∧ (stage s ≠ 8) := by
  refine ⟨(.suppliesRemoved), (witFull), (outState (exec .suppliesRemoved witFull) witFull), (rfl), ?_, ?_⟩ <;> decide
        +kernel

end Sys2Proof.Machine.Tests
end

namespace Sys2Proof.Machine

/-! ### What a read of a register gives (R6, R8, R9) -/

/-- A read at BAR0 offset a touches a register: neither a table window nor a buffer nor the MSI-X table lies there
(R513, R514). -/
def InRegisters (a : Nat) : Prop :=
  a < 0x1000000 ∧ ¬ (0x1000 ≤ a ∧ a < 0x2000) ∧ ¬ (0x101000 ≤ a ∧ a < 0x102000) ∧ ¬ (0xF2000 ≤ a ∧ a < 0xFC000) ∧
    ¬ (0x138000 ≤ a ∧ a < 0x138400) ∧ ¬ (0x138800 ≤ a ∧ a < 0x138808)

/-- KEY_CMD_STAT as the cores see it: the status of their own mailbox (R393). -/
def coreCmdStat (s : State) : Nat :=
  s.key.coreStat.1 % 65536 * 65536 + s.key.coreStat.2.1 % 256 * 256 + s.key.coreStat.2.2 % 256

theorem coreCmdStat_lt (s : State) : coreCmdStat s < 2 ^ 32 := by
  unfold coreCmdStat; omega

/-- The value of unit n, m of register d at offset a through a view: the cores see their own KEY_CMD_STAT. -/
def shownTo (via : View) (a : Nat) (d : RegD) (n m : Nat) (s : State) : Nat := match via with
  | .core _ => if a = 0x100104 then coreCmdStat s else regShown d n m s
  | _ => regShown d n m s

theorem shownTo_cases (via : View) (a : Nat) (d : RegD) (n m : Nat) (s : State) :
    shownTo via a d n m s = regShown d n m s ∨ (a = 0x100104 ∧ shownTo via a d n m s = coreCmdStat s) := by
  cases via with
  | core k =>
    by_cases ha : a = 0x100104
    · exact .inr ⟨ha, if_pos ha⟩
    · exact .inl (if_neg ha)
  | _ => exact .inl rfl

/-- A read at a register answers the value shown, latches the related registers, and clears RC fields where the read has
side effects (R518, R519). -/
theorem regRead_register (via : View) (fx : Bool) {a n m : Nat} {d : RegD} (s : State) (ha : InRegisters a)
    (hf : findReg a regMap = some (d, n, m)) :
    regRead via fx a s =
      (some (shownTo via a d n m s), if fx then regClear d n m (regLatch d n s) else regLatch d n s) := by
  obtain ⟨hw, hs, hm, hc, ht, hp⟩ := ha
  unfold regRead
  rw [if_neg (by omega), if_neg hs, if_neg hm, if_neg hc, if_neg (by omega), hf]
  cases via <;> rfl

theorem fieldShown_lt (f : Field) (n m : Nat) (s : State) : fieldShown f n m s < 2 ^ f.w := by
  unfold fieldShown
  split
  · exact Nat.two_pow_pos _
  · exact Nat.mod_lt _ (Nat.two_pow_pos _)

theorem mem_of_findReg {a n m : Nat} {d : RegD} {l : List RegD} (h : findReg a l = some (d, n, m)) : d ∈ l := by
  induction l with
  | nil => cases h
  | cons e r ih =>
    unfold findReg at h
    split at h
    · cases h; exact List.mem_cons_self
    · exact List.mem_cons_of_mem _ (ih h)

/-! ### Reserved bits (R9) -/

/-- The fields of every register stand from the highest bits down and do not overlap. -/
theorem regMap_fields_descend : ∀ d ∈ regMap, d.fields.Pairwise fun f g => g.lo + g.w ≤ f.lo := by decide +kernel

section
variable {l : List Field} {x : Field → Nat} (hx : ∀ f, x f < 2 ^ f.w)
include hx

/-- Fields that end below bit b add up to less than 2^b. -/
theorem sum_fields_lt {b : Nat} (hl : l.Pairwise fun f g => g.lo + g.w ≤ f.lo) (hb : ∀ f ∈ l, f.lo + f.w ≤ b) :
    (l.map fun f => x f * 2 ^ f.lo).sum < 2 ^ b := by
  induction l generalizing b with
  | nil => exact Nat.two_pow_pos b
  | cons f r ih =>
    obtain ⟨hfr, hr⟩ := List.pairwise_cons.mp hl
    have low := ih hr hfr
    have hfb := hb f List.mem_cons_self
    calc ((f :: r).map fun f => x f * 2 ^ f.lo).sum
        = x f * 2 ^ f.lo + (r.map fun f => x f * 2 ^ f.lo).sum := by simp
      _ < (x f + 1) * 2 ^ f.lo := by rw [Nat.add_one_mul]; omega
      _ ≤ 2 ^ f.w * 2 ^ f.lo := Nat.mul_le_mul_right _ (hx f)
      _ = 2 ^ (f.lo + f.w) := by rw [Nat.pow_add, Nat.mul_comm]
      _ ≤ 2 ^ b := Nat.pow_le_pow_right (by omega) hfb

/-- A bit that no field covers is 0 in the sum of the fields. -/
theorem testBit_sum_fields {k : Nat} (hl : l.Pairwise fun f g => g.lo + g.w ≤ f.lo)
    (hk : ∀ f ∈ l, ¬ (f.lo ≤ k ∧ k < f.lo + f.w)) : (l.map fun f => x f * 2 ^ f.lo).sum.testBit k = false := by
  induction l with
  | nil => exact Nat.zero_testBit k
  | cons f r ih =>
    obtain ⟨hfr, hr⟩ := List.pairwise_cons.mp hl
    have low := sum_fields_lt hx hr hfr
    rw [List.map_cons, List.sum_cons, Nat.mul_comm, Nat.testBit_two_pow_mul_add _ low]
    split
    · exact ih hr fun g hg => hk g (List.mem_cons_of_mem _ hg)
    · have outside := hk f List.mem_cons_self
      exact Nat.testBit_lt_two_pow (Nat.lt_of_lt_of_le (hx f) (Nat.pow_le_pow_right (by omega) (by omega)))

end

theorem regShown_reserved {d : RegD} (hd : d ∈ regMap) (n m : Nat) (s : State) {k : Nat}
    (hk : ∀ f ∈ d.fields, ¬ (f.lo ≤ k ∧ k < f.lo + f.w)) : (regShown d n m s).testBit k = false :=
  testBit_sum_fields (fun f => fieldShown_lt f n m s) (regMap_fields_descend d hd) hk

/-- KEY_CMD_STAT has a field at each of its 32 bits. -/
theorem keyCmdStat_covered {n m k : Nat} {d : RegD} (hf : findReg 0x100104 regMap = some (d, n, m))
    (hk : ∀ f ∈ d.fields, ¬ (f.lo ≤ k ∧ k < f.lo + f.w)) : 32 ≤ k := by
  have hm : (findReg 0x100104 regMap).map (·.1.fields) =
    some [F.KEY_CMD_STAT_LENGTH, F.KEY_CMD_STAT_CODE, F.KEY_CMD_STAT_STATUS] := by decide +kernel
  have hd : d.fields = [F.KEY_CMD_STAT_LENGTH, F.KEY_CMD_STAT_CODE, F.KEY_CMD_STAT_STATUS] := by simpa [hf] using hm
  simp [hd, F.KEY_CMD_STAT_LENGTH, F.KEY_CMD_STAT_CODE, F.KEY_CMD_STAT_STATUS] at hk
  omega

/-- Settles O35: a register shows the sum of its fields in their places, which do not overlap; the cores' KEY_CMD_STAT, the
one value not formed so, has no reserved bit. -/
theorem reservedRegisterBitsReadZero : Obligations.ReservedRegisterBitsReadZero := by
  unfold Obligations.ReservedRegisterBitsReadZero
  intro via fx a n m v k d s hf hv hw hs hm hc ht hp hk
  rw [regRead_register via fx s ⟨hw, hs, hm, hc, ht, hp⟩ hf] at hv
  obtain rfl : shownTo via a d n m s = v := Option.some.inj hv
  rcases shownTo_cases via a d n m s with h | ⟨rfl, h⟩ <;> rw [h]
  · exact regShown_reserved (mem_of_findReg hf) n m s hk
  · have hk32 : 32 ≤ k := keyCmdStat_covered hf hk
    exact Nat.testBit_lt_two_pow (Nat.lt_of_lt_of_le (coreCmdStat_lt s) (Nat.pow_le_pow_right (by omega) hk32))

/-! ### SYS_ID (R6) -/

/-- The map's entry of SYS_ID. -/
def sysId : RegD := ⟨0, 1, 0, 1, 0, [F.SYS_ID_PART, F.SYS_ID_REV]⟩

theorem findReg_sysId : findReg 0 regMap = some (sysId, 0, 0) := rfl

theorem fieldShown_sysIdPart (s : State) : fieldShown F.SYS_ID_PART 0 0 s = 0x9616 := by
  simp [fieldShown, fieldLive, F.SYS_ID_PART]

theorem fieldShown_sysIdRev (s : State) : fieldShown F.SYS_ID_REV 0 0 s = 0xA2 := by
  simp [fieldShown, fieldLive, F.SYS_ID_PART, F.SYS_ID_REV]

theorem regShown_sysId (s : State) : regShown sysId 0 0 s = 0x961600A2 := by
  simp only [regShown, sysId, List.map_cons, List.map_nil, List.sum_cons, List.sum_nil, fieldShown_sysIdPart,
    fieldShown_sysIdRev]
  rfl

theorem regLatch_sysId (s : State) : regLatch sysId 0 s = s := rfl

theorem regClear_sysId (s : State) : regClear sysId 0 0 s = s := rfl

/-- Settles O34: the fields of SYS_ID show the part and revision numbers, and a read neither latches nor clears a field. -/
theorem identificationRegisterReadsTheRevision : Obligations.IdentificationRegisterReadsTheRevision := by
  unfold Obligations.IdentificationRegisterReadsTheRevision
  intro via fx s
  have hv : shownTo via 0 sysId 0 0 s = 0x961600A2 := by
    rcases shownTo_cases via 0 sysId 0 0 s with h | ⟨h, -⟩
    · rw [h, regShown_sysId]
    · cases h
  rw [regRead_register via fx s (by unfold InRegisters; omega) findReg_sysId, hv, regLatch_sysId, regClear_sysId, ite_self]

end Sys2Proof.Machine

namespace Sys2Proof.Machine

/-! ### The commands that reach no plate record (R13, R61) -/

@[simp] theorem enterStandby_cfg (s : State) : (enterStandby s).cfg = s.cfg := by simp [enterStandby]

@[simp] theorem enterSleep_cfg (s : State) : (enterSleep s).cfg = s.cfg := by simp [enterSleep]

@[simp] theorem deviceSleep_cfg (s : State) : (deviceSleep s).cfg = s.cfg := by
  simp only [deviceSleep]; (repeat' split) <;> simp

@[simp] theorem sleepEntry_cfg (cand : Nat) (s : State) : (sleepEntry cand s).cfg = s.cfg := by simp [sleepEntry]

@[simp] theorem execCommitPoint_cfg (s : State) : (outState (execCommitPoint s) s).cfg = s.cfg := by simp [execCommitPoint]

@[simp] theorem execIdle_cfg (s : State) : (outState (execIdle s) s).cfg = s.cfg := by simp [execIdle]

@[simp] theorem execIdleResume_cfg (s : State) : (outState (execIdleResume s) s).cfg = s.cfg := by simp [execIdleResume]

@[simp] theorem execStandbyResume_cfg (s : State) : (outState (execStandbyResume s) s).cfg = s.cfg := by
  simp [execStandbyResume]

/-- The commands with a way to the plate's records in force: the starts and what lets a start go on, the removal of the
supplies, RECOVER_START, and the writes through which a host reaches SYS_STAGE_CTRL. -/
def mayReachPlate : Instr → Bool
  | .powerOnReset _ | .warmReset _ _ | .wakeStart _ | .startWatchdog | .tamperHoldCleared _ | .mramRetry | .suppliesRemoved
  | .recoverStart _ _ | .registerWrite _ _ _ _ | .writeApplied => true
  | _ => false

/-- Every other command leaves the plate's records: each case is the frame lemma of the command's own operation. -/
theorem exec_cfg_of_not_mayReachPlate (c : Instr) (s : State) (h : mayReachPlate c = false) :
    (outState (exec c s) s).cfg = s.cfg := by
  cases c with
  | powerOnReset | warmReset | wakeStart | startWatchdog | tamperHoldCleared | mramRetry | suppliesRemoved
  | recoverStart | registerWrite | writeApplied => cases h
  | _ => simp

/-! ### Writes that reach SYS_STAGE_CTRL (R67, R514) -/

@[simp] theorem stage_recoverEnv (s : State) : stage (recoverEnv s).2 = stage s := rfl

/-- Outside the halted and recovery states RECOVER_START is refused (R67). -/
theorem stageRecover_cfg (env : StartEnv) (s : State) (h7 : stage s ≠ 7) (h8 : stage s ≠ 8) :
    (stageRecover env s).cfg = s.cfg := by
  simp [stageRecover, h7, h8]

theorem execRecoverStart_cfg (who : Iface) (env : StartEnv) (s : State) (h7 : stage s ≠ 7) (h8 : stage s ≠ 8) :
    (outState (execRecoverStart who env s) s).cfg = s.cfg := by
  simp [execRecoverStart, stageRecover_cfg env s h7 h8]

theorem stageCtrlWrite_cfg (who : Initiator) (v : Nat) (s : State) (h7 : stage s ≠ 7) (h8 : stage s ≠ 8) :
    (stageCtrlWrite who v s).2.cfg = s.cfg := by
  refine stageCommand_cfg _ _ _ ?_
  split
  case h_5 => exact (stageRecover_cfg _ (recoverEnv s).2 h7 h8).trans (by simp)
  all_goals simp

/-- A word written anywhere but to SYS_STAGE_CTRL leaves the plate's records. -/
theorem regWrite_cfg_of_ne (who : Initiator) (a v en : Nat) (s : State) (h : a ≠ 0x30) :
    (regWrite who a v en s).2.cfg = s.cfg := by
  have ha : a ≠ F.SYS_STAGE_CTRL_CMD.addr := h
  simp [regWrite, ha]

theorem regWrite_cfg (who : Initiator) (a v en : Nat) (s : State) (h7 : stage s ≠ 7) (h8 : stage s ≠ 8) :
    (regWrite who a v en s).2.cfg = s.cfg := by
  by_cases ha : a = 0x30
  · simp [regWrite, stageCtrlWrite_cfg who v s h7 h8]
  · exact regWrite_cfg_of_ne who a v en s ha

theorem execRegisterWrite_cfg (who : Initiator) (addr : Nat) (v : Word) (en : BitVec 4) (s : State) (h7 : stage s ≠ 7)
    (h8 : stage s ≠ 8) : (outState (execRegisterWrite who addr v en s) s).cfg = s.cfg := by
  simp [execRegisterWrite, regWrite_cfg who addr v.toNat en.toNat s h7 h8]

theorem wordWrite_cfg_of_ne (who : Initiator) (a v : Nat) (s : State) (h : a ≠ 0x30) :
    (wordWrite who a v s).2.cfg = s.cfg := by
  unfold wordWrite
  split
  · rfl
  · exact regWrite_cfg_of_ne who a v 15 s h

/-- A host's write whose bytes do not cover SYS_STAGE_CTRL leaves the plate's records. -/
theorem wordsWrite_cfg (who : Initiator) (a : Nat) (b : List Byte) (s : State) (h : ¬ (a ≤ 0x30 ∧ 0x30 < a + b.length)) :
    (wordsWrite who a b s).2.cfg = s.cfg := by
  unfold wordsWrite
  split
  · rfl
  · refine List.foldlRecOn (motive := fun r : Status × State => r.2.cfg = s.cfg) _ _ rfl fun r hr k hk => ?_
    have hk := List.mem_range.mp hk
    exact (wordWrite_cfg_of_ne who (a + 4 * k) _ r.2 (by omega)).trans hr

/-- The oldest posted xSPI write covers SYS_STAGE_CTRL. -/
def PostedCoversStageCtrl (s : State) : Prop :=
  ∃ addr b v a, s.hst.posted.head? = some (addr, b) ∧ xspiAddr addr s = .space v a ∧ a ≤ 0x30 ∧ 0x30 < a + b.length

theorem execWriteApplied_cfg (s : State) :
    (outState (execWriteApplied s) s).cfg = s.cfg ∨ PostedCoversStageCtrl s := by
  rcases hp : s.hst.posted with _ | ⟨⟨addr, b⟩, r⟩
  · simp [execWriteApplied, hp]
  · have hsame : xspiAddr addr { s with hst := { s.hst with posted := r } } = xspiAddr addr s := rfl
    simp only [execWriteApplied, hp, hsame, outState_next]
    cases hx : xspiAddr addr s with
    | space v a =>
      by_cases hc : a ≤ 0x30 ∧ 0x30 < a + b.length
      · exact .inr ⟨addr, b, v, a, by simp [hp], hx, hc⟩
      · left
        simp only
        split
        · simp [wordsWrite_cfg .xspi a b _ hc]
        · rfl
    | _ => simp

/-- Settles O43: starts apart, each command keeps the plate's records by its own frame lemma; a write reaches them through
SYS_STAGE_CTRL alone, where RECOVER_START is refused outside the halted and recovery states. -/
theorem plateRecordsComeFromStartsOnly : Obligations.PlateRecordsComeFromStartsOnly := by
  unfold Obligations.PlateRecordsComeFromStartsOnly
  intro c s t h h7 h8
  obtain rfl : t = outState (exec c s) s := by rw [h, outState_next]
  cases c with
  | powerOnReset | warmReset | wakeStart | startWatchdog | tamperHoldCleared | mramRetry | suppliesRemoved =>
    exact .inr trivial
  | writeApplied => exact execWriteApplied_cfg s
  | recoverStart who env => exact .inl (execRecoverStart_cfg who env s h7 h8)
  | registerWrite who addr v en => exact .inl (execRegisterWrite_cfg who addr v en s h7 h8)
  | _ => exact .inl (exec_cfg_of_not_mayReachPlate _ s rfl)

end Sys2Proof.Machine

namespace Sys2Proof.Machine

/-! ### What a step does: the front command, or one tick (R15, R79) -/

theorem step_of_pending_cons {c : Instr} {r : List Instr} {s : State} (h : s.pending = c :: r) :
    step s = exec c { s with pending := r } := by
  unfold step; rw [h]

theorem step_of_pending_nil {s : State} (h : s.pending = []) : step s = .next (idleTick s) := by
  unfold step; rw [h]

theorem step_withCommand (c : Instr) (s : State) : step (s.withCommand c) = exec c s :=
  step_of_pending_cons rfl

theorem withFetchWord_eq_self (nbits w : Nat) (s : State) : s.withFetchWord nbits w = s := rfl

/-! ### The idle tick by power mode (R219, R245, R292, R433) -/

/-- The first part of the idle tick: the shaped classes' credits and the clocks. -/
def clockTick (s : State) : State := timeTick (each (List.range 16) creditTick s)

theorem idleTick_of_running {s : State} (h : s.pwr.mode ≤ 2) :
    idleTick s = each (tkeys s.sig.pdus) pduSettle (each (tkeys s.can.chans) canSettle (clockTick s)) := if_pos h

theorem idleTick_of_sleep {s : State} (h : s.pwr.mode = 3) :
    idleTick s = { s with slp := { s.slp with entry := s.slp.entry + 4 } } :=
  (if_neg (by omega)).trans (if_pos h)

theorem idleTick_of_off {s : State} (h : 3 < s.pwr.mode) : idleTick s = s :=
  (if_neg (by omega)).trans (if_neg (by omega))

@[simp] theorem clockTick_loc (s : State) : (clockTick s).time.loc = (s.time.loc + 4) % 2 ^ 64 := by simp [clockTick]

theorem idleTick_loc {s : State} (h : s.pwr.mode ≤ 2) : (idleTick s).time.loc = (s.time.loc + 4) % 2 ^ 64 := by
  simp [idleTick_of_running h]

/-- In any mode a tick keeps the queue, the power mode, the plate's records, the plate flash and the staging session. -/
theorem idleTick_keep (s : State) :
    (idleTick s).pending = s.pending ∧ (idleTick s).pwr.mode = s.pwr.mode ∧ (idleTick s).cfg = s.cfg ∧
      (idleTick s).sys.flash = s.sys.flash ∧ (idleTick s).sys.session = s.sys.session := by
  unfold idleTick; split
  · simp
  · split <;> simp

/-! ### A tick reaches nothing but time and ports when no slot and no PDU settles -/

/-- The state but for the time base and the Ethernet ports, where the clocks and the credits are held. -/
def besideTimeEth (s : State) : State := { s with time := {}, eth := {} }

theorem eq_with_time_eth_iff (s t : State) :
    t = { s with time := t.time, eth := t.eth } ↔ besideTimeEth t = besideTimeEth s := by
  cases s; cases t; simp [besideTimeEth]

theorem each_besideTimeEth {α : Type} (l : List α) (f : α → State → State) (s : State)
    (h : ∀ a s, besideTimeEth (f a s) = besideTimeEth s) : besideTimeEth (each l f s) = besideTimeEth s :=
  foldl_keepP l (fun s a => f a s) besideTimeEth (fun s a => h a s) s

theorem creditTick_besideTimeEth (p : Nat) (s : State) : besideTimeEth (creditTick p s) = besideTimeEth s := by
  unfold creditTick; split <;> rfl

theorem domSet_besideTimeEth (d : Nat) (c : DomClk) (s : State) : besideTimeEth (domSet d c s) = besideTimeEth s := rfl

theorem timeTick_besideTimeEth (s : State) : besideTimeEth (timeTick s) = besideTimeEth s := by
  have enabled (l : List Nat) (s : State) :
      besideTimeEth (each l (fun d s => domSet d (domTick (slewLimit s) (dom d s)) s) s) = besideTimeEth s :=
    each_besideTimeEth l _ s fun d s => domSet_besideTimeEth d _ s
  simp only [timeTick]
  split
  · exact enabled _ _
  · exact (domSet_besideTimeEth 0 _ _).trans (enabled _ _)

theorem clockTick_besideTimeEth (s : State) : besideTimeEth (clockTick s) = besideTimeEth s :=
  (timeTick_besideTimeEth _).trans (each_besideTimeEth _ _ s creditTick_besideTimeEth)

theorem each_eq_self {α : Type} {l : List α} {f : α → State → State} {s : State} (h : ∀ a ∈ l, f a s = s) :
    each l f s = s :=
  List.foldlRecOn (motive := fun t => t = s) l (fun t a => f a t) rfl fun _ ht a ha => ht ▸ h a ha

/-- A slot whose frame no flush took stays as it is (R245). -/
theorem canSettle_eq_self {ch : Nat} {s : State} (h : (canCh ch s).gone = false) : canSettle ch s = s := by
  simp [canSettle, when, h]

/-- A PDU without a merged due event stays as it is (R292). -/
theorem pduSettle_eq_self {p : Nat} {s : State} (h : (pduRun p s).again = false) : pduSettle p s = s := by
  simp [pduSettle, when, pduLeft, h]

theorem canCh_besideTimeEth (ch : Nat) (s : State) : canCh ch (besideTimeEth s) = canCh ch s := rfl

theorem pduRun_besideTimeEth (p : Nat) (s : State) : pduRun p (besideTimeEth s) = pduRun p s := rfl

theorem canCh_clockTick (ch : Nat) (s : State) : canCh ch (clockTick s) = canCh ch s := by
  rw [← canCh_besideTimeEth, clockTick_besideTimeEth, canCh_besideTimeEth]

theorem pduRun_clockTick (p : Nat) (s : State) : pduRun p (clockTick s) = pduRun p s := by
  rw [← pduRun_besideTimeEth, clockTick_besideTimeEth, pduRun_besideTimeEth]

/-- With no flushed slot and no merged PDU, the tick is that of the credits and the clocks alone. -/
theorem idleTick_eq_clockTick {s : State} (hm : s.pwr.mode ≤ 2) (hp : ∀ p ∈ tkeys s.sig.pdus, (pduRun p s).again = false)
    (hc : ∀ c ∈ tkeys s.can.chans, (canCh c s).gone = false) : idleTick s = clockTick s := by
  have slots : each (tkeys s.can.chans) canSettle (clockTick s) = clockTick s :=
    each_eq_self fun c hmem => canSettle_eq_self (by rw [canCh_clockTick, hc c hmem])
  have pdus : each (tkeys s.sig.pdus) pduSettle (clockTick s) = clockTick s :=
    each_eq_self fun p hmem => pduSettle_eq_self (by rw [pduRun_clockTick, hp p hmem])
  rw [idleTick_of_running hm, slots, pdus]

/-- Settles O32: a step is the front command or the idle tick, whose parts keep all but the clocks and the ports; the slots
and the PDUs to settle are read from what the clocks leave alone. -/
theorem stepTakesTheFrontCommand : Obligations.StepTakesTheFrontCommand := by
  unfold Obligations.StepTakesTheFrontCommand
  refine ⟨fun c r s h => step_of_pending_cons h, step_withCommand, fun s h hm => ?running, fun s h hm hp hc => ?clocks,
    fun s h hm => ?sleep, fun s h hm => ?off, fun nbits w s => ⟨rfl, withFetchWord_eq_self nbits w s⟩⟩
  case running =>
    obtain ⟨hq, hmode, hcfg, hflash, hsession⟩ := idleTick_keep s
    exact ⟨idleTick s, step_of_pending_nil h, idleTick_loc hm, hq.trans h, hmode, hcfg, hflash, hsession⟩
  case clocks =>
    refine ⟨clockTick s, ?_, (eq_with_time_eth_iff s _).mpr (clockTick_besideTimeEth s)⟩
    rw [step_of_pending_nil h, idleTick_eq_clockTick hm hp hc]
  case sleep => rw [step_of_pending_nil h, idleTick_of_sleep hm]
  case off => rw [step_of_pending_nil h, idleTick_of_off hm]

end Sys2Proof.Machine

namespace Sys2Proof.Machine

/-! ### The commands that write the plate flash or the staging session (R66–R69) -/

/-- Every command keeps the session within its copy and writes only the staged regions: the starts and what goes on with
one, the staging commands, the entry into SLEEP and the host's word writes by their own flash lemmas; every other command
leaves session and flash as they are. -/
theorem exec_flash (c : Instr) (s : State) : FlashStep s (outState (exec c s) s) := by
  cases c with
  | powerOnReset env => exact execPowerOnReset_flash env s
  | warmReset pin env => exact execWarmReset_flash pin env s
  | wakeStart env => exact execWakeStart_flash env s
  | startWatchdog => exact execStartWatchdog_flash s
  | tamperHoldCleared env => exact execTamperHoldCleared_flash env s
  | mramRetry => exact execMramRetry_flash s
  | startRecordRetry => exact execStartRecordRetry_flash s
  | suppliesRemoved => exact execSuppliesRemoved_flash s
  | openStage who copyB => exact execOpen_flash who copyB s
  | stageWrite who => exact execStageWrite_flash who s
  | abortStage who => exact execAbort_flash who s
  | recoverStart who env => exact execRecoverStart_flash who env s
  | stageCommandDone => exact execStageCommandDone_flash s
  | commitPoint => exact execCommitPoint_flash s
  | registerWrite who addr v en => exact execRegisterWrite_flash who addr v en s
  | writeApplied => exact execWriteApplied_flash s
  | _ => exact FlashStep.of _ _ (by simp) (by simp)

/-- A step, of a command or of a tick, keeps the session within its copy and writes only the staged regions. -/
theorem step_flash {s t : State} (h : step s = .next t) : FlashStep s t := by
  cases hq : s.pending with
  | nil =>
    obtain rfl : idleTick s = t := by simpa [step_of_pending_nil hq] using h
    obtain ⟨-, -, -, hflash, hsession⟩ := idleTick_keep s
    exact FlashStep.of _ _ hsession hflash
  | cons c r =>
    rw [step_of_pending_cons hq] at h
    obtain rfl : outState (exec c { s with pending := r }) { s with pending := r } = t := by rw [h, outState_next]
    exact (FlashStep.of s { s with pending := r } rfl rfl).trans (exec_flash c _)

theorem runs_flash {n : Nat} {s t : State} (h : Runs n s t) : FlashStep s t := by
  induction h with
  | zero s => exact FlashStep.refl s
  | succ n s t u hstep _ ih => exact (step_flash hstep).trans ih

/-- Settles O41: each command keeps the session within its copy and the flash outside the staged regions by its own flash
lemma; a step is a command or a tick, and a run composes its steps. -/
theorem plateFlashIsWrittenOnlyInItsRegions : Obligations.PlateFlashIsWrittenOnlyInItsRegions := by
  unfold Obligations.PlateFlashIsWrittenOnlyInItsRegions
  refine ⟨fun s t hs h => ?step, fun n s t hs h => ?run⟩
  case step => exact (step_flash h).ok hs
  case run =>
    obtain ⟨hsession, -, hkept⟩ := (runs_flash h).ok hs
    exact ⟨hsession, hkept⟩

end Sys2Proof.Machine

namespace Sys2Proof.Machine

/-! ### What a reset keeps (R36, R66, R369) -/

@[simp] theorem keepCold_session (s : State) : (keepCold s).sys.session = none := rfl

@[simp] theorem keepWarm_session (s : State) : (keepWarm s).sys.session = none := rfl

@[simp] theorem keepCold_lcCount (s : State) : (keepCold s).key.lcCount = s.key.lcCount :=
  (show (keepCold s).key.lcCount = (mramCompleteAll s).key.lcCount from rfl).trans (by simp)

@[simp] theorem keepWarm_lcCount (s : State) : (keepWarm s).key.lcCount = s.key.lcCount :=
  (show (keepWarm s).key.lcCount = (mramCompleteAll (mramCompleteAll s)).key.lcCount from rfl).trans (by simp)

@[simp] theorem keepCold_sys_flash (s : State) : (keepCold s).sys.flash = s.sys.flash :=
  (show (keepCold s).sys.flash = (mramCompleteAll s).sys.flash from rfl).trans (by simp)

/-- From s to t the device has been started: it is in ACTIVE without a staging session, and the life-cycle counter and the
waiting commands are those of s (R45, R66, R369). -/
def Started (s t : State) : Prop :=
  t.pwr.mode = 0 ∧ t.sys.session = none ∧ t.key.lcCount = s.key.lcCount ∧ t.pending = s.pending

theorem execPowerOnReset_started (env : StartEnv) (s : State) : Started s (outState (execPowerOnReset env s) s) := by
  refine ⟨execPowerOnReset_mode env s, ?_, ?_, execPowerOnReset_keep env s⟩
  all_goals simp only [execPowerOnReset, outState_next]; split <;> simp

theorem execWarmReset_started (pin : Bool) (env : StartEnv) (s : State) (hm : s.pwr.mode ≠ 4)
    (hr : pin = true ∨ s.sys.request.isSome = true) : Started s (outState (execWarmReset pin env s) s) := by
  have acts : ¬ (s.pwr.mode = 4 ∨ (pin = false ∧ s.sys.request = none)) := by
    rintro (h | ⟨rfl, h⟩)
    · exact hm h
    · simp [h] at hr
  simp [Started, execWarmReset, acts, startBegin_mode]

theorem execWakeStart_started (env : StartEnv) (s : State) (hm : s.pwr.mode = 3) (hi : s.slp.inh = true)
    (he : sleepEntering s = false) : Started s (outState (execWakeStart env s) s) := by
  have acts : s.pwr.mode = 3 ∧ s.slp.inh = true ∧ sleepEntering s = false := ⟨hm, hi, he⟩
  refine ⟨by rw [execWakeStart_mode, if_pos acts], ?_, ?_, execWakeStart_keep env s⟩
  all_goals
    simp only [execWakeStart, outState_next, if_pos acts]
    repeat' split
    all_goals simp

/-- Settles O1: a start goes on from what its reset keeps, and its steps keep session, life-cycle counter and queue. -/
theorem startsBringTheDeviceUp : Obligations.StartsBringTheDeviceUp := by
  unfold Obligations.StartsBringTheDeviceUp
  refine ⟨fun env s => ?por, fun pin env s hm hr => ?wrst, fun env s hm hi he => ?wake, fun s => ?off⟩
  case por => exact ⟨_, rfl, execPowerOnReset_started env s⟩
  case wrst => exact ⟨_, rfl, execWarmReset_started pin env s hm hr⟩
  case wake => exact ⟨_, rfl, execWakeStart_started env s hm hi he⟩
  case off =>
    exact ⟨keepCold s, rfl, keepCold_mode s, rfl, rfl, keepCold_sys_flash s, keepCold_lcCount s, keepCold_keep s⟩

/-! ### The state at reset (R45, R69, R420) -/

/-- Settles O33: State.reset holds an empty queue, an erased flash and no session. -/
theorem resetHoldsTheInvariants : Obligations.ResetHoldsTheInvariants := by
  unfold Obligations.ResetHoldsTheInvariants
  exact ⟨rfl, rfl, SessionOk.none, rfl, rfl, fun _ => rfl, rfl, rfl⟩

end Sys2Proof.Machine

namespace Sys2Proof.Machine

/-! ### Register reads after an operation -/

/-- A value that fits its field reads back as written. -/
theorem rd_wr_of_lt {f : Field} {v : Nat} (s : State) (h : v < 2 ^ f.w) (hw : f.w ≤ 32) : rd f (wr f v s) = v := by
  have fits : v < 2 ^ 32 := Nat.lt_of_lt_of_le h (Nat.pow_le_pow_right (by omega) hw)
  rw [rd_wr_same, Nat.mod_eq_of_lt h, Nat.mod_eq_of_lt fits]

theorem RegsKept.refl (l : List Field) (s : State) : RegsKept l s s := fun _ _ => rfl

theorem RegsKept.trans {l m : List Field} {s t u : State} (h : RegsKept l s t) (k : RegsKept m t u) :
    RegsKept (l ++ m) s u :=
  fun g hg => (k g fun f hf => hg f (List.mem_append_right l hf)).trans
    (h g fun f hf => hg f (List.mem_append_left m hf))

theorem RegsKept.of_regs {s t : State} (h : t.regs = s.regs) : RegsKept [] s t := fun g _ => rd_congr g s t h

theorem RegsKept.to_regs {l : List Field} {s t u : State} (h : RegsKept l s t) (hu : u.regs = t.regs) :
    RegsKept l s u := fun g hg => (rd_congr g t u hu).trans (h g hg)

theorem RegsKept.mono {l m : List Field} {s t : State} (h : RegsKept l s t) (hm : ∀ f ∈ l, f ∈ m) : RegsKept m s t :=
  fun g hg => h g fun f hf => hg f (hm f hf)

theorem regsKept_wr (f : Field) (v : Nat) (s : State) : RegsKept [f] s (wr f v s) :=
  fun g hg => rd_wr_ne g f v s (hg f (List.mem_singleton_self f))

/-! ### The staging status (R66, R67) -/

@[simp] theorem sessionShow_session (x : Option Session) (s : State) : (sessionShow x s).sys.session = x := by
  cases x <;> rfl

@[simp] theorem rd_sessionShow_session (x : Option Session) (s : State) :
    rd F.SYS_STAGE_STAT_SESSION (sessionShow x s) = b2n x.isSome := by
  cases x with
  | none => exact rd_wrB_same _ _ _ (by decide)
  | some x => exact (rd_wr_ne _ F.SYS_STAGE_STAT_COPY _ _ (by decide)).trans (rd_wrB_same _ _ _ (by decide))

theorem sessionShow_none_regsKept (s : State) : RegsKept [F.SYS_STAGE_STAT_SESSION] s (sessionShow none s) :=
  regsKept_wr F.SYS_STAGE_STAT_SESSION 0 { s with sys := { s.sys with session := none } }

theorem sessionShow_regsKept (x : Option Session) (s : State) :
    RegsKept [F.SYS_STAGE_STAT_SESSION, F.SYS_STAGE_STAT_COPY] s (sessionShow x s) := by
  cases x with
  | none => exact (sessionShow_none_regsKept s).mono (by simp)
  | some x =>
    exact (regsKept_wr F.SYS_STAGE_STAT_SESSION 1 { s with sys := { s.sys with session := some x } }).trans
      (regsKept_wr F.SYS_STAGE_STAT_COPY _ _)

theorem rd_stageStatus (st : Status) (s : State) : rd F.SYS_STAGE_STAT_STATUS (stageStatus st s) = st.code := by
  rw [stageStatus, rd_wr_same]; cases st <;> rfl

theorem rd_stageStatus_ne {g : Field} (st : Status) (s : State) (h : g.key ≠ F.SYS_STAGE_STAT_STATUS.key) :
    rd g (stageStatus st s) = rd g s := rd_wr_ne _ _ _ _ h

theorem stageStatus_regsKept (st : Status) (s : State) : RegsKept [F.SYS_STAGE_STAT_STATUS] s (stageStatus st s) :=
  regsKept_wr _ _ s

@[simp] theorem stageBusy_done (cmd : Nat) (st : Status) (code : Nat) (s : State) :
    (stageBusy cmd st code s).sys.done = some (cmd, st.code, code) := rfl

@[simp] theorem rd_stageBusy_status (cmd : Nat) (st : Status) (code : Nat) (s : State) :
    rd F.SYS_STAGE_STAT_STATUS (stageBusy cmd st code s) = Status.busy.code := rd_stageStatus _ _

theorem stageBusy_regsKept (cmd : Nat) (st : Status) (code : Nat) (s : State) :
    RegsKept [F.SYS_STAGE_STAT_STATUS] s (stageBusy cmd st code s) :=
  stageStatus_regsKept .busy { s with sys := { s.sys with done := some (cmd, st.code, code) } }

@[simp] theorem rd_stageBusy_session (cmd : Nat) (st : Status) (code : Nat) (s : State) :
    rd F.SYS_STAGE_STAT_SESSION (stageBusy cmd st code s) = rd F.SYS_STAGE_STAT_SESSION s :=
  rd_stageStatus_ne .busy _ (by decide)

theorem pageWrite_regsKept (copyB : Bool) (req result reason state : Nat) (digest : List Byte) (s : State) :
    RegsKept [F.SYS_STAGE_STAT_PENDING] s (pageWrite copyB req result reason state digest s) :=
  (RegsKept.of_regs rfl).trans (regsKept_wr F.SYS_STAGE_STAT_PENDING _ _)

theorem pageOutcome_regsKept (result reason : Nat) (s : State) :
    RegsKept [F.SYS_STAGE_STAT_PENDING] s (pageOutcome result reason s) := by
  unfold pageOutcome
  split
  · exact RegsKept.refl _ s
  · exact pageWrite_regsKept _ _ _ _ _ _ s

/-! ### A staging command touches the registers, the host status and the staging state alone (R66, R69) -/

/-- The state but for the registers, the host interfaces and the start's own part. -/
def besideStaging (s : State) : State := { s with regs := [], hst := {}, sys := {} }

theorem eq_with_regs_hst_sys_iff (s t : State) :
    t = { s with regs := t.regs, hst := t.hst, sys := t.sys } ↔ besideStaging t = besideStaging s := by
  cases s; cases t; simp [besideStaging]

theorem hst_besideStaging (h : Hst) (s : State) : besideStaging { s with hst := h } = besideStaging s := rfl

theorem pageOutcome_besideStaging (result reason : Nat) (s : State) :
    besideStaging (pageOutcome result reason s) = besideStaging s := by
  unfold pageOutcome; split <;> rfl

/-! ### A write that the device takes (R64, R477) -/

/-- A write that reaches the block and succeeds does its own operation; a host status follows. -/
theorem hostWrite_ok {who : Initiator} {a : Nat} {f : State → Status × State} {s u : State} (ha : Admits who a s)
    (hf : f s = (.ok, u)) :
    ∃ t, hostWrite who a f s = t ∧ t.regs = u.regs ∧ t.sys = u.sys ∧ t = { u with hst := t.hst } := by
  obtain ⟨hreach, hgate⟩ := ha
  have hopen : (if (hostOf who).isSome then hostGate true a s else none) = none := by
    split
    · exact hgate ‹_›
    · rfl
  have heq : hostWrite who a f s = writeDone who a (.ok, u) := by simp [hostWrite, hreach, hopen, hf]
  have hok := writeDone_ok who a u
  exact ⟨_, heq, by rw [hok], by rw [hok], hok⟩

/-- An interface that may stage is served while no staging command runs (R66). -/
theorem stageCommand_taken {who : Initiator} {s : State} (f : State → State) (hm : mayStage who s = true)
    (hd : s.sys.done = none) : stageCommand who f s = (.ok, f s) := by
  simp [stageCommand, hm, hd]

/-! ### OPEN (R67, R69) -/

theorem le_cdiv_mul (a b : Nat) (h : 0 < b) : a ≤ cdiv a b * b := by
  unfold cdiv
  have := Nat.div_add_mod (a + b - 1) b
  have := Nat.mod_lt (a + b - 1) h
  rw [Nat.mul_comm]; omega

theorem le_eraseLen (P : Nat) : P ≤ eraseLen P := by
  have blocks := le_cdiv_mul P 65536 (by omega)
  have sectors := le_cdiv_mul (P - 255 * 65536) 4096 (by omega)
  unfold eraseLen
  split
  · exact blocks
  · exact Nat.sub_le_iff_le_add'.mp sectors

theorem flashErase_erased {a n k : Nat} (s : State) (hl : a ≤ k) (hh : k < a + n) :
    tget 0xFF (flashErase a n s).sys.flash k = 0xFF :=
  tget_tfilter_drop 0xFF s.sys.flash (fun k _ => decide (k < a) || decide (a + n ≤ k)) k fun _ => by
    simp [Nat.not_lt.mpr hl, Nat.not_le.mpr hh]

theorem stageOpened_session (c : Bool) (P : Nat) (s : State) : (stageOpened c P s).sys.session = some ⟨c, P, []⟩ := by
  simp [stageOpened]

theorem stageOpened_done (c : Bool) (P : Nat) (s : State) : (stageOpened c P s).sys.done = some (1, 0, 0) := rfl

theorem rd_stageOpened_status (c : Bool) (P : Nat) (s : State) :
    rd F.SYS_STAGE_STAT_STATUS (stageOpened c P s) = Status.busy.code := rd_stageBusy_status _ _ _ _

theorem rd_stageOpened_session (c : Bool) (P : Nat) (s : State) :
    rd F.SYS_STAGE_STAT_SESSION (stageOpened c P s) = 1 := by
  simp [stageOpened, b2n]

theorem stageOpened_erased {c : Bool} {P k : Nat} (s : State) (hl : copyBase c ≤ k) (hh : k < copyBase c + P) :
    tget 0xFF (stageOpened c P s).sys.flash k = 0xFF := by
  have covered := le_eraseLen P
  simpa [stageOpened] using flashErase_erased _ hl (Nat.lt_of_lt_of_le hh (Nat.add_le_add_left covered _))

theorem stageOpened_regsKept (c : Bool) (P : Nat) (s : State) :
    RegsKept [F.SYS_STAGE_STAT_STATUS, F.SYS_STAGE_STAT_SESSION, F.SYS_STAGE_STAT_COPY] s (stageOpened c P s) := by
  have erased : RegsKept [] s (flashErase (copyBase c) (eraseLen P) { s with sys := { s.sys with closedB := none } }) :=
    RegsKept.of_regs rfl
  exact ((erased.trans (sessionShow_regsKept _ _)).trans (stageBusy_regsKept _ _ _ _)).mono (by simp)

/-- A request that waits in the staging page is withdrawn. -/
def pageTaken (s : State) : State := if (pageRequest s).isSome then pageOutcome 0 0 s else s

theorem pageTaken_regsKept (s : State) : RegsKept [F.SYS_STAGE_STAT_PENDING] s (pageTaken s) := by
  unfold pageTaken
  split
  · exact pageOutcome_regsKept 0 0 s
  · exact RegsKept.refl _ s

theorem pageTaken_besideStaging (s : State) : besideStaging (pageTaken s) = besideStaging s := by
  unfold pageTaken; split
  · exact pageOutcome_besideStaging 0 0 s
  · rfl

theorem stageOpen_eq {copyB : Bool} {s : State} (hs : s.sys.session = none) (hl : 256 ≤ rd F.SYS_STAGE_ARG_ARG s)
    (hh : rd F.SYS_STAGE_ARG_ARG s ≤ copyMax) :
    stageOpen copyB s = stageOpened (if stageFree s then copyB else rd F.SYS_BOOT_STAT_COPY s == 0)
      (rd F.SYS_STAGE_ARG_ARG s) (pageTaken s) := by
  simp [stageOpen, pageTaken, hs, Nat.not_lt.mpr hl, Nat.not_lt.mpr hh]

theorem stageOpened_besideStaging (c : Bool) (P : Nat) (s : State) :
    besideStaging (stageOpened c P s) = besideStaging s := rfl

/-! ### WRITE (R67, R69) -/

theorem tsorted_tset {α : Type} [DecidableEq α] (d : α) (t : Tbl α) (k : Nat) (v : α) (h : tsorted t = true) :
    tsorted (tset d t k v) = true := by
  unfold tset; split
  · exact tsorted_terase t k h
  · exact tsorted_tput t k v h

theorem tget_tset {α : Type} [DecidableEq α] (d : α) (t : Tbl α) (k j : Nat) (v : α) (h : tsorted t = true) :
    tget d (tset d t k v) j = if j = k then v else tget d t j := by
  split
  next hj => rw [hj, tget_tset_same d t k v h]
  next hj => exact tget_tset_ne d t k j v hj

theorem tsorted_foldl_tset {α β : Type} [DecidableEq α] (d : α) (k : β → Nat) (v : β → α) (l : List β) (t : Tbl α)
    (h : tsorted t = true) : tsorted (l.foldl (fun t b => tset d t (k b) (v b)) t) = true :=
  List.foldlRecOn (motive := fun t => tsorted t = true) l _ h fun _ ht _ _ => tsorted_tset _ _ _ _ ht

/-- n entries written from key a on: their keys read as written, every other key as before. -/
theorem tget_foldl_tset {α : Type} [DecidableEq α] (d : α) (v : Nat → α) (a n : Nat) (t : Tbl α)
    (h : tsorted t = true) (j : Nat) :
    tget d ((List.range n).foldl (fun t k => tset d t (a + k) (v k)) t) j =
      if a ≤ j ∧ j < a + n then v (j - a) else tget d t j := by
  induction n with
  | zero => exact (if_neg (by omega)).symm
  | succ n ih =>
    have hsorted := tsorted_foldl_tset d (a + ·) v (List.range n) t h
    simp only [List.range_succ, List.foldl_append, List.foldl_cons, List.foldl_nil]
    rw [tget_tset _ _ _ _ _ hsorted, ih]
    by_cases hj : j = a + n
    · subst hj; simp
    · have same : (a ≤ j ∧ j < a + (n + 1)) ↔ (a ≤ j ∧ j < a + n) := by omega
      simp only [if_neg hj, same]

theorem byteAt_map_range {n k : Nat} (f : Nat → Byte) (h : k < n) :
    BitVec.ofNat 8 (byteAt ((List.range n).map f) k) = f k := by
  simp [byteAt, h]

/-- The flash after n bytes of a buffer are programmed at a (R69). -/
theorem flashPut_read {s : State} (h : tsorted s.sys.flash = true) (a n : Nat) (f : Nat → Byte) (j : Nat) :
    tget 0xFF (flashPut a ((List.range n).map f) s).sys.flash j =
      if a ≤ j ∧ j < a + n then f (j - a) else tget 0xFF s.sys.flash j := by
  have hput := tget_foldl_tset 0xFF (fun k => BitVec.ofNat 8 (byteAt ((List.range n).map f) k)) a n _ h j
  simp only [flashPut, List.length_map, List.length_range, hput]
  split
  next hj => exact byteAt_map_range f (by omega)
  next => rfl

/-- A page of the buffer is programmed in a session, which then is x; the command takes its time (R67). -/
def stageProgrammed (x : Session) (a n : Nat) (s : State) : State :=
  stageBusy 2 .ok 0 (sessionShow (some x) (flashPut a ((List.range n).map fun k => tget 0 s.sys.bufBytes k) s))

theorem stageProgrammed_session (x : Session) (a n : Nat) (s : State) :
    (stageProgrammed x a n s).sys.session = some x := by simp [stageProgrammed]

theorem stageProgrammed_done (x : Session) (a n : Nat) (s : State) :
    (stageProgrammed x a n s).sys.done = some (2, 0, 0) := rfl

theorem stageProgrammed_besideStaging (x : Session) (a n : Nat) (s : State) :
    besideStaging (stageProgrammed x a n s) = besideStaging s := rfl

theorem stageProgrammed_read (x : Session) (a n : Nat) {s : State} (h : tsorted s.sys.flash = true) (j : Nat) :
    tget 0xFF (stageProgrammed x a n s).sys.flash j =
      if a ≤ j ∧ j < a + n then tget 0 s.sys.bufBytes (j - a) else tget 0xFF s.sys.flash j := by
  rw [← flashPut_read h]
  simp [stageProgrammed]

theorem rd_stageProgrammed_status (x : Session) (a n : Nat) (s : State) :
    rd F.SYS_STAGE_STAT_STATUS (stageProgrammed x a n s) = Status.busy.code := rd_stageBusy_status _ _ _ _

theorem stageProgrammed_regsKept (x : Session) (a n : Nat) (s : State) :
    RegsKept [F.SYS_STAGE_STAT_STATUS, F.SYS_STAGE_STAT_SESSION, F.SYS_STAGE_STAT_COPY] s (stageProgrammed x a n s) := by
  have put : RegsKept [] s (flashPut a ((List.range n).map fun k => tget 0 s.sys.bufBytes k) s) := RegsKept.of_regs rfl
  exact ((put.trans (sessionShow_regsKept _ _)).trans (stageBusy_regsKept _ _ _ _)).mono (by simp)

theorem stageWriteCmd_eq {x : Session} {s : State} (hs : s.sys.session = some x)
    (ho : rd F.SYS_STAGE_ARG_ARG s % 4096 = 0) (hl : rd F.SYS_STAGE_ARG_ARG s < x.len)
    (hw : rd F.SYS_STAGE_ARG_ARG s ∉ x.written) :
    stageWriteCmd s = stageProgrammed { x with written := rd F.SYS_STAGE_ARG_ARG s :: x.written }
      (copyBase x.copyB + rd F.SYS_STAGE_ARG_ARG s) (min 4096 (x.len - rd F.SYS_STAGE_ARG_ARG s)) s := by
  simp [stageWriteCmd, stageProgrammed, hs, ho, hw, Nat.not_le.mpr hl]

/-! ### CLOSE and ABORT (R67) -/

theorem stageClose_eq {x : Session} {s : State} (hs : s.sys.session = some x) :
    stageClose s = stageBusy 3 (if closeCode x.copyB s = 0 then .ok else .fault) (closeCode x.copyB s) s := by
  simp [stageClose, hs]

theorem stageAbort_eq {s : State} (hs : s.sys.session.isSome = true) :
    stageAbort s = stageStatus .ok (sessionShow none s) := by
  obtain ⟨x, hx⟩ := Option.isSome_iff_exists.mp hs
  simp [stageAbort, hx]

/-- Settles O2: a command that the device takes is its own operation; the equation of each operation gives session, status
and flash, and the frame lemmas of its parts the rest. -/
theorem stagingCommandsComplete : Obligations.StagingCommandsComplete := by
  unfold Obligations.StagingCommandsComplete
  refine ⟨fun who copyB s ha hm hd hs hl hh => ?opened, fun who x s ha hm hd hs ho hl hw hf => ?write,
    fun who x s ha hm hd hs => ?close, fun who s ha hm hd hs => ?abort⟩
  case opened =>
    obtain ⟨t, heq, hregs, hsys, hrest⟩ := hostWrite_ok ha (stageCommand_taken (stageOpen copyB) hm hd)
    rw [stageOpen_eq hs hl hh] at hregs hsys hrest
    refine ⟨t, congrArg Host.Outcome.next heq, ?_, ?_, ?_, ?_, fun a hlo hhi => ?_, ?_, ?_⟩
    · rw [hsys, stageOpened_session]
    · rw [hsys, stageOpened_done]
    · rw [rd_congr _ _ _ hregs, rd_stageOpened_status]
    · rw [rd_congr _ _ _ hregs, rd_stageOpened_session]
    · rw [hsys, stageOpened_erased _ hlo hhi]
    · exact (((pageTaken_regsKept s).trans (stageOpened_regsKept _ _ _)).mono (by simp)).to_regs hregs
    · rw [eq_with_regs_hst_sys_iff, hrest, hst_besideStaging, stageOpened_besideStaging, pageTaken_besideStaging]
  case write =>
    obtain ⟨t, heq, hregs, hsys, hrest⟩ := hostWrite_ok ha (stageCommand_taken stageWriteCmd hm hd)
    rw [stageWriteCmd_eq hs ho hl hw] at hregs hsys hrest
    refine ⟨t, congrArg Host.Outcome.next heq, ?_, ?_, ?_, fun a => ?_, ?_, ?_⟩
    · rw [hsys, stageProgrammed_session]
    · rw [hsys, stageProgrammed_done]
    · rw [rd_congr _ _ _ hregs, rd_stageProgrammed_status]
    · rw [hsys, stageProgrammed_read _ _ _ hf]
    · exact (stageProgrammed_regsKept _ _ _ s).to_regs hregs
    · rw [eq_with_regs_hst_sys_iff, hrest, hst_besideStaging, stageProgrammed_besideStaging]
  case close =>
    obtain ⟨t, heq, hregs, hsys, hrest⟩ := hostWrite_ok ha (stageCommand_taken stageClose hm hd)
    rw [stageClose_eq hs] at hregs hsys hrest
    refine ⟨t, congrArg Host.Outcome.next heq, ?_, ?_, ?_, ?_⟩
    · rw [hsys, stageBusy_done]
    · rw [rd_congr _ _ _ hregs, rd_stageBusy_status]
    · exact (stageBusy_regsKept _ _ _ s).to_regs hregs
    · rw [hrest]; rfl
  case abort =>
    obtain ⟨t, heq, hregs, hsys, hrest⟩ := hostWrite_ok ha (stageCommand_taken stageAbort hm hd)
    rw [stageAbort_eq hs] at hregs hsys hrest
    refine ⟨t, congrArg Host.Outcome.next heq, ?_, ?_, ?_, ?_, ?_⟩
    · rw [hsys]; rfl
    · rw [rd_congr _ _ _ hregs, rd_stageStatus]; rfl
    · rw [rd_congr _ _ _ hregs, rd_stageStatus_ne _ _ (by decide), rd_sessionShow_session]; rfl
    · exact (((sessionShow_none_regsKept s).trans (stageStatus_regsKept .ok _)).mono (by simp)).to_regs hregs
    · rw [hrest]; rfl

end Sys2Proof.Machine

namespace Sys2Proof.Machine

/-! ### Stages and failures of a start (R74–R77) -/

@[simp] theorem setStage_pwr (n : Nat) (s : State) : (setStage n s).pwr = s.pwr := by
  unfold setStage; split <;> simp

theorem stage_setStage {n : Nat} (hn : n < 16) (s : State) : stage (setStage n s) = n := by
  unfold setStage
  split
  next h => exact h
  next => rw [stage, rd_irqCause, if_neg (by decide), rd_wr_of_lt s hn (by decide)]

theorem setStage_regsKept (n : Nat) (s : State) :
    RegsKept [F.SYS_BOOT_STAT_STAGE, F.HST_IRQ_STAGE] s (setStage n s) := by
  unfold setStage
  split
  · exact (RegsKept.refl [] s).mono (by simp)
  · exact ((regsKept_wr _ n s).trans (regsKept_wr F.HST_IRQ_STAGE 1 _)).to_regs (irqCause_regs _ _)

theorem gateSilent_regsKept (n : Nat) (s : State) : RegsKept [F.PWR_STAT_SILENT] s (gateSilent n s) :=
  fun g hg => by rw [rd_gateSilent, if_neg (hg _ (List.mem_singleton_self _))]

theorem assertFault_regsKept (s : State) : RegsKept [F.PWR_STAT_FAULT] s (assertFault s) :=
  fun g hg => by rw [rd_assertFault, if_neg (hg _ (List.mem_singleton_self _))]

theorem startHalt_regsKept (s : State) :
    RegsKept [F.PWR_STAT_SILENT, F.PWR_STAT_FAULT, F.SYS_BOOT_STAT_STAGE, F.HST_IRQ_STAGE] s (startHalt s) :=
  (((gateSilent_regsKept 4 s).trans (assertFault_regsKept _)).trans (setStage_regsKept 7 _)).to_regs rfl

theorem stage_startHalt (s : State) : stage (startHalt s) = 7 := stage_setStage (by omega) _

theorem startHalt_running (s : State) : (startHalt s).sys.running = false := rfl

theorem startHalt_pwr (s : State) :
    (startHalt s).pwr = { s.pwr with gated := true, sbsClrN := false, faultN := true } := by
  simp [startHalt, startOver, assertFault]

theorem startFail_regs (copy code : Nat) (s : State) :
    (startFail copy code s).regs = (wr F.SYS_BOOT_STAT_FAIL_COPY copy (wr F.SYS_BOOT_STAT_FAIL_CODE code s)).regs := by
  simp [startFail, nextEra]

theorem rd_startFail_code {code : Nat} (copy : Nat) (s : State) (h : code < 256) :
    rd F.SYS_BOOT_STAT_FAIL_CODE (startFail copy code s) = code := by
  rw [rd_congr _ _ _ (startFail_regs copy code s), rd_wr_ne _ _ _ _ (by decide), rd_wr_of_lt s h (by decide)]

theorem rd_startFail_copy {copy : Nat} (code : Nat) (s : State) (h : copy < 4) :
    rd F.SYS_BOOT_STAT_FAIL_COPY (startFail copy code s) = copy := by
  rw [rd_congr _ _ _ (startFail_regs copy code s), rd_wr_of_lt _ h (by decide)]

/-- START_WATCHDOG before a copy has been tried (R74). -/
theorem execStartWatchdog_of_untried {s : State} (hr : s.sys.running = true) (ht : s.sys.trying = none) :
    execStartWatchdog s = .next (startHalt (startFail 3 0x11 s)) := by
  simp [execStartWatchdog, hr, ht]

/-! ### TAMPER_HOLD_CLEARED (R390) -/

/-- The start as a cleared tamper hold lets it go on. -/
def holdCleared (s : State) : State :=
  tamperQuiet 2 (wr F.KEY_TAMPER_STAT_ACTIVE 0 { s with sys := { s.sys with held := false } })

theorem holdCleared_regsKept (s : State) : RegsKept [F.KEY_TAMPER_STAT_ACTIVE] s (holdCleared s) :=
  regsKept_wr F.KEY_TAMPER_STAT_ACTIVE 0 { s with sys := { s.sys with held := false } }

theorem rd_holdCleared_active (s : State) : rd F.KEY_TAMPER_STAT_ACTIVE (holdCleared s) = 0 :=
  rd_wr_same F.KEY_TAMPER_STAT_ACTIVE 0 { s with sys := { s.sys with held := false } }

theorem execTamperHoldCleared_of_held {env : StartEnv} {s : State} (hh : s.sys.held = true) (hr : s.sys.request = none)
    (ht : env.tamper = 0) : execTamperHoldCleared env s = .next (startGo env (holdCleared s)) := by
  simp [execTamperHoldCleared, hh, hr, ht, holdCleared]

theorem startGo_of_recovery {env : StartEnv} {s : State} (hb : rd F.SYS_STRAP_BOOT_SEL s = 2) (hl : lcState s ≠ 5) :
    startGo env s = startOver (setStage 8 s) := by
  simp [startGo, hb, hl]

/-! ### RECOVER_START (R67) -/

theorem recoverBegin_session (s : State) : (recoverBegin s).sys.session = none := by simp [recoverBegin]

theorem stageRecover_session {env : StartEnv} {s : State} (h : stage s = 7 ∨ stage s = 8) :
    (stageRecover env s).sys.session = none := by
  have may : ¬ (stage s ≠ 7 ∧ stage s ≠ 8) := by omega
  simp [stageRecover, may, recoverBegin_session]

/-! ### STAGE_COMMAND_DONE (R66–R68) -/

/-- The running command's flash work is over and its status byte replaces BUSY. -/
def stageShown (st : Nat) (s : State) : State :=
  wr F.SYS_STAGE_STAT_STATUS st { s with sys := { s.sys with done := none } }

theorem rd_stageShown_status {st : Nat} (s : State) (h : st < 256) :
    rd F.SYS_STAGE_STAT_STATUS (stageShown st s) = st := rd_wr_of_lt _ h (by decide)

theorem stageShown_regsKept (st : Nat) (s : State) : RegsKept [F.SYS_STAGE_STAT_STATUS] s (stageShown st s) :=
  regsKept_wr F.SYS_STAGE_STAT_STATUS st { s with sys := { s.sys with done := none } }

theorem execStageCommandDone_eq {cmd st code : Nat} {s : State} (h : s.sys.done = some (cmd, st, code)) :
    execStageCommandDone s =
      .next (if cmd = 3 then closeEnd st code (stageShown st s) else stageShown st s) := by
  simp [execStageCommandDone, h, stageShown]

/-- The session is over and the verify code of its CLOSE shows. -/
def closeShown (code : Nat) (s : State) : State := wr F.SYS_STAGE_STAT_VERIFY_CODE code (sessionShow none s)

theorem rd_closeShown_code {code : Nat} (s : State) (h : code < 256) :
    rd F.SYS_STAGE_STAT_VERIFY_CODE (closeShown code s) = code := rd_wr_of_lt _ h (by decide)

theorem closeShown_regsKept (code : Nat) (s : State) :
    RegsKept [F.SYS_STAGE_STAT_SESSION, F.SYS_STAGE_STAT_VERIFY_CODE] s (closeShown code s) :=
  (sessionShow_none_regsKept s).trans (regsKept_wr _ _ _)

theorem closeEnd_of_failed {st code : Nat} {x : Session} {s : State} (hs : s.sys.session = some x) (h : st ≠ 0) :
    closeEnd st code s = closeShown code s := by
  simp [closeEnd, closeShown, hs, h]

/-- A good CLOSE of copy b: the copy is remembered, and the staging page asks for its start with the plate state and the
digest of its header (R68). -/
def closeGood (b : Bool) (code : Nat) (s : State) : State :=
  pageWrite b 1 0 0 (hdrN (copyHeader b s) 0xC 4) (slice (copyHeader b s) 0x1C 32)
    { closeShown code s with sys := { (closeShown code s).sys with closedB := some b } }

theorem closeEnd_of_good {code : Nat} {x : Session} {s : State} (hs : s.sys.session = some x) :
    closeEnd 0 code s = closeGood x.copyB code s := by
  simp only [closeEnd, hs]
  rfl

theorem closeGood_session (b : Bool) (code : Nat) (s : State) : (closeGood b code s).sys.session = none := by
  simp [closeGood, closeShown]

theorem closeGood_closedB (b : Bool) (code : Nat) (s : State) : (closeGood b code s).sys.closedB = some b := rfl

theorem rd_closeGood_pending (b : Bool) (code : Nat) (s : State) :
    rd F.SYS_STAGE_STAT_PENDING (closeGood b code s) = 1 := rd_wrB_same _ _ _ (by decide)

theorem closeGood_regsKept (b : Bool) (code : Nat) (s : State) :
    RegsKept [F.SYS_STAGE_STAT_SESSION, F.SYS_STAGE_STAT_VERIFY_CODE, F.SYS_STAGE_STAT_PENDING] s (closeGood b code s) :=
  ((closeShown_regsKept code s).to_regs rfl).trans (pageWrite_regsKept _ _ _ _ _ _ _)

/-! ### START_RECORD_RETRY (R63, R497) -/

theorem recUpdate_eq (u : RecImage → RecImage) (s : State) : recUpdate u s = { s with rcd := (recUpdate u s).rcd } := by
  unfold recUpdate; split <;> rfl

/-- An operation whose energy is stored starts; only its hold-up check is recorded beside (R497, R505). -/
theorem mramStart_of_stored {op : MramOp} {s : State} (h : (mramNeed op).2 ≤ storedEnergy s) :
    ∃ r, mramStart op s = { s with mram := { s.mram with started := s.mram.started ++ [op] }, rcd := r } := by
  refine ⟨(extreme 3 (storedEnergy s) (histAdd 17 16 (storedEnergy s) s)).rcd, ?_⟩
  simp only [mramStart, holdUpCheck, if_pos h]
  rw [extreme, recUpdate_eq, histAdd, recUpdate_eq]
  rfl

theorem mramNeed_of_isStart {op : MramOp} (h : op.isStart = true) : (mramNeed op).2 = 90 := by
  cases op with
  | startRecord w => rfl
  | _ => cases h

/-- Start-record writes all start, in order, while their energy is stored. -/
theorem foldl_mramStart_of_stored {l : List MramOp} (hl : ∀ op ∈ l, op.isStart = true) {s : State}
    (h : 90 ≤ storedEnergy s) :
    ∃ r, l.foldl (fun s op => mramStart op s) s =
      { s with mram := { s.mram with started := s.mram.started ++ l }, rcd := r } := by
  induction l generalizing s with
  | nil => exact ⟨s.rcd, by simp⟩
  | cons op l ih =>
    have hop := mramNeed_of_isStart (hl op List.mem_cons_self)
    obtain ⟨r, hr⟩ := mramStart_of_stored (op := op) (s := s) (by omega)
    obtain ⟨q, hq⟩ := ih (fun o ho => hl o (List.mem_cons_of_mem op ho))
      (s := { s with mram := { s.mram with started := s.mram.started ++ [op] }, rcd := r }) h
    refine ⟨q, ?_⟩
    rw [List.foldl_cons, hr, hq]
    simp

theorem mramRetry_isStart_of_stored {s : State} (h : 90 ≤ storedEnergy s) :
    ∃ r, mramRetry MramOp.isStart s =
      { s with mram := { s.mram with started := s.mram.started ++ s.mram.waiting.filter MramOp.isStart,
                                     waiting := s.mram.waiting.filter fun o => !o.isStart }, rcd := r } :=
  foldl_mramStart_of_stored (fun _ hop => (List.mem_filter.mp hop).2)
    (s := { s with mram := { s.mram with waiting := s.mram.waiting.filter fun o => !o.isStart } }) h

theorem execStartRecordRetry_of_stored {s : State} (hw : awake s = true) (he : 90 ≤ storedEnergy s)
    (hp : s.sys.pageDue = false) :
    ∃ r, execStartRecordRetry s = .next
      { s with mram := { s.mram with started := s.mram.started ++ s.mram.waiting.filter MramOp.isStart,
                                     waiting := s.mram.waiting.filter fun o => !o.isStart }, rcd := r } := by
  obtain ⟨r, hr⟩ := mramRetry_isStart_of_stored he
  exact ⟨r, by simp [execStartRecordRetry, hw, hr, hp]⟩

/-! ### Requested resets (R38, R76) -/

theorem requestReset_eq (c : Cause) (s : State) : requestReset c s =
    { s with regs := (requestReset c s).regs, rcd := (requestReset c s).rcd, pwr := (requestReset c s).pwr,
             sys := (requestReset c s).sys } := by
  simp only [requestReset, gateSilent, record, recUpdate]
  split <;> rfl

theorem requestReset_regsKept (c : Cause) (s : State) : RegsKept [F.PWR_STAT_SILENT] s (requestReset c s) :=
  fun g hg => by rw [rd_requestReset, if_neg (hg _ (List.mem_singleton_self _))]

/-- SYS_RST_REQ with its bit and key from a host with the grant (R76). -/
theorem rstReqWrite_of_granted {who : Initiator} {i v : Nat} {s : State} (hw : hostOf who = some i)
    (hb : bit v 0 = true) (hk : v / 65536 = 0xA5C3) (hg : stage s = 9 ∨ bit (hostPerm i s) 2 = true) :
    rstReqWrite who v s = (.ok, requestReset .hostReq s) := by
  simp [rstReqWrite, hw, hb, hk, hg]

/-! ### Domain resets and reloads (R39) -/

theorem mem_sins (l : List Nat) (k : Nat) : k ∈ sins l k := by
  induction l with
  | nil => simp [sins]
  | cons j r ih =>
    unfold sins
    split
    · exact List.mem_cons_self
    · split
      · simp [*]
      · exact List.mem_cons_of_mem j ih

theorem silent_of_held {d : Domain} {s : State} (h : Domain.num d ∈ s.sys.domHeld) : silent d s = true := by
  simp [silent, h]

/-- The domain's part of the start state once it is held for its reload. -/
def domHold (d : Domain) (x : Start) : Start :=
  { x with domDue := x.domDue.filter (· != Domain.num d), domHeld := sins x.domHeld (Domain.num d) }

theorem execDomainReset_of_loaded {d : Domain} {s : State} (ht : domTypes d ≠ []) (hs : stage s = 5 ∨ stage s = 6)
    (hm : s.pwr.mode ≤ 1) :
    execDomainReset d s = .next { domLost d { s with sys := domHold d s.sys } with sys := domHold d s.sys } := by
  have acts : ¬ (domTypes d = [] ∨ (stage s ≠ 5 ∧ stage s ≠ 6) ∨ 1 < s.pwr.mode) := by
    rintro (h | h | h)
    · exact ht h
    · omega
    · omega
  simp [execDomainReset, acts, domHold]

theorem execDomainReloadDone_of_differs {d : Domain} {s : State} (hh : Domain.num d ∈ s.sys.domHeld)
    (hd : digestsAgree (domTypes d) s = false) : execDomainReloadDone d s = .next (requestReset .fence s) := by
  simp [execDomainReloadDone, hh, hd]

theorem execDomainReloadDone_of_agrees {d : Domain} {s : State} (hh : Domain.num d ∈ s.sys.domHeld)
    (hd : digestsAgree (domTypes d) s = true) :
    ∃ t, execDomainReloadDone d s = .next t ∧
      t.sys = { s.sys with domHeld := s.sys.domHeld.filter (· != Domain.num d) } := by
  simp only [execDomainReloadDone, List.contains_iff_mem.mpr hh, hd, Bool.not_true, Bool.false_eq_true, if_false,
    if_true]
  exact ⟨_, rfl, by split <;> rfl⟩

/-! ### The events of a start -/

/-- Settles O3: each event is its operation on the state that meets its conditions; the laws of that operation give what
it shows, and its frame what it leaves. -/
theorem startEventsComplete : Obligations.StartEventsComplete := by
  unfold Obligations.StartEventsComplete
  refine ⟨fun s hr ht => ?watchdog, fun env s hh hr ht hb hl => ?cleared, fun who env s ha hm hd hs => ?recover,
    fun cmd st code s hd hst hc => ?done, fun st code x s hd hs hpos hst hc => ?failed, fun code x s hd hs hc => ?good,
    fun s hw he hp => ?retry, fun who i v s hi ha hb hk hg => ?request, fun d s ht hs hm => ?reset,
    fun d s hh hd => ?differs, fun d s hh hd => ?agrees⟩
  case watchdog =>
    refine ⟨_, execStartWatchdog_of_untried hr ht, ?_, ?_, stage_startHalt _, startHalt_running _, ?_, ?_⟩
    · rw [startHalt_regsKept _ _ (by decide), rd_startFail_code 3 s (by omega)]
    · rw [startHalt_regsKept _ _ (by decide), rd_startFail_copy 0x11 s (by omega)]
    · rw [startHalt_pwr]
    · rw [startHalt_pwr]
  case cleared =>
    have hb' : rd F.SYS_STRAP_BOOT_SEL (holdCleared s) = 2 := (holdCleared_regsKept s _ (by decide)).trans hb
    refine ⟨_, (execTamperHoldCleared_of_held hh hr ht).trans (congrArg _ (startGo_of_recovery hb' hl)), rfl, rfl,
      stage_setStage (by omega) _, ?_⟩
    exact (setStage_regsKept 8 _ _ (by decide)).trans (rd_holdCleared_active s)
  case recover =>
    obtain ⟨t, heq, -, hsys, hrest⟩ := hostWrite_ok ha (stageCommand_taken (stageRecover env) hm hd)
    obtain ⟨-, hlc, hmode, -⟩ := stageRecover_keep env s
    exact ⟨t, congrArg _ heq, by rw [hsys, stageRecover_session hs], by rw [hrest, hmode], by rw [hrest, hlc]⟩
  case done =>
    exact ⟨stageShown st s, (execStageCommandDone_eq hd).trans (by rw [if_neg hc]), rd_stageShown_status s hst, rfl,
      stageShown_regsKept st s, rfl⟩
  case failed =>
    have hclose := closeEnd_of_failed (code := code) (s := stageShown st s) hs (Nat.ne_of_gt hpos)
    refine ⟨closeShown code (stageShown st s), (execStageCommandDone_eq hd).trans (by rw [if_pos rfl, hclose]), ?_,
      rd_closeShown_code _ hc, rfl, rfl, rfl⟩
    rw [closeShown_regsKept code _ _ (by decide), rd_stageShown_status s hst]
  case good =>
    have hclose := closeEnd_of_good (code := code) (s := stageShown 0 s) hs
    refine ⟨closeGood x.copyB code (stageShown 0 s), (execStageCommandDone_eq hd).trans (by rw [if_pos rfl, hclose]), ?_,
      rd_closeGood_pending _ _ _, closeGood_session _ _ _, closeGood_closedB _ _ _⟩
    rw [closeGood_regsKept _ _ _ _ (by decide), rd_stageShown_status s (by omega)]
  case retry =>
    obtain ⟨r, heq⟩ := execStartRecordRetry_of_stored hw he hp
    exact ⟨_, heq, rfl, rfl, rfl⟩
  case request =>
    obtain ⟨t, heq, hregs, hsys, hrest⟩ := hostWrite_ok ha (rstReqWrite_of_granted hi hb hk hg)
    refine ⟨t, congrArg _ heq, ?_, ?_, ?_, ?_, ?_⟩
    · rw [hsys, requestReset_sys]
    · rw [hrest]; simp
    · rw [rd_congr _ _ _ hregs, rd_requestReset, if_pos rfl]
    · exact (requestReset_regsKept _ s).to_regs hregs
    · rw [hrest, requestReset_eq]
  case reset =>
    refine ⟨_, execDomainReset_of_loaded ht hs hm, mem_sins _ _, ?_, silent_of_held (mem_sins _ _), rfl, rfl, ?_⟩
    · simp [domHold]
    · simp
  case differs =>
    refine ⟨_, execDomainReloadDone_of_differs hh hd, ?_, ?_, ?_, requestReset_regsKept _ s⟩
    · rw [requestReset_sys]
    · rw [requestReset_pwr]
    · rw [requestReset_sys]; exact hh
  case agrees =>
    obtain ⟨t, heq, hsys⟩ := execDomainReloadDone_of_agrees hh hd
    exact ⟨t, heq, by simp [hsys], by rw [hsys], by rw [hsys]⟩

end Sys2Proof.Machine

namespace Sys2Proof.Machine

/-! ### What starts the local clock from 0 (R36, R79) -/

@[simp] theorem keepCold_loc (s : State) : (keepCold s).time.loc = 0 := rfl

@[simp] theorem keepWarm_loc (s : State) : (keepWarm s).time.loc = 0 := rfl

@[simp] theorem startBegin_loc (c : Cause) (env : StartEnv) (s : State) :
    (startBegin c env s).time.loc = s.time.loc := by
  simp only [startBegin]; split <;> simp

theorem execPowerOnReset_loc (env : StartEnv) (s : State) : (outState (execPowerOnReset env s) s).time.loc = 0 := by
  simp only [execPowerOnReset, outState_next]; split <;> simp

/-- A WARM_RESET happens on a powered device, by its pin or by a pending request (R38). -/
abbrev WarmResetActs (pin : Bool) (s : State) : Prop := s.pwr.mode ≠ 4 ∧ (pin = true ∨ s.sys.request ≠ none)

theorem execWarmReset_loc (pin : Bool) (env : StartEnv) (s : State) :
    (outState (execWarmReset pin env s) s).time.loc = if WarmResetActs pin s then 0 else s.time.loc := by
  have acts : (s.pwr.mode = 4 ∨ (pin = false ∧ s.sys.request = none)) ↔ ¬ WarmResetActs pin s := by
    cases pin <;> simp [WarmResetActs, Decidable.or_iff_not_imp_left]
  simp only [execWarmReset, outState_next, acts, ite_not]
  split
  · simp
  · rfl

theorem execWakeStart_loc (env : StartEnv) (s : State) :
    (outState (execWakeStart env s) s).time.loc =
      if s.pwr.mode = 3 ∧ s.slp.inh = true ∧ sleepEntering s = false then 0 else s.time.loc := by
  simp only [execWakeStart, outState_next]
  split
  · (repeat' split) <;> simp
  · rfl

/-! ### The commands that leave the local clock alone (R79) -/

@[simp] theorem enterStandby_loc (s : State) : (enterStandby s).time.loc = s.time.loc := by simp [enterStandby]

@[simp] theorem enterSleep_loc (s : State) : (enterSleep s).time.loc = s.time.loc := by simp [enterSleep]

@[simp] theorem deviceSleep_loc (s : State) : (deviceSleep s).time.loc = s.time.loc := by
  simp only [deviceSleep]; (repeat' split) <;> simp

@[simp] theorem sleepEntry_loc (cand : Nat) (s : State) : (sleepEntry cand s).time.loc = s.time.loc := by
  simp [sleepEntry]

@[simp] theorem execCommitPoint_loc (s : State) : (outState (execCommitPoint s) s).time.loc = s.time.loc := by
  simp [execCommitPoint]

@[simp] theorem execIdle_loc (s : State) : (outState (execIdle s) s).time.loc = s.time.loc := by simp [execIdle]

@[simp] theorem execIdleResume_loc (s : State) : (outState (execIdleResume s) s).time.loc = s.time.loc := by
  simp [execIdleResume]

@[simp] theorem execStandbyResume_loc (s : State) : (outState (execStandbyResume s) s).time.loc = s.time.loc := by
  simp [execStandbyResume]

/-- The commands that can start the local clock from 0: the resets, the wake start and the removal of the supplies. -/
def mayZeroClock : Instr → Bool
  | .powerOnReset _ | .warmReset _ _ | .wakeStart _ | .suppliesRemoved => true
  | _ => false

/-- Every other command leaves the local clock: each case is the frame lemma of the command's own operation. -/
theorem exec_loc_of_not_mayZeroClock (c : Instr) (s : State) (h : mayZeroClock c = false) :
    (outState (exec c s) s).time.loc = s.time.loc := by
  cases c with
  | powerOnReset | warmReset | wakeStart | suppliesRemoved => cases h
  | _ => simp

/-- Settles O36: the idle tick moves the clock on, the starts go on from a reset whose clock reads 0, and every other
command has its own frame lemma. -/
theorem localClockOnlyTicks : Obligations.LocalClockOnlyTicks := by
  unfold Obligations.LocalClockOnlyTicks
  refine ⟨fun s h hm => ?tick, fun env s => ?por, fun pin env s hm hr => ?wrst, fun env s hm hi he => ?wake,
    fun c s t h => ?other⟩
  case tick => exact ⟨idleTick s, step_of_pending_nil h, idleTick_loc hm⟩
  case por => exact ⟨_, rfl, execPowerOnReset_loc env s⟩
  case wrst => exact ⟨_, rfl, (execWarmReset_loc pin env s).trans (if_pos ⟨hm, hr⟩)⟩
  case wake => exact ⟨_, rfl, (execWakeStart_loc env s).trans (if_pos ⟨hm, hi, he⟩)⟩
  case other =>
    obtain rfl : t = outState (exec c s) s := by rw [h, outState_next]
    cases c with
    | powerOnReset env => exact .inr ⟨execPowerOnReset_loc env s, trivial⟩
    | suppliesRemoved => exact .inr ⟨keepCold_loc s, trivial⟩
    | warmReset pin env =>
      by_cases acts : WarmResetActs pin s
      · exact .inr ⟨(execWarmReset_loc pin env s).trans (if_pos acts), acts⟩
      · exact .inl ((execWarmReset_loc pin env s).trans (if_neg acts))
    | wakeStart env =>
      by_cases acts : s.pwr.mode = 3 ∧ s.slp.inh = true ∧ sleepEntering s = false
      · obtain ⟨hm, hi, he⟩ := acts
        exact .inr ⟨(execWakeStart_loc env s).trans (if_pos ⟨hm, hi, he⟩), hm, hi⟩
      · exact .inl ((execWakeStart_loc env s).trans (if_neg acts))
    | _ => exact .inl (exec_loc_of_not_mayZeroClock _ s rfl)

end Sys2Proof.Machine

namespace Sys2Proof.Machine

/-! ### The time base read after its own updates (R78, R82, R93) -/

@[simp] theorem dom_domSet_same (d : Nat) (c : DomClk) (s : State) : dom d (domSet d c s) = c := tget_tput_same _ _ _ _

@[simp] theorem gptp_gptpSet_same (d p : Nat) (g : GptpPort) (s : State) : gptp d p (gptpSet d p g s) = g :=
  tget_tput_same _ _ _ _

theorem gptpSet_frame (d p : Nat) (g : GptpPort) (s : State) :
    gptpSet d p g s = { s with time := { s.time with ports := (gptpSet d p g s).time.ports } } := rfl

/-! ### Transmit timestamps (R93) -/

theorem regsKept_markMax (f : Field) (v : Nat) (s : State) : RegsKept [f] s (markMax f v s) := by
  unfold markMax
  split
  · exact regsKept_wr f _ s
  · exact (RegsKept.refl [] s).mono (by simp)

theorem markMax_frame (f : Field) (v : Nat) (s : State) : markMax f v s = { s with regs := (markMax f v s).regs } := by
  unfold markMax; split <;> rfl

/-- The occupancy registers of port p and of the pool. -/
def tsRegs (p : Nat) : List Field :=
  [F.TIME_PORTpp_TSF_FIFO.u p, F.TIME_PORTpp_TSF_POOL.u p, F.TIME_TSPOOL_STAT_USED, F.TIME_TSPOOL_STAT_HIGH]

theorem tsCounts_regsKept (p : Nat) (s : State) : RegsKept (tsRegs p) s (tsCounts p s) :=
  (((regsKept_wr _ _ s).trans (regsKept_wr _ _ _)).trans (regsKept_wr _ _ _)).trans (regsKept_markMax _ _ _)

theorem tsCounts_frame (p : Nat) (s : State) : tsCounts p s = { s with regs := (tsCounts p s).regs } := by
  rw [tsCounts, markMax_frame]; rfl

/-- A transmit capture of port p goes into its own FIFO (R93). -/
def FifoRoom (p : Nat) (s : State) : Prop := (tsFifo p s).length < 64 ∧ tsPoolOf p s = 0

theorem tsRoom_of_fifoRoom {p : Nat} {s : State} (h : FifoRoom p s) : tsRoom p s = true := by
  obtain ⟨hf, hp⟩ := h
  simp [tsRoom, hf, hp]

/-- The FIFO of a port changed. -/
def fifoSet (p : Nat) (l : List Stamp) (s : State) : State :=
  { s with time := { s.time with fifo := tput s.time.fifo p l } }

@[simp] theorem tsFifo_fifoSet (p : Nat) (l : List Stamp) (s : State) : tsFifo p (fifoSet p l s) = l :=
  tget_tput_same _ _ _ _

@[simp] theorem tsFifo_tsCounts (p q : Nat) (s : State) : tsFifo p (tsCounts q s) = tsFifo p s := by
  rw [tsCounts_frame]; rfl

section
variable {p : Nat} {s : State} (h : FifoRoom p s)
include h

theorem tsPut_of_room (o : StampOf) (t : Nat) :
    tsPut p o t s = tsCounts p (fifoSet p (tsFifo p s ++ [⟨o, t + cfgN C.timePort p 2 2 s⟩]) s) := if_pos h

theorem tsFifo_tsPut (o : StampOf) (t : Nat) :
    tsFifo p (tsPut p o t s) = tsFifo p s ++ [⟨o, t + cfgN C.timePort p 2 2 s⟩] := by
  rw [tsPut_of_room h, tsFifo_tsCounts, tsFifo_fifoSet]

theorem tsPut_frame (o : StampOf) (t : Nat) : tsPut p o t s =
    { s with regs := (tsPut p o t s).regs, time := { s.time with fifo := (tsPut p o t s).time.fifo } } := by
  rw [tsPut_of_room h, tsCounts_frame]; rfl

theorem tsPut_out (o : StampOf) (t : Nat) : (tsPut p o t s).out = s.out := by rw [tsPut_frame h]

theorem tsPut_regsKept (o : StampOf) (t : Nat) : RegsKept (tsRegs p) s (tsPut p o t s) := by
  rw [tsPut_of_room h]
  exact (RegsKept.of_regs rfl).trans (tsCounts_regsKept p _)

end

/-! ### Messages that leave (R82, R94) -/

theorem gptpSend_of_open {p : Nat} {s : State} (b : List Byte) (h : silent (portDomain p) s = false) :
    gptpSend p b s = emit (.gptp p b) s := by
  simp [gptpSend, transmit, h]

section
variable {p : Nat} {s : State} (h : silent (portDomain p) s = false)
include h

/-- An event message that finds room leaves with its capture. -/
theorem gptpEventAt_of_room (hr : FifoRoom p s) (o : StampOf) (b : List Byte) (t : Nat) :
    gptpEventAt p o b t s = (true, tsPut p o t (emit (.gptp p b) s)) := by
  simp [gptpEventAt, gptpSend_of_open b h, h, tsRoom_of_fifoRoom hr]

/-- The same at a point of the tick that is open. -/
theorem gptpEvent_of_room (hr : FifoRoom p s) (o : StampOf) (b : List Byte) :
    gptpEvent p o b s = (true, tsPut p o (rawCapture s).1 (emit (.gptp p b) (fresh s).2)) := by
  simp only [gptpEvent, h]
  exact gptpEventAt_of_room (s := (fresh s).2) h hr o b _

end

/-! ### Sync and Pdelay exchanges (R82, R96) -/

theorem execSync_of_twoStep {d : Fin 4} {p : Fin 32} {m : SyncMsg} {s : State} (hv : syncValid d p s = true)
    (hm : m.twoStep = true) : execSync d p m s = .next (gptpSet d p { gptp d p s with sync := some m } s) := by
  simp [execSync, hv, hm]

theorem execPdelayReq_of_room {d : Fin 4} {p : Fin 32} (m : PdelayReq) {s : State} (hg : gptpOn d p s = true)
    (hs : silent (portDomain p) s = false) (hr : FifoRoom p s) :
    execPdelayReq d p m s = .next (tsPut p (.pdelayResp d m.seq m.from_) (rawCapture s).1
      (emit (.gptp p (wirePdelayResp (delayDom d p s) 3 p m.seq m.from_ (m.ingress + cfgN C.timePort p 0 2 s) s))
        (fresh s).2)) := by
  simp [execPdelayReq, when, hg, gptpEvent_of_room hs hr]

section
variable {d : Fin 4} {p : Fin 32} {m : PdelayMsg} {s : State} (hg : gptpOn d p s = true)
  (ha : (gptp (delayDom d p s) p s).asked = some m.seq)
include hg ha

/-- A Pdelay_Resp with its timestamps is kept, and the exchange is over once the request's own timestamp is there. -/
theorem execPdelayResp_of_stamped {t2 t3 t4 : Int} (hm : m.ts = some (t2, t3, t4)) :
    execPdelayResp d p m s = .next (pdelayDone (delayDom d p s) p (gptpSet (delayDom d p s) p
      { gptp (delayDom d p s) p s with resp := some (t2, t3, t4 + cfgN C.timePort p 0 2 s) } s)) := by
  simp [execPdelayResp, hg, ha, hm]

theorem execPdelayResp_of_lost (hm : m.ts = none) :
    execPdelayResp d p m s = .next (pdelayLost (delayDom d p s) p s) := by
  simp [execPdelayResp, hg, ha, hm]

end

section
variable {k p : Nat} {g : GptpPort} {s : State}

theorem pdelayDone_gptpSet_of_unsent (h : g.sentAt = none) :
    pdelayDone k p (gptpSet k p g s) = gptpSet k p g s := by
  simp [pdelayDone, h]

theorem pdelayDone_gptpSet_of_sent {t1 : Nat} {t2 t3 t4 : Int} (h : g.sentAt = some t1)
    (hr : g.resp = some (t2, t3, t4)) : pdelayDone k p (gptpSet k p g s) = gptpSet k p
      { g with asked := none, sentAt := none, resp := none, lost := 0, delay := ((t4 - t1) - (t3 - t2)) / 2 }
      (gptpSet k p g s) := by
  simp [pdelayDone, h, hr]

end

/-- A master port's Sync (R82). -/
theorem execSyncInterval_of_room {d : Fin 4} {p : Fin 32} (ns : Fin 4) {s : State} (hm : isMaster d p s = true)
    (hs : silent (portDomain p) s = false) (hr : FifoRoom p s) :
    execSyncInterval d p ns s = .next (tsPut p (.sync d (gptp d p s).seq) (s.time.loc + ns)
      (emit (.gptp p (wireSync d p (gptp d p s).seq s))
        (gptpSet d p { gptp d p s with seq := ((gptp d p s).seq + 1) % 65536 } s))) := by
  have sent := gptpEventAt_of_room (s := gptpSet d p { gptp d p s with seq := ((gptp d p s).seq + 1) % 65536 } s) hs hr
  simp [execSyncInterval, when, hm, sent]

/-- Key k's port p once its next exchange has begun: an unanswered one before it counts as lost (R96). -/
def pdelayBegun (k p : Nat) (s : State) : GptpPort :=
  let g := gptp k p s
  { g with seq := (g.seq + 1) % 65536, asked := some g.seq, sentAt := none, resp := none,
           lost := if g.asked.isSome then g.lost + 1 else g.lost }

/-- The bytes of a Pdelay_Req depend on the port's interval, not on the exchange. -/
theorem wirePdelayReq_gptpSet {k p seq : Nat} {g : GptpPort} {s : State} (h : g.logPd = (gptp k p s).logPd) :
    wirePdelayReq k p seq (gptpSet k p g s) = wirePdelayReq k p seq s := by
  simp only [wirePdelayReq, gptp_gptpSet_same, h]; rfl

theorem execPdelayReqInterval_of_room {d : Fin 4} {p : Fin 32} {s : State} (hg : gptpOn d p s = true)
    (hs : silent (portDomain p) s = false) (hr : FifoRoom p s) :
    execPdelayReqInterval d p s = .next (tsPut p (.pdelayReq (delayDom d p s) (gptp (delayDom d p s) p s).seq)
      (rawCapture s).1 (emit (.gptp p (wirePdelayReq (delayDom d p s) p (gptp (delayDom d p s) p s).seq s))
        (fresh (gptpSet (delayDom d p s) p (pdelayBegun (delayDom d p s) p s) s)).2)) := by
  have begun := gptpEvent_of_room
    (s := gptpSet (delayDom d p s) p (pdelayBegun (delayDom d p s) p s) s) hs hr
  have wire := wirePdelayReq_gptpSet (k := delayDom d p s) (p := p) (seq := (gptp (delayDom d p s) p s).seq)
    (g := pdelayBegun (delayDom d p s) p s) (s := s) rfl
  simp only [pdelayBegun] at begun wire
  simp only [execPdelayReqInterval, when, hg, begun, wire, Bool.true_or, if_true]
  rfl

/-! ### Drains (R93) -/

theorem tsRefill_of_absent {p : Nat} {s : State} (h : s.time.pool.all (fun e => e.1 != p) = true) : tsRefill p s = s := by
  have absent : s.time.pool.find? (·.1 == p) = none := by
    rw [List.find?_eq_none]
    intro e he
    simpa using List.all_eq_true.mp h e he
  simp [tsRefill, absent]

/-- The oldest timestamp of a port leaves for its completion record; u is the state once the record is written. -/
theorem execTimestampDrain_eq {p : Fin 32} {x : Stamp} {r : List Stamp} {s u : State} (hf : tsFifo p s = x :: r)
    (hh : stampHeld x s = false) (ha : awake s = true)
    (hu : stampEnd p x (emit (.stamp p x.of_ (some x.ns)) (fifoSet p r s)) = u)
    (hp : u.time.pool.all (fun e => e.1 != p.val) = true) : execTimestampDrain p s = .next (tsCounts p u) := by
  have refill := tsRefill_of_absent hp
  simp only [fifoSet] at hu
  simp [execTimestampDrain, hf, hh, ha, hu, refill]

theorem stampEnd_of_sync {p d q : Nat} {x : Stamp} {s : State} (h : x.of_ = .sync d q) :
    stampEnd p x s = gptpStamp p (.sync d q) x.ns s := by
  simp [stampEnd, h]

/-- A Sync's timestamp sends its Follow_Up (R82). -/
theorem gptpStamp_sync_of_master {p d q t : Nat} {s : State} (hm : isMaster d p s = true)
    (hs : silent (portDomain p) s = false) :
    gptpStamp p (.sync d q) t s = emit (.gptp p (wireFollowUp d p q t s)) s := by
  simp [gptpStamp, when, hm, gptpSend_of_open _ hs]

theorem awake_of_gptpOn {d p : Nat} {s : State} (h : gptpOn d p s = true) : awake s = true := by
  simp only [gptpOn, svcUp, Bool.and_eq_true] at h
  simp [awake, h]

theorem isMaster_gptpOn {d p : Nat} {s : State} (h : isMaster d p s = true) : gptpOn d p s = true := by
  simp only [isMaster, Bool.and_eq_true] at h
  exact h.1

/-- Settles O4: each message is one update of its port, with a capture where it is an event message; the equation of each
command gives the bytes, the port and the FIFO, and the frame of tsPut and tsCounts the rest. -/
theorem timeMessagesComplete : Obligations.TimeMessagesComplete := by
  unfold Obligations.TimeMessagesComplete
  refine ⟨fun d p m s hv hm => ?sync, fun d p m s hg hs hf hp => ?request, fun d p m t1 t2 t3 t4 s hg ha hm h1 => ?answered,
    fun d p m t2 t3 t4 s hg ha hm h1 => ?waits, fun d p m s hg ha hm => ?lost, fun d p ns s hm hs hf hp => ?master,
    fun d p x q r s hf hx hm hs hp => ?followUp, fun d p s hg hs hf hp => ?begun⟩
  case sync => exact ⟨_, execSync_of_twoStep hv hm, gptp_gptpSet_same _ _ _ s, gptpSet_frame _ _ _ s⟩
  case request =>
    have room : FifoRoom p (emit (.gptp p (wirePdelayResp (delayDom d p s) 3 p m.seq m.from_
      (m.ingress + cfgN C.timePort p 0 2 s) s)) (fresh s).2) := ⟨hf, hp⟩
    refine ⟨_, execPdelayReq_of_room m hg hs ⟨hf, hp⟩, tsPut_out room _ _, ?_, ?_, ?_⟩
    · rw [tsFifo_tsPut room, List.map_append]; rfl
    · exact (RegsKept.of_regs rfl).trans (tsPut_regsKept room _ _)
    · rw [tsPut_frame room]; rfl
  case answered =>
    exact ⟨_, (execPdelayResp_of_stamped hg ha hm).trans (congrArg _ (pdelayDone_gptpSet_of_sent h1 rfl)),
      gptp_gptpSet_same _ _ _ _, rfl⟩
  case waits =>
    exact ⟨_, (execPdelayResp_of_stamped hg ha hm).trans (congrArg _ (pdelayDone_gptpSet_of_unsent h1)),
      gptp_gptpSet_same _ _ _ _, rfl⟩
  case lost => exact ⟨_, execPdelayResp_of_lost hg ha hm, gptp_gptpSet_same _ _ _ s, gptpSet_frame _ _ _ s⟩
  case master =>
    have room : FifoRoom p (emit (.gptp p (wireSync d p (gptp d p s).seq s))
      (gptpSet d p { gptp d p s with seq := ((gptp d p s).seq + 1) % 65536 } s)) := ⟨hf, hp⟩
    refine ⟨_, execSyncInterval_of_room ns hm hs ⟨hf, hp⟩, tsPut_out room _ _, ?_, ?_, ?_, ?_⟩
    · rw [tsPut_frame room]; exact gptp_gptpSet_same _ _ _ s
    · rw [tsFifo_tsPut room]; rfl
    · exact (RegsKept.of_regs rfl).trans (tsPut_regsKept room _ _)
    · rw [tsPut_frame room]; rfl
  case followUp =>
    have hend : stampEnd p x (emit (.stamp p x.of_ (some x.ns)) (fifoSet p r s)) =
        emit (.gptp p (wireFollowUp d p q x.ns s)) (emit (.stamp p x.of_ (some x.ns)) (fifoSet p r s)) := by
      rw [stampEnd_of_sync hx]
      exact gptpStamp_sync_of_master (s := emit (.stamp p x.of_ (some x.ns)) (fifoSet p r s)) hm hs
    have held : stampHeld x s = false := by simp [stampHeld, hx]
    refine ⟨_, execTimestampDrain_eq hf held (awake_of_gptpOn (isMaster_gptpOn hm)) hend hp, ?_, ?_, ?_, ?_⟩
    · rw [tsCounts_frame]; rfl
    · rw [tsFifo_tsCounts]; exact tsFifo_fifoSet p r s
    · exact (RegsKept.of_regs rfl).trans (tsCounts_regsKept p _)
    · rw [tsCounts_frame]; rfl
  case begun =>
    have room : FifoRoom p (emit (.gptp p (wirePdelayReq (delayDom d p s) p (gptp (delayDom d p s) p s).seq s))
      (fresh (gptpSet (delayDom d p s) p (pdelayBegun (delayDom d p s) p s) s)).2) := ⟨hf, hp⟩
    refine ⟨_, execPdelayReqInterval_of_room hg hs ⟨hf, hp⟩, tsPut_out room _ _, ?_, ?_, ?_, ?_⟩
    · rw [tsPut_frame room]; exact gptp_gptpSet_same _ _ _ s
    · rw [tsFifo_tsPut room, List.map_append]; rfl
    · exact (RegsKept.of_regs rfl).trans (tsPut_regsKept room _ _)
    · rw [tsPut_frame room]; rfl

end Sys2Proof.Machine

namespace Sys2Proof.Machine

/-! ### Timestamps of host frames (R93, R94) -/

/-- A descriptor that waits for no timestamp gets none. -/
theorem stampEnd_of_reported {p q i : Nat} {b : Bool} {x : Stamp} {s : State} (hx : x.of_ = .host q i b)
    (h : (hostQ q s).stamps.contains (i, b) = false) : stampEnd p x s = s := by
  simp only [stampEnd, hx, stampDeliver, h]; rfl

/-! ### PPS_OUT and PPS_IN (R97, R98) -/

/-- PPS_OUT is driven, near a whole second, from a domain that is enabled and not FREE. -/
theorem execPpsOut_of_second {s : State} (he : bit (cfgN C.timeHdr 0 0x0B 1 s) 0 = true)
    (hd : domOn (cfgN C.timeHdr 0 0x0A 1 s) s = true) (hf : domState (cfgN C.timeHdr 0 0x0A 1 s) s ≠ 0)
    (hn : (toSecond (domNs (cfgN C.timeHdr 0 0x0A 1 s) s)).natAbs ≤ 8) :
    execPpsOut s = .next { s with time := { s.time with ppsOut := true, ppsRose := s.time.loc } } := by
  simp [execPpsOut, when, he, hd, hf, hn]

/-- The edge counts as the latest on the pin. -/
def edgeSeen (s : State) : State := { s with time := { s.time with edge := some (shortNs s) } }

/-- The edge is stored and counted as accepted. -/
def ppsAccepted (s : State) : State :=
  wr F.TIME_PPS_IN_LO_NS (shortNs s % 2 ^ 32)
    (inc F.TIME_PPS_STAT_ACCEPT { s with time := { s.time with ppsIn := shortNs s, edge := some (shortNs s) } })

theorem execPpsIn_of_far {s : State} (he : bit (cfgN C.timeHdr 0 0x0B 1 s) 1 = true)
    (hf : 1000000 < (toSecond (shortNs s)).natAbs) : execPpsIn s = .next (inc F.TIME_PPS_STAT_REJECT (edgeSeen s)) := by
  simp [execPpsIn, he, hf, edgeSeen]

/-- Without PPS_DISCIPLINE an accepted edge steers nothing. -/
theorem execPpsIn_of_near {s : State} (he : bit (cfgN C.timeHdr 0 0x0B 1 s) 1 = true)
    (hd : bit (cfgN C.timeHdr 0 0x0B 1 s) 2 = false) (hp : s.time.edge = none)
    (hn : (toSecond (shortNs s)).natAbs ≤ 1000000) : execPpsIn s = .next (ppsAccepted s) := by
  simp [execPpsIn, he, hd, hp, Nat.not_lt.mpr hn, ppsAccepted]

theorem ppsAccepted_regsKept (s : State) :
    RegsKept [F.TIME_PPS_STAT_ACCEPT, F.TIME_PPS_IN_LO_NS] s (ppsAccepted s) :=
  ((RegsKept.of_regs rfl).trans (regsKept_wr F.TIME_PPS_STAT_ACCEPT _ _)).trans (regsKept_wr F.TIME_PPS_IN_LO_NS _ _)

theorem rd_ppsAccepted_count (s : State) :
    rd F.TIME_PPS_STAT_ACCEPT (ppsAccepted s) = min (rd F.TIME_PPS_STAT_ACCEPT s + 1) 65535 := by
  rw [ppsAccepted, rd_wr_ne _ _ _ _ (by decide), rd_inc_same _ _ (by decide)]; rfl

/-- Settles O6: a drain writes its completion record and the occupancy registers; each pin command is one update of the time
base and, for PPS_IN, of its counts. -/
theorem timePinsAndStampsComplete : Obligations.TimePinsAndStampsComplete := by
  unfold Obligations.TimePinsAndStampsComplete
  refine ⟨fun p x q i b r s hf hx ha hh hc hp => ?drain, fun s he hd hf hn => execPpsOut_of_second he hd hf hn,
    fun s h => congrArg _ (if_pos h), fun s he hd hp hn => ?accept, fun s he hf => ?reject⟩
  case drain =>
    have hend : stampEnd p x (emit (.stamp p x.of_ (some x.ns)) (fifoSet p r s)) =
        emit (.stamp p x.of_ (some x.ns)) (fifoSet p r s) := stampEnd_of_reported hx hc
    refine ⟨_, execTimestampDrain_eq hf hh ha hend hp, ?_, ?_, ?_, ?_⟩
    · rw [tsCounts_frame]; rfl
    · rw [tsFifo_tsCounts]; exact tsFifo_fifoSet p r s
    · rw [tsCounts_frame]; rfl
    · rw [tsCounts_frame]; rfl
  case accept =>
    exact ⟨_, execPpsIn_of_near he hd hp hn, rfl, rfl, rd_ppsAccepted_count s, ppsAccepted_regsKept s, rfl⟩
  case reject =>
    exact ⟨_, execPpsIn_of_far he hf, rd_inc_same _ (edgeSeen s) (by decide),
      (RegsKept.of_regs rfl).trans (regsKept_wr F.TIME_PPS_STAT_REJECT _ (edgeSeen s)), rfl⟩

end Sys2Proof.Machine

namespace Sys2Proof.Machine

/-! ### Registers of different units (R8) -/

/-- Two fields whose units stand at one pitch have different keys in any units when their keys differ modulo the pitch. -/
theorem key_u_ne_of_mod {a b : Field} (n m : Nat)
    (h : a.step = b.step ∧ a.key % (32 * b.step) ≠ b.key % (32 * b.step)) : (a.u n).key ≠ (b.u m).key := by
  obtain ⟨hstep, hmod⟩ := h
  have unit (f : Field) (k : Nat) : (f.u k).key = f.key + 32 * f.step * k := by
    simp only [Field.u, Field.key, Nat.add_mul]; ac_rfl
  intro heq
  rw [unit, unit, hstep] at heq
  exact hmod (by simpa using congrArg (· % (32 * b.step)) heq)

theorem rd_wr_units {g f : Field} (n m v : Nat) (s : State)
    (h : g.step = f.step ∧ g.key % (32 * f.step) ≠ f.key % (32 * f.step)) : rd (g.u n) (wr (f.u m) v s) = rd (g.u n) s :=
  rd_wr_ne _ _ _ _ (key_u_ne_of_mod n m h)

theorem rd_wr_unit_of_lt {f : Field} {v : Nat} (n : Nat) (s : State) (h : v < 2 ^ f.w) (hw : f.w ≤ 32) :
    rd (f.u n) (wr (f.u n) v s) = v := rd_wr_of_lt s h hw

theorem rd_inc_unit {f : Field} (n : Nat) (s : State) (hw : f.w ≤ 32) :
    rd (f.u n) (inc (f.u n) s) = min (rd (f.u n) s + 1) (2 ^ f.w - 1) := rd_inc_same (f.u n) s hw

/-! ### What leaves the domains' states and the gPTP ports alone (R84) -/

/-- Every domain is in t in the state it is in s, and the gPTP ports stand as they did. -/
def StatesKept (s t : State) : Prop := (∀ e, domState e t = domState e s) ∧ t.time.ports = s.time.ports

theorem StatesKept.refl (s : State) : StatesKept s s := ⟨fun _ => rfl, rfl⟩

theorem StatesKept.trans {s t u : State} (h : StatesKept s t) (k : StatesKept t u) : StatesKept s u :=
  ⟨fun e => (k.1 e).trans (h.1 e), k.2.trans h.2⟩

theorem StatesKept.of_regs {s t : State} (h : t.regs = s.regs) (hp : t.time.ports = s.time.ports) : StatesKept s t :=
  ⟨fun _ => rd_congr _ _ _ h, hp⟩

theorem domSet_statesKept (d : Nat) (c : DomClk) (s : State) : StatesKept s (domSet d c s) := .of_regs rfl rfl

/-- A write to another field of the domains' blocks. -/
theorem wr_statesKept {f : Field} (d v : Nat) (s : State) (h : F.TIME_Dn_STAT_STATE.step = f.step ∧
    F.TIME_Dn_STAT_STATE.key % (32 * f.step) ≠ f.key % (32 * f.step)) : StatesKept s (wr (f.u d) v s) :=
  ⟨fun _ => rd_wr_units _ _ _ _ h, rfl⟩

theorem stepClock_statesKept (d : Nat) (D : Int) (s : State) : StatesKept s (stepClock d D s) := by
  have counted : StatesKept s (inc (F.TIME_Dn_CNT_STEPS.u d)
      (domSet d { dom d s with val := max 0 ((dom d s).val + D), slew := 0 } s)) :=
    (domSet_statesKept d _ s).trans (wr_statesKept (f := F.TIME_Dn_CNT_STEPS) d _ _ (by decide))
  have noted (n : Nat) (t : State) : StatesKept t (stepGates (stepNote n t)) := by
    have hn : StatesKept t (stepNote n t) := by unfold stepNote; split <;> exact .of_regs rfl rfl
    exact hn.trans (.of_regs rfl rfl)
  unfold stepClock when
  split
  · exact counted.trans (noted _ _)
  · exact counted

theorem correctOffset_statesKept (d : Nat) (D : Int) (s : State) : StatesKept s (correctOffset d D s) := by
  simp only [correctOffset]
  split
  · exact domSet_statesKept d _ s
  · split
    · exact (stepClock_statesKept d D s).trans (stepClock_statesKept 0 D _)
    · exact stepClock_statesKept d D s

theorem setRateOf_statesKept (d : Nat) (r : Int) (s : State) : StatesKept s (setRateOf d r s) :=
  (domSet_statesKept d _ s).trans (wr_statesKept (f := F.TIME_Dn_RATE_PPB) d _ _ (by decide))

theorem servoRate_statesKept (d : Nat) (s : State) : StatesKept s (servoRate d s) := by
  have drawn : StatesKept s (fresh s).2 := .of_regs rfl rfl
  refine drawn.trans ?_
  simp only [servoRate, setRate]
  split
  · exact (setRateOf_statesKept d _ _).trans (setRateOf_statesKept 0 _ _)
  · exact setRateOf_statesKept d _ _

theorem updateErr_statesKept (d : Nat) (s : State) : StatesKept s (updateErr d s) := by
  have err (v : Nat) (t : State) : StatesKept t (wr (F.TIME_Dn_ERR_ERR.u d) v t) :=
    wr_statesKept (f := F.TIME_Dn_ERR_ERR) d v t (by decide)
  unfold updateErr
  split
  · exact err _ s
  · exact err _ s
  · exact .refl s
  · exact (StatesKept.of_regs rfl rfl : StatesKept s (fresh s).2).trans (err _ _)

theorem domTo_regs (d st : Nat) (s : State) : (domTo d st s).regs = (wr (F.TIME_Dn_STAT_STATE.u d) st s).regs := by
  simp only [domTo]; split <;> rfl

/-- Entering a state reaches the state register, and PPS_OUT with FREE. -/
theorem domTo_frame (d st : Nat) (s : State) : domTo d st s =
    { s with regs := (domTo d st s).regs, time := { s.time with ppsOut := (domTo d st s).time.ppsOut } } := by
  simp only [domTo]; split <;> rfl

theorem domTo_regsKept (d st : Nat) (s : State) : RegsKept [F.TIME_Dn_STAT_STATE.u d] s (domTo d st s) :=
  (regsKept_wr _ st s).to_regs (domTo_regs d st s)

theorem domState_domTo {d st : Nat} (s : State) (h : st < 8) : domState d (domTo d st s) = st :=
  (rd_congr _ _ _ (domTo_regs d st s)).trans (rd_wr_unit_of_lt d s h (by decide))

theorem rd_domTo_units {g : Field} (n d st : Nat) (s : State) (h : g.step = F.TIME_Dn_STAT_STATE.step ∧
    g.key % (32 * F.TIME_Dn_STAT_STATE.step) ≠ F.TIME_Dn_STAT_STATE.key % (32 * F.TIME_Dn_STAT_STATE.step)) :
    rd (g.u n) (domTo d st s) = rd (g.u n) s :=
  (rd_congr _ _ _ (domTo_regs d st s)).trans (rd_wr_units _ _ _ _ h)

@[simp] theorem dom_domTo (d st : Nat) (s : State) : dom d (domTo d st s) = dom d s := by
  rw [domTo_frame]; rfl

@[simp] theorem domTo_ports (d st : Nat) (s : State) : (domTo d st s).time.ports = s.time.ports := by rw [domTo_frame]

/-! ### The state that a Sync leaves (R84) -/

/-- FREE and HOLDOVER go to LOCKING; LOCKING goes to LOCKED with the eighth offset in a row below 200 ns, of which `low`
came before. -/
def syncState (st : Nat) (D : Int) (low : Nat) : Nat :=
  if st = 0 ∨ st = 3 then 1 else if st = 1 ∧ D.natAbs < 200 ∧ 7 ≤ low then 2 else st

theorem syncState_lt {st : Nat} (D : Int) (low : Nat) (h : st ≤ 4) : syncState st D low < 8 := by
  unfold syncState; split
  · omega
  · split <;> omega

/-- The count of offsets below 200 ns in a row, this one included; the Sync that enters LOCKING is the first. -/
def syncLow (st : Nat) (D : Int) (low : Nat) : Nat :=
  if st = 0 ∨ st = 3 then (if D.natAbs < 200 then 1 else 0) else if D.natAbs < 200 then low + 1 else 0

theorem syncState_eq (st : Nat) (D : Int) (low : Nat) : syncState st D low =
    if st = 0 ∨ st = 3 then 1 else if st = 1 ∧ 8 ≤ syncLow st D low then 2 else st := by
  unfold syncState syncLow
  by_cases h : st = 0 ∨ st = 3
  · simp [h]
  · by_cases hD : D.natAbs < 200 <;> simp [h, hD]

/-- With domain 0's own Sync its steering ends (R87). -/
def ownSource (d : Nat) (s : State) : State := if d = 0 then wr (F.TIME_Dn_STAT_SOURCE.u 0) 0 s else s

theorem ownSource_statesKept (d : Nat) (s : State) : StatesKept s (ownSource d s) := by
  unfold ownSource; split
  · exact wr_statesKept (f := F.TIME_Dn_STAT_SOURCE) 0 0 s (by decide)
  · exact .refl s

theorem dom_ownSource (d e : Nat) (s : State) : dom e (ownSource d s) = dom e s := by
  unfold ownSource; split <;> rfl

/-- A complete Sync is noted in its domain: its time, its offset, and the count of low ones. -/
def syncNoted (d : Nat) (D : Int) (s : State) : State :=
  domSet d { dom d s with syncAt := s.time.loc, low := syncLow (domState d s) D (dom d s).low,
                          offs := (D.natAbs :: (dom d s).offs).take 8 } s

/-- A complete Sync is noted, moves the domain's state on, and corrects clock, rate and error. -/
theorem applySync_eq (d : Nat) (D : Int) (s : State) : ∃ u, StatesKept s u ∧ applySync d D s =
    updateErr d (servoRate d (correctOffset d (D * clkUnit) (domTo d (syncState (domState d s) D (dom d s).low) u))) := by
  obtain ⟨hst, -⟩ := ownSource_statesKept d s
  refine ⟨syncNoted d D (ownSource d s), (ownSource_statesKept d s).trans (domSet_statesKept d _ _), ?_⟩
  rw [syncState_eq, ← hst d, ← dom_ownSource d d s]
  rfl

theorem applySync_statesKept (d : Nat) (D : Int) (u : State) (st : Nat) : StatesKept (domTo d st u)
    (updateErr d (servoRate d (correctOffset d (D * clkUnit) (domTo d st u)))) :=
  ((correctOffset_statesKept d _ _).trans (servoRate_statesKept d _)).trans (updateErr_statesKept d _)

theorem domState_applySync {d : Nat} (D : Int) {s : State} (h : domState d s ≤ 4) :
    domState d (applySync d D s) = syncState (domState d s) D (dom d s).low := by
  obtain ⟨u, -, heq⟩ := applySync_eq d D s
  rw [heq, (applySync_statesKept d D u _).1, domState_domTo u (syncState_lt D _ h)]

theorem applySync_ports (d : Nat) (D : Int) (s : State) : (applySync d D s).time.ports = s.time.ports := by
  obtain ⟨u, ⟨-, hu⟩, heq⟩ := applySync_eq d D s
  rw [heq, (applySync_statesKept d D u _).2, domTo_ports, hu]

theorem domState_takeSync {d : Nat} (p : Nat) (m : SyncMsg) {s : State} (h : domState d s ≤ 4) :
    domState d (takeSync d p m s) = syncState (domState d s) (syncOffset d p m s) (dom d s).low :=
  domState_applySync (syncOffset d p m s) h

theorem takeSync_ports (d p : Nat) (m : SyncMsg) (s : State) : (takeSync d p m s).time.ports = s.time.ports :=
  applySync_ports d (syncOffset d p m s) s

theorem gptp_of_ports {d p : Nat} {s t : State} (h : t.time.ports = s.time.ports) : gptp d p t = gptp d p s := by
  simp [gptp, h]

/-- The offset of a Sync does not depend on whether its port holds one that waits. -/
theorem syncOffset_gptpSet_sync (d p : Nat) (m : SyncMsg) (x : Option SyncMsg) (s : State) :
    syncOffset d p m (gptpSet d p { gptp d p s with sync := x } s) = syncOffset d p m s := by
  have delay (k : Nat) : (gptp k p (gptpSet d p { gptp d p s with sync := x } s)).delay = (gptp k p s).delay := by
    simp only [gptp, gptpSet, tget_tput]
    split
    next h => rw [h]
    next => rfl
  have path : pathDelay d p (gptpSet d p { gptp d p s with sync := x } s) = pathDelay d p s := by
    show (if _ then _ else (gptp (delayDom d p s) p _).delay) = _
    rw [delay]; rfl
  simp only [syncOffset, path]
  rfl

theorem execSync_of_oneStep {d : Fin 4} {p : Fin 32} {m : SyncMsg} {s : State} (hv : syncValid d p s = true)
    (hm : m.twoStep = false) : execSync d p m s = .next (takeSync d p m s) := by
  simp [execSync, hv, hm]

theorem execFollowUp_of_waiting {d : Fin 4} {p : Fin 32} {m y : SyncMsg} {s : State} (hy : (gptp d p s).sync = some y)
    (hv : syncValid d p s = true) (hq : y.seq = m.seq) : execFollowUp d p m s =
      .next (takeSync d p { y with origin := m.origin, corr := y.corr + m.corr }
        (gptpSet d p { gptp d p s with sync := none } s)) := by
  simp [execFollowUp, hy, hv, hq]

/-! ### BMCA (R82, R84) -/

theorem updateErr_of_free {d : Nat} {s : State} (h : domState d s = 0) :
    updateErr d s = wr (F.TIME_Dn_ERR_ERR.u d) 0xFFFFFFFF s := by
  simp [updateErr, h]

theorem rd_updateErr_of_free {d : Nat} {s : State} (h : domState d s = 0) :
    rd (F.TIME_Dn_ERR_ERR.u d) (updateErr d s) = 0xFFFFFFFF := by
  rw [updateErr_of_free h, rd_wr_same]; rfl

theorem updateErr_regsKept (d : Nat) (s : State) : RegsKept [F.TIME_Dn_ERR_ERR.u d] s (updateErr d s) := by
  unfold updateErr
  split
  · exact regsKept_wr _ _ s
  · exact regsKept_wr _ _ s
  · exact (RegsKept.refl [] s).mono (by simp)
  · exact regsKept_wr _ _ (fresh s).2

theorem rd_updateErr_slavePort (d : Nat) (s : State) :
    rd (F.TIME_Dn_STAT_SLAVE_PORT.u d) (updateErr d s) = rd (F.TIME_Dn_STAT_SLAVE_PORT.u d) s :=
  updateErr_regsKept d s _ fun _ hf => List.mem_singleton.mp hf ▸ key_u_ne_of_mod d d (by decide)

theorem gptpSend_regs (p : Nat) (b : List Byte) (s : State) : (gptpSend p b s).regs = s.regs := by
  simp only [gptpSend, transmit]; split <;> rfl

theorem each_regs {α : Type} (l : List α) (f : α → State → State) (s : State) (h : ∀ a s, (f a s).regs = s.regs) :
    (each l f s).regs = s.regs :=
  foldl_keepP l (fun s a => f a s) (fun s : State => s.regs) (fun b a => h a b) s

/-- Announces touch no register. -/
theorem announceAll_regs (d : Nat) (a : Announce) (s : State) : (announceAll d a s).regs = s.regs :=
  each_regs _ _ (domSet d _ s) fun p t => gptpSend_regs p _ t

theorem rd_announceAll (f : Field) (d : Nat) (a : Announce) (s : State) : rd f (announceAll d a s) = rd f s :=
  rd_congr _ _ _ (announceAll_regs d a s)

section
variable {d : Fin 4} {l : List Announce} {a : Announce} {s : State} (hu : svcUp 1 s = true) (hd : domOn d s = true)
  (hb : cfgN C.timeDom d 1 1 s = 1) (ha : bmcaSelect d l s = some a)
include hu hd hb ha

theorem execBmca_of_self (hi : a.identity = Config.clockIdentity) : execBmca d l s =
    .next (announceAll d a (updateErr d (domTo d 4 (wr (F.TIME_Dn_STAT_SLAVE_PORT.u d) 0x3F s)))) := by
  simp [execBmca, hu, hd, hb, ha, hi]

theorem execBmca_of_other (hi : a.identity ≠ Config.clockIdentity) (h4 : domState d s = 4) : execBmca d l s =
    .next (announceAll d a (updateErr d (domTo d 0 (wr (F.TIME_Dn_STAT_SLAVE_PORT.u d) a.port s)))) := by
  have gm : domState d (wr (F.TIME_Dn_STAT_SLAVE_PORT.u d) a.port s) = 4 :=
    (rd_wr_units _ _ _ _ (by decide)).trans h4
  simp [execBmca, hu, hd, hb, ha, hi, gm]

end

/-- The slave port that BMCA gives shows once the domain's state and error have followed. -/
theorem rd_slavePort_bmca {d st v : Nat} (s : State) (hv : v < 64) :
    rd (F.TIME_Dn_STAT_SLAVE_PORT.u d) (updateErr d (domTo d st (wr (F.TIME_Dn_STAT_SLAVE_PORT.u d) v s))) = v := by
  rw [rd_updateErr_slavePort, rd_domTo_units _ _ _ _ (by decide), rd_wr_unit_of_lt d s hv (by decide)]

/-! ### Receipt timeout and holdover (R84, R85, R87) -/

theorem execSyncReceiptTimeout_of_locking {d : Fin 4} {s : State} (hd : domOn d s = true) (h1 : domState d s = 1)
    (ht : syncDue d s ≤ s.time.loc) : execSyncReceiptTimeout d s =
      .next (updateErr d (domTo d 0 (domSet d { dom d s with low := 0, slew := 0 } s))) := by
  simp [execSyncReceiptTimeout, hd, h1, ht]

theorem rd_source_toHoldover (d : Nat) (s : State) :
    rd (F.TIME_Dn_STAT_SOURCE.u 0) (toHoldover d s) = rd (F.TIME_Dn_STAT_SOURCE.u 0) s := by
  rw [toHoldover, inc, incBy, rd_wr_units _ _ _ _ (by decide), rd_domTo_units _ _ _ _ (by decide)]; rfl

theorem execSyncReceiptTimeout_of_locked {d : Fin 4} {s : State} (hd : domOn d s = true) (h2 : domState d s = 2)
    (h0 : d.val ≠ 0) (hs : rd (F.TIME_Dn_STAT_SOURCE.u 0) s ≠ d.val) (ht : syncDue d s ≤ s.time.loc) :
    execSyncReceiptTimeout d s = .next (toHoldover d s) := by
  have left : leaveLocked d s = toHoldover d s := by simp only [leaveLocked, h0, rd_source_toHoldover, hs, if_false]
  simp [execSyncReceiptTimeout, hd, h2, ht, h0, left]

theorem domState_toHoldover (d : Nat) (s : State) : domState d (toHoldover d s) = 3 :=
  (rd_wr_units (g := F.TIME_Dn_STAT_STATE) (f := F.TIME_Dn_CNT_HOLDS) d d _ _ (by decide)).trans
    (domState_domTo _ (by omega))

theorem rd_holds_toHoldover (d : Nat) (s : State) :
    rd (F.TIME_Dn_CNT_HOLDS.u d) (toHoldover d s) = min (rd (F.TIME_Dn_CNT_HOLDS.u d) s + 1) 65535 := by
  rw [toHoldover, rd_inc_unit d _ (by decide), rd_domTo_units _ _ _ _ (by decide)]; rfl

theorem dom_toHoldover (d : Nat) (s : State) : dom d (toHoldover d s) =
    { dom d s with holdAt := s.time.loc, holdErr := rd (F.TIME_Dn_ERR_ERR.u d) s, low := 0 } :=
  (dom_domTo d 3 _).trans (dom_domSet_same _ _ _)

theorem execHoldoverLimit_of_passed {d : Fin 4} {s : State} (h3 : domState d s = 3)
    (ht : (dom d s).holdAt + cfgN C.timeHdr 0 2 2 s * 1000000 ≤ s.time.loc) :
    execHoldoverLimit d s = .next (updateErr d (domTo d 0 s)) := by
  simp [execHoldoverLimit, h3, ht]

theorem domState_updateErr_domTo {d st : Nat} (s : State) (h : st < 8) :
    domState d (updateErr d (domTo d st s)) = st :=
  ((updateErr_statesKept d _).1 d).trans (domState_domTo s h)

theorem rd_err_domTo_free (d : Nat) (s : State) :
    rd (F.TIME_Dn_ERR_ERR.u d) (updateErr d (domTo d 0 s)) = 0xFFFFFFFF :=
  rd_updateErr_of_free (domState_domTo s (by omega))

/-- Settles O5: a Sync's state is syncState, which its corrections keep; BMCA, the timeout and the limit enter their states
by domTo, and what follows leaves the state registers. -/
theorem domainStatesFollowTheTable : Obligations.DomainStatesFollowTheTable := by
  unfold Obligations.DomainStatesFollowTheTable
  refine ⟨fun d p m s hv hm h4 => ?oneStep, fun d p m y s hy hv hq h4 => ?twoStep, fun d l a s hu hd hb ha hi => ?gm,
    fun d l a s hu hd hb ha hi h4 => ?leave, fun d s hd h1 ht => ?locking, fun d s hd h2 h0 hs ht => ?locked,
    fun d s h3 ht => ?limit⟩
  case oneStep => exact ⟨_, execSync_of_oneStep hv hm, domState_takeSync p m h4⟩
  case twoStep =>
    refine ⟨_, execFollowUp_of_waiting hy hv hq, ?_, ?_⟩
    · rw [gptp_of_ports (takeSync_ports _ _ _ _), gptp_gptpSet_same]
    · rw [domState_takeSync (s := gptpSet d p { gptp d p s with sync := none } s) _ _ h4, syncOffset_gptpSet_sync]; rfl
  case gm =>
    refine ⟨_, execBmca_of_self hu hd hb ha hi, ?_, ?_⟩
    · exact (rd_announceAll _ d a _).trans (domState_updateErr_domTo _ (by omega))
    · exact (rd_announceAll _ d a _).trans (rd_slavePort_bmca s (by omega))
  case leave =>
    refine ⟨_, execBmca_of_other hu hd hb ha hi h4, ?_, ?_, ?_⟩
    · exact (rd_announceAll _ d a _).trans (domState_updateErr_domTo _ (by omega))
    · exact (rd_announceAll _ d a _).trans (rd_slavePort_bmca s (by omega))
    · exact (rd_announceAll _ d a _).trans (rd_err_domTo_free _ _)
  case locking =>
    exact ⟨_, execSyncReceiptTimeout_of_locking hd h1 ht, domState_updateErr_domTo _ (by omega), rd_err_domTo_free _ _⟩
  case locked =>
    exact ⟨_, execSyncReceiptTimeout_of_locked hd h2 h0 hs ht, domState_toHoldover _ s, rd_holds_toHoldover _ s,
      by rw [dom_toHoldover], by rw [dom_toHoldover]⟩
  case limit =>
    refine ⟨_, execHoldoverLimit_of_passed h3 ht, domState_updateErr_domTo _ (by omega), rd_err_domTo_free _ _, ?_, ?_⟩
    · exact (domTo_regsKept d 0 s).trans (updateErr_regsKept d _)
    · rw [updateErr_of_free (domState_domTo s (by omega)), domTo_frame]; rfl

end Sys2Proof.Machine

namespace Sys2Proof.Machine

/-! ### The run state of a stipple entry (R102, R106) -/

@[simp] theorem stpRun_stpSet_same (e : Nat) (r : StpRun) (s : State) : stpRun e (stpSet e r s) = r :=
  tget_tput_same _ _ _ _

theorem stpRun_congr {e : Nat} {s t : State} (h : t.stp = s.stp) : stpRun e t = stpRun e s := by simp [stpRun, h]

@[simp] theorem stpRun_stpCount (e : Nat) (s : State) :
    stpRun e (stpCount e s) = { stpRun e s with launched := sat32 (stpRun e s).launched } := stpRun_stpSet_same _ _ _

/-- Entry e has fired its instant t: it is the entry's last one, and takes one of the tick's four places (R106, R107). -/
def stpFired (e t : Nat) (s : State) : State :=
  stpSet e { stpRun e s with last := some t } { s with stp := { s.stp with
    tickNs := s.time.loc, tickCnt := (if s.stp.tickNs = s.time.loc then s.stp.tickCnt else 0) + 1 } }

@[simp] theorem stpRun_stpFired (e t : Nat) (s : State) :
    stpRun e (stpFired e t s) = { stpRun e s with last := some t } := stpRun_stpSet_same _ _ _

section
variable {act e : Nat} {s : State} (h : StippleDue act e s)
include h

/-- A due instant fires; what `put` keeps is there already when the instant was deferred before (R107). -/
theorem stpFireWith_of_due (put f : Nat → State → State) :
    stpFireWith act e put f s = f (stpNext e s)
      (if (stpRun e s).deferred = some (stpNext e s) then stpFired e (stpNext e s) s
        else put (stpNext e s) (stpFired e (stpNext e s) s)) := by
  obtain ⟨hon, hact, hrun, hlen, hnow, hsus, hfour⟩ := h
  have fires : (stpOn e s && stpAct e s == act && stpRunning s && stpLen e s != 0) = true := by
    simp [hon, hact, hrun, hlen]
  simp only [stpFireWith, fires, hsus, Nat.not_lt.mpr hnow, Nat.not_le.mpr hfour, Bool.not_true, Bool.false_eq_true,
    if_false]
  split <;> rfl

theorem stpFire_of_due (f : Nat → State → State) :
    stpFire act e f s = f (stpNext e s) (stpFired e (stpNext e s) s) := by
  rw [stpFire, stpFireWith_of_due h, ite_self]

end

/-! ### Launches (R112, R113) -/

section
variable {e t : Nat} {s : State} (hl : (stpRun e s).late = none)
include hl

/-- An instant without its frames waits for them as late, within the limit, when the entry waits. -/
theorem stpInstant_of_unready (hr : stpReady e s = false) (hw : bit (stpN e 1 1 s) 1 = true)
    (ht : shortNs s ≤ t + stpLimit e s) : stpInstant e t s = stpSet e { stpRun e s with late := some t } s := by
  simp [stpInstant, stpMissed, hl, hr, hw, Nat.not_lt.mpr ht]

/-- An instant whose frames are linked, and that no step of domain 0 passed over, releases them and counts. -/
theorem stpInstant_of_ready {r : State} (hr : stpReady e s = true) (hs : stpStepped t s = false)
    (hrel : stpRelease e s = (true, r)) :
    stpInstant e t s = stpCount e (stpSet e { stpRun e r with prepared := none } r) := by
  simp [stpInstant, stpLaunch, hl, hr, hs, hrel]

end

section
variable {act e : Nat} {s : State} (h : StippleDue act e s) (hl : (stpRun e s).late = none)
include h hl

/-- A launch entry's due instant that is left waiting. -/
theorem stpFire_stpInstant_of_unready (hr : stpReady e s = false) (hw : bit (stpN e 1 1 s) 1 = true)
    (ht : shortNs s ≤ stpNext e s + stpLimit e s) : stpFire act e (stpInstant e) s =
      stpSet e { stpRun e s with last := some (stpNext e s), late := some (stpNext e s) }
        (stpFired e (stpNext e s) s) := by
  rw [stpFire_of_due h, stpInstant_of_unready (s := stpFired e (stpNext e s) s) (by simpa using hl) hr hw ht,
    stpRun_stpFired]

/-- A launch entry's due instant that releases its frames. -/
theorem stpFire_stpInstant_of_ready {r : State} (hr : stpReady e s = true) (hs : stpStepped (stpNext e s) s = false)
    (hrel : stpRelease e (stpFired e (stpNext e s) s) = (true, r)) :
    stpFire act e (stpInstant e) s = stpCount e (stpSet e { stpRun e r with prepared := none } r) := by
  rw [stpFire_of_due h, stpInstant_of_ready (s := stpFired e (stpNext e s) s) (by simpa using hl) hr hs hrel]

end

/-! ### Gates and events (R217, R316) -/

theorem gateForce_forced (p v : Nat) (s : State) :
    (ethPort p (gateForce p v s)).forced = if bit v 8 then some (v % 256) else none := by
  have shown (t : State) : ethPort p (gateShow p t) = ethPort p t := rfl
  have set : ethPort p (ethSet p { ethPort p s with forced := if bit v 8 then some (v % 256) else none } s) =
      { ethPort p s with forced := if bit v 8 then some (v % 256) else none } := tget_tput_same _ _ _ _
  simp only [gateForce, when]
  split
  · split
    · exact congrArg EthPort.forced set
    · rw [shown, set]
  · rw [shown, set]

theorem gateForce_stp (p v : Nat) (s : State) : (gateForce p v s).stp = s.stp := by
  simp only [gateForce, when]
  split
  · split <;> rfl
  · rfl

@[simp] theorem eng_engSet_same (g : Nat) (x : Engine) (s : State) : eng g (engSet g x s) = x := tget_tput_same _ _ _ _

section
variable {g : Nat} (h : g < 16) (v : Ev) (s : State)
include h

/-- An event pends at its engine; beside it only the mark of the most that pended can change (R316). -/
theorem evRaise_frame : evRaise g v s =
    { s with regs := (evRaise g v s).regs, grv := (engSet g { eng g s with evs := (eng g s).evs ++ [v] } s).grv } := by
  rw [evRaise, if_pos h, pendMark, markMax_frame]; rfl

theorem eng_evRaise : eng g (evRaise g v s) = { eng g s with evs := (eng g s).evs ++ [v] } := by
  rw [evRaise_frame h]; exact eng_engSet_same g _ s

end

theorem evRaise_stp (g : Nat) (v : Ev) (s : State) : (evRaise g v s).stp = s.stp := by
  by_cases h : g < 16
  · rw [evRaise_frame h]
  · rw [evRaise, if_neg h]

@[simp] theorem stpRun_snapCut (e k t : Nat) (s : State) : stpRun e (snapCut k t s) = stpRun e s := rfl

/-! ### The actions (R103) -/

section
variable {e : Fin 4096} {s : State}

/-- An engine's event raised at an instant that counts as launched. -/
theorem stpCount_evRaise {g : Nat} (hg : g < 16) (v : Ev) (u : State) (hr : (stpRun e u).launched = (stpRun e s).launched)
    (hv : (eng g u).evs = (eng g s).evs) :
    (stpRun e (stpCount e (evRaise g v u))).launched = sat32 (stpRun e s).launched ∧
      (eng g (stpCount e (evRaise g v u))).evs = (eng g s).evs ++ [v] := by
  have events : eng g (stpCount e (evRaise g v u)) = eng g (evRaise g v u) := rfl
  refine ⟨?_, ?_⟩
  · rw [stpRun_stpCount, stpRun_congr (evRaise_stp g v u), hr]
  · rw [events, eng_evRaise hg, hv]

theorem execGate_of_due (h : StippleDue 3 e s) (hp : stpTarget e s < 16) : execGate e s =
    .next (stpCount e (gateForce (stpTarget e s) (stpParam e s) (stpFired e (stpNext e s) s))) := by
  have port : stpTarget e (stpFired e (stpNext e s) s) < 16 := hp
  simp only [execGate, stpFire_of_due h, port, if_true]
  rfl

/-- The pins of the stipple outputs with pin n driven to v (R103). -/
def pinSet (n : Nat) (v : Bool) (s : State) : State := { s with stp := { s.stp with pins := putBit s.stp.pins n v } }

@[simp] theorem stpRun_pinSet (e n : Nat) (v : Bool) (s : State) : stpRun e (pinSet n v s) = stpRun e s := rfl

theorem stpDrive_pin {n : Nat} (h : n < 4) (v : Bool) (s : State) : stpDrive n v s = pinSet n v s := if_pos h

theorem execOutput_of_high (h : StippleDue 5 e s) (ht : stpTarget e s < 4) (hp : stpParam e s = 1) : execOutput e s =
    .next (stpCount e (pinSet (stpTarget e s) true (stpFired e (stpNext e s) s))) := by
  have high : stpParam e (stpFired e (stpNext e s) s) = 1 := hp
  simp only [execOutput, stpFire_of_due h, high]
  exact congrArg (fun u => Host.Outcome.next (stpCount e u)) (stpDrive_pin ht true _)

theorem t1sInstant_of_cycle {sg t : Nat} (hm : t1sMode sg s = 1) (hf : t1sFlag sg 0 s = true) (hl : t1sLow sg s = false)
    (hc : (t1sSeg sg s).cycle = true) : t1sInstant sg t s = t1sSet sg { t1sSeg sg s with align := some t } s := by
  simp [t1sInstant, hm, hf, hl, hc]

/-- The running cycle of segment sg keeps the instant of a PLCA_BEACON (R227). -/
def beaconKept (sg t : Nat) (s : State) : State := t1sSet sg { t1sSeg sg s with align := some t } s

@[simp] theorem stpRun_beaconKept (e sg t : Nat) (s : State) : stpRun e (beaconKept sg t s) = stpRun e s := rfl

theorem execPlcaBeacon_of_cycle (h : StippleDue 6 e s) (ht : stpTarget e s < 16) (hm : t1sMode (stpTarget e s) s = 1)
    (hf : t1sFlag (stpTarget e s) 0 s = true) (hl : t1sLow (stpTarget e s) s = false)
    (hc : (t1sSeg (stpTarget e s) s).cycle = true) : execPlcaBeacon e s =
      .next (stpCount e (beaconKept (stpTarget e s) (stpNext e s) (stpFired e (stpNext e s) s))) := by
  have target : stpTarget e (stpFired e (stpNext e s) s) = stpTarget e s := rfl
  have instant := t1sInstant_of_cycle (s := stpFired e (stpNext e s) s) (t := stpNext e s) hm hf hl hc
  simp only [execPlcaBeacon, stpFire_of_due h, target, ht, if_true, instant]
  rfl

end

/-- Settles O7: a due instant fires on stpFired; each action is then its own operation, counted by stpCount, which leaves
what the action did. -/
theorem stippleInstantsFire : Obligations.StippleInstantsFire := by
  unfold Obligations.StippleInstantsFire
  refine ⟨fun e s h => ?nop, fun e s h hl hr hw ht => ?frameWaits, fun e s h hl hr hw ht => ?pduWaits,
    fun e r s h hl hr hs hrel => ?frame, fun e r s h hl hr hs hrel => ?pdu, fun e s h hp => ?gate, fun e s h => ?snapshot,
    fun e s h ht hp => ?output, fun e s h ht hm hf hl hc => ?beacon, fun e s h => ?event⟩
  case nop => exact ⟨_, congrArg Host.Outcome.next (stpFire_of_due h _), by simp, by simp, rfl⟩
  case frameWaits =>
    exact ⟨_, congrArg Host.Outcome.next (stpFire_stpInstant_of_unready h hl hr hw ht), by simp, by simp, rfl⟩
  case pduWaits =>
    exact ⟨_, congrArg Host.Outcome.next (stpFire_stpInstant_of_unready h hl hr hw ht), by simp, by simp, rfl⟩
  case frame =>
    exact ⟨_, congrArg Host.Outcome.next (stpFire_stpInstant_of_ready h hl hr hs hrel), by simp, rfl⟩
  case pdu =>
    exact ⟨_, congrArg Host.Outcome.next (stpFire_stpInstant_of_ready h hl hr hs hrel), by simp, rfl⟩
  case gate =>
    refine ⟨_, execGate_of_due h hp, ?_, gateForce_forced _ _ _⟩
    rw [stpRun_stpCount, stpRun_congr (gateForce_stp _ _ _), stpRun_stpFired]
  case snapshot =>
    refine ⟨_, congrArg Host.Outcome.next (stpFireWith_of_due h _ _), ?_⟩
    split
    · exact stpCount_evRaise (by omega) _ _ (by simp) rfl
    · exact stpCount_evRaise (by omega) _ _ (by simp) rfl
  case output => exact ⟨_, execOutput_of_high h ht hp, rfl, by simp, rfl⟩
  case beacon =>
    refine ⟨_, execPlcaBeacon_of_cycle h ht hm hf hl hc, ?_, ?_, rfl⟩
    · exact congrArg T1sSeg.align (tget_tput_same _ _ _ _)
    · simp
  case event =>
    exact ⟨_, congrArg Host.Outcome.next (stpFire_of_due h _), stpCount_evRaise (by omega) _ _ (by simp) rfl⟩

end Sys2Proof.Machine

namespace Sys2Proof.Machine

/-! ### Pulses, preparations, guard windows and late limits (R103, R109–R113) -/

theorem not_mem_sdel (l : List Nat) (k : Nat) : k ∉ sdel l k := by simp [sdel]

/-- A pin's pulse is over: the pin is low. -/
theorem execOutputPulseEnd_pin {n : Fin 4} {s : State} (h : n.val ∈ s.stp.pulse) : execOutputPulseEnd (.pin n) s =
    .next (pinSet n false { s with stp := { s.stp with pulse := sdel s.stp.pulse n } }) := by
  have low := stpDrive_pin n.isLt false { s with stp := { s.stp with pulse := sdel s.stp.pulse n } }
  simp [execOutputPulseEnd, h, low]

/-- The instant t of entry e is prepared, in ACTIVE (R110, R111). -/
def stpPrepared (e t : Nat) (s : State) : State :=
  stpSet e { stpRun e s with prepared := some t } { s with pwr := { s.pwr with mode := 0 } }

theorem execPreparationEvent_of_due {e : Fin 4096} {gv : Fin 4} {s : State} (h : prepDue e gv s = true) :
    execPreparationEvent e gv s =
      .next (evRaise gv ⟨3, 0, stpTarget e s, e, stpNext e s⟩ (stpPrepared e (stpNext e s) s)) := by
  simp only [execPreparationEvent, h, if_true]; rfl

/-- The port p starts nothing else until t (R109). -/
def guardUntil (p t : Nat) (s : State) : State :=
  { s with stp := { s.stp with guard := tput s.stp.guard p (max (tget 0 s.stp.guard p) t) } }

theorem execGuardWindow_of_near {e : Fin 4096} {p : Nat} {s : State} (hq : qTarget (stpQueue e s) s = (0, p)) (hp : p < 16)
    (hon : stpOn e s = true) (ha : stpAct e s = 1 ∨ stpAct e s = 2) (hr : stpRunning s = true)
    (ht : stpNext e s ≤ shortNs s + guardNs p s + 4) : execGuardWindow e s = .next (guardUntil p (stpNext e s) s) := by
  simp only [execGuardWindow, hq]
  rw [if_pos (by simp [hp, hon, ha, hr, ht])]
  rfl

/-- An instant of entry e is skipped, with nothing prepared to abandon (R113). -/
def stpSkipped (e : Nat) (s : State) : State :=
  stpSet e { stpRun e s with skipCnt := sat16 (stpRun e s).skipCnt, late := none, prepared := none } s

theorem stpSkip_of_frame {e : Nat} {s : State} (h : stpAct e s = 1) :
    stpSkip e s = inc F.STP_SKIP_CNT_COUNT (stpSkipped e s) := by
  have abandoned : stpAbandon e s = s := by simp [stpAbandon, h]
  simp only [stpSkip, abandoned]
  rfl

theorem execLateLimit_of_passed {e : Fin 4096} {i : Nat} {s : State} (hl : (stpRun e s).late = some i)
    (ht : i + stpLimit e s ≤ shortNs s) (h : stpAct e s = 1) :
    execLateLimit e s = .next (inc F.STP_SKIP_CNT_COUNT (stpSkipped e s)) := by
  simp only [execLateLimit, hl, ht, if_true, stpSkip_of_frame h]

/-- Settles O8: each timer is one update of the stipple state, with an engine's event or the count of skips beside it. -/
theorem stippleTimersComplete : Obligations.StippleTimersComplete := by
  unfold Obligations.StippleTimersComplete
  refine ⟨fun n s h => ?pulse, fun e gv s hon ha hr hs hl hn hg ht => ?prepare,
    fun e p s hq hp hon ha hr ht => ?guard, fun e i s hl ht h => ?limit⟩
  case pulse => exact ⟨_, execOutputPulseEnd_pin h, rfl, not_mem_sdel _ _, rfl⟩
  case prepare =>
    have lead : stpNext e s ≤ shortNs s + stpParam2 e s + if s.pwr.mode = 1 then 2000 else 0 :=
      Nat.le_add_right_of_le ht
    have due : prepDue e gv s = true := by simp [prepDue, hon, ha, hr, hs, hl, hn, hg, lead]
    have below : gv.val < 16 := by omega
    refine ⟨_, execPreparationEvent_of_due due, ?_, ?_, ?_⟩
    · rw [stpRun_congr (evRaise_stp _ _ _), stpPrepared, stpRun_stpSet_same]
    · rw [eng_evRaise below]; rfl
    · rw [evRaise_frame below]; rfl
  case guard =>
    exact ⟨_, execGuardWindow_of_near hq hp hon ha hr ht, tget_tput_same _ _ _ _,
      fun q hq => tget_tput_ne _ _ _ _ _ hq, rfl⟩
  case limit =>
    have run : stpRun e (inc F.STP_SKIP_CNT_COUNT (stpSkipped e s)) =
        { stpRun e s with skipCnt := sat16 (stpRun e s).skipCnt, late := none, prepared := none } :=
      stpRun_stpSet_same _ _ s
    exact ⟨_, execLateLimit_of_passed hl ht h, by rw [run], by rw [run],
      (RegsKept.of_regs rfl).trans (regsKept_wr F.STP_SKIP_CNT_COUNT _ (stpSkipped e s)), rfl⟩

end Sys2Proof.Machine

namespace Sys2Proof.Machine

/-! ### O31: a tamper source that is already inactive leaves the register as it stands

The clause of TAMPER_SOURCE_INACTIVE gives KEY_TAMPER_STAT.ACTIVE cut to its 6 bits, for every state. A source whose bit is 0
changes nothing, so that a state whose register table holds a value beyond the field keeps it. No step writes such a value
(`wr` cuts); the clause lacks the premise `rd F.KEY_TAMPER_STAT_ACTIVE s < 2 ^ 6`. -/

theorem exec_tamperSourceInactive_of_clear {src : Fin 6} {s : State} (h : bit (rd F.KEY_TAMPER_STAT_ACTIVE s) src = false) :
    exec (.tamperSourceInactive src) s = .next s := by
  simp [execTamperSourceInactive, h]

/-- The reset state with 64, which is beyond the 6 bits of the field, in KEY_TAMPER_STAT.ACTIVE. -/
def tamperWide : State := { State.reset with regs := tput [] F.KEY_TAMPER_STAT_ACTIVE.key 64 }

theorem rd_tamperWide : rd F.KEY_TAMPER_STAT_ACTIVE tamperWide = 64 := by
  simp [rd, tamperWide]

/-- Refutes O31: in a state whose KEY_TAMPER_STAT.ACTIVE holds 64, TAMPER_SOURCE_INACTIVE of source 0 changes nothing, while
the clause asks for the value cut to 6 bits, which is 0. -/
theorem not_powerRecorderAndDebugComplete : ¬ Obligations.PowerRecorderAndDebugComplete := by
  unfold Obligations.PowerRecorderAndDebugComplete
  rintro ⟨-, -, -, -, -, -, -, -, -, -, -, -, -, -, -, -, -, -, -, -, -, -, -, -, -, -, -, -, -, -, tamper, -⟩
  obtain ⟨t, ht, hact, -⟩ := tamper 0 tamperWide
  rw [exec_tamperSourceInactive_of_clear (by rw [rd_tamperWide]; decide)] at ht
  cases ht
  rw [rd_tamperWide] at hact
  exact absurd hact (by decide)

end Sys2Proof.Machine

namespace Sys2Proof.Machine

/-! ### O21: TARM of a timer that has run out, where its key is listed twice

TARM first raises the expiry of its timer, which erases one entry of the key, and then disarms it, which erases another. The
clause gives the timers after one erasure. The two agree for a table whose keys rise strictly, the only kind that `tput` and
`terase` make; the clause lacks that premise, `tsorted (eng e s).timers`. -/

section
variable {e : Fin 16} {c : Fin 8} {s : State}

theorem gvIssue_of_runs (h : GvRuns e c s) (f : Ctx → Ctx) (g : Ctx → State → State) :
    gvIssue e c (fun x s => (.ok (f x), g x s)) s = ctxSet e c (f (gvIssued (ctx e c s))) (g (gvIssued (ctx e c s)) s) := by
  simp [gvIssue, h.1, h.2]

theorem timers_ctxSet (x : Ctx) (s : State) : (eng e (ctxSet e c x s)).timers = (eng e s).timers := by
  simp [eng, ctxSet, engShow, wr, engSet]

theorem timers_timerRaise {k at_ : Nat} (hk : tfind (eng e s).timers k = some at_) (hd : at_ ≤ shortNs s) :
    (eng e (timerRaise e k s)).timers = terase (eng e s).timers k := by
  simp [timerRaise, hk, Nat.not_lt.mpr hd, eng_evRaise]

theorem exec_tarm_disarms (h : GvRuns e c s) {w : BitVec 26} {at_ : Nat} (hA : wA w = 0)
    (hk : tfind (eng e s).timers (bits (wImm w) 0 4) = some at_) (hd : at_ ≤ shortNs s) :
    ∃ t, exec (.tarm e c w) s = .next t ∧
      (eng e t).timers = terase (terase (eng e s).timers (bits (wImm w) 0 4)) (bits (wImm w) 0 4) := by
  have hx : (gvIssued (ctx e c s)).get (wA w) = 0 := by simp [Ctx.get, hA]
  refine ⟨_, congrArg Host.Outcome.next (gvIssue_of_runs h id _), ?_⟩
  simp [timers_ctxSet, timers_timerRaise hk hd, hx]

end

/-- The reset state with engine 0 running, its context 0 ready, and its timer 0 listed twice, both entries run out. -/
def timerTwice : State := { State.reset with
  grv := { engs := [(0, { timers := [(0, 0), (0, 0)], ctxs := [(0, { st := 1 })] })] }
  pwr := { State.reset.pwr with mode := 0 }
  regs := tput (tput [] (F.GRV_GVn_STAT_STATE.u 0).key 1) F.GRV_CFG_BUDGET.key 1 }

theorem gvRuns_timerTwice : GvRuns 0 0 timerTwice := by
  constructor <;> decide

/-- Refutes O21: with timer 0 listed twice and run out, TARM with A = g0 leaves no entry of it, while the clause asks for the
table after one erasure, which still lists it. -/
theorem not_graverQueuesAndControlComplete : ¬ Obligations.GraverQueuesAndControlComplete := by
  unfold Obligations.GraverQueuesAndControlComplete
  rintro ⟨-, -, -, -, -, -, -, -, -, tarm, -⟩
  obtain ⟨t, ht, htimers, -⟩ := tarm 0 0 0 timerTwice gvRuns_timerTwice
  obtain ⟨u, hu, hgone⟩ := exec_tarm_disarms (e := 0) (c := 0) (w := 0) (at_ := 0) gvRuns_timerTwice (by decide) (by decide) (Nat.zero_le _)
  obtain rfl : t = u := Host.Outcome.next.inj (ht.symm.trans hu)
  rw [hgone] at htimers
  exact absurd htimers (by decide)

end Sys2Proof.Machine

namespace Sys2Proof.Machine

/-! ### O9: a good frame of a segment whose number already stands in the staging of FN6

A staging list counts only the numbers that have a descriptor. A received frame takes the next number, which gives a stale
entry of that number a descriptor: after the reception the staging holds the number twice, while the clause of a good frame
asks for the staging before followed by the number once. No run reaches such a state: `stagePush` stages only numbers that
`newFrame` gave out, and `newFrame` moves `nextId` beyond them. The clause lacks the premise
`s.qm.nextId ∉ tget [] s.qm.stage 6`. -/

theorem tfind_tput_same {α : Type} (t : Tbl α) (k : Nat) (v : α) : tfind (tput t k v) k = some v := by
  induction t with
  | nil => simp [tput, tfind]
  | cons e r ih =>
    simp only [tput]
    split
    · simp [tfind]
    · split
      next hk => simp [tfind]
      next hk => simpa [tfind, hk] using ih

/-- A frame that has a descriptor joins behind the frames in staging (R127). -/
theorem staged_stagePush {node f : Nat} {s : State} (h : (tfind s.qm.frames f).isSome = true) :
    staged node (stagePush node f s) = staged node s ++ [f] := by
  simp [staged, stagePush, h]

/-- A stale entry of the next number counts as staged once that number has a descriptor. -/
theorem staged_rxEnter_of_stale {p : Nat} {s : State} (hroom : stagingFull (portNode p) s = false)
    (hstale : s.qm.nextId ∈ tget [] s.qm.stage (portNode p)) (x : Fr) :
    ∃ l, staged (portNode p) (rxEnter p x s) = l ++ [s.qm.nextId] ∧ s.qm.nextId ∈ l := by
  simp only [rxEnter, hroom]
  refine ⟨_, staged_stagePush ?_, List.mem_filter.mpr ⟨hstale, ?_⟩⟩ <;> simp [newFrame, tfind_tput_same, rawCapture]

theorem stagingFull_of_qm_eq {s u : State} (h : u.qm = s.qm) (node : Nat) : stagingFull node u = stagingFull node s := by
  simp [stagingFull, unwritten, staged, fr, h]

theorem t1sUsed_qm (sg : Nat) (s : State) : (t1sUsed sg s).qm = s.qm := by
  simp only [t1sUsed, when]
  split <;> rfl

theorem portMax_of_cfg_eq {s u : State} (h : u.cfg = s.cfg) (p : Nat) : portMax p u = portMax p s := by
  simp [portMax, cfgN, cfgRec, h]

/-- A good frame of a segment is counted and enters its node's staging with its FCS (R204–R206). -/
theorem exec_frameReceived_good_segment {p : Fin 32} {b : List Byte} {s : State} (hup : portUp p s = true)
    (hrun : domRuns .fab s = true) (hmin : 64 ≤ b.length) (hmax : b.length ≤ portMax p s) (hbuf : b.length ≤ 16384)
    (htype : frEt b ≠ 0x8808) (hp : 16 ≤ p.val) :
    ∃ u, u.qm = s.qm ∧ exec (.frameReceived p b .good) s =
      .next (rxEnter p { data := b.take (b.length - 4) ++ fcsBytes (b.take (b.length - 4)) } u) := by
  have hseg : ¬ p.val < 16 := Nat.not_lt.mpr hp
  have hfit : ¬ portMax p (incWrap (F.T1S_SGnn_RX_FRAMES_COUNT.u (p.val - 16)) (t1sUsed (p.val - 16) s)) < b.length := by
    rw [portMax_of_cfg_eq (s := s) (by simp [t1sUsed])]
    exact Nat.not_lt.mpr hmax
  refine ⟨incWrap (F.T1S_SGnn_RX_FRAMES_COUNT.u (p.val - 16)) (t1sUsed (p.val - 16) s), t1sUsed_qm _ _, ?_⟩
  simp [execFrameReceived, when, hup, hrun, hp, hseg, Nat.not_lt.mpr hmin, hfit, Nat.not_lt.mpr hbuf, htype, hashPass,
    rxSecurity, frerIngress, show 4 ≤ p.val by omega]

/-- The reset state in ACTIVE with segment 0 a coordinator of frames up to 64 bytes, and the next number, 0, in the staging
of FN6 without a descriptor. -/
def stagedStale : State := { State.reset with
  cfg := [(cfgKey C.t1s 0, [1, 0, 0, 0, 0, 0, 0, 0, 64, 0])]
  pwr := { State.reset.pwr with mode := 0 }
  qm := { State.reset.qm with stage := [(6, [0])] } }

/-- Refutes O9: a good frame of 64 bytes on segment 0 takes the number 0, which stands in the staging of FN6 without a
descriptor; the staging then holds 0 twice, while the clause asks for the empty staging followed by 0 once. -/
theorem not_switchCoreEventsComplete : ¬ Obligations.SwitchCoreEventsComplete := by
  unfold Obligations.SwitchCoreEventsComplete
  rintro ⟨-, -, goodFrame, -⟩
  have hup : portUp (16 : Fin 32) stagedStale = true := by decide
  have hrun : domRuns .fab stagedStale = true := by decide
  have hmax : (zeros 64).length ≤ portMax (16 : Fin 32) stagedStale := by decide
  have htype : frEt (zeros 64) ≠ 0x8808 := by decide
  have hroom : stagingFull 6 stagedStale = false := by decide
  obtain ⟨t, ht, hstaged, -⟩ := goodFrame 16 (zeros 64) stagedStale hup hrun (by decide) hmax (by decide) htype (by decide) hroom
  obtain ⟨u, hqm, hu⟩ := exec_frameReceived_good_segment hup hrun (by decide) hmax (by decide) htype (by decide)
  obtain rfl := Host.Outcome.next.inj (ht.symm.trans hu)
  obtain ⟨l, hl, hmem⟩ := staged_rxEnter_of_stale (p := 16) ((stagingFull_of_qm_eq hqm 6).trans hroom)
    (by rw [hqm]; decide) _
  have hl0 : staged 6 stagedStale = l :=
    List.append_cancel_right (hstaged.symm.trans (hl.trans (by rw [hqm])))
  rw [← hl0, hqm] at hmem
  exact absurd hmem (by decide)

end Sys2Proof.Machine

namespace Sys2Proof.Machine

/-! ### O10: a static FDB entry that RESTORE brings back is counted in LKP_Pp_FDB.USED

The clause of RESTORE keeps every register but LKP_RESTORE. A static FDB entry that comes back is a valid entry again, and USED
of its pipeline counts the valid entries: the scrub that removed the entry has lowered USED, and RESTORE raises it again. Every
run that loses a static entry to bad parity and restores it breaks the clause; its frame lacks `F.LKP_Pp_FDB_USED.u p`. -/

/-- A static entry that comes back stands at its place, and its pipeline's entries are counted anew (R197). -/
theorem restoreEntry_static {p i : Nat} {e : FdbE} {s : State} (h : fdbStatic (pk p i) s = some e) :
    restoreEntry (1, p, i) s = fdbCount p (fdbPut (pk p i) e s) := by
  simp [restoreEntry, h]

/-- The state in which RESTORE rewrites the one missing entry: none is missing any more, and one more is done (R197). -/
def restoring (s : State) : State :=
  wr F.LKP_RESTORE_PENDING 0 (incBy F.LKP_RESTORE_DONE 1 { s with lkp := { s.lkp with gone := [] } })

theorem exec_restore_of_one {x : Nat × Nat × Nat} {s : State} (hrun : domRuns .fab s = true) (hgone : s.lkp.gone = [x])
    (hgood : digestsAgree [lookupType x.1] s = true) : exec .restore s = .next (restoreEntry x (restoring s)) := by
  simp [execRestore, restoring, each, hrun, hgone, hgood]

theorem rd_used_fdbCount (p : Nat) (s : State) : rd (F.LKP_Pp_FDB_USED.u p) (fdbCount p s) = fdbUsed p s % 2 ^ 17 := by
  have fits : fdbUsed p s % 2 ^ 17 < 2 ^ 32 := by omega
  exact (rd_wr_same _ _ _).trans (Nat.mod_eq_of_lt fits)

/-- After RESTORE of one static entry, USED of its pipeline gives the valid entries with that one among them (R197). -/
theorem rd_used_of_restore {p i : Nat} {e : FdbE} {s t : State} (hrun : domRuns .fab s = true)
    (hgone : s.lkp.gone = [(1, p, i)]) (hgood : digestsAgree [lookupType 1] s = true)
    (hplate : fdbStatic (pk p i) (restoring s) = some e) (ht : exec .restore s = .next t) :
    rd (F.LKP_Pp_FDB_USED.u p) t = fdbUsed p (fdbPut (pk p i) e s) % 2 ^ 17 := by
  obtain rfl := Host.Outcome.next.inj ((exec_restore_of_one hrun hgone hgood).symm.trans ht)
  rw [restoreEntry_static hplate, rd_used_fdbCount]
  rfl

/-- The static entry of MAC 02:00:00:00:00:01 in VLAN 1, bound for port 0. -/
def station : FdbE := { mac := 0x020000000001, vlan := 1, dest := 0, static_ := true }

/-- The index of the first way of its bucket, where an empty pipeline holds it (R166). -/
def stationPlace : Nat := 4 * fdbBucket station.mac station.vlan

/-- The device in ACTIVE on copy A, whose only section is an empty SYSTEM. The one static entry in force has been removed from
pipeline A by a scrub and awaits its restoration: no entry is valid, and USED is 0. -/
def stationGone : State := { State.reset with
  cfg := [(cfgKey C.l2Fdb (station.mac * 4096 + station.vlan), [2, 0, 0, 0, 0, 1, 1, 0, 0, 0, 3, 0, 0, 0, 0, 0])]
  lkp := { gone := [(1, 0, stationPlace)] }
  pwr := { State.reset.pwr with mode := 0 }
  sys := { State.reset.sys with
    header := zeros 24 ++ [1]
    flash := (List.range 16).map fun k => (0x100 + k, if k = 0 then 1 else 0)
    digests := [[]] } }

theorem digestsAgree_stationGone : digestsAgree [lookupType 1] stationGone = true := by decide +kernel

theorem fdbStatic_station : fdbStatic (pk 0 stationPlace) (restoring stationGone) = some station := by decide +kernel

theorem fdbUsed_station : fdbUsed 0 (fdbPut (pk 0 stationPlace) station stationGone) = 1 := by decide +kernel

/-- Refutes O10: RESTORE brings the one static entry of `stationGone` back and sets LKP_P0_FDB.USED from 0 to 1, while the
clause keeps every register but LKP_RESTORE. -/
theorem not_lookupEventsComplete : ¬ Obligations.LookupEventsComplete := by
  unfold Obligations.LookupEventsComplete
  rintro ⟨-, -, -, -, restore, -⟩
  have hrun : domRuns .fab stationGone = true := by decide
  have hgood : stationGone.lkp.gone.all (fun x => digestsAgree [lookupType x.1] stationGone) = true := by
    simpa [stationGone] using digestsAgree_stationGone
  obtain ⟨t, ht, -, -, hkept, -⟩ := restore stationGone hrun hgood
  have before : rd (F.LKP_Pp_FDB_USED.u 0) t = 0 := hkept _ (by decide)
  have after := rd_used_of_restore hrun rfl digestsAgree_stationGone fdbStatic_station ht
  rw [before, fdbUsed_station] at after
  exact absurd after (by decide)

end Sys2Proof.Machine

namespace Sys2Proof.Machine

/-! ### The run states of ports, segments and buses, and what leaves an ungated transmitter -/

/-- A value written to a unit's field reads back cut to the field. -/
theorem rd_wr_unit {f : Field} (n v : Nat) (s : State) (hw : f.w ≤ 32) :
    rd (f.u n) (wr (f.u n) v s) = v % 2 ^ f.w := by
  have cut : v % 2 ^ f.w < 2 ^ 32 :=
    Nat.lt_of_lt_of_le (Nat.mod_lt v (Nat.two_pow_pos f.w)) (Nat.pow_le_pow_right (by omega) hw)
  rw [rd_wr_same, u_w, Nat.mod_eq_of_lt cut]

theorem rd_wrB_unit {f : Field} (n : Nat) (b : Bool) (s : State) (hw : 1 ≤ f.w) :
    rd (f.u n) (wrB (f.u n) b s) = b2n b := rd_wrB_same (f.u n) b s hw

theorem rd_wrB_units {g f : Field} (n m : Nat) (b : Bool) (s : State)
    (h : g.step = f.step ∧ g.key % (32 * f.step) ≠ f.key % (32 * f.step)) :
    rd (g.u n) (wrB (f.u m) b s) = rd (g.u n) s :=
  rd_wr_units _ _ _ _ h

theorem rd_inc_units {g f : Field} (n m : Nat) (s : State)
    (h : g.step = f.step ∧ g.key % (32 * f.step) ≠ f.key % (32 * f.step)) : rd (g.u n) (inc (f.u m) s) = rd (g.u n) s :=
  rd_wr_units _ _ _ _ h

theorem rd_incWrap_units {g f : Field} (n m : Nat) (s : State)
    (h : g.step = f.step ∧ g.key % (32 * f.step) ≠ f.key % (32 * f.step)) :
    rd (g.u n) (incWrap (f.u m) s) = rd (g.u n) s := rd_wr_units _ _ _ _ h

theorem regsKept_wrB (f : Field) (b : Bool) (s : State) : RegsKept [f] s (wrB f b s) := regsKept_wr f (b2n b) s

theorem regsKept_inc (f : Field) (s : State) : RegsKept [f] s (inc f s) := regsKept_wr f _ s

theorem regsKept_incWrap (f : Field) (s : State) : RegsKept [f] s (incWrap f s) := regsKept_wr f _ s

@[simp] theorem ethPort_ethSet_same (p : Nat) (x : EthPort) (s : State) : ethPort p (ethSet p x s) = x :=
  tget_tput_same _ _ _ _

@[simp] theorem frerRun_frerSet_same (e : Nat) (x : FrerRun) (s : State) : frerRun e (frerSet e x s) = x :=
  tget_tput_same _ _ _ _

@[simp] theorem mdioBus_mdioSet_same (b : Nat) (l : List MdioCmd) (s : State) : mdioBus b (mdioSet b l s) = l :=
  tget_tput_same _ _ _ _

@[simp] theorem t1sSeg_t1sSet_same (g : Nat) (x : T1sSeg) (s : State) : t1sSeg g (t1sSet g x s) = x :=
  tget_tput_same _ _ _ _

theorem transmit_of_sounding {d : Domain} {s : State} (o : Out) (h : silent d s = false) : transmit d o s = emit o s := by
  simp [transmit, h]

theorem macSend_of_open {p : Nat} {s : State} (o : Out) (ho : (ethPort p s).open_ = true) (hs : silent .sds s = false) :
    macSend p o s = emit o s := by
  simp [macSend, when, ho, transmit_of_sounding o hs]

end Sys2Proof.Machine

namespace Sys2Proof.Machine

/-! ### LINK_CHANGE (R204, R213) -/

/-- A link that is up already only shows its speed. -/
theorem linkUp_of_up {p : Nat} {s : State} (sp : Nat) (h : portUp p s = true) :
    linkUp p sp s = wr (F.ETH_PORTpp_STAT_SPEED.u p) sp (wrB (F.ETH_PORTpp_STAT_LINK.u p) true s) := by
  simp [linkUp, h]

section
variable {p : Fin 16} {s : State} (hn : ethN p 0 1 s ≠ 0) (hm : s.pwr.mode ≤ 1)
  (hd : s.sys.domHeld.contains (Domain.num .sds) = false)
include hn hm hd

/-- An enabled port whose SerDes domain runs takes the report. -/
theorem linkChange_taken : ¬ (ethN p 0 1 s = 0 ∨ 1 < s.pwr.mode ∨ s.sys.domHeld.contains (Domain.num .sds) = true) := by
  rw [hd]; simp [hn, hm]

theorem execLinkChange_of_up {sp : Fin 5} (hsp : linkSpeed p (some sp.val) s = some sp.val) (hup : portUp p s = true) :
    execLinkChange p true (some sp) s = .next (linkUp p sp s) := by
  simp only [execLinkChange, if_neg (linkChange_taken hn hm hd), if_true, Option.map_some, hsp, hup]

theorem execLinkChange_of_down (sp : Option (Fin 5)) : execLinkChange p false sp s = .next (linkDown p s) := by
  simp only [execLinkChange, if_neg (linkChange_taken hn hm hd), Bool.false_eq_true, if_false]

end

theorem rd_linkDown_link (p : Nat) (s : State) : rd (F.ETH_PORTpp_STAT_LINK.u p) (linkDown p s) = 0 := by
  rw [linkDown, rd_wrB_units _ _ _ _ (by decide), rd_wr_units _ _ _ _ (by decide), rd_wr_units _ _ _ _ (by decide),
    rd_wrB_unit _ _ _ (by decide)]; rfl

theorem rd_linkDown_speed (p : Nat) (s : State) : rd (F.ETH_PORTpp_STAT_SPEED.u p) (linkDown p s) = 7 := by
  rw [linkDown, rd_wrB_units _ _ _ _ (by decide), rd_wr_units _ _ _ _ (by decide), rd_wr_unit _ _ _ (by decide)]; rfl

theorem rd_linkDown_verify (p : Nat) (s : State) : rd (F.ETH_PORTpp_STAT_VERIFY.u p) (linkDown p s) = 0 := by
  rw [linkDown, rd_wrB_units _ _ _ _ (by decide), rd_wr_unit _ _ _ (by decide)]; rfl

theorem rd_linkDown_preempt (p : Nat) (s : State) : rd (F.ETH_PORTpp_STAT_PREEMPT_ACTIVE.u p) (linkDown p s) = 0 :=
  rd_wrB_unit _ _ _ (by decide)

theorem ethPort_linkDown (p : Nat) (s : State) : ethPort p (linkDown p s) = { ethPort p s with tries := 0 } :=
  ethPort_ethSet_same p _ s

/-! ### Pause and PFC (R210, R211) -/

/-- A pause frame counts as a frame and as a pause. -/
def pauseCounted (p : Nat) (s : State) : State :=
  inc (F.ETH_PORTpp_PAUSE_RX.u p) (incWrap (F.ETH_PORTpp_RX_FRAMES_COUNT.u p) s)

/-- A port with pause reception that is not in PFC mode follows a pause frame. -/
theorem execPauseReceived_of_pause {p : Fin 16} {s : State} (q : Nat) (hup : portUp p s = true) (hr : ethFlag p 0 s = true)
    (hf : ethFlag p 2 s = false) : execPauseReceived p (.pause q) s =
      .next (wrB (F.ETH_PORTpp_STAT_PAUSED.u p) (q != 0) (pauseCounted p s)) := by
  have flags (n : Nat) : ethFlag p n (pauseCounted p s) = ethFlag p n s := rfl
  simp only [execPauseReceived, hup, if_true, ← pauseCounted.eq_1, flags, hr, hf]
  rfl

theorem rd_pauseCounted (p : Nat) (s : State) : rd (F.ETH_PORTpp_PAUSE_RX.u p) (pauseCounted p s) =
    min (rd (F.ETH_PORTpp_PAUSE_RX.u p) s + 1) (2 ^ F.ETH_PORTpp_PAUSE_RX.w - 1) := by
  rw [pauseCounted, rd_inc_unit _ _ (by decide), rd_incWrap_units _ _ _ (by decide)]

theorem pauseCounted_regsKept (p : Nat) (s : State) :
    RegsKept [F.ETH_PORTpp_RX_FRAMES_COUNT.u p, F.ETH_PORTpp_PAUSE_RX.u p] s (pauseCounted p s) :=
  (regsKept_incWrap _ s).trans (regsKept_inc _ _)

theorem execPauseExpiry_of_pause {p : Fin 16} {s : State} (c : Fin 8) (hw : awake s = true) (hf : ethFlag p 2 s = false) :
    execPauseExpiry p c s = .next (wrB (F.ETH_PORTpp_STAT_PAUSED.u p) false s) := by
  simp [execPauseExpiry, hw, hf]

theorem execPauseExpiry_of_pfc {p : Fin 16} {s : State} (c : Fin 8) (hw : awake s = true) (hf : ethFlag p 2 s = true) :
    execPauseExpiry p c s = .next (wr (F.ETH_PORTpp_STAT_PFC_PAUSED.u p)
      (putBit (rd (F.ETH_PORTpp_STAT_PFC_PAUSED.u p) s) c false) s) := by
  simp [execPauseExpiry, hw, hf]

theorem sendPause_of_pause {p quanta : Nat} {s : State} (c : Nat) (hf : ethFlag p 2 s = false)
    (hs : silent .sds s = false) :
    sendPause p c quanta s = inc (F.ETH_PORTpp_PAUSE_TX.u p) (emit (.pause p false 0 quanta) s) := by
  simp [sendPause, hf, transmit_of_sounding _ hs]

theorem execPauseRepeat_of_pause {p : Fin 16} {s : State} (c : Fin 8) (hf : ethFlag p 2 s = false)
    (hx : bit (rd (F.ETH_PORTpp_STAT_XOFF.u p) s) 0 = true) (hn : ethN p 0x0A 2 s ≤ pauseCount p none s)
    (hs : silent .sds s = false) (ho : (ethPort p s).open_ = true) (hup : portUp p s = true) :
    execPauseRepeat p c s = .next (sendPause p 0 (ethN p 0x0C 2 s) s) := by
  simp [execPauseRepeat, hf, hx, hn, hs, ho, hup]

/-! ### Verification (R213) -/

theorem execVerifyTimer_of_early {p : Fin 16} {s : State} (hw : awake s = true)
    (hv : rd (F.ETH_PORTpp_STAT_VERIFY.u p) s = 1) (ht : (ethPort p s).tries < 3) (hs : silent .sds s = false)
    (ho : (ethPort p s).open_ = true) : execVerifyTimer p s =
      .next (emit (.line 5 p []) (ethSet p { ethPort p s with tries := (ethPort p s).tries + 1 } s)) := by
  have ho' : (ethPort p (ethSet p { ethPort p s with tries := (ethPort p s).tries + 1 } s)).open_ = true := by simp [ho]
  simp only [execVerifyTimer, hw, hv, ht, true_and, if_true, macSend_of_open (.line 5 p []) ho' hs]

theorem execVerifyTimer_of_third {p : Fin 16} {s : State} (hw : awake s = true)
    (hv : rd (F.ETH_PORTpp_STAT_VERIFY.u p) s = 1) (ht : 3 ≤ (ethPort p s).tries) :
    execVerifyTimer p s = .next (wr (F.ETH_PORTpp_STAT_VERIFY.u p) 3 s) := by
  simp [execVerifyTimer, hw, hv, Nat.not_lt.mpr ht]

theorem execVerifyResponse_of_waiting {p : Fin 16} {s : State} (hw : awake s = true)
    (hv : rd (F.ETH_PORTpp_STAT_VERIFY.u p) s = 1) : execVerifyResponse p s =
      .next (wrB (F.ETH_PORTpp_STAT_PREEMPT_ACTIVE.u p) true (wr (F.ETH_PORTpp_STAT_VERIFY.u p) 2 s)) := by
  simp [execVerifyResponse, when, hw, hv]

/-! ### GATE_CONTROL_ENTRY (R215, R217, R218) -/

theorem execGateControlEntry_of_list {p : Fin 16} {s : State} (hr : domRuns .fab s = true) (hq : ethFlag p 6 s = true) :
    execGateControlEntry p s = .next (gateShow p (ethSet p { ethPort p s with started := !gateWaits p s } s)) := by
  simp [execGateControlEntry, when, hr, hq]

/-- The gate register shows the gates in force; showing them changes no gate. -/
theorem rd_gateShow_gates (p : Nat) (s : State) :
    rd (F.ETH_PORTpp_STAT_GATES.u p) (gateShow p s) = gatesNow p (gateShow p s) % 256 := by
  have same : gatesNow p (gateShow p s) = gatesNow p s := rfl
  rw [same, gateShow, rd_wr_units _ _ _ _ (by decide), rd_wr_unit _ _ _ (by decide)]; rfl

theorem gateShow_regsKept (p : Nat) (s : State) :
    RegsKept [F.ETH_PORTpp_STAT_GATES.u p, F.ETH_PORTpp_QBV_ENTRY.u p] s (gateShow p s) :=
  (regsKept_wr _ _ s).trans (regsKept_wr _ _ _)

/-! ### FRER_RESET_TIMER (R223) -/

theorem execFrerResetTimer_of_passed {e : Fin 512} {s : State} (hr : domRuns .fab s = true)
    (hf : cfgN C.ethFrer e 0 1 s = 1) (hc : cfgHas C.ethFrer e s = true) (hh : (frerRun e s).hist.isSome = true)
    (ht : (frerRun e s).since + frerReset e s ≤ s.time.loc) : execFrerResetTimer e s =
      .next (frerSet e { frerRun e s with hist := none, resets := min ((frerRun e s).resets + 1) 65535 } s) := by
  simp [execFrerResetTimer, hr, hf, hc, hh, ht]

/-- Settles O11: each event is its operation on the port that meets its conditions; the laws of the fields it writes give
what the port's registers show and keep. -/
theorem ethernetPortEventsComplete : Obligations.EthernetPortEventsComplete := by
  unfold Obligations.EthernetPortEventsComplete
  refine ⟨fun p sp s hn hm hd hsp hup => ?up, fun p sp s hn hm hd => ?down, fun p q s hup hr hf => ?paused,
    fun p c s hw hf => ?resumed, fun p c s hw hf => ?classResumed, fun p c s hf hx hn hs ho hup => ?repeated,
    fun p s hw hv ht hs ho => ?verify, fun p s hw hv ht => ?failed, fun p s hw hv => ?verified, fun p s hr hq => ?gates,
    fun e s hr hf hc hh ht => ?frer⟩
  case up =>
    refine ⟨_, (execLinkChange_of_up hn hm hd hsp hup).trans (congrArg _ (linkUp_of_up sp hup)), ?_, ?_, ?_, rfl⟩
    · rw [rd_wr_units _ _ _ _ (by decide), rd_wrB_unit _ _ _ (by decide)]; rfl
    · exact rd_wr_unit_of_lt _ _ (show sp.val < 8 by omega) (by decide)
    · exact (regsKept_wrB _ _ s).trans (regsKept_wr _ _ _)
  case down =>
    exact ⟨_, execLinkChange_of_down hn hm hd sp, rd_linkDown_link p s, rd_linkDown_speed p s, rd_linkDown_verify p s,
      rd_linkDown_preempt p s, by rw [ethPort_linkDown], rfl⟩
  case paused =>
    refine ⟨_, execPauseReceived_of_pause q hup hr hf, ?_, ?_, ?_, rfl⟩
    · rw [rd_wrB_unit _ _ _ (by decide)]
      by_cases hq : q = 0 <;> simp [hq, b2n]
    · rw [rd_wrB_units _ _ _ _ (by decide), rd_pauseCounted]
    · exact ((pauseCounted_regsKept p s).trans (regsKept_wrB _ _ _)).mono (by simp)
  case resumed =>
    exact ⟨_, execPauseExpiry_of_pause c hw hf, rd_wrB_unit _ _ _ (by decide), regsKept_wrB _ _ s, rfl⟩
  case classResumed =>
    exact ⟨_, execPauseExpiry_of_pfc c hw hf, rd_wr_unit _ _ _ (by decide), regsKept_wr _ _ s, rfl⟩
  case repeated =>
    refine ⟨_, (execPauseRepeat_of_pause c hf hx hn hs ho hup).trans (congrArg _ (sendPause_of_pause 0 hf hs)), rfl,
      ?_, rfl⟩
    exact rd_inc_unit p (emit _ s) (by decide)
  case verify =>
    exact ⟨_, execVerifyTimer_of_early hw hv ht hs ho, rfl, congrArg EthPort.tries (ethPort_ethSet_same p _ s), rfl⟩
  case failed =>
    exact ⟨_, execVerifyTimer_of_third hw hv ht, rd_wr_unit _ _ _ (by decide), regsKept_wr _ _ s, rfl⟩
  case verified =>
    refine ⟨_, execVerifyResponse_of_waiting hw hv, ?_, rd_wrB_unit _ _ _ (by decide), ?_, rfl⟩
    · rw [rd_wrB_units _ _ _ _ (by decide), rd_wr_unit _ _ _ (by decide)]; rfl
    · exact (regsKept_wr _ _ s).trans (regsKept_wrB _ _ _)
  case gates =>
    refine ⟨_, execGateControlEntry_of_list hr hq, ?_, rd_gateShow_gates p _, ?_, rfl⟩
    · exact congrArg EthPort.started (ethPort_ethSet_same p _ s)
    · exact gateShow_regsKept p (ethSet p _ s)
  case frer => exact ⟨_, execFrerResetTimer_of_passed hr hf hc hh ht, frerRun_frerSet_same e _ s, rfl⟩

end Sys2Proof.Machine

namespace Sys2Proof.Machine

/-! ### The script of a port's bring-up (R234) -/

theorem mdioGo_frame (p n : Nat) (s : State) : mdioGo p n s = { s with eth := (mdioGo p n s).eth } := by
  simp only [mdioGo, when]
  split
  · rfl
  · split <;> rfl

theorem mdioGo_of_end {p n : Nat} {s : State} (h : (mdioScript p s).length ≤ n) : mdioGo p n s = mdioEnd p s :=
  if_pos h

theorem ethPort_mdioGo_of_lt {p n : Nat} {s : State} (h : n < (mdioScript p s).length) :
    ethPort p (mdioGo p n s) = { ethPort p s with step := 3, script := n } := by
  have joined (t : State) : ethPort p (mdioJoin p true t) = ethPort p t := rfl
  simp only [mdioGo, if_neg (Nat.not_le.mpr h), when]
  split
  · rw [joined, ethPort_ethSet_same]
  · exact ethPort_ethSet_same p _ s

theorem step_mdioGo_zero (p : Nat) (s : State) :
    (ethPort p (mdioGo p 0 s)).step = if (mdioScript p s).isEmpty then 4 else 3 := by
  cases hl : mdioScript p s with
  | nil => rw [mdioGo_of_end (by simp [hl])]; simp [mdioEnd]
  | cons c r => rw [ethPort_mdioGo_of_lt (by simp [hl])]; rfl

theorem execResetReleaseDelay_of_released {p : Fin 16} {s : State} (hw : awake s = true) (hs : (ethPort p s).step = 2) :
    execResetReleaseDelay p s = .next (mdioGo p 0 s) := by
  simp [execResetReleaseDelay, when, hw, hs]

/-- The access at the head of its bus's queue has been put on the bus. -/
def mdioAccessed (p : Nat) (r : List MdioCmd) (s : State) : State :=
  emit (.line 2 p (mdioEntry p s)) (mdioSet (ethN p 0x26 1 s) r s)

theorem execMdioScriptAccess_of_head {p : Fin 16} {c : MdioCmd} {r : List MdioCmd} {s : State} (hw : awake s = true)
    (hs : (ethPort p s).step = 3) (ha : byteAt (mdioEntry p s) 1 < 2) (hb : mdioBus (ethN p 0x26 1 s) s = c :: r)
    (hc : c.seq = true) (hp : c.port = p) :
    execMdioScriptAccess p s = .next (mdioGo p ((ethPort p s).script + 1) (mdioAccessed p r s)) := by
  simp [execMdioScriptAccess, mdioAccessed, when, hw, hs, Nat.not_le.mpr ha, hb, hc, hp]

theorem mdioGo_mdioAccessed_out (p n : Nat) (r : List MdioCmd) (s : State) :
    (mdioGo p n (mdioAccessed p r s)).out = .line 2 p (mdioEntry p s) :: s.out := by
  rw [mdioGo_frame]; rfl

theorem mdioGo_mdioAccessed_frame (p n : Nat) (r : List MdioCmd) (s : State) : mdioGo p n (mdioAccessed p r s) =
    { s with out := (mdioGo p n (mdioAccessed p r s)).out, eth := (mdioGo p n (mdioAccessed p r s)).eth } := by
  rw [mdioGo_frame]; rfl

/-! ### The four commands (R235, R476) -/

/-- The state a command meets: a control core's own write is a device write of its port (R476). -/
def mdioMet (who : Initiator) (p : Nat) (s : State) : State := match who with
  | .core _ => mdioDev p s
  | _ => s

theorem mdioMet_frame (who : Initiator) (p : Nat) (s : State) :
    mdioMet who p s = { s with eth := { s.eth with ports := (mdioMet who p s).eth.ports } } := by
  cases who <;> rfl

theorem mdioMeets_of_apart {p : Nat} {s : State} (who : Initiator) (f : State → Status × State)
    (h : (ethPort p s).devAt ≠ some s.time.loc) : mdioMeets who p f s = f (mdioMet who p s) := by
  cases who <;> simp [mdioMeets, mdioMet, h]

theorem mayMdio_mdioMet (who : Initiator) (p : Nat) (s : State) : mayMdio who (mdioMet who p s) = mayMdio who s := by
  cases who <;> rfl

/-- A host's command goes behind the others of its bus. -/
theorem mdioJoin_host (p : Nat) (s : State) : mdioJoin p false s =
    mdioSet (ethN p 0x26 1 s) (mdioBus (ethN p 0x26 1 s) s ++ [⟨p, false, s.time.loc⟩]) s := by
  have before (l : List MdioCmd) : l.filter (fun _ => true) = l := List.filter_eq_self.mpr fun _ _ => rfl
  have behind (l : List MdioCmd) : l.filter (fun _ => false) = [] :=
    List.filter_eq_nil_iff.mpr fun _ _ => Bool.false_ne_true
  simp only [mdioJoin, Bool.false_and, Bool.not_false, before, behind]

/-- The command register of a port shows a command that runs, with its operation and its fields. -/
def mdioShown (op p v : Nat) (s : State) : State :=
  s |> wrB (F.ETH_PORTpp_MDIO_CMD_ERR.u p) false |> wrB (F.ETH_PORTpp_MDIO_CMD_BUSY.u p) true
    |> wr (F.ETH_PORTpp_MDIO_CMD_OP.u p) op |> wr (F.ETH_PORTpp_MDIO_CMD_DEVAD.u p) (bits v 16 5)
    |> wr (F.ETH_PORTpp_MDIO_CMD_REG.u p) (bits v 0 16)

section
variable (op p v : Nat) (s : State)

theorem rd_mdioShown_busy : rd (F.ETH_PORTpp_MDIO_CMD_BUSY.u p) (mdioShown op p v s) = 1 := by
  rw [mdioShown, rd_wr_units _ _ _ _ (by decide), rd_wr_units _ _ _ _ (by decide), rd_wr_units _ _ _ _ (by decide),
    rd_wrB_unit _ _ _ (by decide)]; rfl

theorem rd_mdioShown_err : rd (F.ETH_PORTpp_MDIO_CMD_ERR.u p) (mdioShown op p v s) = 0 := by
  rw [mdioShown, rd_wr_units _ _ _ _ (by decide), rd_wr_units _ _ _ _ (by decide), rd_wr_units _ _ _ _ (by decide),
    rd_wrB_units _ _ _ _ (by decide), rd_wrB_unit _ _ _ (by decide)]; rfl

theorem rd_mdioShown_op : rd (F.ETH_PORTpp_MDIO_CMD_OP.u p) (mdioShown op p v s) = op % 4 := by
  rw [mdioShown, rd_wr_units _ _ _ _ (by decide), rd_wr_units _ _ _ _ (by decide), rd_wr_unit _ _ _ (by decide)]; rfl

theorem rd_mdioShown_devad : rd (F.ETH_PORTpp_MDIO_CMD_DEVAD.u p) (mdioShown op p v s) = bits v 16 5 % 32 := by
  rw [mdioShown, rd_wr_units _ _ _ _ (by decide), rd_wr_unit _ _ _ (by decide)]; rfl

theorem rd_mdioShown_reg : rd (F.ETH_PORTpp_MDIO_CMD_REG.u p) (mdioShown op p v s) = bits v 0 16 % 65536 :=
  rd_wr_unit _ _ _ (by decide)

end

theorem mdioCmd_of_free {who : Initiator} {p : Nat} {s : State} (op v : Nat) (hm : mayMdio who s = true)
    (hb : rdB (F.ETH_PORTpp_MDIO_CMD_BUSY.u p) s = false) :
    mdioCmd who op p v s = (.ok, mdioShown op p v (mdioJoin p false s)) := by
  simp [mdioCmd, mdioShown, hm, hb]

/-- In t the command register of port p shows a running command with operation op and the fields of v, which is the last of
its bus's queue. -/
structure MdioTaken (op p v : Nat) (s t : State) : Prop where
  queue : tget [] t.eth.mdio (ethN p 0x26 1 s) = tget [] s.eth.mdio (ethN p 0x26 1 s) ++ [⟨p, false, s.time.loc⟩]
  busy : rd (F.ETH_PORTpp_MDIO_CMD_BUSY.u p) t = 1
  err : rd (F.ETH_PORTpp_MDIO_CMD_ERR.u p) t = 0
  operation : rd (F.ETH_PORTpp_MDIO_CMD_OP.u p) t = op % 4
  devad : rd (F.ETH_PORTpp_MDIO_CMD_DEVAD.u p) t = bits v 16 5 % 32
  reg : rd (F.ETH_PORTpp_MDIO_CMD_REG.u p) t = bits v 0 16 % 65536

theorem mdioShown_taken (who : Initiator) (op p v : Nat) (s : State) :
    MdioTaken op p v s (mdioShown op p v (mdioJoin p false (mdioMet who p s))) where
  queue := by
    rw [mdioJoin_host, mdioMet_frame]
    exact mdioBus_mdioSet_same _ _ _
  busy := rd_mdioShown_busy op p v _
  err := rd_mdioShown_err op p v _
  operation := rd_mdioShown_op op p v _
  devad := rd_mdioShown_devad op p v _
  reg := rd_mdioShown_reg op p v _

/-- A host status leaves a taken command as it is. -/
theorem MdioTaken.of_hst {op p v : Nat} {s t u : State} (h : MdioTaken op p v s u) (hr : t.regs = u.regs)
    (he : t.eth = u.eth) : MdioTaken op p v s t where
  queue := he ▸ h.queue
  busy := (rd_congr _ _ _ hr).trans h.busy
  err := (rd_congr _ _ _ hr).trans h.err
  operation := (rd_congr _ _ _ hr).trans h.operation
  devad := (rd_congr _ _ _ hr).trans h.devad
  reg := (rd_congr _ _ _ hr).trans h.reg

/-- A write of the command register that the device admits, by an initiator that may, while no command of the port runs. -/
theorem hostWrite_mdioWrite_taken {who : Initiator} {a p : Nat} {s : State} (op v : Nat) (ha : Admits who a s)
    (hm : mayMdio who s = true) (hb : rdB (F.ETH_PORTpp_MDIO_CMD_BUSY.u p) s = false)
    (hd : (ethPort p s).devAt ≠ some s.time.loc) : MdioTaken op p v s (hostWrite who a (mdioWrite who op p v) s) := by
  have free : rdB (F.ETH_PORTpp_MDIO_CMD_BUSY.u p) (mdioMet who p s) = false := by rw [mdioMet_frame]; exact hb
  have written : mdioWrite who op p v s = (.ok, mdioShown op p v (mdioJoin p false (mdioMet who p s))) := by
    rw [mdioWrite, mdioMeets_of_apart who _ hd, mdioCmd_of_free op v ((mayMdio_mdioMet who p s).trans hm) free]
  obtain ⟨t, rfl, hregs, -, hrest⟩ := hostWrite_ok ha written
  exact (mdioShown_taken who op p v s).of_hst hregs (by rw [hrest])

/-! ### MDIO_COMMAND_DONE (R235, R476) -/

/-- The oldest command of a bus completes: its register is free again. -/
def mdioFreed (b p : Nat) (r : List MdioCmd) (s : State) : State :=
  wrB (F.ETH_PORTpp_MDIO_CMD_BUSY.u p) false (mdioDev p (mdioSet b r s))

/-- A read stores its data. -/
theorem execMdioCommandDone_of_read {b : Fin 2} {data : BitVec 16} {p at_ : Nat} {r : List MdioCmd} {s : State}
    (hw : awake s = true) (hb : tget [] s.eth.mdio b = ⟨p, false, at_⟩ :: r)
    (ho : rd (F.ETH_PORTpp_MDIO_CMD_OP.u p) s = 1 ∨ rd (F.ETH_PORTpp_MDIO_CMD_OP.u p) s = 3) :
    ∃ o, execMdioCommandDone b data s =
      .next (wr (F.ETH_PORTpp_MDIO_DATA_DATA.u p) data.toNat (emit o (mdioFreed b p r s))) := by
  have head : mdioBus b s = ⟨p, false, at_⟩ :: r := hb
  have read : (rd (F.ETH_PORTpp_MDIO_CMD_OP.u p) s == 1 || rd (F.ETH_PORTpp_MDIO_CMD_OP.u p) s == 3) = true := by
    simpa using ho
  exact ⟨_, by simp only [execMdioCommandDone, head, hw, read, when, if_true]; rfl⟩

/-- Settles O12: the script goes on by mdioGo; the four commands are one write that the device takes; a completion frees
the register and a read stores its data. -/
theorem mdioCommandsComplete : Obligations.MdioCommandsComplete := by
  unfold Obligations.MdioCommandsComplete
  refine ⟨fun p s hw hs => ?release, fun p c r s hw hs hn ha hb hc hp => ?access,
    fun p c r s hw hs hn ha hb hc hp => ?last, fun who p v s ha hm hb hd => ?write22, fun who p v s ha hm hb hd => ?read22,
    fun who p v s ha hm hb hd => ?write45, fun who p v s ha hm hb hd => ?read45,
    fun b data p at_ r s hw hb ho => ?done⟩
  case release =>
    exact ⟨_, execResetReleaseDelay_of_released hw hs, step_mdioGo_zero p s, mdioGo_frame p 0 s⟩
  case access =>
    refine ⟨_, execMdioScriptAccess_of_head hw hs ha hb hc hp, mdioGo_mdioAccessed_out _ _ r s, ?_,
      mdioGo_mdioAccessed_frame _ _ r s⟩
    exact congrArg EthPort.script (ethPort_mdioGo_of_lt (s := mdioAccessed p r s) hn)
  case last =>
    have ended : ethPort p (mdioGo p ((ethPort p s).script + 1) (mdioAccessed p r s)) =
        { ethPort p s with step := 4, open_ := true } := by
      rw [mdioGo_of_end (s := mdioAccessed p r s) hn]
      exact ethPort_ethSet_same p _ _
    exact ⟨_, execMdioScriptAccess_of_head hw hs ha hb hc hp, by rw [ended], by rw [ended],
      mdioGo_mdioAccessed_frame _ _ r s⟩
  case write22 =>
    have taken := hostWrite_mdioWrite_taken 0 v.toNat ha hm hb hd
    exact ⟨_, rfl, taken.queue, taken.busy, taken.err, taken.operation, taken.reg⟩
  case read22 =>
    have taken := hostWrite_mdioWrite_taken 1 v.toNat ha hm hb hd
    exact ⟨_, rfl, taken.queue, taken.busy, taken.err, taken.operation, taken.reg⟩
  case write45 =>
    have taken := hostWrite_mdioWrite_taken 2 v.toNat ha hm hb hd
    exact ⟨_, rfl, taken.queue, taken.busy, taken.err, taken.operation, taken.devad⟩
  case read45 =>
    have taken := hostWrite_mdioWrite_taken 3 v.toNat ha hm hb hd
    exact ⟨_, rfl, taken.queue, taken.busy, taken.err, taken.operation, taken.devad⟩
  case done =>
    obtain ⟨o, heq⟩ := execMdioCommandDone_of_read (data := data) hw hb ho
    refine ⟨_, heq, mdioBus_mdioSet_same b r s, ?_, rd_wr_unit_of_lt _ _ data.isLt (by decide), ?_⟩
    · rw [rd_wr_units _ _ _ _ (by decide), rd_emit]
      exact rd_wrB_unit p false _ (by decide)
    · exact ((regsKept_wrB (F.ETH_PORTpp_MDIO_CMD_BUSY.u p) false (mdioDev p (mdioSet b r s))).to_regs
        (u := emit o (mdioFreed b p r s)) rfl).trans (regsKept_wr _ _ _)

end Sys2Proof.Machine

namespace Sys2Proof.Machine

/-! ### PLCA (R226, R227) -/

theorem execPlcaCycle_of_passed {g : Fin 16} {s : State} (hr : domRuns .fld s = true) (hp : t1sPassed g s = true)
    (hm : t1sMode g s = 1) (hl : t1sLow g s = false) (hh : rdB (F.T1S_SGnn_STAT_HOLD.u g) s = false) :
    execPlcaCycle g s = .next (t1sCycleEnd g s) := by
  simp [execPlcaCycle, when, hr, hp, hm, hl, hh]

/-- An aligned instant that waits begins the next cycle, late. -/
theorem t1sCycleEnd_of_waiting {g i : Nat} {s : State} (h : (t1sSeg g s).align = some i) :
    t1sCycleEnd g s = t1sBegin g true (inc (F.T1S_SGnn_ALIGN_LATE.u g) s) := by
  simp [t1sCycleEnd, h]

section
variable (g : Nat) (a : Bool) {s : State} (h : silent .fld s = false)
include h

/-- A cycle begins: its BEACON leaves, and the segment's registers follow. -/
theorem t1sBegin_of_sounding : t1sBegin g a s = wrB (F.T1S_SGnn_STAT_PLCA_ACTIVE.u g) true
    (wrB (F.T1S_SGnn_STAT_HOLD.u g) false (incWrap (F.T1S_SGnn_PLCA_CYCLES.u g) (emit (.line 3 g [])
      (t1sSet g { t1sSeg g s with cycle := true, opp := 0, burst := 0, align := none, aligned := a } s)))) := by
  simp only [t1sBegin, transmit_of_sounding (s := t1sSet g _ s) (.line 3 g []) h]

theorem t1sSeg_t1sBegin : t1sSeg g (t1sBegin g a s) =
    { t1sSeg g s with cycle := true, opp := 0, burst := 0, align := none, aligned := a } := by
  rw [t1sBegin_of_sounding g a h]
  exact t1sSeg_t1sSet_same g _ s

theorem t1sBegin_out : (t1sBegin g a s).out = .line 3 g [] :: s.out := by
  rw [t1sBegin_of_sounding g a h]; rfl

theorem t1sBegin_frame : t1sBegin g a s =
    { s with regs := (t1sBegin g a s).regs, out := (t1sBegin g a s).out, t1s := (t1sBegin g a s).t1s } := by
  rw [t1sBegin_of_sounding g a h]; rfl

end

theorem rd_t1sBegin_active (g : Nat) (a : Bool) (s : State) :
    rd (F.T1S_SGnn_STAT_PLCA_ACTIVE.u g) (t1sBegin g a s) = 1 := rd_wrB_unit g true _ (by decide)

theorem execToTimer_of_open {g : Fin 16} {s : State} (h : t1sOpen g s = true) : execToTimer g s =
    .next (t1sSet g { t1sSeg g s with opp := (t1sSeg g s).opp + 1, burst := 0 } s) := by
  simp [execToTimer, when, h]

theorem execBeaconReceived_of_follower {g : Fin 16} {s : State} (hr : domRuns .fld s = true) (hm : t1sMode g s = 2)
    (hl : t1sLow g s = false) : execBeaconReceived g s =
      .next (incWrap (F.T1S_SGnn_PLCA_CYCLES.u g) (wrB (F.T1S_SGnn_STAT_PLCA_ACTIVE.u g) true
        (t1sSet g { t1sSeg g s with cycle := true, opp := 0, burst := 0 } s))) := by
  simp [execBeaconReceived, when, hr, hm, hl]

theorem execBeaconTimeout_of_follower {g : Fin 16} {s : State} (hr : domRuns .fld s = true) (hm : t1sMode g s = 2)
    (hp : t1sPlca g s = true) : execBeaconTimeout g s =
      .next (inc (F.T1S_SGnn_PLCA_FALLBACK.u g) (wrB (F.T1S_SGnn_STAT_PLCA_ACTIVE.u g) false
        (t1sSet g { t1sSeg g s with cycle := false, tries := 0, backoff := none } s))) := by
  simp [execBeaconTimeout, when, hr, hm, hp]

/-! ### CSMA/CD (R229, R233) -/

/-- A collision is counted and jammed. -/
def t1sJammed (g : Nat) (s : State) : State := emit (.line 4 g []) (inc (F.T1S_SGnn_COLL_COLLISIONS.u g) s)

/-- The colliding frame of a segment stays for attempt n + 1 after a back-off drawn from a free value. -/
theorem execCollision_of_retry {g : Fin 16} {x : Nat × Nat} {s : State} (hc : tfind s.qm.cur (16 + g.val) = some x)
    (hm : t1sCsma g s = true) (ht : (t1sSeg g s).tries < 15) (hs : silent .fld s = false) : execCollision g false s =
      .next (t1sSet g { t1sSeg g s with
        backoff := some (Config.freeNat s.free % 2 ^ min ((t1sSeg g s).tries + 1) 10)
        tries := (t1sSeg g s).tries + 1 } (fresh (t1sJammed g s)).2) := by
  have more : ¬ 16 ≤ (t1sSeg g s).tries + 1 := by omega
  have jam : transmit .fld (.line 4 g []) (inc (F.T1S_SGnn_COLL_COLLISIONS.u g) s) = t1sJammed g s :=
    transmit_of_sounding (s := inc _ s) _ hs
  have drawn : (fresh (t1sJammed g s)).1 = Config.freeNat s.free := rfl
  simp [execCollision, hc, hm, more, jam, drawn]

/-- With no wake pattern pending, nothing is tried but a frame. -/
theorem t1sTry_of_no_wake {g : Nat} {s : State} (h : (t1sSeg g s).wake = none) : t1sTry g s = s := by
  simp [t1sTry, t1sPattern, when, h]

theorem execBackoff_of_frame {g : Fin 16} {s : State} (hr : domRuns .fld s = true)
    (hb : (t1sSeg g s).backoff.isSome = true) (hw : (t1sSeg g s).wake = none) :
    execBackoff g s = .next (t1sSet g { t1sSeg g s with backoff := none } s) := by
  have idle := t1sTry_of_no_wake (g := g) (s := t1sSet g { t1sSeg g s with backoff := none } s) (by simp [hw])
  simp [execBackoff, when, hr, hb, idle]

/-! ### Low power and wake (R230, R232, R431) -/

theorem execLowPowerExit_of_other {g : Fin 16} {s : State} (hr : domRuns .fld s = true) (hl : t1sLow g s = true)
    (hm : t1sMode g s ≠ 1) (hw : (t1sSeg g s).wake = none) :
    execLowPowerExit g s = .next (wrB (F.T1S_SGnn_STAT_LOWPOWER.u g) false s) := by
  have mode : t1sMode g (wrB (F.T1S_SGnn_STAT_LOWPOWER.u g) false s) ≠ 1 := hm
  have idle := t1sTry_of_no_wake (g := g) (s := wrB (F.T1S_SGnn_STAT_LOWPOWER.u g) false s) hw
  simp [execLowPowerExit, when, hr, hl, mode, idle]

theorem t1sLow_wrB_false (g : Nat) (s : State) : t1sLow g (wrB (F.T1S_SGnn_STAT_LOWPOWER.u g) false s) = false := by
  rw [t1sLow, rdB, rd_wrB_unit _ _ _ (by decide)]; rfl

section
variable {g : Fin 16} {b : WakeBurst} {s : State} (h4 : s.pwr.mode ≠ 4) (hm : t1sMode g s ≠ 0)
  (hf : t1sFlag g 2 s = true) (hb : burstOk b = true)
include h4 hm hf hb

theorem execWakePattern_of_no_match (hw : wakeGroups g b s = none) :
    execWakePattern g b s = .next (inc (F.T1S_SGnn_WAKE_NOMATCH.u g) s) := by
  simp [execWakePattern, h4, hm, hf, hb, hw]

theorem execWakePattern_of_match {m : Nat} (hw : wakeGroups g b s = some m) :
    execWakePattern g b s = .next (wakeReason (8 + g) m false (inc (F.T1S_SGnn_WAKE_MATCH.u g) s)) := by
  simp [execWakePattern, h4, hm, hf, hb, hw]

end

@[simp] theorem wakeBit_slp (r : Nat) (s : State) : (wakeBit r s).slp = s.slp := by
  unfold wakeBit; split
  · rfl
  · split
    · rfl
    · split <;> rfl

@[simp] theorem wakeLatch_slp (r m : Nat) (s : State) : (wakeLatch r m s).slp = s.slp := wakeBit_slp r s

/-- A late wake in STANDBY is recorded and leaves the sleep state. -/
theorem lateWake_slp_of_standby {s : State} (r m : Nat) (h : s.pwr.mode = 2) : (lateWake r m s).slp = s.slp := by
  have here : (inc F.SLP_WAKE_CNT_LATE (wrB F.SLP_WAKE_LATCH_LATE true s)).pwr.mode ≠ 3 := by
    show s.pwr.mode ≠ 3
    omega
  simp only [lateWake, if_neg here, record_slp]
  rfl

/-- In STANDBY the groups of a wake reason wait for the resume. -/
theorem wakeAct_of_standby {s : State} (r m : Nat) (late : Bool) (h : s.pwr.mode = 2) :
    (wakeAct r m late s).slp.toWake = s.slp.toWake ||| m ∧ (wakeAct r m late s).slp.lastWhy = r := by
  have kept : (when late (lateWake r m) s).slp = s.slp := by
    cases late
    · rfl
    · exact lateWake_slp_of_standby r m h
  simp [wakeAct, kept, h]

theorem wakeReason_of_standby {s : State} (r m : Nat) (late : Bool) (h : s.pwr.mode = 2) :
    (wakeReason r m late s).slp.toWake = s.slp.toWake ||| m ∧ (wakeReason r m late s).slp.lastWhy = r := by
  have latched : (wakeLatch r m s).pwr.mode = 2 := by simp [h]
  have uncommitted : commitDue (wakeLatch r m s) = false := by simp [commitDue, h]
  have act (l : Bool) := wakeAct_of_standby r m l latched
  rw [wakeLatch_slp] at act
  simp only [wakeReason, h, uncommitted]
  exact act _

/-- Settles O13: each event is its operation on the segment's run state; a segment without a wake pattern tries nothing
more, and a wake in STANDBY waits for the resume. -/
theorem t1sSegmentEventsComplete : Obligations.T1sSegmentEventsComplete := by
  unfold Obligations.T1sSegmentEventsComplete
  refine ⟨fun g i s hr hp hm hl hh ha hs => ?cycle, fun g s h => ?passed, fun g s hr hm hl => ?beacon,
    fun g s hr hm hp => ?timeout, fun g x s hc hm ht hs => ?collision, fun g s hr hb hw => ?backoff,
    fun g s hr hl hm hw => ?exit, fun g b s h4 hm hf hb hw => ?noMatch, fun g b m s h2 hm hf hb hw => ?groups⟩
  case cycle =>
    have hs' : silent .fld (inc (F.T1S_SGnn_ALIGN_LATE.u g) s) = false := hs
    have seg := t1sSeg_t1sBegin g true hs'
    refine ⟨_, (execPlcaCycle_of_passed hr hp hm hl hh).trans (congrArg _ (t1sCycleEnd_of_waiting ha)), by rw [seg],
      by rw [seg], by rw [seg], by rw [seg], t1sBegin_out g true hs', rd_t1sBegin_active g true _, ?_⟩
    rw [t1sBegin_frame g true hs']; rfl
  case passed => exact ⟨_, execToTimer_of_open h, t1sSeg_t1sSet_same g _ s, rfl⟩
  case beacon =>
    refine ⟨_, execBeaconReceived_of_follower hr hm hl, t1sSeg_t1sSet_same g _ s, ?_, ?_, rfl⟩
    · rw [rd_incWrap_units _ _ _ (by decide), rd_wrB_unit _ _ _ (by decide)]; rfl
    · exact (regsKept_wrB _ _ (t1sSet g _ s)).trans (regsKept_incWrap _ _)
  case timeout =>
    refine ⟨_, execBeaconTimeout_of_follower hr hm hp, ?_, ?_, ?_, rfl⟩
    · exact congrArg T1sSeg.cycle (t1sSeg_t1sSet_same g _ s)
    · rw [rd_inc_units _ _ _ (by decide), rd_wrB_unit _ _ _ (by decide)]; rfl
    · rw [rd_inc_unit _ _ (by decide), rd_wrB_units _ _ _ _ (by decide)]; rfl
  case collision =>
    refine ⟨_, execCollision_of_retry hc hm ht hs, ?_, ?_, rfl, rfl⟩
    · rw [t1sSeg_t1sSet_same]
    · have drawn : Config.freeNat s.free % 2 ^ min ((t1sSeg g s).tries + 1) 10 < 2 ^ min ((t1sSeg g s).tries + 1) 10 :=
        Nat.mod_lt _ (Nat.two_pow_pos _)
      rw [t1sSeg_t1sSet_same]
      exact decide_eq_true drawn
  case backoff => exact execBackoff_of_frame hr hb hw
  case exit => exact ⟨_, execLowPowerExit_of_other hr hl hm hw, t1sLow_wrB_false g s, regsKept_wrB _ _ s, rfl⟩
  case noMatch =>
    exact ⟨_, execWakePattern_of_no_match h4 hm hf hb hw, rd_inc_unit _ _ (by decide), regsKept_inc _ s, rfl⟩
  case groups =>
    exact ⟨_, execWakePattern_of_match (by omega) hm hf hb hw,
      wakeReason_of_standby (s := inc (F.T1S_SGnn_WAKE_MATCH.u g) s) (8 + g) m false h2⟩

end Sys2Proof.Machine

namespace Sys2Proof.Machine

/-! ### The form of a command's operands decides whether it runs (R238, R257, R393, R416, R478, R482, R509) -/

theorem execScraper_next (s : State) : ∃ t, execScraper s = .next t := by
  unfold execScraper
  split
  · exact ⟨s, rfl⟩
  · exact ⟨_, rfl⟩

theorem execContainmentWindow_next (u : Fin 33) (s : State) : ∃ t, execContainmentWindow u s = .next t := by
  unfold execContainmentWindow
  split
  · exact ⟨s, rfl⟩
  · exact ⟨_, rfl⟩

/-- Every command has a next state behind the check of its operands' form: the commands with such operands check it with
`guardWf`, and the others, whose form always holds, answer their next state. -/
theorem exec_eq_guardWf (c : Instr) (s : State) : ∃ what t, exec c s = guardWf c.wf what (.next t) := by
  cases c with
  | canFrameReceived | cancellation => exact ⟨"CAN frame", _, rfl⟩
  | linResponse => exact ⟨"LIN response", _, rfl⟩
  | keyUpdate | keyDerive | ecdh | vsZeroise | slotInfo | getIdentity | signChallenge | lcRequest | debugToken
  | certInstall => exact ⟨"vault argument", _, rfl⟩
  | sakInstallation => exact ⟨"SA key", _, rfl⟩
  | sendDescriptor => exact ⟨"send descriptor", _, rfl⟩
  | receiveDescriptor => exact ⟨"receive descriptor", _, rfl⟩
  | read | write => exact ⟨"xSPI length", _, rfl⟩
  | diagnosticRead => exact ⟨"diagnostic request", _, rfl⟩
  | scraper =>
    obtain ⟨t, ht⟩ := execScraper_next s
    exact ⟨"", t, ht⟩
  | containmentWindow u =>
    obtain ⟨t, ht⟩ := execContainmentWindow_next u s
    exact ⟨"", t, ht⟩
  | _ => exact ⟨"", _, rfl⟩

/-- Settles O39: a command is its next state behind the check of its form, which a well-formed one
passes and an ill-formed one fails. -/
theorem wellFormedCommandsNeverStop : Obligations.WellFormedCommandsNeverStop := by
  unfold Obligations.WellFormedCommandsNeverStop
  refine ⟨fun c s h => ?wellFormed, fun c s h => ?illFormed⟩
  all_goals obtain ⟨what, t, hexec⟩ := exec_eq_guardWf c s
  case wellFormed => exact ⟨t, by rw [hexec, h]; rfl⟩
  case illFormed => exact ⟨what, by rw [hexec, h]; rfl⟩

end Sys2Proof.Machine

namespace Sys2Proof.Machine

/-! ### Operations repeated over a list, and event records -/

/-- Fields written one after another change the registers alone. -/
theorem each_wr_frame {α : Type} (l : List α) (f : α → Field) (v : α → Nat) (s : State) :
    each l (fun a => wr (f a) (v a)) s = { s with regs := (each l (fun a => wr (f a) (v a)) s).regs } := by
  induction l generalizing s with
  | nil => rfl
  | cons a l ih => exact ih (wr (f a) (v a) s)

/-- Fields written one after another leave every field with another key. -/
theorem rd_each_wr_ne {α : Type} {g : Field} {l : List α} {f : α → Field} (v : α → Nat) (s : State)
    (h : ∀ a ∈ l, g.key ≠ (f a).key) : rd g (each l (fun a => wr (f a) (v a)) s) = rd g s := by
  induction l generalizing s with
  | nil => rfl
  | cons a l ih =>
    have rest := ih (wr (f a) (v a) s) fun b hb => h b (List.mem_cons_of_mem a hb)
    exact rest.trans (rd_wr_ne _ _ _ _ (h a List.mem_cons_self))

/-- An event record changes the recorder alone. -/
theorem record_frame (c x d : Nat) (s : State) : record c x d s = { s with rcd := (record c x d s).rcd } := by
  unfold record recUpdate; split <;> rfl

/-! ### The outputs of the side-band scan (R267) -/

/-- g is none of the output registers. -/
abbrev NotOutput (g : Field) : Prop := ∀ n ∈ List.range 8, g.key ≠ (F.FLD_SBS_OUTn_OUT.u n).key

/-- The state but for the outputs: without the registers, the ports and the outputs' run state. -/
def besideOutputs (s : State) : State :=
  { s with regs := [], eth := {}, sbs := { s.sbs with outs := 0, busy := false, again := false, wrote := (0, []) } }

theorem sbsShow_frame (s : State) : sbsShow s = { s with regs := (sbsShow s).regs } := each_wr_frame _ _ _ s

theorem rd_sbsShow {g : Field} (h : NotOutput g) (s : State) : rd g (sbsShow s) = rd g s := rd_each_wr_ne _ s h

theorem sbsStart_eq (s : State) :
    sbsStart s = { s with sbs := { s.sbs with busy := true, again := s.sbs.again || s.sbs.busy } } := by
  unfold sbsStart
  by_cases hb : s.sbs.busy = true
  · rw [if_pos hb]; simp [hb]
  · rw [if_neg hb]; simp [hb]

theorem sbsWriteMask_besideOutputs (w : SbsWriter) (mask vals : Nat) (s : State) :
    besideOutputs (sbsWriteMask w mask vals s) = besideOutputs s := by
  simp only [sbsWriteMask, sbsStart_eq]
  split
  · rfl
  · split
    · rfl
    · rw [sbsShow_frame]; rfl

theorem rd_sbsWriteMask {g : Field} (h : NotOutput g) (w : SbsWriter) (mask vals : Nat) (s : State) :
    rd g (sbsWriteMask w mask vals s) = rd g s := by
  simp only [sbsWriteMask, sbsStart_eq]
  split
  · rfl
  · split
    · rfl
    · exact rd_sbsShow h _

theorem sbsWrite_besideOutputs (w : SbsWriter) (o : Nat) (v : Bool) (s : State) :
    besideOutputs (sbsWrite w o v s) = besideOutputs s := by
  unfold sbsWrite
  split
  · exact sbsWriteMask_besideOutputs w _ _ s
  · rfl

theorem rd_sbsWrite {g : Field} (h : NotOutput g) (w : SbsWriter) (o : Nat) (v : Bool) (s : State) :
    rd g (sbsWrite w o v s) = rd g s := by
  unfold sbsWrite
  split
  · exact rd_sbsWriteMask h w _ _ s
  · rfl

theorem phyRelease_besideOutputs (s : State) : besideOutputs (phyRelease s) = besideOutputs s := by
  refine foldl_keepP _ _ besideOutputs (fun u x => ?_) s
  exact sbsWrite_besideOutputs .phy _ true _

theorem rd_phyRelease {g : Field} (h : NotOutput g) (s : State) : rd g (phyRelease s) = rd g s := by
  refine foldl_keepP _ _ (rd g) (fun u x => ?_) s
  exact rd_sbsWrite h .phy _ true _

theorem phyRelease_of_no_step {s : State} (h : ∀ x ∈ s.eth.ports, x.2.step ≠ 1) : phyRelease s = s := by
  have none_waits : (s.eth.ports.filter fun p => p.2.step == 1) = [] := by simpa [List.filter_eq_nil_iff] using h
  rw [phyRelease, none_waits]; rfl

/-! ### A scan of the side-band inputs (R265, R266) -/

/-- The scan depends on the plate, the power mode and the domains held. -/
theorem sbsRuns_congr {s t : State} (hc : t.cfg = s.cfg) (hp : t.pwr = s.pwr) (hs : t.sys = s.sys) :
    sbsRuns t = sbsRuns s := by
  simp only [sbsRuns, sbsOn, cfgN, cfgRec, domRuns, hc, hp, hs]

theorem scanGood_eq_false_iff (raw : Nat) : scanGood raw = false ↔ bit raw 254 = true ∨ bit raw 255 = false := by
  simp [scanGood, Decidable.or_iff_not_imp_left]

theorem scanGood_eq_true_iff (raw : Nat) : scanGood raw = true ↔ bit raw 254 = false ∧ bit raw 255 = true := by
  simp [scanGood]

/-- A scan has come in: the PHY resets that waited for it are released, and it is counted. -/
def scanBegun (s : State) : State := incWrap F.FLD_SBS_STAT_SCANS (phyRelease s)

theorem scanBegun_besideOutputs (s : State) : besideOutputs (scanBegun s) = besideOutputs s :=
  phyRelease_besideOutputs s

theorem scanBegun_cfg (s : State) : (scanBegun s).cfg = s.cfg := congrArg (·.cfg) (scanBegun_besideOutputs s)

theorem scanBegun_pwr (s : State) : (scanBegun s).pwr = s.pwr := congrArg (·.pwr) (scanBegun_besideOutputs s)

theorem scanBegun_sys (s : State) : (scanBegun s).sys = s.sys := congrArg (·.sys) (scanBegun_besideOutputs s)

theorem scanBegun_rcd (s : State) : (scanBegun s).rcd = s.rcd := congrArg (·.rcd) (scanBegun_besideOutputs s)

theorem scanBegun_time (s : State) : (scanBegun s).time = s.time := congrArg (·.time) (scanBegun_besideOutputs s)

theorem scanBegun_ins (s : State) : (scanBegun s).sbs.ins = s.sbs.ins :=
  congrArg (·.sbs.ins) (scanBegun_besideOutputs s)

theorem scanBegun_scans (s : State) : (scanBegun s).sbs.scans = s.sbs.scans :=
  congrArg (·.sbs.scans) (scanBegun_besideOutputs s)

theorem scanBegun_bad (s : State) : (scanBegun s).sbs.bad = s.sbs.bad :=
  congrArg (·.sbs.bad) (scanBegun_besideOutputs s)

theorem scanBegun_good (s : State) : (scanBegun s).sbs.good = s.sbs.good :=
  congrArg (·.sbs.good) (scanBegun_besideOutputs s)

theorem scanBegun_of_no_step {s : State} (h : ∀ x ∈ s.eth.ports, x.2.step ≠ 1) :
    scanBegun s = incWrap F.FLD_SBS_STAT_SCANS s := congrArg _ (phyRelease_of_no_step h)

theorem rd_scanBegun {g : Field} (h : NotOutput g ∧ g.key ≠ F.FLD_SBS_STAT_SCANS.key) (s : State) :
    rd g (scanBegun s) = rd g s := (rd_incWrap_ne _ _ _ h.2).trans (rd_phyRelease h.1 s)

theorem rd_scans_scanBegun (s : State) :
    rd F.FLD_SBS_STAT_SCANS (scanBegun s) = (rd F.FLD_SBS_STAT_SCANS s + 1) % 2 ^ F.FLD_SBS_STAT_SCANS.w := by
  rw [scanBegun, rd_incWrap_same _ _ (by decide), rd_phyRelease (by decide)]

/-- What a bad scan leaves once it has come in: the counts of R266, and with the third in a row FAULT and its record. -/
def scanFailed (s : State) : State :=
  when (s.sbs.bad == 2) (fun s => record 0x0505 254 1 (wrB F.FLD_SBS_STAT_FAULT true s))
    (inc F.FLD_SBS_STAT_BAD { s with sbs := { s.sbs with good := 0, bad := min (s.sbs.bad + 1) 3 } })

/-- The state after a bad scan. -/
def badScan (s : State) : State := scanFailed (scanBegun s)

theorem scanFailed_of_ne {s : State} (h : s.sbs.bad ≠ 2) : scanFailed s =
    inc F.FLD_SBS_STAT_BAD { s with sbs := { s.sbs with good := 0, bad := min (s.sbs.bad + 1) 3 } } := by
  simp [scanFailed, when, h]

theorem scanFailed_of_eq {s : State} (h : s.sbs.bad = 2) : scanFailed s =
    record 0x0505 254 1 (wrB F.FLD_SBS_STAT_FAULT true
      (inc F.FLD_SBS_STAT_BAD { s with sbs := { s.sbs with good := 0, bad := 3 } })) := by
  simp [scanFailed, when, h]

theorem scanFailed_frame (s : State) : scanFailed s = { s with
    regs := (scanFailed s).regs, rcd := (scanFailed s).rcd,
    sbs := { s.sbs with good := 0, bad := min (s.sbs.bad + 1) 3 } } := by
  by_cases h : s.sbs.bad = 2
  · rw [scanFailed_of_eq h, record_frame, h]; rfl
  · rw [scanFailed_of_ne h]; rfl

theorem rd_scanFailed {g : Field} (h : g.key ≠ F.FLD_SBS_STAT_BAD.key ∧ g.key ≠ F.FLD_SBS_STAT_FAULT.key)
    (s : State) : rd g (scanFailed s) = rd g s := by
  by_cases hb : s.sbs.bad = 2
  · rw [scanFailed_of_eq hb, rd_record, rd_wrB_ne _ _ _ _ h.2]; exact rd_inc_ne _ _ _ h.1
  · rw [scanFailed_of_ne hb]; exact rd_inc_ne _ _ _ h.1

theorem rd_bad_scanFailed (s : State) :
    rd F.FLD_SBS_STAT_BAD (scanFailed s) = min (rd F.FLD_SBS_STAT_BAD s + 1) (2 ^ F.FLD_SBS_STAT_BAD.w - 1) := by
  by_cases hb : s.sbs.bad = 2
  · rw [scanFailed_of_eq hb, rd_record, rd_wrB_ne _ _ _ _ (by decide), rd_inc_same _ _ (by decide)]; rfl
  · rw [scanFailed_of_ne hb, rd_inc_same _ _ (by decide)]; rfl

theorem rd_fault_scanFailed_of_ne {s : State} (h : s.sbs.bad ≠ 2) :
    rd F.FLD_SBS_STAT_FAULT (scanFailed s) = rd F.FLD_SBS_STAT_FAULT s := by
  rw [scanFailed_of_ne h]; exact rd_inc_ne _ _ _ (by decide)

theorem rd_fault_scanFailed_of_eq {s : State} (h : s.sbs.bad = 2) : rd F.FLD_SBS_STAT_FAULT (scanFailed s) = 1 := by
  rw [scanFailed_of_eq h, rd_record, rd_wrB_same _ _ _ (by decide)]; rfl

end Sys2Proof.Machine

namespace Sys2Proof.Machine

/-- g is no channel's transceiver status (R269). -/
abbrev NotXcvrErr (g : Field) : Prop :=
  (∀ c ∈ List.range 96, g.key ≠ (F.FLD_CANnn_STAT_XCVR_ERR.u c).key) ∧
    ∀ c ∈ List.range 32, g.key ≠ (F.FLD_LINnn_STAT_XCVR_ERR.u c).key

/-- The state without the registers and the event recorder. -/
def besideRecords (s : State) : State := { s with regs := [], rcd := {} }

theorem sbsInput_besideRecords (i : Nat) (v : Bool) (s : State) : besideRecords (sbsInput i v s) = besideRecords s := by
  have each_wrB {l : List Nat} (f : Nat → Field) (u : State) :
      besideRecords (each l (fun c => wrB (f c) v) u) = besideRecords u :=
    (congrArg besideRecords (each_wr_frame l f (fun _ => b2n v) u)).trans rfl
  simp only [sbsInput, when]
  split
  · rw [record_frame]; exact (each_wrB _ _).trans (each_wrB _ _)
  · exact (each_wrB _ _).trans (each_wrB _ _)

theorem rd_sbsInput {g : Field} (h : NotXcvrErr g) (i : Nat) (v : Bool) (s : State) :
    rd g (sbsInput i v s) = rd g s := by
  obtain ⟨hcan, hlin⟩ := h
  have lins (p : Nat → Bool) (u : State) :
      rd g (each ((List.range 32).filter p) (fun c => wrB (F.FLD_LINnn_STAT_XCVR_ERR.u c) v) u) = rd g u :=
    rd_each_wr_ne (fun _ => b2n v) u fun c hc => hlin c (List.mem_filter.mp hc).1
  have cans (p : Nat → Bool) (u : State) :
      rd g (each ((List.range 96).filter p) (fun c => wrB (F.FLD_CANnn_STAT_XCVR_ERR.u c) v) u) = rd g u :=
    rd_each_wr_ne (fun _ => b2n v) u fun c hc => hcan c (List.mem_filter.mp hc).1
  simp only [sbsInput, when]
  split
  · rw [rd_record, lins, cans]
  · rw [lins, cans]

/-- The latest good scans with this one, each as the active levels of its inputs. -/
def scanList (raw : Nat) (s : State) : List Nat := ((raw ^^^ sbsMap 0x30 s) :: s.sbs.scans).take 8

/-- The inputs that the latest good scans give. -/
def scanIns (raw : Nat) (s : State) : Nat := debounced (max 1 (cfgN C.sbs 0 2 1 s)) (scanList raw s) s.sbs.ins

/-- The scan's own state after a good scan. -/
def scanTaken (raw : Nat) (s : State) : State :=
  { s with sbs := { s.sbs with
    scans := scanList raw s, ins := scanIns raw s, bad := 0, good := min (s.sbs.good + 1) 3 } }

/-- The input registers show the inputs v. -/
def insShown (v : Nat) (s : State) : State :=
  each (List.range 8) (fun n => wr (F.FLD_SBS_INn_IN.u n) (v / 2 ^ (32 * n))) s

/-- A good scan shown in the registers; the third in a row clears FAULT. -/
def scanShown (raw : Nat) (s : State) : State :=
  when ((insShown (scanIns raw s) (scanTaken raw s)).sbs.good == 3) (wrB F.FLD_SBS_STAT_FAULT false)
    (insShown (scanIns raw s) (scanTaken raw s))

/-- What a good scan leaves once it has come in: the debounced inputs, and what follows those that have changed. -/
def scanPassed (raw : Nat) (s : State) : State :=
  each ((List.range 256).filter fun i => bit (scanIns raw s) i != bit s.sbs.ins i)
    (fun i => sbsInput i (bit (scanIns raw s) i)) (scanShown raw s)

/-- The state after a good scan. -/
def goodScan (raw : Nat) (s : State) : State := scanPassed raw (scanBegun s)

theorem insShown_frame (v : Nat) (s : State) : insShown v s = { s with regs := (insShown v s).regs } :=
  each_wr_frame _ _ _ s

/-- A scan that runs is a good or a bad one. -/
theorem execSbsInputScan_eq (v : BitVec 256) (s : State) : execSbsInputScan v s =
    .next (if !sbsRuns s then s else if scanGood v.toNat then goodScan v.toNat s else badScan s) := rfl

theorem execSbsInputScan_of_good {v : BitVec 256} {s : State} (hr : sbsRuns s = true) (hv : scanGood v.toNat = true) :
    execSbsInputScan v s = .next (goodScan v.toNat s) := by
  rw [execSbsInputScan_eq, hr, hv]; rfl

theorem execSbsInputScan_of_bad {v : BitVec 256} {s : State} (hr : sbsRuns s = true) (hv : scanGood v.toNat = false) :
    execSbsInputScan v s = .next (badScan s) := by
  rw [execSbsInputScan_eq, hr, hv]; rfl

theorem insShown_scanTaken_good (raw : Nat) (s : State) :
    (insShown (scanIns raw s) (scanTaken raw s)).sbs.good = min (s.sbs.good + 1) 3 := by
  rw [insShown_frame]; rfl

theorem scanShown_frame (raw : Nat) (s : State) :
    scanShown raw s = { scanTaken raw s with regs := (scanShown raw s).regs } := by
  unfold scanShown when
  split
  · rw [insShown_frame]; rfl
  · exact insShown_frame _ _

theorem scanPassed_besideRecords (raw : Nat) (s : State) :
    besideRecords (scanPassed raw s) = besideRecords (scanTaken raw s) := by
  have input (u : State) (i : Nat) : besideRecords (sbsInput i (bit (scanIns raw s) i) u) = besideRecords u :=
    sbsInput_besideRecords i _ u
  refine (foldl_keepP _ _ besideRecords input _).trans ?_
  rw [scanShown_frame]; rfl

theorem scanPassed_sbs (raw : Nat) (s : State) : (scanPassed raw s).sbs = (scanTaken raw s).sbs :=
  congrArg (·.sbs) (scanPassed_besideRecords raw s)

theorem scanPassed_of_unchanged {raw : Nat} {s : State} (h : scanIns raw s = s.sbs.ins) :
    scanPassed raw s = scanShown raw s := by
  have unchanged : (List.range 256).filter (fun i => bit (scanIns raw s) i != bit s.sbs.ins i) = [] :=
    List.filter_eq_nil_iff.mpr fun i _ => by simp only [h, bne_self_eq_false, Bool.false_eq_true, not_false_eq_true]
  rw [scanPassed, unchanged]; rfl

/-- A field of neither the inputs nor the transceivers keeps its value in a good scan. -/
theorem rd_scanPassed {g : Field} (raw : Nat) (s : State)
    (h : (∀ n ∈ List.range 8, g.key ≠ (F.FLD_SBS_INn_IN.u n).key) ∧ NotXcvrErr g) :
    rd g (scanPassed raw s) =
      rd g (when (min (s.sbs.good + 1) 3 == 3) (wrB F.FLD_SBS_STAT_FAULT false) s) := by
  obtain ⟨hin, hx⟩ := h
  have shown : rd g (insShown (scanIns raw s) (scanTaken raw s)) = rd g s := rd_each_wr_ne _ (scanTaken raw s) hin
  have inputs : rd g (scanPassed raw s) = rd g (scanShown raw s) :=
    foldl_keepP _ _ (rd g) (fun _ i => rd_sbsInput hx i _ _) _
  rw [inputs, scanShown, insShown_scanTaken_good]
  unfold when
  split
  · simp only [wrB, rd_wr, shown]
  · exact shown

theorem rd_fault_scanPassed_of_lt {raw : Nat} {s : State} (h : s.sbs.good < 2) :
    rd F.FLD_SBS_STAT_FAULT (scanPassed raw s) = rd F.FLD_SBS_STAT_FAULT s := by
  rw [rd_scanPassed raw s (by decide)]
  simp [when, show ¬ min (s.sbs.good + 1) 3 = 3 by omega]

theorem rd_fault_scanPassed_of_le {raw : Nat} {s : State} (h : 2 ≤ s.sbs.good) :
    rd F.FLD_SBS_STAT_FAULT (scanPassed raw s) = 0 := by
  have third : (min (s.sbs.good + 1) 3 == 3) = true := by simpa using by omega
  rw [rd_scanPassed raw s (by decide), when, if_pos third]
  exact rd_wrB_same _ _ _ (by decide)

/-! ### Successive scans (R266) -/

theorem badScan_sbs_bad (s : State) : (badScan s).sbs.bad = min (s.sbs.bad + 1) 3 := by
  rw [badScan, scanFailed_frame]; simp only [scanBegun_bad]

theorem badScan_sbs_good (s : State) : (badScan s).sbs.good = 0 := by rw [badScan, scanFailed_frame]

theorem badScan_sbs_ins (s : State) : (badScan s).sbs.ins = s.sbs.ins := by
  rw [badScan, scanFailed_frame]; exact scanBegun_ins s

theorem sbsRuns_badScan (s : State) : sbsRuns (badScan s) = sbsRuns s := by
  rw [badScan, scanFailed_frame]
  exact sbsRuns_congr (scanBegun_cfg s) (scanBegun_pwr s) (scanBegun_sys s)

theorem badScan_rcd_of_ne {s : State} (h : s.sbs.bad ≠ 2) : (badScan s).rcd = s.rcd := by
  rw [badScan, scanFailed_of_ne (by rwa [scanBegun_bad])]; exact scanBegun_rcd s

theorem badScan_time (s : State) : (badScan s).time = s.time := by
  rw [badScan, scanFailed_frame]; exact scanBegun_time s

theorem rd_fault_badScan_of_ne {s : State} (h : s.sbs.bad ≠ 2) :
    rd F.FLD_SBS_STAT_FAULT (badScan s) = rd F.FLD_SBS_STAT_FAULT s := by
  rw [badScan, rd_fault_scanFailed_of_ne (by rwa [scanBegun_bad]), rd_scanBegun (by decide)]

theorem rd_fault_badScan_of_eq {s : State} (h : s.sbs.bad = 2) : rd F.FLD_SBS_STAT_FAULT (badScan s) = 1 :=
  rd_fault_scanFailed_of_eq (by rwa [scanBegun_bad])

theorem rd_bad_badScan (s : State) :
    rd F.FLD_SBS_STAT_BAD (badScan s) = min (rd F.FLD_SBS_STAT_BAD s + 1) (2 ^ F.FLD_SBS_STAT_BAD.w - 1) := by
  rw [badScan, rd_bad_scanFailed, rd_scanBegun (by decide)]

/-- A bad scan leaves the input registers (R266). -/
theorem rd_in_badScan {n : Nat} (hn : n < 8) (s : State) :
    rd (F.FLD_SBS_INn_IN.u n) (badScan s) = rd (F.FLD_SBS_INn_IN.u n) s := by
  have apart : ∀ n ∈ List.range 8, (NotOutput (F.FLD_SBS_INn_IN.u n) ∧
      (F.FLD_SBS_INn_IN.u n).key ≠ F.FLD_SBS_STAT_SCANS.key) ∧
      (F.FLD_SBS_INn_IN.u n).key ≠ F.FLD_SBS_STAT_BAD.key ∧
      (F.FLD_SBS_INn_IN.u n).key ≠ F.FLD_SBS_STAT_FAULT.key := by decide
  obtain ⟨hbegun, hfailed⟩ := apart n (List.mem_range.mpr hn)
  exact (rd_scanFailed hfailed _).trans (rd_scanBegun hbegun s)

/-- The third bad scan in a row writes its event record on a state with the recorder and the clock of before. -/
theorem badScan_record {s : State} (h : s.sbs.bad = 2) :
    ∃ u, badScan s = record 0x0505 254 1 u ∧ u.rcd = s.rcd ∧ u.time = s.time :=
  ⟨_, scanFailed_of_eq (by rwa [scanBegun_bad]), scanBegun_rcd s, scanBegun_time s⟩

theorem goodScan_sbs_good (raw : Nat) (s : State) : (goodScan raw s).sbs.good = min (s.sbs.good + 1) 3 := by
  rw [goodScan, scanPassed_sbs, scanTaken]; simp only [scanBegun_good]

theorem sbsRuns_goodScan (raw : Nat) (s : State) : sbsRuns (goodScan raw s) = sbsRuns s := by
  have kept := scanPassed_besideRecords raw (scanBegun s)
  have hc : (goodScan raw s).cfg = (scanBegun s).cfg := congrArg (·.cfg) kept
  have hp : (goodScan raw s).pwr = (scanBegun s).pwr := congrArg (·.pwr) kept
  have hs : (goodScan raw s).sys = (scanBegun s).sys := congrArg (·.sys) kept
  exact sbsRuns_congr (hc.trans (scanBegun_cfg s)) (hp.trans (scanBegun_pwr s)) (hs.trans (scanBegun_sys s))

theorem rd_fault_goodScan_of_lt {raw : Nat} {s : State} (h : s.sbs.good < 2) :
    rd F.FLD_SBS_STAT_FAULT (goodScan raw s) = rd F.FLD_SBS_STAT_FAULT s := by
  rw [goodScan, rd_fault_scanPassed_of_lt (by rwa [scanBegun_good]), rd_scanBegun (by decide)]

theorem rd_fault_goodScan_of_le {raw : Nat} {s : State} (h : 2 ≤ s.sbs.good) :
    rd F.FLD_SBS_STAT_FAULT (goodScan raw s) = 0 := rd_fault_scanPassed_of_le (by rwa [scanBegun_good])

/-- Settles O37: a scan is badScan or goodScan; FAULT and its record follow the counts of scans in a row, which these
steps keep. -/
theorem sideBandFaultFollowsThreeScans : Obligations.SideBandFaultFollowsThreeScans := by
  unfold Obligations.SideBandFaultFollowsThreeScans
  simp only [exec_sbsInputScan, ← scanGood_eq_false_iff, ← scanGood_eq_true_iff]
  refine ⟨fun v s hr hv => ?one, fun v1 v2 v3 s hr hb hv => ?three, fun v0 v1 v2 v3 s hr h0 hv => ?cleared⟩
  case one =>
    exact ⟨badScan s, execSbsInputScan_of_bad hr hv, badScan_sbs_ins s, fun n hn => rd_in_badScan hn s,
      rd_bad_badScan s, rd_fault_badScan_of_ne⟩
  case three =>
    have h1 : (badScan s).sbs.bad = 1 := by rw [badScan_sbs_bad, hb]; rfl
    have h2 : (badScan (badScan s)).sbs.bad = 2 := by rw [badScan_sbs_bad, h1]; rfl
    have r1 : sbsRuns (badScan s) = true := (sbsRuns_badScan s).trans hr
    have r2 : sbsRuns (badScan (badScan s)) = true := (sbsRuns_badScan _).trans r1
    have rcd2 : (badScan (badScan s)).rcd = s.rcd :=
      (badScan_rcd_of_ne (by omega)).trans (badScan_rcd_of_ne (by omega))
    obtain ⟨u, hu, hrcd, htime⟩ := badScan_record h2
    refine ⟨_, _, _, execSbsInputScan_of_bad hr (hv v1 (by simp)), execSbsInputScan_of_bad r1 (hv v2 (by simp)),
      execSbsInputScan_of_bad r2 (hv v3 (by simp)), ?_, rcd2, rd_fault_badScan_of_eq h2, ?_,
      u, hu, hrcd.trans rcd2, ?_⟩
    · rw [rd_fault_badScan_of_ne (by omega), rd_fault_badScan_of_ne (by omega)]
    · rw [badScan_sbs_ins, badScan_sbs_ins, badScan_sbs_ins]
    · rw [htime, badScan_time, badScan_time]
  case cleared =>
    have g0 := badScan_sbs_good s
    have g1 : (goodScan v1.toNat (badScan s)).sbs.good = 1 := by rw [goodScan_sbs_good, g0]; rfl
    have g2 : (goodScan v2.toNat (goodScan v1.toNat (badScan s))).sbs.good = 2 := by rw [goodScan_sbs_good, g1]; rfl
    have r0 : sbsRuns (badScan s) = true := (sbsRuns_badScan s).trans hr
    have r1 := (sbsRuns_goodScan v1.toNat (badScan s)).trans r0
    have r2 := (sbsRuns_goodScan v2.toNat (goodScan v1.toNat (badScan s))).trans r1
    refine ⟨_, _, _, _, execSbsInputScan_of_bad hr h0, execSbsInputScan_of_good r0 (hv v1 (by simp)),
      execSbsInputScan_of_good r1 (hv v2 (by simp)), execSbsInputScan_of_good r2 (hv v3 (by simp)), ?_,
      rd_fault_goodScan_of_le (by omega)⟩
    rw [rd_fault_goodScan_of_lt (by omega), rd_fault_goodScan_of_lt (by omega)]

end Sys2Proof.Machine

namespace Sys2Proof.Machine

/-! ### An output written by one of its writers (R267) -/

theorem testBit_eq_bit (n i : Nat) : n.testBit i = bit n i := by
  rw [Nat.testBit_eq_decide_div_mod_eq, bit, Bool.beq_eq_decide_eq]

theorem testBit_b2n_mul_two_pow (v : Bool) (o i : Nat) : (b2n v * 2 ^ o).testBit i = (v && decide (o = i)) := by
  cases v with
  | true => rw [b2n, if_pos rfl, Nat.one_mul, Nat.testBit_two_pow, Bool.true_and]
  | false => rw [b2n, if_neg Bool.false_ne_true, Nat.zero_mul, Nat.zero_testBit, Bool.false_and]

theorem and_two_pow_eq_bit (n o : Nat) : n &&& 2 ^ o = b2n (bit n o) * 2 ^ o := by
  refine Nat.eq_of_testBit_eq fun i => ?_
  rw [Nat.testBit_and, Nat.testBit_two_pow, testBit_b2n_mul_two_pow, testBit_eq_bit]
  by_cases hi : o = i
  · rw [hi]
  · rw [decide_eq_false hi, Bool.and_false, Bool.and_false]

theorem putBit_eq (n o : Nat) (v : Bool) : putBit n o v = n - b2n (bit n o) * 2 ^ o + b2n v * 2 ^ o := by
  have low : n / 2 ^ o % 2 = b2n (bit n o) := by
    simp only [bit, b2n, beq_iff_eq]; split <;> omega
  cases v <;> simp [putBit, putBits, bits, low, b2n]

theorem putBit_bit_self (n o : Nat) : putBit n o (bit n o) = n := by
  have le : b2n (bit n o) * 2 ^ o ≤ n := and_two_pow_eq_bit n o ▸ Nat.and_le_left
  rw [putBit_eq]; omega

theorem putBit_ne {n o : Nat} {v : Bool} (h : bit n o ≠ v) : putBit n o v ≠ n := by
  have le : b2n (bit n o) * 2 ^ o ≤ n := and_two_pow_eq_bit n o ▸ Nat.and_le_left
  have pos := Nat.two_pow_pos o
  rw [putBit_eq]
  cases hb : bit n o with
  | false =>
    obtain rfl : v = true := by simpa [hb] using h.symm
    simp only [b2n, if_pos, Bool.false_eq_true, if_false]; omega
  | true =>
    obtain rfl : v = false := by simpa [hb] using h.symm
    rw [hb] at le
    simp only [b2n, if_pos, Bool.false_eq_true, if_false] at le ⊢; omega

/-- Bit o put at v under a mask of that bit alone. -/
theorem clearBits_add_eq_putBit (n o : Nat) (v : Bool) :
    clearBits n (2 ^ o) + (b2n v * 2 ^ o &&& 2 ^ o) = putBit n o v := by
  have vals : b2n v * 2 ^ o &&& 2 ^ o = b2n v * 2 ^ o := by cases v <;> simp [b2n]
  rw [clearBits, and_two_pow_eq_bit n, vals, putBit_eq]

theorem bitList_two_pow {o n : Nat} (h : o < n) : bitList (2 ^ o) n = [o] := by
  have only (i : Nat) : bit (2 ^ o) i = (i == o) := by
    rw [← testBit_eq_bit, Nat.testBit_two_pow, Bool.beq_eq_decide_eq, decide_eq_decide, eq_comm]
  rw [bitList, show bit (2 ^ o) = (· == o) from funext only, List.filter_beq,
    List.count_range, if_pos h, List.replicate_one]

/-- Output o takes its value from a write at rank w in this tick. -/
def sbsTaken (w : SbsWriter) (o : Nat) (v : Bool) (s : State) : State :=
  { s with sbs := { s.sbs with outs := putBit s.sbs.outs o v, wrote := (s.time.loc, (o, sbsRank w) :: sbsWrote s) } }

section
variable {w : SbsWriter} {o : Nat} {s : State} (hr : sbsRuns s = true) (ho : o < 256)
include hr ho

theorem sbsWrite_of_may (hm : sbsMay w s o = true) (v : Bool) : sbsWrite w o v s =
    if putBit s.sbs.outs o v = s.sbs.outs then sbsTaken w o v s else sbsStart (sbsShow (sbsTaken w o v s)) := by
  have outs : (bitList (2 ^ o) 256).filter (sbsMay w s) = [o] := by simp [bitList_two_pow ho, hm]
  have mask : ofBits [o] = 2 ^ o := by simp [ofBits, bit]
  simp only [sbsWrite, if_pos ho, sbsWriteMask, hr, Bool.not_true, Bool.false_eq_true, if_false, outs, mask,
    clearBits_add_eq_putBit]
  split
  · rename_i same; simp [sbsTaken, same]
  · rfl

/-- A write that a higher writer has preceded in the tick leaves the output. -/
theorem sbsWrite_of_not_may (hm : sbsMay w s o = false) (v : Bool) :
    sbsWrite w o v s = { s with sbs := { s.sbs with wrote := (s.time.loc, sbsWrote s) } } := by
  have outs : (bitList (2 ^ o) 256).filter (sbsMay w s) = [] := by simp [bitList_two_pow ho, hm]
  simp [sbsWrite, if_pos ho, sbsWriteMask, hr, outs, ofBits, clearBits]

theorem sbsWrite_of_change {v : Bool} (hm : sbsMay w s o = true) (hv : bit s.sbs.outs o ≠ v) :
    sbsWrite w o v s = sbsStart (sbsShow (sbsTaken w o v s)) := by
  rw [sbsWrite_of_may hr ho hm, if_neg (putBit_ne hv)]

theorem sbsWrite_of_same : ∃ x, sbsWrite w o (bit s.sbs.outs o) s = { s with sbs := { s.sbs with wrote := x } } := by
  cases hm : sbsMay w s o with
  | false => exact ⟨_, sbsWrite_of_not_may hr ho hm _⟩
  | true =>
    have same := putBit_bit_self s.sbs.outs o
    exact ⟨_, by rw [sbsWrite_of_may hr ho hm, if_pos same, sbsTaken, same]⟩

end

/-- An update that a changed output starts, or that waits behind the running one. -/
theorem sbsStart_sbsShow_frame (s : State) : sbsStart (sbsShow s) = { s with
    regs := (sbsShow s).regs, sbs := { s.sbs with busy := true, again := s.sbs.again || s.sbs.busy } } := by
  rw [sbsStart_eq, sbsShow_frame]

theorem execSbsRefresh_of_runs {s : State} (h : sbsRuns s = true) : execSbsRefresh s =
    .next { s with sbs := { s.sbs with busy := true, again := s.sbs.again || s.sbs.busy } } := by
  rw [execSbsRefresh, h, ← sbsStart_eq]; rfl

theorem execSbsUpdateEnd_of_busy {s : State} (hr : domRuns .fld s = true) (hb : s.sbs.busy = true) :
    execSbsUpdateEnd s = .next { s with sbs := { s.sbs with
      pins := if s.pwr.sbsClrN then s.sbs.outs else 0, busy := s.sbs.again, again := false } } := by
  simp [execSbsUpdateEnd, hr, hb]

end Sys2Proof.Machine

namespace Sys2Proof.Machine

/-! ### A frame enters a field channel's FIFO (R241) -/

theorem rd_incWrap_unit {f : Field} (n : Nat) (s : State) (hw : f.w ≤ 32) :
    rd (f.u n) (incWrap (f.u n) s) = (rd (f.u n) s + 1) % 2 ^ f.w := rd_incWrap_same (f.u n) s hw

/-- A unit's field lies below every field that a higher unit's lies below. -/
theorem key_u_lt_of_le {f g : Field} {n k : Nat} (hn : n ≤ k) (h : (f.u k).key < g.key) : (f.u n).key < g.key := by
  have step : n * f.step ≤ k * f.step := Nat.mul_le_mul_right _ hn
  simp only [Field.key, Field.u] at h ⊢
  omega

/-- The state in which a frame has joined a channel's FIFO. -/
def fifoJoined (ch : Nat) (b : List Byte) (ts : Nat) (s : State) : State :=
  pendMark (chanEngine ch s)
    { s with can := { s.can with fifo := tput s.can.fifo ch (rxFifo ch s ++ [⟨b, ts, shortNs s⟩]) } }

theorem fifoPut_of_room {ch : Nat} {b : List Byte} (ts : Nat) {s : State}
    (h : ((rxFifo ch s).map fun x => x.data.length).sum + b.length ≤ 8192) :
    fifoPut ch b ts s = (true, fifoJoined ch b ts s) := if_pos h

theorem fifoJoined_frame (ch : Nat) (b : List Byte) (ts : Nat) (s : State) : fifoJoined ch b ts s =
    { s with regs := (fifoJoined ch b ts s).regs, can := { s.can with fifo := (fifoJoined ch b ts s).can.fifo } } := by
  rw [fifoJoined, pendMark, markMax_frame]

theorem rxFifo_fifoJoined (ch : Nat) (b : List Byte) (ts : Nat) (s : State) :
    rxFifo ch (fifoJoined ch b ts s) = rxFifo ch s ++ [⟨b, ts, shortNs s⟩] := by
  rw [fifoJoined, pendMark, markMax_frame]; exact tget_tput_same _ _ _ _

theorem rxFifo_incWrap (ch : Nat) (f : Field) (s : State) : rxFifo ch (incWrap f s) = rxFifo ch s := rfl

/-- The mark of pending events stands above the field channels' registers. -/
theorem rd_fifoJoined {g : Field} (ch : Nat) (b : List Byte) (ts : Nat) (s : State)
    (h : g.key < F.GRV_GVn_PEND_HIGH.key) : rd g (fifoJoined ch b ts s) = rd g s := by
  have above (e : Nat) : g.key ≠ (F.GRV_GVn_PEND_HIGH.u e).key := by
    simp only [Field.key, Field.u] at h ⊢
    omega
  exact regsKept_markMax _ _ _ g fun f hf => List.mem_singleton.mp hf ▸ above _

/-! ### The commander's slots and the responder's headers (R260, R261, R263) -/

@[simp] theorem linCh_linSet_same (ch : Nat) (x : LinCh) (s : State) : linCh ch (linSet ch x s) = x :=
  tget_tput_same _ _ _ _

section
variable {ch id : Nat} {s : State} (t : Nat) (et : Bool)

/-- Behind a header, sent by a commander, the channel awaits the response (own: its own). -/
def linWaits (ch id t : Nat) (et own : Bool) (s : State) : State :=
  linSet ch { linCh ch s with head := some ⟨id, et, t, own⟩ } s

theorem linHead_of_subscribed (commander : Bool) (h : linId ch id s = 2) : linHead ch id t et commander s =
    linWaits ch id t et false (when commander (transmit .fld (.lin ch id [])) s) := by
  simp only [linHead, h]; rfl

theorem linHead_of_ignored (h1 : linId ch id s ≠ 1) (h2 : linId ch id s ≠ 2) :
    linHead ch id t et false s = s := by
  unfold linHead
  split
  · contradiction
  · contradiction
  · rfl

/-- A published response that is not the go-to-sleep command goes out and is counted. -/
theorem linPublish_of_ne {d : List Byte} (hid : id ≠ 0x3C) (hs : silent .fld s = false) :
    linPublish ch id d s = incWrap (F.FLD_LINnn_FRAMES_COUNT.u ch) (emit (.lin ch id d) s) := by
  simp [linPublish, when, hid, transmit_of_sounding _ hs]

theorem linHead_of_published {d : List Byte} (commander : Bool) (h : linId ch id s = 1) (hid : id ≠ 0x3C)
    (hq : (qu (640 + ch) s).ents = []) (hd : tfind (linCh ch s).buf id = some d) (hs : silent .fld s = false) :
    linHead ch id t et commander s =
      linWaits ch id t et true (incWrap (F.FLD_LINnn_FRAMES_COUNT.u ch) (emit (.lin ch id d) s)) := by
  simp only [linHead, h, hq, List.length_nil, linPopAll, hd, linPublish_of_ne hid hs]; rfl

end

/-- A commander's slot begins: the schedule goes on to slot k of table tb. -/
def linSlotBegun (ch tb k : Nat) (c : LinCh) (s : State) : State :=
  linSet ch { c with started := true } (linSet ch { linCh ch s with head := none, extraRun := false } s)
    |> wr (F.FLD_LINnn_STAT_TABLE.u ch) tb |> wr (F.FLD_LINnn_STAT_SLOT.u ch) k

/-- What the slot's entry e has the commander do at its start (R261). -/
def linSlotRun (ch : Nat) (e : List Byte) (s : State) : State := match byteAt e 2 with
  | 0 => linHead ch (byteAt e 3 % 64) s.time.loc false true s
  | 1 => linHead ch (byteAt e 3 % 64) s.time.loc true true s
  | 2 => linHead ch 0x3C s.time.loc false true s
  | 3 => linHead ch 0x3D s.time.loc false true s
  | _ => linGoToSleep ch s

@[simp] theorem linCh_linSlotBegun (ch tb k : Nat) (c : LinCh) (s : State) :
    linCh ch (linSlotBegun ch tb k c s) = { c with started := true } := linCh_linSet_same ch _ (linSet ch _ s)

theorem linSlotBegun_regsKept (ch tb k : Nat) (c : LinCh) (s : State) :
    RegsKept [F.FLD_LINnn_STAT_TABLE.u ch, F.FLD_LINnn_STAT_SLOT.u ch] s (linSlotBegun ch tb k c s) :=
  ((RegsKept.of_regs rfl).trans (regsKept_wr _ _ (linSet ch _ (linSet ch _ s)))).trans (regsKept_wr _ _ _)

theorem rd_table_linSlotBegun (ch : Nat) {tb : Nat} (k : Nat) (c : LinCh) (s : State) (h : tb < 16) :
    rd (F.FLD_LINnn_STAT_TABLE.u ch) (linSlotBegun ch tb k c s) = tb :=
  (rd_wr_units _ _ _ _ (by decide)).trans (rd_wr_unit_of_lt ch _ h (by decide))

theorem rd_slot_linSlotBegun (ch tb : Nat) {k : Nat} (c : LinCh) (s : State) (h : k < 64) :
    rd (F.FLD_LINnn_STAT_SLOT.u ch) (linSlotBegun ch tb k c s) = k := rd_wr_unit_of_lt ch _ h (by decide)

theorem rd_frames_linSlotBegun (ch tb k : Nat) (c : LinCh) (s : State) :
    rd (F.FLD_LINnn_FRAMES_COUNT.u ch) (linSlotBegun ch tb k c s) = rd (F.FLD_LINnn_FRAMES_COUNT.u ch) s :=
  (rd_wr_units _ _ _ _ (by decide)).trans (rd_wr_units _ _ _ _ (by decide))

/-- The start of a slot without a released frame. -/
theorem execLinSlot_of_entry {ch : Fin 32} {tb k : Nat} {c : LinCh} {e : List Byte} {s : State}
    (hr : domRuns .fld s = true) (hm : linMode ch s = 1) (ha : rdB (F.FLD_LINnn_STAT_ASLEEP.u ch) s = false)
    (hq : (linCh ch s).quiet ≤ s.time.loc) (hl : linReleased ch s = none)
    (hn : linNext ch (linSet ch { linCh ch s with head := none, extraRun := false } s) = ((tb, k), c))
    (he : (linTable ch tb s)[k]? = some e) : execLinSlot ch s = .next (linSlotRun ch e (linSlotBegun ch tb k c s)) := by
  have runs : ¬ (linMode ch s ≠ 1 ∨ !domRuns .fld s ∨ rdB (F.FLD_LINnn_STAT_ASLEEP.u ch) s ∨
      s.time.loc < (linCh ch s).quiet) := by simp [hr, hm, ha, hq]
  have hl' : linReleased ch (linSet ch { linCh ch s with head := none, extraRun := false } s) = none := hl
  have he' : (linTable ch tb (linSlotBegun ch tb k c s))[k]? = some e := he
  simp only [linSlotBegun] at he'
  simp only [execLinSlot, if_neg runs, hl', hn, he', linSlotRun]
  rfl

theorem execScheduleSwitch_of_commander {ch : Fin 32} (tb : Fin 16) {s : State} (hr : domRuns .fld s = true)
    (hm : linMode ch s = 1) :
    execScheduleSwitch ch tb s = .next (linSet ch { linCh ch s with next := some tb.val } s) := by
  simp [execScheduleSwitch, when, hr, hm]

/-- A responder is awake and has heard a header. -/
def linHeard (ch : Nat) (s : State) : State :=
  wrB (F.FLD_LINnn_STAT_ASLEEP.u ch) false (linSet ch { linCh ch s with head := none } s)

@[simp] theorem linCh_linHeard (ch : Nat) (s : State) : linCh ch (linHeard ch s) = { linCh ch s with head := none } :=
  linCh_linSet_same ch _ s

theorem execLinHeader_of_responder {ch : Fin 32} (h : LinHdr) {s : State} (hr : domRuns .fld s = true)
    (hm : linMode ch s = 2) :
    execLinHeader ch h s = .next (linHead ch h.id (s.time.loc - h.ago) false false (linHeard ch s)) := by
  simp [execLinHeader, when, hr, hm, linHeard]

/-! ### The response slot (R262, R263) -/

/-- The response slot of a header ends. -/
def linEnded (ch : Nat) (s : State) : State := linSet ch { linCh ch s with head := none } s

@[simp] theorem linCh_linEnded (ch : Nat) (s : State) : linCh ch (linEnded ch s) = { linCh ch s with head := none } :=
  linCh_linSet_same ch _ s

/-- What the outcome r of the response slot of header h does. -/
def linAnswered (ch : Nat) (h : LinHead) (r : LinResp) (s : State) : State :=
  if h.own then when (r == .framing) (inc (F.FLD_LINnn_ERR_FRAMING.u ch)) s
  else match r with
    | .data b => linReceive ch h.id h.at_ b s
    | .checksum => inc (F.FLD_LINnn_ERR_CHECKSUM.u ch) s
    | .framing => inc (F.FLD_LINnn_ERR_FRAMING.u ch) s
    | .none => inc (F.FLD_LINnn_ERR_NORESP.u ch) s
    | .collision =>
      if h.et then
        let e := ((linTable ch (rd (F.FLD_LINnn_STAT_TABLE.u ch) s) s)[rd (F.FLD_LINnn_STAT_SLOT.u ch) s]?).getD []
        linSet ch { linCh ch s with coll := some (byteAt e 6) } (inc (F.FLD_LINnn_ERR_COLLISION.u ch) s)
      else inc (F.FLD_LINnn_ERR_FRAMING.u ch) s

section
variable {ch : Fin 32} {x : LinHead} {s : State} (hr : domRuns .fld s = true) (hx : (linCh ch s).head = some x)
include hr hx

theorem execLinResponse_of_head {r : LinResp} (hw : (Instr.linResponse ch r).wf = true) :
    execLinResponse ch r s = .next (linAnswered ch x r (linEnded ch s)) := by
  have hr' : domRuns .fld (linSet ch { linCh ch s with head := none } s) = true := hr
  refine (if_pos hw).trans (congrArg _ ?_)
  simp only [hx, hr', Bool.not_true, Bool.false_eq_true, if_false]
  rfl

theorem execLinResponse_of_framing :
    execLinResponse ch .framing s = .next (inc (F.FLD_LINnn_ERR_FRAMING.u ch) (linEnded ch s)) := by
  rw [execLinResponse_of_head hr hx rfl]
  cases ho : x.own <;> simp [linAnswered, ho, when]

variable (ho : x.own = false)
include ho

theorem execLinResponse_of_data {b : List Byte} (h0 : 0 < b.length) (h8 : b.length ≤ 8) :
    execLinResponse ch (.data b) s = .next (linReceive ch x.id x.at_ b (linEnded ch s)) := by
  rw [execLinResponse_of_head hr hx (by show (decide (0 < b.length) && decide (b.length ≤ 8)) = true; simp [h0, h8])]
  simp [linAnswered, ho]

theorem execLinResponse_of_checksum :
    execLinResponse ch .checksum s = .next (inc (F.FLD_LINnn_ERR_CHECKSUM.u ch) (linEnded ch s)) := by
  rw [execLinResponse_of_head hr hx rfl]
  simp [linAnswered, ho]

theorem execLinResponse_of_none :
    execLinResponse ch .none s = .next (inc (F.FLD_LINnn_ERR_NORESP.u ch) (linEnded ch s)) := by
  rw [execLinResponse_of_head hr hx rfl]
  simp [linAnswered, ho]

/-- A collision in an event-triggered slot names the collision resolution table of the slot's entry (R262). -/
theorem execLinResponse_of_collision {e : List Byte} (het : x.et = true)
    (he : (linTable ch (rd (F.FLD_LINnn_STAT_TABLE.u ch) s) s)[rd (F.FLD_LINnn_STAT_SLOT.u ch) s]? = some e) :
    execLinResponse ch .collision s = .next (linSet ch { linCh ch s with head := none, coll := some (byteAt e 6) }
      (inc (F.FLD_LINnn_ERR_COLLISION.u ch) (linEnded ch s))) := by
  have he' : (linTable ch (rd (F.FLD_LINnn_STAT_TABLE.u ch) (linEnded ch s)) (linEnded ch s))[rd
    (F.FLD_LINnn_STAT_SLOT.u ch) (linEnded ch s)]? = some e := he
  rw [execLinResponse_of_head hr hx rfl]
  simp [linAnswered, ho, het, he']

end

/-- A received response counts in the running babble window (R256). -/
def linCounted (ch : Nat) (s : State) : State := linSet ch { linCh ch s with win := (linCh ch s).win + 1 } s

theorem linCh_linCounted (ch : Nat) (s : State) :
    linCh ch (linCounted ch s) = { linCh ch s with win := (linCh ch s).win + 1 } := linCh_linSet_same ch _ s

/-- A response without error on an open channel that does not put it to sleep joins the FIFO and is counted. -/
theorem linReceive_of_room {ch id t : Nat} {d : List Byte} {s : State} (hid : id ≠ 0x3C)
    (hc : rdB (F.FLD_LINnn_STAT_CONTAINED.u ch) s = false)
    (hroom : ((rxFifo (96 + ch) s).map fun y => y.data.length).sum + (linBytes id d).length ≤ 8192) :
    linReceive ch id t d s =
      incWrap (F.FLD_LINnn_FRAMES_COUNT.u ch) (fifoJoined (96 + ch) (linBytes id d) t (linCounted ch s)) := by
  have hc' : rdB (F.FLD_LINnn_STAT_CONTAINED.u ch) (linCounted ch s) = false := hc
  have put := fifoPut_of_room (b := linBytes id d) t (s := linCounted ch s) hroom
  simp only [linCounted] at hc' put ⊢
  simp [linReceive, when, hid, hc', put]

end Sys2Proof.Machine

namespace Sys2Proof.Machine

theorem linCh_emit (ch : Nat) (o : Out) (s : State) : linCh ch (emit o s) = linCh ch s := rfl

theorem linCh_incWrap (ch : Nat) (f : Field) (s : State) : linCh ch (incWrap f s) = linCh ch s := rfl

@[simp] theorem linCh_linWaits (ch id t : Nat) (et own : Bool) (s : State) :
    linCh ch (linWaits ch id t et own s) = { linCh ch s with head := some ⟨id, et, t, own⟩ } :=
  linCh_linSet_same ch _ s

section
variable {ch : Nat} {e : List Byte} {s : State} (hs : silent .fld s = false)
include hs

/-- An unconditional or event-triggered slot of a subscribed ID: its header goes out, and its response is awaited. -/
theorem linSlotRun_of_subscribed {et : Bool} (hk : byteAt e 2 = b2n et) (hid : linId ch (byteAt e 3 % 64) s = 2) :
    linSlotRun ch e s = linWaits ch (byteAt e 3 % 64) s.time.loc et false (emit (.lin ch (byteAt e 3 % 64) []) s) := by
  have run : linSlotRun ch e s = linHead ch (byteAt e 3 % 64) s.time.loc et true s := by
    cases et <;> simp only [linSlotRun, hk] <;> rfl
  rw [run, linHead_of_subscribed _ _ _ hid, when, if_pos rfl, transmit_of_sounding _ hs]

/-- An unconditional slot of a published ID whose response is buffered. -/
theorem linSlotRun_of_published {d : List Byte} (hk : byteAt e 2 = 0) (hid : linId ch (byteAt e 3 % 64) s = 1)
    (hne : byteAt e 3 % 64 ≠ 0x3C) (hq : (qu (640 + ch) s).ents = [])
    (hd : tfind (linCh ch s).buf (byteAt e 3 % 64) = some d) :
    linSlotRun ch e s = linWaits ch (byteAt e 3 % 64) s.time.loc false true
      (incWrap (F.FLD_LINnn_FRAMES_COUNT.u ch) (emit (.lin ch (byteAt e 3 % 64) d) s)) := by
  have run : linSlotRun ch e s = linHead ch (byteAt e 3 % 64) s.time.loc false true s := by
    simp only [linSlotRun, hk]
  rw [run, linHead_of_published _ _ _ hid hne hq hd hs]

theorem linSlotRun_of_goToSleep (hk : byteAt e 2 = 4) :
    linSlotRun ch e s = incWrap (F.FLD_LINnn_FRAMES_COUNT.u ch) (wrB (F.FLD_LINnn_STAT_ASLEEP.u ch) true
      (emit (.lin ch 0x3C (ofNats [0, 255, 255, 255, 255, 255, 255, 255])) s)) := by
  simp only [linSlotRun, hk, linGoToSleep, transmit_of_sounding _ hs]

end

section
variable {ch : Fin 32} {tb k : Nat} {c : LinCh} {e : List Byte} {s : State} (hr : domRuns .fld s = true)
  (hm : linMode ch s = 1) (ha : rdB (F.FLD_LINnn_STAT_ASLEEP.u ch) s = false) (hq : (linCh ch s).quiet ≤ s.time.loc)
  (hl : linReleased ch s = none)
  (hn : linNext ch (linSet ch { linCh ch s with head := none, extraRun := false } s) = ((tb, k), c))
  (he : (linTable ch tb s)[k]? = some e) (hs : silent .fld s = false)
include hr hm ha hq hl hn he hs

/-- The slot of a subscribed ID, event-triggered or not, leaves the channel awaiting the response. -/
theorem execLinSlot_of_subscribed {et : Bool} (hk : byteAt e 2 = b2n et) (hid : linId ch (byteAt e 3 % 64) s = 2) :
    ∃ t, execLinSlot ch s = .next t ∧ t.out = .lin ch (byteAt e 3 % 64) [] :: s.out ∧
      linCh ch t = { c with started := true, head := some ⟨byteAt e 3 % 64, et, s.time.loc, false⟩ } ∧
      t = { linSlotBegun ch tb k c s with out := t.out, lin := t.lin } := by
  have slot := execLinSlot_of_entry hr hm ha hq hl hn he
  rw [linSlotRun_of_subscribed (s := linSlotBegun ch tb k c s) hs hk hid] at slot
  refine ⟨_, slot, rfl, ?_, rfl⟩
  rw [linCh_linWaits, linCh_emit, linCh_linSlotBegun]; rfl

end

/-! ### A LIN wake-up signal in STANDBY (R271, R431) -/

theorem wakeBit_frame (r : Nat) (s : State) : wakeBit r s = { s with regs := (wakeBit r s).regs } := by
  unfold wakeBit
  split
  · rfl
  · split
    · rfl
    · split <;> rfl

theorem wakeLatch_frame (r m : Nat) (s : State) : wakeLatch r m s = { s with regs := (wakeLatch r m s).regs } := by
  rw [wakeLatch, wakeBit_frame]; rfl

theorem lateWake_of_standby {s : State} (r m : Nat) (h : s.pwr.mode = 2) :
    lateWake r m s = record 0x0900 r m (inc F.SLP_WAKE_CNT_LATE (wrB F.SLP_WAKE_LATCH_LATE true s)) := by
  have awake : (inc F.SLP_WAKE_CNT_LATE (wrB F.SLP_WAKE_LATCH_LATE true s)).pwr.mode ≠ 3 := by
    show s.pwr.mode ≠ 3
    omega
  simp only [lateWake, if_neg awake]

/-- A wake reason latched in STANDBY, with its mark and record where it is late (R433). -/
def standbyLatched (r m : Nat) (late : Bool) (s : State) : State := when late (lateWake r m) (wakeLatch r m s)

theorem standbyLatched_frame {s : State} (r m : Nat) (late : Bool) (h : s.pwr.mode = 2) : standbyLatched r m late s =
    { s with regs := (standbyLatched r m late s).regs, rcd := (standbyLatched r m late s).rcd } := by
  have latched : (wakeLatch r m s).pwr.mode = 2 := by simp [h]
  cases late with
  | false => rw [standbyLatched, when, if_neg (by decide), wakeLatch_frame]
  | true =>
    rw [standbyLatched, when, if_pos rfl, lateWake_of_standby r m latched, record_frame, wakeLatch_frame]; rfl

theorem rd_lin_standbyLatched {s : State} (m : Nat) (late : Bool) (h : s.pwr.mode = 2) :
    rd F.SLP_WAKE_LATCH_LIN (standbyLatched 26 m late s) = 1 := by
  have latched : (wakeLatch 26 m s).pwr.mode = 2 := by simp [h]
  have lin : rd F.SLP_WAKE_LATCH_LIN (wakeLatch 26 m s) = 1 := by
    rw [wakeLatch, rd_inc_ne _ _ _ (by decide), rd_wr_ne _ _ _ _ (by decide)]
    exact rd_wrB_same F.SLP_WAKE_LATCH_LIN true s (by decide)
  cases late with
  | false => exact lin
  | true =>
    rw [standbyLatched, when, if_pos rfl, lateWake_of_standby 26 m latched, rd_record, rd_inc_ne _ _ _ (by decide),
      rd_wrB_ne _ _ _ _ (by decide), lin]

theorem wakeAct_wakeLatch_of_standby {s : State} (r m : Nat) (late : Bool) (h : s.pwr.mode = 2) :
    wakeAct r m late (wakeLatch r m s) = { standbyLatched r m late s with
      slp := { s.slp with toWake := s.slp.toWake ||| m, lastWhy := r, late := s.slp.late || late } } := by
  have slp := congrArg (·.slp) (standbyLatched_frame r m late h)
  simp only [standbyLatched] at slp ⊢
  simp [wakeAct, slp, h]

/-- In STANDBY a wake reason is latched, and its groups wait for the resume. -/
theorem wakeReason_of_standby_eq {s : State} (r m : Nat) (h : s.pwr.mode = 2) :
    ∃ late, wakeReason r m false s = { standbyLatched r m late s with
      slp := { s.slp with toWake := s.slp.toWake ||| m, lastWhy := r, late := s.slp.late || late } } := by
  have uncommitted : commitDue (wakeLatch r m s) = false := by simp [commitDue, h]
  simp only [wakeReason, h, uncommitted]
  exact ⟨_, wakeAct_wakeLatch_of_standby r m _ h⟩

theorem execLinWake_of_standby {ch : Fin 32} {us : Nat} {s : State} (h2 : s.pwr.mode = 2) (hr : domRuns .fld s = true)
    (hm : linMode ch s ≠ 0) (hw : bit (linN ch 1 1 s) 0 = true) (hlo : 150 ≤ us) (hhi : us ≤ 5000) :
    execLinWake ch us s = .next (wakeReason 26 (linN ch 0x10 4 s) false s) :=
  congrArg _ (if_pos ⟨h2, hr, hm, hw, hlo, hhi⟩)

theorem execBabbleRelease_of_lin {ch : Fin 32} {s : State} (hr : domRuns .fld s = true)
    (hc : rdB (F.FLD_LINnn_STAT_CONTAINED.u ch) s = true) (hb : (linCh ch s).babbleEnd ≤ s.time.loc) :
    execBabbleRelease (.lin ch) s =
      .next (record 0x0504 (0x100 + ch) 0 (wrB (F.FLD_LINnn_STAT_CONTAINED.u ch) false s)) := by
  simp [execBabbleRelease, when, hr, hc, hb]

/-! ### The state after a scan (R265, R266) -/

theorem scanList_scanBegun (raw : Nat) (s : State) : scanList raw (scanBegun s) = scanList raw s := by
  simp only [scanList, sbsMap, cfgRec, scanBegun_cfg, scanBegun_scans]

theorem scanIns_scanBegun (raw : Nat) (s : State) : scanIns raw (scanBegun s) = scanIns raw s := by
  simp only [scanIns, cfgN, cfgRec, scanBegun_cfg, scanList_scanBegun, scanBegun_ins]

theorem goodScan_sbs (raw : Nat) (s : State) : (goodScan raw s).sbs = { (scanBegun s).sbs with
    scans := scanList raw s, ins := scanIns raw s, bad := 0, good := min (s.sbs.good + 1) 3 } := by
  rw [goodScan, scanPassed_sbs, scanTaken, scanList_scanBegun, scanIns_scanBegun, scanBegun_good]

theorem rd_scans_goodScan (raw : Nat) (s : State) :
    rd F.FLD_SBS_STAT_SCANS (goodScan raw s) = (rd F.FLD_SBS_STAT_SCANS s + 1) % 2 ^ F.FLD_SBS_STAT_SCANS.w := by
  rw [goodScan, rd_scanPassed _ _ (by decide), ← rd_scans_scanBegun, when]
  split
  · exact rd_wrB_ne _ _ _ _ (by decide)
  · rfl

/-- Settles O15: each LIN event is its operation on the channel that meets its conditions, a scan is a good or a bad
one, and an output that changes starts an update. -/
theorem linAndSideBandEventsComplete : Obligations.LinAndSideBandEventsComplete := by
  unfold Obligations.LinAndSideBandEventsComplete
  refine ⟨fun ch tb k c e s hr hm ha hq hl hn htb hk he ht hid hs => ?slot, fun ch tb s hr hm => ?switch,
    fun ch id ago s hr hm hid => ?header, fun ch b x s hr h0 h8 hx ho hne hc hroom => ?data,
    fun ch x s hr hx ho => ?checksum, fun ch s hr hc hb => ?release, fun ch us s h2 hr hm hw hlo hhi => ?wake,
    fun v s hr h4 h5 => ?good, fun v s hr hv => ?bad, fun w o v s hr hv hm => ?output, fun s hr hb => ?strobe,
    fun s hr => ?refresh⟩
  case slot =>
    obtain ⟨t, ht, hout, hch, hframe⟩ := execLinSlot_of_subscribed hr hm ha hq hl hn he hs (et := false) ht hid
    refine ⟨t, ht, hout, hch, ?_⟩
    rw [hframe]
    exact ⟨rd_table_linSlotBegun ch k c s htb, rd_slot_linSlotBegun ch tb c s hk,
      (linSlotBegun_regsKept ch tb k c s).to_regs rfl, rfl⟩
  case switch => exact execScheduleSwitch_of_commander tb hr hm
  case header =>
    have header := execLinHeader_of_responder ⟨id, ago⟩ hr hm
    rw [linHead_of_subscribed _ _ _ (s := linHeard ch s) hid] at header
    refine ⟨_, header, ?_, rd_wrB_unit _ _ _ (by decide), (RegsKept.of_regs rfl).trans (regsKept_wrB _ _ _), rfl⟩
    rw [linCh_linWaits, when, if_neg (by decide), linCh_linHeard]
  case data =>
    have received := linReceive_of_room (t := x.at_) (s := linEnded ch s) hne hc hroom
    refine ⟨_, (execLinResponse_of_data hr hx ho h0 h8).trans (congrArg _ received), ?_, ?_, ?_, ?_⟩
    · rw [rxFifo_incWrap, rxFifo_fifoJoined]; rfl
    · rw [linCh_incWrap, fifoJoined_frame]
      show (linCh ch (linCounted ch (linEnded ch s))).head = none
      rw [linCh_linCounted, linCh_linEnded]
    · have below : (F.FLD_LINnn_FRAMES_COUNT.u ch).key < F.GRV_GVn_PEND_HIGH.key :=
        key_u_lt_of_le (Nat.le_of_lt ch.isLt) (by decide)
      rw [rd_incWrap_unit _ _ (by decide), rd_fifoJoined _ _ _ _ below]; rfl
    · rw [fifoJoined_frame]; rfl
  case checksum =>
    refine ⟨_, execLinResponse_of_checksum hr hx ho, ?_, rd_inc_unit _ _ (by decide),
      (RegsKept.of_regs rfl).trans (regsKept_inc _ _), rfl⟩
    exact congrArg LinCh.head (linCh_linEnded ch s)
  case release =>
    refine ⟨_, execBabbleRelease_of_lin hr hc hb, ?_, ?_⟩
    · rw [rd_record, rd_wrB_unit _ _ _ (by decide)]; rfl
    · rw [record_frame]; rfl
  case wake =>
    obtain ⟨late, woken⟩ := wakeReason_of_standby_eq 26 (linN ch 0x10 4 s) h2
    refine ⟨_, (execLinWake_of_standby h2 hr hm hw hlo hhi).trans (congrArg _ woken), rfl, rfl,
      rd_lin_standbyLatched (linN ch 0x10 4 s) late h2, ?_⟩
    rw [standbyLatched_frame _ _ _ h2]; exact h2
  case good =>
    have good := (scanGood_eq_true_iff _).mpr ⟨h4, h5⟩
    refine ⟨_, execSbsInputScan_of_good hr good, ?_, ?_, ?_, rd_scans_goodScan _ s⟩
    · rw [goodScan_sbs]; rfl
    · simp only [goodScan_sbs, scanIns, scanList]
    · rw [goodScan_sbs]
  case bad =>
    exact ⟨_, execSbsInputScan_of_bad hr ((scanGood_eq_false_iff _).mpr hv), badScan_sbs_ins s, badScan_sbs_bad s,
      badScan_sbs_good s, rd_bad_badScan s, rd_fault_badScan_of_eq⟩
  case output =>
    have changed := sbsWrite_of_change hr o.isLt hm hv
    rw [sbsStart_sbsShow_frame] at changed
    exact ⟨_, congrArg Host.Outcome.next changed, rfl, rfl⟩
  case strobe => exact execSbsUpdateEnd_of_busy hr hb
  case refresh => exact execSbsRefresh_of_runs hr

end Sys2Proof.Machine

namespace Sys2Proof.Machine

/-! ### Scans with no PHY reset to release (R234) -/

theorem goodScan_of_unchanged {raw : Nat} {s : State} (hv : scanIns raw s = s.sbs.ins)
    (hp : ∀ x ∈ s.eth.ports, x.2.step ≠ 1) : goodScan raw s = { s with
      regs := (goodScan raw s).regs,
      sbs := { s.sbs with scans := scanList raw s, bad := 0, good := min (s.sbs.good + 1) 3 } } := by
  have begun := scanBegun_of_no_step hp
  have unchanged : scanIns raw (incWrap F.FLD_SBS_STAT_SCANS s) = (incWrap F.FLD_SBS_STAT_SCANS s).sbs.ins := hv
  rw [goodScan, begun, scanPassed_of_unchanged unchanged, scanShown_frame, scanTaken, unchanged]
  rfl

theorem badScan_of_no_step {s : State} (hp : ∀ x ∈ s.eth.ports, x.2.step ≠ 1) : badScan s = { s with
    regs := (badScan s).regs, rcd := (badScan s).rcd,
    sbs := { s.sbs with good := 0, bad := min (s.sbs.bad + 1) 3 } } := by
  rw [badScan, scanFailed_frame, scanBegun_of_no_step hp]
  rfl

/-- Settles O16: each further form of a LIN or side-band command is its operation, whose frame is what it leaves
alone. -/
theorem linAndSideBandCommandsRun : Obligations.LinAndSideBandCommandsRun := by
  unfold Obligations.LinAndSideBandCommandsRun
  refine ⟨fun ch tb k c e s hr hm ha hq hl hn _ _ he ht hid hs => ?event,
    fun ch tb k c e s hr hm ha hq hl hn he ht hs => ?sleep,
    fun ch tb k c e d s hr hm ha hq hl hn he ht hid hents hd hbuf hne hs => ?slot, fun ch tb s hr hm => ?switch,
    fun ch id ago s hr hm h1 h2 => ?ignored, fun ch id ago d s hr hm hid hne hents hd hs => ?published,
    fun ch x s hr hx ho => ?none, fun ch x s hr hx => ?framing, fun ch x e s hr hx ho het he => ?collision,
    fun ch us s h2 hr hm hw hlo hhi => ?wake, fun v s hr hv hins hp => ?good, fun v s hr hv hb hp => ?bad,
    fun w o s hr => ?same, fun w o v s hr hb hv hm => ?waits, fun s hr hb hc => ?strobe, fun s hr hb => ?refresh,
    fun s hr hb => ?refreshWaits⟩
  case event =>
    obtain ⟨t, ht, hout, hch, hframe⟩ := execLinSlot_of_subscribed hr hm ha hq hl hn he hs (et := true) ht hid
    refine ⟨t, ht, hout, hch, ?_⟩
    rw [hframe]
    exact ⟨(linSlotBegun_regsKept ch tb k c s).to_regs rfl, rfl⟩
  case sleep =>
    have slot := execLinSlot_of_entry hr hm ha hq hl hn he
    rw [linSlotRun_of_goToSleep (s := linSlotBegun ch tb k c s) hs ht] at slot
    refine ⟨_, slot, rfl, ?_, linCh_linSlotBegun ch tb k c s, rfl⟩
    rw [rd_incWrap_units _ _ _ (by decide), rd_wrB_unit _ _ _ (by decide)]; rfl
  case slot =>
    have slot := execLinSlot_of_entry hr hm ha hq hl hn he
    have hd' : tfind (linCh ch (linSlotBegun ch tb k c s)).buf (byteAt e 3 % 64) = some d := by
      rw [linCh_linSlotBegun, hbuf]; exact hd
    rw [linSlotRun_of_published (s := linSlotBegun ch tb k c s) hs ht hid hne hents hd'] at slot
    refine ⟨_, slot, rfl, ?_, ?_, rfl⟩
    · rw [linCh_linWaits, linCh_incWrap, linCh_emit, linCh_linSlotBegun]; rfl
    · exact (rd_incWrap_unit ch (emit _ _) (by decide)).trans (by rw [rd_emit, rd_frames_linSlotBegun])
  case switch =>
    refine ⟨_, execScheduleSwitch_of_commander tb hr hm, ?_, ?_, rfl⟩
    all_goals rw [linCh_linSet_same]
  case ignored =>
    have header := execLinHeader_of_responder ⟨id, ago⟩ hr hm
    rw [linHead_of_ignored _ _ (s := linHeard ch s) h1 h2] at header
    exact ⟨_, header, linCh_linHeard ch s, rd_wrB_unit _ _ _ (by decide),
      (RegsKept.of_regs rfl).trans (regsKept_wrB _ _ _), rfl⟩
  case published =>
    have header := execLinHeader_of_responder ⟨id, ago⟩ hr hm
    have hd' : tfind (linCh ch (linHeard ch s)).buf id = some d := by rw [linCh_linHeard]; exact hd
    rw [linHead_of_published _ _ _ (s := linHeard ch s) hid hne hents hd' hs] at header
    refine ⟨_, header, rfl, ?_, rfl⟩
    rw [linCh_linWaits, linCh_incWrap, linCh_emit, linCh_linHeard]
  case none =>
    exact ⟨_, execLinResponse_of_none hr hx ho, linCh_linEnded ch s, rd_inc_unit _ _ (by decide),
      (RegsKept.of_regs rfl).trans (regsKept_inc _ _), rfl⟩
  case framing =>
    exact ⟨_, execLinResponse_of_framing hr hx, linCh_linEnded ch s, rd_inc_unit _ _ (by decide),
      (RegsKept.of_regs rfl).trans (regsKept_inc _ _), rfl⟩
  case collision =>
    refine ⟨_, execLinResponse_of_collision hr hx ho het he, linCh_linSet_same ch _ _, ?_, ?_, rfl⟩
    · exact rd_inc_unit ch (linEnded ch s) (by decide)
    · exact ((RegsKept.of_regs rfl).trans (regsKept_inc _ (linEnded ch s))).to_regs rfl
  case wake =>
    obtain ⟨late, woken⟩ := wakeReason_of_standby_eq 26 (linN ch 0x10 4 s) h2
    refine ⟨_, (execLinWake_of_standby h2 hr hm hw hlo hhi).trans (congrArg _ woken),
      rd_lin_standbyLatched (linN ch 0x10 4 s) late h2, rfl, rfl, ?_⟩
    rw [standbyLatched_frame _ _ _ h2]
    exact ⟨rfl, rfl, rfl⟩
  case good =>
    have frame := goodScan_of_unchanged hins hp
    refine ⟨_, execSbsInputScan_of_good hr hv, congrArg State.sbs frame, rd_scans_goodScan _ s, ?_⟩
    rw [frame]
  case bad =>
    have frame := badScan_of_no_step hp
    refine ⟨_, execSbsInputScan_of_bad hr hv, ?_, rd_fault_badScan_of_eq hb, ?_⟩
    · rw [frame, hb]; rfl
    · rw [frame]
  case same =>
    obtain ⟨x, same⟩ := sbsWrite_of_same (w := w) hr o.isLt
    exact ⟨_, congrArg Host.Outcome.next same, rfl⟩
  case waits =>
    have changed := sbsWrite_of_change hr o.isLt hm hv
    rw [sbsStart_sbsShow_frame] at changed
    refine ⟨_, congrArg Host.Outcome.next changed, rfl, ?_, rfl⟩
    simp [sbsTaken, hb]
  case strobe =>
    have strobed := execSbsUpdateEnd_of_busy hr hb
    rw [if_pos hc] at strobed
    exact ⟨_, strobed, rfl, rfl, rfl, rfl⟩
  case refresh =>
    have refreshed := execSbsRefresh_of_runs hr
    rw [hb, Bool.or_false] at refreshed
    exact refreshed
  case refreshWaits =>
    have refreshed := execSbsRefresh_of_runs hr
    rw [hb, Bool.or_true] at refreshed
    rw [exec_sbsRefresh, refreshed, ← hb]

end Sys2Proof.Machine

namespace Sys2Proof.Machine

/-! ### Releasing a frame (R137, R153) -/

theorem each_qm_frame {α : Type} (l : List α) (f : α → State → State)
    (h : ∀ a s, f a s = { s with qm := (f a s).qm }) (s : State) : each l f s = { s with qm := (each l f s).qm } := by
  induction l generalizing s with
  | nil => rfl
  | cons a l ih =>
    have rest := ih (f a s)
    have first := h a s
    show each l f (f a s) = { s with qm := (each l f (f a s)).qm }
    generalize each l f (f a s) = u at rest ⊢
    rw [rest, first]

theorem dropFrame_frame (f : Nat) (s : State) : dropFrame f s = { s with qm := (dropFrame f s).qm } := by
  simp only [dropFrame, unhold]
  rw [each_qm_frame _ _ (fun _ _ => rfl), each_qm_frame _ _ (fun _ _ => rfl)]

theorem releaseFrame_frame (f : Nat) (s : State) : releaseFrame f s = { s with qm := (releaseFrame f s).qm } := by
  simp only [releaseFrame, unref]
  split
  · rw [dropFrame_frame]; rfl
  · rfl

theorem dropFrame_ents (q f : Nat) (s : State) : EntsKept q s (dropFrame f s) := by
  have freed (l : List Nat) (u : State) : EntsKept q u (each l freeCell u) := each_ents q l _ u fun _ _ => rfl
  exact (unhold_ents q _ _ s).trans (freed _ _)

theorem releaseFrame_ents (q f : Nat) (s : State) : EntsKept q s (releaseFrame f s) := by
  simp only [releaseFrame, unref]
  split
  · exact dropFrame_ents q f (frSet f _ s)
  · rfl

/-! ### The run state of a CAN channel -/

theorem tput_tput_same {α : Type} (t : Tbl α) (k : Nat) (v w : α) : tput (tput t k v) k w = tput t k w := by
  induction t with
  | nil => simp [tput]
  | cons e r ih =>
    obtain ⟨j, u⟩ := e
    rcases Nat.lt_trichotomy k j with h | rfl | h
    · simp [tput, h]
    · simp [tput]
    · simp [tput, show ¬ k < j by omega, show j ≠ k by omega, ih]

theorem canCh_canSet_same (ch : Nat) (x : CanCh) (s : State) : canCh ch (canSet ch x s) = x := tget_tput_same _ _ _ _

theorem canSet_canSet_same (ch : Nat) (x y : CanCh) (s : State) : canSet ch y (canSet ch x s) = canSet ch y s := by
  simp only [canSet, tput_tput_same]

/-! ### The error counters (R242) -/

/-- The fields that show a channel's counters and its state. -/
def canStatRegs (ch : Nat) : List Field :=
  [F.FLD_CANnn_STAT_TEC.u ch, F.FLD_CANnn_STAT_REC.u ch, F.FLD_CANnn_STAT_STATE.u ch]

theorem canShow_regsKept (ch : Nat) (s : State) :
    RegsKept [F.FLD_CANnn_STAT_TEC.u ch, F.FLD_CANnn_STAT_REC.u ch] s (canShow ch s) :=
  (regsKept_wr _ _ s).trans (regsKept_wr _ _ _)

theorem canState_canShow (ch : Nat) (s : State) : canState ch (canShow ch s) = canState ch s :=
  (rd_wr_units _ _ _ _ (by decide)).trans (rd_wr_units _ _ _ _ (by decide))

theorem canLive_canShow (ch : Nat) (s : State) : canLive ch (canShow ch s) = canLive ch s := by
  rw [canLive, canState_canShow]; rfl

theorem rd_tec_canShow (ch : Nat) (s : State) :
    rd (F.FLD_CANnn_STAT_TEC.u ch) (canShow ch s) = min (canCh ch s).tec 511 :=
  (rd_wr_units _ _ _ _ (by decide)).trans (rd_wr_unit_of_lt ch s (by show _ < 512; omega) (by decide))

theorem rd_rec_canShow (ch : Nat) (s : State) :
    rd (F.FLD_CANnn_STAT_REC.u ch) (canShow ch s) = min (canCh ch s).rec_ 255 :=
  rd_wr_unit_of_lt ch _ (by show min (canCh ch s).rec_ 255 < 256; omega) (by decide)

/-- Below bus-off a live channel is error passive with a counter above 127, and error active without. -/
theorem canEval_of_live {ch : Nat} {s : State} (hl : canLive ch s = true) (ht : (canCh ch s).tec < 256) :
    canEval ch s = wr (F.FLD_CANnn_STAT_STATE.u ch)
      (if 127 < (canCh ch s).tec || 127 < (canCh ch s).rec_ then 3 else 2) (canShow ch s) := by
  simp only [canEval, canLive_canShow, hl, if_true, if_neg (show ¬ 255 < (canCh ch s).tec by omega)]

theorem canEval_of_not_live {ch : Nat} {s : State} (hl : canLive ch s = false) : canEval ch s = canShow ch s := by
  simp only [canEval, canLive_canShow, hl, Bool.false_eq_true, if_false]

theorem canEval_frame {ch : Nat} {s : State} (ht : (canCh ch s).tec < 256) :
    canEval ch s = { s with regs := (canEval ch s).regs } := by
  cases hl : canLive ch s with
  | false => rw [canEval_of_not_live hl]; rfl
  | true => rw [canEval_of_live hl ht]; rfl

theorem canEval_regsKept {ch : Nat} {s : State} (ht : (canCh ch s).tec < 256) :
    RegsKept (canStatRegs ch) s (canEval ch s) := by
  cases hl : canLive ch s with
  | false => rw [canEval_of_not_live hl]; exact (canShow_regsKept ch s).mono (by simp [canStatRegs])
  | true => rw [canEval_of_live hl ht]; exact (canShow_regsKept ch s).trans (regsKept_wr _ _ _)

theorem rd_state_canEval {ch : Nat} {s : State} (hl : canLive ch s = true) (ht : (canCh ch s).tec < 256) :
    rd (F.FLD_CANnn_STAT_STATE.u ch) (canEval ch s) =
      if 127 < (canCh ch s).tec ∨ 127 < (canCh ch s).rec_ then 3 else 2 := by
  rw [canEval_of_live hl ht, rd_wr_unit _ _ _ (by decide)]
  simp only [Bool.or_eq_true, decide_eq_true_eq]
  split <;> rfl

theorem rd_tec_canEval {ch : Nat} {s : State} (ht : (canCh ch s).tec < 256) :
    rd (F.FLD_CANnn_STAT_TEC.u ch) (canEval ch s) = (canCh ch s).tec := by
  have shown : rd (F.FLD_CANnn_STAT_TEC.u ch) (canShow ch s) = (canCh ch s).tec := by rw [rd_tec_canShow]; omega
  cases hl : canLive ch s with
  | false => rw [canEval_of_not_live hl, shown]
  | true => rw [canEval_of_live hl ht, rd_wr_units _ _ _ _ (by decide), shown]

/-- A CAN field that does not show the counters or the state. -/
abbrev NotCanStat (g : Field) : Prop := ∀ f ∈ [F.FLD_CANnn_STAT_TEC, F.FLD_CANnn_STAT_REC, F.FLD_CANnn_STAT_STATE],
  g.step = f.step ∧ g.key % (32 * f.step) ≠ f.key % (32 * f.step)

theorem rd_canEval {g : Field} {ch : Nat} {s : State} (h : NotCanStat g) (ht : (canCh ch s).tec < 256) :
    rd (g.u ch) (canEval ch s) = rd (g.u ch) s := by
  refine canEval_regsKept ht _ fun f hf => ?_
  simp only [canStatRegs, List.mem_cons, List.not_mem_nil, or_false] at hf
  rcases hf with rfl | rfl | rfl <;> exact key_u_ne_of_mod _ _ (h _ (by simp))

/-! ### The transmit slot (R243–R245) -/

/-- What a channel's run state looks like does not matter to its queues. -/
theorem canQueues_congr {ch : Nat} {s t : State} (h : t.cfg = s.cfg) : canQueues ch t = canQueues ch s := by
  simp only [canQueues, qEnabled, qFlags, qTarget, cfgN, cfgRec, h]

/-- With nothing waiting the slot is not filled. -/
theorem canFill_of_empty {ch : Nat} {s : State} (h : ∀ q ∈ canQueues ch s, (qu q s).ents = []) :
    canFill ch s = s := by
  have none_offers : canBest ch s = none :=
    List.find?_eq_none.mpr fun q hq => by simp [canOffers, h q hq]
  have fill (n : Nat) : canFillN ch n s = s := by
    cases n with
    | zero => rfl
    | succ n => simp only [canFillN, none_offers]
  rw [canFill, fill, ite_self]

theorem canStart_of_slot {ch : Nat} {x : Nat × Nat} {s : State} (hx : (canCh ch s).slot = some x)
    (hp : (fr x.2 s).pdu = none) : canStart ch s = canSet ch { canCh ch s with sof := true, trying := true } s := by
  simp [canStart, hx, hp, pduLeft, when]

/-- The slot's frame, which carries no PDU, leaves the slot. -/
theorem canEmpty_of_slot {ch : Nat} {x : Nat × Nat} {s : State} (hx : (canCh ch s).slot = some x)
    (hp : (fr x.2 s).pdu = none) : canEmpty ch s =
      releaseFrame x.2 (readStop (· == .can ch) (canSet ch (canCh ch s).noSlot s)) := by
  simp only [canEmpty, hx, hp, pduLeft]

end Sys2Proof.Machine

namespace Sys2Proof.Machine

/-! ### A frame received (R241, R242, R253) -/

/-- A received frame is counted in the receive error counter and in the babble window. -/
def canHeard (ch : Nat) (s : State) : State :=
  canSet ch { canCh ch (when (!canNosig ch s) (canRecOk ch) s) with
    win := (canCh ch (when (!canNosig ch s) (canRecOk ch) s)).win + 1 } (when (!canNosig ch s) (canRecOk ch) s)

/-- A frame without error changes the receive counter: to a lower value, or from above 127 to a free one. -/
theorem canRecOk_eq (ch : Nat) (s : State) :
    ∃ r k, canRecOk ch s = canEval ch (canSet ch { canCh ch s with rec_ := r } { s with free := k }) := by
  by_cases h : 127 < (canCh ch s).rec_
  · exact ⟨119 + Config.freeNat s.free % 9, s.free + 1, by simp only [canRecOk, if_pos h]; rfl⟩
  · exact ⟨(canCh ch s).rec_ - 1, s.free, by simp only [canRecOk, if_neg h]⟩

section
variable {ch : Nat} {s : State} (ht : (canCh ch s).tec < 256)
include ht

theorem canRecOk_frame : canRecOk ch s = { s with
    regs := (canRecOk ch s).regs, free := (canRecOk ch s).free,
    can := { s.can with chans := (canRecOk ch s).can.chans } } := by
  obtain ⟨r, k, h⟩ := canRecOk_eq ch s
  rw [h, canEval_frame (by rw [canCh_canSet_same]; exact ht)]
  rfl

theorem rd_canRecOk {g : Field} (h : NotCanStat g) : rd (g.u ch) (canRecOk ch s) = rd (g.u ch) s := by
  obtain ⟨r, k, hr⟩ := canRecOk_eq ch s
  rw [hr, rd_canEval h (by rw [canCh_canSet_same]; exact ht)]
  rfl

theorem canHeard_frame : canHeard ch s = { s with
    regs := (canHeard ch s).regs, free := (canHeard ch s).free,
    can := { s.can with chans := (canHeard ch s).can.chans } } := by
  cases hn : canNosig ch s with
  | true => simp only [canHeard, hn, when]; rfl
  | false =>
    simp only [canHeard, hn, when, Bool.not_false, if_true]
    rw [canRecOk_frame ht]
    rfl

theorem rd_canHeard {g : Field} (h : NotCanStat g) : rd (g.u ch) (canHeard ch s) = rd (g.u ch) s := by
  show rd (g.u ch) (when (!canNosig ch s) (canRecOk ch) s) = _
  unfold when
  split
  · exact rd_canRecOk ht h
  · rfl

end

theorem canEntries_congr {ch k : Nat} {s t : State} (h : t.cfg = s.cfg) : canEntries ch k t = canEntries ch k s := by
  simp only [canEntries, cfgIdx, cfgN, cfgRec, h]

theorem canGuarded_congr {ch : Nat} {f : CanFrame} {s t : State} (h : t.cfg = s.cfg) :
    canGuarded ch f t = canGuarded ch f s := by
  simp only [canGuarded, canFlag, canN, cfgN, cfgRec, canEntries_congr h, h]

section
variable {ch : Nat} {f : CanFrame} {s : State} (ago : Nat) (ht : (canCh ch s).tec < 256)
  (hg : canGuarded ch f s = false)
include ht hg

theorem canReceive_of_room (he : canEntries ch 0 s = []) (hc : rdB (F.FLD_CANnn_STAT_CONTAINED.u ch) s = false)
    (hroom : ((rxFifo ch s).map fun x => x.data.length).sum + (canBytes f).length ≤ 8192) :
    canReceive ch f ago s = incWrap (F.FLD_CANnn_RX_COUNT.u ch)
      (fifoJoined ch (canBytes f) (s.time.loc - ago) (canHeard ch s)) := by
  have frame := canHeard_frame ht
  have hg' : canGuarded ch f (canHeard ch s) = false := (canGuarded_congr (congrArg (·.cfg) frame)).trans hg
  have he' : canEntries ch 0 (canHeard ch s) = [] := (canEntries_congr (congrArg (·.cfg) frame)).trans he
  have hc' : rdB (F.FLD_CANnn_STAT_CONTAINED.u ch) (canHeard ch s) = false := by
    rw [rdB, rd_canHeard ht (by decide)]; exact hc
  have hfifo : rxFifo ch (canHeard ch s) = rxFifo ch s := by rw [frame]; rfl
  have hloc : (canHeard ch s).time.loc = s.time.loc := congrArg (·.time.loc) frame
  have put := fifoPut_of_room (s := canHeard ch s) (b := canBytes f) (s.time.loc - ago) (by rw [hfifo]; exact hroom)
  rw [canReceive, ← canHeard]
  simp [hg', he', hc', hloc, put]

theorem canReceive_of_filtered (he : canEntries ch 0 s ≠ [])
    (hm : (canEntries ch 0 s).any (entMatch (idWord f)) = false) :
    canReceive ch f ago s = inc (F.FLD_CANnn_DROP_FILTERED.u ch) (canHeard ch s) := by
  have frame := canHeard_frame ht
  have hg' : canGuarded ch f (canHeard ch s) = false := (canGuarded_congr (congrArg (·.cfg) frame)).trans hg
  have he' : canEntries ch 0 (canHeard ch s) = canEntries ch 0 s := canEntries_congr (congrArg (·.cfg) frame)
  have filtered : (!(canEntries ch 0 s).isEmpty && !(canEntries ch 0 s).any (entMatch (idWord f))) = true := by
    simp [he, hm]
  rw [canReceive, ← canHeard]
  simp only [hg', he', filtered, Bool.false_and, Bool.false_eq_true, if_false, if_true]

end

/-- A frame in the channel's format that its guard does not name is received. -/
theorem execCanFrameReceived_of_live {ch : Fin 96} {f : CanFrame} {s : State} (ago : Nat) (hf : canFrameOk f = true)
    (hp : s.pwr.mode < 2) (hl : canLive ch s = true) (ha : (canCh ch s).asleep = false) (hk : canKnows ch f s = true)
    (hg : canGuarded ch f s = false) : execCanFrameReceived ch ⟨f, ago⟩ s = .next (canReceive ch f ago s) := by
  have asleep : ¬ (1 < s.pwr.mode ∨ canLive ch s = false ∨ (canCh ch s).asleep = true) := by simp [hl, ha]; omega
  have passed : canCancels ch f s = false := by simp [canCancels, canForbids, hg]
  simp [execCanFrameReceived, guardWf, hf, show s.pwr.mode ≠ 2 by omega, if_neg asleep, hk, passed]

/-! ### A frame cancelled (R250, R255) -/

/-- A cancelled frame: the flag is on the bus, counted, and the release timer runs. -/
def canFlagged (ch : Nat) (s : State) : State :=
  canSet ch { canCh ch s with cancelEnd := releaseAt (canN ch 0x22 2 s) s }
    (inc (F.FLD_CANnn_GUARD_CANCEL.u ch) (emit (.cancel ch) s))

theorem execCancellation_of_first {ch : Fin 96} {f : CanFrame} {s : State} (hf : canFrameOk f = true)
    (hc : canCancels ch f s = true) (hs : rdB (F.FLD_CANnn_STAT_CANCELLING.u ch) s = false) :
    execCancellation ch f s =
      .next (record 0x0501 ch 1 (wrB (F.FLD_CANnn_STAT_CANCELLING.u ch) true (canFlagged ch s))) := by
  have hs' : rdB (F.FLD_CANnn_STAT_CANCELLING.u ch) (canFlagged ch s) = false := by
    rw [rdB, show rd _ (canFlagged ch s) = _ from rd_inc_units _ _ _ (by decide)]; exact hs
  simp only [canFlagged] at hs' ⊢
  simp [execCancellation, guardWf, hf, hc, hs']

/-! ### The attempts of the slot's frame (R242–R245) -/

section
variable {ch : Fin 96} {x : Nat × Nat} {s : State} (hx : (canCh ch s).slot = some x) (hd : canDrives ch s = true)
  (hp : (fr x.2 s).pdu = none)
include hx hd hp

theorem execCanFrameSent_sof : execCanFrameSent ⟨ch, .sof⟩ s =
    .next (canSet ch { canCh ch s with sof := true, trying := true } s) := by
  simp [execCanFrameSent, hx, hd, canStart_of_slot hx hp]

theorem execCanFrameSent_all (hr : reading (.can ch) s = false) (hg : (canCh ch s).gone = false) :
    execCanFrameSent ⟨ch, .all⟩ s =
      .next (canSentAll ch x.2 (canSet ch { canCh ch s with sof := true, trying := true } s)) := by
  simp [execCanFrameSent, hx, hd, hr, hg, canStart_of_slot hx hp]

theorem execArbitrationLost_of_slot (hg : (canCh ch s).gone = false) : execArbitrationLost ch s =
    .next (canSet ch { canCh ch s with sof := true, trying := false } s) := by
  simp [execArbitrationLost, when, hx, hd, canAttemptOver, canStart_of_slot hx hp, canCh_canSet_same, hg,
    canSet_canSet_same]

end

theorem canCount_of_signalling {ch : Nat} {s : State} (a b : Nat) (h : canNosig ch s = false) :
    canCount ch a b s = canEval ch
      (canSet ch { canCh ch s with tec := (canCh ch s).tec + a, rec_ := (canCh ch s).rec_ + b } s) := by
  simp [canCount, h]

theorem canN_canSet (ch o w c : Nat) (x : CanCh) (s : State) : canN ch o w (canSet c x s) = canN ch o w s := rfl

theorem rd_canSet (g : Field) (ch : Nat) (x : CanCh) (s : State) : rd g (canSet ch x s) = rd g s := rfl

/-- An attempt that ended in an error is counted, and without a limit the frame keeps its slot. -/
theorem canAttempt_of_no_limit {ch : Nat} {x : Nat × Nat} {s : State} (hx : (canCh ch s).slot = some x)
    (hp : (fr x.2 s).pdu = none) (hg : (canCh ch s).gone = false) (hl : canN ch 0x10 1 s = 0) : canAttempt ch s =
      canSet ch { canCh ch s with sof := true, trying := false, tries := (canCh ch s).tries + 1 } s := by
  simp [canAttempt, hx, canStart_of_slot hx hp, canCh_canSet_same, hg, canN_canSet, hl, canSet_canSet_same]

/-- The counters after a receiver's error. -/
def canRxFailed (ch : Nat) (s : State) : State :=
  canEval ch (canSet ch { canCh ch s with rec_ := (canCh ch s).rec_ + 1 } (inc (F.FLD_CANnn_ERR_ERRORS.u ch) s))

section
variable {ch : Nat} {s : State} (ht : (canCh ch s).tec < 256)
include ht

theorem canRxFailed_frame : canRxFailed ch s = { s with
    regs := (canRxFailed ch s).regs,
    can := (canSet ch { canCh ch s with rec_ := (canCh ch s).rec_ + 1 } s).can } := by
  rw [canRxFailed, canEval_frame (by rw [canCh_canSet_same]; exact ht)]
  rfl

theorem canCh_canRxFailed : canCh ch (canRxFailed ch s) = { canCh ch s with rec_ := (canCh ch s).rec_ + 1 } := by
  rw [canRxFailed_frame ht]; exact canCh_canSet_same ch _ s

theorem rd_errors_canRxFailed : rd (F.FLD_CANnn_ERR_ERRORS.u ch) (canRxFailed ch s) =
    min (rd (F.FLD_CANnn_ERR_ERRORS.u ch) s + 1) (2 ^ F.FLD_CANnn_ERR_ERRORS.w - 1) := by
  rw [canRxFailed, rd_canEval (by decide) (by rw [canCh_canSet_same]; exact ht)]
  exact rd_inc_unit ch s (by decide)

theorem rd_state_canRxFailed (hl : canLive ch s = true) : rd (F.FLD_CANnn_STAT_STATE.u ch) (canRxFailed ch s) =
    if 127 < (canCh ch s).tec ∨ 127 < (canCh ch s).rec_ + 1 then 3 else 2 := by
  have kept : canState ch (inc (F.FLD_CANnn_ERR_ERRORS.u ch) s) = canState ch s := rd_inc_units _ _ s (by decide)
  have live : canLive ch (canSet ch { canCh ch s with rec_ := (canCh ch s).rec_ + 1 }
      (inc (F.FLD_CANnn_ERR_ERRORS.u ch) s)) = true := by
    show canLive ch (inc (F.FLD_CANnn_ERR_ERRORS.u ch) s) = true
    rw [canLive, kept]; exact hl
  rw [canRxFailed, rd_state_canEval live (by rw [canCh_canSet_same]; exact ht), canCh_canSet_same]

end

theorem execCanError_rx {ch : Fin 96} {s : State} (hl : canLive ch s = true) (hn : canNosig ch s = false) :
    execCanError ch .rx s = .next (canRxFailed ch s) := by
  have counted := canCount_of_signalling (s := inc (F.FLD_CANnn_ERR_ERRORS.u ch) s) 0 1 hn
  simp [execCanError, canErrWeight, hl, when, counted]; rfl

/-- The counters after a transmitter's error that ended an attempt of the slot's frame. -/
def canTxFailed (ch : Nat) (s : State) : State :=
  canEval ch (canSet ch { canCh ch s with tec := (canCh ch s).tec + 8, sof := true, trying := true }
    (inc (F.FLD_CANnn_ERR_ERRORS.u ch) s))

theorem canTxFailed_frame {ch : Nat} {s : State} (ht : (canCh ch s).tec + 8 < 256) : canTxFailed ch s = { s with
    regs := (canTxFailed ch s).regs,
    can := (canSet ch { canCh ch s with tec := (canCh ch s).tec + 8, sof := true, trying := true } s).can } := by
  rw [canTxFailed, canEval_frame (by rw [canCh_canSet_same]; exact ht)]
  rfl

theorem canCh_canTxFailed {ch : Nat} {s : State} (ht : (canCh ch s).tec + 8 < 256) : canCh ch (canTxFailed ch s) =
    { canCh ch s with tec := (canCh ch s).tec + 8, sof := true, trying := true } := by
  rw [canTxFailed_frame ht]; exact canCh_canSet_same ch _ s

theorem rd_tec_canTxFailed {ch : Nat} {s : State} (ht : (canCh ch s).tec + 8 < 256) :
    rd (F.FLD_CANnn_STAT_TEC.u ch) (canTxFailed ch s) = (canCh ch s).tec + 8 := by
  rw [canTxFailed, rd_tec_canEval (by rw [canCh_canSet_same]; exact ht), canCh_canSet_same]

/-- A transmitter's error counts 8 and ends an attempt. -/
theorem execCanError_tx_eq {ch : Fin 96} {s : State} (hl : canLive ch s = true) (hd : canDrives ch s = true) :
    execCanError ch .tx s =
      .next (canAttempt ch (canCount ch 8 0 (canStart ch (inc (F.FLD_CANnn_ERR_ERRORS.u ch) s)))) := by
  simp [execCanError, canErrWeight, hl, hd, when]

/-- A transmitter's error counts 8; without a limit of attempts the frame keeps its slot. -/
theorem execCanError_tx {ch : Fin 96} {x : Nat × Nat} {s : State} (hl : canLive ch s = true)
    (hd : canDrives ch s = true) (hn : canNosig ch s = false) (hx : (canCh ch s).slot = some x)
    (hp : (fr x.2 s).pdu = none) (hg : (canCh ch s).gone = false) (hlim : canN ch 0x10 1 s = 0)
    (ht : (canCh ch s).tec + 8 < 256) : execCanError ch .tx s = .next (canSet ch { canCh ch s with
      tec := (canCh ch s).tec + 8, sof := true, trying := false, tries := (canCh ch s).tries + 1 }
      (canTxFailed ch s)) := by
  have frame := canTxFailed_frame ht
  have run := canCh_canTxFailed ht
  have started : canStart ch (inc (F.FLD_CANnn_ERR_ERRORS.u ch) s) =
      canSet ch { canCh ch s with sof := true, trying := true } (inc (F.FLD_CANnn_ERR_ERRORS.u ch) s) :=
    canStart_of_slot (s := inc (F.FLD_CANnn_ERR_ERRORS.u ch) s) hx hp
  have counted : canCount ch 8 0 (canStart ch (inc (F.FLD_CANnn_ERR_ERRORS.u ch) s)) = canTxFailed ch s := by
    have signals : canNosig ch (canSet ch { canCh ch s with sof := true, trying := true }
        (inc (F.FLD_CANnn_ERR_ERRORS.u ch) s)) = false := hn
    rw [started, canCount_of_signalling 8 0 signals, canCh_canSet_same, canSet_canSet_same]; rfl
  have attempt := canAttempt_of_no_limit (ch := ch) (x := x) (s := canTxFailed ch s) (by rw [run]; exact hx)
    (by rw [frame]; exact hp) (by rw [run]; exact hg) (by rw [frame]; exact hlim)
  rw [run] at attempt
  rw [execCanError_tx_eq hl hd, counted, attempt]

/-! ### A frame sent (R243) -/

/-- The slot's frame f has gone out and is counted; the transmit counter falls. -/
def canCounted (ch f : Nat) (s : State) : State :=
  canEval ch (canSet ch { canCh ch s with tec := (canCh ch s).tec - 1 }
    (incWrap (F.FLD_CANnn_TX_COUNT.u ch) (emit (.can ch (canOnBus ch (fr f s).data s)) s)))

section
variable {ch : Nat} {s : State} (f : Nat) (ht : (canCh ch s).tec ≤ 256)
include ht

theorem canCounted_frame : canCounted ch f s = { s with
    regs := (canCounted ch f s).regs, out := .can ch (canOnBus ch (fr f s).data s) :: s.out,
    can := (canSet ch { canCh ch s with tec := (canCh ch s).tec - 1 } s).can } := by
  rw [canCounted, canEval_frame (by rw [canCh_canSet_same]; show (canCh ch s).tec - 1 < 256; omega)]
  rfl

theorem canCh_canCounted : canCh ch (canCounted ch f s) = { canCh ch s with tec := (canCh ch s).tec - 1 } := by
  rw [canCounted_frame f ht]; exact canCh_canSet_same ch _ s

theorem rd_tx_canCounted : rd (F.FLD_CANnn_TX_COUNT.u ch) (canCounted ch f s) =
    (rd (F.FLD_CANnn_TX_COUNT.u ch) s + 1) % 2 ^ F.FLD_CANnn_TX_COUNT.w := by
  rw [canCounted, rd_canEval (by decide) (by rw [canCh_canSet_same]; show (canCh ch s).tec - 1 < 256; omega)]
  exact rd_incWrap_unit ch (emit _ s) (by decide)

end

/-- The slot's frame f has left its slot and is released. -/
def canSent (ch f : Nat) (s : State) : State :=
  releaseFrame f (readStop (· == .can ch)
    (canSet ch { canCh ch s with tec := (canCh ch s).tec - 1 }.noSlot (canCounted ch f s)))

section
variable {ch : Nat} {s : State} (f : Nat) (ht : (canCh ch s).tec ≤ 256)
include ht

theorem canSent_frame : canSent ch f s = { s with
    regs := (canCounted ch f s).regs, out := .can ch (canOnBus ch (fr f s).data s) :: s.out, qm := (canSent ch f s).qm,
    can := (canSet ch { canCh ch s with tec := (canCh ch s).tec - 1 }.noSlot (canCounted ch f s)).can } := by
  rw [canSent, releaseFrame_frame, canCounted_frame f ht]
  rfl

theorem canCh_canSent :
    canCh ch (canSent ch f s) = { canCh ch s with tec := (canCh ch s).tec - 1 }.noSlot := by
  rw [canSent_frame f ht]; exact canCh_canSet_same ch _ _

theorem rd_tx_canSent : rd (F.FLD_CANnn_TX_COUNT.u ch) (canSent ch f s) =
    (rd (F.FLD_CANnn_TX_COUNT.u ch) s + 1) % 2 ^ F.FLD_CANnn_TX_COUNT.w :=
  (rd_congr _ _ _ (congrArg State.regs (canSent_frame f ht))).trans (rd_tx_canCounted f ht)

theorem canSent_ents (q : Nat) : EntsKept q s (canSent ch f s) := by
  refine Eq.trans (releaseFrame_ents q f _) ?_
  rw [canCounted_frame f ht]
  rfl

/-- A sent frame without a PDU leaves its slot, which stays empty while nothing waits. -/
theorem canSentAll_of_empty {q : Nat} (hx : (canCh ch s).slot = some (q, f)) (hn : canNosig ch s = false)
    (hp : (fr f s).pdu = none) (hq : ∀ q ∈ canQueues ch s, (qu q s).ents = []) :
    canSentAll ch f s = canSent ch f s := by
  have run := canCh_canCounted f ht
  have slot : (canCh ch (canCounted ch f s)).slot = some (q, f) := by rw [run]; exact hx
  have pdu : (fr f (canCounted ch f s)).pdu = none := by rw [canCounted_frame f ht]; exact hp
  have sent : canSentAll ch f s = canFill ch (canEmpty ch (canCounted ch f s)) := by
    simp only [canSentAll, hn, when, Bool.not_false, if_true]; rfl
  rw [sent, canEmpty_of_slot slot pdu, run]
  refine canFill_of_empty (s := canSent ch f s) fun k hk => ?_
  rw [canQueues_congr (congrArg (·.cfg) (canSent_frame f ht))] at hk
  exact Eq.trans (canSent_ents f ht k) (hq k hk)

end

/-! ### Bus-off, recovery and integration (R242) -/

/-- Integration makes the channel error active and counts the frames that it missed in bus-off. -/
def canIntegrated (ch : Nat) (s : State) : State :=
  canSet ch { canCh ch s with missed := 0 } s |> wr (F.FLD_CANnn_STAT_STATE.u ch) 2
    |> incBy (F.FLD_CANnn_GUARD_MISSED.u ch) (canCh ch s).missed

theorem canCh_canIntegrated (ch : Nat) (s : State) :
    canCh ch (canIntegrated ch s) = { canCh ch s with missed := 0 } := canCh_canSet_same ch _ s

section
variable {ch : Nat} {s : State} (ht : (canCh ch s).tec ≤ 127)
include ht

theorem canIntegrated_tec_lt : (canCh ch (canIntegrated ch s)).tec < 256 := by
  rw [canCh_canIntegrated]
  show (canCh ch s).tec < 256
  omega

theorem rd_state_canEval_canIntegrated (hr : domRuns .fld s = true) (hrec : (canCh ch s).rec_ ≤ 127) :
    rd (F.FLD_CANnn_STAT_STATE.u ch) (canEval ch (canIntegrated ch s)) = 2 := by
  have state : canState ch (canIntegrated ch s) = 2 :=
    (rd_wr_units _ _ _ _ (by decide)).trans (rd_wr_unit _ _ _ (by decide))
  have runs : domRuns .fld (canIntegrated ch s) = true := hr
  have live : canLive ch (canIntegrated ch s) = true := by rw [canLive, state, runs]; rfl
  rw [rd_state_canEval live (canIntegrated_tec_lt ht), canCh_canIntegrated]
  exact if_neg (by simp; omega)

theorem rd_missed_canEval_canIntegrated :
    rd (F.FLD_CANnn_GUARD_MISSED.u ch) (canEval ch (canIntegrated ch s)) =
      min (rd (F.FLD_CANnn_GUARD_MISSED.u ch) s + (canCh ch s).missed) (2 ^ F.FLD_CANnn_GUARD_MISSED.w - 1) := by
  have before : rd (F.FLD_CANnn_GUARD_MISSED.u ch) (wr (F.FLD_CANnn_STAT_STATE.u ch) 2
      (canSet ch { canCh ch s with missed := 0 } s)) = rd (F.FLD_CANnn_GUARD_MISSED.u ch) s :=
    rd_wr_units _ _ _ _ (by decide)
  rw [rd_canEval (by decide) (canIntegrated_tec_lt ht), ← before]
  exact rd_wr_unit_of_lt ch _ (by show min _ 15 < 16; omega) (by decide)

end

section
variable {ch : Fin 96} {s : State} (hr : domRuns .fld s = true)
include hr

theorem execBusOffRecoveryDelay_of_busOff (hs : rd (F.FLD_CANnn_STAT_STATE.u ch) s = 4) :
    execBusOffRecoveryDelay ch s = .next (wr (F.FLD_CANnn_STAT_STATE.u ch) 5 s) := by
  simp [execBusOffRecoveryDelay, when, canState, hr, hs]

theorem execBusOffRecovery_of_recovering (hs : rd (F.FLD_CANnn_STAT_STATE.u ch) s = 5) :
    execBusOffRecovery ch s = .next (canShow ch (wr (F.FLD_CANnn_STAT_STATE.u ch) 1
      (canSet ch { canCh ch s with tec := 0, rec_ := 0 } s))) := by
  simp [execBusOffRecovery, when, canState, hr, hs]

/-- Integration without a counter above 127 makes the channel error active. -/
theorem execIntegration_of_integrating (hs : rd (F.FLD_CANnn_STAT_STATE.u ch) s = 1) (ht : (canCh ch s).tec ≤ 127)
    (hq : ∀ q ∈ canQueues ch s, (qu q s).ents = []) :
    execIntegration ch s = .next (canEval ch (canIntegrated ch s)) := by
  have frame := canEval_frame (canIntegrated_tec_lt ht)
  simp only [execIntegration, when, canState, hs, hr, beq_self_eq_true, Bool.and_self, if_true]
  refine congrArg Host.Outcome.next ?_
  refine canFill_of_empty (s := canEval ch (canIntegrated ch s)) fun q hk => ?_
  rw [canQueues_congr (s := s) (by rw [frame]; rfl)] at hk
  rw [frame]
  exact hq q hk

theorem execCancelRelease_of_expired (hc : rdB (F.FLD_CANnn_STAT_CANCELLING.u ch) s = true)
    (he : (canCh ch s).cancelEnd ≤ s.time.loc) : execCancelRelease ch s =
      .next (record 0x0501 ch 0 (wrB (F.FLD_CANnn_STAT_CANCELLING.u ch) false s)) := by
  simp [execCancelRelease, when, hr, hc, he]

/-! ### The babbling guard (R256, R257) -/

theorem execBabbleRelease_of_can (hc : rdB (F.FLD_CANnn_STAT_CONTAINED.u ch) s = true)
    (he : (canCh ch s).babbleEnd ≤ s.time.loc) : execBabbleRelease (.can ch) s =
      .next (record 0x0504 ch 0 (wrB (F.FLD_CANnn_STAT_CONTAINED.u ch) false s)) := by
  simp [execBabbleRelease, canBabbleRelease, when, hr, hc, he]

end

/-- A babble window ends: the window's frames and the bus load are shown. -/
def canWindowed (ch load : Nat) (s : State) : State :=
  canSet ch { canCh ch s with win := 0 } s |> wr (F.FLD_CANnn_LOAD_FRAMES.u ch) (min (canCh ch s).win 65535)
    |> wr (F.FLD_CANnn_LOAD_LOAD.u ch) (min load 1000)

/-- A violation restarts the channel's release timer. -/
def canViolated (ch : Nat) (s : State) : State :=
  canSet ch { canCh ch s with babbleEnd := releaseAt (canN ch 0x20 2 s) s } s

/-- A violation contains a channel that is open. -/
def canContained (ch : Nat) (s : State) : State :=
  if !rdB (F.FLD_CANnn_STAT_CONTAINED.u ch) s then
    wrB (F.FLD_CANnn_STAT_CONTAINED.u ch) true s |> inc (F.FLD_CANnn_BABBLE_CONTAINS.u ch) |> record 0x0504 ch 1
      |> when (canFlag ch 6 s) (each (List.range 4) fun k => deviceFlush (256 + 4 * ch + k))
  else s

theorem win_canViolated_canWindowed (ch load : Nat) (s : State) :
    (canCh ch (canViolated ch (canWindowed ch load s))).win = 0 := by
  have windowed : canCh ch (canWindowed ch load s) = { canCh ch s with win := 0 } := canCh_canSet_same ch _ s
  rw [canViolated, canCh_canSet_same, windowed]

theorem canBabble_eq (ch load : Nat) (s : State) : canBabble ch load s =
    if canN ch 0x1C 2 s = 0 ∨ canMode ch s = 0 ∨ !domRuns .fld s then s
    else if !decide (canN ch 0x1C 2 s < (canCh ch s).win ∨ canN ch 0x1E 2 s < load) then canWindowed ch load s
    else canContained ch (canViolated ch (canWindowed ch load s)) := rfl

theorem rd_contained_canWindowed (ch load : Nat) (s : State) :
    rd (F.FLD_CANnn_STAT_CONTAINED.u ch) (canWindowed ch load s) = rd (F.FLD_CANnn_STAT_CONTAINED.u ch) s :=
  (rd_wr_units _ _ _ _ (by decide)).trans (rd_wr_units _ _ _ _ (by decide))

theorem rd_contains_canWindowed (ch load : Nat) (s : State) :
    rd (F.FLD_CANnn_BABBLE_CONTAINS.u ch) (canWindowed ch load s) = rd (F.FLD_CANnn_BABBLE_CONTAINS.u ch) s :=
  (rd_wr_units _ _ _ _ (by decide)).trans (rd_wr_units _ _ _ _ (by decide))

theorem rd_frames_canWindowed (ch load : Nat) (s : State) :
    rd (F.FLD_CANnn_LOAD_FRAMES.u ch) (canWindowed ch load s) = min (canCh ch s).win 65535 :=
  (rd_wr_units _ _ _ _ (by decide)).trans (rd_wr_unit_of_lt ch _ (by show _ < 65536; omega) (by decide))

theorem rd_load_canWindowed (ch load : Nat) (s : State) :
    rd (F.FLD_CANnn_LOAD_LOAD.u ch) (canWindowed ch load s) = min load 1000 :=
  rd_wr_unit_of_lt ch _ (by show min load 1000 < 1024; omega) (by decide)

theorem execBabbleWindow_of_violation {ch : Fin 96} {load : Nat} {s : State} (hr : domRuns .fld s = true)
    (hm : canMode ch s ≠ 0) (hl : canN ch 0x1C 2 s ≠ 0)
    (hv : canN ch 0x1C 2 s < (canCh ch s).win ∨ canN ch 0x1E 2 s < load)
    (hc : rdB (F.FLD_CANnn_STAT_CONTAINED.u ch) s = false) (hf : canFlag ch 6 s = false) :
    execBabbleWindow (.can ch) load s = .next (record 0x0504 ch 1 (inc (F.FLD_CANnn_BABBLE_CONTAINS.u ch)
      (wrB (F.FLD_CANnn_STAT_CONTAINED.u ch) true (canViolated ch (canWindowed ch load s))))) := by
  have hc' : rdB (F.FLD_CANnn_STAT_CONTAINED.u ch) (canViolated ch (canWindowed ch load s)) = false := by
    have kept := rd_contained_canWindowed ch load s
    rw [rdB] at hc ⊢
    exact kept ▸ hc
  have hf' : canFlag ch 6 (canViolated ch (canWindowed ch load s)) = false := hf
  have watched : ¬ (canN ch 0x1C 2 s = 0 ∨ canMode ch s = 0 ∨ !domRuns .fld s) := by simp [hl, hm, hr]
  refine congrArg Host.Outcome.next ?_
  show canBabble ch load s = _
  rw [canBabble_eq, if_neg watched, if_neg (by rw [decide_eq_true hv]; decide), canContained, hc', hf']
  rfl

end Sys2Proof.Machine

namespace Sys2Proof.Machine

/-- Settles O14: each event is its operation on the channel that meets its conditions; below bus-off the counters change
the registers that show them and nothing else. -/
theorem canEventsComplete : Obligations.CanEventsComplete := by
  unfold Obligations.CanEventsComplete
  refine ⟨fun ch f ago s hf hp hl ha ht hk hg he hc hroom => ?received,
    fun ch f ago s hf hp hl ha ht hk hg he hm => ?filtered, fun ch f s hf hc hs => ?cancelled,
    fun ch x s hx hd _ hpdu => execCanFrameSent_sof hx hd hpdu,
    fun ch x s hx hd hn hread hgone hpdu ht hq => ?sent,
    fun ch x s hx hd hgone hpdu => execArbitrationLost_of_slot hx hd hpdu hgone, fun ch s hl hn ht => ?rxError,
    fun ch x s hl hd hn hx hpdu hgone hlim ht => ?txError, fun ch s hr hs => ?delay, fun ch s hr hs => ?recovery,
    fun ch s hr hs ht hrec hq => ?integration, fun ch s hr hc he => ?cancelRelease,
    fun ch load s hr hm hl hv hc hf => ?window, fun ch s hr hc he => ?release⟩
  case received =>
    have frame := canHeard_frame ht
    have below : (F.FLD_CANnn_RX_COUNT.u ch).key < F.GRV_GVn_PEND_HIGH.key := key_u_lt_of_le (Nat.le_of_lt ch.isLt) (by decide)
    refine ⟨_, (execCanFrameReceived_of_live ago hf hp hl ha hk hg).trans
      (congrArg _ (canReceive_of_room ago ht hg he hc hroom)), ?_, ?_, ?_⟩
    · rw [rxFifo_incWrap, rxFifo_fifoJoined, frame]; rfl
    · rw [rd_incWrap_unit _ _ (by decide), rd_fifoJoined _ _ _ _ below, rd_canHeard ht (by decide)]
    · rw [fifoJoined_frame, frame]; rfl
  case filtered =>
    have frame := canHeard_frame ht
    refine ⟨_, (execCanFrameReceived_of_live ago hf hp hl ha hk hg).trans
      (congrArg _ (canReceive_of_filtered ago ht hg he hm)), ?_, ?_, ?_⟩
    · show rxFifo ch (canHeard ch s) = _
      rw [frame]; rfl
    · rw [rd_inc_unit _ _ (by decide), rd_canHeard ht (by decide)]
    · rw [frame]; rfl
  case cancelled =>
    refine ⟨_, execCancellation_of_first hf hc hs, ?_, ?_, ?_, ?_, ?_⟩
    · rw [record_frame]; rfl
    · rw [rd_record, rd_wrB_unit _ _ _ (by decide)]; rfl
    · rw [rd_record, rd_wrB_units _ _ _ _ (by decide)]
      exact rd_inc_unit ch (emit _ s) (by decide)
    · rw [record_frame]; exact canCh_canSet_same ch _ _
    · rw [record_frame]; rfl
  case sent =>
    have run : canCh ch (canSet ch { canCh ch s with sof := true, trying := true } s) =
      { canCh ch s with sof := true, trying := true } := canCh_canSet_same ch _ s
    have ht' : (canCh ch (canSet ch { canCh ch s with sof := true, trying := true } s)).tec ≤ 256 := by
      rw [run]; exact ht
    have sent := canSentAll_of_empty x.2 ht' (q := x.1) (by rw [run]; exact hx) hn hpdu hq
    have after := (canCh_canSent x.2 ht').trans (by rw [run])
    refine ⟨_, (execCanFrameSent_all hx hd hpdu hread hgone).trans (congrArg _ sent), ?_, ?_, ?_, ?_⟩
    · rw [canSent_frame x.2 ht']; rfl
    · exact congrArg CanCh.slot after
    · exact congrArg CanCh.tec after
    · exact rd_tx_canSent x.2 ht'
  case rxError =>
    have run := canCh_canRxFailed ht
    refine ⟨_, execCanError_rx hl hn, congrArg CanCh.rec_ run, ?_, rd_errors_canRxFailed ht,
      rd_state_canRxFailed ht hl, ?_⟩
    · rw [run]
    · rw [canRxFailed_frame ht]
  case txError =>
    refine ⟨_, execCanError_tx hl hd hn hx hpdu hgone hlim ht, canCh_canSet_same ch _ _, ?_, ?_⟩
    · rw [rd_canSet, rd_tec_canTxFailed ht]
    · rw [canTxFailed_frame ht]; rfl
  case delay =>
    exact ⟨_, execBusOffRecoveryDelay_of_busOff hr hs, rd_wr_unit _ _ _ (by decide), regsKept_wr _ _ s, rfl⟩
  case recovery =>
    refine ⟨_, execBusOffRecovery_of_recovering hr hs, ?_, canCh_canSet_same ch _ s, ?_, ?_, rfl⟩
    · exact (canState_canShow ch _).trans (rd_wr_unit _ _ _ (by decide))
    · rw [rd_tec_canShow]
      exact congrArg (fun c : CanCh => min c.tec 511) (canCh_canSet_same ch _ s)
    · rw [rd_rec_canShow]
      exact congrArg (fun c : CanCh => min c.rec_ 255) (canCh_canSet_same ch _ s)
  case integration =>
    have frame := canEval_frame (canIntegrated_tec_lt ht)
    refine ⟨_, execIntegration_of_integrating hr hs ht hq, rd_state_canEval_canIntegrated ht hr hrec, ?_,
      rd_missed_canEval_canIntegrated ht, ?_⟩
    · rw [frame]; exact canCh_canIntegrated ch s
    · rw [frame]; rfl
  case cancelRelease =>
    refine ⟨_, execCancelRelease_of_expired hr hc he, ?_, ?_⟩
    · rw [rd_record, rd_wrB_unit _ _ _ (by decide)]; rfl
    · rw [record_frame]; rfl
  case window =>
    refine ⟨_, execBabbleWindow_of_violation hr hm hl hv hc hf, ?_, ?_, ?_, ?_, ?_, ?_⟩
    · rw [rd_record, rd_inc_units _ _ _ (by decide), rd_wrB_unit _ _ _ (by decide)]; rfl
    · rw [record_frame]
      exact win_canViolated_canWindowed ch load s
    · rw [rd_record, rd_inc_units _ _ _ (by decide), rd_wrB_units _ _ _ _ (by decide)]
      exact rd_frames_canWindowed ch load s
    · rw [rd_record, rd_inc_units _ _ _ (by decide), rd_wrB_units _ _ _ _ (by decide)]
      exact rd_load_canWindowed ch load s
    · rw [rd_record, rd_inc_unit _ _ (by decide), rd_wrB_units _ _ _ _ (by decide)]
      exact congrArg (fun n => min (n + 1) _) (rd_contains_canWindowed ch load s)
    · rw [record_frame]; rfl
  case release =>
    refine ⟨_, execBabbleRelease_of_can hr hc he, ?_, ?_⟩
    · rw [rd_record, rd_wrB_unit _ _ _ (by decide)]; rfl
    · rw [record_frame]; rfl

end Sys2Proof.Machine

namespace Sys2Proof.Machine

/-! ### What a frame of the device writes when it enters the switch core (R124, R137, R141–R143) -/

/-- The registers that count what admission does. -/
def admitRegs : List Field :=
  [F.FAB_STAGE_DROP_COUNT, F.STP_REFUSE_CNT_COUNT, F.PWR_SHED_CNT_COUNT, F.QM_EVICT_CNT_COUNT, F.QM_DROP_THR_COUNT,
    F.QM_DROP_POOL_COUNT, F.QM_BULK_LOW_LOW]

/-- The state without what admission reaches: the registers, the queues and the recorder. -/
def besideAdmission (s : State) : State := { s with regs := [], qm := {}, rcd := {} }

/-- From s to t only the queues, the recorder and the registers of admission can have changed. -/
def AdmitStep (s t : State) : Prop := besideAdmission t = besideAdmission s ∧ RegsKept admitRegs s t

theorem AdmitStep.refl (s : State) : AdmitStep s s := ⟨rfl, RegsKept.refl _ s⟩

theorem AdmitStep.trans {s t u : State} (h : AdmitStep s t) (k : AdmitStep t u) : AdmitStep s u :=
  ⟨k.1.trans h.1, fun g hg => (k.2 g hg).trans (h.2 g hg)⟩

theorem AdmitStep.sig {s t : State} (h : AdmitStep s t) : t.sig = s.sig := congrArg (·.sig) h.1

theorem admitStep_of_qm {s t : State} (h : t = { s with qm := t.qm }) : AdmitStep s t := by
  rw [h]; exact ⟨rfl, fun _ _ => rfl⟩

theorem admitStep_wr {f : Field} (h : f ∈ admitRegs) (v : Nat) (s : State) : AdmitStep s (wr f v s) :=
  ⟨rfl, (regsKept_wr f v s).mono fun _ hg => List.mem_singleton.mp hg ▸ h⟩

theorem admitStep_inc {f : Field} (h : f ∈ admitRegs) (s : State) : AdmitStep s (inc f s) := admitStep_wr h _ s

theorem foldl_admitStep {α β : Type} (p : β → State) (l : List α) (g : β → α → β)
    (h : ∀ b a, AdmitStep (p b) (p (g b a)))
    (b : β) : AdmitStep (p b) (p (l.foldl g b)) := by
  induction l generalizing b with
  | nil => exact .refl _
  | cons a l ih => exact (h b a).trans (ih _)

theorem dropFrameBg_admitStep (evict : Bool) (f : Nat) (s : State) : AdmitStep s (dropFrameBg evict f s) :=
  admitStep_of_qm rfl

theorem refuseAt_admitStep (q : Nat) (s : State) : AdmitStep s (refuseAt q s) := admitStep_of_qm rfl

theorem evictTail_admitStep (q : Nat) (s : State) : AdmitStep s (evictTail q s) := by
  simp only [evictTail]
  split
  · exact .refl s
  · split
    · exact .refl s
    · exact (admitStep_of_qm (s := s) rfl).trans ((dropFrameBg_admitStep true _ _).trans (admitStep_inc (by decide) _))

theorem pushOut_admitStep (q : Nat) (s : State) : AdmitStep s (pushOut q s) := by
  simp only [pushOut]
  split
  · split
    · exact evictTail_admitStep _ s
    · exact .refl s
  · exact .refl s

theorem admitOne_admitStep (must : Bool) (need c : Nat) (exempt : Bool) (q : Nat) (s : State) :
    AdmitStep s (admitOne must need c exempt q s).2 := by
  have refused (u : State) : AdmitStep u (refuseAt q u) := refuseAt_admitStep q u
  simp only [admitOne]
  split
  · exact refused s
  · split
    · split
      · exact .refl s
      · exact (refused s).trans (admitStep_inc (by decide) _)
    · split
      · exact (refused s).trans (admitStep_inc (by decide) _)
      · split
        · exact pushOut_admitStep q s
        · exact (pushOut_admitStep q s).trans (refused _)

theorem admitAll_admitStep (must : Bool) (need c : Nat) (exempt : Bool) (qs : List (Nat × Bool × Nat)) (s : State) :
    AdmitStep s (admitAll must need c exempt qs s).2 := by
  refine foldl_admitStep (fun a : List (Nat × Bool × Nat) × State => a.2) qs _ (fun b q => ?_) ([], s)
  have one := admitOne_admitStep must (destCells need q) c exempt q.1 b.2
  dsimp only
  split
  · exact one.trans (admitStep_of_qm rfl)
  · exact one

theorem dropThr_admitStep (ds : List (Nat × Bool × Nat)) (s : State) : AdmitStep s (dropThr ds s) := by
  simp only [dropThr, when]
  split
  · exact admitStep_inc (by decide) s
  · exact .refl s

theorem unhold_admitStep (need : Nat) (ds : List (Nat × Bool × Nat)) (s : State) : AdmitStep s (unhold need ds s) :=
  foldl_admitStep id ds _ (fun _ _ => admitStep_of_qm rfl) s

theorem admitLinks_admitStep (need : Nat) (ds : List (Nat × Bool × Nat)) (s : State) :
    AdmitStep s (admitLinks need ds s).2 := by
  simp only [admitLinks]
  split
  · exact .refl s
  · exact (unhold_admitStep need ds s).trans (admitStep_inc (by decide) _)

theorem bulkMark_admitStep (s : State) : AdmitStep s (bulkMark s) := by
  have marked : AdmitStep s (markMin F.QM_BULK_LOW_LOW (bulkFree s) s) := by
    unfold markMin
    split
    · exact admitStep_wr (by decide) _ s
    · exact .refl s
  refine marked.trans ⟨?_, fun g _ => rd_extreme g _ _ _⟩
  simp only [bulkMark, extreme, recUpdate]
  split <;> rfl

theorem submitAs_admitStep (keep : Bool) (node : Nat) (x : Fr) (s : State) : AdmitStep s (submitAs keep node x s).2 := by
  simp only [submitAs]
  split
  · exact admitStep_inc (by decide) s
  · have admitted := admitAll_admitStep keep (cellsOf x.data.length) x.cls (x.noEvict || x.exempt) x.dests s
    split
    · refine admitted.trans ?_
      unfold when
      split
      · exact dropThr_admitStep _ _
      · exact .refl _
    · have links := admitted.trans (admitLinks_admitStep (cellsOf x.data.length) (admitAll keep (cellsOf x.data.length) x.cls
      (x.noEvict || x.exempt) x.dests s).1 _)
      split <;> (rename_i linked; rw [linked] at links)
      · exact links
      · exact links.trans ((admitStep_of_qm rfl).trans (bulkMark_admitStep _))

theorem submit_admitStep (node : Nat) (x : Fr) (s : State) : AdmitStep s (submit node x s).2 :=
  submitAs_admitStep false node x s

end Sys2Proof.Machine

namespace Sys2Proof.Machine

/-! ### The evaluation of the demand leaves the signal gateway alone (R423, R431–R435) -/

theorem each_sig {α : Type} (l : List α) (f : α → State → State) (s : State) (h : ∀ a s, (f a s).sig = s.sig) :
    (each l f s).sig = s.sig :=
  foldl_keepP l (fun s a => f a s) (fun s : State => s.sig) (fun b a => h a b) s

theorem when_sig (b : Bool) (f : State → State) (s : State) (h : (f s).sig = s.sig) : (when b f s).sig = s.sig := by
  unfold when; split
  · exact h
  · rfl

@[simp] theorem transmit_sig (d : Domain) (o : Out) (s : State) : (transmit d o s).sig = s.sig := by
  unfold transmit; split <;> rfl

@[simp] theorem holdUpCheck_sig (row need : Nat) (s : State) : (holdUpCheck row need s).2.sig = s.sig := by
  simp only [holdUpCheck]; split <;> simp

theorem mramNow_sig (op : MramOp) (s : State) (h : ∀ s, (mramApply op s).sig = s.sig) : (mramNow op s).2.sig = s.sig := by
  simp only [mramNow]; split <;> simp [h]

@[simp] theorem kslotSet_sig (k : Nat) (x : KeySlot) (s : State) : (kslotSet k x s).sig = s.sig := rfl

@[simp] theorem mramNow_keyUse_sig (k n : Nat) (s : State) : (mramNow (.keyUse k n) s).2.sig = s.sig :=
  mramNow_sig _ s fun _ => rfl

@[simp] theorem useCount_sig (k : Nat) (s : State) : (useCount k s).2.sig = s.sig := by
  have reserved (n : Nat) : (mramNow (.keyUse k n) s).2.sig = s.sig := mramNow_keyUse_sig k n s
  simp only [useCount]
  split
  · rfl
  · split
    · rfl
    · simp only [apply_ite Prod.fst, apply_ite Prod.snd, apply_ite State.sig, kslotSet_sig, reserved, ite_self]

@[simp] theorem tagUse_sig (slot : Nat) (s : State) : (tagUse slot s).2.sig = s.sig := by
  have counted := useCount_sig slot s
  simp only [tagUse]
  split
  · rfl
  · split <;> (rename_i used; rw [used] at counted; exact counted)

@[simp] theorem almNumbered_sig (s : State) : (almNumbered s).sig = s.sig := by
  simp only [almNumbered]
  split
  · exact mramNow_sig (.linkStart _) _ fun _ => rfl
  · rfl

@[simp] theorem almOut_sig (port vlan : Nat) (dst : List Byte) (type flags : Nat) (body : List Byte)
    (key : Option (List Byte)) (s : State) : (almOut port vlan dst type flags body key s).2.sig = s.sig := by
  simp only [almOut]
  split
  · rfl
  · exact (submit_admitStep 9 _ _).sig.trans (almNumbered_sig s)

@[simp] theorem almTo_sig (i type flags : Nat) (body : List Byte) (s : State) : (almTo i type flags body s).2.sig = s.sig := by
  have tagged := tagUse_sig (peerN i 12 2 s) s
  simp only [almTo]
  split
  · exact almOut_sig _ _ _ _ _ _ _ s
  · split <;> (rename_i used; rw [used] at tagged)
    · exact (almOut_sig _ _ _ _ _ _ _ _).trans tagged
    · exact tagged

@[simp] theorem almRing_sig (skip : List Nat) (type flags : Nat) (body : List Byte) (s : State) :
    (almRing skip type flags body s).sig = s.sig := each_sig _ _ s fun i s => almTo_sig i type flags body s

@[simp] theorem sbsWrite_sig (w : SbsWriter) (o : Nat) (v : Bool) (s : State) : (sbsWrite w o v s).sig = s.sig :=
  congrArg (·.sig) (sbsWrite_besideOutputs w o v s)

@[simp] theorem resWake_sig (s : State) : (resWake s).sig = s.sig := by
  refine (each_sig _ _ _ fun l s => ?_).trans (each_sig _ _ s fun c s => ?_)
  · split
    · exact sbsWrite_sig _ _ _ s
    · rfl
  · split
    · exact sbsWrite_sig _ _ _ _
    · rfl

@[simp] theorem t1sPattern_sig (sg : Nat) (s : State) : (t1sPattern sg s).sig = s.sig := by
  unfold t1sPattern
  split
  · rfl
  · exact transmit_sig _ _ _

@[simp] theorem t1sWakeTx_sig (sg w : Nat) (s : State) : (t1sWakeTx sg w s).sig = s.sig := by
  simp only [t1sWakeTx]
  split
  · rfl
  · split
    · rfl
    · split
      · rfl
      · exact when_sig _ _ _ (t1sPattern_sig sg _)

@[simp] theorem linWakeUp_sig (ch : Nat) (s : State) : (linWakeUp ch s).sig = s.sig := by
  simp only [linWakeUp]
  split
  · exact transmit_sig _ _ s
  · rfl

@[simp] theorem wakeBroadcast_sig (w reason : Nat) (late : Bool) (s : State) :
    (wakeBroadcast w reason late s).sig = s.sig := by
  have passed (u : State) : (almRing [] 8 0 (wakeBody w reason (b2n late)) u).sig = u.sig := almRing_sig _ _ _ _ u
  have lins (u : State) : (each (List.range 32) linWakeUp u).sig = u.sig := each_sig _ _ u linWakeUp_sig
  have segs (u : State) : (each (List.range 16) (fun sg => t1sWakeTx sg w) u).sig = u.sig :=
    each_sig _ _ u fun sg => t1sWakeTx_sig sg w
  simp only [wakeBroadcast, passed, lins, segs]

@[simp] theorem slpConfirm_sig (s : State) : (slpConfirm s).sig = s.sig := by
  simp only [slpConfirm]; split <;> rfl

@[simp] theorem wakeGroupsFor_sig (w reason : Nat) (late : Bool) (s : State) :
    (wakeGroupsFor w reason late s).sig = s.sig :=
  (slpConfirm_sig _).trans (when_sig _ _ _ ((wakeBroadcast_sig _ _ _ _).trans (resWake_sig _)))

@[simp] theorem wakeLatch_sig (r m : Nat) (s : State) : (wakeLatch r m s).sig = s.sig := by rw [wakeLatch_frame]

@[simp] theorem vetoSend_sig (skip : List Nat) (body : List Byte) (s : State) : (vetoSend skip body s).sig = s.sig := by
  simp only [vetoSend]
  split
  · rfl
  · exact almRing_sig _ _ _ _ _

@[simp] theorem lateWake_sig (r m : Nat) (s : State) : (lateWake r m s).sig = s.sig := by
  simp only [lateWake]
  split
  · rfl
  · exact record_sig _ _ _ _

/-- The state in which a wake reason has been noted (R432, R433). -/
def wakeNoted (r m : Nat) (late : Bool) (s : State) : State :=
  when late (lateWake r m) s
    |> fun s => { s with slp := { s.slp with toWake := s.slp.toWake ||| m, lastWhy := r, late := s.slp.late || late } }

/-- A round for one of the groups m is cancelled (R432). -/
def roundStopped (m : Nat) (s : State) : State :=
  if s.slp.cand &&& m ≠ 0 then roundCancel (match s.slp.last with | some b => vetoSend [] b s | none => s) else s

theorem wakeAct_eq (r m : Nat) (late : Bool) (s : State) : wakeAct r m late s =
    if (wakeNoted r m late s).pwr.mode = 2 then wakeNoted r m late s
    else if (wakeNoted r m late s).pwr.mode = 3 then
      { wakeNoted r m late s with slp := { (wakeNoted r m late s).slp with inh := true } }
    else wakeGroupsFor m r late (roundStopped m (wakeNoted r m late s)) := rfl

theorem wakeNoted_sig (r m : Nat) (late : Bool) (s : State) : (wakeNoted r m late s).sig = s.sig :=
  when_sig late _ s (lateWake_sig r m s)

theorem roundStopped_sig (m : Nat) (s : State) : (roundStopped m s).sig = s.sig := by
  have cancelled (u : State) : (roundCancel u).sig = u.sig := rfl
  unfold roundStopped
  split
  · split
    · exact (cancelled _).trans (vetoSend_sig _ _ s)
    · exact cancelled s
  · rfl

@[simp] theorem wakeAct_sig (r m : Nat) (late : Bool) (s : State) : (wakeAct r m late s).sig = s.sig := by
  have noted := wakeNoted_sig r m late s
  rw [wakeAct_eq]
  split
  · exact noted
  · split
    · exact noted
    · exact (wakeGroupsFor_sig _ _ _ _).trans ((roundStopped_sig m _).trans noted)

@[simp] theorem wakeReason_sig (r m : Nat) (late : Bool) (s : State) : (wakeReason r m late s).sig = s.sig := by
  simp only [wakeReason]
  split
  · rfl
  · split
    · exact wakeLatch_sig r m s
    · exact (wakeAct_sig r m _ _).trans (wakeLatch_sig r m s)

@[simp] theorem slpEval_sig (s : State) : (slpEval s).sig = s.sig :=
  (slpConfirm_sig _).trans ((when_sig _ _ _ (wakeReason_sig _ _ _ _)).trans (when_sig _ _ _ (wakeReason_sig _ _ _ _)))

end Sys2Proof.Machine

namespace Sys2Proof.Machine

/-! ### Fields of an instruction word (R325) -/

theorem toNat_extractLsb'_eq_bits (w : BitVec 26) (lo n : Nat) : (w.extractLsb' lo n).toNat = bits w.toNat lo n := by
  rw [BitVec.extractLsb'_toNat, Nat.shiftRight_eq_div_pow]; rfl

/-- A field of the immediate is the field of the word at the same place. -/
theorem bits_wImm {lo n : Nat} (w : BitVec 26) (h : lo + n ≤ 18) : bits (wImm w) lo n = (w.extractLsb' lo n).toNat := by
  have cut : (w.toNat % 2 ^ 18 / 2 ^ lo) % 2 ^ n = w.toNat / 2 ^ lo % 2 ^ n := by
    apply Nat.eq_of_testBit_eq
    intro i
    simp only [Nat.testBit_mod_two_pow, Nat.testBit_div_two_pow]
    by_cases hi : i < n
    · simp [hi, show i + lo < 18 by omega]
    · simp [hi]
  rw [toNat_extractLsb'_eq_bits]
  simpa [bits, wImm] using cut

theorem bit_wImm {k : Nat} (w : BitVec 26) (h : k < 18) : bit (wImm w) k = w.getLsbD k := by
  have low : (w.toNat % 2 ^ 18).testBit k = w.toNat.testBit k := by
    rw [Nat.testBit_mod_two_pow, decide_eq_true h, Bool.true_and]
  rw [← testBit_eq_bit, BitVec.getLsbD, ← low]
  simp [wImm, bits]

theorem wSub_eq_zero {w : BitVec 26} (h : w.extractLsb' 0 14 = 0) : wSub w = 0 := by
  rw [wSub, ← toNat_extractLsb'_eq_bits, h]; rfl

/-- With bits 0 to 12 zero, SUB holds the slot alone. -/
theorem clearBits_wSub_slot {w : BitVec 26} (h : w.extractLsb' 0 13 = 0) : clearBits (wSub w) 0x2000 = 0 := by
  have low : wSub w % 2 ^ 13 = 0 := by
    have zero : bits w.toNat 0 13 = 0 := by rw [← toNat_extractLsb'_eq_bits, h]; rfl
    simp only [bits, wSub] at zero ⊢
    omega
  have top : wSub w < 2 ^ 14 := Nat.mod_lt _ (by decide)
  have slot : wSub w = 0 ∨ wSub w = 0x2000 := by omega
  rcases slot with e | e <;> rw [e] <;> decide

/-! ### The registers of a context (R314) -/

theorem get_lt (r : Nat) (x : Ctx) : x.get r < 2 ^ 64 := by
  unfold Ctx.get; split
  · decide
  · exact BitVec.isLt _

theorem gReg_toNat (e c r : Nat) (s : State) : (gReg e c r s).toNat = (ctx e c s).get r :=
  Nat.mod_eq_of_lt (get_lt r _)

theorem get_congr {x y : Ctx} (h : y.regs = x.regs) (r : Nat) : y.get r = x.get r := by rw [Ctx.get, Ctx.get, h]

theorem ofNat_get_put (d v r : Nat) (x : Ctx) :
    BitVec.ofNat 64 ((x.put d v).get r) = if r = d ∧ d ≠ 0 then BitVec.ofNat 64 v else BitVec.ofNat 64 (x.get r) := by
  by_cases hd : d = 0
  · simp [Ctx.put, hd]
  · by_cases hr : r = d
    · subst hr; simp [Ctx.put, Ctx.get, hd, BitVec.ofNat_toNat, -BitVec.toNat_ofNat]
    · simp [Ctx.put, Ctx.get, hd, hr, tget_tput_ne]

/-- A register write changes the registers alone. -/
theorem put_eq (d v : Nat) (x : Ctx) : x.put d v = { x with regs := (x.put d v).regs } := by
  unfold Ctx.put; split <;> rfl

@[simp] theorem slot_put (d v k : Nat) (x : Ctx) : (x.put d v).slot k = x.slot k := by rw [put_eq]; rfl

/-! ### The slots of a context (R322) -/

@[simp] theorem slot_setSlot_same (k : Nat) (y : Slot) (x : Ctx) : (x.setSlot k y).slot k = y := by
  unfold Ctx.setSlot Ctx.slot; split <;> rfl

theorem setSlot_slot {k : Nat} {y : Slot} {x : Ctx} (h : x.slot k = y) : x.setSlot k y = x := by
  subst h; unfold Ctx.setSlot Ctx.slot; split <;> rfl

theorem setSlot_setSlot (k : Nat) (y z : Slot) (x : Ctx) : (x.setSlot k y).setSlot k z = x.setSlot k z := by
  unfold Ctx.setSlot; split <;> rfl

@[simp] theorem setSlot_regs (k : Nat) (y : Slot) (x : Ctx) : (x.setSlot k y).regs = x.regs := by
  unfold Ctx.setSlot; split <;> rfl

@[simp] theorem setSlot_group (k : Nat) (y : Slot) (x : Ctx) : (x.setSlot k y).group = x.group := by
  unfold Ctx.setSlot; split <;> rfl

@[simp] theorem slot_gvIssued (k : Nat) (x : Ctx) : (gvIssued x).slot k = x.slot k := rfl

theorem get_gvIssued (r : Nat) (x : Ctx) : (gvIssued x).get r = x.get r := rfl

/-! ### The cells of a buffered frame (R322, R323) -/

theorem slotFetch_frame (e c k o n : Nat) (x : Ctx) (s : State) :
    (slotFetch e c k o n x s).2 = { s with qm := (slotFetch e c k o n x s).2.qm } := by
  unfold slotFetch
  split
  · exact each_qm_frame _ _ (fun _ _ => rfl) s
  · rfl

/-- A fetch changes the queues and the context's slot alone. -/
theorem slotFetch_changes {e c k o n : Nat} {x y : Ctx} {s u : State} (h : slotFetch e c k o n x s = (y, u)) :
    y.regs = x.regs ∧ y.group = x.group ∧ ∃ q, u = { s with qm := q } := by
  have state := slotFetch_frame e c k o n x s
  rw [h] at state
  refine ⟨?_, ?_, _, state⟩ <;> unfold slotFetch at h <;> split at h <;> obtain ⟨rfl, -⟩ := Prod.mk.inj h <;> simp

/-- What is there already for one context in a slot is there for any with the same frame in it. -/
theorem slotFetch_of_fetched {e c k o n : Nat} {x y : Ctx} {s : State} (h : slotFetch e c k o n x s = (x, s))
    (hy : y.slot k = x.slot k) : slotFetch e c k o n y s = (y, s) := by
  unfold slotFetch at h ⊢
  rw [hy]
  split <;> rename_i hx
  · rw [hx] at h
    dsimp only at h ⊢
    have same := congrArg (Ctx.slot k) (Prod.mk.inj h).1
    rw [slot_setSlot_same, hx] at same
    have nothing := List.append_right_eq_self.mp (Slot.buf.inj same).2
    rw [nothing, List.append_nil, setSlot_slot (hy.trans hx)]
    rfl
  · rfl

/-! ### A context changed (R313, R336) -/

section
variable {e c : Nat}

@[simp] theorem ctx_ctxSet_same (x : Ctx) (s : State) : ctx e c (ctxSet e c x s) = x := by
  have engine : eng e (ctxSet e c x s) = { eng e s with ctxs := tput (eng e s).ctxs c x } := eng_engSet_same e _ s
  rw [ctx, engine]
  exact tget_tput_same _ _ _ _

theorem gReg_ctxSet (x : Ctx) (r : Nat) (s : State) : gReg e c r (ctxSet e c x s) = BitVec.ofNat 64 (x.get r) := by
  rw [gReg, ctx_ctxSet_same]

/-- What a context's registers read after its instruction has written one. -/
theorem gReg_ctxSet_put {x y : Ctx} {d v : Nat} {s : State} (u : State) (hx : x.regs = (ctx e c s).regs)
    (hy : y.regs = (x.put d v).regs) (r : Nat) :
    gReg e c r (ctxSet e c y u) = if r = d ∧ d ≠ 0 then BitVec.ofNat 64 v else gReg e c r s := by
  rw [gReg_ctxSet, get_congr hy, ofNat_get_put, get_congr hx]; rfl

theorem gvWrote_put (d v : Nat) (s : State) :
    GvWrote e c d (BitVec.ofNat 64 v) s (ctxSet e c ((gvIssued (ctx e c s)).put d v) s) := by
  refine ⟨gReg_ctxSet_put (x := gvIssued (ctx e c s)) s rfl rfl, ?_⟩
  rw [ctx_ctxSet_same, ← put_eq]

theorem gvAccessed_put (d v : Nat) (s u : State) :
    GvAccessed e c d (BitVec.ofNat 64 v) s u (ctxSet e c (gvAccess ((gvIssued (ctx e c s)).put d v)) u) := by
  refine ⟨gReg_ctxSet_put (x := gvIssued (ctx e c s)) u rfl rfl, ?_⟩
  rw [ctx_ctxSet_same, gvAccess, put_eq]

end

/-! ### Issue (R313, R325, R336) -/

section
variable {e : Fin 16} {c : Fin 8} {s : State} (h : GvRuns e c s)
include h

/-- An instruction that does not fault leaves its context and the rest of the state as its effect says. -/
theorem gvIssue_ok {f : Ctx → State → GvOut} {y : Ctx} {u : State} (hf : f (gvIssued (ctx e c s)) s = (.ok y, u)) :
    gvIssue e c f s = ctxSet e c y u := by
  obtain ⟨ready, within⟩ := h
  simp only [gvIssue, ready, within, hf, Bool.not_true, Bool.false_eq_true, if_false]

theorem gvG_ok {m : Nat} {w : BitVec 26} {f : Ctx → State → GvOut} {y : Ctx} {u : State}
    (hw : clearBits (wSub w) m = 0) (hf : f (gvIssued (ctx e c s)) s = (.ok y, u)) : gvG m e c w f s = ctxSet e c y u :=
  gvIssue_ok h (by simp [gvNeed, hw, hf])

theorem gvN_ok {f : Ctx → State → GvOut} {y : Ctx} {u : State} (hf : f (gvIssued (ctx e c s)) s = (.ok y, u)) :
    gvN e c 0 f s = ctxSet e c y u :=
  gvIssue_ok h (by simp [gvNeed, hf])

end

end Sys2Proof.Machine

namespace Sys2Proof.Machine

/-! ### Frames in slots (R322, R326, R327) -/

theorem slotAddr_gvIssued (e c : Nat) (w : BitVec 26) (s : State) : slotAddr w (gvIssued (ctx e c s)) =
    ((w.extractLsb' 17 1).toNat, ((gReg e c (wA w) s).toNat + (w.extractLsb' 0 14).toNat) % 2 ^ 64,
      2 ^ (w.extractLsb' 15 2).toNat) := by
  rw [slotAddr, gReg_toNat, get_gvIssued, bits_wImm w (by decide), bits_wImm w (by decide), bits_wImm w (by decide)]

theorem slotWrite_of_local {k n : Nat} {x : Ctx} {f : Fr} (h : x.slot k = .loc f n) (o : Nat) (b : List Byte) :
    slotWrite k o b x = x.setSlot k (.loc { f with data := spliceAt f.data o b } n) := by
  simp only [slotWrite, h]

theorem slotData_of_local {k n : Nat} {x : Ctx} {f : Fr} (h : x.slot k = .loc f n) (s : State) :
    slotData k x s = some (f.data.take (min n 4096)) := by simp only [slotData, h]

theorem slotBuffered_of_local {k n : Nat} {x : Ctx} {f : Fr} (h : x.slot k = .loc f n) : slotBuffered k x = false := by
  simp only [slotBuffered, h]

theorem localRoom_of_local {k n o m : Nat} {x : Ctx} {f : Fr} {s : State} (h : x.slot k = .loc f n)
    (hm : o + m ≤ (f.data.take (min n 4096)).length) : localRoom k o m x s = true := by
  simp only [localRoom, slotData_of_local h, slotBuffered_of_local h, decide_eq_true hm, Bool.not_false, Bool.and_self]

section
variable {e : Fin 16} {c : Fin 8} {w : BitVec 26} {s : State} (h : GvRuns e c s)
include h

/-- FLD within the frame: the bytes read, and a stall while cells are still being read (R337). -/
theorem execFld_of_data {k o n : Nat} {d : List Byte} {y : Ctx} {u : State}
    (ha : slotAddr w (gvIssued (ctx e c s)) = (k, o, n)) (hd : slotData k (ctx e c s) s = some d) (hn : o + n ≤ d.length)
    (hf : slotFetch e c k o n ((gvIssued (ctx e c s)).put (wD w) (loaded n (w.getLsbD 14) (leAt d o n))) s = (y, u)) :
    execFld e c w s =
      .next (ctxSet e c (if reading (.slot e c) u then { y with st := 2, stall := .fetch } else y) u) := by
  have data : slotData k (gvIssued (ctx e c s)) s = some d := hd
  refine congrArg Host.Outcome.next (gvIssue_ok h ?_)
  simp only [ha, data, bit_wImm w (show 14 < 18 by decide), hf, gvNeed, decide_eq_true hn, if_true]

/-- FST within a local frame (R322). -/
theorem execFst_of_local {k o n len : Nat} {f : Fr} (ha : slotAddr w (gvIssued (ctx e c s)) = (k, o, n))
    (hx : (ctx e c s).slot k = .loc f len) (h14 : w.getLsbD 14 = false)
    (hn : o + n ≤ (f.data.take (min len 4096)).length) : execFst e c w s =
      .next (ctxSet e c ((gvIssued (ctx e c s)).setSlot k
        (.loc { f with data := spliceAt f.data o (leBytes n (gReg e c (wD w) s).toNat) } len)) s) := by
  have slot : (gvIssued (ctx e c s)).slot k = .loc f len := hx
  refine congrArg Host.Outcome.next (gvIssue_ok h ?_)
  simp only [ha, slotData_of_local slot, slotBuffered_of_local slot, slotWrite_of_local slot,
    bit_wImm w (show 14 < 18 by decide), h14, gvNeed, decide_eq_true hn, gReg_toNat, get_gvIssued, Bool.not_false,
    Bool.and_self, if_true]

/-! ### Tables and signals (R329–R331) -/

theorem execTld_of_record {b : List Byte}
    (hb : tldRec (w.extractLsb' 12 6).toNat (gReg e c (wA w) s).toNat s = some b) : execTld e c w s =
      .next (ctxSet e c (gvAccess ((gvIssued (ctx e c s)).put (wD w) (leAt b (w.extractLsb' 0 12).toNat 8))) s) := by
  rw [gReg_toNat] at hb
  refine congrArg Host.Outcome.next (gvIssue_ok h ?_)
  simp only [bits_wImm w (show 12 + 6 ≤ 18 by decide), bits_wImm w (show 0 + 12 ≤ 18 by decide), get_gvIssued, hb]

theorem execSget_of_signal {i : Nat} (hi : (gReg e c (wA w) s).toNat = i) (hc : i < sigCount s) : execSget e c w s =
    .next (ctxSet e c (gvAccess ((gvIssued (ctx e c s)).put (wD w) (match (w.extractLsb' 0 2).toNat with
      | 0 => sigVal i s
      | 1 => (sigEnt i s).time
      | 2 => sigStatus i s + 2 ^ 16 * (sigEnt i s).cnt + 2 ^ 32 * (sigEnt i s).writer
      | _ => sigSubst i s))) s) := by
  rw [gReg_toNat] at hi
  refine congrArg Host.Outcome.next (gvIssue_ok h ?_)
  simp only [bits_wImm w (show 0 + 2 ≤ 18 by decide), get_gvIssued, hi, gvNeed, decide_eq_true hc, if_true]
    <;> rfl

theorem execSput_of_signal {i : Nat} (hw : w.extractLsb' 0 14 = 0) (hi : (gReg e c (wA w) s).toNat = i)
    (hc : i < sigCount s) (ht : sigType i s ≠ 4) (hg : (ctx e c s).group.length < 64) : execSput e c w s =
      .next (ctxSet e c { gvIssued (ctx e c s) with
        group := (ctx e c s).group ++ [⟨i, (gReg e c (wD w) s).toNat, [], 0x9000 + e.val⟩] } s) := by
  rw [gReg_toNat] at hi ⊢
  have room : ¬ 64 < (ctx e c s).group.length + 1 := by omega
  have staged : (gvIssued (ctx e c s)).group = (ctx e c s).group := rfl
  refine congrArg Host.Outcome.next (gvG_ok h (by rw [wSub_eq_zero hw]; rfl) ?_)
  simp only [get_gvIssued, hi, ht, Nat.not_le.mpr hc, or_self, if_false, gvStage, staged, List.length_singleton, room]

end

/-! ### A commit reaches the store (R280, R331) -/

@[simp] theorem evRaise_sig (g : Nat) (v : Ev) (s : State) : (evRaise g v s).sig = s.sig := by
  unfold evRaise
  split
  · rw [pendMark, markMax_frame]; rfl
  · rfl

theorem pduDue_store (p : Nat) (s : State) : (pduDue p s).sig.store = s.sig.store := by
  simp only [pduDue]
  split
  · rfl
  · split
    · rfl
    · split
      · rfl
      · rw [evRaise_sig]

theorem pduChange_store (p : Nat) (s : State) : (pduChange p s).sig.store = s.sig.store := by
  simp only [pduChange]
  split
  · rfl
  · exact pduDue_store p s

theorem each_store {α : Type} (l : List α) (f : α → State → State) (s : State)
    (h : ∀ a s, (f a s).sig.store = s.sig.store) : (each l f s).sig.store = s.sig.store :=
  foldl_keepP l (fun s a => f a s) (fun s : State => s.sig.store) (fun b a => h a b) s

theorem afterCommit_store (l : List Nat) (w : Nat) (s : State) : (afterCommit l w s).sig.store = s.sig.store := by
  have triggered := each_store (cfgIdx C.sigPdu s) (fun p s =>
    let hit := (pduMaps p s).filter fun m => l.contains (mapSig m s)
    if hit = [] then s
    else
      let s := pduSet p { pduRun p s with upd := hit.foldl sins (pduRun p s).upd } s
      if pduMode p s = 1 ∧ hit.any (fun m => bit (mapN m 4 1 s) 1 && mapChanged p m s) then pduChange p s else s) s
    fun p s => by
      dsimp only
      split
      · rfl
      · split
        · exact pduChange_store p _
        · rfl
  simp only [afterCommit]
  split
  · exact (each_store _ _ _ pduDue_store).trans triggered
  · exact triggered

/-- What follows from a commit leaves the entries as the staged writes have made them. -/
theorem sigCommit_store (ws : List Staged) (s : State) :
    (sigCommit ws s).sig.store = (ws.foldl sigWrite ([], s)).2.sig.store := by
  simp only [sigCommit, slpEval_sig]
  have marked (l : List Nat) (t : Nat × List Nat) (u : State) :
      (if l = [] then u else { u with sig := { u.sig with devNow := t } }).sig.store = u.sig.store := by
    split <;> rfl
  split
  · exact marked _ _ _
  · exact (afterCommit_store _ _ _).trans (marked _ _ _)
  · exact (each_store _ _ _ fun w => afterCommit_store _ w).trans (marked _ _ _)

theorem sigEnt_sigPut (i val : Nat) (arr : List Byte) (writer time : Nat) {s : State} (ht : sigType i s ≠ 4) :
    sigEnt i (sigPut i val arr writer time s) =
      { val := sigFit (sigType i s) (sigWidth i s) val, time := time,
        status := putBit (putBit (sigEnt i s).status 0 true) 6 (writer == 0x8000),
        cnt := ((sigEnt i s).cnt + 1) % 65536, writer := writer, arr := [] } := by
  simp only [sigPut, sigSet, sigEnt, tget_tput_same, if_neg ht]

/-- A single write to an own signal that is no array. -/
theorem sigEnt_sigCommit_single {i v n : Nat} {s : State} (ho : sigOwner i s = none) (ht : sigType i s ≠ 4) :
    sigEnt i (sigCommit [⟨i, v, [], n⟩] s) =
      { val := sigFit (sigType i s) (sigWidth i s) v, time := shortNs s,
        status := putBit (putBit (sigEnt i s).status 0 true) 6 (n == 0x8000),
        cnt := ((sigEnt i s).cnt + 1) % 65536, writer := n, arr := [] } := by
  rw [← sigEnt_sigPut i v [] n (shortNs s) ht]
  simp only [sigEnt, sigCommit_store, List.foldl_cons, List.foldl_nil, sigWrite, ho]

/-- COMMIT of a group: beside the commit, only the latency of an RX handler is kept (R309). -/
theorem execCommit_of_group {e : Fin 16} {c : Fin 8} {s : State} (h : GvRuns e c s) (hg : (ctx e c s).group ≠ []) :
    ∃ u, execCommit e c 0 s = .next (ctxSet e c (gvAccess { gvIssued (ctx e c s) with group := [] }) u) ∧
      u.sig = (sigCommit (ctx e c s).group s).sig := by
  have staged : (gvIssued (ctx e c s)).group = (ctx e c s).group := rfl
  refine ⟨_, congrArg Host.Outcome.next (gvN_ok h rfl), ?_⟩
  simp only [staged, hg, if_false]
  split
  · rw [extreme_sig, histAdd_sig, markMax_frame]
  · rfl

end Sys2Proof.Machine

namespace Sys2Proof.Machine

/-! ### PDUs of an engine (R286, R287, R292, R332) -/

/-- The state without the registers and the run states of the PDUs. -/
def besidePdus (s : State) : State := { s with regs := [], sig := { s.sig with pdus := [] } }

theorem pduSet_besidePdus (p : Nat) (x : PduRun) (s : State) : besidePdus (pduSet p x s) = besidePdus s := rfl

theorem whenInc_besidePdus (b : Bool) (f : Field) (s : State) : besidePdus (when b (inc f) s) = besidePdus s := by
  unfold when; split <;> rfl

theorem packMap_besidePdus (p : Nat) (a : Nat × State) (m : Nat) : besidePdus (packMap p a m).2 = besidePdus a.2 := by
  simp only [packMap, whenInc_besidePdus, pduSet_besidePdus]

/-- PACK reads its bytes from the store or a bank, and writes the run state of its PDU alone. -/
theorem pduPack_besidePdus (p : Nat) (s : State) : besidePdus (pduPack p s).2 = besidePdus s := by
  have mapped (l : List Nat) (v : Nat) (u : State) : besidePdus (l.foldl (packMap p) (v, u)).2 = besidePdus u :=
    foldl_keepP l (packMap p) (fun a => besidePdus a.2) (packMap_besidePdus p) (v, u)
  simp only [pduPack]
  split
  · rw [pduSet_besidePdus, whenInc_besidePdus]
  · rw [pduSet_besidePdus, mapped, whenInc_besidePdus]

theorem snap_of_besidePdus {s u : State} (h : besidePdus u = besidePdus s) (k : Nat) : snap k u = snap k s := by
  have banks : u.sig.snaps = s.sig.snaps := congrArg (·.sig.snaps) h
  rw [snap, snap, banks]

theorem pduN_of_cfg {s u : State} (h : u.cfg = s.cfg) (p o w : Nat) : pduN p o w u = pduN p o w s := by
  simp only [pduN, cfgN, cfgRec, h]

section
variable {e : Fin 16} {c : Fin 8} {w : BitVec 26} {s : State} (h : GvRuns e c s) (hw : w.extractLsb' 0 13 = 0)
variable {p o : Nat} (hp : (gReg e c (wA w) s).toNat = p) (ho : (gReg e c (wB w) s).toNat = o)
include h hw hp ho

/-- UNPACK of a PDU without profile and source node. -/
theorem execUnpack_of_plain {d : List Byte} {y : Ctx} {r u : State} {st : Nat} {l : List Staged}
    (hc : cfgHas C.sigPdu p s = true) (hs : pduN p 0x15 1 s = 0xFF) (hn : pduN p 0x20 2 s = 0xFFFF)
    (hd : slotData (wSlot w) (ctx e c s) s = some d)
    (hf : slotFetch e c (wSlot w) o (pduN p 0 2 s) (gvIssued (ctx e c s)) s = (y, r))
    (hu : pduUnpack p (d.drop o) r = (st, l, u)) (hl : (ctx e c s).group.length + l.length ≤ 64) :
    execUnpack e c w s =
      .next (ctxSet e c { gvAccess (y.put (wD w) st) with group := (ctx e c s).group ++ l } u) := by
  rw [gReg_toNat] at hp ho
  obtain ⟨regs, group, -⟩ := slotFetch_changes hf
  have data : slotData (wSlot w) (gvIssued (ctx e c s)) s = some d := hd
  have offset : y.get (wB w) = o := (get_congr regs _).trans ho
  have staged : (gvAccess (y.put (wD w) st)).group = (ctx e c s).group := by rw [put_eq]; exact group
  have room : ¬ 64 < (ctx e c s).group.length + l.length := by omega
  refine congrArg Host.Outcome.next (gvG_ok h (clearBits_wSub_slot hw) ?_)
  simp only [get_gvIssued, hp, ho, hc, hs, hn, data, hf, offset, hu, gvStage, staged, room, bne_self_eq_false, Bool.not_true,
    Bool.false_and, Bool.or_self, Bool.false_eq_true, ne_eq, not_true_eq_false, false_and, if_false]

/-- PACK into a local frame. -/
theorem execPack_of_local {n : Nat} {f : Fr} {d : List Byte} {u : State} (hc : cfgHas C.sigPdu p s = true)
    (hx : (ctx e c s).slot (wSlot w) = .loc f n) (hr : o + pduN p 0 2 s ≤ (f.data.take (min n 4096)).length)
    (hk : pduPack p s = (some d, u)) : execPack e c w s = .next (ctxSet e c (gvAccess (((gvIssued (ctx e c s)).setSlot (wSlot w)
      (.loc { f with data := spliceAt f.data o d, pdu := some p, bank := (snap (pduN p 0x1D 1 s) s).cur } n)).put (wD w) 0))
      u) := by
  rw [gReg_toNat] at hp ho
  have slot : (gvIssued (ctx e c s)).slot (wSlot w) = .loc f n := hx
  have kept : besidePdus u = besidePdus s := by simpa only [hk] using pduPack_besidePdus p s
  have number : pduN p 0x1D 1 u = pduN p 0x1D 1 s := pduN_of_cfg (congrArg (·.cfg) kept) _ _ _
  have bank : snap (pduN p 0x1D 1 s) u = snap (pduN p 0x1D 1 s) s := snap_of_besidePdus kept _
  refine congrArg Host.Outcome.next (gvG_ok h (clearBits_wSub_slot hw) ?_)
  simp only [get_gvIssued, hp, ho, hc, localRoom_of_local slot hr, hk, slotWrite_of_local slot, slotPdu,
    slot_setSlot_same, setSlot_setSlot, number, bank, Bool.not_true, Bool.false_eq_true, if_false]

end

end Sys2Proof.Machine

namespace Sys2Proof.Machine

/-! ### A request to the cipher engine (R337, R338, R399, R406) -/

/-- The registers of the gravers lie below those of the cipher engine. -/
theorem rd_ctxSet_of_lt {e c : Nat} {g : Field} (he : e < 16) (hg : (F.GRV_GVn_PEND_MSG.u 15).key < g.key) (x : Ctx)
    (s : State) : rd g (ctxSet e c x s) = rd g s := by
  have above {f : Field} (hf : f.step = F.GRV_GVn_PEND_MSG.step ∧ f.key ≤ F.GRV_GVn_PEND_MSG.key) :
      g.key ≠ (f.u e).key := by
    obtain ⟨step, key⟩ := hf
    have units : e * f.step ≤ 15 * f.step := Nat.mul_le_mul_right _ (by omega)
    simp only [Field.key, Field.u, step] at key hg units ⊢
    omega
  simp only [ctxSet, engShow]
  rw [rd_wr_ne _ _ _ _ (above (by decide)), rd_wr_ne _ _ _ _ (above (by decide)), rd_wr_ne _ _ _ _ (above (by decide))]
  rfl

theorem cipServed_congr {s t : State} (h : rd F.CIP_STAT_PAIRS t = rd F.CIP_STAT_PAIRS s) (rsv : Bool) :
    cipServed rsv t = cipServed rsv s := by simp only [cipServed, pairState, h]

/-- A request that a pair can serve waits in its queue. -/
theorem cipSubmit_of_served {r : CipReq} {s : State} (h : cipServed (decide (r.src < 4)) s = true) :
    (cipSubmit r s).2.grv = s.grv ∧ (cipSubmit r s).2.sig = s.sig ∧ (cipSubmit r s).2.cip.nextId = s.cip.nextId + 1 := by
  have served (x : Cip) : cipServed (decide (r.src < 4)) { s with cip := x } = true := h
  simp only [cipSubmit, served, Bool.not_true, Bool.false_eq_true, if_false]
  split <;> exact ⟨rfl, rfl, rfl⟩

theorem ctx_of_grv {s t : State} (h : t.grv = s.grv) (e c : Nat) : ctx e c t = ctx e c s := by simp only [ctx, eng, h]

/-- A context that submits a request waits for it. -/
theorem gvCipher_of_served {e : Nat} (c : Nat) {r : CipReq} (x : Ctx) {s : State} (he : e < 16)
    (h : cipServed (decide (r.src < 4)) s = true) :
    ∃ u, gvCipher e c r x s = (.ok { x with st := 2, stall := .cipher s.cip.nextId }, u) ∧
      u.sig = s.sig ∧ u.cip.nextId = s.cip.nextId + 1 := by
  have served : cipServed (decide (r.src < 4)) (ctxSet e c { x with st := 2, stall := .cipher s.cip.nextId } s) = true :=
    (cipServed_congr (rd_ctxSet_of_lt he (by decide) _ s) _).trans h
  obtain ⟨grv, sig, next⟩ := cipSubmit_of_served served
  exact ⟨_, Prod.ext (congrArg Except.ok ((ctx_of_grv grv e c).trans (ctx_ctxSet_same _ s))) rfl, sig, next⟩

/-- An instruction that ends in a request waits for it. -/
theorem gvG_cipher {e : Fin 16} {c : Fin 8} {s u : State} (h : GvRuns e c s) {m : Nat} {w : BitVec 26}
    {f : Ctx → State → GvOut} {r : CipReq} {x : Ctx} (hw : clearBits (wSub w) m = 0)
    (hf : f (gvIssued (ctx e c s)) s = gvCipher e c r x u) (hv : cipServed (decide (r.src < 4)) u = true) :
    ∃ t, gvG m e c w f s = ctxSet e c { x with st := 2, stall := .cipher u.cip.nextId } t ∧
      t.sig = u.sig ∧ t.cip.nextId = u.cip.nextId + 1 := by
  obtain ⟨t, asked, kept⟩ := gvCipher_of_served c.val x e.isLt hv
  exact ⟨t, gvG_ok h hw (hf.trans asked), kept⟩

/-! ### Secured PDUs (R297–R300, R332) -/

/-- The request with which SECV tries freshness f (R297, R299). -/
def secvReq (e c p o f : Nat) (x : Ctx) (s : State) : CipReq :=
  let d := ((slotData x.dslot x s).getD []).drop o
  let n := pduN p 0 2 s
  authReq e c p 7 f (d.take n) ((d.drop (n + authFb p s)).take (authTag p s)) s

theorem secvTry_cons (e c p o f : Nat) (l : List Nat) (x : Ctx) (s : State) : secvTry e c p o (f :: l) x s =
    gvCipher e c (secvReq e c p o f x s) { x with arg0 := p, arg1 := f, arg2 := o, sop := 2, cand := l } s := rfl

/-- The request with which SECG asks for the tag of freshness f (R297, R298). -/
def secgReq (e c p o f : Nat) (k : Nat) (x : Ctx) (s : State) : CipReq :=
  authReq e c p 6 f (slice ((slotData k x s).getD []) o (pduN p 0 2 s)) [] s

section
variable {e : Fin 16} {c : Fin 8} {w : BitVec 26} {s : State} (h : GvRuns e c s) (hw : w.extractLsb' 0 13 = 0)
variable {p o : Nat} (hp : (gReg e c (wA w) s).toNat = p) (ho : (gReg e c (wB w) s).toNat = o)
variable (hc : cfgHas C.sigPdu p s = true) (hs : pduN p 0x15 1 s ≠ 0xFF) (hv : cipServed (decide (e.val < 4)) s = true)
variable (hk : authNoKey p s = false) (hy : authNoSync p s = false)
include h hw hp ho hc hs hv hk hy

/-- SECV tries its first freshness candidate (R299). -/
theorem execSecv_of_candidate {d : List Byte} {f : Nat} {l : List Nat} {y : Ctx} {r : State}
    (hd : slotData (wSlot w) (ctx e c s) s = some d) (hl : o + securedLen p s ≤ d.length)
    (hf : freshCands p (slice d (o + pduN p 0 2 s) (authFb p s)) s = f :: l)
    (hg : slotFetch e c (wSlot w) o (securedLen p s) (gvIssued (ctx e c s)) s = (y, r)) :
    ∃ u, execSecv e c w s = .next (ctxSet e c { y with
        st := 2, stall := .cipher s.cip.nextId, dreg := wD w, dslot := wSlot w, arg0 := p, arg1 := f, arg2 := o, sop := 2,
        cand := l } u) ∧ u.cip.nextId = s.cip.nextId + 1 := by
  rw [gReg_toNat] at hp ho
  obtain ⟨-, -, q, rfl⟩ := slotFetch_changes hg
  have data : slotData (wSlot w) (gvIssued (ctx e c s)) s = some d := hd
  have room : ¬ d.length < o + securedLen p s := by omega
  have cands : freshCands p (slice d (o + pduN p 0 2 s) (authFb p { s with qm := q })) { s with qm := q } = f :: l := hf
  refine (gvG_cipher (u := { s with qm := q })
    (r := secvReq e c p o f { y with dreg := wD w, dslot := wSlot w } { s with qm := q })
    (x := { y with dreg := wD w, dslot := wSlot w, arg0 := p, arg1 := f, arg2 := o, sop := 2, cand := l })
    h (clearBits_wSub_slot hw) ?_ hv).imp fun t ht => ⟨congrArg Host.Outcome.next ht.1, ht.2.2⟩
  simp only [get_gvIssued, hp, ho, hc, beq_eq_false_iff_ne.mpr hs, data, room, hk, hy, hg, cands, secvTry_cons, Bool.not_true,
    Bool.or_self, Bool.false_eq_true, if_false]

/-- SECG of a PDU that has not been secured before (R298). -/
theorem execSecg_of_first (hr : localRoom (wSlot w) o (securedLen p s) (ctx e c s) s = true)
    (hn : (pduRun p s).lastF = none) :
    ∃ u, execSecg e c w s = .next (ctxSet e c { gvIssued (ctx e c s) with
        st := 2, stall := .cipher s.cip.nextId, dreg := wD w, dslot := wSlot w, arg0 := p, arg1 := freshOwn p s, arg2 := o,
        sop := 3 } u) ∧ (pduRun p u).lastF = some (freshOwn p s) ∧ u.cip.nextId = s.cip.nextId + 1 := by
  rw [gReg_toNat] at hp ho
  have room : localRoom (wSlot w) o (securedLen p s) (gvIssued (ctx e c s)) s = true := hr
  let marked := pduSet p { pduRun p s with lastF := some (freshOwn p s) } s
  have last : pduRun p marked = { pduRun p s with lastF := some (freshOwn p s) } := tget_tput_same _ _ _ _
  refine (gvG_cipher (u := marked) (r := secgReq e c p o (freshOwn p s) (wSlot w) (gvIssued (ctx e c s)) marked)
    (x := { gvIssued (ctx e c s) with
      dreg := wD w, dslot := wSlot w, arg0 := p, arg1 := freshOwn p s, arg2 := o, sop := 3 })
    h (clearBits_wSub_slot hw) ?_ hv).imp fun t ht => ⟨congrArg Host.Outcome.next ht.1, ?_, ht.2.2⟩
  · simp only [get_gvIssued, hp, ho, hc, beq_eq_false_iff_ne.mpr hs, room, hk, hy, hn, Bool.not_true, Bool.or_self,
      Bool.false_eq_true, if_false]
    rfl
  · rw [pduRun, ht.2.1]
    exact congrArg PduRun.lastF last

end

/-! ### ACF-CAN carriers of an engine (R303, R332) -/

/-- ACFADD of the frame in a slot. -/
theorem execAcfadd_of_frame {e : Fin 16} {c : Fin 8} {w : BitVec 26} {s : State} (h : GvRuns e c s)
    (hw : w.extractLsb' 0 13 = 0) {k n bus st : Nat} {f : Fr} {urgent : Bool} {d : List Byte} {y : Ctx} {r u : State}
    (hk : (gReg e c (wA w) s).toNat = k) (hc : cfgHas C.sigCarrier k s = true) (hs : sourceWaits false 7 s = false)
    (hf : slotFr (wSlot w) (ctx e c s) s = some (f, n)) (hd : slotData (wSlot w) (ctx e c s) s = some d)
    (hg : slotFetch e c (wSlot w) 0 d.length (gvIssued (ctx e c s)) s = (y, r))
    (ha : acfRoute f.src k (canOfBytes d) r = (bus, urgent)) (hu : carAdd k bus f.ts urgent (canOfBytes d) r = (st, u)) :
    execAcfadd e c w s = .next (ctxSet e c (y.put (wD w) st) u) := by
  rw [gReg_toNat] at hk
  have frame : slotFr (wSlot w) (gvIssued (ctx e c s)) s = some (f, n) := hf
  have data : slotData (wSlot w) (gvIssued (ctx e c s)) s = some d := hd
  refine congrArg Host.Outcome.next (gvG_ok h (clearBits_wSub_slot hw) ?_)
  simp only [get_gvIssued, hk, hc, hs, frame, data, hg, ha, hu, Bool.not_true, Bool.false_eq_true, if_false]

end Sys2Proof.Machine

namespace Sys2Proof.Machine

/-- Settles O20: each instruction of a context that issues has its effect on the context and, through its access, on the
store, the carrier or the cipher engine. -/
theorem graverSignalsAndFramesComplete : Obligations.GraverSignalsAndFramesComplete := by
  unfold Obligations.GraverSignalsAndFramesComplete
  refine ⟨fun e c w d s h hd hf hr hn => ?load, fun e c w d y u s h hd hn hf hr => ?fetch,
    fun e c w f n s h hx h14 hn => execFst_of_local h (slotAddr_gvIssued e c w s) hx h14 hn,
    fun e c w b s h hb => ⟨_, execTld_of_record h hb, gvAccessed_put _ _ s s⟩,
    fun e c w s h hi => ⟨_, execSget_of_signal h rfl hi, gvAccessed_put _ _ s s⟩,
    fun e c w s h hw hc ht hg => execSput_of_signal h hw rfl hc ht hg, fun e c i v n s h hg hn ho ht => ?commit,
    fun e c w d y r st l u s h hw hc hs hn hd hf hu hl => ?unpack, fun e c w f n d u s h hw hc hx hr hk => ?pack,
    fun e c w d f l y r s h hw hc hs hv hk hy hd hl hf hg => ?secv, fun e c w s h hw hc hs hv hk hy hr hn => ?secg,
    fun e c w f n bus st urgent d y r u s h hw hc hs hf hd hg ha hu => ?acfadd⟩
  case load =>
    have fetched := slotFetch_of_fetched hf (y := (gvIssued (ctx e c s)).put (wD w) (loaded (2 ^ (w.extractLsb' 15 2).toNat)
      (w.getLsbD 14) (leAt d (((gReg e c (wA w) s).toNat + (w.extractLsb' 0 14).toNat) % 2 ^ 64)
        (2 ^ (w.extractLsb' 15 2).toNat)))) (by rw [slot_put, slot_gvIssued])
    have loads := execFld_of_data h (slotAddr_gvIssued e c w s) hd hn fetched
    rw [if_neg (by simp [hr])] at loads
    exact ⟨_, loads, gvWrote_put _ _ s⟩
  case fetch =>
    have loads := execFld_of_data h (slotAddr_gvIssued e c w s) hd hn hf
    rwa [if_pos hr] at loads
  case commit =>
    obtain ⟨u, commits, sig⟩ := execCommit_of_group h (by rw [hg]; exact List.cons_ne_nil _ _)
    have host : (n == 0x8000) = false := beq_eq_false_iff_ne.mpr (by omega)
    refine ⟨_, commits, ?_, ?_, ?_, ?_⟩
    · rw [ctx_ctxSet_same]; rfl
    · rw [ctx_ctxSet_same]; rfl
    · rw [ctx_ctxSet_same]; rfl
    · rw [← host, ← sigEnt_sigCommit_single ho ht, ← hg]
      exact congrArg (fun x : Sig => tget {} x.store i) sig
  case unpack =>
    obtain ⟨regs, -, -⟩ := slotFetch_changes hf
    refine ⟨_, execUnpack_of_plain h hw rfl rfl hc hs hn hd hf hu hl, gReg_ctxSet_put u regs rfl, ?_⟩
    rw [ctx_ctxSet_same, put_eq]
    rfl
  case pack =>
    refine ⟨_, execPack_of_local h hw rfl rfl hc hx hr hk,
      gReg_ctxSet_put (x := (gvIssued (ctx e c s)).setSlot (wSlot w) _) u (setSlot_regs _ _ _) rfl, ?_, ?_, ?_, ?_⟩
    · rw [ctx_ctxSet_same, put_eq]
      exact slot_setSlot_same _ _ (gvIssued (ctx e c s))
    · rw [ctx_ctxSet_same]; rfl
    · rw [ctx_ctxSet_same]; rfl
    · rw [ctx_ctxSet_same]
  case secv =>
    obtain ⟨u, secures, next⟩ := execSecv_of_candidate h hw rfl rfl hc hs hv hk hy hd hl hf hg
    exact ⟨_, secures, ctx_ctxSet_same _ u, next⟩
  case secg =>
    obtain ⟨u, secures, last, next⟩ := execSecg_of_first h hw rfl rfl hc hs hv hk hy hr hn
    exact ⟨_, secures, ctx_ctxSet_same _ u, last, next⟩
  case acfadd =>
    obtain ⟨regs, -, -⟩ := slotFetch_changes hg
    refine ⟨_, execAcfadd_of_frame h hw rfl hc hs hf hd hg ha hu, gReg_ctxSet_put u regs rfl, ?_⟩
    rw [ctx_ctxSet_same, ← put_eq]

end Sys2Proof.Machine

namespace Sys2Proof.Machine

/-! ### Events of an engine (R290, R317, R335) -/

/-- An event that reaches an engine marks only the high-water register of the engine's queue. -/
theorem regsKept_evRaise {e : Nat} (he : e < 16) (v : Ev) (s : State) :
    RegsKept [F.GRV_GVn_PEND_HIGH.u e] s (evRaise e v s) := by
  rw [evRaise, if_pos he, pendMark]
  exact regsKept_markMax _ _ (engSet e _ s)

/-- The registers of the gravers lie below those of the signals. -/
theorem rd_evRaise_of_lt {g : Field} (hg : (F.GRV_GVn_PEND_HIGH.u 15).key < g.key) (e : Nat) (v : Ev) (s : State) :
    rd g (evRaise e v s) = rd g s := by
  by_cases he : e < 16
  · exact regsKept_evRaise he v s g fun f hf => List.mem_singleton.mp hf ▸
      Nat.ne_of_gt (key_u_lt_of_le (Nat.le_of_lt_succ he) hg)
  · rw [evRaise, if_neg he]

theorem evRaise_beside {e : Nat} (he : e < 16) (v : Ev) (s : State) :
    evRaise e v s = { s with regs := (evRaise e v s).regs, grv := (evRaise e v s).grv } := by
  simp only [evRaise, if_pos he, pendMark]
  rw [markMax_frame]
  rfl

/-- A periodic PDU that is due tells its engine (R290). -/
theorem pduDue_of_idle {p : Nat} {s : State} (hm : pduMode p s ≤ 1) (hu : pduUnsent p s = false)
    (he : evPends (pduN p 0x1C 1 s) 2 p s = false) :
    pduDue p s = evRaise (pduN p 0x1C 1 s) ⟨2, 0, p, 0, shortNs s⟩ s := by
  have periodic : ¬ (pduMode p s = 5 ∨ pduMode p s = 2) := by omega
  rw [pduDue, if_neg periodic, hu, he]
  rfl

theorem execPduDue_of_idle {p : Fin 8192} {s : State} (ha : awake s = true) (hp : pduN p 0x0C 2 s ≠ 0)
    (hm : pduMode p s ≤ 1) (hu : pduUnsent p s = false) (he : evPends (pduN p 0x1C 1 s) 2 p s = false) :
    execPduDue p s = .next (evRaise (pduN p 0x1C 1 s) ⟨2, 0, p, 0, shortNs s⟩ s) := by
  simp only [execPduDue, ha, bne_iff_ne.mpr hp, decide_eq_true hm, when, Bool.and_self, if_true, pduDue_of_idle hm hu he]

/-- A gap that ends with no change seen in it (R291). -/
theorem execMinimumGap_of_unchanged {p : Fin 8192} {s : State} (ha : awake s = true) (hg : (pduRun p s).gap = true)
    (hc : (pduRun p s).change = false) :
    execMinimumGap p s = .next (pduSet p { pduRun p s with gap := false } s) := by
  simp only [execMinimumGap, ha, hg, hc, when, and_self, if_true, Bool.false_eq_true, if_false]

/-! ### Closing a carrier (R303) -/

@[simp] theorem car_carSet_same (k : Nat) (x : CarRun) (s : State) : car k (carSet k x s) = x := tget_tput_same _ _ _ _

theorem car_of_sig {s t : State} (h : t.sig = s.sig) (k : Nat) : car k t = car k s := by simp only [car, h]

/-- A carrier whose delay ends is closed when FN7 can take its frame. -/
theorem execMaximumBatchingDelay_of_filled {k : Fin 64} {s : State} (ha : awake s = true) (hn : (car k s).count ≠ 0)
    (hw : sourceWaits false 7 s = false) : execMaximumBatchingDelay k s =
      .next (evRaise (carN k 0x19 1 s) ⟨6, 0, k, 0, shortNs s⟩ (carClose k s)) := by
  simp only [execMaximumBatchingDelay, ha, hn, hw, Bool.not_true, Bool.false_eq_true, or_self, if_false]

theorem car_carClose {k : Nat} {s : State} (h : (car k s).count ≠ 0) :
    car k (carClose k s) = { car k s with msgs := [], count := 0, seq := ((car k s).seq + 1) % 256 } := by
  simp only [carClose, if_neg h]
  rw [car_of_sig (submit_admitStep _ _ _).sig]
  exact car_carSet_same k _ s

theorem rd_sent_carClose {k : Nat} {s : State} (h : (car k s).count ≠ 0) : rd F.SIG_ACF_STAT_SENT (carClose k s) =
    (rd F.SIG_ACF_STAT_SENT s + 1) % 2 ^ F.SIG_ACF_STAT_SENT.w := by
  simp only [carClose, if_neg h]
  rw [(submit_admitStep _ _ _).2 _ (by decide), rd_incWrap_same _ _ (by decide)]
  rfl

/-! ### Dispatch (R317) -/

theorem freshes_frame (n : Nat) (s : State) : (freshes n s).2 = { s with free := (freshes n s).2.free } := by
  induction n generalizing s with
  | zero => rfl
  | succ n ih => exact ih _

/-- The registers that show a context, next to another field of the same engine's block. -/
theorem rd_ctxSet_units {f : Field} (n e c : Nat) (x : Ctx) (s : State)
    (h : ∀ g ∈ [F.GRV_GVn_STAT_BUSY, F.GRV_GVn_STAT_STALLED, F.GRV_GVn_PEND_MSG],
      f.step = g.step ∧ f.key % (32 * g.step) ≠ g.key % (32 * g.step)) : rd (f.u n) (ctxSet e c x s) = rd (f.u n) s := by
  simp only [ctxSet, engShow]
  rw [rd_wr_units _ _ _ _ (h _ (by simp)), rd_wr_units _ _ _ _ (h _ (by simp)), rd_wr_units _ _ _ _ (h _ (by simp))]
  rfl

/-- The context that an event without a frame starts (R317). -/
def startedCtx (e : Nat) (v : Ev) (u : State) : Ctx :=
  { st := 1, regs := dispatchRegs v (freshes 13 u).1, pc := (eng e u).vecs.getD v.kind 0xFFFF, ev := v, f0 := .empty }

theorem dispatchTo_of_vector {e c : Nat} {v : Ev} {s u : State} (ht : takeEvent e v s = (none, u))
    (hv : (eng e u).vecs.getD v.kind 0xFFFF ≠ 0xFFFF) : dispatchTo e c v s =
      incWrap (F.GRV_GVn_EVENTS_COUNT.u e) (ctxSet e c (startedCtx e v u) (freshes 13 u).2) := by
  simp only [dispatchTo, ht, if_neg hv]
  rfl

theorem ctx_dispatchTo {e c : Nat} {v : Ev} {s u : State} (ht : takeEvent e v s = (none, u))
    (hv : (eng e u).vecs.getD v.kind 0xFFFF ≠ 0xFFFF) : ctx e c (dispatchTo e c v s) = startedCtx e v u := by
  rw [dispatchTo_of_vector ht hv]
  exact ctx_ctxSet_same (startedCtx e v u) (freshes 13 u).2

theorem rd_events_dispatchTo {e c : Nat} {v : Ev} {s u : State} (ht : takeEvent e v s = (none, u))
    (hv : (eng e u).vecs.getD v.kind 0xFFFF ≠ 0xFFFF) : rd (F.GRV_GVn_EVENTS_COUNT.u e) (dispatchTo e c v s) =
      (rd (F.GRV_GVn_EVENTS_COUNT.u e) u + 1) % 2 ^ F.GRV_GVn_EVENTS_COUNT.w := by
  rw [dispatchTo_of_vector ht hv, rd_incWrap_unit _ _ (by decide), rd_ctxSet_units _ _ _ _ _ (by decide), freshes_frame]
  rfl

theorem execDispatch_of_event {e : Fin 16} {c : Nat} {v : Ev} {s : State} (he : engState e s = 1)
    (hr : domRuns .grv s = true) (hc : (List.range 8).find? (fun c => (ctx e c s).st == 0) = some c)
    (hv : nextEvent e s = some v) : execDispatch ⟨e, none⟩ s = .next (dispatchTo e c v s) := by
  simp only [execDispatch, he, hr, hc, hv, ne_eq, not_true_eq_false, Bool.not_true, Bool.false_eq_true, or_self, if_false]

/-! ### Stalls, timers and reloads (R335, R337, R340) -/

/-- A context goes on when the access it waits for has ended (R337). -/
theorem execStallEnd_of_access {e : Fin 16} {c : Fin 8} {s : State} (hst : (ctx e c s).st = 2)
    (hr : domRuns .grv s = true) (hn : reading (.slot e c) s = false) (ha : (ctx e c s).stall = .access) :
    execStallEnd e c s = .next (ctxSet e c { ctx e c s with st := 1, stall := .none } s) := by
  simp only [execStallEnd, hst, hr, hn, ha, ne_eq, not_true_eq_false, Bool.not_true, Bool.false_eq_true, or_self, if_false]

/-- An expired timer is disarmed and raises its event (R335). -/
theorem timerRaise_of_due {e k a : Nat} {s : State} (hk : tfind (eng e s).timers k = some a) (ha : a ≤ shortNs s) :
    timerRaise e k s =
      evRaise e ⟨7, k, 0, 0, a⟩ (engSet e { eng e s with timers := terase (eng e s).timers k } s) := by
  simp only [timerRaise, hk, if_neg (Nat.not_lt.mpr ha)]

theorem evs_timerRaise {e k a : Nat} {s : State} (he : e < 16) (hk : tfind (eng e s).timers k = some a)
    (ha : a ≤ shortNs s) : (eng e (timerRaise e k s)).evs = (eng e s).evs ++ [⟨7, k, 0, 0, a⟩] := by
  rw [timerRaise_of_due hk ha, eng_evRaise he, eng_engSet_same]

/-- An engine with a good image is filled and runs again (R340). -/
theorem execEngineReload_of_image {e : Fin 16} {d img : List Byte} {s : State} (ha : awake s = true)
    (he : engState e s = 2) (hb : domBusy .grv s = false) (hi : tfind (activeImages 0x11 s) (engImage e s) = some (d, img))
    (hd : tfind s.sys.imgGrv (engImage e s) = some d) :
    execEngineReload e s = .next (wr (F.GRV_GVn_STAT_STATE.u e) 1 (engFill e img s)) := by
  simp only [execEngineReload, ha, he, hb, hi, hd, ne_eq, not_true_eq_false, Bool.not_true, Bool.false_eq_true, or_self,
    if_false, if_true]

end Sys2Proof.Machine

namespace Sys2Proof.Machine

/-- Settles O17: each event of the signal gateway and of the engines has its effect. -/
theorem signalAndEngineEventsComplete : Obligations.SignalAndEngineEventsComplete := by
  unfold Obligations.SignalAndEngineEventsComplete
  refine ⟨fun p s ha hp hm hu he hg => ⟨_, execPduDue_of_idle ha hp hm hu he, ?_, evRaise_beside hg _ s⟩,
    fun p s ha hg hc => execMinimumGap_of_unchanged ha hg hc,
    fun k s ha hn hw => ⟨_, execMaximumBatchingDelay_of_filled ha hn hw, ?_, ?_⟩,
    fun e c v u s he hr hc hv ht hvec => ⟨_, execDispatch_of_event he hr hc hv, ?dispatch⟩,
    fun e c s hst hr hn ha => execStallEnd_of_access hst hr hn ha,
    fun e k a s ha hk hd => ⟨timerRaise e k s, ?_, timers_timerRaise hk hd, evs_timerRaise e.isLt hk hd, ?_⟩,
    fun e d img s ha he hb hi hd => ⟨_, execEngineReload_of_image ha he hb hi hd, ?reload⟩⟩
  · rw [eng_evRaise hg]
  · rw [car_of_sig (evRaise_sig _ _ _), car_carClose hn]
  · rw [rd_evRaise_of_lt (by decide), rd_sent_carClose hn]
  case dispatch =>
    rw [ctx_dispatchTo ht hvec]
    exact ⟨rfl, rfl, rfl, rfl, rd_events_dispatchTo ht hvec⟩
  · exact congrArg Host.Outcome.next (if_pos ha)
  · rw [timerRaise_of_due hk hd]
    exact evRaise_beside e.isLt _ (engSet e _ s)
  case reload =>
    have filled : eng e (wr (F.GRV_GVn_STAT_STATE.u e) 1 (engFill e img s)) = eng e (engFill e img s) := rfl
    rw [filled, engFill, eng_engSet_same]
    exact ⟨rd_wr_unit_of_lt _ _ (by decide) (by decide), rfl, rfl, rfl, regsKept_wr _ _ (engFill e img s), rfl⟩

end Sys2Proof.Machine

namespace Sys2Proof.Machine

/-! ### Register values as words (R8, R314) -/

theorem ofNat_eq_of_toNat_eq {n k : Nat} {v : BitVec n} (h : v.toNat = k) : BitVec.ofNat n k = v := by
  rw [← h, BitVec.ofNat_toNat, BitVec.setWidth_eq]

theorem sext_toNat {n : Nat} (hn : 0 < n) (x : BitVec n) : sext n x.toNat = x.toInt := by
  have half : 2 ^ n = 2 * 2 ^ (n - 1) := by rw [← Nat.pow_succ', Nat.succ_eq_add_one, Nat.sub_add_cancel hn]
  have sign : 2 * x.toNat < 2 ^ n ↔ x.toNat < 2 ^ (n - 1) := by omega
  simp only [sext, BitVec.toInt_eq_toNat_cond, Nat.mod_eq_of_lt x.isLt, sign]

theorem ofNat_twos (n : Nat) (i : Int) : BitVec.ofNat n (twos n i) = BitVec.ofInt n i :=
  ofNat_eq_of_toNat_eq (BitVec.toNat_ofInt i)

theorem bits_toNat {m : Nat} (a : BitVec m) (p n : Nat) : bits a.toNat p n = ((a >>> p).setWidth n).toNat := by
  rw [BitVec.toNat_setWidth, BitVec.toNat_ushiftRight, Nat.shiftRight_eq_div_pow, bits]

theorem ofNat_b2n {n : Nat} (p : Bool) : BitVec.ofNat n (b2n p) = if p then 1 else 0 := by cases p <;> rfl

/-- A number with the bits lo to lo + n − 1 replaced, cut at the replaced bits. -/
theorem putBits_eq (v lo n x : Nat) :
    putBits v lo n x = 2 ^ lo * (2 ^ n * (v / 2 ^ lo / 2 ^ n) + x % 2 ^ n) + v % 2 ^ lo := by
  have above : 2 ^ lo * (v / 2 ^ lo) + v % 2 ^ lo = v := Nat.div_add_mod _ _
  have within : 2 ^ n * (v / 2 ^ lo / 2 ^ n) + bits v lo n = v / 2 ^ lo := Nat.div_add_mod _ _
  rw [← within, Nat.mul_add] at above
  rw [putBits, Nat.mul_add, Nat.mul_comm _ (2 ^ lo), Nat.mul_comm _ (2 ^ lo)]
  omega

theorem testBit_putBits (v lo n x i : Nat) : (putBits v lo n x).testBit i =
    if lo ≤ i ∧ i < lo + n then x.testBit (i - lo) else v.testBit i := by
  rw [putBits_eq, Nat.testBit_two_pow_mul_add _ (Nat.mod_lt _ (Nat.two_pow_pos lo)),
    Nat.testBit_two_pow_mul_add _ (Nat.mod_lt _ (Nat.two_pow_pos n))]
  simp only [Nat.testBit_mod_two_pow, Nat.testBit_div_two_pow]
  by_cases low : i < lo
  · simp [low, Nat.not_le.mpr low]
  · by_cases mid : i - lo < n
    · simp [low, mid, show lo ≤ i ∧ i < lo + n by omega]
    · simp [low, mid, show ¬ i < lo + n by omega, show i - lo - n + n + lo = i by omega]

/-! ### The results of the opcode table (R326) -/

section
variable (a b : BitVec 64) (n : Nat)

theorem ofNat_sub_toNat : BitVec.ofNat 64 (a.toNat + 2 ^ 64 - b.toNat) = a - b := by
  apply BitVec.eq_of_toNat_eq
  rw [BitVec.toNat_ofNat, BitVec.toNat_sub]
  omega

theorem ofNat_toNat_mul_two_pow : BitVec.ofNat 64 (a.toNat * 2 ^ n) = a <<< n := by
  apply BitVec.eq_of_toNat_eq
  rw [BitVec.toNat_ofNat, BitVec.toNat_shiftLeft, Nat.shiftLeft_eq]

theorem ofNat_toNat_div_two_pow : BitVec.ofNat 64 (a.toNat / 2 ^ n) = a >>> n :=
  ofNat_eq_of_toNat_eq ((BitVec.toNat_ushiftRight a n).trans (Nat.shiftRight_eq_div_pow _ n))

theorem ofNat_sar64 : BitVec.ofNat 64 (sar64 a.toNat n) = a.sshiftRight n := by
  rw [sar64, ofNat_twos, sext_toNat (by decide)]
  exact congrArg (BitVec.ofInt 64) (Int.shiftRight_eq_div_pow a.toInt n).symm

theorem ltS_toNat : ltS a.toNat b.toNat = a.slt b := by
  rw [ltS, sext_toNat (by decide), sext_toNat (by decide), BitVec.slt_eq_decide]

theorem ofNat_twos_toNat_add (i : Int) : BitVec.ofNat 64 (twos 64 (a.toNat + i)) = a + BitVec.ofInt 64 i := by
  rw [ofNat_twos, BitVec.ofInt_add, BitVec.ofInt_natCast, BitVec.ofNat_toNat, BitVec.setWidth_eq]

/-- BFX: the field of A, extended with its sign or with zeros. -/
theorem ofNat_field (p : Nat) (hn : 0 < n) (sign : Bool) :
    BitVec.ofNat 64 (if sign then twos 64 (sext n (bits a.toNat p n)) else bits a.toNat p n) =
      if sign then ((a >>> p).setWidth n).signExtend 64 else ((a >>> p).setWidth n).setWidth 64 := by
  rw [bits_toNat, sext_toNat hn]
  cases sign with
  | true => exact ofNat_twos 64 _
  | false => exact BitVec.ofNat_toNat 64 _

/-- BFI: the field of D is cleared, and the low bits of A come in its place. -/
theorem ofNat_putBits (p : Nat) : BitVec.ofNat 64 (putBits b.toNat p n a.toNat) =
    (b &&& ~~~(BitVec.ofNat 64 (2 ^ n - 1) <<< p)) ||| ((a &&& BitVec.ofNat 64 (2 ^ n - 1)) <<< p) := by
  refine BitVec.eq_of_getLsbD_eq fun i hi => ?_
  simp only [BitVec.getLsbD_ofNat, testBit_putBits, BitVec.getLsbD_or, BitVec.getLsbD_and, BitVec.getLsbD_not,
    BitVec.getLsbD_shiftLeft, Nat.testBit_two_pow_sub_one, hi, decide_true, Bool.true_and, BitVec.testBit_toNat]
  by_cases low : i < p
  · simp [low, Nat.not_le.mpr low]
  · have rest : i - p < 64 := by omega
    have field : (p ≤ i ∧ i < p + n) ↔ i - p < n := by omega
    by_cases inside : i - p < n <;> simp [low, rest, field, inside]

end

end Sys2Proof.Machine

namespace Sys2Proof.Machine

/-! ### Instructions on the registers of a context (R324–R326) -/

theorem wImm_eq_toNat (w : BitVec 26) : wImm w = (w.extractLsb' 0 18).toNat := (toNat_extractLsb'_eq_bits w 0 18).symm

theorem wImmS_eq_toInt (w : BitVec 26) : wImmS w = (w.extractLsb' 0 18).toInt := by
  rw [wImmS, wImm_eq_toNat, sext_toNat (by decide)]

theorem toNat_imm (w : BitVec 26) : ((w.extractLsb' 0 18).setWidth 64).toNat = wImm w :=
  (BitVec.toNat_setWidth_of_le (by decide)).trans (wImm_eq_toNat w).symm

theorem wField_eq (w : BitVec 26) : wField w = ((w.extractLsb' 12 6).toNat, (w.extractLsb' 6 6).toNat + 1) := by
  rw [wField, bits_wImm w (by decide), bits_wImm w (by decide)]

section
variable {e : Fin 16} {c : Fin 8} {w : BitVec 26} {s : State} (h : GvRuns e c s) {v : BitVec 64}
include h

/-- An instruction that works on its context alone and puts k in D. -/
theorem gvLocal_wrote {f : Ctx → Except Nat Ctx} {k : Nat}
    (hf : f (gvIssued (ctx e c s)) = .ok ((gvIssued (ctx e c s)).put (wD w) k)) (hv : BitVec.ofNat 64 k = v) :
    GvWrote e c (wD w) v s (gvLocal e c f s) := by
  rw [gvLocal, gvIssue_ok h (congrArg (·, s) hf), ← hv]
  exact gvWrote_put (wD w) k s

theorem gvImm_wrote {f : Nat → Nat} (hv : BitVec.ofNat 64 (f (gReg e c (wA w) s).toNat) = v) :
    GvWrote e c (wD w) v s (gvImm e c w f s) :=
  gvLocal_wrote h rfl (by rw [← hv, gReg_toNat]; rfl)

theorem gvAlu_wrote {f : Nat → Nat → Nat} (hw : w.extractLsb' 0 14 = 0)
    (hv : BitVec.ofNat 64 (f (gReg e c (wA w) s).toNat (gReg e c (wB w) s).toNat) = v) :
    GvWrote e c (wD w) v s (gvAlu e c w f s) := by
  rw [gvAlu, gvG_ok h (by rw [wSub_eq_zero hw]; rfl) rfl, ← hv, gReg_toNat, gReg_toNat]
  exact gvWrote_put (wD w) _ s

/-- LSH: D shifted up by 16, with the immediate in the place left free. -/
theorem execLsh_wrote (ha : wA w = 0) (hw : w.extractLsb' 16 2 = 0) : ∃ t, execLsh e c w s = .next t ∧
    GvWrote e c (wD w) ((gReg e c (wD w) s <<< 16) ||| (w.extractLsb' 0 16).setWidth 64) s t := by
  have zero : bits (wImm w) 16 2 = 0 := by rw [bits_wImm w (by decide), hw]; rfl
  have value : (gReg e c (wD w) s <<< 16 ||| (w.extractLsb' 0 16).setWidth 64).toNat =
      (ctx e c s).get (wD w) * 2 ^ 16 % 2 ^ 64 ||| bits (wImm w) 0 16 := by
    rw [BitVec.toNat_or, BitVec.toNat_shiftLeft, Nat.shiftLeft_eq, gReg_toNat, BitVec.toNat_setWidth_of_le (by decide),
      bits_wImm w (by decide)]
  refine ⟨_, rfl, gvLocal_wrote h ?_ (ofNat_eq_of_toNat_eq value)⟩
  exact if_neg (not_or.mpr ⟨not_not_intro ha, not_not_intro zero⟩)

section
variable {p n : Nat} (hf : wField w = (p, n)) (hn : p + n ≤ 64)
include hf hn

theorem execBfx_wrote (h0 : 0 < n) : ∃ t, execBfx e c w s = .next t ∧ GvWrote e c (wD w)
    (if w.getLsbD 5 then ((gReg e c (wA w) s >>> p).setWidth n).signExtend 64
      else ((gReg e c (wA w) s >>> p).setWidth n).setWidth 64) s t := by
  refine ⟨_, rfl, gvLocal_wrote h ?_ (ofNat_field _ n p h0 _)⟩
  simp only [hf, if_neg (Nat.not_lt.mpr hn), bit_wImm w (show 5 < 18 by decide), gReg_toNat, get_gvIssued]

theorem execBfi_wrote (h5 : w.getLsbD 5 = false) : ∃ t, execBfi e c w s = .next t ∧ GvWrote e c (wD w)
    ((gReg e c (wD w) s &&& ~~~(BitVec.ofNat 64 (2 ^ n - 1) <<< p)) |||
      ((gReg e c (wA w) s &&& BitVec.ofNat 64 (2 ^ n - 1)) <<< p)) s t := by
  refine ⟨_, rfl, gvLocal_wrote h ?_ (ofNat_putBits _ _ n p)⟩
  simp only [hf, Nat.not_lt.mpr hn, bit_wImm w (show 5 < 18 by decide), h5, Bool.false_eq_true, or_self, if_false,
    gReg_toNat, get_gvIssued]

end

theorem execBsw_wrote (hn : w.extractLsb' 0 2 ≠ 0) : ∃ t, execBsw e c w s = .next t ∧ GvWrote e c (wD w)
    (BitVec.ofNat 64 (beNat (leBytes (2 ^ (w.extractLsb' 0 2).toNat) (gReg e c (wA w) s).toNat))) s t := by
  have size : (w.extractLsb' 0 2).toNat ≠ 0 := fun zero => hn (BitVec.eq_of_toNat_eq zero)
  refine ⟨_, rfl, gvLocal_wrote h ?_ rfl⟩
  simp only [bits_wImm w (show 0 + 2 ≤ 18 by decide), if_neg size, gReg_toNat, get_gvIssued]

end

end Sys2Proof.Machine

namespace Sys2Proof.Machine

/-- Settles O18: each instruction writes its number to D, and as a word of 64 bits that number is the result of the
opcode table. -/
theorem graverArithmeticComputes : Obligations.GraverArithmeticComputes := by
  unfold Obligations.GraverArithmeticComputes
  refine ⟨fun e c s h => congrArg Host.Outcome.next (gvN_ok h rfl),
    fun e c w s h hw => ⟨_, rfl, gvAlu_wrote h hw ?add⟩,
    fun e c w s h hw => ⟨_, rfl, gvAlu_wrote h hw (ofNat_sub_toNat _ _)⟩,
    fun e c w s h hw => ⟨_, rfl, gvAlu_wrote h hw (ofNat_eq_of_toNat_eq (BitVec.toNat_and _ _))⟩,
    fun e c w s h hw => ⟨_, rfl, gvAlu_wrote h hw (ofNat_eq_of_toNat_eq (BitVec.toNat_or _ _))⟩,
    fun e c w s h hw => ⟨_, rfl, gvAlu_wrote h hw (ofNat_eq_of_toNat_eq (BitVec.toNat_xor _ _))⟩,
    fun e c w s h hw => ⟨_, rfl, gvAlu_wrote h hw (ofNat_toNat_mul_two_pow _ _)⟩,
    fun e c w s h hw => ⟨_, rfl, gvAlu_wrote h hw (ofNat_toNat_div_two_pow _ _)⟩,
    fun e c w s h hw => ⟨_, rfl, gvAlu_wrote h hw (ofNat_sar64 _ _)⟩,
    fun e c w s h hw => ⟨_, rfl, gvAlu_wrote h hw ?mul⟩, fun e c w s h hw => ⟨_, rfl, gvAlu_wrote h hw ?slt⟩,
    fun e c w s h hw => ⟨_, rfl, gvAlu_wrote h hw (ofNat_b2n _)⟩,
    fun e c w s h => ⟨_, rfl, gvImm_wrote h ?addi⟩, fun e c w s h => ⟨_, rfl, gvImm_wrote h ?andi⟩,
    fun e c w s h => ⟨_, rfl, gvImm_wrote h ?ori⟩, fun e c w s h => ⟨_, rfl, gvImm_wrote h ?xori⟩,
    fun e c w s h => ⟨_, rfl, gvImm_wrote h ?shli⟩, fun e c w s h => ⟨_, rfl, gvImm_wrote h ?shri⟩,
    fun e c w s h => ⟨_, rfl, gvImm_wrote h ?sari⟩, fun e c w s h ha hw => execLsh_wrote h ha hw,
    fun e c w s h hn => execBfx_wrote h (wField_eq w) hn (Nat.succ_pos _),
    fun e c w s h hn h5 => execBfi_wrote h (wField_eq w) hn h5, fun e c w s h hn => execBsw_wrote h hn⟩
  case add => simp only [BitVec.ofNat_add, BitVec.ofNat_toNat, BitVec.setWidth_eq]
  case mul => simp only [BitVec.ofNat_mul, BitVec.ofNat_toNat, BitVec.setWidth_eq]
  case slt => rw [ofNat_b2n, ltS_toNat]
  case addi => rw [ofNat_twos_toNat_add, wImmS_eq_toInt]; rfl
  case andi => exact ofNat_eq_of_toNat_eq (by rw [BitVec.toNat_and, toNat_imm])
  case ori => exact ofNat_eq_of_toNat_eq (by rw [BitVec.toNat_or, toNat_imm])
  case xori => exact ofNat_eq_of_toNat_eq (by rw [BitVec.toNat_xor, toNat_imm])
  case shli => rw [bits_wImm w (by decide), ofNat_toNat_mul_two_pow]
  case shri => rw [bits_wImm w (by decide), ofNat_toNat_div_two_pow]
  case sari => rw [bits_wImm w (by decide), ofNat_sar64]

end Sys2Proof.Machine

namespace Sys2Proof.Machine

/-! ### Branches and jumps of a context (R325, R326, R328) -/

theorem put_pc (d v t : Nat) (x : Ctx) : { x.put d v with pc := t } = ({ x with pc := t } : Ctx).put d v := by
  unfold Ctx.put; split <;> rfl

theorem gvJump_inside {e t : Nat} {x : Ctx} {s : State} (ht : t < (eng e s).count) :
    gvJump e t x s = (.ok { x with pc := t }, s) := if_pos ht

section
variable {e : Fin 16} {c : Fin 8} {w : BitVec 26} {s : State} (h : GvRuns e c s)
include h

/-- A branch whose target lies inside the image goes there when its condition holds. -/
theorem gvBranch_branched {p : Nat → Nat → Bool} {b : Bool} (h0 : 0 ≤ branchTarget e c w s)
    (h1 : branchTarget e c w s < (eng e s).count)
    (hp : p (gReg e c (wD w) s).toNat (gReg e c (wA w) s).toNat = b) : GvBranched e c w b s (gvBranch e c w p s) := by
  have target : ((gvIssued (ctx e c s)).pc : Int) + wImmS w = branchTarget e c w s := by
    rw [branchTarget, wImmS_eq_toInt]
  have inside : (branchTarget e c w s).toNat < (eng e s).count := by omega
  rw [gReg_toNat, gReg_toNat] at hp
  refine gvIssue_ok h ?_
  cases b with
  | true => simp only [get_gvIssued, hp, target, Int.not_lt.mpr h0, gvJump_inside inside, if_true, if_false]
  | false => simp only [get_gvIssued, hp, Bool.false_eq_true, if_false]

theorem gvJ_ok {f : Ctx → State → GvOut} {y : Ctx} {u : State} (hw : w.extractLsb' 14 12 = 0)
    (hf : f (gvIssued (ctx e c s)) s = (.ok y, u)) : gvJ e c w f s = ctxSet e c y u := by
  have zero : bits w.toNat 14 12 = 0 := by rw [← toNat_extractLsb'_eq_bits, hw]; rfl
  exact gvIssue_ok h (by simp [gvNeed, zero, hf])

section
variable {t : Nat} (ht : t < (eng e s).count)
include ht

theorem execJmp_inside (hw : w.extractLsb' 14 12 = 0) (hj : (w.extractLsb' 0 14).toNat = t) :
    execJmp e c w s = .next (ctxSet e c { gvIssued (ctx e c s) with pc := t } s) := by
  rw [toNat_extractLsb'_eq_bits] at hj
  exact congrArg Host.Outcome.next (gvJ_ok h hw (by rw [hj, gvJump_inside ht]))

theorem execCall_inside (hw : w.extractLsb' 14 12 = 0) (hj : (w.extractLsb' 0 14).toNat = t) : execCall e c w s =
    .next (ctxSet e c (({ gvIssued (ctx e c s) with pc := t } : Ctx).put 15 (gvIssued (ctx e c s)).pc) s) := by
  rw [toNat_extractLsb'_eq_bits] at hj
  exact congrArg Host.Outcome.next (gvJ_ok h hw (by rw [hj, gvJump_inside ht, put_pc]))

theorem execJr_inside (hw : w.extractLsb' 0 14 = 0) (hj : (gReg e c (wA w) s).toNat % 2 ^ 14 = t) :
    execJr e c w s = .next (ctxSet e c { gvIssued (ctx e c s) with pc := t } s) := by
  rw [gReg_toNat] at hj
  exact congrArg Host.Outcome.next
    (gvG_ok h (by rw [wSub_eq_zero hw]; rfl) (by rw [get_gvIssued, hj, gvJump_inside ht]))

end

end

end Sys2Proof.Machine

namespace Sys2Proof.Machine

/-! ### Data memory of an engine (R321, R326, R327) -/

theorem byteAt_leBytes {n i : Nat} (v : Nat) (h : i < n) :
    BitVec.ofNat 8 (byteAt (leBytes n v) i) = BitVec.ofNat 8 (v / 256 ^ i) := by
  induction n generalizing v i with
  | zero => omega
  | succ n ih =>
    cases i with
    | zero => simp [leBytes, byteAt, BitVec.ofNat_toNat, -BitVec.toNat_ofNat]
    | succ i =>
      rw [Nat.pow_succ', ← Nat.div_div_eq_div_mul, ← ih (v / 256) (Nat.lt_of_succ_lt_succ h)]
      rfl

theorem eng_engSet_ne {n e : Nat} (h : n ≠ e) (x : Engine) (s : State) : eng n (engSet e x s) = eng n s :=
  tget_tput_ne _ _ _ _ _ h

theorem eng_ctxSet_ne {n e : Nat} (h : n ≠ e) (c : Nat) (x : Ctx) (s : State) : eng n (ctxSet e c x s) = eng n s :=
  eng_engSet_ne h _ s

theorem dmem_ctxSet (e c : Nat) (x : Ctx) (s : State) : (eng e (ctxSet e c x s)).dmem = (eng e s).dmem := by
  have engine : eng e (ctxSet e c x s) = { eng e s with ctxs := tput (eng e s).ctxs c x } := eng_engSet_same e _ s
  rw [engine]

/-- n low bytes of v written at a: they read there, little-endian, and every other byte as before. -/
theorem tget_dmemPut_leBytes {e : Nat} {s : State} (h : tsorted (eng e s).dmem = true) (a n v i : Nat) :
    tget 0 (eng e (dmemPut e a (leBytes n v) s)).dmem i =
      if a ≤ i ∧ i < a + n then BitVec.ofNat 8 (v / 256 ^ (i - a)) else tget 0 (eng e s).dmem i := by
  have written := tget_foldl_tset 0 (fun k => BitVec.ofNat 8 (byteAt (leBytes n v) k)) a n _ h i
  rw [dmemPut, eng_engSet_same, mboxPut, leBytes_length, written]
  split
  next hi => exact byteAt_leBytes v (by omega)
  next => rfl

theorem dmemAddr_gvIssued (e c : Nat) (w : BitVec 26) (s : State) : dmemAddr w (gvIssued (ctx e c s)) =
    (((gReg e c (wA w) s).toNat + (w.extractLsb' 0 15).toNat) % 2 ^ 64, 2 ^ (w.extractLsb' 16 2).toNat) := by
  rw [dmemAddr, gReg_toNat, get_gvIssued, bits_wImm w (by decide), bits_wImm w (by decide)]

theorem dmemOk_of_aligned {a n : Nat} (ha : a % n = 0) (hn : a + n ≤ 32768) : dmemOk (a, n) = true := by
  simp only [dmemOk, ha, decide_eq_true hn, beq_self_eq_true, Bool.and_self]

section
variable {e : Fin 16} {c : Fin 8} {w : BitVec 26} {s : State} (h : GvRuns e c s)
variable {a n : Nat} (hd : dmemAddr w (gvIssued (ctx e c s)) = (a, n)) (ha : a % n = 0) (hn : a + n ≤ 32768)
include h hd ha hn

theorem execLd_aligned : execLd e c w s = .next (ctxSet e c
    ((gvIssued (ctx e c s)).put (wD w) (loaded n (w.getLsbD 15) (leNat (dmemBytes e a n s)))) s) := by
  refine congrArg Host.Outcome.next (gvIssue_ok h ?_)
  simp only [hd, dmemOk_of_aligned ha hn, bit_wImm w (show 15 < 18 by decide), gvNeed, if_true]

theorem execSt_aligned (h15 : w.getLsbD 15 = false) : execSt e c w s =
    .next (ctxSet e c (gvIssued (ctx e c s)) (dmemPut e a (leBytes n (gReg e c (wD w) s).toNat) s)) := by
  refine congrArg Host.Outcome.next (gvIssue_ok h ?_)
  simp only [hd, dmemOk_of_aligned ha hn, bit_wImm w (show 15 < 18 by decide), h15, gvNeed, gReg_toNat, get_gvIssued,
    Bool.not_false, if_true]

end

end Sys2Proof.Machine

namespace Sys2Proof.Machine

/-- Settles O19: a branch inside the image goes on at its target or the next word, a jump at its target, and an aligned
access inside the DMEM reads or writes its bytes alone. -/
theorem graverBranchesAndMemoryComplete : Obligations.GraverBranchesAndMemoryComplete := by
  unfold Obligations.GraverBranchesAndMemoryComplete
  refine ⟨fun e c w s h h0 h1 => ⟨_, rfl, gvBranch_branched h h0 h1 ?beq⟩,
    fun e c w s h h0 h1 => ⟨_, rfl, gvBranch_branched h h0 h1 ?bne⟩,
    fun e c w s h h0 h1 => ⟨_, rfl, gvBranch_branched h h0 h1 (ltS_toNat _ _)⟩,
    fun e c w s h h0 h1 => ⟨_, rfl, gvBranch_branched h h0 h1 (congrArg not (ltS_toNat _ _))⟩,
    fun e c w s h h0 h1 => ⟨_, rfl, gvBranch_branched h h0 h1 rfl⟩,
    fun e c w s h h0 h1 => ⟨_, rfl, gvBranch_branched h h0 h1 ?bgeu⟩,
    fun e c w s h hw ht => execJmp_inside h ht hw rfl, fun e c w s h hw ht => ⟨_, execCall_inside h ht hw rfl, ?call⟩,
    fun e c w s h hw ht => execJr_inside h ht hw rfl,
    fun e c w s h ha hn => ⟨_, execLd_aligned h (dmemAddr_gvIssued e c w s) ha hn, gvWrote_put _ _ s⟩,
    fun e c w s h hs h15 ha hn => ⟨_, execSt_aligned h (dmemAddr_gvIssued e c w s) ha hn h15, fun a => ?store,
      ctx_ctxSet_same _ _, fun n hne => ?others, rfl⟩⟩
  case beq => exact Bool.eq_iff_iff.mpr (by rw [beq_iff_eq, beq_iff_eq, BitVec.toNat_inj])
  case bne => exact Bool.eq_iff_iff.mpr (by rw [bne_iff_ne, bne_iff_ne, ne_eq, ne_eq, BitVec.toNat_inj])
  case bgeu => rw [BitVec.ult, ← decide_not, decide_eq_decide]; exact Nat.not_lt.symm
  case call =>
    refine ⟨congrArg Ctx.pc (ctx_ctxSet_same _ s), fun r => ?_, ?_⟩
    · exact (gReg_ctxSet_put (x := { gvIssued (ctx e c s) with pc := _ }) s rfl rfl r).trans
        (ite_congr (propext (and_iff_left (by decide))) (fun _ => rfl) fun _ => rfl)
    · rw [ctx_ctxSet_same]
      exact congrArg (ctxSet e c · s) (put_eq 15 _ _)
  case store => rw [dmem_ctxSet, tget_dmemPut_leBytes hs]
  case others => exact (eng_ctxSet_ne hne _ _ _).trans (eng_engSet_ne hne _ s)

end Sys2Proof.Machine

namespace Sys2Proof.Machine

/-! ### The operations of pass A as operations on 32-bit words (R344, R352) -/

theorem twos_eq_toNat_ofInt (n : Nat) (i : Int) : twos n i = (BitVec.ofInt n i).toNat := (BitVec.toNat_ofInt i).symm

theorem twos_toInt {n : Nat} (x : BitVec n) : twos n x.toInt = x.toNat := by
  rw [twos_eq_toNat_ofInt, BitVec.ofInt_toInt]

theorem toNat_highWord (x : BitVec 64) : (x.extractLsb' 32 32).toNat = x.toNat / 2 ^ 32 := by
  rw [BitVec.extractLsb'_toNat, Nat.shiftRight_eq_div_pow, Nat.mod_eq_of_lt (by omega)]

/-- The high half of a 64-bit product, as pass A computes it from the whole product. -/
theorem twos_highWord (i : Int) : twos 32 (i / (2 ^ 32 : Nat)) = ((BitVec.ofInt 64 i).extractLsb' 32 32).toNat := by
  rw [toNat_highWord, BitVec.toNat_ofInt, twos]
  omega

theorem ofInt_tdiv_eq_sdiv {n : Nat} (a b : BitVec n) : BitVec.ofInt n (a.toInt.tdiv b.toInt) = a.sdiv b :=
  BitVec.eq_of_toInt_eq ((BitVec.toInt_ofInt _).trans (BitVec.toInt_sdiv a b).symm)

section
variable (a b : BitVec 32)

theorem aluA_add : aluA .add a.toNat b.toNat = (a + b).toNat := (BitVec.toNat_add a b).symm

theorem aluA_sub : aluA .sub a.toNat b.toNat = (a - b).toNat := by
  rw [BitVec.toNat_sub, Nat.add_comm]; rfl

theorem aluA_mul : aluA .mul a.toNat b.toNat = (a * b).toNat := (BitVec.toNat_mul a b).symm

theorem aluA_mulhu : aluA .mulhu a.toNat b.toNat = ((a.setWidth 64 * b.setWidth 64).extractLsb' 32 32).toNat := by
  have fits : a.toNat * b.toNat < 2 ^ 64 :=
    (Nat.mul_lt_mul'' a.isLt b.isLt).trans_eq (by decide)
  rw [toNat_highWord, BitVec.toNat_mul, BitVec.toNat_setWidth_of_le (by decide), BitVec.toNat_setWidth_of_le (by decide),
    Nat.mod_eq_of_lt fits]
  rfl

theorem aluA_mulh : aluA .mulh a.toNat b.toNat = ((a.signExtend 64 * b.signExtend 64).extractLsb' 32 32).toNat := by
  rw [BitVec.signExtend, BitVec.signExtend, ← BitVec.ofInt_mul, ← twos_highWord, aluA, sext_toNat (by decide),
    sext_toNat (by decide)]

theorem aluA_mulhsu : aluA .mulhsu a.toNat b.toNat = ((a.signExtend 64 * b.setWidth 64).extractLsb' 32 32).toNat := by
  rw [BitVec.signExtend, ← BitVec.ofNat_toNat, ← BitVec.ofInt_natCast, ← BitVec.ofInt_mul, ← twos_highWord, aluA,
    sext_toNat (by decide)]

theorem aluA_sll : aluA .sll a.toNat b.toNat = (a <<< (b.toNat % 32)).toNat := by
  rw [BitVec.toNat_shiftLeft, Nat.shiftLeft_eq, aluA]

theorem aluA_srl : aluA .srl a.toNat b.toNat = (a >>> (b.toNat % 32)).toNat := by
  rw [BitVec.toNat_ushiftRight, Nat.shiftRight_eq_div_pow, aluA]

theorem aluA_sra : aluA .sra a.toNat b.toNat = (a.sshiftRight (b.toNat % 32)).toNat := by
  rw [aluA, sext_toNat (by decide), twos_eq_toNat_ofInt, ← Int.shiftRight_eq_div_pow, BitVec.sshiftRight]

theorem aluA_slt : aluA .slt a.toNat b.toNat = if a.slt b then 1 else 0 := by
  rw [aluA, sext_toNat (by decide), sext_toNat (by decide), ← BitVec.slt_eq_decide, b2n]

theorem aluA_sltu : aluA .sltu a.toNat b.toNat = if a.ult b then 1 else 0 := rfl

theorem toNat_eq_zero : b.toNat = 0 ↔ b = 0 := BitVec.toNat_inj (y := 0)

theorem aluA_divu : aluA .divu a.toNat b.toNat = if b = 0 then 2 ^ 32 - 1 else (a / b).toNat := by
  simp only [aluA, toNat_eq_zero, BitVec.toNat_udiv]

theorem aluA_remu : aluA .remu a.toNat b.toNat = if b = 0 then a.toNat else (a % b).toNat := by
  simp only [aluA, toNat_eq_zero, BitVec.toNat_umod]

theorem aluA_div : aluA .div a.toNat b.toNat = if b = 0 then 2 ^ 32 - 1 else (a.sdiv b).toNat := by
  simp only [aluA, toNat_eq_zero, sext_toNat (show 0 < 32 by decide), twos_eq_toNat_ofInt, ofInt_tdiv_eq_sdiv]

theorem aluA_rem : aluA .rem a.toNat b.toNat = if b = 0 then a.toNat else (a.srem b).toNat := by
  simp only [aluA, toNat_eq_zero, sext_toNat (show 0 < 32 by decide), ← BitVec.toInt_srem, twos_toInt]

end

/-- Settles O24: pass A's arithmetic on the numbers of two words is the arithmetic of the words, operation by operation. -/
theorem rvOperationsAreRv32im : Obligations.RvOperationsAreRv32im := by
  unfold Obligations.RvOperationsAreRv32im
  refine ⟨fun a b => ?products, fun a b => ?logic, fun a b => ?quotients⟩
  case products => exact ⟨aluA_add a b, aluA_sub a b, aluA_mul a b, aluA_mulhu a b, aluA_mulh a b, aluA_mulhsu a b⟩
  case logic =>
    exact ⟨rfl, rfl, rfl, aluA_sll a b, aluA_srl a b, aluA_sra a b, aluA_slt a b, aluA_sltu a b⟩
  case quotients => exact ⟨aluA_divu a b, aluA_remu a b, aluA_div a b, aluA_rem a b⟩

end Sys2Proof.Machine

namespace Sys2Proof.Machine

/-! ### The 40-bit form of pass B (R352) -/

/-- The refilled bits copy bit 35, written as arithmetic. -/
theorem refill_eq (v : Nat) : refill v = v % 2 ^ 36 + v / 2 ^ 35 % 2 * (15 * 2 ^ 36) := by
  simp only [refill, bit, beq_iff_eq]
  split <;> omega

/-- Only the low 36 bits count for what a register is refilled to. -/
theorem refill_congr {u v : Nat} (h : u % 2 ^ 36 = v % 2 ^ 36) : refill u = refill v := by
  rw [refill_eq, refill_eq]; omega

theorem refill_eq_shiftIn {u v : Nat} (h : u % 2 ^ 36 = v % 2 ^ 32 * 16) : refill u = shiftIn v :=
  refill_congr (by omega)

theorem shiftIn_mod (v : Nat) : shiftIn v % 2 ^ 36 = v % 2 ^ 32 * 16 := by
  rw [shiftIn, refill_eq]; omega

theorem shiftIn_lt (v : Nat) : shiftIn v < 2 ^ 40 := by
  rw [shiftIn, refill_eq]; omega

theorem shiftOut_shiftIn {v : Nat} (h : v < 2 ^ 32) : shiftOut (shiftIn v) = v := by
  rw [shiftOut, shiftIn, refill_eq]; omega

theorem formOk_shiftIn (v : Nat) : formOk (shiftIn v) = true := by
  have low : shiftIn v % 16 = 0 := by rw [shiftIn, refill_eq]; omega
  have high : refill (shiftIn v) = shiftIn v := refill_congr (by rw [shiftIn_mod]; omega)
  simp [formOk, low, high]

theorem sext_shiftIn (v : Nat) : sext 40 (shiftIn v) = sext 32 v * 16 := by
  simp only [sext, shiftIn, refill_eq]
  omega

theorem shiftAmount_shiftIn (v : Nat) : bits (shiftIn v) 4 5 = v % 32 := by
  rw [bits, shiftIn, refill_eq]; omega

theorem shiftIn_b2n (p : Bool) : shiftIn (b2n p) = 16 * b2n p := by cases p <;> rfl

/-- Bit 31 of the word is the sign: it stands in bits 35 to 39 of the form. -/
theorem testBit_shiftIn (v i : Nat) : (shiftIn v).testBit i =
    (decide (4 ≤ i ∧ i < 40) && v.testBit (min (i - 4) 31)) := by
  have parts : shiftIn v = 2 ^ 36 * (if v.testBit 31 then 2 ^ 4 - 1 else 0) + v % 2 ^ 32 * 2 ^ 4 := by
    simp only [shiftIn, refill_eq, Nat.testBit_eq_decide_div_mod_eq, decide_eq_true_eq]
    split <;> omega
  rw [parts, Nat.testBit_two_pow_mul_add _ (by omega), Nat.testBit_mul_two_pow, Nat.testBit_mod_two_pow]
  by_cases word : i < 36
  · by_cases low : 4 ≤ i
    · simp [word, low, show i - 4 < 32 by omega, show i < 40 by omega, show min (i - 4) 31 = i - 4 by omega]
    · simp [word, low]
  · have sign : min (i - 4) 31 = 31 := by omega
    have top : i - 36 < 4 ↔ i < 40 := by omega
    have form : 4 ≤ i := by omega
    simp only [word, sign, form, true_and, if_false]
    cases v.testBit 31
    · simp
    · simp only [if_true, Nat.testBit_two_pow_sub_one, top, Bool.and_true]

/-- Each bit of the form is a bit of the word or 0, so bitwise logic acts on the form as on the word. -/
theorem shiftIn_bitwise {f : Bool → Bool → Bool} (hf : f false false = false) (a b : Nat) :
    shiftIn (Nat.bitwise f a b) = Nat.bitwise f (shiftIn a) (shiftIn b) := by
  refine Nat.eq_of_testBit_eq fun i => ?_
  rw [Nat.testBit_bitwise hf, testBit_shiftIn, testBit_shiftIn, testBit_shiftIn, Nat.testBit_bitwise hf]
  cases decide (4 ≤ i ∧ i < 40)
  · exact hf.symm
  · rfl

/-! ### Pass B on the forms of two words gives the form of pass A's result (R352) -/

theorem twos_lt (n : Nat) (i : Int) : twos n i < 2 ^ n := by
  rw [twos_eq_toNat_ofInt]; exact (BitVec.ofInt n i).isLt

section
variable {a b : Nat}

theorem aluB_shiftIn_add : aluB .add (shiftIn a) (shiftIn b) = shiftIn (aluA .add a b) := by
  have left := shiftIn_mod a
  have right := shiftIn_mod b
  rw [aluA]
  exact refill_eq_shiftIn (by omega)

theorem aluB_shiftIn_sub (hb : b < 2 ^ 32) : aluB .sub (shiftIn a) (shiftIn b) = shiftIn (aluA .sub a b) := by
  have left := shiftIn_mod a
  have right := shiftIn_mod b
  have form := shiftIn_lt b
  rw [aluA]
  exact refill_eq_shiftIn (by omega)

theorem aluB_shiftIn_sll : aluB .sll (shiftIn a) (shiftIn b) = shiftIn (aluA .sll a b) := by
  have shifted : shiftIn a * 2 ^ (b % 32) % 2 ^ 36 = a * 16 * 2 ^ (b % 32) % 2 ^ 36 :=
    Nat.ModEq.mul_right _ (by rw [Nat.ModEq, shiftIn_mod]; omega)
  rw [aluA, aluB, shiftAmount_shiftIn]
  refine refill_eq_shiftIn ?_
  rw [shifted, Nat.mul_right_comm]
  omega

theorem aluB_shiftIn_slt : aluB .slt (shiftIn a) (shiftIn b) = shiftIn (aluA .slt a b) := by
  have same : sext 40 (shiftIn a) < sext 40 (shiftIn b) ↔ sext 32 a < sext 32 b := by
    rw [sext_shiftIn, sext_shiftIn]; omega
  rw [aluA, aluB, shiftIn_b2n, decide_eq_decide.mpr same]

theorem aluB_shiftIn_sltu (ha : a < 2 ^ 32) (hb : b < 2 ^ 32) :
    aluB .sltu (shiftIn a) (shiftIn b) = shiftIn (aluA .sltu a b) := by
  have same : shiftIn a % 2 ^ 36 < shiftIn b % 2 ^ 36 ↔ a < b := by
    rw [shiftIn_mod, shiftIn_mod]; omega
  rw [aluA, aluB, shiftIn_b2n, decide_eq_decide.mpr same]

theorem aluB_shiftIn_srl (ha : a < 2 ^ 32) : aluB .srl (shiftIn a) (shiftIn b) = shiftIn (aluA .srl a b) := by
  have shifted : a * 16 / 2 ^ (b % 32) / 16 = a / 2 ^ (b % 32) := by
    rw [Nat.div_div_eq_div_mul, Nat.mul_div_mul_right _ _ (by decide)]
  rw [aluA, aluB, shiftAmount_shiftIn, lowCleared, shiftIn_mod, Nat.mod_eq_of_lt ha, shifted]
  exact refill_eq_shiftIn (by omega)

theorem aluB_shiftIn_sra : aluB .sra (shiftIn a) (shiftIn b) = shiftIn (aluA .sra a b) := by
  have shifted : sext 32 a / (2 ^ (b % 32) : Nat) = sext 32 a * 16 / (2 ^ (b % 32) : Nat) / 16 := by
    rw [Int.ediv_ediv_of_nonneg (Int.natCast_nonneg _), Int.mul_ediv_mul_of_pos_left _ _ (by decide)]
  rw [aluA, aluB, shiftAmount_shiftIn, sext_shiftIn, shifted]
  refine refill_eq_shiftIn ?_
  simp only [lowCleared, twos]
  omega

end

/-- The diagram of the two passes commutes: entering the form and working in pass B, or working in pass A and entering the
form. -/
theorem aluB_shiftIn (op : AluOp) {a b : Nat} (ha : a < 2 ^ 32) (hb : b < 2 ^ 32) :
    aluB op (shiftIn a) (shiftIn b) = shiftIn (aluA op a b) := by
  cases op with
  | add => exact aluB_shiftIn_add
  | sub => exact aluB_shiftIn_sub hb
  | sll => exact aluB_shiftIn_sll
  | slt => exact aluB_shiftIn_slt
  | sltu => exact aluB_shiftIn_sltu ha hb
  | xor => exact (shiftIn_bitwise rfl a b).symm
  | srl => exact aluB_shiftIn_srl ha
  | sra => exact aluB_shiftIn_sra
  | or => exact (shiftIn_bitwise rfl a b).symm
  | and => exact (shiftIn_bitwise rfl a b).symm
  | mul | mulh | mulhsu | mulhu => simp only [aluA, aluB, shiftOut_shiftIn ha, shiftOut_shiftIn hb, mul_comm]
  | div | divu | rem | remu => simp only [aluB, shiftOut_shiftIn ha, shiftOut_shiftIn hb]

/-- Pass A's results are words. -/
theorem aluA_lt (op : AluOp) {a b : Nat} (ha : a < 2 ^ 32) (hb : b < 2 ^ 32) : aluA op a b < 2 ^ 32 := by
  have flag (p : Bool) : b2n p < 2 ^ 32 := by cases p <;> decide
  have zeroDivisor {u v : Nat} (hu : u < 2 ^ 32) (hv : v < 2 ^ 32) : (if b = 0 then u else v) < 2 ^ 32 := by
    split <;> assumption
  cases op with
  | add | sub | sll | mul => exact Nat.mod_lt _ (by decide)
  | slt | sltu => exact flag _
  | xor => exact Nat.xor_lt_two_pow ha hb
  | or => exact Nat.or_lt_two_pow ha hb
  | and => exact Nat.and_lt_two_pow a hb
  | srl => exact (Nat.div_le_self _ _).trans_lt ha
  | sra | mulh | mulhsu => exact twos_lt 32 _
  | mulhu => exact Nat.div_lt_of_lt_mul (Nat.mul_lt_mul'' ha hb)
  | div => exact zeroDivisor (by decide) (twos_lt 32 _)
  | divu => exact zeroDivisor (by decide) ((Nat.div_le_self _ _).trans_lt ha)
  | rem => exact zeroDivisor ha (twos_lt 32 _)
  | remu => exact zeroDivisor ha ((Nat.mod_le _ _).trans_lt ha)

/-- Settles O23: pass B's result is the form of pass A's, and a form gives back its word and is well-formed. -/
theorem passBComputesWhatPassAComputes : Obligations.PassBComputesWhatPassAComputes := by
  unfold Obligations.PassBComputesWhatPassAComputes
  refine ⟨fun op a b ha hb => ?same, fun a ha => ⟨shiftOut_shiftIn ha, formOk_shiftIn a, shiftIn_lt a⟩⟩
  have form : alu true op (shiftIn a) (shiftIn b) = shiftIn (alu false op a b) := aluB_shiftIn op ha hb
  rw [form]
  exact ⟨shiftOut_shiftIn (aluA_lt op ha hb), formOk_shiftIn _⟩

end Sys2Proof.Machine

namespace Sys2Proof.Machine

/-! ### Control cores and their slots (R347, R365) -/

theorem core_congr {s t : State} (n : Nat) (h : t.ctl = s.ctl) : core n t = core n s := by
  rw [core, core, h]

@[simp] theorem core_coreSet_same (n : Nat) (x : Core) (s : State) : core n (coreSet n x s) = x := tget_tput_same _ _ _ _

@[simp] theorem core_taskSet_same (n k : Nat) (t : Task) (s : State) :
    core n (taskSet n k t s) = { core n s with tasks := tput (core n s).tasks k t } := core_coreSet_same n _ s

@[simp] theorem task_taskSet_same (n k : Nat) (t : Task) (s : State) : task n k (taskSet n k t s) = t := by
  simp [task]

theorem coreSet_coreSet_same (n : Nat) (x y : Core) (s : State) : coreSet n y (coreSet n x s) = coreSet n y s := by
  simp only [coreSet, tput_tput_same]

/-- What each operation of a list keeps, the whole list keeps. -/
theorem each_keeps {α γ : Type} (p : State → γ) (l : List α) (f : α → State → State) (s : State)
    (h : ∀ a s, p (f a s) = p s) : p (each l f s) = p s := foldl_keepP l (fun s a => f a s) p (fun b a => h a b) s

theorem when_keeps {γ : Type} (b : Bool) {f : State → State} (p : State → γ) {s : State} (h : p (f s) = p s) :
    p (when b f s) = p s := by
  unfold when; split
  · exact h
  · rfl

/-! ### Windows (R348, R349) -/

theorem execWindow_begun {n : Fin 4} {w : Fin 128} {s : State} (hf : (core n s).fenced = false)
    (ha : (core n s).a = none) (hm : s.pwr.mode ≤ 1) (hw : w.val ∈ winsOf n s) (hl : (winLeft n w s).isSome = true) :
    execWindow n w s = .next (wr (F.CTL_CCn_STAT_WINDOW.u n) ((winsOf n s).idxOf w.val)
      (wr (F.CTL_CCn_STAT_SLOT.u n) (winN w 7 1 s) (coreSet n { core n s with cur := some w.val } s))) := by
  have acts : ((core n s).fenced || (core n s).a.isSome || !ctlClocked s || !(winsOf n s).contains w.val ||
      (winLeft n w s).isNone) = false := by
    simp [hf, ha, ctlClocked, hm, hw, hl]
  simp only [execWindow, acts]
  rfl

/-! ### How the passes of a slice reach the comparison (R351, R363, R525) -/

theorem atBp_of_disabled {n : Nat} {s : State} (p : Pass) (h : rdB (F.DBG_CCn_BP_EN.u n) s = false) :
    atBp n p s = false := by
  simp [atBp, h]

@[simp] theorem atBp_coreSet (n m : Nat) (p : Pass) (x : Core) (s : State) : atBp n p (coreSet m x s) = atBp n p s := rfl

theorem passRuns_of_ended {p : Pass} (n k : Nat) (s : State) (h : p.ended = true) : passRuns n k p s = false := by
  simp [passRuns, h]

theorem ended_of_passRuns {n k : Nat} {p : Pass} {s : State} (h : passRuns n k p s = true) : p.ended = false := by
  simp only [passRuns, Bool.and_eq_true, Bool.not_eq_true'] at h
  obtain ⟨⟨⟨ended, -⟩, -⟩, -⟩ := h
  exact ended

theorem runA_of_ended {n : Fin 4} {p : Pass} (k fuel : Nat) (s : State) (h : p.ended = true) :
    runA n k fuel p s = (p, s) := by
  cases fuel with
  | zero => rfl
  | succ fuel => simp [runA, passRuns_of_ended n k s h]

section
variable {n : Fin 4} {s : State}

/-- A slice that begins, its pass A clear of the debugger, goes to the comparison with what pass A left. -/
theorem sliceRun_of_begun {k : Nat} {p0 p : Pass} {s0 s1 : State} (ha : (core n s).a = none)
    (hb : passBegin n false (task n k s).ctx s = (p0, s0)) (hr : runA n k (slotN n k 8 4 s0) p0 s0 = (p, s1))
    (hd : rdB (F.DBG_CCn_BP_EN.u n) s1 = false) (hs : (core n s1).suspended = false) :
    sliceRun n k .clean s = sliceEnd n k .clean p (coreSet n { core n s1 with a := some p } s1) := by
  simp [sliceRun, ha, hb, hr, when, atBp_of_disabled p hd, hs]

/-- A slice whose pass A has ended goes to the comparison. -/
theorem sliceRun_of_ended {p : Pass} (k : Nat) (he : p.ended = true) (hs : (core n s).suspended = false) :
    sliceRun n k .clean (coreSet n { core n s with a := some p } s) =
      sliceEnd n k .clean p (coreSet n { core n s with a := some p } s) := by
  simp [sliceRun, runA_of_ended k _ _ he, passRuns_of_ended n k _ he, coreSet_coreSet_same, when, hs]

/-- Passes that agree commit pass A's result. -/
theorem sliceEnd_of_agreement {k : Nat} {p b : Pass} {u : State} (hB : finishB n k p s = (b, u))
    (hv : firstVerdict .clean p b = none) : sliceEnd n k .clean p s = sliceCommit n k false p u := by
  simp [sliceEnd, hB, hv]

theorem execSlice_of_fits {i : Nat} {u : SliceUpset} (hf : (core n s).fenced = false) (hh : (core n s).halted = false)
    (hm : s.pwr.mode ≤ 1) (hu : u ≠ .itcm) (ha : (core n s).a = none) (hw : winNow n s = some i)
    (hr : slotRuns n (curSlot n s) s = true) (hfit : sliceFits n (curSlot n s) i s = true) :
    execSlice n u s = .next (sliceRun n (curSlot n s) u s) := by
  simp [execSlice, hf, hh, ctlClocked, hm, hu, ha, hw, hr, hfit]

theorem execSlice_of_late {i : Nat} {u : SliceUpset} (hf : (core n s).fenced = false) (hh : (core n s).halted = false)
    (hm : s.pwr.mode ≤ 1) (hu : u ≠ .itcm) (ha : (core n s).a = none) (hw : winNow n s = some i)
    (hr : slotRuns n (curSlot n s) s = true) (hfit : sliceFits n (curSlot n s) i s = false) :
    execSlice n u s = .next (inc (F.CTL_CCn_SKIP_COUNT.u n) (taskSet n (curSlot n s)
      { task n (curSlot n s) s with skips := min ((task n (curSlot n s) s).skips + 1) 0xFFFF } s)) := by
  simp [execSlice, hf, hh, ctlClocked, hm, hu, ha, hw, hr, hfit]

theorem execSlice_of_itcm {i : Nat} (hf : (core n s).fenced = false) (hh : (core n s).halted = false)
    (hm : s.pwr.mode ≤ 1) (hw : winNow n s = some i) (hr : slotRuns n (curSlot n s) s = true) :
    execSlice n .itcm s = .next (coreFence n 3 s) := by
  simp [execSlice, hf, hh, ctlClocked, hm, hw, hr]

end

/-! ### The commit of a slice (R350, R356) -/

theorem core_dbgCheckpoint (n : Nat) (s : State) : core n (dbgCheckpoint n s) =
    { core n s with
      halted := (core n s).halted || ((core n s).haltReq && bit (rd F.CTL_DEBUG_OPEN s) n)
      haltReq := false
      suspended := ((core n s).halted || ((core n s).haltReq && bit (rd F.CTL_DEBUG_OPEN s) n)) ||
        (bit (rd F.CTL_DEBUG_OPEN s) n && rdB (F.DBG_CCn_BP_EN.u n) s) } := by
  simp only [dbgCheckpoint]
  split
  · exact core_coreSet_same _ _ _
  · refine (core_congr n ?_).trans (core_coreSet_same _ _ s)
    rw [record_ctl]
    exact when_keeps _ State.ctl rfl

@[simp] theorem core_sliceClear (n : Nat) (s : State) :
    core n (sliceClear n s) = { core n s with a := none, b := none, log := [] } := core_coreSet_same _ _ s

theorem markMax_ctl (f : Field) (v : Nat) (s : State) : (markMax f v s).ctl = s.ctl := by
  unfold markMax; split <;> rfl

/-- A commit without stores and without WFI: the passes go, the task takes its checkpoint, and the debugger looks. -/
theorem sliceCommit_eq_dbgCheckpoint {n : Fin 4} {k : Nat} {p : Pass} (again : Bool) (s : State) (hb : p.buf = [])
    (hw : p.wfi = false) : ∃ (t : Task) (u v : State), sliceCommit n k again p s = dbgCheckpoint n v ∧
      v.ctl = (taskSet n k t (sliceClear n u)).ctl ∧ t.ctx = p.ctx ∧
      t.commits = min ((task n k (sliceClear n u)).commits + 1) 0xFFFFFFFF ∧ u.ctl = s.ctl := by
  simp only [sliceCommit, hb, hw, List.reverse_nil, each, List.foldl_nil, Bool.false_eq_true, if_false]
  refine ⟨_, _, _, rfl, markMax_ctl _ _ _, rfl, rfl, ?_⟩
  rw [extreme_ctl, histAdd_ctl]
  rfl

/-- A slice without stores and without WFI leaves its end state as the checkpoint, counted, and no pass. -/
theorem sliceCommit_of_plain {n : Fin 4} {k : Nat} {p : Pass} (again : Bool) (s : State) (hb : p.buf = [])
    (hw : p.wfi = false) : (task n k (sliceCommit n k again p s)).ctx = p.ctx ∧
      (task n k (sliceCommit n k again p s)).commits = min ((task n k s).commits + 1) 0xFFFFFFFF ∧
      (core n (sliceCommit n k again p s)).a = none := by
  obtain ⟨t, u, v, hcommit, hv, hctx, hcount, hu⟩ := sliceCommit_eq_dbgCheckpoint (n := n) (k := k) again s hb hw
  have before : task n k (sliceClear n u) = task n k s := by rw [task, core_sliceClear, core_congr n hu]; rfl
  have after : task n k (sliceCommit n k again p s) = t := by
    rw [hcommit, task, core_dbgCheckpoint, core_congr n hv]; exact task_taskSet_same n k t _
  rw [after, hctx, hcount, before]
  refine ⟨rfl, rfl, ?_⟩
  rw [hcommit, core_dbgCheckpoint, core_congr n hv, core_taskSet_same, core_sliceClear]

/-! ### One instruction of a running slice (R344, R351) -/

theorem rvStep_of_fetch {n : Fin 4} {passB : Bool} {p : Pass} {w : Nat} {s : State}
    (h : rvFetch n p.ctx.pc { p with n := p.n + 1 } s = some w) :
    rvStep n passB p s = rvExec n passB (rvDecode w).1 w (rvDecode w).2 { p with n := p.n + 1 } s := by
  simp only [rvStep, h]

section
variable {n : Fin 4} {a b : Pass} {s u : State} (hf : (core n s).fenced = false) (hh : (core n s).halted = false)
  (hm : s.pwr.mode ≤ 1) (ha : (core n s).a = some a) (hr : passRuns n (curSlot n s) a s = true)
include hf hh hm ha hr

theorem oneInstr_of_running (hstep : rvStep n false a s = (b, u)) (hd : rdB (F.DBG_CCn_BP_EN.u n) u = false) :
    oneInstr n s = coreSet n { core n u with a := some b } u := by
  simp [oneInstr, hf, hh, ctlClocked, hm, ha, hr, hstep, atBp_of_disabled b hd]

omit hf hh hm in
theorem nextInstr_of_running {w : Nat} (hw : rvFetch n a.ctx.pc a s = some w) : nextInstr n s = some (rvDecode w).1 := by
  simp [nextInstr, ha, ended_of_passRuns hr, hw]

/-- An instruction that ends pass A takes the slice to its commit when the passes agree. -/
theorem endingInstr_commits {i : Rv} {p : Pass} {w : Nat}
    (hw : rvFetch n a.ctx.pc { a with n := a.n + 1 } s = some w) (hw' : rvFetch n a.ctx.pc a s = some w)
    (hi : (rvDecode w).1 = i) (hx : rvExec n false i w (rvDecode w).2 { a with n := a.n + 1 } s = (p, s))
    (he : p.ended = true) (hd : rdB (F.DBG_CCn_BP_EN.u n) s = false) (hs : (core n s).suspended = false)
    (hB : finishB n (curSlot n s) p (coreSet n { core n s with a := some p } s) = (b, u))
    (hv : firstVerdict .clean p b = none) :
    (if nextInstr n s = some i then
      if (core n (oneInstr n s)).a.isSome && !(core n (oneInstr n s)).halted
        then sliceRun n (curSlot n (oneInstr n s)) .clean (oneInstr n s) else oneInstr n s
      else s) = sliceCommit n (curSlot n s) false p u := by
  have step : rvStep n false a s = (p, s) := (rvStep_of_fetch hw).trans (hi ▸ hx)
  have slot : curSlot n (coreSet n { core n s with a := some p } s) = curSlot n s := by
    simp only [curSlot, core_coreSet_same]; rfl
  rw [if_pos ((nextInstr_of_running ha hr hw').trans (congrArg some hi)), oneInstr_of_running hf hh hm ha hr step hd,
    core_coreSet_same, slot, if_pos (by simp [hh]), sliceRun_of_ended _ he hs, sliceEnd_of_agreement hB hv]

end

end Sys2Proof.Machine

namespace Sys2Proof.Machine

/-! ### Fences and reloads (R360–R362) -/

theorem coreUnwait_ctl (n k : Nat) (s : State) : (coreUnwait n k s).ctl = s.ctl :=
  each_keeps State.ctl _ _ s fun _ _ => rfl

theorem toHoldover_ctl (d : Nat) (s : State) : (toHoldover d s).ctl = s.ctl := by
  rw [toHoldover, inc, incBy, wr_ctl, domTo_frame]; rfl

theorem releaseFrame_ctl (f : Nat) (s : State) : (releaseFrame f s).ctl = s.ctl := by rw [releaseFrame_frame]

theorem holderRelease_of_holding {n h f : Nat} {s : State} (hf : tfind (core n s).holders h = some f) :
    holderRelease n h s =
      releaseFrame f (readStop (· == .holder n h) (holdersSet n (terase (core n s).holders h) s)) := by
  simp only [holderRelease, hf]

theorem holderRelease_ctl_of_holding {n h f : Nat} {s : State} (hf : tfind (core n s).holders h = some f) :
    (holderRelease n h s).ctl = (coreSet n { core n s with holders := terase (core n s).holders h } s).ctl := by
  rw [holderRelease_of_holding hf, releaseFrame_ctl]; rfl

/-- A released holder leaves the passes of the core. -/
theorem pass_holderRelease (n h : Nat) (s : State) : (core n (holderRelease n h s)).a = (core n s).a := by
  cases hf : tfind (core n s).holders h with
  | none => simp only [holderRelease, hf]
  | some f => rw [core_congr n (holderRelease_ctl_of_holding hf), core_coreSet_same]

theorem rd_fenceCause_toHoldover (n d : Nat) (s : State) :
    rd (F.CTL_CCn_FENCE_CAUSE.u n) (toHoldover d s) = rd (F.CTL_CCn_FENCE_CAUSE.u n) s := by
  have state : (F.CTL_CCn_FENCE_CAUSE.u n).key ≠ (F.TIME_Dn_STAT_STATE.u d).key := by
    simp only [Field.key, Field.u, F.CTL_CCn_FENCE_CAUSE, F.TIME_Dn_STAT_STATE]; omega
  have holds : (F.CTL_CCn_FENCE_CAUSE.u n).key ≠ (F.TIME_Dn_CNT_HOLDS.u d).key := by
    simp only [Field.key, Field.u, F.CTL_CCn_FENCE_CAUSE, F.TIME_Dn_CNT_HOLDS]; omega
  rw [toHoldover, rd_inc_ne _ _ _ holds, rd_congr _ _ _ (domTo_regs d 3 _), rd_wr_ne _ _ _ _ state]
  rfl

/-- Core n as a fence stops it (R361): its slices discarded, its frames released and its waits left. -/
def coreStopped (n : Nat) (s : State) : State :=
  each (List.range 16) (fun j => coreUnwait n j) (each (List.range 16) (fun h => holderRelease n h) (sliceClear n s))

/-- Core n marked as fenced at the present time. -/
def coreMarked (n : Nat) (s : State) : State :=
  coreSet n { core n s with fenced := true, cur := none, fences := (s.time.loc :: (core n s).fences).take 2 } s

/-- The fence of slot k shown in the core's registers and recorded. -/
def fenceShown (n k cause : Nat) (s : State) : State :=
  s |> inc (F.CTL_CCn_FENCE_FENCES.u n) |> wr (F.CTL_CCn_FENCE_SLOT.u n) k |> wr (F.CTL_CCn_FENCE_CAUSE.u n) cause
    |> record 0x0701 (16 * n + k) cause

/-- The LOCKED domains lose their lock with core 0. -/
def fenceHoldover (n : Nat) (s : State) : State :=
  if n = 0 then each ((List.range 4).filter fun d => domState d s == 2) toHoldover s else s

theorem coreFence_eq (n cause : Nat) (s : State) : ∃ again : Bool, coreFence n cause s =
    when again (domainFault .ctl) (safeAction n (curSlot n s)
      (fenceHoldover n (fenceShown n (curSlot n s) cause (coreMarked n (coreStopped n s))))) := by
  unfold coreFence fenceHoldover fenceShown coreMarked coreStopped
  exact ⟨_, rfl⟩

theorem fenceHoldover_keeps {γ : Type} (p : State → γ) (h : ∀ d s, p (toHoldover d s) = p s) (n : Nat) (s : State) :
    p (fenceHoldover n s) = p s := by
  unfold fenceHoldover
  split
  · exact each_keeps p _ _ s h
  · rfl

theorem fenceShown_ctl (n k cause : Nat) (s : State) : (fenceShown n k cause s).ctl = s.ctl := by
  rw [fenceShown, record_ctl]; rfl

theorem pass_coreStopped (n : Nat) (s : State) : (core n (coreStopped n s)).a = none :=
  calc (core n (coreStopped n s)).a
    _ = (core n (each (List.range 16) (holderRelease n) (sliceClear n s))).a :=
      congrArg Core.a (core_congr n (each_keeps State.ctl _ _ _ (coreUnwait_ctl n)))
    _ = (core n (sliceClear n s)).a := each_keeps (fun s => (core n s).a) _ _ _ (pass_holderRelease n)
    _ = none := by rw [core_sliceClear]

theorem core_coreMarked (n : Nat) (s : State) :
    (core n (coreMarked n s)).fenced = true ∧ (core n (coreMarked n s)).a = (core n s).a := by
  rw [coreMarked, core_coreSet_same]
  exact ⟨rfl, rfl⟩

/-- A fence marks the core as fenced, its passes gone. -/
theorem core_fenced (n k cause : Nat) (s : State) :
    (core n (fenceHoldover n (fenceShown n k cause (coreMarked n (coreStopped n s))))).fenced = true ∧
      (core n (fenceHoldover n (fenceShown n k cause (coreMarked n (coreStopped n s))))).a = none := by
  obtain ⟨hfenced, ha⟩ := core_coreMarked n (coreStopped n s)
  rw [core_congr n (fenceHoldover_keeps State.ctl toHoldover_ctl _ _), core_congr n (fenceShown_ctl _ _ _ _)]
  exact ⟨hfenced, ha.trans (pass_coreStopped n s)⟩

theorem rd_fenceCause_fenceShown (n k : Nat) {cause : Nat} (s : State) (hc : cause < 16) :
    rd (F.CTL_CCn_FENCE_CAUSE.u n) (fenceHoldover n (fenceShown n k cause s)) = cause := by
  rw [fenceHoldover_keeps (rd _) (rd_fenceCause_toHoldover n), fenceShown, rd_record, 
    rd_wr_unit_of_lt (f := F.CTL_CCn_FENCE_CAUSE) n _ hc (by decide)]

/-- A slot with action 1 is left to its reload (R361): the fence is all that happens. -/
theorem coreFence_of_reloaded {n cause : Nat} {s : State} (hc : cause < 16) (hs : slotN n (curSlot n s) 4 1 s = 1) :
    (core n (coreFence n cause s)).fenced = true ∧ rd (F.CTL_CCn_FENCE_CAUSE.u n) (coreFence n cause s) = cause ∧
      (core n (coreFence n cause s)).a = none := by
  obtain ⟨again, hfence⟩ := coreFence_eq n cause s
  have cfg : (fenceHoldover n (fenceShown n (curSlot n s) cause (coreMarked n (coreStopped n s)))).cfg = s.cfg := by
    simp [fenceHoldover, fenceShown, coreMarked, coreStopped]
  obtain ⟨hfenced, ha⟩ := core_fenced n (curSlot n s) cause s
  have hcause := rd_fenceCause_fenceShown n (curSlot n s) (coreMarked n (coreStopped n s)) hc
  generalize fenceHoldover n _ = u at *
  have action : safeAction n (curSlot n s) u = u := by
    have sameSlot : slotN n (curSlot n s) 4 1 u = 1 := by rw [slotN, cfgN, cfgRec, cfg]; exact hs
    simp only [safeAction, sameSlot]
  rw [hfence, action, core_congr n (when_keeps again State.ctl rfl), rd_congr _ _ _ (when_keeps again State.regs rfl)]
  exact ⟨hfenced, hcause, ha⟩

theorem execCoreReload_of_good {n : Fin 4} {s : State} (hw : awake s = true) (hf : (core n s).fenced = true)
    (hb : domBusy .ctl s = false) (hs : slotN n (rd (F.CTL_CCn_FENCE_SLOT.u n) s) 4 1 s ≤ 1)
    (hd : (coreImages n s).all (fun i => match tfind (activeImages 0x12 s) i with
      | some (d, _) => tfind s.sys.imgCtl i == some d
      | none => false) = true) :
    execCoreReload n true s = .next (coreStart n true (coreTested n true s)) := by
  have acts : ¬ (!awake s ∨ (core n s).fenced = false ∨ domBusy .ctl s = true ∨
      1 < slotN n (rd (F.CTL_CCn_FENCE_SLOT.u n) s) 4 1 s) := by
    simp [hw, hf, hb, hs]
  rw [execCoreReload, if_neg acts]
  exact congrArg Host.Outcome.next (if_pos hd)

theorem coreStart_regs (n : Nat) (keepHeld : Bool) (s : State) : (coreStart n keepHeld s).regs = s.regs :=
  each_regs _ _ _ fun _ _ => rfl

/-- A started core runs no slice and is not fenced. -/
theorem core_coreStart (n : Nat) (keepHeld : Bool) (s : State) :
    (core n (coreStart n keepHeld s)).fenced = false ∧ (core n (coreStart n keepHeld s)).a = none := by
  have kept : ((core n (coreStart n keepHeld s)).fenced, (core n (coreStart n keepHeld s)).a) = (false, none) := by
    refine (each_keeps (fun s => ((core n s).fenced, (core n s).a)) _ _ _ fun k s => ?_).trans ?_
    · rw [core_taskSet_same]
    · rw [core_coreSet_same]
  exact Prod.mk.inj kept

theorem bit_eq_testBit (v n : Nat) : bit v n = v.testBit n := by
  rw [Nat.testBit_eq_decide_div_mod_eq, bit, Bool.beq_eq_decide_eq]

theorem bit_putBit_true (v n : Nat) : bit (putBit v n true) n = true := by
  rw [bit_eq_testBit, putBit, testBit_putBits]; simp

theorem coreTested_shown (n : Fin 4) (s : State) :
    rd (F.CTL_CCn_STAT_SELFTEST_FAIL.u n) (coreTested n true s) = 0 ∧
      bit (rd F.CTL_SELFTEST_TESTED (coreTested n true s)) n = true := by
  have apart : F.CTL_SELFTEST_TESTED.key ≠ (F.CTL_CCn_STAT_SELFTEST_FAIL.u n).key := by
    simp only [Field.key, Field.u, F.CTL_SELFTEST_TESTED, F.CTL_CCn_STAT_SELFTEST_FAIL]; omega
  refine ⟨rd_wrB_unit n false _ (by decide), ?_⟩
  have width : F.CTL_SELFTEST_TESTED.w = 4 := rfl
  rw [coreTested, rd_wrB_ne _ _ _ _ apart, rd_wr_ne _ _ _ _ (by decide), rd_wr_same, width, bit_eq_testBit,
    Nat.testBit_mod_two_pow, Nat.testBit_mod_two_pow, ← bit_eq_testBit, bit_putBit_true,
    decide_eq_true (show n.val < 32 by omega), decide_eq_true (show n.val < 4 by omega)]
  rfl

end Sys2Proof.Machine

namespace Sys2Proof.Machine

/-! ### Frame holders (R346, R353) -/

theorem tfind_tabove {α : Type} {k : Nat} {t : Tbl α} (h : tabove k t) : tfind t k = none := by
  induction t with
  | nil => rfl
  | cons e r ih =>
    obtain ⟨j, v⟩ := e
    have above : k < j := h (j, v) List.mem_cons_self
    rw [tfind, if_neg (by omega), ih fun e he => h e (List.mem_cons_of_mem _ he)]

theorem tfind_terase {α : Type} (t : Tbl α) (k j : Nat) (h : tsorted t = true) :
    tfind (terase t k) j = if j = k then none else tfind t j := by
  induction t with
  | nil => simp [terase, tfind]
  | cons e r ih =>
    obtain ⟨i, v⟩ := e
    obtain ⟨above, sorted⟩ := (tsorted_cons i v r).mp h
    by_cases hi : i = k
    · subst hi
      by_cases hj : j = i
      · subst hj; simp [terase, tfind_tabove above]
      · simp [terase, tfind, hj, Ne.symm hj]
    · by_cases hj : i = j
      · subst hj; simp [terase, tfind, hi]
      · simp [terase, tfind, hi, hj, ih sorted]

theorem core_holdersSet (n : Nat) (t : Tbl Nat) (s : State) :
    core n (holdersSet n t s) = { core n s with holders := t } := core_coreSet_same _ _ s

@[simp] theorem qu_quSet_same (q : Nat) (x : Queue) (s : State) : qu q (quSet q x s) = x := tget_tput_same _ _ _ _

@[simp] theorem fr_frSet_same (f : Nat) (x : Fr) (s : State) : fr f (frSet f x s) = x := tget_tput_same _ _ _ _

/-- The head frame of a queue goes into the lowest free holder; its cells are asked for, and nothing is sent. -/
theorem popHolder_of_head {n q h : Nat} {e : QEnt} {l : List QEnt} {s : State} (hh : holderFree n s = some h)
    (hw : headWhole q s = true) (he : (qu q s).ents = e :: l) : ∃ t, popHolder n q s = (some h, t) ∧
      tfind (core n t).holders h = some e.fid ∧ (qu q t).ents = l ∧ t.out = s.out := by
  simp only [popHolder, hh, hw, popHead, he]
  refine ⟨_, rfl, ?_, ?_, rfl⟩
  · refine (congrArg (fun c : Core => tfind c.holders h) (core_holdersSet n _ _)).trans (tfind_tput_same _ h _)
  · exact congrArg Queue.ents (qu_quSet_same q _ s)

theorem popHolder_of_none {n q : Nat} {s : State} (h : (qu q s).ents = [] ∨ holderFree n s = none) :
    popHolder n q s = (none, s) := by
  rcases h with h | h
  · have empty : headWhole q s = false := by simp only [headWhole, h]
    simp only [popHolder, empty]
    split <;> rfl
  · simp only [popHolder, h]

theorem execPopK_of_running {n : Fin 4} {k : Fin 8} {s : State} (hf : (core n s).fenced = false)
    (hr : domRuns .ctl s = true) : execPopK n k s =
      .next (emit (.resp (leBytes 4 (popPort n k s).1)) (popPort n k s).2) := by
  simp [execPopK, hf, hr]

theorem popPort_of_some {n k h : Nat} {s t : State} (hp : popHolder n (736 + 8 * n + k) s = (some h, t)) :
    popPort n k s = (h, t) := by simp only [popPort, hp]

theorem popPort_of_none {n k : Nat} {s t : State} (hp : popHolder n (736 + 8 * n + k) s = (none, t)) :
    popPort n k s = (2 ^ 31, t) := by simp only [popPort, hp]

/-- The end of a wait leaves the entries of the queues and the holders. -/
theorem waitOver_ready (n k out : Nat) (s : State) : (task n k (waitOver n k out s)).st = 1 ∧
    (task n k (waitOver n k out s)).outcome = some out ∧ (task n k (waitOver n k out s)).waitQ = 0 ∧
    (core n (waitOver n k out s)).holders = (core n s).holders ∧ ∀ q, EntsKept q s (waitOver n k out s) := by
  have entries (q : Nat) : EntsKept q s (coreUnwait n k s) := each_ents q _ _ s fun r u => quSet_ents q r _ u rfl
  rw [waitOver, task_taskSet_same, core_taskSet_same, core_congr n (coreUnwait_ctl n k s)]
  exact ⟨rfl, rfl, rfl, rfl, entries⟩

theorem execWaitEnd_of_frame {n : Fin 4} {k : Fin 16} {q h : Nat} {s t : State} (hs : (task n k s).st = 2)
    (hq : (((bitList (task n k s).waitQ 8).map fun j => 736 + 8 * n.val + j).find?
      fun q => headWhole q s && (holderFree n s).isSome) = some q) (hp : popHolder n q s = (some h, t)) :
    execWaitEnd n k s = .next (waitOver n k h t) := by
  simp only [execWaitEnd, hs, hq, hp, if_true]

/-! ### Releasing a held frame (R346) -/

theorem releaseFrame_refs {f : Nat} {s : State} (h : 1 < (fr f s).refs) :
    (fr f (releaseFrame f s)).refs = (fr f s).refs - 1 := by
  simp [releaseFrame, unref, Nat.not_le.mpr h]

theorem holderRelease_holders {n h f : Nat} {s : State} (hf : tfind (core n s).holders h = some f) :
    (core n (holderRelease n h s)).holders = terase (core n s).holders h := by
  rw [core_congr n (holderRelease_ctl_of_holding hf), core_coreSet_same]

theorem holderRelease_ents {n h f : Nat} {s : State} (q : Nat) (hf : tfind (core n s).holders h = some f) :
    EntsKept q s (holderRelease n h s) := by
  rw [holderRelease_of_holding hf]; exact releaseFrame_ents q f _

theorem holderRelease_refs {n h f : Nat} {s : State} (hf : tfind (core n s).holders h = some f)
    (hr : 1 < (fr f s).refs) : (fr f (holderRelease n h s)).refs = (fr f s).refs - 1 := by
  rw [holderRelease_of_holding hf]; exact releaseFrame_refs hr

end Sys2Proof.Machine

namespace Sys2Proof.Machine

/-! ### Linking a held frame into a further queue (R137, R346) -/

theorem AdmitStep.ctl {s t : State} (h : AdmitStep s t) : t.ctl = s.ctl := congrArg (·.ctl) h.1

theorem admitAll_ctl {must exempt : Bool} {need c : Nat} {qs r : List (Nat × Bool × Nat)} {s u : State}
    (h : admitAll must need c exempt qs s = (r, u)) : u.ctl = s.ctl := by
  simpa only [h] using (admitAll_admitStep must need c exempt qs s).ctl

/-- A queue that admits anything admits what was offered. -/
theorem admitAll_singleton {must exempt : Bool} {need c : Nat} {q x : Nat × Bool × Nat} {l : List (Nat × Bool × Nat)}
    {s u : State} (h : admitAll must need c exempt [q] s = (x :: l, u)) : x :: l = [q] := by
  simp only [admitAll, List.foldl_cons, List.foldl_nil, List.nil_append] at h
  split at h
  · exact (Prod.mk.inj h).1.symm
  · exact absurd (Prod.mk.inj h).1 (by simp)

theorem frerGenerate_kept (f q : Nat) (s : State) : (frerGenerate f s).ctl = s.ctl ∧
    (fr f (frerGenerate f s)).refs = (fr f s).refs ∧ EntsKept q s (frerGenerate f s) := by
  simp only [frerGenerate]
  split
  · exact ⟨rfl, rfl, rfl⟩
  · exact ⟨rfl, by rw [fr_frSet_same], rfl⟩

theorem isRsvQueue_of_port {q : Nat} (h : q < 256) : isRsvQueue q = false := by
  rw [isRsvQueue, decide_eq_false (show ¬ 816 ≤ q by omega), Bool.false_and]

/-- A queue below 256 belongs to a port: linking into it sets off nothing else (R140). -/
theorem linkedInto_of_port {q : Nat} (h : q < 256) (s : State) : linkedInto q s = s := by
  simp [linkedInto, isRsvQueue_of_port h, show ¬ 944 ≤ q by omega, show ¬ 256 ≤ q by omega, show ¬ 736 ≤ q by omega]

/-- The state with one more entry of frame f, at the end of queue q. -/
def heldLinked (f q : Nat) (s : State) : State :=
  linkFrame f q false 0 (frSet f { fr f s with refs := (fr f s).refs + 1, mirs := (fr f s).mirs ||| mirMask [] } s)

theorem heldLinked_ents (f q : Nat) (s : State) : (qu q (heldLinked f q s)).ents = (qu q s).ents ++ [{ fid := f }] :=
  congrArg Queue.ents (qu_quSet_same q _ _)

theorem heldLinked_refs (f q : Nat) (s : State) : (fr f (heldLinked f q s)).refs = (fr f s).refs + 1 :=
  congrArg Fr.refs (fr_frSet_same f _ s)

/-- A port's queue that admits a held frame, with an entry free and no mirror session, gets it at its end. -/
theorem linkMore_of_admitted {f q : Nat} {x : Nat × Bool × Nat} {l : List (Nat × Bool × Nat)} {s u : State}
    (hq : q < 256)
    (ha : admitAll false (fr f s).need (fr f s).cls ((fr f s).noEvict || (fr f s).exempt) [(q, false, 0)] s = (x :: l, u))
    (hu : entriesUsed u < 262144) (hm : mirrorDests none 1 255 none [q] u = []) : ∃ t, linkMore f q s = (true, t) ∧
      t.ctl = u.ctl ∧ (qu q t).ents = (qu q u).ents ++ [{ fid := f }] ∧ (fr f t).refs = (fr f u).refs + 1 := by
  rw [admitAll_singleton ha] at ha
  refine ⟨if (fr f u).frer.isNone && decide (q < 128) then frerGenerate f (heldLinked f q u) else heldLinked f q u,
    ?_, ?_⟩
  · simp [linkMore, ha, Nat.not_le.mpr hu, hm, mirrorAdmit, each, linkedInto_of_port hq, heldLinked]
  · rw [← heldLinked_ents, ← heldLinked_refs]
    split
    · obtain ⟨ctl, refs, ents⟩ := frerGenerate_kept f q (heldLinked f q u)
      exact ⟨ctl, ents, refs⟩
    · exact ⟨rfl, rfl, rfl⟩

theorem pushPort_of_linked {n h v f : Nat} {s t : State} (hf : tfind (core n s).holders h = some f) (hq : v % 65536 < 256)
    (hl : linkMore f (v % 65536) s = (true, t)) : pushPort n h v s = if bit v 16 then t else holderRelease n h t := by
  simp [pushPort, hf, isRsvQueue_of_port hq, show ¬ 768 ≤ v % 65536 by omega, hl]

/-- A push that its queue admits links the holder's frame, which stays held until bit 16 of the word decides. -/
theorem execPushH_of_admitted {n : Fin 4} {h : Fin 16} {v : Word} {f q : Nat} {x : Nat × Bool × Nat}
    {l : List (Nat × Bool × Nat)} {s u : State} (hf : (core n s).fenced = false) (hr : domRuns .ctl s = true)
    (hh : tfind (core n s).holders h = some f) (hv : v.toNat % 65536 = q) (hq : q < 256)
    (ha : admitAll false (fr f s).need (fr f s).cls ((fr f s).noEvict || (fr f s).exempt) [(q, false, 0)] s = (x :: l, u))
    (hu : entriesUsed u < 262144) (hm : mirrorDests none 1 255 none [q] u = []) :
    ∃ t, execPushH n h v s = .next (if bit v.toNat 16 then t else holderRelease n h t) ∧ t.ctl = u.ctl ∧
      tfind (core n t).holders h = some f ∧ (qu q t).ents = (qu q u).ents ++ [{ fid := f }] ∧
      (fr f t).refs = (fr f u).refs + 1 := by
  subst hv
  obtain ⟨t, hl, hctl, hents, hcount⟩ := linkMore_of_admitted hq ha hu hm
  have pushes : execPushH n h v s = .next (pushPort n h v.toNat s) := by
    simp [execPushH, hf, hr, isRsvQueue_of_port hq]
  rw [pushPort_of_linked hh hq hl] at pushes
  exact ⟨t, pushes, hctl, by rw [core_congr n (hctl.trans (admitAll_ctl ha)), hh], hents, hcount⟩

end Sys2Proof.Machine

namespace Sys2Proof.Machine

/-- Settles O22: each event is the operation of its core that its conditions admit; the laws of the core, the holder and
the queue it writes give the rest. -/
theorem controlCoreEventsComplete : Obligations.ControlCoreEventsComplete := by
  unfold Obligations.ControlCoreEventsComplete
  refine ⟨fun n w s hf ha hm hw hl hslot => ?window, fun n i p0 p b s0 s1 s3 s hf hh hm ha hw hr hfit hb hA hd hs hB hv
      hbuf hwfi _ => ?commit,
    fun n u i s hf hh hm hu ha hw hr hfit => ?skip, fun n i s hf hh hm hw hr hslot => ?fence,
    fun n s hw hf hb hs hd => ?reload, fun n a b u s hf hh hm ha hr hstep hd => ?instruction,
    fun n a b w u s hf hh hm ha hr hw hw' hi hd hs hB hv => ?wfi,
    fun n a b w u s hf hh hm ha hr hw hw' hi hd hs hB hv => ?ecall,
    fun n k q h e l s hst hq hh he => ?waitEnd, fun n k h e l s hf hr hh hw he => ?pop,
    fun n k s hf hr hnone => ?popNone,
    fun n h v f q x l u s hf hr hh hq hport ha hu hm hkeep => ?pushKept,
    fun n h v f q x l u s hf hr hh hq hport ha hu hm hkeep hsorted hrefs => ?pushGiven,
    fun n h f s hf hr hh hsorted => ?release⟩
  case window =>
    refine ⟨_, execWindow_begun hf ha hm hw hl, core_coreSet_same _ _ s, ?_, ?_, rfl⟩
    · rw [rd_wr_units _ _ _ _ (by decide), rd_wr_unit_of_lt n _ hslot (by decide)]
    · exact (((RegsKept.of_regs rfl).trans (regsKept_wr _ _ _)).trans (regsKept_wr _ _ _))
  case commit =>
    refine ⟨_, (execSlice_of_fits hf hh hm (by decide) ha hw hr hfit).trans (congrArg _ ?_),
      sliceCommit_of_plain false s3 hbuf hwfi⟩
    rw [sliceRun_of_begun ha hb hA hd hs, sliceEnd_of_agreement hB hv]
  case skip =>
    refine ⟨_, execSlice_of_late hf hh hm hu ha hw hr hfit, ?_, rd_inc_unit n _ (by decide), rfl⟩
    exact congrArg Task.skips (task_taskSet_same _ _ _ s)
  case fence => exact ⟨_, execSlice_of_itcm hf hh hm hw hr, coreFence_of_reloaded (by decide) hslot⟩
  case reload =>
    obtain ⟨hfenced, ha⟩ := core_coreStart n true (coreTested n true s)
    obtain ⟨hfail, htested⟩ := coreTested_shown n s
    have regs := coreStart_regs n true (coreTested n true s)
    exact ⟨_, execCoreReload_of_good hw hf hb hs hd, hfenced, ha, (rd_congr _ _ _ regs).trans hfail,
      (congrArg (bit · n) (rd_congr _ _ _ regs)).trans htested⟩
  case instruction => exact congrArg Host.Outcome.next (oneInstr_of_running hf hh hm ha hr hstep hd)
  case wfi => exact congrArg Host.Outcome.next (endingInstr_commits hf hh hm ha hr hw hw' hi rfl rfl hd hs hB hv)
  case ecall => exact congrArg Host.Outcome.next (endingInstr_commits hf hh hm ha hr hw hw' hi rfl rfl hd hs hB hv)
  case waitEnd =>
    have found := List.find?_some hq
    have whole : headWhole q s = true := (Bool.and_eq_true_iff.mp found).1
    obtain ⟨t, hp, hheld, hents, -⟩ := popHolder_of_head hh whole he
    obtain ⟨hst', hout, hwait, hholders, hkept⟩ := waitOver_ready n k h t
    exact ⟨_, execWaitEnd_of_frame hst hq hp, hst', hout, hwait, (congrArg (tfind · h) hholders).trans hheld,
      Eq.trans (hkept q) hents⟩
  case pop =>
    obtain ⟨t, hp, hheld, hents, hout⟩ := popHolder_of_head hh hw he
    refine ⟨_, execPopK_of_running hf hr, ?_⟩
    rw [popPort_of_some hp]
    exact ⟨congrArg (Out.resp (leBytes 4 h) :: ·) hout, hheld, hents⟩
  case popNone =>
    refine ⟨_, execPopK_of_running hf hr, ?_⟩
    rw [popPort_of_none (popHolder_of_none hnone)]
    rfl
  case pushKept =>
    obtain ⟨t, pushed, -, holds, hents, hcount⟩ := execPushH_of_admitted hf hr hh hq hport ha hu hm
    rw [if_pos hkeep] at pushed
    exact ⟨t, pushed, hents, hcount, holds⟩
  case pushGiven =>
    obtain ⟨t, pushed, hctl, holds, hents, hcount⟩ := execPushH_of_admitted hf hr hh hq hport ha hu hm
    rw [if_neg (by simp [hkeep])] at pushed
    have sorted : tsorted (core n t).holders = true := by rw [core_congr n hctl, hsorted]
    refine ⟨_, pushed, ?_, ?_, ?_⟩
    · exact Eq.trans (holderRelease_ents _ holds) hents
    · rw [holderRelease_refs holds (by omega), hcount, Nat.add_sub_cancel]
    · rw [holderRelease_holders holds, tfind_terase _ _ _ sorted, if_pos rfl]
  case release =>
    have erased := holderRelease_holders hh
    refine ⟨holderRelease n h s, ?_, ?_, fun k hk => ?_⟩
    · simp [execRelH, hf, hr]
    · rw [erased, tfind_terase _ _ _ hsorted, if_pos rfl]
    · rw [erased, tfind_terase _ _ _ hsorted, if_neg hk]

end Sys2Proof.Machine

namespace Sys2Proof.Machine

/-! ### The life-cycle counter along commands, steps and runs (R368, R369) -/

/-- No command lowers the life-cycle counter: the starts, the life-cycle request, and what reaches its register write
through a slice, the debugger or a host by their own lemmas; every other command leaves it as it is. -/
theorem exec_lcStep (c : Instr) (s : State) : LcStep s (outState (exec c s) s) := by
  cases c with
  | powerOnReset env => exact execPowerOnReset_lc env s
  | warmReset pin env => exact execWarmReset_lc pin env s
  | wakeStart env => exact execWakeStart_lc env s
  | suppliesRemoved => exact execSuppliesRemoved_lc s
  | lcRequest who args => exact execLcRequest_lc who args s
  | slice n u => exact execSlice_lc n u s
  | wfi n => exact execWfi_lc n s
  | ecall n => exact execEcall_lc n s
  | halt who n v => exact dbgCommand_lc who n 1 v.toNat s
  | stepCore who n v => exact dbgCommand_lc who n 2 v.toNat s
  | resume who n v => exact dbgCommand_lc who n 3 v.toNat s
  | registerWrite who addr v en => exact execRegisterWrite_lc who addr v en s
  | writeApplied => exact execWriteApplied_lc s
  | _ => exact LcStep.of _ _ (by simp)

theorem idleTick_lcCount (s : State) : (idleTick s).key.lcCount = s.key.lcCount := by
  unfold idleTick; split
  · simp
  · split <;> simp

/-- A step, of a command or of a tick, does not lower the life-cycle counter. -/
theorem step_lcStep {s t : State} (h : step s = .next t) : LcStep s t := by
  cases hq : s.pending with
  | nil =>
    obtain rfl : idleTick s = t := by simpa [step_of_pending_nil hq] using h
    exact LcStep.of _ _ (idleTick_lcCount s)
  | cons c r =>
    rw [step_of_pending_cons hq] at h
    obtain rfl : outState (exec c { s with pending := r }) { s with pending := r } = t := by rw [h, outState_next]
    exact (exec_lcStep c { s with pending := r }).pre rfl

theorem runs_lcStep {n : Nat} {s t : State} (h : Runs n s t) : LcStep s t := by
  induction h with
  | zero s => exact LcStep.refl s
  | succ n s t u hstep _ ih => exact (step_lcStep hstep).trans ih

/-- Settles O42: no command lowers the counter; a step is a command or a tick, and a run composes its steps. -/
theorem lifeCycleCounterNeverFalls : Obligations.LifeCycleCounterNeverFalls := by
  unfold Obligations.LifeCycleCounterNeverFalls
  refine ⟨fun c s t h => ?command, fun n s t h => (runs_lcStep h).le⟩
  case command =>
    obtain rfl : t = outState (exec c s) s := by rw [h, outState_next]
    exact (exec_lcStep c s).le

end Sys2Proof.Machine

namespace Sys2Proof.Machine

/-! ### No command touches the queue of waiting commands (log entry 2) -/

/-- Every command leaves the commands that wait: each case is the frame lemma of the command's own operation. -/
theorem exec_pending (c : Instr) (s : State) : (outState (exec c s) s).pending = s.pending := by
  cases c with
  | _ => simp

/-- Settles O38: each command keeps the queue by its own frame lemma. -/
theorem noCommandTouchesTheQueue : Obligations.NoCommandTouchesTheQueue := by
  unfold Obligations.NoCommandTouchesTheQueue
  intro c s t h
  obtain rfl : t = outState (exec c s) s := by rw [h, outState_next]
  exact exec_pending c s

end Sys2Proof.Machine

namespace Sys2Proof.Machine

/-! ### The power-state table (R420, R421, R436) -/

/-- The commands that can change the power mode. -/
def mayChangeMode : Instr → Bool
  | .idle | .idleResume | .standbyResume | .preparationEvent _ _ | .commitPoint | .wakeStart _ | .powerOnReset _
  | .warmReset _ _ | .suppliesRemoved => true
  | _ => false

/-- Every other command leaves the power mode: each case is the frame lemma of the command's own operation. -/
theorem exec_mode_of_not_mayChangeMode (c : Instr) (s : State) (h : mayChangeMode c = false) :
    (outState (exec c s) s).pwr.mode = s.pwr.mode := by
  cases c with
  | idle | idleResume | standbyResume | preparationEvent | commitPoint | wakeStart | powerOnReset | warmReset
  | suppliesRemoved => cases h
  | _ => simp

theorem execCommitPoint_of_not_due {s : State} (h : commitDue s = false) : outState (execCommitPoint s) s = s := by
  simp [execCommitPoint, when, h]

/-- The commit point comes in ACTIVE and IDLE alone (R430). -/
theorem mode_of_commitDue {s : State} (h : commitDue s = true) : s.pwr.mode ≤ 1 := by
  simp only [commitDue, Bool.and_eq_true, decide_eq_true_eq] at h
  exact h.1.2

/-- A change of the power mode as the power-state table has it, or none. -/
def ModeStep (c : Instr) (s t : State) : Prop :=
  t.pwr.mode = s.pwr.mode ∨ match c with
    | .idle => s.pwr.mode = 0 ∧ mayIdle s = true ∧ t.pwr.mode = 1
    | .idleResume => s.pwr.mode = 1 ∧ t.pwr.mode = 0
    | .standbyResume => s.pwr.mode = 2 ∧ s.slp.toWake ≠ 0 ∧ t.pwr.mode = 0
    | .preparationEvent _ _ => s.pwr.mode ≤ 1 ∧ t.pwr.mode = 0
    | .commitPoint => s.pwr.mode ≤ 1 ∧ (t.pwr.mode = 2 ∨ t.pwr.mode = 3)
    | .wakeStart _ => s.pwr.mode = 3 ∧ s.slp.inh = true ∧ t.pwr.mode = 0
    | .powerOnReset _ => t.pwr.mode = 0
    | .warmReset _ _ => s.pwr.mode ≠ 4 ∧ t.pwr.mode = 0
    | .suppliesRemoved => t.pwr.mode = 4
    | _ => False

/-- Each command changes the power mode as its own lemma says, or keeps it. -/
theorem exec_modeStep (c : Instr) (s : State) : ModeStep c s (outState (exec c s) s) := by
  cases c with
  | idle =>
    by_cases h : s.pwr.mode = 0 ∧ mayIdle s = true
    · exact .inr ⟨h.1, h.2, (execIdle_mode s).trans (if_pos h)⟩
    · exact .inl ((execIdle_mode s).trans (if_neg h))
  | idleResume =>
    by_cases h : s.pwr.mode = 1
    · exact .inr ⟨h, (execIdleResume_mode s).trans (if_pos h)⟩
    · exact .inl ((execIdleResume_mode s).trans (if_neg h))
  | standbyResume =>
    by_cases h : s.pwr.mode = 2 ∧ s.slp.toWake ≠ 0
    · exact .inr ⟨h.1, h.2, (execStandbyResume_mode s).trans (if_pos h)⟩
    · exact .inl ((execStandbyResume_mode s).trans (if_neg h))
  | preparationEvent e gv => exact execPreparationEvent_mode e gv s
  | commitPoint =>
    cases h : commitDue s with
    | false => exact .inl (congrArg (·.pwr.mode) (execCommitPoint_of_not_due h))
    | true => exact (execCommitPoint_mode s).imp_right fun left => ⟨mode_of_commitDue h, left⟩
  | wakeStart env =>
    by_cases h : s.pwr.mode = 3 ∧ s.slp.inh = true ∧ sleepEntering s = false
    · exact .inr ⟨h.1, h.2.1, (execWakeStart_mode env s).trans (if_pos h)⟩
    · exact .inl ((execWakeStart_mode env s).trans (if_neg h))
  | powerOnReset env => exact .inr (execPowerOnReset_mode env s)
  | warmReset pin env => exact execWarmReset_mode pin env s
  | suppliesRemoved => exact .inr (execSuppliesRemoved_mode s)
  | _ => exact .inl (exec_mode_of_not_mayChangeMode _ s rfl)

/-- Every mode of the table is one of the five. -/
theorem ModeStep.legal {c : Instr} {s t : State} (h : ModeStep c s t) (hs : s.pwr.mode ≤ 4) : t.pwr.mode ≤ 4 := by
  rcases h with kept | changed
  · exact kept ▸ hs
  · cases c <;> simp only at changed <;> omega

/-- Settles O40: each command's mode lemma gives the change that the table has for it, and every mode there is legal. -/
theorem powerModeFollowsItsTable : Obligations.PowerModeFollowsItsTable := by
  unfold Obligations.PowerModeFollowsItsTable
  intro c s t h
  obtain rfl : t = outState (exec c s) s := by rw [h, outState_next]
  exact ⟨(exec_modeStep c s).legal, exec_modeStep c s⟩

end Sys2Proof.Machine

namespace Sys2Proof.Machine

/-! ### What counting a use changes (R376, R497, R498) -/

/-- The registers that a counted use, with the reservation it may write, can change. -/
def useRegs : List Field :=
  [F.KEY_SLOTS_PERSISTENT, F.KEY_SLOTS_VOLATILE, F.KEY_SLOTS_BLOCKED, F.PWR_NVM_CNT_REFUSED, F.PWR_NVM_CNT_DONE]

/-- A slot's record without its use counts: its two copies less their reservations. -/
def KeySlot.copies (x : KeySlot) : Option KeyCopy × Option KeyCopy :=
  (x.a.map fun c => { c with rsv := 0 }, x.b.map fun c => { c with rsv := 0 })

/-- t differs from s as counting uses may change it: in the slots' counts and reservations, in the waiting reservations, in
the recorder and in the registers of `useRegs`. -/
structure UseStep (s t : State) : Prop where
  beside : t = { s with regs := t.regs, rcd := t.rcd, mram := { s.mram with waiting := t.mram.waiting },
                        key := { s.key with slots := t.key.slots } }
  kept : RegsKept useRegs s t
  copies : ∀ j, (kslot j t).copies = (kslot j s).copies

namespace UseStep

theorem refl (s : State) : UseStep s s := ⟨rfl, RegsKept.refl _ s, fun _ => rfl⟩

theorem trans {s t u : State} (h : UseStep s t) (k : UseStep t u) : UseStep s u where
  beside := by rw [k.beside, h.beside]
  kept := (h.kept.trans k.kept).mono (by simp)
  copies j := (k.copies j).trans (h.copies j)

section
variable {s t : State} (h : UseStep s t)
include h

theorem cip : t.cip = s.cip := by rw [h.beside]
theorem cfg : t.cfg = s.cfg := by rw [h.beside]
theorem alm : t.alm = s.alm := by rw [h.beside]
theorem vols : t.key.vols = s.key.vols := by rw [h.beside]
theorem mbox : t.key.mbox = s.key.mbox := by rw [h.beside]
theorem lcCount : t.key.lcCount = s.key.lcCount := by rw [h.beside]

end

theorem of_regs {s t : State} (h : UseStep s t) {g : Field} (hg : ∀ f ∈ useRegs, g.key ≠ f.key) : rd g t = rd g s :=
  h.kept g hg

end UseStep

theorem recUpdate_beside (f : RecImage → RecImage) (s : State) :
    recUpdate f s = { s with rcd := (recUpdate f s).rcd } := by
  unfold recUpdate; split <;> rfl

theorem recUpdate_useStep (f : RecImage → RecImage) (s : State) : UseStep s (recUpdate f s) where
  beside := by rw [recUpdate_beside]
  kept := (RegsKept.of_regs (by simp)).mono (by simp)
  copies j := by rw [recUpdate_beside]; rfl

theorem wr_useStep {f : Field} (hf : f ∈ useRegs) (v : Nat) (s : State) : UseStep s (wr f v s) where
  beside := rfl
  kept := (regsKept_wr f v s).mono (by simpa using hf)
  copies _ := rfl

theorem holdUpCheck_useStep (row need : Nat) (s : State) : UseStep s (holdUpCheck row need s).2 := by
  have measured : UseStep s (s |> histAdd 17 16 (storedEnergy s) |> extreme 3 (storedEnergy s)) :=
    (recUpdate_useStep _ s).trans (recUpdate_useStep _ _)
  simp only [holdUpCheck]
  split
  · exact measured
  · exact (measured.trans (wr_useStep (by simp [useRegs]) _ _)).trans (recUpdate_useStep _ _)

theorem keyShow_useStep (s : State) : UseStep s (keyShow s) :=
  ((wr_useStep (by simp [useRegs]) _ s).trans (wr_useStep (by simp [useRegs]) _ _)).trans
    (wr_useStep (by simp [useRegs]) _ _)

@[simp] theorem kslot_kslotSet_same (k : Nat) (x : KeySlot) (s : State) : kslot k (kslotSet k x s) = x :=
  tget_tput_same _ _ _ _

theorem kslot_kslotSet (k j : Nat) (x : KeySlot) (s : State) :
    kslot j (kslotSet k x s) = if j = k then x else kslot j s := tget_tput _ _ _ _ _

/-- A slot written with the copies it holds: only its count and its reservations may differ. -/
theorem kslotSet_useStep (k : Nat) (x : KeySlot) (s : State) (hx : x.copies = (kslot k s).copies) :
    UseStep s (kslotSet k x s) where
  beside := rfl
  kept := (keyShow_useStep { s with key := { s.key with slots := tput s.key.slots k x } }).kept
  copies j := by
    rw [kslot_kslotSet]
    split
    case isTrue h => rw [h, hx]
    case isFalse => rfl

theorem mramApply_keyUse_useStep (k n : Nat) (s : State) : UseStep s (mramApply (.keyUse k n) s) := by
  refine kslotSet_useStep k _ s ?_
  split <;> simp [KeySlot.copies, Function.comp_def]

theorem mramNow_keyUse_useStep (k n : Nat) (s : State) : UseStep s (mramNow (.keyUse k n) s).2 := by
  have checked := holdUpCheck_useStep (mramNeed (.keyUse k n)).1 (mramNeed (.keyUse k n)).2 s
  simp only [mramNow]
  split
  · exact (checked.trans (mramApply_keyUse_useStep k n _)).trans (wr_useStep (by simp [useRegs]) _ _)
  · refine checked.trans ⟨rfl, RegsKept.refl _ _, fun _ => rfl⟩

/-- The use is counted when its reservation `r` is there. -/
theorem counted_useStep (k : Nat) {s : State} {r : Bool × State} (hr : UseStep s r.2) :
    UseStep s (if r.1 = true then (true, kslotSet k { kslot k r.2 with count := (kslot k r.2).count + 1 } r.2)
      else (false, r.2)).2 := by
  split
  · exact hr.trans (kslotSet_useStep k _ r.2 rfl)
  · exact hr

theorem useCount_useStep (k : Nat) (s : State) : UseStep s (useCount k s).2 := by
  simp only [useCount]
  split
  · exact .refl s
  · split
    · exact .refl s
    · refine counted_useStep k ?_
      split
      · exact .refl s
      · split
        · exact .refl s
        · exact mramNow_keyUse_useStep k _ s

end Sys2Proof.Machine

namespace Sys2Proof.Machine

/-! ### A pair takes its next request (R396, R400, R403, R406) -/

/-- In t, pair n has taken request r of s out of its queue and holds x as its unchecked result; no result was released. -/
def PairHolds (n : Nat) (r : CipReq) (x : CipRes) (s t : State) : Prop :=
  (pair n t).run = some (r, x) ∧ (∀ q ∈ t.cip.rsvQ ++ t.cip.bulkQ, q.id ≠ r.id) ∧ t.cip.done = s.cip.done

/-- A removed request waits in neither queue. -/
theorem cipRemove_gone (r : CipReq) (s : State) :
    ∀ q ∈ (cipRemove r s).cip.rsvQ ++ (cipRemove r s).cip.bulkQ, q.id ≠ r.id := by
  intro q hq
  simp only [cipRemove, cipShow, wr_cip, List.mem_append, List.mem_filter] at hq
  rcases hq with ⟨-, h⟩ | ⟨-, h⟩ <;> simpa using h

@[simp] theorem pair_pairSet_same (n : Nat) (p : Pair) (s : State) : pair n (pairSet n p s) = p :=
  tget_tput_same _ _ _ _

/-- Filling the pair after the request was removed. -/
theorem pairHolds_pairSet (n : Nat) (r : CipReq) (x : CipRes) {s u v : State} (hu : u.cip.done = s.cip.done)
    (hv : v = cipRemove r u ∨ v = cipCache n r.slot (cipRemove r u)) :
    PairHolds n r x s (pairSet n { pair n v with run := some (r, x) } v) := by
  have gone := cipRemove_gone r u
  refine ⟨by simp, ?_, ?_⟩ <;> rcases hv with rfl | rfl
  · exact gone
  · exact gone
  · exact hu
  · exact hu

/-- A request whose status is OK gives what its mode computes with the key of its slot. -/
theorem cipResult_of_key {r : CipReq} {k : KeyCopy} {s : State} (hst : cipStatus r s = .ok)
    (hk : slotKey r.slot s = some k) : cipResult r s = cipCompute r k.key := by
  simp [cipResult, cipResultOf, hst, hk]

/-- A keyed request of its mode, its use counted, is held with what the mode computes. -/
theorem cipRun_holds {m n : Nat} {r : CipReq} {k : KeyCopy} {u s : State} (hnext : pairNext n s = some r)
    (hm : r.mode = m) (hkeyed : m ≠ 14) (hst : cipStatus r s = .ok) (hk : slotKey r.slot s = some k)
    (hu : useCount r.slot s = (true, u)) : PairHolds n r (cipCompute r k.key) s (cipRun m n s) := by
  have counted : UseStep s u := by simpa [hu] using useCount_useStep r.slot s
  simp only [cipRun, hnext, hm, hst, hkeyed, hu, ne_eq, not_true_eq_false, not_false_eq_true, and_self, if_false, if_true,
    Bool.not_true, Bool.false_eq_true, cipResult_of_key hst hk]
  exact pairHolds_pairSet n r _ (by rw [counted.cip]) (.inr rfl)

/-- SHA-256 needs no key and counts no use. -/
theorem cipRun_sha256_holds {n : Nat} {r : CipReq} {s : State} (hnext : pairNext n s = some r) (hm : r.mode = 14)
    (hst : cipStatus r s = .ok) : PairHolds n r { out := sha256 r.data } s (cipRun 14 n s) := by
  have result : cipResult r s = { out := sha256 r.data } := by simp [cipResult, cipResultOf, hst, cipCompute, hm]
  simp only [cipRun, hnext, hm, hst, ne_eq, not_true_eq_false, and_false, if_false, Bool.not_true, Bool.false_eq_true,
    result]
  exact pairHolds_pairSet n r _ rfl (.inl rfl)

/-- The verdict of a verifying mode: 0 when the tags agree, 1 when they differ. -/
theorem b2n_bne {α : Type} [BEq α] [LawfulBEq α] [DecidableEq α] (a b : α) : b2n (a != b) = if a = b then 0 else 1 := by
  by_cases h : a = b <;> simp [b2n, h]

/-- Settles O26: every mode goes through the one run of a pair; the modes differ in what they compute. -/
theorem cipherModesComplete : Obligations.CipherModesComplete := by
  unfold Obligations.CipherModesComplete
  refine ⟨?_, ?_, ?_, ?_, ?_, ?_, ?_, ?_, ?_, ?_, ?_, ?_, ?_, ?_, ?_, ?_⟩
  case refine_14 =>
    intro n r s hnext hm hst
    exact ⟨_, rfl, cipRun_sha256_holds hnext hm hst⟩
  all_goals
    intro n r k u s hnext hm hst hk hu
    have held := cipRun_holds hnext hm (by decide) hst hk hu
    simp only [cipCompute, hm, b2n_bne] at held
    exact ⟨_, rfl, held⟩

end Sys2Proof.Machine

namespace Sys2Proof.Machine

/-! ### The SCI of an installed transmit association (R413, R416) -/

/-- A transmit SAK on an enabled port: the association carries the SCI of the port record, not the request's. -/
theorem exec_sakInstallation_sci {port : Fin 16} {sa : SaInstall} {s : State}
    (hkey : (sa.key.length == 16 || sa.key.length == 32) = true) (hsalt : (sa.salt.length == 12) = true)
    (hon : macsecOn port s = true) (htx : sa.tx = true) :
    ∃ t, exec (.sakInstallation port sa) s = .next t ∧
      (msSa port sa.an t).map (·.sci) = some (beNat (slice (cfgRec C.msPort port s) 0x10 8)) := by
  refine ⟨_, by simp [execSakInstallation, guardWf, hkey, hsalt, hon, htx]; rfl, ?_⟩
  exact congrArg (Option.map _) (tfind_tput_same _ _ _)

/-- A port enabled by a record that gives no SCI bytes. -/
def enabledPort : State := witRec C.msPort 0 [1] {}

/-- A transmit SAK whose request names SCI 1. -/
def sakWithSci : SaInstall := ⟨true, 0, 0, 0, 0, 1, 1, zeros 16, zeros 12⟩

/-- Refutes O27: the installed transmit association has the SCI of the port record (R413), here 0, and not the SCI 1 that
the request names. -/
theorem not_cipherReleaseAndSecureLinksComplete : ¬ Obligations.CipherReleaseAndSecureLinksComplete := by
  unfold Obligations.CipherReleaseAndSecureLinksComplete
  rintro ⟨-, -, -, -, installed, -⟩
  have hon : macsecOn (0 : Fin 16) enabledPort = true := by decide
  obtain ⟨t, ht, -, hsa, -⟩ := installed 0 sakWithSci enabledPort (.inl (by decide)) (by decide) hon rfl
  obtain ⟨u, hu, hsci⟩ := exec_sakInstallation_sci (sa := sakWithSci) (by decide) (by decide) hon rfl
  obtain rfl : t = u := Host.Outcome.next.inj (ht.symm.trans hu)
  rw [hsa] at hsci
  exact absurd hsci (by decide)

end Sys2Proof.Machine

namespace Sys2Proof.Machine

/-! ### A refused host write (R476, R477) -/

theorem irqCause_regsKept (f : Field) (s : State) : RegsKept [f] s (irqCause f s) :=
  (regsKept_wr f 1 s).to_regs (irqCause_regs f s)

/-- The registers that the outcome of a write by the PCIe host can change. -/
def pcieOutcomeRegs : List Field :=
  [F.HST_WSTATi_STATUS.u 0, F.HST_WSTATi_COUNT.u 0, F.HST_WSTATi_ADDR.u 0, F.HST_IRQ_WSTAT]

/-- The outcome of a PCIe host's write changes its write status and the cause of its interrupt only. -/
theorem writeDone_pcie_regsKept (a : Nat) (st : Status) (s : State) :
    RegsKept pcieOutcomeRegs s (writeDone .pcie a (st, s)) := by
  simp only [writeDone, hostOf, Nat.zero_ne_one, if_false]
  split
  · exact (RegsKept.refl [] s).mono (by simp)
  · exact (((regsKept_wr _ _ s).trans (regsKept_inc _ _)).trans (regsKept_wr _ _ _)).trans (irqCause_regsKept _ _)

/-! ### A demand that a core has just written (R423, R476) -/

/-- A device in TEST whose core wrote the demand in this tick. -/
def demandTaken : State :=
  { wr F.SYS_BOOT_STAT_STAGE 9 { pwr := { mode := 0, gated := false, faultN := false } } with slp := { demandAt := some 0 } }

/-- The PCIe host's write meets BUSY and leaves the demand as it was. -/
theorem rd_demand_hostWrite_demandTaken (v : Nat) :
    rd F.SLP_HOST_DEMAND_DEMAND
      (hostWrite .pcie F.SLP_HOST_DEMAND_DEMAND.addr (hostDemandWrite .pcie v) demandTaken) = 0 := by
  have reached : reachable .pcie demandTaken = true := by decide
  have opened : hostGate true F.SLP_HOST_DEMAND_DEMAND.addr demandTaken = none := by decide
  have allowed : (stage demandTaken == 9) = true := by decide
  have busy : hostDemandWrite .pcie v demandTaken = (.busy, demandTaken) := by
    simp only [hostDemandWrite, hostOf, allowed, Bool.or_true, Bool.not_true, Bool.false_eq_true, if_false]
    exact if_pos rfl
  have kept := writeDone_pcie_regsKept F.SLP_HOST_DEMAND_DEMAND.addr .busy demandTaken F.SLP_HOST_DEMAND_DEMAND (by decide)
  simp only [hostWrite, reached, opened, busy, hostOf, Bool.not_true, Bool.false_eq_true, if_false, Option.isSome_some,
    if_true]
  rw [kept]
  decide

/-- Refutes O28: in the tick of a core's write a host's write of the demand meets BUSY (R476) and is not stored, with the
sleep permission too. -/
theorem not_powerModesAndSleepRingComplete : ¬ Obligations.PowerModesAndSleepRingComplete := by
  unfold Obligations.PowerModesAndSleepRingComplete
  rintro ⟨-, -, -, -, -, -, -, -, -, -, -, -, -, -, stored⟩
  obtain ⟨t, ht, hd⟩ := stored .pcie 1 demandTaken (by decide) (.inr ⟨0, rfl, .inr (by decide)⟩)
  cases ht
  rw [rd_demand_hostWrite_demandTaken] at hd
  exact absurd hd (by decide)

end Sys2Proof.Machine

namespace Sys2Proof.Machine

/-! ### An endpoint reset with a stashed item (R472, R477, R485) -/

/-- A masked vector stays pending: the word of the MSI-X pending bits is in the table. -/
theorem raiseVector_masked {v : Nat} {s : State} (h : bit (msixWord (4 * v + 3) s) 0 = true) :
    tfind (raiseVector v s).hst.msix (512 + v / 32) ≠ none := by
  rw [raiseVector, if_pos h]
  exact fun hn => by simp [msixSet, tfind_tput_same] at hn

/-- The endpoint's table after a reset masks every one of its 64 vectors. -/
theorem bit_msixWord_of_reset {v : Nat} {s : State} (hs : s.hst.msix = []) (hv : v < 64) :
    bit (msixWord (4 * v + 3) s) 0 = true := by
  have masked : 4 * v + 3 < 256 ∧ (4 * v + 3) % 4 = 3 := by omega
  simp [msixWord, hs, tget, masked, bit]

theorem stashFree_msix (e : Nat) (s : State) : (stashFree e s).hst.msix = s.hst.msix := by
  simp only [stashFree]
  split
  · rfl
  · simp only [stashShow]
    rw [wr_hst, wr_hst, releaseFrame_frame]
    rfl

/-- An unclaimed item leaves its masked vector pending. -/
theorem stashUnclaimed_pends {e : Nat} {x : Stash} {s : State} (he : tfind s.hst.stash e = some x)
    (hs : s.hst.msix = []) (hv : rd F.HST_IRQ_VECTOR s = 0) : (stashUnclaimed e s).hst.msix ≠ [] := by
  have counted : ∀ u : State, u.hst.msix = [] → rd F.HST_IRQ_VECTOR u = 0 →
      tfind (irqCause F.HST_IRQ_UNCLAIMED u).hst.msix 512 ≠ none := by
    intro u hu hvu
    rw [irqCause, hvu]
    exact raiseVector_masked (v := 0) (bit_msixWord_of_reset hu (by decide))
  simp only [stashUnclaimed, he]
  rw [stashFree_msix]
  intro hn
  refine counted _ ?_ ?_ (by rw [hn]; rfl)
  · simpa using hs
  · rw [rd_inc_ne _ _ _ (by decide), rd_record]
    exact hv

/-- The registers of the host queues lie above the interrupt register. -/
theorem rd_irqVector_wr_unit {f : Field} (h : F.HST_IRQ_VECTOR.key < f.key) (q v : Nat) (s : State) :
    rd F.HST_IRQ_VECTOR (wr (f.u q) v s) = rd F.HST_IRQ_VECTOR s := by
  refine rd_wr_ne _ _ _ _ ?_
  simp only [Field.u, Field.key] at h ⊢
  have : 0 ≤ q * f.step := Nat.zero_le _
  omega

/-- The reset of one PCIe queue (R472). -/
def hostQueueReset (q : Nat) (s : State) : State :=
  hostQSet q {} s |> wrB (F.HST_HQnn_CTRL_EN.u q) false |> wr (F.HST_HQnn_PTRS_CPL_TAIL.u q) 0
    |> wr (F.HST_HQnn_PTRS_RECV_HEAD.u q) 0 |> wr (F.HST_HQnn_PTRS_SEND_HEAD.u q) 0
    |> wrB (F.HST_HQnn_STAT_CPL_FULL.u q) false |> wrB (F.HST_HQnn_STAT_WAIT_ARMED.u q) false

/-- The endpoint before its stash is given up: its queues reset, no completion of theirs waiting, no vector pending. -/
def endpointReset (s : State) : State :=
  let s := each ((List.range 64).filter fun q => hqIf q s == 0) hostQueueReset s
  { s with qm := { s.qm with frames := tmap (fun _ x =>
      if x.cpl.any (fun c => hqIf c.1 s == 0) then { x with cpl := none } else x) s.qm.frames }
           hst := { s.hst with msix := [] } }

/-- PCIe resets reset the endpoint, then give up what its stash holds. -/
theorem pcieReset_eq (s : State) :
    pcieReset s = each ((stashOf 0 (endpointReset s)).map (·.1)) stashUnclaimed (endpointReset s) := rfl

theorem hostQueueReset_irqVector (q : Nat) (s : State) :
    rd F.HST_IRQ_VECTOR (hostQueueReset q s) = rd F.HST_IRQ_VECTOR s := by
  have above {f : Field} (v : Nat) (s : State) (h : F.HST_IRQ_VECTOR.key < f.key) := rd_irqVector_wr_unit h q v s
  simp only [hostQueueReset, wrB]
  rw [above _ _ (by decide), above _ _ (by decide), above _ _ (by decide), above _ _ (by decide), above _ _ (by decide),
    above _ _ (by decide)]
  rfl

theorem endpointReset_irqVector (s : State) : rd F.HST_IRQ_VECTOR (endpointReset s) = rd F.HST_IRQ_VECTOR s :=
  foldl_keepP _ (fun s q => hostQueueReset q s) (rd F.HST_IRQ_VECTOR) (fun s q => hostQueueReset_irqVector q s) s

theorem endpointReset_stash (s : State) : (endpointReset s).hst.stash = s.hst.stash :=
  foldl_keepP _ (fun s q => hostQueueReset q s) (fun s : State => s.hst.stash) (fun _ _ => rfl) s

/-- A stashed item leaves the reset endpoint with a pending vector. -/
theorem pcieReset_pends {e : Nat} {x : Stash} {s : State} (hs : s.hst.stash = [(e, x)]) (he : e < 8)
    (hv : rd F.HST_IRQ_VECTOR s = 0) : (pcieReset s).hst.msix ≠ [] := by
  have stash := (endpointReset_stash s).trans hs
  have held : stashOf 0 (endpointReset s) = [(e, x)] := by simp [stashOf, stash, Nat.div_eq_of_lt he]
  have found : tfind (endpointReset s).hst.stash e = some x := by simp [stash, tfind]
  rw [pcieReset_eq, held]
  exact stashUnclaimed_pends found rfl ((endpointReset_irqVector s).trans hv)

/-- A device with a stashed item of PCIe queue 0 and no pending vector. -/
def stashedItem : State := { hst := { stash := [(0, ⟨672, 0, 0⟩)] } }

/-- Refutes O30: the reset gives up the items in the PCIe stash, whose device event finds its vector masked and stays
pending (R472, R477, R485), so the MSI-X words are not empty. -/
theorem not_hostInterfaceCommandsComplete : ¬ Obligations.HostInterfaceCommandsComplete := by
  unfold Obligations.HostInterfaceCommandsComplete
  rintro ⟨-, reset, -⟩
  obtain ⟨t, ht, -, hmsix, -⟩ := reset 0 stashedItem (by decide)
  obtain rfl : pcieReset stashedItem = t := Host.Outcome.next.inj ht
  have vector : rd F.HST_IRQ_VECTOR stashedItem = 0 := by decide
  exact pcieReset_pends (e := 0) (x := ⟨672, 0, 0⟩) rfl (by decide) vector hmsix

end Sys2Proof.Machine

namespace Sys2Proof.Machine

/-! ### A vault command that is allowed (R393) -/

/-- The registers that show hosts the outcome of a vault command. -/
def cmdStatRegs : List Field := [F.KEY_CMD_STAT_LENGTH, F.KEY_CMD_STAT_CODE, F.KEY_CMD_STAT_STATUS]

/-- t is the state r leaves, but for the mailbox and the status that show its answer and for the host interface. -/
structure VaultDone (who : MboxUser) (code : Nat) (r : (Status × List Byte) × State) (t : State) : Prop where
  beside : t = { r.2 with regs := t.regs, hst := t.hst,
                          key := { r.2.key with mbox := t.key.mbox, coreStat := t.key.coreStat } }
  kept : RegsKept cmdStatRegs r.2 t
  shown : code < 256 → r.1.2.length < 65536 → ∀ s, r.2.key.mbox = s.key.mbox → VaultAnswers who code r.1.1 r.1.2 s t

theorem Status.code_lt (st : Status) : st.code < 256 := by cases st <;> decide

/-- The bytes put into a sorted mailbox stand in it. -/
theorem tget_mboxPut {o i : Nat} {b : List Byte} {t : Tbl Byte} (ht : tsorted t = true) (hi : i < b.length) :
    tget 0 (mboxPut o b t) (o + i) = BitVec.ofNat 8 (byteAt b i) := by
  rw [mboxPut, tget_foldl_tset 0 (fun k => BitVec.ofNat 8 (byteAt b k)) o b.length t ht, if_pos (by omega)]
  congr 2; omega

theorem mboxAnswer_done (who : MboxUser) (code : Nat) (r : (Status × List Byte) × State) :
    VaultDone who code r (mboxAnswer who code r) := by
  have bytes (s : State) (hs : r.2.key.mbox = s.key.mbox) (h : tsorted s.key.mbox = true) (i : Nat)
      (hi : i < r.1.2.length) : tget 0 (mboxPut (4096 * mboxClass who) r.1.2 r.2.key.mbox) (4096 * mboxClass who + i) =
        BitVec.ofNat 8 (byteAt r.1.2 i) := tget_mboxPut (hs ▸ h) hi
  have status := Status.code_lt r.1.1
  have shown (u : State) (hcode : code < 256) (hlen : r.1.2.length < 65536) :
      let t := u |> wr F.KEY_CMD_STAT_LENGTH r.1.2.length |> wr F.KEY_CMD_STAT_CODE code
        |> wr F.KEY_CMD_STAT_STATUS r.1.1.code
      rd F.KEY_CMD_STAT_CODE t = code ∧ rd F.KEY_CMD_STAT_STATUS t = r.1.1.code ∧
        rd F.KEY_CMD_STAT_LENGTH t = r.1.2.length := by
    refine ⟨?_, ?_, ?_⟩
    · rw [rd_wr_ne _ _ _ _ (by decide), rd_wr_of_lt _ hcode (by decide)]
    · rw [rd_wr_of_lt _ status (by decide)]
    · rw [rd_wr_ne _ _ _ _ (by decide), rd_wr_ne _ _ _ _ (by decide), rd_wr_of_lt _ hlen (by decide)]
  have kept (u : State) : RegsKept cmdStatRegs u (u |> wr F.KEY_CMD_STAT_LENGTH r.1.2.length
      |> wr F.KEY_CMD_STAT_CODE code |> wr F.KEY_CMD_STAT_STATUS r.1.1.code) :=
    ((regsKept_wr _ _ u).trans (regsKept_wr _ _ _)).trans (regsKept_wr _ _ _)
  cases who with
  | core n => exact ⟨rfl, RegsKept.refl _ _, fun _ _ s hs => ⟨rfl, bytes s hs⟩⟩
  | pcie => exact ⟨rfl, kept _, fun hcode hlen s hs => ⟨shown _ hcode hlen, bytes s hs⟩⟩
  | xspi => exact ⟨rfl, kept _, fun hcode hlen s hs => ⟨shown _ hcode hlen, bytes s hs⟩⟩

/-- A change of the host interface's own state only. -/
theorem VaultDone.of_hst {who : MboxUser} {code : Nat} {r : (Status × List Byte) × State} {t u : State}
    (h : VaultDone who code r t) (hu : u = { t with hst := u.hst }) : VaultDone who code r u where
  beside := by rw [hu, h.beside]
  kept := h.kept.to_regs (by rw [hu])
  shown hcode hlen s hs := by
    have answered := h.shown hcode hlen s hs
    rw [hu]
    exact answered

/-- A command that is allowed runs, and its answer is shown. -/
theorem vaultCommand_done {who : MboxUser} {code : Nat} {s : State} (f : State → (Status × List Byte) × State)
    (h : VaultAdmits who code s) : VaultDone who code (f s) (vaultCommand who code f s) := by
  obtain ⟨admits, perm, allowed⟩ := h
  obtain ⟨t, ht, -, -, hrest⟩ := hostWrite_ok (f := fun s =>
    (.ok, mboxAnswer who code (if !mboxPerm who s || !cmdState code s then ((.denied, []), s) else f s))) admits rfl
  have heq : vaultCommand who code f s = t := by rw [← ht]; cases who <;> rfl
  simp only [perm, allowed, Bool.not_true, Bool.or_self, Bool.false_eq_true, if_false] at hrest
  rw [heq]
  exact (mboxAnswer_done who code (f s)).of_hst hrest

/-- Arguments that fit the mailbox. -/
theorem guardWf_args {args : List Byte} (h : args.length ≤ 4096) (what : String) (r : Res) :
    guardWf (decide (args.length ≤ 4096)) what r = r := by simp [guardWf, h]

section
variable {who : MboxUser} {code : Nat} {r : (Status × List Byte) × State} {t : State} (h : VaultDone who code r t)
include h

theorem VaultDone.slots : t.key.slots = r.2.key.slots := by rw [h.beside]
theorem VaultDone.vols : t.key.vols = r.2.key.vols := by rw [h.beside]
theorem VaultDone.ident : t.key.ident = r.2.key.ident := by rw [h.beside]
theorem VaultDone.cert : t.key.cert = r.2.key.cert := by rw [h.beside]
theorem VaultDone.lcCount : t.key.lcCount = r.2.key.lcCount := by rw [h.beside]
theorem VaultDone.refusedTokens : t.key.refusedTokens = r.2.key.refusedTokens := by rw [h.beside]
theorem VaultDone.mram : t.mram = r.2.mram := by rw [h.beside]
theorem VaultDone.sys : t.sys = r.2.sys := by rw [h.beside]
theorem VaultDone.kslot (k : Nat) : kslot k t = kslot k r.2 := by rw [Machine.kslot, h.slots]; rfl

end

/-- The answer of a command that leaves the mailbox as it was. -/
theorem VaultDone.answers {who : MboxUser} {code : Nat} {st : Status} {out : List Byte} {u t : State}
    (h : VaultDone who code ((st, out), u) t) (hcode : code < 256) (hlen : out.length < 65536) {s : State}
    (hs : u.key.mbox = s.key.mbox) : VaultAnswers who code st out s t := h.shown hcode hlen s hs

end Sys2Proof.Machine

namespace Sys2Proof.Machine

/-! ### KEY_UPDATE (R381–R386) -/

/-- Neither the count nor the reservations decide which copy is in force. -/
theorem KeySlot.useB_copies (x : KeySlot) : KeySlot.useB ⟨x.copies.1, x.copies.2, 0⟩ = x.useB := by
  obtain ⟨_ | a, _ | b, n⟩ := x <;> rfl

theorem KeySlot.useB_of_copies {x y : KeySlot} (h : x.copies = y.copies) : x.useB = y.useB := by
  rw [← useB_copies x, h, useB_copies]

theorem KeySlot.a_isSome_of_copies {x y : KeySlot} (h : x.copies = y.copies) : x.a.isSome = y.a.isSome := by
  have first : x.copies.1.isSome = y.copies.1.isSome := by rw [h]
  simpa [KeySlot.copies] using first

/-- A signature takes free values only. -/
theorem identSign_frame (m : List Byte) (s : State) :
    (identSign m s).2 = { s with free := (identSign m s).2.free } := by
  unfold identSign; split <;> rfl

theorem updUses_useStep (m : List Byte) (s : State) : UseStep s (updUses m s) := by
  have signed : UseStep s (if byteAt m (0x4C + leAt m 0x4A 2) = 0xFF then s
      else (useCount (8 + byteAt m (0x4C + leAt m 0x4A 2)) s).2) := by
    split
    · exact .refl s
    · exact useCount_useStep _ s
  simp only [updUses]
  split
  · exact signed
  · exact signed.trans (useCount_useStep _ _)

/-- The copy that an accepted update stores. -/
def updCopy (m : List Byte) (s : State) : KeyCopy :=
  { key := (updCheck m s).key
    attrs := leAt m 0x40 4 % 2 ^ 11 + leAt m 0x40 4 / 2 ^ 12 * 2 ^ 12 + (if isRoot (leAt m 6 2) then 2 ^ 11 else 0)
    limit := leAt m 0x44 4, counter := leAt m 0x38 8 }

/-- Whether an update of slot x writes its copy B (R384). -/
def KeySlot.toB (x : KeySlot) : Bool := x.a.isSome && !x.useB

/-- The slot once copy c is written over its inactive copy. -/
def KeySlot.updated (c : KeyCopy) (x : KeySlot) : KeySlot :=
  if x.toB then { x with b := some c, count := 0 } else { x with a := some c, count := 0 }

theorem keyUpdate_refused {m : List Byte} {s : State} (h : (updCheck m s).reason ≠ 0) :
    (keyUpdate m s).2.key = s.key := by
  simp only [keyUpdate, h, if_false]
  rw [identSign_frame]
  rfl

/-- Without the energy the update waits for none of its effects: only the check is counted. -/
theorem keyUpdate_powerless {m : List Byte} {s : State} (h : (updCheck m s).reason = 0) (he : storedEnergy s < 60) :
    ∃ u, UseStep s u ∧ (keyUpdate m s).2.key = u.key := by
  have refused : (holdUpCheck 0 60 s).1 = false := by simp [holdUpCheck, Nat.not_le.2 he]
  refine ⟨(holdUpCheck 0 60 s).2, holdUpCheck_useStep 0 60 s, ?_⟩
  simp only [keyUpdate, h, refused, if_true, if_false, Bool.false_eq_true]
  rw [identSign_frame]
  rfl

theorem keyUpdate_accepted {m : List Byte} {s : State} (h : (updCheck m s).reason = 0) (he : 60 ≤ storedEnergy s) :
    ∃ u, UseStep s u ∧
      (keyUpdate m s).2.key = (kslotSet (leAt m 6 2) ((kslot (leAt m 6 2) u).updated (updCopy m s)) u).key := by
  have passed : (holdUpCheck 0 60 s).1 = true := by simp [holdUpCheck, he]
  refine ⟨updUses m (holdUpCheck 0 60 s).2, (holdUpCheck_useStep 0 60 s).trans (updUses_useStep m _), ?_⟩
  simp only [keyUpdate, h, passed, if_true]
  rw [identSign_frame]
  rfl

/-- No update touches the volatile slots or the life-cycle counter. -/
theorem keyUpdate_vols_lcCount (m : List Byte) (s : State) :
    (keyUpdate m s).2.key.vols = s.key.vols ∧ (keyUpdate m s).2.key.lcCount = s.key.lcCount := by
  by_cases h : (updCheck m s).reason = 0
  · by_cases he : 60 ≤ storedEnergy s
    · obtain ⟨u, hu, hkey⟩ := keyUpdate_accepted h he
      rw [hkey]
      exact ⟨hu.vols, hu.lcCount⟩
    · obtain ⟨u, hu, hkey⟩ := keyUpdate_powerless h (Nat.not_le.1 he)
      rw [hkey]
      exact ⟨hu.vols, hu.lcCount⟩
  · rw [keyUpdate_refused h]
    exact ⟨rfl, rfl⟩

theorem KeySlot.toB_of_copies {x y : KeySlot} (h : x.copies = y.copies) : x.toB = y.toB := by
  rw [toB, toB, useB_of_copies h, a_isSome_of_copies h]

theorem KeySlot.updated_count (c : KeyCopy) (x : KeySlot) : (x.updated c).count = 0 := by
  unfold updated; split <;> rfl

theorem KeySlot.updated_copy (c : KeyCopy) (x : KeySlot) :
    (if x.toB then (x.updated c).b else (x.updated c).a) = some c := by
  unfold updated; split <;> rfl

/-- The slot after an accepted update: its inactive copy is the message's, its use count restarts (R382, R384). -/
theorem keyUpdate_slot {m : List Byte} {s : State} (h : (updCheck m s).reason = 0) (he : 60 ≤ storedEnergy s) :
    (kslot (leAt m 6 2) (keyUpdate m s).2).count = 0 ∧
      (if (kslot (leAt m 6 2) s).toB then (kslot (leAt m 6 2) (keyUpdate m s).2).b
        else (kslot (leAt m 6 2) (keyUpdate m s).2).a) = some (updCopy m s) := by
  obtain ⟨u, hu, hkey⟩ := keyUpdate_accepted h he
  have stored : kslot (leAt m 6 2) (keyUpdate m s).2 = (kslot (leAt m 6 2) u).updated (updCopy m s) := by
    rw [kslot, hkey]
    exact kslot_kslotSet_same _ _ u
  rw [stored, ← KeySlot.toB_of_copies (hu.copies (leAt m 6 2))]
  exact ⟨KeySlot.updated_count _ _, KeySlot.updated_copy _ _⟩

/-! ### KEY_DERIVE and ECDH (R378, R379) -/

@[simp] theorem tfind_vslotSet_same (n : Nat) (x : KeyCopy) (s : State) :
    tfind (vslotSet n x s).key.vols n = some x := tfind_tput_same _ _ _

/-- The length and the size of a derived key agree. -/
theorem derivedSize {b z : Nat} (h : (b, z) ∈ [(128, 0), (256, 1), (512, 2)]) :
    (b == 128 || b == 256 || b == 512) = true ∧ z = if b = 128 then 0 else if b = 256 then 1 else 2 := by
  simp only [List.mem_cons, Prod.mk.injEq, List.not_mem_nil, or_false] at h
  rcases h with ⟨rfl, rfl⟩ | ⟨rfl, rfl⟩ | ⟨rfl, rfl⟩ <;> decide

end Sys2Proof.Machine

namespace Sys2Proof.Machine

/-- KEY_DERIVE of a usable parent into a free slot, the use counted. -/
theorem keyDerive_ok {who : MboxUser} {b : List Byte} {p : KeyCopy} {s : State}
    (hlen : b.length = 11 + byteAt b 9 + byteAt b (10 + byteAt b 9)) (hn : byteAt b 2 < 64)
    (hlabel : 0 < byteAt b 9 ∧ byteAt b 9 ≤ 32)
    (hcontext : 0 < byteAt b (10 + byteAt b 9) ∧ byteAt b (10 + byteAt b 9) ≤ 32)
    (hsize : (leAt b 7 2, aSize (derivedAttrs (leAt b 3 4))) ∈ [(128, 0), (256, 1), (512, 2)])
    (hattrs : attrsOk (derivedAttrs (leAt b 3 4)) = true) (hp : slotKey (leAt b 0 2) s = some p)
    (huse : useStatus (leAt b 0 2) (fun a => bit a 7 && bit a (ownerBit who)) s = .ok)
    (husage : clearBits (bits (derivedAttrs (leAt b 3 4)) 2 8) (bits p.attrs 2 8) = 0)
    (howner : clearBits (bits (derivedAttrs (leAt b 3 4)) 16 5) (bits p.attrs 16 5) = 0)
    (hfree : tfind s.key.vols (byteAt b 2) = none) (hcount : (useCount (leAt b 0 2) s).1 = true) :
    keyDerive who b s = ((.ok, []), vslotSet (byteAt b 2)
      { key := vaultKdf p.key (slice b 10 (byteAt b 9)) (slice b (11 + byteAt b 9) (byteAt b (10 + byteAt b 9))) (leAt b 7 2)
        attrs := derivedAttrs (leAt b 3 4) } (useCount (leAt b 0 2) s).2) := by
  obtain ⟨hbits, hz⟩ := derivedSize hsize
  have counted : useCount (leAt b 0 2) s = (true, (useCount (leAt b 0 2) s).2) := Prod.ext hcount rfl
  have formed : ¬ (b.length ≠ 11 + byteAt b 9 + byteAt b (10 + byteAt b 9) ∨ 64 ≤ byteAt b 2 ∨ byteAt b 9 = 0 ∨
      32 < byteAt b 9 ∨ byteAt b (10 + byteAt b 9) = 0 ∨ 32 < byteAt b (10 + byteAt b 9) ∨
      (!(leAt b 7 2 == 128 || leAt b 7 2 == 256 || leAt b 7 2 == 512)) = true ∨
      aSize (derivedAttrs (leAt b 3 4)) ≠ (if leAt b 7 2 = 128 then 0 else if leAt b 7 2 = 256 then 1 else 2) ∨
      (!attrsOk (derivedAttrs (leAt b 3 4))) = true) := by
    rw [hbits, hattrs, ← hz]
    simp only [Bool.not_true, Bool.false_eq_true, ne_eq, not_true_eq_false, or_false]
    omega
  simp only [keyDerive]
  rw [if_neg formed, huse, hp]
  simp only [husage, howner, hfree, Option.isSome_none]
  rw [counted]
  simp

/-- What ECDH answers and stores once its arguments are accepted. -/
def ecdhAnswer (b : List Byte) (s : State) : (Status × List Byte) × State :=
  match ecdhSecret (randScalar s).1 (slice b 5 65) with
  | none => ((.fault, []), (randScalar s).2)
  | some x => ((.ok, ecPublic (randScalar s).1), vslotSet (byteAt b 0)
      { key := vaultKdf x (ofNats [0x65, 0x63, 0x64, 0x68]) (ofNats ((List.range 32).map (Config.vendorByte 3)))
          (8 * sizeBytes (aSize (derivedAttrs (leAt b 1 4))))
        attrs := derivedAttrs (leAt b 1 4) } (randScalar s).2)

theorem ecdhCommand_of_free {b : List Byte} {s : State} (hlen : b.length = 70) (hn : byteAt b 0 < 64)
    (hsize : aSize (derivedAttrs (leAt b 1 4)) < 3) (hattrs : attrsOk (derivedAttrs (leAt b 1 4)) = true)
    (htamper : tamperBlocks s = false) (hfree : tfind s.key.vols (byteAt b 0) = none) :
    ecdhCommand b s = ecdhAnswer b s := by
  have formed : ¬ (b.length ≠ 70 ∨ 64 ≤ byteAt b 0 ∨ 3 ≤ aSize (derivedAttrs (leAt b 1 4)) ∨
      (!attrsOk (derivedAttrs (leAt b 1 4))) = true) := by
    rw [hattrs]
    simp only [Bool.not_true, Bool.false_eq_true, or_false]
    omega
  have allowed : ¬ (tamperBlocks s = true ∨ (tfind s.key.vols (byteAt b 0)).isSome = true) := by
    simp [htamper, hfree]
  simp only [ecdhCommand]
  rw [if_neg formed, if_neg allowed]
  rfl

end Sys2Proof.Machine

namespace Sys2Proof.Machine

/-! ### What a life-cycle transition leaves (R194, R367) -/

/-- The registers that show a session's condition (R194). -/
def mirrorRegs (n : Nat) : List Field :=
  [F.MIR_SESSn_STAT_ACTIVE.u n, F.MIR_SESSn_STAT_REASON.u n, F.MIR_SESSn_STAT_TRUNC.u n, F.MIR_SESSn_STAT_DEST.u n]

/-- The registers that a life-cycle transition can change. -/
def lcRegs : List Field :=
  [F.KEY_SLOTS_PERSISTENT, F.KEY_SLOTS_VOLATILE, F.KEY_SLOTS_BLOCKED, F.KEY_LC_STATE, F.KEY_LC_PENDING, F.PWR_STAT_SILENT]
    ++ (mirrorRegs 0 ++ (mirrorRegs 1 ++ (mirrorRegs 2 ++ mirrorRegs 3)))

/-- A state without its registers. -/
def State.noRegs (s : State) : State := { s with regs := [] }

theorem noRegs_wr (f : Field) (v : Nat) (s : State) : (wr f v s).noRegs = s.noRegs := rfl

/-- States that agree without their registers differ in the registers only. -/
theorem State.beside_regs {s t : State} (h : t.noRegs = s.noRegs) : t = { s with regs := t.regs } :=
  congrArg (fun u : State => { u with regs := t.regs }) h

/-- Evaluating the sessions writes their registers only. -/
theorem mirrorEvaluate_beside (lc : Nat) (s : State) :
    mirrorEvaluate lc s = { s with regs := (mirrorEvaluate lc s).regs } := by
  refine State.beside_regs ?_
  unfold mirrorEvaluate
  exact each_keeps State.noRegs _ _ s fun n s => by simp only [wrB, noRegs_wr]

theorem mirrorEvaluate_regsKept (lc : Nat) (s : State) :
    RegsKept (mirrorRegs 0 ++ (mirrorRegs 1 ++ (mirrorRegs 2 ++ mirrorRegs 3))) s (mirrorEvaluate lc s) := by
  have session (n a r t d : Nat) (u : State) : RegsKept (mirrorRegs n) u (u |> wr (F.MIR_SESSn_STAT_ACTIVE.u n) a
      |> wr (F.MIR_SESSn_STAT_REASON.u n) r |> wr (F.MIR_SESSn_STAT_TRUNC.u n) t |> wr (F.MIR_SESSn_STAT_DEST.u n) d) :=
    (((regsKept_wr _ a u).trans (regsKept_wr _ r _)).trans (regsKept_wr _ t _)).trans (regsKept_wr _ d _)
  exact (session 0 _ _ _ _ s).trans ((session 1 _ _ _ _ _).trans ((session 2 _ _ _ _ _).trans (session 3 _ _ _ _ _)))

/-- The state that the record of a transition shows, before the device is told (R367). -/
def lcEntered (st : Nat) (s : State) : State :=
  { s with mram := { s.mram with lc := st }
           key := { s.key with slots := tfilter (fun k _ => isRoot k && st != 5) s.key.slots, vols := [],
                               ident := if st = 5 then none else s.key.ident,
                               cert := if st = 5 then [] else s.key.cert } }

theorem lcTransition_eq (st : Nat) (s : State) : lcTransition st s =
    requestReset .lifeCycle (record 0x0102 (lcState s) st (mirrorEvaluate st (lcShow (keyShow (lanesAbort (lcEntered st s)))))) :=
  rfl

@[simp] theorem lcTransition_mram (st : Nat) (s : State) : (lcTransition st s).mram = { s.mram with lc := st } := by
  rw [lcTransition_eq, requestReset_mram, record_mram, mirrorEvaluate_beside]; rfl

@[simp] theorem lcTransition_key (st : Nat) (s : State) : (lcTransition st s).key = (lcEntered st s).key := by
  rw [lcTransition_eq, requestReset_key, record_key, mirrorEvaluate_beside]; rfl

theorem lcTransition_request (st : Nat) (s : State) : (lcTransition st s).sys.request.isSome = true := by
  rw [lcTransition_eq, requestReset_sys]; rfl

theorem lcTransition_regsKept (st : Nat) (s : State) : RegsKept lcRegs s (lcTransition st s) := by
  have shown : RegsKept [F.KEY_SLOTS_PERSISTENT, F.KEY_SLOTS_VOLATILE, F.KEY_SLOTS_BLOCKED, F.KEY_LC_STATE, F.KEY_LC_PENDING]
      (lanesAbort (lcEntered st s)) (lcShow (keyShow (lanesAbort (lcEntered st s)))) :=
    ((((regsKept_wr _ _ _).trans (regsKept_wr _ _ _)).trans (regsKept_wr _ _ _)).trans (regsKept_wr _ _ _)).trans
      (regsKept_wr _ _ _)
  have evaluated := shown.trans (mirrorEvaluate_regsKept st _)
  have recorded := evaluated.to_regs (record_regs 0x0102 (lcState s) st _)
  refine (((RegsKept.of_regs rfl : RegsKept [] s _).trans recorded).trans (requestReset_regsKept .lifeCycle _)).mono ?_
  simp only [lcRegs]
  intro f hf
  simp only [List.mem_append, List.mem_cons, List.not_mem_nil, or_false, false_or] at hf ⊢
  tauto

end Sys2Proof.Machine

namespace Sys2Proof.Machine

/-! ### LC_REQUEST, DEBUG_TOKEN and the unsigned transitions (R366, R369, R370, R498) -/

/-- An accepted request enters its state and takes its counter. -/
theorem lcRequestCommand_accepted {b : List Byte} {s : State} (hsigner : byteAt b 7 ≤ 3) (hzero : leAt b 0x1C 4 = 0)
    (hsigned : signedStatus 0x96164C43 (8 + byteAt b 7) b s = .ok) (hcount : s.key.lcCount < leAt b 0x18 4)
    (hallowed : lcAllowed (byteAt b 6) s = true) (he : 60 ≤ storedEnergy s) :
    ∃ u, lcRequestCommand b s = ((.ok, []), inc F.PWR_NVM_CNT_DONE (lcTransition (byteAt b 6) u)) ∧
      u.key.lcCount = leAt b 0x18 4 := by
  have passed : holdUpCheck 1 60 s = (true, (holdUpCheck 1 60 s).2) := Prod.ext (by simp [holdUpCheck, he]) rfl
  have formed : ¬ (3 < byteAt b 7 ∨ leAt b 0x1C 4 ≠ 0) := by omega
  have newer : ¬ (leAt b 0x18 4 ≤ s.key.lcCount ∨ (!lcAllowed (byteAt b 6) s) = true) := by
    rw [hallowed]; simpa using hcount
  simp only [lcRequestCommand]
  rw [if_neg formed, hsigned]
  simp only []
  rw [if_neg newer, passed]
  simp only [Bool.not_true, Bool.false_eq_true, if_false]
  exact ⟨_, rfl, by rw [(useCount_useStep _ _).lcCount]⟩

/-- A request without a good signature changes nothing. -/
theorem lcRequestCommand_unsigned {b : List Byte} {s : State}
    (h : signedStatus 0x96164C43 (8 + byteAt b 7) b s ≠ .ok) : (lcRequestCommand b s).2 = s := by
  simp only [lcRequestCommand]
  split
  · rfl
  · rfl

/-- A transition without a signature, with its energy there. -/
theorem lcUnsigned_ok {target : Nat} {s : State} (he : 60 ≤ storedEnergy s) :
    lcUnsigned target s = ((.ok, []), inc F.PWR_NVM_CNT_DONE (lcTransition target (holdUpCheck 1 60 s).2)) := by
  have passed : holdUpCheck 1 60 s = (true, (holdUpCheck 1 60 s).2) := Prod.ext (by simp [holdUpCheck, he]) rfl
  rw [lcUnsigned, passed]
  rfl

/-- SCRAPPED keeps no key (R367). -/
theorem lcEntered_scrapped (s : State) :
    (lcEntered 5 s).key = { s.key with slots := [], vols := [], ident := none, cert := [] } := by
  simp [lcEntered, tfilter]

/-- LC_ENTER_MFG leaves MANUFACTURE with a new identity. -/
theorem lcEnterMfgCommand_ok {s : State} (he : 60 ≤ storedEnergy s) :
    ∃ u d, UseStep s u ∧ lcEnterMfgCommand s = ((.ok, []),
      { (randScalar (inc F.PWR_NVM_CNT_DONE (lcTransition 1 u))).2 with
        key := { (randScalar (inc F.PWR_NVM_CNT_DONE (lcTransition 1 u))).2.key with ident := some d } }) := by
  rw [lcEnterMfgCommand, lcUnsigned_ok he]
  exact ⟨(holdUpCheck 1 60 s).2, _, holdUpCheck_useStep 1 60 s, rfl⟩

/-! ### Detections (R388–R391) -/

/-- The registers that a detection can change once it is shown. -/
def tamperRegs : List Field := [F.KEY_TAMPER_STAT_LEVEL, F.PWR_NVM_CNT_REFUSED, F.PWR_NVM_CNT_DONE] ++ lcRegs

/-- What every step of a response keeps: all but its own registers, the count of refused tokens, and volatile slots that are
empty. -/
structure TamperStep (s t : State) : Prop where
  kept : RegsKept tamperRegs s t
  tokens : t.key.refusedTokens = s.key.refusedTokens
  empty : s.key.vols = [] → t.key.vols = []

namespace TamperStep

theorem refl (s : State) : TamperStep s s := ⟨RegsKept.refl _ s, rfl, id⟩

theorem trans {s t u : State} (h : TamperStep s t) (k : TamperStep t u) : TamperStep s u where
  kept := (h.kept.trans k.kept).mono (by simp)
  tokens := k.tokens.trans h.tokens
  empty hs := k.empty (h.empty hs)

theorem of_eq {s t : State} (hregs : t.regs = s.regs) (hkey : t.key.refusedTokens = s.key.refusedTokens)
    (hvols : t.key.vols = s.key.vols) : TamperStep s t where
  kept := (RegsKept.of_regs hregs).mono (by simp)
  tokens := hkey
  empty hs := hvols.trans hs

theorem of_wr {f : Field} (hf : f ∈ tamperRegs) (v : Nat) (s : State) : TamperStep s (wr f v s) where
  kept := (regsKept_wr f v s).mono (by simpa using hf)
  tokens := rfl
  empty := id

theorem of_markMax {f : Field} (hf : f ∈ tamperRegs) (v : Nat) (s : State) : TamperStep s (markMax f v s) := by
  unfold markMax; split
  · exact of_wr hf _ s
  · exact refl s

theorem of_record (c x d : Nat) (s : State) : TamperStep s (record c x d s) :=
  of_eq (record_regs c x d s) (by rw [record_key]) (by rw [record_key])

end TamperStep

theorem mem_tamperRegs_of_lc {f : Field} (h : f ∈ lcRegs) : f ∈ tamperRegs := List.mem_append_right _ h

theorem lcTransition_tamperStep (st : Nat) (s : State) : TamperStep s (lcTransition st s) where
  kept := (lcTransition_regsKept st s).mono fun _ => mem_tamperRegs_of_lc
  tokens := by rw [lcTransition_key]; rfl
  empty _ := by rw [lcTransition_key]; rfl

theorem zeroise_tamperStep (s : State) : TamperStep s (zeroise s) where
  kept := (((regsKept_wr _ _ { s with key := { s.key with vols := [] } }).trans (regsKept_wr _ _ _)).trans
    (regsKept_wr _ _ _)).mono (by simp [tamperRegs, lcRegs])
  tokens := rfl
  empty _ := rfl

theorem holdUpCheck_tamperStep (row need : Nat) (s : State) : TamperStep s (holdUpCheck row need s).2 := by
  have measured : TamperStep s (s |> histAdd 17 16 (storedEnergy s) |> extreme 3 (storedEnergy s)) :=
    .of_eq (by simp) (by simp) (by simp)
  simp only [holdUpCheck]
  split
  · exact measured
  · exact (measured.trans (.of_wr (by simp [tamperRegs]) _ _)).trans (.of_record ..)

theorem lcShow_tamperStep (s : State) : TamperStep s (lcShow s) :=
  (TamperStep.of_wr (by simp [tamperRegs, lcRegs]) _ s).trans (.of_wr (by simp [tamperRegs, lcRegs]) _ _)

theorem tamperL3_tamperStep (s : State) : TamperStep s (tamperL3 s) := by
  have checked := holdUpCheck_tamperStep 1 60 s
  simp only [tamperL3]
  split
  · split
    · exact (checked.trans (lcTransition_tamperStep 3 _)).trans (.of_wr (by simp [tamperRegs]) _ _)
    · split
      · exact checked
      · refine (checked.trans ?_).trans (lcShow_tamperStep _)
        exact .of_eq rfl rfl rfl
  · exact .refl s

/-- A level is recorded, shown and starts the quiet time. -/
theorem tamperNoted_tamperStep (src lvl : Nat) (s : State) :
    TamperStep s (s |> record 0x0800 src lvl |> markMax F.KEY_TAMPER_STAT_LEVEL lvl |> tamperQuiet lvl) := by
  have quiet (u : State) : TamperStep u (tamperQuiet lvl u) := by
    unfold tamperQuiet; split
    · exact .refl u
    · exact .of_eq rfl rfl rfl
  exact ((TamperStep.of_record ..).trans (.of_markMax (by simp [tamperRegs]) _ _)).trans (quiet _)

theorem tamperApply_tamperStep (src lvl : Nat) (s : State) : TamperStep s (tamperApply src lvl s) := by
  have noted := tamperNoted_tamperStep src lvl s
  simp only [tamperApply]
  split
  · exact noted
  · split
    · exact noted.trans (zeroise_tamperStep _)
    · exact (noted.trans (zeroise_tamperStep _)).trans (tamperL3_tamperStep _)

/-- From level 2 on the volatile slots are empty. -/
theorem tamperApply_vols {src lvl : Nat} (h : 2 ≤ lvl) (s : State) : (tamperApply src lvl s).key.vols = [] := by
  simp only [tamperApply]
  rw [if_neg (by omega)]
  split
  · rfl
  · exact (tamperL3_tamperStep _).empty rfl

/-- A detection as its source's bits and its count show it. -/
def tamperShown (src : Nat) (s : State) : State :=
  s |> wr F.KEY_TAMPER_STAT_ACTIVE (putBit (rd F.KEY_TAMPER_STAT_ACTIVE s) src true)
    |> wr F.KEY_TAMPER_STAT_LATCHED (putBit (rd F.KEY_TAMPER_STAT_LATCHED s) src true) |> inc F.KEY_TAMPER_CNT_DETECT

/-- A detection in STANDBY or SLEEP is latched with its level (R391). -/
def tamperLatched (src : Nat) (s : State) : State :=
  { tamperShown src s with
    key := { (tamperShown src s).key with latched := (tamperShown src s).key.latched ++ [(src, tamperLevel src s, s.rcd.secs)] } }

theorem tamperDetect_eq (src : Nat) (s : State) : tamperDetect src s =
    if s.pwr.mode = 2 ∨ s.pwr.mode = 3 then
      if 2 ≤ tamperLevel src s then zeroise (tamperLatched src s) else tamperLatched src s
    else tamperApply src (tamperLevel src s) (tamperShown src s) := rfl

theorem tamperDetect_step (src : Nat) (s : State) : TamperStep (tamperShown src s) (tamperDetect src s) := by
  have latched : TamperStep (tamperShown src s) (tamperLatched src s) := .of_eq rfl rfl rfl
  rw [tamperDetect_eq]
  split
  · split
    · exact latched.trans (zeroise_tamperStep _)
    · exact latched
  · exact tamperApply_tamperStep ..

theorem tamperDetect_vols {src : Nat} {s : State} (h : 2 ≤ tamperLevel src s) : (tamperDetect src s).key.vols = [] := by
  rw [tamperDetect_eq, if_pos h]
  split
  · rfl
  · exact tamperApply_vols h _

theorem tamperDetect_active (src : Nat) (s : State) : rd F.KEY_TAMPER_STAT_ACTIVE (tamperDetect src s) =
    putBit (rd F.KEY_TAMPER_STAT_ACTIVE s) src true % 2 ^ F.KEY_TAMPER_STAT_ACTIVE.w := by
  rw [(tamperDetect_step src s).kept _ (by decide)]
  simp only [tamperShown]
  rw [rd_inc_ne _ _ _ (by decide), rd_wr_ne _ _ _ _ (by decide)]
  exact rd_wr_unit (f := F.KEY_TAMPER_STAT_ACTIVE) 0 _ s (by decide)

theorem tamperDetect_count (src : Nat) (s : State) : rd F.KEY_TAMPER_CNT_DETECT (tamperDetect src s) =
    min (rd F.KEY_TAMPER_CNT_DETECT s + 1) (2 ^ F.KEY_TAMPER_CNT_DETECT.w - 1) := by
  rw [(tamperDetect_step src s).kept _ (by decide)]
  simp only [tamperShown]
  rw [rd_inc_same _ _ (by decide), rd_wr_ne _ _ _ _ (by decide), rd_wr_ne _ _ _ _ (by decide)]

/-! ### DEBUG_TOKEN (R363, R370) -/

/-- A refused token is counted, the eighth as a detection of source 5; no debug port opens. -/
theorem tokenRefused_counts (s : State) : (tokenRefused s).key.refusedTokens = s.key.refusedTokens + 1 ∧
    rd F.CTL_DEBUG_OPEN (tokenRefused s) = rd F.CTL_DEBUG_OPEN s := by
  simp only [tokenRefused]
  split
  · have detected := tamperDetect_step 5 { s with key := { s.key with refusedTokens := s.key.refusedTokens + 1 } }
    refine ⟨detected.tokens, (detected.kept _ (by decide)).trans ?_⟩
    simp only [tamperShown]
    rw [rd_inc_ne _ _ _ (by decide), rd_wr_ne _ _ _ _ (by decide), rd_wr_ne _ _ _ _ (by decide)]
    rfl
  · exact ⟨rfl, rfl⟩

theorem debugTokenCommand_unsigned {b : List Byte} {s : State} (h : signedStatus 0x96164454 3 b s ≠ .ok) :
    (debugTokenCommand b s).2 = tokenRefused s := by
  unfold debugTokenCommand
  split
  case h_1 hok => exact absurd hok h
  case h_2 => rfl

theorem debugTokenCommand_accepted {b : List Byte} {s : State} (hsigned : signedStatus 0x96164454 3 b s = .ok)
    (hcycle : leAt b 0x18 4 = s.mram.pcycle) (hzero : byteAt b 7 = 0) (hcores : byteAt b 6 < 16)
    (hrest : leAt b 0x1C 4 = 0) (hcount : (useCount 3 s).1 = true) :
    debugTokenCommand b s = ((.ok, []), debugOpen (byteAt b 6) (useCount 3 s).2) := by
  have counted : useCount 3 s = (true, (useCount 3 s).2) := Prod.ext hcount rfl
  simp only [debugTokenCommand, hsigned]
  rw [if_pos ⟨hcycle, hzero, hcores, hrest⟩, counted]

theorem rd_debugOpen {m : Nat} (hm : m < 16) (s : State) : rd F.CTL_DEBUG_OPEN (debugOpen m s) =
    (rd F.CTL_DEBUG_OPEN s ||| m) % 2 ^ F.CTL_DEBUG_OPEN.w := by
  rw [debugOpen, Nat.mod_eq_of_lt hm]
  exact rd_wr_unit (f := F.CTL_DEBUG_OPEN) 0 _ s (by decide)

end Sys2Proof.Machine

namespace Sys2Proof.Machine

/-! ### Slots, identity and certificates (R371–R373, R393) -/

theorem ecPublic_length (d : Nat) : (ecPublic d).length = 65 := by
  unfold ecPublic ecBytes
  split
  · simp [zeros]
  · simp [ofNats, beBytes, leBytes_length]

theorem ecdsaSign_length (d k : Nat) (digest : List Byte) : (ecdsaSign d k digest).length = 64 := by
  unfold ecdsaSign
  split
  · simp [zeros]
  · simp [beBytes, leBytes_length]

theorem uidBytes_length : uidBytes.length = 16 := by
  simp [uidBytes, List.length_flatMap, leBytes_length]

/-- The answer of GET_IDENTITY at offset o. -/
def identityAnswer (o : Nat) (s : State) : List Byte :=
  uidBytes ++ slice (identPublic s) 0 65 ++ zeros 1 ++ leBytes 2 s.key.cert.length ++ leBytes 2 o
    ++ (s.key.cert.drop o).take 4000

theorem identityAnswer_length (o : Nat) (s : State) : (identityAnswer o s).length < 65536 := by
  have page : ((s.key.cert.drop o).take 4000).length ≤ 4000 := List.length_take_le _ _
  simp only [identityAnswer, List.length_append, uidBytes_length, slice_length, leBytes_length, zeros, List.length_replicate]
  omega

theorem getIdentityCommand_ok {b : List Byte} {s : State} (hlen : b.length = 2) (ho : leAt b 0 2 ≤ 4095) :
    getIdentityCommand b s = ((.ok, identityAnswer (leAt b 0 2) s), s) := by
  have formed : ¬ (b.length ≠ 2 ∨ 4095 < leAt b 0 2) := by omega
  simp only [getIdentityCommand]
  rw [if_neg formed]
  rfl

/-- The answer of SLOT_INFO for slot k that holds key x. -/
def slotAnswer (k : Nat) (x : KeyCopy) (s : State) : List Byte :=
  leBytes 4 x.attrs ++ leBytes 4 x.limit ++ leBytes 4 (kslot k s).count ++ leBytes 8 x.counter
    ++ leBytes 1 (if k < 256 then b2n (kslot k s).useB else 0) ++ leBytes 1 (if slotBlocked k s then 2 else 1)

theorem slotAnswer_length (k : Nat) (x : KeyCopy) (s : State) : (slotAnswer k x s).length = 22 := by
  simp [slotAnswer, leBytes_length]

theorem slotInfoCommand_ok {b : List Byte} {x : KeyCopy} {s : State} (hlen : b.length = 2) (hk : leAt b 0 2 < 0x140)
    (hx : slotCopy (leAt b 0 2) s = some x) (hkey : x.key ≠ []) :
    slotInfoCommand b s = ((.ok, slotAnswer (leAt b 0 2) x s), s) := by
  have formed : ¬ (b.length ≠ 2 ∨ 0x140 ≤ leAt b 0 2) := by omega
  have holds : slotKey (leAt b 0 2) s = some x := by simp [slotKey, hx, hkey]
  simp only [slotInfoCommand]
  rw [if_neg formed, hx, holds]
  rfl

theorem vsZeroiseCommand_slot {n : Byte} {s : State} (h : n.toNat < 64) : vsZeroiseCommand [n] s =
    ((.ok, []), keyShow { s with key := { s.key with vols := terase s.key.vols n.toNat } }) := by
  have formed : ¬ ([n].length ≠ 1 ∨ (64 ≤ byteAt [n] 0 ∧ byteAt [n] 0 ≠ 0xFF)) := by
    simp only [List.length_singleton, show byteAt [n] 0 = n.toNat from rfl]; omega
  have one : ¬ byteAt [n] 0 = 0xFF := by rw [show byteAt [n] 0 = n.toNat from rfl]; omega
  simp only [vsZeroiseCommand]
  rw [if_neg formed, if_neg one]
  rfl

theorem vsZeroiseCommand_all (s : State) :
    vsZeroiseCommand [0xFF] s = ((.ok, []), keyShow { s with key := { s.key with vols := [] } }) := rfl

/-- The challenge that SIGN_CHALLENGE signs: "Cleren9616-chal", a zero byte, then the caller's bytes. -/
def challenge (b : List Byte) : List Byte :=
  ofNats [0x43, 0x6C, 0x65, 0x72, 0x65, 0x6E, 0x39, 0x36, 0x31, 0x36, 0x2D, 0x63, 0x68, 0x61, 0x6C, 0] ++ b

theorem signChallengeCommand_ok {b : List Byte} {d : Nat} {s : State} (hlen : b.length = 32) (hd : s.key.ident = some d) :
    signChallengeCommand b s = ((.ok, ecdsaSign d (randScalar s).1 (sha256 (challenge b))), (randScalar s).2) := by
  have formed : ¬ b.length ≠ 32 := by omega
  simp only [signChallengeCommand]
  rw [if_neg formed]
  simp only [identSign, hd]
  rfl

theorem certInstallCommand_ok {b : List Byte} {s : State} (h : certOk b s = true) :
    certInstallCommand b true s = ((.ok, []), { s with key := { s.key with cert := b } }) := by
  simp [certInstallCommand, h]

theorem length_le_of_certOk {b : List Byte} {s : State} (h : certOk b s = true) : b.length ≤ 4096 := by
  simp only [certOk, Bool.and_eq_true, decide_eq_true_eq] at h
  obtain ⟨⟨hlen, -⟩, -⟩ := h
  exact hlen

/-! ### L2_RELEASE (R389) -/

theorem execL2Release_due {s : State} (hl : rd F.KEY_TAMPER_STAT_LEVEL s = 2) (hd : l2Due s = true) :
    execL2Release s = .next (s |> wr F.KEY_TAMPER_STAT_LEVEL 0 |> inc F.KEY_TAMPER_CNT_RELEASE) := by
  rw [execL2Release, if_pos ⟨hl, hd⟩]

/-- Settles O25: an allowed command shows its answer in the mailbox, and each command by what it does to the vault. -/
theorem vaultCommandsComplete : Obligations.VaultCommandsComplete := by
  unfold Obligations.VaultCommandsComplete
  refine ⟨?update, ?derive, ?ecdh, ?zeroiseOne, ?zeroiseAll, ?info, ?identity, ?sign, ?lifeCycle, ?token, ?cert, ?enter,
    ?scrap, ?tamper, ?release⟩
  case update =>
    intro who args s hlen hadmits
    have done := vaultCommand_done (keyUpdate args) hadmits
    obtain ⟨vols, count⟩ := keyUpdate_vols_lcCount args s
    refine ⟨_, guardWf_args hlen _ _, fun hok he => ?_, fun hno => ?_, done.vols.trans vols, done.lcCount.trans count⟩
    · obtain ⟨restarted, copy⟩ := keyUpdate_slot hok he
      rw [done.kslot]
      exact ⟨restarted, congrArg (Option.map _) copy⟩
    · rw [done.slots, keyUpdate_refused hno]
  case derive =>
    intro who args p s hlen hadmits hform hn hlabel hcontext hsize hattrs hp huse husage howner hfree hcount
    have done := vaultCommand_done (keyDerive who args) hadmits
    rw [keyDerive_ok hform hn hlabel hcontext hsize hattrs hp huse husage howner hfree hcount] at done
    refine ⟨_, guardWf_args hlen _ _, ?_, done.answers (by decide) (by decide) ?_, done.slots⟩
    · rw [done.vols]; exact tfind_vslotSet_same _ _ _
    · exact (useCount_useStep _ _).mbox
  case ecdh =>
    intro who args s hadmits hform hn hsize hattrs htamper hfree
    have done := vaultCommand_done (ecdhCommand args) hadmits
    rw [ecdhCommand_of_free hform hn hsize hattrs htamper hfree, ecdhAnswer] at done
    refine ⟨_, guardWf_args (by omega) _ _, fun hnone => ?_, fun hsome => ?_⟩
    · rw [hnone] at done
      exact ⟨done.vols, done.answers (by decide) (by decide) rfl⟩
    · obtain ⟨x, hx⟩ := Option.ne_none_iff_exists'.1 hsome
      rw [hx] at done
      refine ⟨?_, done.answers (by decide) (by rw [ecPublic_length]; decide) rfl⟩
      rw [done.vols, tfind_vslotSet_same]
      rfl
  case zeroiseOne =>
    intro who n s hadmits hn
    have done := vaultCommand_done (vsZeroiseCommand [n]) hadmits
    rw [vsZeroiseCommand_slot hn] at done
    exact ⟨_, rfl, done.vols, done.slots, done.answers (by decide) (by decide) rfl⟩
  case zeroiseAll =>
    intro who s hadmits
    have done := vaultCommand_done (vsZeroiseCommand [0xFF]) hadmits
    rw [vsZeroiseCommand_all] at done
    exact ⟨_, rfl, done.vols, done.slots, done.answers (by decide) (by decide) rfl⟩
  case info =>
    intro who args x s hadmits hlen hk hx hkey
    have done := vaultCommand_done (slotInfoCommand args) hadmits
    rw [slotInfoCommand_ok hlen hk hx hkey] at done
    exact ⟨_, guardWf_args (by omega) _ _, done.answers (by decide) (by rw [slotAnswer_length]; decide) rfl, done.slots,
      done.vols⟩
  case identity =>
    intro who args s hadmits hlen ho
    have done := vaultCommand_done (getIdentityCommand args) hadmits
    rw [getIdentityCommand_ok hlen ho] at done
    exact ⟨_, guardWf_args (by omega) _ _, done.answers (by decide) (identityAnswer_length _ _) rfl, done.slots⟩
  case sign =>
    intro who args d s hadmits hlen hd
    have done := vaultCommand_done (signChallengeCommand args) hadmits
    rw [signChallengeCommand_ok hlen hd] at done
    exact ⟨_, guardWf_args (by omega) _ _, done.answers (by decide) (by rw [ecdsaSign_length]; decide) rfl, done.slots⟩
  case lifeCycle =>
    intro who args s hlen hadmits
    have done := vaultCommand_done (lcRequestCommand args) hadmits
    refine ⟨_, guardWf_args hlen _ _, fun hsigner hzero hsigned hcount hallowed he => ?_, fun hunsigned => ?_⟩
    · obtain ⟨u, hu, hcounter⟩ := lcRequestCommand_accepted hsigner hzero hsigned hcount hallowed he
      rw [hu] at done
      refine ⟨?_, ?_, ?_⟩
      · rw [done.mram, inc_mram, lcTransition_mram]
      · rw [done.lcCount, inc_key, lcTransition_key]; exact hcounter
      · rw [done.sys, inc_sys]; exact lcTransition_request _ _
    · rw [done.mram, done.lcCount, lcRequestCommand_unsigned hunsigned]
      exact ⟨rfl, rfl⟩
  case token =>
    intro who args s hlen hadmits
    have done := vaultCommand_done (debugTokenCommand args) hadmits
    refine ⟨_, guardWf_args hlen _ _, fun hsigned hcycle hzero hcores hrest hcount => ?_, fun hunsigned => ?_⟩
    · rw [debugTokenCommand_accepted hsigned hcycle hzero hcores hrest hcount] at done
      rw [done.kept _ (by decide), rd_debugOpen hcores, (useCount_useStep 3 s).of_regs (by decide)]
    · obtain ⟨counted, closed⟩ := tokenRefused_counts s
      rw [done.refusedTokens, done.kept _ (by decide), debugTokenCommand_unsigned hunsigned]
      exact ⟨counted, closed⟩
  case cert =>
    intro who args s hadmits hcert
    have done := vaultCommand_done (certInstallCommand args true) hadmits
    rw [certInstallCommand_ok hcert] at done
    exact ⟨_, guardWf_args (length_le_of_certOk hcert) _ _, done.cert, done.slots, done.answers (by decide) (by decide) rfl⟩
  case enter =>
    intro who s hadmits he
    have done := vaultCommand_done lcEnterMfgCommand hadmits
    obtain ⟨u, d, hu, heq⟩ := lcEnterMfgCommand_ok he
    rw [heq] at done
    refine ⟨_, rfl, ?_, ?_, ?_, ?_⟩
    · rw [done.mram]; exact congrArg (·.lc) (lcTransition_mram 1 u)
    · rw [done.ident]; rfl
    · rw [done.lcCount]; exact (congrArg (·.lcCount) (lcTransition_key 1 u)).trans hu.lcCount
    · rw [done.sys]; exact lcTransition_request 1 u
  case scrap =>
    intro who s hadmits he
    have done := vaultCommand_done (lcUnsigned 5) hadmits
    rw [lcUnsigned_ok he] at done
    have scrapped := (lcTransition_key 5 (holdUpCheck 1 60 s).2).trans (lcEntered_scrapped _)
    refine ⟨_, rfl, ?_, ?_, ?_, ?_, ?_, ?_⟩
    · rw [done.mram]; exact congrArg (·.lc) (lcTransition_mram 5 _)
    · rw [done.ident]; exact congrArg (·.ident) scrapped
    · rw [done.cert]; exact congrArg (·.cert) scrapped
    · rw [done.slots]; exact congrArg (·.slots) scrapped
    · rw [done.vols]; exact congrArg (·.vols) scrapped
    · rw [done.sys]; exact lcTransition_request 5 _
  case tamper =>
    intro src s hon hsource
    have runs : ¬ (s.pwr.mode = 4 ∨ (4 ≤ src.val ∧ s.pwr.mode = 3)) := by omega
    refine ⟨_, congrArg Host.Outcome.next (if_neg runs), tamperDetect_active src s, tamperDetect_count src s,
      fun h => tamperDetect_vols h⟩
  case release =>
    intro s hl hd
    refine ⟨_, execL2Release_due hl hd, ?_, (regsKept_wr _ _ s).trans (regsKept_inc _ _), rfl⟩
    rw [rd_inc_ne _ _ _ (by decide)]
    exact rd_wr_of_lt s (by decide) (by decide)

end Sys2Proof.Machine

namespace Sys2Proof.Machine

/-! ### What sending an Almoith message changes (R444–R449) -/

/-- The Almoith state without the numbering of what is sent (R448). -/
def State.link (s : State) : Alm := { s.alm with seq := 0, used := 0, ready := false }

theorem link_slp (s : State) (x : Slp) : State.link { s with slp := x } = s.link := rfl

/-- A new start counter and numbering (R448). -/
theorem link_renumbered (s : State) (m : Mram) (q n : Nat) (r : Bool) :
    State.link { s with mram := m, alm := { s.alm with seq := q, used := n, ready := r } } = s.link := rfl

/-- The registers that sending a message can change: those of a counted use of its key, and those of the switch core. -/
def sendRegs : List Field := useRegs ++ admitRegs

/-- From s to t messages have been sent: the Almoith state but for its numbering, the plate, and every register but those of
sending are as they were. -/
structure SendStep (s t : State) : Prop where
  link : t.link = s.link
  cfg : t.cfg = s.cfg
  kept : RegsKept sendRegs s t

namespace SendStep

theorem refl (s : State) : SendStep s s := ⟨rfl, rfl, RegsKept.refl _ s⟩

theorem trans {s t u : State} (h : SendStep s t) (k : SendStep t u) : SendStep s u where
  link := k.link.trans h.link
  cfg := k.cfg.trans h.cfg
  kept := (h.kept.trans k.kept).mono (by simp)

theorem of_regs_eq {s t : State} (hlink : t.link = s.link) (hcfg : t.cfg = s.cfg) (hregs : t.regs = s.regs) :
    SendStep s t where
  link := hlink
  cfg := hcfg
  kept := (RegsKept.of_regs hregs).mono (by simp)

theorem of_use {s t : State} (h : UseStep s t) : SendStep s t where
  link := by rw [State.link, h.alm]; rfl
  cfg := h.cfg
  kept := h.kept.mono fun _ => List.mem_append_left _

theorem of_admit {s t : State} (h : AdmitStep s t) : SendStep s t where
  link := congrArg (fun u : State => { u.alm with seq := 0, used := 0, ready := false }) h.1
  cfg := (congrArg State.cfg h.1 :)
  kept := RegsKept.mono h.2 fun _ => List.mem_append_right _

theorem each {α : Type} (l : List α) (f : α → State → State) (s : State) (h : ∀ a s, SendStep s (f a s)) :
    SendStep s (each l f s) := by
  induction l generalizing s with
  | nil => exact .refl s
  | cons a l ih => exact (h a s).trans (ih _)

end SendStep

theorem tagUse_sendStep (slot : Nat) (s : State) : SendStep s (tagUse slot s).2 := by
  have counted := SendStep.of_use (useCount_useStep slot s)
  simp only [tagUse]
  split
  · exact .refl s
  · split <;> (rename_i used; rw [used] at counted; exact counted)

theorem mramNow_linkStart_sendStep (v : Nat) (s : State) : SendStep s (mramNow (.linkStart v) s).2 := by
  have checked := SendStep.of_use (holdUpCheck_useStep (mramNeed (.linkStart v)).1 (mramNeed (.linkStart v)).2 s)
  simp only [mramNow]
  split
  · have renumbered (u : State) : SendStep u (mramApply (.linkStart v) u) := .of_regs_eq (link_renumbered ..) rfl rfl
    exact (checked.trans (renumbered _)).trans (.of_use (wr_useStep (by simp [useRegs]) _ _))
  · exact checked.trans (.of_regs_eq rfl rfl rfl)

theorem almNumbered_sendStep (s : State) : SendStep s (almNumbered s) := by
  simp only [almNumbered]
  split
  · refine SendStep.trans ?_ (mramNow_linkStart_sendStep _ _)
    exact .of_regs_eq rfl rfl rfl
  · exact .of_regs_eq rfl rfl rfl

theorem almOut_sendStep (port vlan : Nat) (dst : List Byte) (type flags : Nat) (body : List Byte)
    (key : Option (List Byte)) (s : State) : SendStep s (almOut port vlan dst type flags body key s).2 := by
  simp only [almOut]
  split
  · exact .refl s
  · exact (almNumbered_sendStep s).trans (.of_admit (submit_admitStep 9 _ _))

theorem almTo_sendStep (i type flags : Nat) (body : List Byte) (s : State) : SendStep s (almTo i type flags body s).2 := by
  have tagged := tagUse_sendStep (peerN i 12 2 s) s
  simp only [almTo]
  split
  · exact almOut_sendStep ..
  · split <;> (rename_i used; rw [used] at tagged)
    · exact tagged.trans (almOut_sendStep ..)
    · exact tagged

theorem almRing_sendStep (skip : List Nat) (type flags : Nat) (body : List Byte) (s : State) :
    SendStep s (almRing skip type flags body s) :=
  SendStep.each _ _ s fun i s => almTo_sendStep i type flags body s

theorem beaconPort_sendStep (p : Nat) (body : List Byte) (s : State) : SendStep s (beaconPort p body s) := by
  have tagged := tagUse_sendStep (cfgN C.almHdr 0 0x28 2 s) s
  simp only [beaconPort]
  split
  · exact almTo_sendStep ..
  · split <;> (rename_i used; rw [used] at tagged)
    · exact tagged.trans (almOut_sendStep ..)
    · exact tagged

/-! ### The evaluation of the demand keeps the Almoith state (R423, R431–R435) -/

theorem each_link {α : Type} (l : List α) (f : α → State → State) (s : State) (h : ∀ a s, (f a s).link = s.link) :
    (each l f s).link = s.link := each_keeps State.link l f s h

theorem transmit_link (d : Domain) (o : Out) (s : State) : (transmit d o s).link = s.link := by
  unfold transmit; split <;> rfl

theorem almRing_link (skip : List Nat) (type flags : Nat) (body : List Byte) (s : State) :
    (almRing skip type flags body s).link = s.link := (almRing_sendStep skip type flags body s).link

theorem sbsWrite_link (w : SbsWriter) (o : Nat) (v : Bool) (s : State) : (sbsWrite w o v s).link = s.link :=
  (congrArg State.link (sbsWrite_besideOutputs w o v s) :)

theorem resWake_link (s : State) : (resWake s).link = s.link := by
  refine (each_link _ _ _ fun l s => ?_).trans (each_link _ _ s fun c s => ?_)
  · split
    · exact sbsWrite_link _ _ _ s
    · rfl
  · split
    · exact sbsWrite_link _ _ _ _
    · rfl

theorem t1sPattern_link (sg : Nat) (s : State) : (t1sPattern sg s).link = s.link := by
  unfold t1sPattern
  split
  · rfl
  · exact transmit_link _ _ _

theorem t1sWakeTx_link (sg w : Nat) (s : State) : (t1sWakeTx sg w s).link = s.link := by
  simp only [t1sWakeTx]
  split
  · rfl
  · split
    · rfl
    · split
      · rfl
      · exact when_keeps _ State.link (t1sPattern_link sg _)

theorem linWakeUp_link (ch : Nat) (s : State) : (linWakeUp ch s).link = s.link := by
  simp only [linWakeUp]
  split
  · exact transmit_link _ _ s
  · rfl

theorem wakeBroadcast_link (w reason : Nat) (late : Bool) (s : State) : (wakeBroadcast w reason late s).link = s.link := by
  have passed (u : State) : (almRing [] 8 0 (wakeBody w reason (b2n late)) u).link = u.link := almRing_link _ _ _ _ u
  have lins (u : State) : (each (List.range 32) linWakeUp u).link = u.link := each_link _ _ u linWakeUp_link
  have segs (u : State) : (each (List.range 16) (fun sg => t1sWakeTx sg w) u).link = u.link :=
    each_link _ _ u fun sg => t1sWakeTx_link sg w
  simp only [wakeBroadcast, link_slp, passed, lins, segs]

theorem slpConfirm_link (s : State) : (slpConfirm s).link = s.link := by
  simp only [slpConfirm]; split <;> rfl

theorem wakeGroupsFor_link (w reason : Nat) (late : Bool) (s : State) :
    (wakeGroupsFor w reason late s).link = s.link :=
  (slpConfirm_link _).trans (when_keeps _ State.link ((wakeBroadcast_link _ _ _ _).trans (resWake_link _)))

theorem wakeLatch_link (r m : Nat) (s : State) : (wakeLatch r m s).link = s.link := by rw [wakeLatch_frame]; rfl

theorem vetoSend_link (skip : List Nat) (body : List Byte) (s : State) : (vetoSend skip body s).link = s.link := by
  simp only [vetoSend]
  split
  · rfl
  · exact almRing_link _ _ _ _ _

theorem lateWake_link (r m : Nat) (s : State) : (lateWake r m s).link = s.link := by
  simp only [lateWake]
  split
  · rfl
  · rw [State.link, record_alm]; rfl

theorem wakeNoted_link (r m : Nat) (late : Bool) (s : State) : (wakeNoted r m late s).link = s.link :=
  when_keeps late State.link (lateWake_link r m s)

theorem roundStopped_link (m : Nat) (s : State) : (roundStopped m s).link = s.link := by
  have cancelled (u : State) : (roundCancel u).link = u.link := rfl
  unfold roundStopped
  split
  · split
    · exact (cancelled _).trans (vetoSend_link _ _ s)
    · exact cancelled s
  · rfl

theorem wakeAct_link (r m : Nat) (late : Bool) (s : State) : (wakeAct r m late s).link = s.link := by
  have noted := wakeNoted_link r m late s
  rw [wakeAct_eq]
  split
  · exact noted
  · split
    · exact noted
    · exact (wakeGroupsFor_link _ _ _ _).trans ((roundStopped_link m _).trans noted)

theorem wakeReason_link (r m : Nat) (late : Bool) (s : State) : (wakeReason r m late s).link = s.link := by
  simp only [wakeReason]
  split
  · rfl
  · split
    · exact wakeLatch_link r m s
    · exact (wakeAct_link r m _ _).trans (wakeLatch_link r m s)

theorem slpEval_link (s : State) : (slpEval s).link = s.link :=
  (slpConfirm_link _).trans ((when_keeps _ State.link (wakeReason_link _ _ _ _)).trans
    (when_keeps _ State.link (wakeReason_link _ _ _ _)))

/-! ### A commit keeps the Almoith state (R280, R287, R290, R291) -/

theorem evRaise_link (g : Nat) (v : Ev) (s : State) : (evRaise g v s).link = s.link := by
  unfold evRaise
  split
  · rw [pendMark, markMax_frame]; rfl
  · rfl

theorem pduDue_link (p : Nat) (s : State) : (pduDue p s).link = s.link := by
  simp only [pduDue]
  split
  · rfl
  · split
    · rfl
    · split
      · rfl
      · exact evRaise_link _ _ s

theorem pduChange_link (p : Nat) (s : State) : (pduChange p s).link = s.link := by
  simp only [pduChange]
  split
  · rfl
  · exact pduDue_link p s

theorem afterCommit_link (l : List Nat) (w : Nat) (s : State) : (afterCommit l w s).link = s.link := by
  have triggered (u : State) : (if w < 0x2000 then
      each ((cfgIdx C.sigPdu u).filter fun p => pduMode p u == 3 && pduN p 0x12 2 u == w) pduDue u else u).link = u.link := by
    split
    · exact each_link _ _ u pduDue_link
    · rfl
  refine (triggered _).trans (each_link _ _ s fun p s => ?_)
  dsimp only
  split
  · rfl
  · split
    · exact pduChange_link p _
    · rfl

/-- A single write to an own signal. -/
theorem sigCommit_single_link {w : Staged} {s : State} (ho : sigOwner w.sig s = none) :
    (sigCommit [w] s).link = s.link := by
  have one : [w.writer].eraseDups = [w.writer] := rfl
  simp only [sigCommit, List.foldl_cons, List.foldl_nil, sigWrite, ho, List.map_cons, List.map_nil, one]
  rw [slpEval_link, afterCommit_link]
  split <;> rfl

end Sys2Proof.Machine

namespace Sys2Proof.Machine

/-! ### Leaves and beacons (R461–R463) -/

theorem prfShow_alm (s : State) : (prfShow s).alm = s.alm := rfl

@[simp] theorem leafSet_alm (n : Nat) (l : Leaf) (s : State) :
    (leafSet n l s).alm = { s.alm with leaves := tput s.alm.leaves n l } := by
  simp only [leafSet, prfShow_alm]
  exact when_keeps _ (fun s : State => s.alm) (record_alm ..)

theorem leaf_leafSet_same (n : Nat) (l : Leaf) (s : State) : leaf n (leafSet n l s) = l := by
  rw [leaf, leafSet_alm]; exact tget_tput_same _ _ _ _

/-- What the observer keeps of a node whose beacon it takes: its state and its plate, and that it has spoken. -/
theorem observe_shown (n form plate : Nat) (pre : List Byte) (early : Bool) (s : State) :
    (leaf n (observe n form plate pre early s)).st = classify n plate pre early s ∧
      (leaf n (observe n form plate pre early s)).plate = plate ∧
      n ∈ (observe n form plate pre early s).alm.spoken := by
  simp only [observe]
  split
  case isTrue same =>
    have kept := same.symm
    refine ⟨?_, ?_, mem_sins _ _⟩
    · exact congrArg (·.st) kept
    · exact congrArg (·.plate) kept
  case isFalse =>
    rw [leaf_leafSet_same, leafSet_alm]
    exact ⟨rfl, rfl, mem_sins _ _⟩

theorem beaconUse_observed {n : Nat} {s : State} (h : observes n s = true) (form plate : Nat) (pre : List Byte)
    (early : Bool) : beaconUse n form plate pre early s = observe n form plate pre early s := by
  rw [beaconUse, if_pos h]

theorem cfgRec_congr {s t : State} (h : t.cfg = s.cfg) (k i : Nat) : cfgRec k i t = cfgRec k i s := by
  rw [cfgRec, cfgRec, h]

/-- The plate in force decides what the observer makes of a beacon. -/
theorem classify_congr {s t : State} (h : t.cfg = s.cfg) (n plate : Nat) (pre : List Byte) (early : Bool) :
    classify n plate pre early t = classify n plate pre early s := by
  unfold classify rosN cfgN
  rw [cfgRec_congr h]

theorem observes_congr {s t : State} (h : t.cfg = s.cfg) (n : Nat) : observes n t = observes n s := by
  unfold observes rosN ownNode cfgHas cfgN
  rw [cfgRec_congr h, cfgRec_congr h]

/-- The body of the own beacon (R461). -/
def ownBeacon (s : State) : List Byte :=
  leBytes 2 (ownNode s) ++ leBytes 4 (ownPlate s).1 ++ (ownPlate s).2 ++ leBytes 4 (rosterEpoch s) ++ leBytes 2 (ownRole s)

/-- The CAN form of the own beacon (R461). -/
def ownCanBeacon (s : State) : List Byte :=
  canBytes { fmt := .cc, id := cfgN C.almHdr 0 0x14 4 s % 2 ^ 29, ide := bit (cfgN C.almHdr 0 0x14 4 s) 29, rtr := false,
             brs := false, esi := false, sec := false, sdt := 0, vcid := 0, af := 0,
             data := leBytes 4 (ownNode s + (ownPlate s).1 % 2 ^ 20 * 4096) ++ (ownPlate s).2.take 4 }

/-- The Ethernet forms of the own beacon have been sent. -/
def ethBeaconsSent (s : State) : State :=
  almRing [] 1 0 (ownBeacon s) s
    |> each ((bitList (cfgN C.almHdr 0 0x24 4 s) 32).filter fun p => (peerAt p s).isNone) (fun p => beaconPort p (ownBeacon s))

/-- Every form of the own beacon has been sent. -/
def beaconsSent (s : State) : State :=
  each (bitList (cfgN C.almHdr 0 0x18 12 s) 96) (fun c u =>
    (submit 9 { data := ownCanBeacon s, src := 9 * 4096, lookup := directedKind, untag := true, exempt := true,
                dests := [(256 + 4 * c, false, 0)] } u).2) (ethBeaconsSent s)

theorem beaconsSent_sendStep (s : State) : SendStep s (beaconsSent s) := by
  have ring := almRing_sendStep [] 1 0 (ownBeacon s) s
  have ports : SendStep s (ethBeaconsSent s) := ring.trans (SendStep.each _ _ _ fun p u => beaconPort_sendStep p _ u)
  exact ports.trans (SendStep.each _ _ _ fun _ _ => .of_admit (submit_admitStep 9 _ _))

theorem execBeaconInterval_eq (s : State) : execBeaconInterval s =
    .next (if !svcUp 4 s ∨ !cfgHas C.almHdr 0 s then s
      else if observes (ownNode (beaconsSent s)) (beaconsSent s) then
        observe (ownNode (beaconsSent s)) 0 (ownPlate s).1 (ownPlate s).2 (stage (beaconsSent s) == 6) (beaconsSent s)
      else beaconsSent s) := rfl

theorem ownNode_congr {s t : State} (h : t.cfg = s.cfg) : ownNode t = ownNode s := by
  rw [ownNode, ownNode, cfgN, cfgN, cfgRec_congr h]

/-- After its beacons have been sent, the device observes itself where the roster says so (R461). -/
theorem execBeaconInterval_observed {s : State} (hup : svcUp 4 s = true) (hcfg : cfgHas C.almHdr 0 s = true)
    (ho : observes (ownNode s) s = true) : execBeaconInterval s =
      .next (observe (ownNode s) 0 (ownPlate s).1 (ownPlate s).2 (stage (beaconsSent s) == 6) (beaconsSent s)) := by
  have runs : ¬ ((!svcUp 4 s) = true ∨ (!cfgHas C.almHdr 0 s) = true) := by simp [hup, hcfg]
  have plate := (beaconsSent_sendStep s).cfg
  have own : observes (ownNode s) (beaconsSent s) = true := (observes_congr plate _).trans ho
  rw [execBeaconInterval_eq, if_neg runs, ownNode_congr plate, if_pos own]

theorem execNodeSilence_silent {n : Fin 4096} {s : State} (hr : cfgHas C.roster n s = true) (hup : svcUp 4 s = true)
    (hd : silenceDue n s = true) (ho : observes n s = true) (hst : (leaf n s).st ≠ 3) : execNodeSilence n s =
      .next (leafSet n { leaf n s with st := 3, seq := ((leaf n s).seq + 1) % 2 ^ 32 }
        { s with alm := { s.alm with spoken := sins s.alm.spoken n } }) := by
  have runs : ¬ ((!cfgHas C.roster n s) = true ∨ (!svcUp 4 s) = true ∨ (!silenceDue n s) = true) := by simp [hr, hup, hd]
  have silent : (observes n s && (leaf n s).st != 3) = true := by simp [ho, hst]
  simp only [execNodeSilence]
  rw [if_neg runs]
  exact congrArg Host.Outcome.next (if_pos silent)

end Sys2Proof.Machine

namespace Sys2Proof.Machine

/-! ### Digests and ranges (R465, R466) -/

theorem SendStep.roots {s t : State} (h : SendStep s t) : t.alm.roots = s.alm.roots := (congrArg Alm.roots h.link :)
theorem SendStep.opens {s t : State} (h : SendStep s t) : t.alm.opens = s.alm.opens := (congrArg Alm.opens h.link :)
theorem SendStep.writes {s t : State} (h : SendStep s t) : t.alm.writes = s.alm.writes := (congrArg Alm.writes h.link :)
theorem opens_of_link {s t : State} (h : t.link = s.link) : t.alm.opens = s.alm.opens := (congrArg Alm.opens h :)
theorem writes_of_link {s t : State} (h : t.link = s.link) : t.alm.writes = s.alm.writes := (congrArg Alm.writes h :)

theorem rangeAsk_roots (i level idx : Nat) (s : State) : (rangeAsk i level idx s).alm.roots = s.alm.roots := by
  simp only [rangeAsk]
  exact (almTo_sendStep i 3 0 _ _).roots

/-- A peer's root digest is kept, whatever is asked for next. -/
theorem digestTaken_root (i : Nat) (b : List Byte) (s : State) :
    tfind (digestTaken i b s).alm.roots i = some (slice b 8 16) := by
  have kept : (digestTaken i b s).alm.roots = tput s.alm.roots i (slice b 8 16) := by
    simp only [digestTaken]
    split
    · rfl
    · exact each_keeps (fun s : State => s.alm.roots) _ _ _ fun k s => rangeAsk_roots i 1 k s
  rw [kept, tfind_tput_same]

/-! ### Requests and answers (R452–R456) -/

theorem remoteAnswer_sendStep (node id i : Nat) (st : Status) (write : Bool) (s : State) :
    SendStep s (remoteAnswer node id i st write s) := by
  simp only [remoteAnswer]
  split
  · exact almTo_sendStep ..
  · exact .refl s

theorem remoteAnswer_sig (node id i : Nat) (st : Status) (write : Bool) (s : State) :
    (remoteAnswer node id i st write s).sig = s.sig := by
  simp only [remoteAnswer]
  split
  · exact almTo_sig ..
  · rfl

/-- The owner's value in the local copy, with the owner's commit time. -/
theorem copyCommit_sigEnt {i : Nat} (v time : Nat) {s : State} (ht : sigType i s ≠ 4) :
    (sigEnt i (copyCommit i v time s)).val = sigFit (sigType i s) (sigWidth i s) v ∧
      (sigEnt i (copyCommit i v time s)).time = time ∧ (sigEnt i (copyCommit i v time s)).writer = 0xA000 := by
  have entry : sigEnt i (copyCommit i v time s) = sigEnt i (sigPut i v (arrayHead i v s) 0xA000 time s) := by
    simp only [copyCommit, sigEnt, slpEval_sig, afterCommit_store]
  rw [entry, sigEnt_sigPut i v _ _ time ht]
  exact ⟨rfl, rfl, rfl⟩

theorem copyCommit_link (i v time : Nat) (s : State) : (copyCommit i v time s).link = s.link := by
  simp only [copyCommit]
  exact (slpEval_link _).trans (afterCommit_link _ _ _)

/-- The interrupt of a taken copy changes neither the signals nor the link. -/
theorem copyShown_kept (b : Bool) (s : State) : (when b (irqCause F.HST_IRQ_REMOTE) s).sig = s.sig ∧
    (when b (irqCause F.HST_IRQ_REMOTE) s).link = s.link := by
  unfold when irqCause
  split
  · exact ⟨raiseVector_sig .., congrArg (fun a : Alm => { a with seq := 0, used := 0, ready := false }) (raiseVector_alm ..)⟩
  · exact ⟨rfl, rfl⟩

/-- A signal whose write is answered OK is this device's own (R451, R455). -/
theorem sigOwner_of_remoteStatus {i : Nat} {s : State} (h : remoteStatus i true s = .ok) : sigOwner i s = none := by
  simp only [remoteStatus] at h
  by_cases ho : (sigOwner i s).isSome = true
  · simp [ho] at h
  · simpa using ho

/-- A single write to an own signal that is no array, whatever bytes come with it. -/
theorem sigEnt_sigCommit_arr {i v n : Nat} (arr : List Byte) {s : State} (ho : sigOwner i s = none) (ht : sigType i s ≠ 4) :
    (sigEnt i (sigCommit [⟨i, v, arr, n⟩] s)).val = sigFit (sigType i s) (sigWidth i s) v ∧
      (sigEnt i (sigCommit [⟨i, v, arr, n⟩] s)).writer = n := by
  have entry : sigEnt i (sigCommit [⟨i, v, arr, n⟩] s) = sigEnt i (sigPut i v arr n (shortNs s) s) := by
    simp only [sigEnt, sigCommit_store, List.foldl_cons, List.foldl_nil, sigWrite, ho]
  rw [entry, sigEnt_sigPut i v arr n _ ht]
  exact ⟨rfl, rfl⟩

/-- The identifier of a write is held at its owner. -/
def writeHeld (node id : Nat) (s : State) : State :=
  { s with alm := { s.alm with writes := tput s.alm.writes node ((id :: tget [] s.alm.writes node).take 64) } }

theorem remoteApply_new {retry : Bool} {node id i v : Nat} {s : State} (hn : nodeRefused node s = false)
    (hs : remoteStatus i true s = .ok) (hid : (tget [] s.alm.writes node).contains id = false) :
    remoteApply retry node id i v s =
      (.ok, sigCommit [⟨i, v, arrayHead i v (writeHeld node id s), 0xA000⟩] (writeHeld node id s)) := by
  simp only [remoteApply, hn, hs, hid, Bool.and_false, Bool.false_eq_true, if_false]
  rfl

end Sys2Proof.Machine

namespace Sys2Proof.Machine

/-! ### Requests sent again (R456) -/

/-- Every request of this identifier is sent again now. -/
def openAgain (id : Nat) (s : State) : State :=
  { s with alm := { s.alm with opens := s.alm.opens.map fun x =>
      if x.id = id then { x with tries := x.tries + 1, at_ := s.time.loc } else x } }

theorem execRemoteRetry_again {id : Nat} {r : OpenReq} {s : State} (hr : s.alm.opens.find? (·.id == id) = some r)
    (hup : svcUp 5 s = true) (hd : retryDue r s = true) (ht : r.tries < cfgN C.almHdr 0 0x10 1 s) (hk : r.kind = 0) :
    ∃ t, execRemoteRetry id s = .next t ∧ SendStep (inc F.PRF_RR_RETRIES (openAgain id s)) t := by
  have up : svcUp (msgSvc (openType r)) s = true := by rw [openType, hk]; exact hup
  refine ⟨_, by simp only [execRemoteRetry, hr, up, hd, hk, Bool.not_true, Bool.or_self, Bool.false_eq_true, if_false,
    if_pos ht]; rfl, ?_⟩
  split
  · exact almTo_sendStep ..
  · exact .refl _

theorem execRemoteRetry_failed {id : Nat} {r : OpenReq} {s : State} (hr : s.alm.opens.find? (·.id == id) = some r)
    (hup : svcUp 5 s = true) (hd : retryDue r s = true) (ht : cfgN C.almHdr 0 0x10 1 s ≤ r.tries) (hk : r.kind = 0) :
    execRemoteRetry id s = .next (inc F.PRF_RR_FAILS (openDone r s)) := by
  have up : svcUp (msgSvc (openType r)) s = true := by rw [openType, hk]; exact hup
  simp only [execRemoteRetry, hr, up, hd, hk, Bool.not_true, Bool.or_self, Bool.false_eq_true, if_false,
    if_neg (Nat.not_lt.2 ht), openFail]

/-! ### Snapshot parts (R458) -/

/-- The first fragment of a part of more than one. -/
theorem partAdd_first {node : Nat} {b : List Byte} {s : State} (hlen : 12 ≤ b.length) (hi : byteAt b 1 < byteAt b 2)
    (hn : byteAt b 2 ≠ 1) (hs : s.alm.parts = []) : (partAdd node b s).alm.parts =
      [⟨node, byteAt b 0, leAt b 4 4, byteAt b 2, [(byteAt b 1, (leAt b 8 4, b.drop 12))], s.time.loc⟩] := by
  have formed : ¬ (b.length < 12 ∨ byteAt b 2 ≤ byteAt b 1) := by omega
  have more : ¬ (tput ([] : Tbl (Nat × List Byte)) (byteAt b 1) (leAt b 8 4, b.drop 12)).length = byteAt b 2 := by
    simpa [tput] using Ne.symm hn
  simp only [partAdd]
  rw [if_neg formed]
  simp only [hs, List.find?_nil, Option.getD_none]
  rw [if_neg more]
  rfl

/-! ### Tunnels (R460) -/

theorem byteAt_drop (l : List Byte) (n i : Nat) : byteAt (l.drop n) i = byteAt l (n + i) := by
  simp [byteAt]

theorem leAt_drop (l : List Byte) (n i w : Nat) : leAt (l.drop n) i w = leAt l (n + i) w := by
  simp only [leAt, slice, byteAt_drop, Nat.add_assoc]

end Sys2Proof.Machine

namespace Sys2Proof.Machine

/-! ### Accepted messages (R449, R453–R466) -/

section
variable {port : Fin 32} {msg b : List Byte} {s u : State}

theorem exec_beacon_eth (ha : beaconAccept msg s = (some b, u)) (hlen : b.length = 28) :
    exec (.beacon (.eth port msg)) s =
      .next (beaconUse (leAt b 0 2) 0 (leAt b 2 4) (slice b 6 16) (bit (leAt b 0x1A 2) 2) u) := by
  simp [execBeacon, ha, hlen]

theorem exec_beacon_can {ch : Fin 96} {id : Nat} (hup : svcUp 4 s = true) (hcfg : cfgHas C.almHdr 0 s = true)
    (hlen : b.length = 8) (hid : id = cfgN C.almHdr 0 0x14 4 s) (hch : bit (cfgN C.almHdr 0 0x18 12 s) ch = true) :
    exec (.beacon (.can ch id b)) s = .next (beaconUse (leAt b 0 4 % 4096) 1
      (beaconPlate (leAt b 0 4 % 4096) (leAt b 0 4 / 4096) s) (slice b 4 4) false s) := by
  simp [execBeacon, hup, hcfg, hlen, hid, hch]

theorem exec_rosterDigest_taken {i : Nat} (ha : almAccept 2 msg s = (some b, u)) (hlen : b.length = 280)
    (he : leAt b 0 4 = rosterEpoch u) (hp : peerOf (msgNode msg) u = some i) :
    exec (.rosterDigest port msg) s = .next (digestTaken i b u) := by
  simp [execRosterDigest, ha, hlen, he, hp]

theorem exec_rosterRange_asked {i : Nat} (ha : almAccept 3 msg s = (some b, u)) (hp : peerOf (msgNode msg) u = some i)
    (hreq : bit (msgFlags msg) 0 = false) (hlen : b.length = 4)
    (hidx : (byteAt b 0 = 1 ∧ leAt b 2 2 < 16) ∨ (byteAt b 0 = 2 ∧ leAt b 2 2 < 256)) :
    exec (.rosterRange port msg) s = .next (almTo i 3 1 (rangeBody (byteAt b 0) (leAt b 2 2) u) u).2 := by
  have inside : ¬ (b.length ≠ 4 ∨ byteAt b 0 = 0 ∨ 2 < byteAt b 0 ∨ (if byteAt b 0 = 1 then 16 else 256) ≤ leAt b 2 2) := by
    rcases hidx with ⟨hl, hi⟩ | ⟨hl, hi⟩ <;> simp [hl, hlen, hi]
  simp only [exec_rosterRange, execRosterRange, ha, hp, hreq, Bool.false_eq_true, if_false]
  rw [if_neg inside]

theorem exec_remoteRead_answered (ha : almAccept 4 msg s = (some b, u)) (hlen : b.length = 8) :
    exec (.remoteRead port msg) s =
      .next (remoteAnswer (msgNode msg) (leAt b 0 4) (leAt b 4 2) (remoteStatus (leAt b 4 2) false u) false u) := by
  simp [execRemoteRead, ha, hlen]

/-- An answer that gives no copy: the request is no longer open, and a refused write is counted. -/
def answerRefused (r : OpenReq) (b : List Byte) (u : State) : State :=
  when (r.kind == 1 && byteAt b 6 == 2) (inc F.PRF_RW_FAILS) (openDone r u)

/-- An answer that gives a copy of the owner's value. -/
def answerTaken (r : OpenReq) (b : List Byte) (u : State) : State :=
  when (r.kind == 0) (irqCause F.HST_IRQ_REMOTE) (copyCommit r.sig (leAt b 8 8) (leAt b 16 8) (openDone r u))

theorem exec_remoteReadRsp_open {r : OpenReq} (ha : almAccept 5 msg s = (some b, u)) (hlen : b.length = 28)
    (hr : openFor (b2n (bit (byteAt b 7) 0)) (msgNode msg) (leAt b 0 4) (leAt b 4 2) u = some r) :
    exec (.remoteReadRsp port msg) s = .next (if byteAt b 6 = 0 ∧ (sigOwner r.sig u).isSome = true then answerTaken r b u
      else answerRefused r b u) := by
  simp only [exec_remoteReadRsp, execRemoteReadRsp, ha, hlen, ne_eq, not_true_eq_false, if_false, hr]
  rfl

theorem answerTaken_opens (r : OpenReq) (b : List Byte) (u : State) :
    (answerTaken r b u).alm.opens = u.alm.opens.erase r := by
  obtain ⟨-, link⟩ := copyShown_kept (r.kind == 0) (copyCommit r.sig (leAt b 8 8) (leAt b 16 8) (openDone r u))
  exact (opens_of_link link).trans (opens_of_link (copyCommit_link _ _ _ _))

theorem answerRefused_opens (r : OpenReq) (b : List Byte) (u : State) :
    (answerRefused r b u).alm.opens = u.alm.opens.erase r :=
  when_keeps _ (fun s : State => s.alm.opens) rfl

theorem answerTaken_sigEnt {r : OpenReq} (b : List Byte) {u : State} (ht : sigType r.sig u ≠ 4) :
    (sigEnt r.sig (answerTaken r b u)).val = sigFit (sigType r.sig u) (sigWidth r.sig u) (leAt b 8 8) ∧
      (sigEnt r.sig (answerTaken r b u)).time = leAt b 16 8 ∧ (sigEnt r.sig (answerTaken r b u)).writer = 0xA000 := by
  obtain ⟨sig, -⟩ := copyShown_kept (r.kind == 0) (copyCommit r.sig (leAt b 8 8) (leAt b 16 8) (openDone r u))
  rw [answerTaken, sigEnt, sig]
  exact copyCommit_sigEnt (s := openDone r u) _ _ ht

/-- A new write has been committed at its owner (R455). -/
def writeTaken (node id i v : Nat) (s : State) : State :=
  sigCommit [⟨i, v, arrayHead i v (writeHeld node id s), 0xA000⟩] (writeHeld node id s)

theorem writeTaken_sigEnt {i : Nat} (node id v : Nat) {s : State} (ho : sigOwner i s = none) (ht : sigType i s ≠ 4) :
    (sigEnt i (writeTaken node id i v s)).val = sigFit (sigType i s) (sigWidth i s) v ∧
      (sigEnt i (writeTaken node id i v s)).writer = 0xA000 :=
  sigEnt_sigCommit_arr (s := writeHeld node id s) _ ho ht

theorem writeTaken_writes {i : Nat} (node id v : Nat) {s : State} (ho : sigOwner i s = none) :
    tget [] (writeTaken node id i v s).alm.writes node = (id :: tget [] s.alm.writes node).take 64 := by
  have own : sigOwner (Staged.mk i v (arrayHead i v (writeHeld node id s)) 0xA000).sig (writeHeld node id s) = none := ho
  rw [writeTaken, writes_of_link (sigCommit_single_link own)]
  exact tget_tput_same _ _ _ _

theorem exec_remoteWrite_new (ha : almAccept 6 msg s = (some b, u)) (hlen : b.length = 16)
    (hn : nodeRefused (msgNode msg) u = false) (hs : remoteStatus (leAt b 4 2) true u = .ok)
    (hid : (tget [] u.alm.writes (msgNode msg)).contains (leAt b 0 4) = false) :
    exec (.remoteWrite port msg) s = .next (remoteAnswer (msgNode msg) (leAt b 0 4) (leAt b 4 2) .ok true
      (writeTaken (msgNode msg) (leAt b 0 4) (leAt b 4 2) (leAt b 8 8) u)) := by
  simp only [exec_remoteWrite, execRemoteWrite, ha, hlen, ne_eq, not_true_eq_false, if_false, remoteApply_new hn hs hid]
  rfl

theorem exec_snapshotMessage_collected (ha : almAccept 7 msg s = (some b, u))
    (hc : cfgN C.almHdr 0 0x12 2 u = ownNode u) :
    exec (.snapshotMessage port msg) s = .next (partAdd (msgNode msg) b u) := by
  simp [execSnapshotMessage, ha, hc]

theorem exec_tunnel_diag (ha : almAccept 9 msg s = (some b, u)) (hlen : 20 ≤ b.length)
    (hn : nodeRefused (msgNode msg) u = false) (hd : byteAt b 0 = 0xFF) :
    exec (.tunnel port msg) s = .next (tunnelDiag (b.drop 4) u) := by
  simp [execTunnel, ha, Nat.not_lt.2 hlen, hn, hd]

theorem exec_tunnel_routed {l : List Nat} {v : State} (ha : almAccept 9 msg s = (some b, u)) (hlen : 20 ≤ b.length)
    (hn : nodeRefused (msgNode msg) u = false) (hd : byteAt b 0 ≠ 0xFF)
    (hr : routesFor 3 0 0 (leAt b 4 4 % 2 ^ 30) u = (l, v)) :
    exec (.tunnel port msg) s = .next (each l (tunnelRoute (byteAt b 1) (b.drop 4)) v) := by
  simp only [exec_tunnel, execTunnel, ha, Nat.not_lt.2 hlen, hn, hd, leAt_drop, Nat.add_zero, hr, Bool.false_eq_true, if_false]

theorem exec_timeHealth_kept {i : Nat} (ha : almAccept 10 msg s = (some b, u)) (hlen : b.length = 64)
    (hp : peerOf (msgNode msg) u = some i) :
    exec (.timeHealth port msg) s = .next { u with alm := { u.alm with health := tput u.alm.health i b } } := by
  simp [execTimeHealth, ha, hlen, hp]

end

/-- The guard of a service's period does not hold while the service answers and the plate gives the link. -/
theorem linkServed {svc : Nat} {s : State} (hup : svcUp svc s = true) (hcfg : cfgHas C.almHdr 0 s = true) :
    ¬ ((!svcUp svc s) = true ∨ (!cfgHas C.almHdr 0 s) = true) := by simp [hup, hcfg]

/-- A part that has timed out is gone (R458). -/
def partDropped (n k q : Nat) (s : State) : State :=
  { s with alm := { s.alm with parts := s.alm.parts.filter fun p => !(p.sender == n && p.set_ == k && p.seq == q) } }

theorem exec_snapshotReassembly_due {n : Fin 4096} {k : Fin 64} {q : Nat} {s : State} (hup : svcUp 5 s = true)
    (hd : s.alm.parts.any (fun p => p.sender == n.val && p.set_ == k.val && p.seq == q &&
      decide (p.at_ + 10000000 ≤ s.time.loc)) = true) :
    exec (.snapshotReassembly n k q) s = .next (inc F.PRF_SNAP_INCOMPLETE (partDropped n k q s)) := by
  simp only [exec_snapshotReassembly, execSnapshotReassembly, hup, hd, Bool.and_self, if_true]
  rfl

/-- Settles O29: what an accepted message does to the leaves, digests, requests and parts, none of which the messages sent
with it or the wakes that follow a commit can change. -/
theorem almoithAndProofComplete : Obligations.AlmoithAndProofComplete := by
  unfold Obligations.AlmoithAndProofComplete
  refine ⟨?beacon, ?canBeacon, ?ownBeacon, ?silence, ?period, ?digest, ?range, ?read, ?answer, ?write, ?retry, ?fail,
    ?fragment, ?timeout, ?diag, ?routed, ?health, ?interval, ?resync⟩
  case beacon =>
    intro port msg b u s ha hlen ho
    refine ⟨_, (exec_beacon_eth ha hlen).trans (by rw [beaconUse_observed ho]), ?_⟩
    exact observe_shown ..
  case canBeacon =>
    intro ch id b s hup hcfg hlen hid hch ho
    refine ⟨_, (exec_beacon_can hup hcfg hlen hid hch).trans (by rw [beaconUse_observed ho]), ?_⟩
    obtain ⟨state, -, spoken⟩ := observe_shown (leAt b 0 4 % 4096) 1
      (beaconPlate (leAt b 0 4 % 4096) (leAt b 0 4 / 4096) s) (slice b 4 4) false s
    exact ⟨state, spoken⟩
  case ownBeacon =>
    intro s hup hcfg ho
    obtain ⟨state, -, spoken⟩ := observe_shown (ownNode s) 0 (ownPlate s).1 (ownPlate s).2 (stage (beaconsSent s) == 6)
      (beaconsSent s)
    have sent := beaconsSent_sendStep s
    have sameStage : stage (beaconsSent s) = stage s := sent.kept _ (by decide)
    refine ⟨_, execBeaconInterval_observed hup hcfg ho, state.trans ?_, spoken⟩
    rw [classify_congr sent.cfg, sameStage]
  case silence =>
    intro n s hr hup hd ho hst
    refine ⟨_, execNodeSilence_silent hr hup hd ho hst, leaf_leafSet_same _ _ _, ?_⟩
    rw [leafSet_alm]
    exact mem_sins _ _
  case period =>
    intro s hup hcfg
    exact congrArg Host.Outcome.next (if_neg (linkServed hup hcfg))
  case digest =>
    intro port msg b i u s ha hlen he hp
    exact ⟨_, exec_rosterDigest_taken ha hlen he hp, digestTaken_root i b u⟩
  case range =>
    intro port msg b i u s ha hp hreq hlen hidx
    exact exec_rosterRange_asked ha hp hreq hlen hidx
  case read =>
    intro port msg b u s ha hlen
    exact exec_remoteRead_answered ha hlen
  case answer =>
    intro port msg b r u s ha hlen hr
    refine ⟨_, exec_remoteReadRsp_open ha hlen hr, ?_, fun hok howner ht => ?_⟩
    · split
      · exact answerTaken_opens r b u
      · exact answerRefused_opens r b u
    · rw [if_pos ⟨hok, howner⟩]
      exact answerTaken_sigEnt b ht
  case write =>
    intro port msg b u s ha hlen hn hs ht hid
    have own := sigOwner_of_remoteStatus hs
    refine ⟨_, exec_remoteWrite_new ha hlen hn hs hid, ?_⟩
    obtain ⟨value, writer⟩ := writeTaken_sigEnt (msgNode msg) (leAt b 0 4) (leAt b 8 8) own ht
    rw [sigEnt, remoteAnswer_sig, (remoteAnswer_sendStep ..).writes]
    exact ⟨value, writer, writeTaken_writes _ _ _ own⟩
  case retry =>
    intro id r s hr hup hd ht hk
    obtain ⟨t, heq, sent⟩ := execRemoteRetry_again hr hup hd ht hk
    refine ⟨t, heq, sent.opens, ?_⟩
    rw [sent.kept _ (by decide)]
    exact rd_inc_same F.PRF_RR_RETRIES (openAgain id s) (by decide)
  case fail =>
    intro id r s hr hup hd ht hk
    exact ⟨_, execRemoteRetry_failed hr hup hd ht hk, rfl, rd_inc_same F.PRF_RR_FAILS (openDone r s) (by decide),
      regsKept_inc F.PRF_RR_FAILS (openDone r s)⟩
  case fragment =>
    intro port msg b u s ha hc hlen hi hn hparts
    exact ⟨_, exec_snapshotMessage_collected ha hc, partAdd_first hlen hi hn hparts⟩
  case timeout =>
    intro n k q s hup hd
    refine ⟨_, exec_snapshotReassembly_due hup hd, rfl, ?_, rfl⟩
    exact rd_inc_same F.PRF_SNAP_INCOMPLETE (partDropped n k q s) (by decide)
  case diag =>
    intro port msg b u s ha hlen hn hd
    exact exec_tunnel_diag ha hlen hn hd
  case routed =>
    intro port msg b l v u s ha hlen hn hd hr
    exact exec_tunnel_routed ha hlen hn hd hr
  case health =>
    intro port msg b i u s ha hlen hp
    exact ⟨_, exec_timeHealth_kept ha hlen hp, tfind_tput_same _ _ _, rfl⟩
  case interval =>
    intro b0 b1 b2 b3 s0 s1 s2 s3 s hup hcfg h0 h1 h2 h3
    simp only [exec_timeHealthInterval, execTimeHealthInterval, if_neg (linkServed hup hcfg), List.foldl_cons, List.foldl_nil, h0,
      h1, h2, h3, List.nil_append]
  case resync =>
    intro s hawake hlost
    simp [execResyncEnd, when, hawake, hlost]

end Sys2Proof.Machine
